-- ==== Sys2Proof/Word.lean ====
section
/-! DEFINITION. The word types of the DLR-1024 (00_scope R4, R6): bytes, 32-bit register words, 40-bit fabric
addresses and the master IDs of 11_memory_fabric R351. -/

namespace Sys2Proof

/-- One byte of memory, of a frame or of a message. -/
abbrev Byte := BitVec 8

/-- A register, an engine data register, a table word: every register is 32 bits wide (02 "Access rules"). -/
abbrev Word := BitVec 32

/-- An address of the one 40-bit address space (R42). -/
abbrev Addr := BitVec 40

/-- A fabric master ID (R351). -/
abbrev Master := BitVec 7

end Sys2Proof
end

