-- ==== Sys2Proof/Syntax.lean ====
section
/-! DEFINITION. The commands of the DLR-1024: one constructor of Instr for each row of spec/opcode_table.json, with
the row's operands. A command that a master issues carries the master's ID and the value written; an event of the
analogue world, of a pin or of the network carries what the world supplies (a measured error, a frame's bytes, a
training outcome); an event whose moment the device's own state fixes carries nothing. -/

namespace Sys2Proof

/-- The stages of 01_signal_path R27, R29: the blocks that start and complete a sheet. -/
inductive Stage where
  | icb
  | geometry (cluster : Fin 4)
  | vat (v : Fin 32)
  | tree
  | mix
  | out
  | conv
  deriving DecidableEq, Repr

/-- The two PLLs (R76, R79). -/
inductive Pll where
  | a | b
  deriving DecidableEq, Repr

/-- The clock outputs (R104, R105). -/
inductive ClockOut where
  | mclk (n : Fin 4)
  | wclk (n : Fin 4)
  deriving DecidableEq, Repr

/-- The PCI Express AtomicOps that the endpoint completes (R357). -/
inductive AtomicOp where
  | fetchAdd | swap | cas
  deriving DecidableEq, Repr

/-- The outcome of one DRAM training (R383, R384): the eye widths of a passing setting, or no setting found. -/
inductive TrainResult where
  | pass (winRd winWr : BitVec 8)
  | fail
  deriving DecidableEq, Repr

/-- What caused a power-on reset (R449): VDD_AON power-up or the POR_N pin. -/
inductive PorCause where
  | powerOn | pin
  deriving DecidableEq, Repr

/-- A receive lane that can see a 64b/66b block error (R127, R418): of an Ethernet port, or of an Apsal port. -/
inductive Lane where
  | mac (p : Fin 4)
  | apsal (q : Fin 2)
  deriving DecidableEq, Repr

/-- The commands, one per row of the opcode table, in the table's order. -/
inductive Instr where
  /-- REGISTER_WRITE (R52). A write to a register that has no row of its own is resolved by the access-rule table and then acts as its access code states. -/
  | registerWrite (m : Master) (addr : Addr) (width : Nat) (value : Word)
  /-- ACCESS_64 (R54). A 64-bit register access is split into low and high 32-bit parts, or done in one clock for a 64-bit pair. -/
  | access64 (m : Master) (addr : Addr) (write : Bool) (value : BitVec 64)
  /-- PAIR_LOW_READ (R55). A 32-bit read of the low half of a 64-bit pair captures the high half into the pair latch. -/
  | pairLowRead (m : Master) (addr : Addr)
  /-- PAIR_HIGH_READ (R55). A 32-bit read of the high half of a pair returns the latched value when the tag matches, otherwise the live value. -/
  | pairHighRead (m : Master) (addr : Addr)
  /-- PAIR_LOW_WRITE (R55). A 32-bit write of the low half of a pair is held in the pair latch and tagged. -/
  | pairLowWrite (m : Master) (addr : Addr) (value : Word)
  /-- PAIR_HIGH_WRITE (R55). A 32-bit write of the high half of a pair commits both halves on a tag match, otherwise writes the high half alone. -/
  | pairHighWrite (m : Master) (addr : Addr) (value : Word)
  /-- PCIE_REGISTER_BURST (R56). A PCIe request longer than 8 bytes to register space is split into ascending 32-bit accesses. -/
  | pcieRegisterBurst (fn : Fin 2) (addr : Addr) (write : Bool) (words : List Word)
  /-- EVENT_CLEAR (R47). Writing 1 to an EVENT bit clears it unless its cause occurs in the same fabric cycle. -/
  | eventClear (m : Master) (page : Fin 4096) (mask sameCycle : Word)
  /-- EVENT_SET (R47). Writing 1 to an EVENT_SET bit sets the matching EVENT bit without other effect. -/
  | eventSet (m : Master) (page : Fin 4096) (mask : Word)
  /-- LOCK_WRITE (R49). Writing the key to LOCK of an unlocked page locks its RWL fields; any write to a locked page's LOCK answers TERR. -/
  | lockWrite (m : Master) (page : Fin 4096) (value : Word)
  /-- TMR_READ (R58). A read of a triplicated field returns the majority and writes it back to disagreeing copies. -/
  | tmrRead (m : Master) (addr : Addr) (width : Nat)
  /-- TMR_WALK (R58). The background walk visits a triplicated field and corrects disagreeing copies. -/
  | tmrWalk (addr : Addr)
  /-- VEC_ACK (R62). Writing 1 to a VEC_ACK bit requests a new MSI-X message for a vector that is still active. -/
  | vecAck (m : Master) (mask : Word)
  /-- MSIX_UNMASK (R62). Unmasking a vector with its pending bit set sends the pending MSI-X message. -/
  | msixUnmask (fn : Fin 2) (vector : Fin 32)
  /-- SNAP_IN_EDGE (R63). A rising edge on SNAP_IN is recognised as snapshot trigger 0. -/
  | snapInEdge
  /-- SNAP_CMD_TRIG (R63). Writing 1 to SYS.SNAP_CMD[TRIG] is recognised as snapshot trigger 1. -/
  | snapCmdTrig (m : Master)
  /-- HSI_MATCH (R63). The first house sample whose HSI reaches SNAP.MATCH_HSI fires snapshot trigger 2 once. -/
  | hsiMatch
  /-- MATCH_HSI_WRITE (R63). A write of the match HSI arms the match once, or latches MATCH_PAST if the value is not in the future. -/
  | matchHsiWrite (m : Master) (value : BitVec 64)
  /-- SNAPSHOT (R64). 32 fabric cycles after a recognised trigger every participating page latches its snapshot registers and SNAP records the snapshot. -/
  | snapshot
  /-- SNAP_THAW (R64). Writing 1 to SNAP_CTRL[THAW] returns a page's counter view to live values. -/
  | snapThaw (m : Master) (page : Fin 4096) (value : Word)
  /-- DUMP_DONE (R67). At the end of a dump the engine writes DONE_SEQ and latches DUMP_DONE. -/
  | dumpDone
  /-- DUMP_ABORT (R68). Writing ABORT stops a running dump at the next line, releases held writes and latches DUMP_REFUSED. -/
  | dumpAbort (m : Master) (value : Word)
  /-- SHEET_BOUNDARY (R11). At each sheet boundary slot s begins and the boundary-aligned actions of all blocks take place. -/
  | sheetBoundary
  /-- STAGE_START (R27). A stage starts work on a sheet once its inputs exist and it holds a credit toward each consumer, spending the credits. -/
  | stageStart (stage : Stage)
  /-- STAGE_COMPLETE (R27). A stage finishes with a sheet and returns credits to its producers. -/
  | stageComplete (stage : Stage)
  /-- RECEIVE_CUT_OFF (R142). At the receive cut-off a sheet closes, missing samples read zero with fades and loss is counted. -/
  | receiveCutOff
  /-- INSERT_EXCHANGE (R31). At the insert exchange point MIX swaps the mailboxes of every engine and starts a sheet program in each waiting engine. -/
  | insertExchange
  /-- SEND_CUT_OFF (R32). At the send cut-off TXS checks whether each TX stream's sheet is complete and takes it into its packet. -/
  | sendCutOff
  /-- PACKET_LAUNCH (R148). At the boundary after a packet's last sheet TXS hands the frame to the media queue in context order. -/
  | packetLaunch
  /-- REF_LOSS (R75). No REF_CLK_IN edge for 8 periods freezes both PLL tuning words and sends TIME to holdover. -/
  | refLoss
  /-- REF_RETURN (R75). After 4096 consecutive REF_CLK_IN periods each PLL relocks at a limited frequency slope. -/
  | refReturn
  /-- PLL_LOCK (R78). A PLL becomes locked after 4096 consecutive comparisons below 500 ps. -/
  | pllLock (pll : Pll)
  /-- PLL_UNLOCK (R78). A PLL becomes unlocked after 64 consecutive comparisons above 2 ns. -/
  | pllUnlock (pll : Pll)
  /-- PLLB_APPLY (R81). Writing APPLY starts a PLL-B change by putting DRAM into self-refresh and the memory clock on bypass. -/
  | pllbApply (m : Master) (value : Word)
  /-- PLLB_CHANGE_LOCK (R81). PLL-B locks with the new settings, the memory clock switches back and PLLB_DONE latches. -/
  | pllbChangeLock
  /-- PLLB_FAIL (R81). PLL-B not locked 8 sheets after APPLY keeps bypass, latches PLLB_FAIL and leaves DRAM in self-refresh. -/
  | pllbFail
  /-- REF_SEL_WRITE (R87). A write that changes the discipline source sends the servo to HOLDOVER, ACQUIRE or FREERUN. -/
  | refSelWrite (m : Master) (value : Word)
  /-- FORCE_HOLD (R93). Setting FORCE_HOLD holds the servo in HOLDOVER; clearing it sends the servo to ACQUIRE or FREERUN. -/
  | forceHold (m : Master) (value : Word)
  /-- MEAS_PUSH (R90). Writing MEAS_PUSH queues the measurement record into the FIFO. -/
  | measPush (m : Master)
  /-- MEAS_FLUSH (R109). Writing MEAS_FLUSH empties the measurement record FIFO. -/
  | measFlush (m : Master) (value : Word)
  /-- SOURCE_LOSS (R93). The selected reference is lost for its timeout and the servo enters HOLDOVER with reason LOSS. -/
  | sourceLoss
  /-- WCLK_ACQUIRE_COMPLETE (R94). 64 consecutive sheets with WCLK_IN or TENM_IN present complete acquisition and start the phase slew. -/
  | wclkAcquireComplete (freqErr theta : Int)
  /-- SLEW_END (R96). The planned slew ends on a sheet boundary and the servo enters TRACK. -/
  | slewEnd
  /-- MUTE_SHEET_STEP (R97). At the armed mute sheet the pending step is made and ARMED clears. -/
  | muteSheetStep
  /-- REANCHOR_SLEW (R98). ACTION = SLEW in REANCHOR_WAIT starts slewing at SLEW_LIM. -/
  | reanchorSlew (m : Master)
  /-- REANCHOR_STEP (R98). ACTION = STEP in REANCHOR_WAIT schedules a step at the armed mute sheet or 16 sheets later. -/
  | reanchorStep (m : Master)
  /-- REANCHOR_STAY (R98). ACTION = STAY keeps the servo in holdover and ignores the source until SRC is written. -/
  | reanchorStay (m : Master)
  /-- HSI_STEP (R100). At a step boundary the HSI moves by 6D samples, GEN increments and buffers, queues and pads are emptied. -/
  | hsiStep
  /-- HSI_SET_CMD (R102). Writing APPLY requests a step of the HSI to HSI_SET at the next sheet boundary. -/
  | hsiSetCmd (m : Master)
  /-- CAPTURE (R110). Writing CAPTURE captures the HSI, PH and GEN of one fabric cycle. -/
  | capture (m : Master)
  /-- CLOCK_OUTPUT_ENABLE (R106). An enabled clock output starts at the next low phase with a full-width rising edge. -/
  | clockOutputEnable (o : ClockOut)
  /-- CLOCK_OUTPUT_DISABLE (R106). A disabled clock output finishes its high phase and takes its disabled state. -/
  | clockOutputDisable (o : ClockOut)
  /-- SYNC_IN_EDGE (R107). An accepted SYNC_IN rising edge re-phases all enabled clock outputs and latches SYNC_DONE. -/
  | syncInEdge (place : Fin 6)
  /-- SYNC_PTP_SECOND (R107). In mode 2 the clock outputs return to the house grid at the next PTP second. -/
  | syncPtpSecond
  /-- LOCK_F_WINDOW (R108). Each 400-cycle window sets the LOCK_F low time from the mean PLL-A phase error. -/
  | lockFWindow (err : BitVec 16)
  /-- PCS_RESTART (R114). A write changing SPEED or FEC takes the link down and restarts the PCS. -/
  | pcsRestart (m : Master) (p : Fin 4) (value : Word)
  /-- LINK_UP (R114). The PCS acquires block lock and LINK rises, latching LINK_UP. -/
  | linkUp (p : Fin 4)
  /-- LINK_DOWN (R152). The PCS loses block lock or sees a link fault and LINK falls, latching LINK_DOWN. -/
  | linkDown (p : Fin 4)
  /-- FRAME_RECEIVE (R119). A whole received frame is checked and classified to RXS, a receive ring, or discard. -/
  | frameReceive (p : Fin 4) (frame : List Byte) (pcsError : Bool)
  /-- LEG_TIMEOUT (R141). A leg without an accepted packet for LEG_TIMEOUT sheets goes down and latches LEG_DOWN. -/
  | legTimeout (ctx : Fin 256) (leg : Fin 2)
  /-- PAUSE_FRAME_RECEIVE (R124). A received pause frame stops or resumes the control and bulk queues and restarts the pause timer. -/
  | pauseFrameReceive (p : Fin 4) (quanta : BitVec 16)
  /-- PAUSE_EXPIRE (R124). The pause timer runs out and the control and bulk queues resume. -/
  | pauseExpire (p : Fin 4)
  /-- RING_ENABLE (R128). A rising RING_SIZE[EN] enables a control ring and resets HEAD to 0. -/
  | ringEnable (m : Master) (p : Fin 4) (r : Fin 8) (value : Word)
  /-- RING_TAIL_WRITE (R128). The host advances TAIL and gives descriptors to the device. -/
  | ringTailWrite (m : Master) (p : Fin 4) (r : Fin 8) (value : Word) (hostBytes : List (Nat × Byte))
  /-- FRAME_TRANSMIT (R123). At a frame boundary the MAC chooses the next frame by strict queue priority and starts it. -/
  | frameTransmit (p : Fin 4)
  /-- TX_DESCRIPTOR_COMPLETE (R131). A transmit descriptor completes in ring order, with timestamp or DONE_ERR, and latches TXR_DONE. -/
  | txDescriptorComplete (p : Fin 4) (r : Fin 8)
  /-- LPI_ENTRY (R125). After the queues stay empty for LPI_IDLE with no media context, the MAC enters transmit low-power idle. -/
  | lpiEntry (p : Fin 4)
  /-- LPI_WAKE (R125). The MAC leaves low-power idle and holds every queue for TW_SYS. -/
  | lpiWake (p : Fin 4)
  /-- RX_LPI_ENTRY (R125). The link partner enters low-power idle and the MAC honours it. -/
  | rxLpiEntry (p : Fin 4)
  /-- DC_FREEZE (R165). Writing a DC_FREEZE bit holds or resumes the channel's DC estimate from its next sheet. -/
  | dcFreeze (m : Master) (x : Fin 32) (value : Word)
  /-- DC_CLEAR (R165). Writing a DC_CLEAR bit sets the channel's DC estimate to zero from its next sheet. -/
  | dcClear (m : Master) (x : Fin 32) (value : Word)
  /-- METADATA_PUSH (R189). A write that includes byte 0x1F of an inbox slot pushes the record into the object's queue or rejects it. -/
  | metadataPush (m : Master) (slot : Fin 128) (ofs : Fin 32) (data : List Byte)
  /-- Q_FLUSH (R190). Writing Q_FLUSH with GO discards every queued record of one object. -/
  | qFlush (m : Master) (value : Word)
  /-- FADE_CMD (R252). Writing FADE_CMD with GO queues a crosspoint gain change without a press, or latches FADE_OVF when full. -/
  | fadeCmd (m : Master) (value : Word)
  /-- TEST_CFG_WRITE (R249). A change of the test generator waveform takes effect at the next sheet MIX starts. -/
  | testCfgWrite (m : Master) (value : Word)
  /-- MUTE (R271). A change of an output mute fades the output out or in from the next output sheet. -/
  | mute (m : Master) (x : Option (Fin 16)) (value : Word)
  /-- PRESS_GO (R258). Writing REQ[GO] requests a local commit at sheet N and starts the checks and solver. -/
  | pressGo (m : Master) (value : Word)
  /-- PRESS_RING_GO (R262). Writing REQ[GO] with RING on a manager starts a distributed press over the ring. -/
  | pressRingGo (m : Master) (value : Word)
  /-- PRESS_ABORT (R259). Writing REQ[ABORT] before slot N − 1 refuses the pending press with ABORTED. -/
  | pressAbort (m : Master) (value : Word)
  /-- PRESS_CHECKS_DONE (R258). The checks and solver end and the press either waits for sheet N or is refused. -/
  | pressChecksDone
  /-- PRESS_COMMIT (R257). At sheet N every pressable parameter changes together and COMMITTED latches. -/
  | pressCommit
  /-- CONV_ENABLE (R301). A rise of CONV.CTRL[EN] cold-starts the send ring, delay lines and return buffers. -/
  | convEnable (m : Master) (value : Word)
  /-- CONV_DRAM_BASE_WRITE (R304). A write that changes DRAM_BASE sets both filter sets to EMPTY. -/
  | convDramBaseWrite (m : Master) (value : Word)
  /-- CONV_LOAD (R294). Writing LOAD with GO starts loading a filter set, or refuses and latches LOAD_FAIL. -/
  | convLoad (m : Master) (value : Word)
  /-- CONV_RELOAD (R300). Writing LOAD with RELOAD rebuilds a LOST set's stage-2 spectra after comparing derived data. -/
  | convReload (m : Master) (value : Word)
  /-- CONV_LOAD_ABORT (R294). Writing ABORT ends a running load after the current output with the set FAILED. -/
  | convLoadAbort (m : Master) (value : Word)
  /-- CONV_LOAD_DONE (R294). A load or reload completes, the set becomes READY and LOAD_DONE latches. -/
  | convLoadDone
  /-- CONV_LOAD_FAIL (R294). A load ends FAILED on a read error or DRAM loss and latches LOAD_FAIL. -/
  | convLoadFail (reason : Fin 16)
  /-- TAIL_FETCH_DEADLINE (R289). At the stage-2 fetch deadline missing partitions are omitted and counted as TAIL_DROP. -/
  | tailFetchDeadline (out : Fin 512) (missing : List (Fin 28))
  /-- CONV_VERIFY_DONE (R300). The digest check after DRAM returns ends and sets states, LOST or BYPASS_OFF. -/
  | convVerifyDone
  /-- NOP (R328). The engine issues an instruction with no operation. -/
  | ieNop (e : Fin 8)
  /-- DONE (R311). DONE signals completion of the sheet program after two delay slots. -/
  | ieDone (e : Fin 8)
  /-- COMPLETION (R311). Three clocks after DONE the program completes, CYC_LAST is recorded and the engine enters WAIT. -/
  | completion (e : Fin 8)
  /-- BR (R317). A conditional branch changes PC after two delay slots. -/
  | ieBr (e : Fin 8) (cond : Fin 16) (target : BitVec 14)
  /-- CALL (R317). A conditional call saves the return address and branches. -/
  | ieCall (e : Fin 8) (cond : Fin 16) (target : BitVec 14)
  /-- RET (R317). A conditional return sets PC from RA. -/
  | ieRet (e : Fin 8) (cond : Fin 16)
  /-- RETI (R320). A return from interrupt restores PC and FL from IPC and IFL. -/
  | ieReti (e : Fin 8)
  /-- REP (R318). The next instruction is issued n times in consecutive clocks. -/
  | ieRep (e : Fin 8) (n : BitVec 12)
  /-- REPR (R318). The next instruction is repeated a register-given number of times. -/
  | ieRepr (e : Fin 8) (rs : Fin 16)
  /-- LOOP (R319). A hardware loop executes its body n times. -/
  | ieLoop (e : Fin 8) (n : BitVec 12) (last : BitVec 14)
  /-- LOOPR (R319). A hardware loop executes its body a register-given number of times. -/
  | ieLoopr (e : Fin 8) (rs : Fin 16) (last : BitVec 14)
  /-- FLAG (R328). FLAG sets and clears flag bits and may latch SIGNAL. -/
  | ieFlag (e : Fin 8) (sig : Bool) (set clr : BitVec 5)
  /-- ADD (R328). rd takes rs plus rt under the saturation rule. -/
  | ieAdd (e : Fin 8) (s : Bool) (rd : Fin 16) (rs : Fin 16) (rt : Fin 16)
  /-- SUB (R328). rd takes rs minus rt under the saturation rule. -/
  | ieSub (e : Fin 8) (s : Bool) (rd : Fin 16) (rs : Fin 16) (rt : Fin 16)
  /-- ADDI (R328). rd takes rs plus a signed immediate. -/
  | ieAddi (e : Fin 8) (s : Bool) (rd : Fin 16) (rs : Fin 16) (imm : BitVec 17)
  /-- NEG (R328). rd takes the negation of rs. -/
  | ieNeg (e : Fin 8) (s : Bool) (rd : Fin 16) (rs : Fin 16)
  /-- ABS (R328). rd takes the magnitude of rs. -/
  | ieAbs (e : Fin 8) (s : Bool) (rd : Fin 16) (rs : Fin 16)
  /-- MULQ (R324). rd takes the rounded product of rs and rt divided by 2^30. -/
  | ieMulq (e : Fin 8) (s : Bool) (rd : Fin 16) (rs : Fin 16) (rt : Fin 16)
  /-- SHLI (R328). rd takes rs shifted left by an immediate. -/
  | ieShli (e : Fin 8) (s : Bool) (rd : Fin 16) (rs : Fin 16) (sh : BitVec 5)
  /-- SRAI (R328). rd takes rs arithmetically shifted right with optional rounding. -/
  | ieSrai (e : Fin 8) (rd : Fin 16) (rs : Fin 16) (sh : BitVec 5) (rnd : Bool)
  /-- MIN (R328). rd takes the smaller of rs and rt. -/
  | ieMin (e : Fin 8) (rd : Fin 16) (rs : Fin 16) (rt : Fin 16)
  /-- MAX (R328). rd takes the larger of rs and rt. -/
  | ieMax (e : Fin 8) (rd : Fin 16) (rs : Fin 16) (rt : Fin 16)
  /-- CMP (R328). Z and N are set from rs minus rt. -/
  | ieCmp (e : Fin 8) (rs : Fin 16) (rt : Fin 16)
  /-- CMPI (R328). Z and N are set from rs minus an immediate. -/
  | ieCmpi (e : Fin 8) (rs : Fin 16) (imm : BitVec 17)
  /-- AND (R328). rd takes the bitwise and of rs and rt. -/
  | ieAnd (e : Fin 8) (rd : Fin 16) (rs : Fin 16) (rt : Fin 16)
  /-- OR (R328). rd takes the bitwise or of rs and rt. -/
  | ieOr (e : Fin 8) (rd : Fin 16) (rs : Fin 16) (rt : Fin 16)
  /-- XOR (R328). rd takes the bitwise exclusive or of rs and rt. -/
  | ieXor (e : Fin 8) (rd : Fin 16) (rs : Fin 16) (rt : Fin 16)
  /-- ORI (R328). rd takes rs or an unsigned 16-bit immediate. -/
  | ieOri (e : Fin 8) (rd : Fin 16) (rs : Fin 16) (imm : BitVec 16)
  /-- SHR (R328). rd takes rs logically shifted right. -/
  | ieShr (e : Fin 8) (rd : Fin 16) (rs : Fin 16) (sh : BitVec 5)
  /-- MOV (R328). rd takes rs. -/
  | ieMov (e : Fin 8) (rd : Fin 16) (rs : Fin 16)
  /-- LDI (R328). rd takes a sign-extended 21-bit immediate. -/
  | ieLdi (e : Fin 8) (rd : Fin 16) (imm : BitVec 21)
  /-- LUI (R328). rd takes a 16-bit immediate shifted into the upper half. -/
  | ieLui (e : Fin 8) (rd : Fin 16) (imm : BitVec 16)
  /-- LD (R322). rd is loaded from the effective address with optional post-modify. -/
  | ieLd (e : Fin 8) (rd : Fin 16) (ai : Fin 8) (md : Fin 4) (disp : BitVec 16)
  /-- ST (R322). rs is stored to the effective address with optional post-modify. -/
  | ieSt (e : Fin 8) (rs : Fin 16) (ai : Fin 8) (md : Fin 4) (disp : BitVec 16)
  /-- MVTA (R329). A special register takes rs. -/
  | ieMvta (e : Fin 8) (spec : Fin 64) (rs : Fin 16)
  /-- MVFA (R329). rd takes a special register. -/
  | ieMvfa (e : Fin 8) (rd : Fin 16) (spec : Fin 64)
  /-- MODA (R322). An address register is post-modified without access. -/
  | ieModa (e : Fin 8) (ai : Fin 8) (md : Fin 4)
  /-- MAC (R328). An accumulator adds or subtracts the product of rs and rt. -/
  | ieMac (e : Fin 8) (s : Bool) (k : Fin 8) (rs : Fin 16) (rt : Fin 16) (neg clr : Bool)
  /-- DMAC (R328). Two accumulators each add or subtract a product of registers. -/
  | ieDmac (e : Fin 8) (s : Bool) (k : Fin 8) (rs : Fin 16) (rt : Fin 16) (ru : Fin 16) (rv : Fin 16) (neg clr : Bool)
  /-- MXY (R328). An accumulator adds the product of an X and a Y memory operand and XL takes the X value. -/
  | ieMxy (e : Fin 8) (s : Bool) (k : Fin 8) (ai : Fin 8) (mi : Fin 4) (aj : Fin 8) (mj : Fin 4) (neg clr : Bool)
  /-- DMXY (R328). Two accumulators add X·Y and XL_old·Y from one X and one Y load. -/
  | ieDmxy (e : Fin 8) (s : Bool) (k : Fin 8) (ai : Fin 8) (mi : Fin 4) (aj : Fin 8) (mj : Fin 4) (neg clr : Bool)
  /-- SAC (R326). rd takes an accumulator shifted right with rounding and saturation. -/
  | ieSac (e : Fin 8) (s : Bool) (rd : Fin 16) (k : Fin 8) (sh : BitVec 8) (rnd : Bool)
  /-- LAC (R326). An accumulator takes rs shifted left. -/
  | ieLac (e : Fin 8) (k : Fin 8) (rs : Fin 16) (sh : BitVec 8)
  /-- ADDA (R328). An accumulator adds another accumulator. -/
  | ieAdda (e : Fin 8) (s : Bool) (k j : Fin 8)
  /-- SUBA (R328). An accumulator subtracts another accumulator. -/
  | ieSuba (e : Fin 8) (s : Bool) (k j : Fin 8)
  /-- SHA (R326). An accumulator shifts by a signed amount. -/
  | ieSha (e : Fin 8) (s : Bool) (k : Fin 8) (sh : BitVec 8)
  /-- CLRA (R328). Each accumulator named in the mask is cleared. -/
  | ieClra (e : Fin 8) (mask : BitVec 8)
  /-- ILLEGAL_OPCODE (R328). A reserved opcode stops the engine with FAULT cause ILLEGAL. -/
  | illegalOpcode (e : Fin 8) (word : Word)
  /-- INTERRUPT_ACCEPT (R320). At a permitted boundary the engine accepts a pending unmasked interrupt and jumps to IVEC. -/
  | interruptAccept (e : Fin 8)
  /-- DOORBELL (R320). Writing DOORBELL[RING] sets the DOOR interrupt pending bit. -/
  | doorbell (m : Master) (e : Fin 8) (value : Word)
  /-- BULK_TRANSFER_DONE (R331). A bulk transfer ends with DONE or ERR and sets the BULK interrupt pending bit. -/
  | bulkTransferDone (e : Fin 8)
  /-- IE_LOAD_DONE (R334). A program image load ends with LOAD_DONE or LOAD_FAIL and the engine stops or runs. -/
  | ieLoadDone (e : Fin 8)
  /-- HALT (R336). Writing CTRL[HALT] stops the engine after issued instructions and sets HALTED. -/
  | halt (m : Master) (e : Fin 8) (value : Word)
  /-- RESTART (R336). Writing CTRL[RESTART] clears HALTED and the fault and restarts or reloads the engine. -/
  | restart (m : Master) (e : Fin 8) (value : Word)
  /-- DM_DATA_ACCESS (R340). An access to DM_DATA reaches the selected data word and advances DM_ADDR. -/
  | dmDataAccess (m : Master) (e : Fin 8) (write : Bool) (value : Word)
  /-- PM_DATA_READ (R340). A read of PM_DATA returns the selected program word and advances PM_ADDR. -/
  | pmDataRead (m : Master) (e : Fin 8)
  /-- SRAM_READ (R347). A fabric read of SRAM returns corrected data or poisons an uncorrectable word. -/
  | sramRead (m : Master) (addr : Addr) (width : Nat)
  /-- SRAM_WRITE (R346). A fabric write to SRAM writes whole words or performs an atomic read-modify-write. -/
  | sramWrite (m : Master) (addr : Addr) (data : List Byte)
  /-- SCRUB_VISIT (R350). The scrubber reads, corrects and rewrites the next word, ending a pass at the last word. -/
  | scrubVisit
  /-- SRAM_INJECT (R364). Writing INJ_CTRL with GO inverts stored data bytes of one SRAM word. -/
  | sramInject (m : Master) (value : Word)
  /-- ATOMIC_OP (R357). A PCIe AtomicOp becomes one locked sequence of a locked read and a closing write. -/
  | atomicOp (m : Master) (op : AtomicOp) (addr : Addr) (wide : Bool) (operand compare : BitVec 64)
  /-- CLOSING_WRITE (R358). The closing write of a locked sequence writes and releases the lock, or answers LERR if broken. -/
  | closingWrite (m : Master) (addr : Addr) (data : List Byte)
  /-- LOCK_BREAK (R358). A lock held 32 cycles without its closing write is broken, counted and latches LOCK_BREAK. -/
  | lockBreak
  /-- PCIE_MEMORY_REQUEST (R486). A PCIe memory request to the SRAM or DRAM windows is split into aligned fabric requests. -/
  | pcieMemoryRequest (fn : Fin 2) (addr : Addr) (write : Bool) (bytes : List (Option Byte))
  /-- DRAM_READ (R370). A DRAM read returns corrected data or answers TERR for an uncorrectable line. -/
  | dramRead (m : Master) (addr : Addr) (width : Nat)
  /-- DRAM_WRITE (R369). A DRAM write writes a whole line or performs an atomic read-modify-write. -/
  | dramWrite (m : Master) (addr : Addr) (data : List Byte)
  /-- REGULATOR_REFILL (R374). Every microsecond each regulator bucket gains its rate up to its ceiling. -/
  | regulatorRefill
  /-- REFRESH_OWED (R378). A refresh becomes owed, and at the limit a forced refresh is issued at once. -/
  | refreshOwed (c : Fin 4)
  /-- REFRESH_ISSUE (R377). An owed refresh is issued to an idle bank in round-robin order. -/
  | refreshIssue (c : Fin 4)
  /-- TEMP_SAMPLE (R450). The die temperature is sampled and compared with the warning, shutdown and refresh thresholds. -/
  | tempSample (deg : BitVec 12)
  /-- MR4_READ (R379). Every 16 ms the MR4 refresh-rate field of each channel is read and the refresh rate chosen. -/
  | mr4Read (rate0 rate1 rate2 rate3 : Fin 3)
  /-- PAGE_CFG_WRITE (R376). A write to PAGE_CFG selects the page policy and resets every predictor counter to weak open. -/
  | pageCfgWrite (m : Master) (c : Fin 4) (value : Word)
  /-- DRAM_INIT (R383). Writing DPHY.CTRL[INIT] brings up every populated channel through training and initialisation. -/
  | dramInit (m : Master) (value : Word)
  /-- DRAM_INIT_DONE (R383). The bring-up ends with each channel ONLINE, DEGRADED or OFFLINE and latches INIT_DONE. -/
  | dramInitDone (results : List TrainResult)
  /-- TRAIN_TURN (R383). A channel's periodic turn re-centres its read and write settings or enters RETRAIN. -/
  | trainTurn (c : Fin 4) (passing : Bool)
  /-- DRC_RETRAIN (R384). Writing DRCc.CTRL[RETRAIN] runs training steps at once, or full bring-up from OFFLINE. -/
  | drcRetrain (m : Master) (c : Fin 4) (value : Word)
  /-- TRAINING_DONE (R384). A training ends and the channel becomes ONLINE, DEGRADED or OFFLINE. -/
  | trainingDone (c : Fin 4) (result : TrainResult)
  /-- SELF_REFRESH_ENTRY (R385). For a PLL-B change each channel finishes bursts, forces owed refreshes and enters self-refresh. -/
  | selfRefreshEntry (c : Fin 4)
  /-- DRAM_INJECT (R387). Writing DRCc.INJ_CTRL with GO inverts stored data bytes of one DRAM line. -/
  | dramInject (m : Master) (c : Fin 4) (value : Word)
  /-- APSAL_FRAME_RECEIVE (R395). A sheet frame arriving on an Apsal port is checked, used and forwarded with the device's own writes. -/
  | apsalFrameReceive (q : Fin 2) (frame : List Byte) (rxStamp txStamp : Int)
  /-- APSAL_PORT_DOWN (R390). A port disabled, without block lock or without a valid frame for 8 sheets goes DOWN and may start a wrap. -/
  | apsalPortDown (q : Fin 2)
  /-- WRAP_END (R401). After the failed port has been UP for 64 frames the wrap ends at the next boundary. -/
  | wrapEnd (q : Fin 2)
  /-- HEARTBEAT (R405). A HEARTBEAT message updates SEEN and MEMBERS. -/
  | heartbeat (pos : Fin 32) (w0 : Word)
  /-- EVT_SUM (R407). An EVT_SUM message updates the position's REM_EVT on the manager. -/
  | evtSum (pos : Fin 32) (w0 : Word)
  /-- RRA_REQ (R406). A target executes a remote register access as master 0x03 and returns a response. -/
  | rraReq (tag : BitVec 8) (op : Fin 8) (addr : Addr) (data : BitVec 64) (cmp : Word)
  /-- RRA_RSP (R406). The manager takes a remote access response, clears BUSY and latches RRA_DONE. -/
  | rraRsp (tag : BitVec 8) (resp : Fin 8) (data : BitVec 64)
  /-- RRA_GO (R406). Writing RRA_CTRL with GO sends a remote access request or completes it locally or with NO_MEMBER. -/
  | rraGo (m : Master) (value : Word)
  /-- RRA_TIMEOUT (R406). A remote access without response for 16 sheets completes with TIMEOUT. -/
  | rraTimeout
  /-- PRESS_REQ (R408). A MEMBER receiving PRESS_REQ sets PENDING and runs its checks on the distributed press. -/
  | pressReq (id : BitVec 8) (sheet : BitVec 48)
  /-- PRESS_TABLE (R408). A PRESS_TABLE segment copies L, the forwarded map and RC into a MEMBER's SHADOW bank. -/
  | pressTable (payload : List Byte)
  /-- PRESS_VOTE (R408). The manager records a MEMBER's vote on the distributed press. -/
  | pressVote (pos : Fin 32) (id : BitVec 8) (reason : Fin 16) (node : BitVec 16)
  /-- PRESS_DECISION (R408). On the first refusal, all accepting votes or slot N − 4, the manager decides the distributed press. -/
  | pressDecision
  /-- PRESS_DECIDE (R409). A device receiving PRESS_DECIDE holds GO for sheet N or refuses at once on ABORT. -/
  | pressDecide (id : BitVec 8) (go : Bool) (dev : Fin 32) (reason : Fin 16) (node : BitVec 16)
  /-- STEP (R410). A STEP message schedules the commanded HSI step at boundary B on a worker. -/
  | ringStep (sheets : BitVec 64) (boundary : BitVec 48)
  /-- SNAP (R411). A SNAP message schedules ring snapshot trigger 4 at the named HSI or latches SNAP_LATE. -/
  | ringSnap (hsi : BitVec 64)
  /-- RING_SNAP_GO (R411). Writing RING.SNAP_CMD[GO] schedules a ring snapshot or latches SNAP_LATE. -/
  | ringSnapGo (m : Master)
  /-- RING_SNAP_TRIGGER (R63). At the ring snapshot HSI a device recognises snapshot trigger 4. -/
  | ringSnapTrigger
  /-- WMK_REPORT (R416). The manager compares a WMK_REPORT with its own digests and updates the mismatch bits. -/
  | wmkReport (pos : Fin 32) (k : Word) (tag : BitVec 16) (settled : Bool) (epochSheet : Word) (wRing wGroup : BitVec 64)
  /-- WMK_RESCAN_READ (R415). The rescan reads the next line or register words and compares a finished page with its digest. -/
  | wmkRescanRead
  /-- RING_METADATA_PUSH (R404). At phase 70 µs a worker pushes the frame's metadata records into its inbox. -/
  | ringMetadataPush
  /-- BULK_GO (R397). Writing BLK_CTRL[GO] starts a bulk WRITE transfer through the device's slice. -/
  | bulkGo (m : Master) (value : Word)
  /-- BULK_DONE (R397). The last segment of a bulk transfer leaves and BULK_DONE latches. -/
  | bulkDone
  /-- BULK_WRITE (R397). A WRITE segment is written at its fabric address by the destination device. -/
  | bulkWrite (addr : Addr) (data : List Byte)
  /-- HEARTBEAT_CHECK (R425). At phase 115 µs the manager updates each holder's miss count and declares a failure. -/
  | heartbeatCheck
  /-- GRANT (R426). A GRANT message gives the transmit right to its holder from sheet G or removes it. -/
  | grant (holder partner : Fin 32) (none : Bool) (sheet : BitVec 48)
  /-- FAULT (R426). A FAULT message from a holder makes the manager declare it failed. -/
  | redFault (pos : Fin 32) (cause : BitVec 8)
  /-- STANDBY_STATE (R426). A STANDBY_STATE message updates the manager's view of the standby. -/
  | standbyState (pos : Fin 32) (flags : BitVec 4) (seq sheet : Word)
  /-- MANAGER_HEARTBEAT_CHECK (R427). At phase 70 µs a holder counts the manager heartbeat and fences after 6 misses. -/
  | managerHeartbeatCheck
  /-- ARB_GRANT_ASSERT (R428). ARB_GRANT_N low for 2 µs is asserted and opens the gate at the next boundary. -/
  | arbGrantAssert
  /-- ARB_GRANT_DEASSERT (R428). ARB_GRANT_N high for 2 µs is deasserted and closes the gate at once. -/
  | arbGrantDeassert
  /-- YIELD (R429). Writing CTRL[YIELD] raises fault cause HOST for a planned takeover. -/
  | redYield (m : Master) (value : Word)
  /-- WDOG_KICK (R442). Writing WDOG_KICK restarts the RED watchdog. -/
  | wdogKick (m : Master) (value : Word)
  /-- WATCHDOG_EXPIRE (R429). The watchdog not kicked for WDOG_CFG ms raises fault cause WDOG. -/
  | watchdogExpire
  /-- CHECKPOINT_CAPTURE (R431). At a checkpoint sheet the holder captures its state image, or skips with CKPT_SKIP. -/
  | checkpointCapture
  /-- CHECKPOINT_CAPTURE_DONE (R431). The captured image is complete in DRAM and starts its transfer to the partner. -/
  | checkpointCaptureDone
  /-- CHECKPOINT_OPEN (R434). A KIND 0x10 segment opens a checkpoint in the standby's free slot. -/
  | checkpointOpen (seq len : Word)
  /-- CHECKPOINT_DATA (R433). A KIND 1 segment writes checkpoint data into the standby slot. -/
  | checkpointData (ofs : Nat) (data : List Byte)
  /-- CHECKPOINT_CLOSE (R434). A KIND 0x11 segment checks the CRC and stores or rejects the checkpoint. -/
  | checkpointClose (seq : Word) (crc : BitVec 64)
  /-- TAKEOVER (R436). At G the standby opens its gate with silence, powers up and restores its checkpoint. -/
  | takeover
  /-- RESTORE_DONE (R436). Restore and power-up complete at boundary R and every block starts. -/
  | restoreDone
  /-- AUDIO_ON (R436). At R + S silence ends, the takeover fade starts and AUDIO_ON latches. -/
  | audioOn
  /-- PROOF_RUN (R440). Every INTERVAL seconds a standby starts a self-test of its render domains. -/
  | proofRun
  /-- PROOF_RUN_DONE (R440). A proof run ends with PROOF_DONE or PROOF_FAIL. -/
  | proofRunDone (pass : Bool)
  /-- MODE_REQUEST (R446). Writing PWR.MODE_REQ with GO starts an allowed mode transition or refuses it. -/
  | modeRequest (m : Master) (value : Word)
  /-- MODE_DONE (R446). A transition's last domain change completes, SYS.MODE changes at the boundary and MODE_DONE latches. -/
  | modeDone (micros : BitVec 16)
  /-- DOM_RST (R453). Writing PWR.DOM_RST resets a domain, or latches RST_REFUSED outside CONFIG and SERVICE. -/
  | domRst (m : Master) (value : Word)
  /-- POR (R449). A power-on reset resets everything, samples straps and starts the reset sequence. -/
  | por (cause : PorCause) (straps : BitVec 9) (testEn : Bool)
  /-- RESET_N (R449). RESET_N low for 1 µs resets every domain while the HSI keeps counting. -/
  | resetN
  /-- WDOG_RESET (R452). 16 sheets after watchdog expiry with WDOG_RST set the device performs a RESET_N. -/
  | wdogReset
  /-- RESET_RELEASE (R449). After fuses are read and PLL-A locks the device starts the HSI and enters STANDBY. -/
  | resetRelease (firstTemp : BitVec 12)
  /-- PCIE_PERST (R473). PCIE_PERST_N low resets the PCIe link and configuration space only. -/
  | pciePerst
  /-- VDDIO_UP (R448). Within 1 µs of VDDIO reaching tolerance every output takes its reset state. -/
  | vddioUp
  /-- BROWNOUT_WARN (R451). A rail more than 5 % low for 1 µs sets its SUPPLY bit and latches BROWNOUT_WARN. -/
  | brownoutWarn (rail : Fin 5)
  /-- BROWNOUT (R451). A rail more than 10 % low for 1 µs causes a POR with cause BROWNOUT. -/
  | brownout (straps : BitVec 9) (testEn : Bool)
  /-- BOOT_START (R455). After entering STANDBY the boot controller starts the boot that the strap selects. -/
  | bootStart (sfdp : Option (List Byte))
  /-- BOOT_GO (R455). Writing BOOT.CTRL[GO] starts a boot from the source address. -/
  | bootGo (m : Master) (value : Word)
  /-- BOOT_ABORT (R458). Writing BOOT.CTRL[ABORT] ends a running boot with ABORTED. -/
  | bootAbort (m : Master) (value : Word)
  /-- VERIFY_PASS_DONE (R458). The verify pass ends and the execute pass starts or the boot fails. -/
  | verifyPassDone (image : List Byte)
  /-- WRITE (R457). A WRITE boot record writes a 32-bit value. -/
  | bootWrite (cont : Bool) (addr : Addr) (value : Word)
  /-- MODIFY (R457). A MODIFY boot record reads a word and writes back masked bits. -/
  | bootModify (cont : Bool) (addr : Addr) (mask value : Word)
  /-- LOAD (R457). A LOAD boot record writes a data block in ascending order. -/
  | bootLoad (cont : Bool) (addr : Addr) (data : List Byte)
  /-- FILL (R457). A FILL boot record writes one value to each word of a range. -/
  | bootFill (cont : Bool) (addr : Addr) (len : Nat) (value : Word)
  /-- POLL (R457). A POLL boot record reads until the masked word equals the value. -/
  | bootPoll (cont : Bool) (addr : Addr) (mask value timeout : Word)
  /-- POLL_TIMEOUT (R458). A POLL exceeding its timeout fails the boot with POLL_TIMEOUT. -/
  | pollTimeout
  /-- DELAY (R457). A DELAY boot record waits its time. -/
  | bootDelay (time : Word)
  /-- MODE (R457). A MODE boot record requests a mode and waits for MODE_DONE. -/
  | bootMode (target : BitVec 8)
  /-- END (R458). The END record finishes the boot after the CRC recheck, setting DONE or UNSTABLE. -/
  | bootEnd (image : List Byte)
  /-- SOURCE_RETURN (R93). A lost WCLK_IN or TENM_IN source becomes present again, so the servo leaves HOLDOVER for ACQUIRE when FORCE_HOLD is 0. -/
  | sourceReturn
  /-- SUPPLY_RETURN (R451). A monitored rail that was more than 5 % low comes back within limits, clearing its SUPPLY bit, LOW_SUPPLY and fault cause SUPPLY. -/
  | supplyReturn (rail : Fin 5)
  /-- SUPPLY_REMOVAL (R446). The board supplies are removed and the device passes from any mode to OFF. -/
  | supplyRemoval
  /-- APSAL_PORT_ALIGNED (R390). Both lanes of an Apsal port gain block lock and alignment, so the port moves from DOWN to ALIGNED. -/
  | apsalPortAligned (q : Fin 2)
  /-- RX_LPI_EXIT (R125). The link partner leaves low-power idle and MAC STATUS[RX_LPI] returns to 0. -/
  | rxLpiExit (p : Fin 4)
  /-- PCIE_PERST_RELEASE (R473). PCIE_PERST_N rises and releases the endpoint's fundamental reset, starting link training under R449. -/
  | pciePerstRelease
  /-- WMK_SETTLED (R414). After a commit, the device finishes updating the digests of the ACTIVE words and WMK.STATUS[SETTLED] returns to 1. -/
  | wmkSettled
  /-- DOM_RST_RELEASE (R453). The 64-peripheral-clock hold of a domain reset ends; the domain's pages answer again and its blocks restart, for example with the PCS restart of R114. -/
  | domRstRelease (dom : Fin 14)
  /-- PCS_BLOCK_ERROR (R127). An Ethernet or Apsal lane receives a 64b/66b block with a sync-header or block-type error, counted in RX_PCS_ERR or PCS_ERR_q, also outside any frame. -/
  | pcsBlockError (lane : Lane)
  /-- FEC_CODEWORD_ERROR (R152). An RS-FEC codeword is received corrected or uncorrectable, counting RX_FEC_CORR or RX_FEC_UNCORR and latching FEC_UNCORR. -/
  | fecCodewordError (p : Fin 4) (corrected : Bool)
  deriving DecidableEq, Repr

end Sys2Proof
end

