-- ==== Sys2Proof/Decode.lean ====
section
/-! DEFINITION. The words of the commands. No row of the opcode table gives bits; the one encoding the manual has is that of an insert
engine's instruction words (10_insert_engines R327, R328), whose decoder and encoder stand here. -/

namespace Sys2Proof

/-- The command that a word spells by the bits of the opcode table: no row of the table gives any. -/
def decodeTableWord (_nbits _w : Nat) : Option Instr := none

/-! Fields of an instruction word (R327). -/

def ieBit (w : Word) (i : Nat) : Bool := w.getLsbD i
def ieF2 (w : Word) (lo : Nat) : Fin 4 := (w.extractLsb' lo 2).toFin
def ieF3 (w : Word) (lo : Nat) : Fin 8 := (w.extractLsb' lo 3).toFin
def ieF4 (w : Word) (lo : Nat) : Fin 16 := (w.extractLsb' lo 4).toFin
def ieF6 (w : Word) (lo : Nat) : Fin 64 := (w.extractLsb' lo 6).toFin
def ieV (n : Nat) (w : Word) (lo : Nat) : BitVec n := w.extractLsb' lo n

/-- The instruction that a word spells for engine e; none for a reserved opcode. -/
def decodeIe (e : Fin 8) (w : Word) : Option Instr :=
  match (w.extractLsb' 26 6).toNat with
  | 0x00 => some (.ieNop e)
  | 0x01 => some (.ieDone e)
  | 0x02 => some (.ieBr e (ieF4 w 22) (ieV 14 w 0))
  | 0x03 => some (.ieCall e (ieF4 w 22) (ieV 14 w 0))
  | 0x04 => some (.ieRet e (ieF4 w 22))
  | 0x05 => some (.ieReti e)
  | 0x06 => some (.ieRep e (ieV 12 w 0))
  | 0x07 => some (.ieRepr e (ieF4 w 17))
  | 0x08 => some (.ieLoop e (ieV 12 w 14) (ieV 14 w 0))
  | 0x09 => some (.ieLoopr e (ieF4 w 22) (ieV 14 w 0))
  | 0x0A => some (.ieFlag e (ieBit w 16) (ieV 5 w 8) (ieV 5 w 0))
  | 0x10 => some (.ieAdd e (ieBit w 25) (ieF4 w 21) (ieF4 w 17) (ieF4 w 13))
  | 0x11 => some (.ieSub e (ieBit w 25) (ieF4 w 21) (ieF4 w 17) (ieF4 w 13))
  | 0x12 => some (.ieAddi e (ieBit w 25) (ieF4 w 21) (ieF4 w 17) (ieV 17 w 0))
  | 0x13 => some (.ieNeg e (ieBit w 25) (ieF4 w 21) (ieF4 w 17))
  | 0x14 => some (.ieAbs e (ieBit w 25) (ieF4 w 21) (ieF4 w 17))
  | 0x15 => some (.ieMulq e (ieBit w 25) (ieF4 w 21) (ieF4 w 17) (ieF4 w 13))
  | 0x16 => some (.ieShli e (ieBit w 25) (ieF4 w 21) (ieF4 w 17) (ieV 5 w 0))
  | 0x17 => some (.ieSrai e (ieF4 w 21) (ieF4 w 17) (ieV 5 w 0) (ieBit w 5))
  | 0x18 => some (.ieMin e (ieF4 w 21) (ieF4 w 17) (ieF4 w 13))
  | 0x19 => some (.ieMax e (ieF4 w 21) (ieF4 w 17) (ieF4 w 13))
  | 0x1A => some (.ieCmp e (ieF4 w 17) (ieF4 w 13))
  | 0x1B => some (.ieCmpi e (ieF4 w 17) (ieV 17 w 0))
  | 0x20 => some (.ieAnd e (ieF4 w 21) (ieF4 w 17) (ieF4 w 13))
  | 0x21 => some (.ieOr e (ieF4 w 21) (ieF4 w 17) (ieF4 w 13))
  | 0x22 => some (.ieXor e (ieF4 w 21) (ieF4 w 17) (ieF4 w 13))
  | 0x23 => some (.ieOri e (ieF4 w 21) (ieF4 w 17) (ieV 16 w 0))
  | 0x24 => some (.ieShr e (ieF4 w 21) (ieF4 w 17) (ieV 5 w 0))
  | 0x25 => some (.ieMov e (ieF4 w 21) (ieF4 w 17))
  | 0x26 => some (.ieLdi e (ieF4 w 21) (ieV 21 w 0))
  | 0x27 => some (.ieLui e (ieF4 w 21) (ieV 16 w 0))
  | 0x28 => some (.ieLd e (ieF4 w 21) (ieF3 w 18) (ieF2 w 16) (ieV 16 w 0))
  | 0x29 => some (.ieSt e (ieF4 w 21) (ieF3 w 18) (ieF2 w 16) (ieV 16 w 0))
  | 0x2A => some (.ieMvta e (ieF6 w 0) (ieF4 w 21))
  | 0x2B => some (.ieMvfa e (ieF4 w 21) (ieF6 w 0))
  | 0x2C => some (.ieModa e (ieF3 w 18) (ieF2 w 16))
  | 0x30 => some (.ieMac e (ieBit w 25) (ieF3 w 22) (ieF4 w 18) (ieF4 w 14) (ieBit w 5) (ieBit w 4))
  | 0x31 => some (.ieDmac e (ieBit w 25) (ieF3 w 22) (ieF4 w 18) (ieF4 w 14) (ieF4 w 10) (ieF4 w 6) (ieBit w 5) (ieBit w 4))
  | 0x32 => some (.ieMxy e (ieBit w 25) (ieF3 w 22) (ieF3 w 19) (ieF2 w 17) (ieF3 w 14) (ieF2 w 12) (ieBit w 5) (ieBit w 4))
  | 0x33 => some (.ieDmxy e (ieBit w 25) (ieF3 w 22) (ieF3 w 19) (ieF2 w 17) (ieF3 w 14) (ieF2 w 12) (ieBit w 5) (ieBit w 4))
  | 0x34 => some (.ieSac e (ieBit w 25) (ieF4 w 21) (ieF3 w 18) (ieV 8 w 7) (ieBit w 6))
  | 0x35 => some (.ieLac e (ieF3 w 18) (ieF4 w 21) (ieV 8 w 7))
  | 0x36 => some (.ieAdda e (ieBit w 25) (ieF3 w 18) (ieF3 w 15))
  | 0x37 => some (.ieSuba e (ieBit w 25) (ieF3 w 18) (ieF3 w 15))
  | 0x38 => some (.ieSha e (ieBit w 25) (ieF3 w 18) (ieV 8 w 7))
  | 0x39 => some (.ieClra e (ieV 8 w 7))
  | _ => none

/-! The encoder. -/

def bvB (b : Bool) : BitVec 1 := BitVec.ofBool b
def bv2 (f : Fin 4) : BitVec 2 := BitVec.ofFin f
def bv3 (f : Fin 8) : BitVec 3 := BitVec.ofFin f
def bv4 (f : Fin 16) : BitVec 4 := BitVec.ofFin f
def bv6 (f : Fin 64) : BitVec 6 := BitVec.ofFin f

/-- The word of an insert-engine instruction, unused bits zero (R327); none for any other command. -/
def encodeIe : Instr → Option Word
  | .ieNop _ => some ((0x00 : BitVec 6) ++ 0#26)
  | .ieDone _ => some ((0x01 : BitVec 6) ++ 0#26)
  | .ieBr _ cond target => some ((0x02 : BitVec 6) ++ bv4 cond ++ 0#8 ++ target)
  | .ieCall _ cond target => some ((0x03 : BitVec 6) ++ bv4 cond ++ 0#8 ++ target)
  | .ieRet _ cond => some ((0x04 : BitVec 6) ++ bv4 cond ++ 0#22)
  | .ieReti _ => some ((0x05 : BitVec 6) ++ 0#26)
  | .ieRep _ n => some ((0x06 : BitVec 6) ++ 0#14 ++ n)
  | .ieRepr _ rs => some ((0x07 : BitVec 6) ++ 0#5 ++ bv4 rs ++ 0#17)
  | .ieLoop _ n last => some ((0x08 : BitVec 6) ++ n ++ last)
  | .ieLoopr _ rs last => some ((0x09 : BitVec 6) ++ bv4 rs ++ 0#8 ++ last)
  | .ieFlag _ sig set clr => some ((0x0A : BitVec 6) ++ 0#9 ++ bvB sig ++ 0#3 ++ set ++ 0#3 ++ clr)
  | .ieAdd _ s rd rs rt => some ((0x10 : BitVec 6) ++ bvB s ++ bv4 rd ++ bv4 rs ++ bv4 rt ++ 0#13)
  | .ieSub _ s rd rs rt => some ((0x11 : BitVec 6) ++ bvB s ++ bv4 rd ++ bv4 rs ++ bv4 rt ++ 0#13)
  | .ieAddi _ s rd rs imm => some ((0x12 : BitVec 6) ++ bvB s ++ bv4 rd ++ bv4 rs ++ imm)
  | .ieNeg _ s rd rs => some ((0x13 : BitVec 6) ++ bvB s ++ bv4 rd ++ bv4 rs ++ 0#17)
  | .ieAbs _ s rd rs => some ((0x14 : BitVec 6) ++ bvB s ++ bv4 rd ++ bv4 rs ++ 0#17)
  | .ieMulq _ s rd rs rt => some ((0x15 : BitVec 6) ++ bvB s ++ bv4 rd ++ bv4 rs ++ bv4 rt ++ 0#13)
  | .ieShli _ s rd rs sh => some ((0x16 : BitVec 6) ++ bvB s ++ bv4 rd ++ bv4 rs ++ 0#12 ++ sh)
  | .ieSrai _ rd rs sh rnd => some ((0x17 : BitVec 6) ++ 0#1 ++ bv4 rd ++ bv4 rs ++ 0#11 ++ bvB rnd ++ sh)
  | .ieMin _ rd rs rt => some ((0x18 : BitVec 6) ++ 0#1 ++ bv4 rd ++ bv4 rs ++ bv4 rt ++ 0#13)
  | .ieMax _ rd rs rt => some ((0x19 : BitVec 6) ++ 0#1 ++ bv4 rd ++ bv4 rs ++ bv4 rt ++ 0#13)
  | .ieCmp _ rs rt => some ((0x1A : BitVec 6) ++ 0#5 ++ bv4 rs ++ bv4 rt ++ 0#13)
  | .ieCmpi _ rs imm => some ((0x1B : BitVec 6) ++ 0#5 ++ bv4 rs ++ imm)
  | .ieAnd _ rd rs rt => some ((0x20 : BitVec 6) ++ 0#1 ++ bv4 rd ++ bv4 rs ++ bv4 rt ++ 0#13)
  | .ieOr _ rd rs rt => some ((0x21 : BitVec 6) ++ 0#1 ++ bv4 rd ++ bv4 rs ++ bv4 rt ++ 0#13)
  | .ieXor _ rd rs rt => some ((0x22 : BitVec 6) ++ 0#1 ++ bv4 rd ++ bv4 rs ++ bv4 rt ++ 0#13)
  | .ieOri _ rd rs imm => some ((0x23 : BitVec 6) ++ 0#1 ++ bv4 rd ++ bv4 rs ++ 0#1 ++ imm)
  | .ieShr _ rd rs sh => some ((0x24 : BitVec 6) ++ 0#1 ++ bv4 rd ++ bv4 rs ++ 0#12 ++ sh)
  | .ieMov _ rd rs => some ((0x25 : BitVec 6) ++ 0#1 ++ bv4 rd ++ bv4 rs ++ 0#17)
  | .ieLdi _ rd imm => some ((0x26 : BitVec 6) ++ 0#1 ++ bv4 rd ++ imm)
  | .ieLui _ rd imm => some ((0x27 : BitVec 6) ++ 0#1 ++ bv4 rd ++ 0#5 ++ imm)
  | .ieLd _ rd ai md disp => some ((0x28 : BitVec 6) ++ 0#1 ++ bv4 rd ++ bv3 ai ++ bv2 md ++ disp)
  | .ieSt _ rs ai md disp => some ((0x29 : BitVec 6) ++ 0#1 ++ bv4 rs ++ bv3 ai ++ bv2 md ++ disp)
  | .ieMvta _ spec rs => some ((0x2A : BitVec 6) ++ 0#1 ++ bv4 rs ++ 0#15 ++ bv6 spec)
  | .ieMvfa _ rd spec => some ((0x2B : BitVec 6) ++ 0#1 ++ bv4 rd ++ 0#15 ++ bv6 spec)
  | .ieModa _ ai md => some ((0x2C : BitVec 6) ++ 0#5 ++ bv3 ai ++ bv2 md ++ 0#16)
  | .ieMac _ s k rs rt neg clr => some ((0x30 : BitVec 6) ++ bvB s ++ bv3 k ++ bv4 rs ++ bv4 rt ++ 0#8 ++ bvB neg ++ bvB clr ++ 0#4)
  | .ieDmac _ s k rs rt ru rv neg clr => some ((0x31 : BitVec 6) ++ bvB s ++ bv3 k ++ bv4 rs ++ bv4 rt ++ bv4 ru ++ bv4 rv ++ bvB neg ++ bvB clr ++ 0#4)
  | .ieMxy _ s k ai mi aj mj neg clr => some ((0x32 : BitVec 6) ++ bvB s ++ bv3 k ++ bv3 ai ++ bv2 mi ++ bv3 aj ++ bv2 mj ++ 0#6 ++ bvB neg ++ bvB clr ++ 0#4)
  | .ieDmxy _ s k ai mi aj mj neg clr => some ((0x33 : BitVec 6) ++ bvB s ++ bv3 k ++ bv3 ai ++ bv2 mi ++ bv3 aj ++ bv2 mj ++ 0#6 ++ bvB neg ++ bvB clr ++ 0#4)
  | .ieSac _ s rd k sh rnd => some ((0x34 : BitVec 6) ++ bvB s ++ bv4 rd ++ bv3 k ++ 0#3 ++ sh ++ bvB rnd ++ 0#6)
  | .ieLac _ k rs sh => some ((0x35 : BitVec 6) ++ 0#1 ++ bv4 rs ++ bv3 k ++ 0#3 ++ sh ++ 0#7)
  | .ieAdda _ s k j => some ((0x36 : BitVec 6) ++ bvB s ++ 0#4 ++ bv3 k ++ bv3 j ++ 0#15)
  | .ieSuba _ s k j => some ((0x37 : BitVec 6) ++ bvB s ++ 0#4 ++ bv3 k ++ bv3 j ++ 0#15)
  | .ieSha _ s k sh => some ((0x38 : BitVec 6) ++ bvB s ++ 0#4 ++ bv3 k ++ 0#3 ++ sh ++ 0#7)
  | .ieClra _ mask => some ((0x39 : BitVec 6) ++ 0#11 ++ mask ++ 0#7)
  | _ => none

end Sys2Proof
end

