-- ==== Sys2Proof/Machine/Bits.lean ====
section
/-! DEFINITION. Bit fields, sign extension, byte order, saturation and rounding: the helpers that every block uses
(00_scope R4 and R6 for the notation; 01_signal_path "Number formats"). -/

namespace Sys2Proof.Machine

/-- Bits [hi:lo] of a number. -/
def bits (n hi lo : Nat) : Nat := n / 2 ^ lo % 2 ^ (hi + 1 - lo)

/-- Bit i of a number. -/
def bitOf (n i : Nat) : Bool := n.testBit i

/-- A Bool as 0 or 1. -/
def b2n (b : Bool) : Nat := if b then 1 else 0

/-- The number n with bits [hi:lo] replaced by v. -/
def putBits (n hi lo v : Nat) : Nat :=
  n - bits n hi lo * 2 ^ lo + v % 2 ^ (hi + 1 - lo) * 2 ^ lo

/-- An n-bit two's-complement number. -/
def sx (n v : Nat) : Int :=
  if v % 2 ^ n < 2 ^ (n - 1) then (v % 2 ^ n : Nat) else ((v % 2 ^ n : Nat) : Int) - 2 ^ n

/-- The low n bits of an integer, in two's complement. -/
def tz (n : Nat) (v : Int) : Nat := (v % 2 ^ n).toNat

/-- A 32-bit word from a number, modulo 2^32. -/
def w32 (n : Nat) : Word := BitVec.ofNat 32 n

/-- A 32-bit word from an integer, modulo 2^32. -/
def w32i (v : Int) : Word := BitVec.ofInt 32 v

/-- Clamp to a closed range. -/
def clampI (lo hi v : Int) : Int := max lo (min hi v)

/-- Clamp a number to a closed range. -/
def clampN (lo hi v : Nat) : Nat := max lo (min hi v)

/-- Saturate to n-bit two's complement. -/
def satI (n : Nat) (v : Int) : Int := clampI (-(2 ^ (n - 1))) (2 ^ (n - 1) - 1) v

/-- An integer as n bits of two's complement, saturated (R7). -/
def satTz (n : Nat) (v : Int) : Nat := tz n (satI n v)

/-- Whether a value leaves n-bit two's complement. -/
def ovfI (n : Nat) (v : Int) : Bool := satI n v != v

/-- v / 2^k rounded to the nearest integer, a half away from zero. -/
def rndShr (v : Int) (k : Nat) : Int :=
  if 0 ≤ v then (v + 2 ^ k / 2) / 2 ^ k else -((-v + 2 ^ k / 2) / 2 ^ k)

/-- v / d rounded to the nearest integer, a half away from zero (d > 0). -/
def rndDiv (v d : Int) : Int :=
  if 0 ≤ v then (2 * v + d) / (2 * d) else -((2 * (-v) + d) / (2 * d))

/-- A rational rounded to the nearest integer, a half away from zero. -/
def rndRat (q : Rat) : Int := rndDiv q.num q.den

/-- Little-endian bytes of a number, n of them. -/
def leBytes : Nat → Nat → List Byte
  | 0, _ => []
  | n + 1, v => BitVec.ofNat 8 v :: leBytes n (v / 256)

/-- Big-endian bytes of a number, n of them. -/
def beBytes (n v : Nat) : List Byte := (leBytes n v).reverse

/-- The number that little-endian bytes spell. -/
def leNat : List Byte → Nat
  | [] => 0
  | b :: t => b.toNat + 256 * leNat t

/-- The number that big-endian bytes spell. -/
def beNat (l : List Byte) : Nat := leNat l.reverse

/-- A little-endian field of a byte string: n bytes from offset o (absent bytes read zero). -/
def leAt (l : List Byte) (o n : Nat) : Nat := leNat ((l.drop o).take n)

/-- A big-endian (network order) field of a byte string. -/
def beAt (l : List Byte) (o n : Nat) : Nat := beNat ((l.drop o).take n)

/-- The i-th element of a list, or a default. -/
def nth {α : Type} (l : List α) (i : Nat) (d : α) : α := l.getD i d

/-- Number of one bits among the low n bits. -/
def popN : Nat → Nat → Nat
  | 0, _ => 0
  | n + 1, v => v % 2 + popN n (v / 2)

/-- The least i < n with p i, if any. -/
def leastN (n : Nat) (p : Nat → Bool) : Option Nat := (List.range n).find? p

/-- The low 32-bit half and the high 32-bit half of a 64-bit number. -/
def lo32 (n : Nat) : Word := w32 n
def hi32 (n : Nat) : Word := w32 (n / 2 ^ 32)

/-- Integer square root, floor: the greatest r with r * r ≤ n, found bit by bit from bit k. -/
def isqrtGo (n : Nat) : Nat → Nat → Nat
  | 0, r => r
  | k + 1, r => let r' := r + 2 ^ k; if r' * r' ≤ n then isqrtGo n k r' else isqrtGo n k r

def isqrt (n : Nat) : Nat := isqrtGo n (n.log2 / 2 + 1) 0

end Sys2Proof.Machine
end

