-- ==== Sys2Proof/Machine/Real.lean ====
section
/-! DEFINITION. Real functions to 2^−200 (fixed point, series summed past the last bit), for the constants that the manual gives
by formula: windows, pole coefficients, decibels. A result is rounded once to the grid that the manual names. -/

namespace Sys2Proof.Machine

/-- One in the fixed-point format. -/
def fx1 : Int := 2 ^ 200

/-- π and ln 2 with 200 fractional bits. -/
def fxPi : Int := 5048344754617993871973410141242436836214643421488662971535368
def fxLn2 : Int := 1113844574712631719546256151097547306333272293549090750737802

def fxMul (a b : Int) : Int := a * b / fx1
def fxDiv (a b : Int) : Int := a * fx1 / b

/-- A rational in the format. -/
def fxOf (q : Rat) : Int := q.num * fx1 / q.den

/-- A fixed-point value as a rational. -/
def fxRat (x : Int) : Rat := (x : Rat) / (fx1 : Rat)

/-- Σ of n further terms of a series whose term t at index k is followed by t·z/(f k). -/
def fxSeries (z : Int) (f : Nat → Int) : Nat → Nat → Int → Int
  | 0, _, _ => 0
  | n + 1, k, t => t + fxSeries z f n (k + 1) (fxMul t z / f k)

/-- e^x. -/
def fxExp (x : Int) : Int :=
  let k := x / fxLn2
  let r := x - k * fxLn2
  let m := fxSeries r (fun k => (k : Int) + 1) 56 0 fx1
  if 0 ≤ k then m * 2 ^ k.toNat else m / 2 ^ (-k).toNat

/-- cos x, after reduction to [−π, π]. -/
def fxCos (x : Int) : Int :=
  let r := x - rndDiv x (2 * fxPi) * (2 * fxPi)
  fxSeries (-(fxMul r r)) (fun k => (2 * (k : Int) + 1) * (2 * (k : Int) + 2)) 50 0 fx1

/-- sin x, after reduction to [−π, π]. -/
def fxSin (x : Int) : Int :=
  let r := x - rndDiv x (2 * fxPi) * (2 * fxPi)
  fxSeries (-(fxMul r r)) (fun k => (2 * (k : Int) + 2) * (2 * (k : Int) + 3)) 50 0 r

/-- Σ z^(2k+1)/(2k+1), n terms. -/
def fxAtanh (z zz : Int) : Nat → Nat → Int
  | 0, _ => 0
  | n + 1, k => z / (2 * (k : Int) + 1) + fxAtanh (fxMul z zz) zz n (k + 1)

/-- ln x for x > 0: x = m·2^e with m in [1, 2). -/
def fxLn (x : Int) : Int :=
  let e : Int := (x.toNat.log2 : Int) - 200
  let m := if 0 ≤ e then x / 2 ^ e.toNat else x * 2 ^ (-e).toNat
  let z := fxDiv (m - fx1) (m + fx1)
  2 * fxAtanh z (fxMul z z) 66 0 + e * fxLn2

/-- 10^x. -/
def fxPow10 (x : Int) : Int := fxExp (fxMul x (fxLn (10 * fx1)))

/-- log10 x. -/
def fxLog10 (x : Int) : Int := fxDiv (fxLn x) (fxLn (10 * fx1))

/-- √x, to 2^−200. -/
def fxSqrt (x : Int) : Int := isqrt (x.toNat * 2 ^ 200)

/-- A fixed-point value rounded to k fractional bits. -/
def fxRound (k : Nat) (x : Int) : Int := rndShr x (200 - k)

/-- v_X(i) = (1 − cos(π(i+1)/(X+1)))/2 to 2^−30 (R250; with X = 6, w_i of R33); 1 from i = X on. -/
def vWin (x i : Nat) : Int :=
  if x ≤ i then 2 ^ 30
  else fxRound 30 ((fx1 - fxCos (fxPi * ((i : Int) + 1) / ((x : Int) + 1))) / 2)

/-- w_i of R33. -/
def w6 : Nat → Int
  | 0 => 53166934
  | 1 => 202137373
  | 2 => 417405895
  | 3 => 656335929
  | 4 => 871604451
  | 5 => 1020574890
  | _ => 2 ^ 30

/-- A sample times a weight with 30 fractional bits, rounded to the sample's grid. -/
def byW (x w : Int) : Int := rndShr (x * w) 30

/-- From a to b with weight w. -/
def blendW (a b w : Int) : Int := rndShr (a * (2 ^ 30 - w) + b * w) 30

end Sys2Proof.Machine
end

