-- ==== Sys2Proof/Machine/Tab.lean ====
section
/-! DEFINITION. Sparse tables: lists of (key, value) pairs in one canonical form (keys strictly rising, no entry equal
to what an unlisted key reads as), so that equal tables are equal data. -/

namespace Sys2Proof.Machine

/-- A sparse table: what is listed differs from the table's default. -/
abbrev Tab (α : Type) := List (Nat × α)

/-- The value at a key: the first one listed, or the default d. -/
def tget {α : Type} (d : Nat → α) : Tab α → Nat → α
  | [], k => d k
  | (k', v) :: t, k => if k = k' then v else tget d t k

/-- Insert an entry before the first greater key. -/
def tins {α : Type} (k : Nat) (v : α) : Tab α → Tab α
  | [] => [(k, v)]
  | e :: t => if k < e.1 then (k, v) :: e :: t else e :: tins k v t

/-- Put an entry at its place in the rising order, or drop the key where the value equals the default. -/
def tset {α : Type} [DecidableEq α] (d : Nat → α) (t : Tab α) (k : Nat) (v : α) : Tab α :=
  let t := t.filter fun e => e.1 != k
  if v = d k then t else tins k v t

/-- Every key of the table is at least b. -/
def tabFrom {α : Type} (b : Nat) : Tab α → Bool
  | [] => true
  | (k, _) :: _ => decide (b ≤ k)

/-- The canonical form: keys strictly rising, and no entry equal to its default. -/
def tabWf {α : Type} [DecidableEq α] (d : Nat → α) : Tab α → Bool
  | [] => true
  | (k, v) :: t => decide (v ≠ d k) && tabFrom (k + 1) t && tabWf d t

/-- Drop every entry whose key satisfies p (those keys read as the default again). -/
def tdrop {α : Type} (p : Nat → Bool) (t : Tab α) : Tab α := t.filter fun e => !p e.1

/-- Write a list of entries in order. -/
def tsetAll {α : Type} [DecidableEq α] (d : Nat → α) (t : Tab α) (es : List (Nat × α)) : Tab α :=
  es.foldl (fun t e => tset d t e.1 e.2) t

/-- Zero default, the default of every table of numbers, samples and syndromes. -/
def zeroAt {α : Type} [OfNat α 0] : Nat → α := fun _ => 0

end Sys2Proof.Machine
end

