-- ==== Sys2Proof/Machine/Blocks.lean ====
section
/-! DEFINITION. The state that the network ports, the stream engines and the audio blocks hold beyond their registers and
windows (04_network, 05_input_conditioning, 01_signal_path R22–R35). -/

namespace Sys2Proof.Machine

/-! Ports. -/

/-- A frame that TXS handed to a media queue, without FCS (R116, R148). -/
structure MediaFrame where
  ctx : Nat
  bytes : List Byte
  deriving DecidableEq, Repr

/-- A host descriptor that the MAC has dealt with and not yet completed: DONE_ERR, GEN and the egress time. -/
structure TxDone where
  err : Bool
  gen : Nat
  ts : Option Int
  deriving DecidableEq, Repr

/-- A transmit ring: the next descriptor to send, and those sent and not completed. -/
structure TxRing where
  next : Nat
  done : List TxDone
  deriving DecidableEq, Repr

/-- A frame in the receive buffer that waits for the PCIe link (R116, R127): its length on the wire, its ring, what the ring is to
get, its flags with the step generation, the TCI and the ingress time. -/
structure RxHeld where
  size : Nat
  ring : Nat
  data : List Byte
  flags : Nat
  tci : Nat
  ts : Int
  deriving DecidableEq, Repr

/-- A port: the media queue, the receive buffer, transmit rings 4–7, the ring last served by queue, the cycle until which a wake holds
the queues, the cycle at which the PCS restarted, the cycle of the last host frame sent, and the pause timer (start cycle, quanta). -/
structure MacSt where
  media : List MediaFrame
  held : List RxHeld
  rings : List TxRing
  last : List Nat
  hold : Nat
  pcs : Nat
  sentAt : Nat
  pauseAt : Nat
  pauseQ : Nat
  deriving DecidableEq, Repr

/-! Streams. -/

/-- A receive context (R136–R143, R169–R174): whether it has accepted a packet since it began to wait, the first stream
sample from which samples are due, the highest extended sequence number, the numbers seen with their timestamps,
per leg the highest number and the slot of the last packet, the jitter buffer by stream sample, the missing run so far
and the packets counted for it, the position in a fade-in (6: none). For an asynchronous stream: the next
timestamp, whether the next packet anchors, the mapping (t_b, b), the time of the last packet, the first sample usable, the sheets of zeros owed, whether
audio has begun and the highest input sample consumed. `rcd` is the record that filled the buffer, `off` the slot in which the context
was disabled, `chans` the channels whose sheets before the rate stages are its own. -/
structure RxCtx where
  started : Bool
  since : Int
  top : Option Int
  seen : List (Int × Nat)
  legTop : List (Option Nat)
  legLast : List Nat
  buf : Tab (List Int)
  run : Nat
  lost : Nat
  fade : Nat
  expect : Option Int
  due : Bool
  tb : Rat
  b : Rat
  lastT : Rat
  first : Int
  zeros : Nat
  live : Bool
  used : Option Int
  rcd : List Nat
  off : Nat
  chans : List Nat
  deriving DecidableEq, Repr

/-- A receive context that waits, with an empty buffer. -/
def RxCtx.init : RxCtx where
  started := false
  since := 0
  top := none
  seen := []
  legTop := [none, none]
  legLast := [0, 0]
  buf := []
  run := 0
  lost := 0
  fade := 6
  expect := none
  due := true
  tb := 0
  b := 0
  lastT := 0
  first := 0
  zeros := 0
  live := false
  used := none
  rcd := []
  off := 0
  chans := []

/-- The packets of a transmit context under one record: record words, ANCHOR, SEQ_BASE, the number of the packet in
preparation, the first house sample that is not covered, and the house samples gathered (each: its media samples,
interleaved). -/
structure TxLine where
  rcd : List Nat
  anchor : Int
  seqBase : Nat
  idx : Nat
  stop : Option Int
  buf : List (List Int)
  sil : List Bool
  deriving DecidableEq, Repr

/-- A transmit context (R145–R151): the line in force, lines whose last packets straddle a commit, the output sheets (by the slot of
their send cut-off) declared late and those that fade out before one, and whether the last sheet was
replaced by zeros. -/
structure TxCtx where
  cur : Option TxLine
  olds : List TxLine
  late : List Nat
  fadeOut : List Nat
  zeroed : Bool
  deriving DecidableEq, Repr

def TxCtx.init : TxCtx := ⟨none, [], [], [], false⟩

/-! Conditioning. -/

/-- A FIR crossfade (R176): the processed sheet at which it starts and the old slot record's words. -/
structure FirXf where
  start : Nat
  old : List Nat
  deriving DecidableEq, Repr

/-- A stage of R27: the next slot to work on, and whether it is at work on it. -/
structure StageSt where
  next : Nat
  busy : Bool
  deriving DecidableEq, Repr

/-! Objects. -/

/-- A path segment of a ramped group (R191): its apply sample, ramp length, start values and targets. -/
structure Seg where
  at0 : Int
  ramp : Nat
  start : List Int
  target : List Int
  deriving DecidableEq, Repr

/-- The run state of an object (R189–R192): the queue (extended apply sample and record bytes), the segments of
position, gain and spread, and the values of the step groups with the samples from which they hold. -/
structure ObjSt where
  queue : List (Int × List Byte)
  pos : List Seg
  gain : List Seg
  spread : List Seg
  zones : List (Int × Nat)
  flags : List (Int × Nat)
  mode : List (Int × Nat)
  deriving DecidableEq, Repr

/-- An object after reset (R209): OFF at (0, 1, 0) m, 0 dB, no spread, all zones. -/
def ObjSt.reset : ObjSt where
  queue := []
  pos := [⟨-2 ^ 70, 0, [0, 65536, 0], [0, 65536, 0]⟩]
  gain := [⟨-2 ^ 70, 0, [2 ^ 30], [2 ^ 30]⟩]
  spread := [⟨-2 ^ 70, 0, [0, 0, 0], [0, 0, 0]⟩]
  zones := [(-2 ^ 70, 0xFFFF)]
  flags := [(-2 ^ 70, 0)]
  mode := [(-2 ^ 70, 0)]

/-- What a geometry unit computed at one knot (R193, R201, R202, R223–R228): mode, the sub-source grid and its triangles,
gains by output (30 fractional bits), the distance part of the delay in 1/256 samples, β (30 fractional bits), the
pairs (output, E, G), the delay position, whether the object held, and whether a full search is still owed. -/
structure Knot where
  mode : Nat
  tris : List (Option Nat)
  foot : List (Nat × Int)
  dpart : Int
  beta : Int
  pairs : List (Nat × Int × Nat)
  pd : List Int
  held : Bool
  need : Bool
  deriving DecidableEq, Repr

/-- A commit that changed an object which stayed in its slot (R206, R208, R233): its slot, the delay base before it, the record
before it. -/
structure LineStep where
  slot : Nat
  base : Nat
  rcd : List Nat
  deriving DecidableEq, Repr

/-- An object as it was before the commit that moved or disabled it (R186): record, delay base, first slot of its line, commits
whose crossfades still run. -/
structure ObjGone where
  obj : Nat
  rcd : List Nat
  base : Nat
  first : Nat
  hist : List LineStep
  deriving DecidableEq, Repr

/-- What was in force up to a commit (R186, R194): the commit's slot, τ_R, the mould set, and the objects that the commit changed as they
were. -/
structure ObjEra where
  slot : Nat
  tau : Nat
  set : Nat
  objs : List ObjGone
  deriving DecidableEq, Repr

/-! Routing and outputs. -/

/-- A reading of a crosspoint or home feed (R251): source, sink, its gain ramp (from, to, start slot, length) and its fade
(whether in, the weight it starts from, start slot, length). Gains and weights have 30 fractional bits. -/
structure XpReading where
  src : Nat
  snk : Nat
  ga : Int
  gb : Int
  gs : Nat
  gx : Nat
  fadeIn : Bool
  wa : Int
  ws : Nat
  wx : Nat
  deriving DecidableEq, Repr

/-- MIX beyond its registers: the readings of each crosspoint (home feed o at 8192 + o), the fader FIFO, compressor
states in dB, the test generator's phase, PRBS and τ, the nodes formed in the current slot, and of the insert outputs the last sample
that it took per channel 64e + c and the engines from which it took a substitute last (10_insert_engines R312). -/
structure MixSt where
  xps : Tab (List XpReading)
  fifo : List (Nat × Nat)
  comp : Tab Rat
  phase : Nat
  prbs : Nat
  tauTest : Nat
  formed : List Nat
  insZ : Tab Int
  insSub : List Nat
  deriving DecidableEq, Repr

/-- MIX after reset (R272). -/
def MixSt.reset : MixSt := ⟨[], [], [], 0, 1, 0, [], [], []⟩

/-- The deckle of an output (R268): g, the thermal gain, ms with 54 fractional bits and the gain last applied. -/
structure Deck where
  g : Rat
  gt : Rat
  ms : Nat
  k : Int
  deriving DecidableEq, Repr

/-- A deckle after reset (R272). -/
def Deck.reset : Deck := ⟨1, 1, 0, 2 ^ 30⟩

/-- OUT beyond its registers: the records and biquads that the last commit replaced, section states of the chain in force
and of the one that fades out, the deckles, the slots for which CTRL[EN] was 0 and the sheet of its own count at which the last commit
took effect (R277). -/
structure OutSt where
  oldRec : Tab (List Nat)
  oldBq : Tab (List Nat)
  bq : Tab (List Int)
  bqOld : Tab (List Int)
  deck : Tab Deck
  skipped : Nat
  since : Tab Nat
  deriving DecidableEq, Repr

def OutSt.reset : OutSt := ⟨[], [], [], [], [], 0, []⟩

/-! Room correction. -/

/-- The derived data of one output in a filter set (R284): head taps, spectra of stage 1 (bins 0 to 64) and its exponents,
exponents of stage 2, empty masks. -/
structure Derived where
  head : List Int
  s1 : List (List (Int × Int))
  e1 : List Int
  e2 : List Int
  mask1 : Nat
  mask2 : Nat
  headEmpty : Bool
  deriving DecidableEq, Repr

/-- No filter: every tap acts as zero (R293). -/
def Derived.empty : Derived := ⟨[], [], [], [], 0, 0, false⟩

/-- A partition of stage 2 as fetched: its number, its coefficient spectrum and the send spectrum that it multiplies. -/
structure Fetched where
  part : Nat
  coef : List (Int × Int)
  spec : List (Int × Int)
  deriving DecidableEq, Repr

/-- A stage-2 window (R287): its output block, the slot in which it opened, bypass at its opening, the sets computed, the send spectra
of the block that opened it by output, whether the fetch deadline has come, what had arrived then by set and output, the lines that the
regulator has still to let pass (R374), those that it has let pass, and those that have arrived. -/
structure Win where
  m : Nat
  slot : Nat
  byp : Bool
  sets : List Nat
  spec : Tab (List Int)
  closed : Bool
  got : Tab (List Fetched)
  left : Nat
  sent : Nat
  came : Nat
  deriving DecidableEq, Repr

/-- A load or reload (R294, R300): its set, whether it reloads, the outputs completed, the CRC-64 so far, whether every output so far
matches its copies in SRAM, and an ABORT that waits for the output in progress. -/
structure LoadSt where
  set : Nat
  reload : Bool
  done : Nat
  crc : Nat
  same : Bool
  abort : Bool
  deriving DecidableEq, Repr

/-- CONV beyond its registers: derived data of sets A and B, sheets since the cold start, send blocks taken by stage 1 and by stage 2 so
far, the first block valid in the delay line, the sample at which building began, open windows, the stage-1 delay line by output and
entry, stage-1 and stage-2 outputs by (block, set, output), a set crossfade (m_o, the outgoing set) and the load that runs. -/
structure ConvSt where
  setA : Tab Derived
  setB : Tab Derived
  n : Nat
  blocks1 : Nat
  blocks : Nat
  dlFrom : Nat
  build : Nat
  wins : List Win
  x1 : Tab (List Int)
  y1 : Tab (List Int)
  y2 : Tab (List Int)
  fade : Option (Nat × Nat)
  load : Option LoadSt
  deriving DecidableEq, Repr

def ConvSt.reset : ConvSt := ⟨[], [], 0, 0, 0, 0, 0, [], [], [], [], none, none⟩

/-! Press. -/

/-- A pending press (R258, R262, R408): sheet N, tag, distributed or not, the sheet current at the GO write, whether a
forward step skipped N, the own checks' outcome (reason, node, detail; none while they run), for a distributed press
the votes (position, reason, node) and the decision, and from checks that passed τ_R and the delay base of each object to come. -/
structure PressSt where
  sheet : Nat
  id : Nat
  ring : Bool
  goSheet : Int
  skip : Bool
  own : Option (Nat × Nat × Nat)
  votes : List (Nat × Nat × Nat)
  decided : Option Bool
  ahead : Option (Nat × Tab Nat)
  deriving DecidableEq, Repr

/-- A decision that the manager announces (R408): tag, GO, the first refuser with its reason and node, and N. -/
structure Decision where
  id : Nat
  go : Bool
  dev : Nat
  reason : Nat
  node : Nat
  sheet : Nat
  deriving DecidableEq, Repr

/-! Insert engines. -/

/-- What follows the two delay slots of a branch (R317, R320, R321): the next address in sequence, a jump (of a BR or
not), a return from interrupt, or completion. -/
inductive IeAct where
  | seq
  | jump (pc : Nat) (br : Bool)
  | reti
  | done
  deriving DecidableEq, Repr

/-- A bulk transfer that runs (R331): fabric address, first local word, words, direction. -/
structure BulkRun where
  addr : Nat
  local0 : Nat
  len : Nat
  toFabric : Bool
  deriving DecidableEq, Repr

/-- An insert engine (R306–R336): data registers, accumulators as an accumulating instruction and as every other reader
sees them, special registers by spec number (R329), program and data memory, mailboxes; the next PC, the LD and the AV on
their way, whether the last instruction was a LD or an accumulator writer, delay slots to go and what follows them,
whether DONE waits for its completion, the count of a REP, active loops (first, end, count; innermost first), handlers
(whether entered from WAIT; innermost first), a sheet program that waits for a handler, FS owed at the next start, a
record that a commit changed, PROG_CFG as of the last exchange; the bulk port's words and transfer. -/
structure IeSt where
  d : Tab Word
  acc : Tab Int
  accVis : Tab Int
  sp : Tab Nat
  pm : Tab Word
  dm : Tab Word
  inBox : Tab Int
  outBox : Tab Int
  pc : Nat
  ld : Option (Nat × Word)
  av : Bool
  hazard : Bool
  slots : Nat
  act : IeAct
  doneWait : Bool
  rep : Nat
  loops : List (Nat × Nat × Nat)
  handlers : List Bool
  startPending : Bool
  fsNext : Bool
  reload : Bool
  cfg : Nat
  bulk : Tab Nat
  run : Option BulkRun
  deriving DecidableEq, Repr

/-- An engine after reset (R314, R337). -/
def IeSt.reset : IeSt where
  d := []
  acc := []
  accVis := []
  sp := []
  pm := []
  dm := []
  inBox := []
  outBox := []
  pc := 0
  ld := none
  av := false
  hazard := false
  slots := 0
  act := .seq
  doneWait := false
  rep := 0
  loops := []
  handlers := []
  startPending := false
  fsNext := false
  reload := false
  cfg := 0
  bulk := []
  run := none

/-! Ring. -/

/-- An Apsal port (R390, R398): consecutive valid frames, valid frames since it came up, the slot of the last one, the
filtered delay, SHEET with TX_STAMP and receive stamp of the latest frames, and the latest start blocks sent on the port
(sheet, stamp); latest first. -/
structure ApsPort where
  run : Nat
  up : Nat
  last : Option Nat
  dIn : Option Int
  rx : List (Nat × Int × Int)
  tx : List (Nat × Int)
  deriving DecidableEq, Repr

def ApsPort.reset : ApsPort := ⟨0, 0, none, none, [], []⟩

/-- A remote access (R406): tag, target, operation, address, data, compare value, the slot of its GO, and whether its
request has left. -/
structure Rra where
  tag : Nat
  dev : Nat
  op : Nat
  addr : Nat
  data : Nat
  cmp : Nat
  at0 : Nat
  sent : Bool
  deriving DecidableEq, Repr

/-- A bulk WRITE (R397): source, destination, target, length and bytes sent. -/
structure BulkOut where
  src : Nat
  dst : Nat
  dev : Nat
  len : Nat
  sent : Nat
  deriving DecidableEq, Repr

/-- A captured watermark report (R416): position, k, EPOCH_TAG, SETTLED, EPOCH_SHEET, W_RING, W_GROUP. -/
structure Report where
  pos : Nat
  k : Nat
  tag : Nat
  settled : Bool
  epoch : Nat
  wRing : BitVec 64
  wGroup : BitVec 64
  deriving DecidableEq, Repr

/-- RING and APL beyond their registers: ports, the MGR locked to, heartbeats heard in this slot and the latest by
position, the last slot with forwarded audio and the positions whose returns came in this slot, positions and channels in a
missing run, metadata of the current frame and waiting at the manager, responses to send, the remote access in
progress, the one that is executed here and those that wait for it, a ring snapshot to come and the last one taken, the slots of the latest direct eastward
frame, of the metadata at hand and of the latest logged metadata, VEC_ACTIVE as last sent, the own report and whether it is still to
be sent, reports of the current k, runs of differing reports (ring by position, group from 32 on), the bulk transfer, the own message slot and slice of the latest
sheet, and the messages of reserved types skipped so far (R396). -/
structure RingSt where
  ports : Tab ApsPort
  mgr : Option Nat
  heard : Nat
  hbw : Tab Nat
  fwd : Option Nat
  fwdRun : Bool
  ret : Nat
  retRun : Nat
  recs : List (List Byte)
  fifo : List (List Byte)
  rsps : List (Nat × Nat × Nat)
  tag : Nat
  rra : Option Rra
  rraHere : Option Rra
  rraWait : List Rra
  snap : Option Nat
  snapDone : Option Nat
  east : Option Nat
  recsAt : Option Nat
  logAt : Option Nat
  evt : Nat
  report : Option Report
  reportDue : Bool
  reports : List Report
  diffs : Tab Nat
  bulk : Option BulkOut
  slot0 : Option (Nat × List Byte)
  slice0 : Option (Nat × List Byte)
  unknown : Nat
  deriving DecidableEq, Repr

def RingSt.reset : RingSt where
  ports := []
  mgr := none
  heard := 0
  hbw := []
  fwd := none
  fwdRun := false
  ret := 0
  retRun := 0
  recs := []
  fifo := []
  rsps := []
  tag := 0
  rra := none
  rraHere := none
  rraWait := []
  snap := none
  snapDone := none
  east := none
  recsAt := none
  logAt := none
  evt := 0
  report := none
  reportDue := false
  reports := []
  diffs := []
  bulk := none
  slot0 := none
  slice0 := none
  unknown := 0

/-! Redundancy. -/

/-- A GRANT that the manager announces for a pair (R425): holder, partner, NONE, G and the slot of the declaration. -/
structure Grant where
  holder : Nat
  partner : Nat
  none : Bool
  sheet : Nat
  slot : Nat
  deriving DecidableEq, Repr

/-- What the manager knows of a standby (R426): flags, newest SEQ, its capture sheet, the slot of the message. -/
structure Standby where
  flags : Nat
  seq : Nat
  sheet : Nat
  slot : Nat
  deriving DecidableEq, Repr

/-- A checkpoint of the holder (R431, R433): SEQ, C, image, whether the capture has ended, whether OPEN has left, and the
bytes sent. -/
structure Ckpt where
  seq : Nat
  sheet : Nat
  image : List Byte
  ready : Bool
  opened : Bool
  sent : Nat
  deriving DecidableEq, Repr

/-- A checkpoint that the standby receives (R434): slot, SEQ, LEN, and the SEQ and CRC of a CLOSE whose check waits for DRAM. -/
structure CkptIn where
  slot : Nat
  seq : Nat
  len : Nat
  close : Option (Nat × Nat)
  deriving DecidableEq, Repr

/-- A valid slot of the standby: SEQ, C and length (R434). -/
structure CkptSlot where
  seq : Nat
  sheet : Nat
  len : Nat
  deriving DecidableEq, Repr

/-- RED beyond its registers: miss counts by position, grants announced by position, standbys by position, FAULT messages
in this slot, a grant that takes effect at a sheet and one that ends there (R429), the cycle of the last watchdog kick, late
runs by context, the ARB pins (grant asserted, ARB_HB), the checkpoint of the holder, the one received, the
slots, the log (sheet of the frame, record) and the place of its first record in the DRAM ring (R435), SEQ, the takeover (slot of G;
whether it waits; whether it starts from the own banks), whether a grant came during a transition (R447), the takeover fade (first
slot, length), the end of silence, the slot and the outcome of the last proof run, the enabled causes already acted on, the G of the
grant last held and the words of the STANDBY_STATE last sent. -/
structure RedSt where
  miss : Tab Nat
  grants : Tab (Option Grant)
  standbys : Tab (Option Standby)
  faults : Nat
  grantAt : Option Nat
  loseAt : Option Nat
  kick : Nat
  late : Tab Nat
  arb : Bool
  arbHb : Bool
  ckpt : Option Ckpt
  ckptIn : Option CkptIn
  slots : List (Option CkptSlot)
  log : List (Nat × List Byte)
  logPos : Nat
  seq : Nat
  take : Option Nat
  takeWait : Bool
  own : Bool
  grantWait : Bool
  fade : Option (Nat × Nat)
  silenceEnd : Option Nat
  proofAt : Nat
  proofOk : Bool
  shown : Nat
  lastG : Option Nat
  standbySent : List Nat
  deriving DecidableEq, Repr

def RedSt.reset : RedSt where
  miss := []
  grants := []
  standbys := []
  faults := 0
  grantAt := none
  loseAt := none
  kick := 0
  late := []
  arb := false
  arbHb := false
  ckpt := none
  ckptIn := none
  slots := [none, none]
  log := []
  logPos := 0
  seq := 0
  take := none
  takeWait := false
  own := false
  grantWait := false
  fade := none
  silenceEnd := none
  proofAt := 0
  proofOk := true
  shown := 0
  lastG := none
  standbySent := []

/-! Power and boot. -/

/-- A domain change of a transition (R443): the domain, whether it powers up, whether it is kept in retention, and the fabric cycle at
which its power-down starts or its power-up completes. -/
structure DomStep where
  dom : Nat
  up : Bool
  keep : Bool
  at0 : Nat
  deriving DecidableEq, Repr

/-- PWR beyond its registers (R444–R453): the transition that runs (from, to, whether forced), the domain changes that it has still to
make, in order, domains with retained state, the channels in self-refresh while DRAM is retained, the reset sequence in progress (whether of a POR), a device
without supplies, TEST_EN as sampled, whether the last temperature sample lay above WARN, the slot of a watchdog expiry
that resets, the PCIe link in reset, whether the outputs have taken their reset state, and by SerDes lane the cursors taken at its last
restart (R459), in the fields of SD_FUSE. -/
structure PwrSt where
  trans : Option (Nat × Nat × Bool)
  doms : List DomStep
  retained : Nat
  selfRef : Nat
  inReset : Option Bool
  off : Bool
  test : Bool
  above : Bool
  wdogAt : Option Nat
  perst : Bool
  io : Bool
  lanes : Tab Word
  deriving DecidableEq, Repr

def PwrSt.reset : PwrSt := ⟨none, [], 0, 0, none, false, false, false, none, false, true, []⟩

/-- The states of the TAP controller of IEEE 1149.1 (16_electrical R482). -/
inductive TapCtl where
  | reset | idle
  | selDr | capDr | shDr | ex1Dr | pauseDr | ex2Dr | updDr
  | selIr | capIr | shIr | ex1Ir | pauseIr | ex2Ir | updIr
  deriving DecidableEq, Repr

/-- The JTAG port (16_electrical R482): the controller, the instruction in force, and the shift stages of the instruction register, of
BYPASS, of IDCODE and of the boundary-scan register with its update stage; whether TRST_N is low; whether the pulsed drivers are at
their inverted level (EXTEST_PULSE, EXTEST_TRAIN), and the memories of the test receivers of the SerDes lanes, two legs a lane. -/
structure TapSt where
  ctl : TapCtl
  ir : BitVec 8
  irSh : BitVec 8
  byp : Bool
  idSh : Word
  scan : List Bool
  upd : List Bool
  trst : Bool
  ac : Bool
  legs : List Bool
  deriving DecidableEq, Repr

def TapSt.reset : TapSt := ⟨.reset, 1, 1, false, 0, [], [], false, false, List.replicate 24 false⟩

/-- An access that a boot record makes (R457): a write, or a read with the write of a MODIFY after it (address, mask, value). -/
inductive BootOp where
  | put (a : Nat) (data : List Byte)
  | modify (a : Nat) (mask value : Word)
  deriving DecidableEq, Repr

/-- The boot controller beyond its registers (R455–R458): whether it waits for a host-driven start, whether a verify pass
runs and reads the QSPI flash, the flash offset of copy 1, the verified image and the position of its next record, a POLL in progress
(address, mask, value) with its CONT, a MODE in progress, an abort to come, and the accesses left of the record in progress with its
CONT. -/
structure BootSt where
  waits : Bool
  verify : Bool
  qspi : Bool
  copy1 : Nat
  image : List Byte
  pos : Nat
  poll : Option (Nat × Nat × Nat)
  pollCont : Bool
  modeWait : Bool
  abort : Bool
  rest : Option (Bool × List BootOp)
  deriving DecidableEq, Repr

def BootSt.reset : BootSt := ⟨false, false, false, 0, [], 0, none, false, false, false, none⟩

end Sys2Proof.Machine
end

