-- ==== Sys2Proof/Config.lean ====
section
/-! DEFINITION. What one device fixes and the manual does not state (fused values, straps, published-nowhere coefficients),
and the free values: opaque constants, so that nothing can be proved about which value they have. -/

namespace Sys2Proof.Config

/-- SYS.PART[STEP]: fused (R69). -/
opaque step : Nat
/-- The temperature grade of the part (R3): true for DLR-1024-FE. -/
opaque gradeE : Bool
/-- SYS.UID: fused (R69). -/
opaque uid : Nat
/-- The straps as sampled at the last POR_N deassertion before State.reset (R69, R449): DEVID in [4:0], ROLE in
[9:8], BOOT in [13:12]. -/
opaque straps : Nat
/-- Fuse words of CAL (R461), by register offset in the page. -/
opaque fuse : Nat → Nat
/-- Whether the fuse check at POR passes (R459): a part whose check fails reads 0 in every factory field. -/
opaque fuseOk : Bool
/-- A byte of host memory that no command has supplied (R128, R455): the host's, not the device's. -/
opaque hostByte : Nat → Byte
/-- What a register, a memory byte or a result reads as where the manual states no value: free, one value per draw. -/
opaque freeWord : Nat → Word
/-- The same for a byte. -/
opaque freeByte : Nat → Byte
/-- The same for an integer (a sample or a state of a filter). -/
opaque freeInt : Nat → Int
/-- Odd-indexed coefficients of the half-band stages A (0) and B (1), with 30 fractional bits (R166). -/
opaque halfBandTap : Nat → Nat → Int
/-- The ASRC prototype h(m/64) for m = 0 to 1023, with 30 fractional bits (R170). -/
opaque asrcTap : Nat → Int
/-- The frequency estimate of R94 where m4 − m1 is 0 (a division by zero, for which R94 states no result): by t2_4 − t2_1, in ppb. -/
opaque freqZero : Int → Rat
/-- How long the word clock of WCLK_IN stays high, in 2^−16 ns: the input's, not the device's (R87). -/
opaque wclkHigh : Int
/-- The board ties VDDM, the supply of the MCLK bank, to VDDIO33 and not to VDDIO (R464, R478). -/
opaque vddm33 : Bool
/-- A mesh weight where the norm of the three weights is zero (R198 states no value): by sub-source and vertex. -/
opaque zeroNorm : Nat → Nat → Int
/-- The gain computer of a compressor where its formula divides 0 by 0 (KNEE 0 and a level equal to THR, R254): 1/256 dB. -/
opaque kneeZero : Int
/-- What a compressor's detector takes for the members of its group that its own output feeds in the same sample (R254 states no order
for such a loop; log entry 184): by slot, bus and sample. -/
opaque loopLevel : Nat → Nat → Nat → Nat
/-- An accumulation that leaves the 72-bit format of R6, for which the manual states no result. -/
opaque acc72 : Int → Int
/-- The sample that 32 bits written into a return buffer of CONV stand for: an extended sample has 40 bits, and R291 gives it 32 without
stating how (R285, R291). -/
opaque retSample : Nat → Int
/-- Where a block keeps a configuration word in its part of the shared SRAM: R343 leaves the layout to the block. By key, in 32-bit
words from the part's first. -/
opaque wordSpot : Nat → Nat
/-- 10·log10(0) dB, which the run state of a silent output would show (R278 states no value). -/
opaque logZero : Int

/-- The pointer that an MXY or DMXY post-modifies twice, by a_i, MODi and MODj (R322 states no result for i = j). -/
opaque samePtr : Nat → Nat → Nat → Nat
/-- A SAC, LAC or SHA with a shift outside the range that R326 gives: by opcode, shift field and operand. -/
opaque shiftOut : Nat → Nat → Int → Int
/-- The boundary-scan register (16_electrical R482; log entry 103): the number of its cells, and the power domain of the ball of each. -/
opaque scanLen : Nat
opaque scanDomain : Nat → Nat
/-- Whether a boundary cell drives a SerDes transmitter, which IEEE 1149.6 pulses; and the leg (two of each of the 12 lanes) of the
SerDes receiver that a cell observes, from 24 on none: properties of the part's BSDL file. -/
opaque scanAc : Nat → Bool
opaque scanLeg : Nat → Nat

end Sys2Proof.Config
end

