-- ==== Sys2Proof/Machine/Fields.lean ====
section
/-! DEFINITION. The fields of the registers, by name: page, register and field as the spec's tables spell them. -/

namespace Sys2Proof.Machine

/-- A field: the fabric address of its register (of the first page and the first register of a row), the distance between
the registers of a row, and its bits [hi:lo]. -/
structure Fld where
  addr : Nat
  stride : Nat
  hi : Nat
  lo : Nat
  deriving DecidableEq, Repr

/-- The same field of the i-th register of its row. -/
def Fld.ix (f : Fld) (i : Nat) : Fld := { f with addr := f.addr + f.stride * i }

/-- The same field on the p-th page of its block. -/
def Fld.pg (f : Fld) (p : Nat) : Fld := { f with addr := f.addr + 0x1000 * p }

namespace R

def SYS_PART_NUMBER : Fld := ⟨0x80, 4, 31, 16⟩
def SYS_PART_STEP : Fld := ⟨0x80, 4, 15, 8⟩
def SYS_PART_GRADE : Fld := ⟨0x80, 4, 7, 0⟩
def SYS_UID_LO_UID : Fld := ⟨0x88, 4, 31, 0⟩
def SYS_UID_HI_UID : Fld := ⟨0x8C, 4, 31, 0⟩
def SYS_STRAPS_DEVID : Fld := ⟨0x90, 4, 4, 0⟩
def SYS_STRAPS_ROLE : Fld := ⟨0x90, 4, 9, 8⟩
def SYS_STRAPS_BOOT : Fld := ⟨0x90, 4, 13, 12⟩
def SYS_ROLE_CFG_ROLE_OVR : Fld := ⟨0x94, 4, 1, 0⟩
def SYS_ROLE_CFG_OVR_EN : Fld := ⟨0x94, 4, 8, 8⟩
def SYS_ROLE_EFF_ROLE : Fld := ⟨0x98, 4, 1, 0⟩
def SYS_ROLE_EFF_OVERRIDDEN : Fld := ⟨0x98, 4, 8, 8⟩
def SYS_MODE_MODE : Fld := ⟨0x9C, 4, 2, 0⟩
def SYS_SNAP_CMD_TRIG : Fld := ⟨0xA0, 4, 0, 0⟩
def SYS_SCRATCH_DATA : Fld := ⟨0xA4, 4, 31, 0⟩
def SYS_TMR_FIX_CNT_COUNT : Fld := ⟨0xA8, 4, 31, 0⟩
def SYS_TMR_FIX_LAST_SOURCE : Fld := ⟨0xAC, 4, 6, 0⟩
def SYS_TMR_FIX_LAST_OFFSET : Fld := ⟨0xAC, 4, 27, 16⟩
def EVT_PEND_PEND : Fld := ⟨0x5080, 4, 31, 0⟩
def EVT_SRC_EN_EN : Fld := ⟨0x5090, 4, 31, 0⟩
def EVT_VEC_ACTIVE_ACTIVE : Fld := ⟨0x50A0, 4, 31, 0⟩
def EVT_IRQ_EN_EN : Fld := ⟨0x50A4, 4, 31, 0⟩
def EVT_VEC_ACK_ACK : Fld := ⟨0x50A8, 4, 31, 0⟩
def EVT_VEC_FUNC_FUNC : Fld := ⟨0x50AC, 4, 31, 0⟩
def EVT_VMAP_VEC : Fld := ⟨0x5100, 4, 4, 0⟩
def SNAP_C_MODE : Fld := ⟨0x6008, 4, 0, 0⟩
def SNAP_C_ARMED : Fld := ⟨0x6008, 4, 1, 1⟩
def SNAP_TRIG_EN_EN : Fld := ⟨0x6080, 4, 4, 0⟩
def SNAP_HOLDOFF_SHEETS : Fld := ⟨0x6084, 4, 7, 0⟩
def SNAP_EVT_SEL_SOURCE : Fld := ⟨0x6088, 4, 6, 0⟩
def SNAP_EVT_SEL_BIT : Fld := ⟨0x6088, 4, 12, 8⟩
def SNAP_MATCH_HSI_LO_HSI : Fld := ⟨0x6090, 4, 31, 0⟩
def SNAP_MATCH_HSI_HI_HSI : Fld := ⟨0x6094, 4, 31, 0⟩
def SNAP_LAST_HSI_LO_HSI : Fld := ⟨0x6098, 4, 31, 0⟩
def SNAP_LAST_HSI_HI_HSI : Fld := ⟨0x609C, 4, 31, 0⟩
def SNAP_LAST_PHASE_PHASE : Fld := ⟨0x60A0, 4, 16, 0⟩
def SNAP_LAST_SRC_SRC : Fld := ⟨0x60A4, 4, 4, 0⟩
def SNAP_SEQ_SEQ : Fld := ⟨0x60A8, 4, 15, 0⟩
def SNAP_MISSED_COUNT : Fld := ⟨0x60AC, 4, 31, 0⟩
def SNAP_DUMP_CTRL_EN : Fld := ⟨0x60B0, 4, 0, 0⟩
def SNAP_DUMP_CTRL_ABORT : Fld := ⟨0x60B0, 4, 1, 1⟩
def SNAP_DUMP_STATUS_REASON : Fld := ⟨0x60B4, 4, 3, 0⟩
def SNAP_DUMP_STATUS_POISON : Fld := ⟨0x60B4, 4, 4, 4⟩
def SNAP_DUMP_STATUS_DONE_SEQ : Fld := ⟨0x60B4, 4, 31, 16⟩
def SNAP_DUMP_DIRTY_DIRTY : Fld := ⟨0x60B8, 4, 15, 0⟩
def SNAP_DESC_SRC_SRC : Fld := ⟨0x6100, 16, 31, 0⟩
def SNAP_DESC_LEN_SRC_HI : Fld := ⟨0x6104, 16, 7, 0⟩
def SNAP_DESC_LEN_LINES : Fld := ⟨0x6104, 16, 31, 8⟩
def SNAP_DESC_DST_DST : Fld := ⟨0x6108, 16, 31, 0⟩
def SNAP_DESC_CFG_DST_HI : Fld := ⟨0x610C, 16, 7, 0⟩
def SNAP_DESC_CFG_VALID : Fld := ⟨0x610C, 16, 31, 31⟩
def TIME_C_FORCE_HOLD : Fld := ⟨0x3008, 4, 0, 0⟩
def TIME_C_MEAS_FLUSH : Fld := ⟨0x3008, 4, 1, 1⟩
def TIME_S_LOCKED : Fld := ⟨0x300C, 4, 0, 0⟩
def TIME_S_HOLDOVER : Fld := ⟨0x300C, 4, 1, 1⟩
def TIME_S_REANCHOR_REQUIRED : Fld := ⟨0x300C, 4, 2, 2⟩
def TIME_S_STEP_PENDING : Fld := ⟨0x300C, 4, 3, 3⟩
def TIME_S_SLEWING : Fld := ⟨0x300C, 4, 4, 4⟩
def TIME_S_REF_PRESENT : Fld := ⟨0x300C, 4, 5, 5⟩
def TIME_E_LOCKED : Fld := ⟨0x3010, 4, 0, 0⟩
def TIME_E_LOCK_LOST : Fld := ⟨0x3010, 4, 1, 1⟩
def TIME_E_HOLDOVER : Fld := ⟨0x3010, 4, 2, 2⟩
def TIME_E_REANCHOR_REQUIRED : Fld := ⟨0x3010, 4, 3, 3⟩
def TIME_E_HSI_STEP : Fld := ⟨0x3010, 4, 4, 4⟩
def TIME_E_MEAS_OVF : Fld := ⟨0x3010, 4, 5, 5⟩
def TIME_E_MEAS_OUTLIER : Fld := ⟨0x3010, 4, 6, 6⟩
def TIME_E_MEAS_REJECT : Fld := ⟨0x3010, 4, 7, 7⟩
def TIME_E_FREQ_CLAMP : Fld := ⟨0x3010, 4, 8, 8⟩
def TIME_E_HSI_SET_REFUSED : Fld := ⟨0x3010, 4, 9, 9⟩
def TIME_REF_SEL_SRC : Fld := ⟨0x3080, 4, 2, 0⟩
def TIME_REF_SEL_DELAY_MECH : Fld := ⟨0x3080, 4, 4, 4⟩
def TIME_REF_SEL_WCLK_EDGE : Fld := ⟨0x3080, 4, 8, 8⟩
def TIME_SERVO_KP_KP : Fld := ⟨0x3084, 4, 31, 0⟩
def TIME_SERVO_KI_KI : Fld := ⟨0x3088, 4, 31, 0⟩
def TIME_DELAY_FILT_DLY_AVG : Fld := ⟨0x308C, 4, 3, 0⟩
def TIME_LOCK_CFG_LOCK_THR : Fld := ⟨0x3090, 4, 15, 0⟩
def TIME_LOCK_CFG_LOCK_CNT : Fld := ⟨0x3090, 4, 23, 16⟩
def TIME_UNLOCK_CFG_UNLOCK_THR : Fld := ⟨0x3094, 4, 15, 0⟩
def TIME_UNLOCK_CFG_UNLOCK_CNT : Fld := ⟨0x3094, 4, 23, 16⟩
def TIME_OUTLIER_CFG_OUT_THR : Fld := ⟨0x3098, 4, 15, 0⟩
def TIME_OUTLIER_CFG_OUT_CNT : Fld := ⟨0x3098, 4, 23, 16⟩
def TIME_LOSS_TIMEOUT_MS : Fld := ⟨0x309C, 4, 15, 0⟩
def TIME_RETURN_CFG_POLICY : Fld := ⟨0x30A0, 4, 0, 0⟩
def TIME_SLEW_CFG_SLEW_LIM : Fld := ⟨0x30A4, 4, 8, 0⟩
def TIME_SLEW_CFG_ACQ_SLEW : Fld := ⟨0x30A4, 4, 24, 16⟩
def TIME_REANCHOR_THR_US : Fld := ⟨0x30A8, 4, 31, 0⟩
def TIME_REANCHOR_ACTION : Fld := ⟨0x30AC, 4, 1, 0⟩
def TIME_MUTE_SHEET_LO_SHEET : Fld := ⟨0x30B0, 4, 31, 0⟩
def TIME_MUTE_SHEET_HI_SHEET : Fld := ⟨0x30B4, 4, 15, 0⟩
def TIME_MUTE_SHEET_HI_ARMED : Fld := ⟨0x30B4, 4, 31, 31⟩
def TIME_FREQ_TRIM_Y : Fld := ⟨0x30B8, 4, 31, 0⟩
def TIME_WCLK_IN_OFS_CYC : Fld := ⟨0x30BC, 4, 15, 0⟩
def TIME_CAPTURE_CAP : Fld := ⟨0x30C0, 4, 0, 0⟩
def TIME_CAP_PHASE_PH : Fld := ⟨0x30C4, 4, 13, 0⟩
def TIME_CAP_PHASE_GEN : Fld := ⟨0x30C4, 4, 27, 24⟩
def TIME_CAP_HSI_LO_HSI : Fld := ⟨0x30C8, 4, 31, 0⟩
def TIME_CAP_HSI_HI_HSI : Fld := ⟨0x30CC, 4, 31, 0⟩
def TIME_HSI_SET_LO_HSI : Fld := ⟨0x30D0, 4, 31, 0⟩
def TIME_HSI_SET_HI_HSI : Fld := ⟨0x30D4, 4, 31, 0⟩
def TIME_HSI_SET_CMD_APPLY : Fld := ⟨0x30D8, 4, 0, 0⟩
def TIME_OFFSET_LO_NS : Fld := ⟨0x30E0, 4, 31, 0⟩
def TIME_OFFSET_HI_NS : Fld := ⟨0x30E4, 4, 31, 0⟩
def TIME_PATH_DELAY_D : Fld := ⟨0x30E8, 4, 31, 0⟩
def TIME_FREQ_ADJ_Y : Fld := ⟨0x30EC, 4, 31, 0⟩
def TIME_FREQ_HOLD_Y : Fld := ⟨0x30F0, 4, 31, 0⟩
def TIME_SERVO_STATE_STATE : Fld := ⟨0x30F4, 4, 2, 0⟩
def TIME_SERVO_STATE_ANCHORED : Fld := ⟨0x30F4, 4, 3, 3⟩
def TIME_SERVO_STATE_HOLD_REASON : Fld := ⟨0x30F4, 4, 6, 4⟩
def TIME_SERVO_STATE_GEN : Fld := ⟨0x30F4, 4, 11, 8⟩
def TIME_LAST_STEP_LO_D : Fld := ⟨0x30F8, 4, 31, 0⟩
def TIME_LAST_STEP_HI_D : Fld := ⟨0x30FC, 4, 31, 0⟩
def TIME_STEP_CNT_COUNT : Fld := ⟨0x3100, 4, 31, 0⟩
def TIME_MEAS_ACCEPT_COUNT : Fld := ⟨0x3104, 4, 31, 0⟩
def TIME_MEAS_REJECT_COUNT : Fld := ⟨0x3108, 4, 31, 0⟩
def TIME_MEAS_OUTLIER_COUNT : Fld := ⟨0x310C, 4, 31, 0⟩
def TIME_MEAS_OVF_COUNT : Fld := ⟨0x3110, 4, 31, 0⟩
def TIME_SOUND_SPEED_C : Fld := ⟨0x3114, 4, 31, 0⟩
def TIME_ASYM_A : Fld := ⟨0x3120, 4, 31, 0⟩
def TIME_MEAS_DATA : Fld := ⟨0x3200, 4, 31, 0⟩
def TIME_MEAS_PUSH_PUSH : Fld := ⟨0x3240, 4, 0, 0⟩
def TIME_MEAS_LEVEL_LEVEL : Fld := ⟨0x3244, 4, 3, 0⟩
def CLK_S_PLLA_LOCK : Fld := ⟨0x200C, 4, 0, 0⟩
def CLK_S_PLLB_LOCK : Fld := ⟨0x200C, 4, 1, 1⟩
def CLK_S_PLLB_BYPASS : Fld := ⟨0x200C, 4, 2, 2⟩
def CLK_S_REF_LOSS : Fld := ⟨0x200C, 4, 3, 3⟩
def CLK_S_SSC_ACTIVE : Fld := ⟨0x200C, 4, 4, 4⟩
def CLK_S_SYNC_ARMED : Fld := ⟨0x200C, 4, 5, 5⟩
def CLK_E_PLLA_UNLOCK : Fld := ⟨0x2010, 4, 0, 0⟩
def CLK_E_PLLB_UNLOCK : Fld := ⟨0x2010, 4, 1, 1⟩
def CLK_E_PLLB_DONE : Fld := ⟨0x2010, 4, 2, 2⟩
def CLK_E_PLLB_FAIL : Fld := ⟨0x2010, 4, 3, 3⟩
def CLK_E_REF_LOSS : Fld := ⟨0x2010, 4, 4, 4⟩
def CLK_E_SYNC_DONE : Fld := ⟨0x2010, 4, 5, 5⟩
def CLK_PLLA_PHERR_E : Fld := ⟨0x2080, 4, 15, 0⟩
def CLK_PLLB_CFG_RATE : Fld := ⟨0x2084, 4, 0, 0⟩
def CLK_PLLB_CFG_SSC_MODE : Fld := ⟨0x2084, 4, 5, 4⟩
def CLK_PLLB_CFG_SSC_DEPTH : Fld := ⟨0x2084, 4, 11, 8⟩
def CLK_PLLB_CFG_APPLY : Fld := ⟨0x2084, 4, 31, 31⟩
def CLK_PLLB_ACTIVE_CFG : Fld := ⟨0x2088, 4, 11, 0⟩
def CLK_MCLK_CFG_EN : Fld := ⟨0x2090, 4, 0, 0⟩
def CLK_MCLK_CFG_FREQ : Fld := ⟨0x2090, 4, 2, 1⟩
def CLK_MCLK_CFG_FMT : Fld := ⟨0x2090, 4, 5, 4⟩
def CLK_MCLK_CFG_DIS_Z : Fld := ⟨0x2090, 4, 8, 8⟩
def CLK_WCLK_CFG_EN : Fld := ⟨0x20A0, 4, 0, 0⟩
def CLK_WCLK_CFG_FREQ : Fld := ⟨0x20A0, 4, 2, 1⟩
def CLK_WCLK_CFG_DIS_Z : Fld := ⟨0x20A0, 4, 8, 8⟩
def CLK_SYNC_CTRL_MODE : Fld := ⟨0x20B0, 4, 1, 0⟩
def CLK_SYNC_CTRL_ARM : Fld := ⟨0x20B0, 4, 4, 4⟩
def CLK_SYNC_CTRL_CONT : Fld := ⟨0x20B0, 4, 5, 5⟩
def CLK_SYNC_OFS_OFS : Fld := ⟨0x20B4, 4, 15, 0⟩
def CLK_LOCKF_CFG_EN : Fld := ⟨0x20B8, 4, 0, 0⟩
def CLK_LOCKF_CFG_FS : Fld := ⟨0x20B8, 4, 2, 1⟩
def MAC_C_RX_EN : Fld := ⟨0x10008, 4, 0, 0⟩
def MAC_C_TX_EN : Fld := ⟨0x10008, 4, 1, 1⟩
def MAC_S_LINK : Fld := ⟨0x1000C, 4, 0, 0⟩
def MAC_S_FEC_ACTIVE : Fld := ⟨0x1000C, 4, 1, 1⟩
def MAC_S_PAUSED : Fld := ⟨0x1000C, 4, 2, 2⟩
def MAC_S_TX_LPI : Fld := ⟨0x1000C, 4, 3, 3⟩
def MAC_S_RX_LPI : Fld := ⟨0x1000C, 4, 4, 4⟩
def MAC_S_EEE_BLOCKED : Fld := ⟨0x1000C, 4, 5, 5⟩
def MAC_E_RXR_DONE : Fld := ⟨0x10010, 4, 3, 0⟩
def MAC_E_TXR_DONE : Fld := ⟨0x10010, 4, 7, 4⟩
def MAC_E_RXR_EMPTY : Fld := ⟨0x10010, 4, 11, 8⟩
def MAC_E_LINK_DOWN : Fld := ⟨0x10010, 4, 12, 12⟩
def MAC_E_LINK_UP : Fld := ⟨0x10010, 4, 13, 13⟩
def MAC_E_CNT_HALF : Fld := ⟨0x10010, 4, 14, 14⟩
def MAC_E_FEC_UNCORR : Fld := ⟨0x10010, 4, 15, 15⟩
def MAC_E_PAUSE_RX : Fld := ⟨0x10010, 4, 16, 16⟩
def MAC_PCS_CFG_SPEED : Fld := ⟨0x10080, 4, 0, 0⟩
def MAC_PCS_CFG_FEC : Fld := ⟨0x10080, 4, 1, 1⟩
def MAC_PCS_CFG_LOOPBACK : Fld := ⟨0x10080, 4, 5, 4⟩
def MAC_RX_CFG_MAX_LEN : Fld := ⟨0x10084, 4, 13, 0⟩
def MAC_RX_CFG_PROMISC : Fld := ⟨0x10084, 4, 16, 16⟩
def MAC_RX_CFG_BCAST_EN : Fld := ⟨0x10084, 4, 17, 17⟩
def MAC_RX_CFG_MCAST_ALL : Fld := ⟨0x10084, 4, 18, 18⟩
def MAC_RX_CFG_UNTAG_EN : Fld := ⟨0x10084, 4, 19, 19⟩
def MAC_RX_CFG_STRIP : Fld := ⟨0x10084, 4, 20, 20⟩
def MAC_PAUSE_CFG_RX_EN : Fld := ⟨0x1008C, 4, 0, 0⟩
def MAC_PAUSE_LEFT_QUANTA : Fld := ⟨0x10090, 4, 15, 0⟩
def MAC_EEE_CFG_EN : Fld := ⟨0x10094, 4, 0, 0⟩
def MAC_EEE_CFG_LPI_IDLE : Fld := ⟨0x10094, 4, 15, 4⟩
def MAC_EEE_CFG_TW_SYS : Fld := ⟨0x10094, 4, 31, 20⟩
def MAC_DEF_RULE_RING : Fld := ⟨0x10098, 4, 1, 0⟩
def MAC_DEF_RULE_DROP : Fld := ⟨0x10098, 4, 4, 4⟩
def MAC_ADDR_LO_ADDR : Fld := ⟨0x100A0, 4, 31, 0⟩
def MAC_ADDR_HI_ADDR : Fld := ⟨0x100A4, 4, 15, 0⟩
def MAC_IPV4_ADDR : Fld := ⟨0x100A8, 4, 31, 0⟩
def MAC_IPV6_ADDR : Fld := ⟨0x100B0, 4, 31, 0⟩
def MAC_VID_VID : Fld := ⟨0x100C0, 4, 11, 0⟩
def MAC_VID_VALID : Fld := ⟨0x100C0, 4, 15, 15⟩
def MAC_MCX_SEL_INDEX : Fld := ⟨0x10100, 4, 7, 0⟩
def MAC_MCX_LO_ADDR : Fld := ⟨0x10104, 4, 31, 0⟩
def MAC_MCX_HI_ADDR : Fld := ⟨0x10108, 4, 15, 0⟩
def MAC_MCX_HI_VALID : Fld := ⟨0x10108, 4, 31, 31⟩
def MAC_MC_HASH_BITS : Fld := ⟨0x10200, 4, 31, 0⟩
def MAC_CNT_COUNT : Fld := ⟨0x10400, 4, 31, 0⟩
def MAC_CNT_HALF_0_HALF : Fld := ⟨0x10500, 4, 31, 0⟩
def MAC_CNT_HALF_1_HALF : Fld := ⟨0x10504, 4, 31, 0⟩
def MAC_RING_BASE_LO_ADDR : Fld := ⟨0x10600, 32, 31, 0⟩
def MAC_RING_BASE_HI_ADDR : Fld := ⟨0x10604, 32, 31, 0⟩
def MAC_RING_SIZE_LOG2 : Fld := ⟨0x10608, 32, 3, 0⟩
def MAC_RING_SIZE_EN : Fld := ⟨0x10608, 32, 8, 8⟩
def MAC_RING_TAIL_TAIL : Fld := ⟨0x1060C, 32, 11, 0⟩
def MAC_RING_HEAD_HEAD : Fld := ⟨0x10610, 32, 11, 0⟩
def MAC_RING_CFG_QUEUE : Fld := ⟨0x10614, 32, 1, 0⟩
def MAC_RULE_MATCH_ETYPE : Fld := ⟨0x10700, 16, 15, 0⟩
def MAC_RULE_MATCH_IPPROTO : Fld := ⟨0x10700, 16, 23, 16⟩
def MAC_RULE_MATCH_ETYPE_EN : Fld := ⟨0x10700, 16, 24, 24⟩
def MAC_RULE_MATCH_PROTO_EN : Fld := ⟨0x10700, 16, 25, 25⟩
def MAC_RULE_MATCH_DPORT_EN : Fld := ⟨0x10700, 16, 26, 26⟩
def MAC_RULE_MATCH_MCAST_ONLY : Fld := ⟨0x10700, 16, 27, 27⟩
def MAC_RULE_MATCH_VALID : Fld := ⟨0x10700, 16, 31, 31⟩
def MAC_RULE_DPORT_DPORT : Fld := ⟨0x10704, 16, 15, 0⟩
def MAC_RULE_DPORT_MASK : Fld := ⟨0x10704, 16, 31, 16⟩
def MAC_RULE_ACT_RING : Fld := ⟨0x10708, 16, 1, 0⟩
def MAC_RULE_ACT_DROP : Fld := ⟨0x10708, 16, 4, 4⟩
def MAC_RULE_HITS_COUNT : Fld := ⟨0x1070C, 16, 31, 0⟩
def RXS0_C_EN : Fld := ⟨0x20008, 4, 0, 0⟩
def RXS0_S_LOSS_ACTIVE : Fld := ⟨0x2000C, 4, 0, 0⟩
def RXS0_E_STREAM_LOSS : Fld := ⟨0x20010, 4, 0, 0⟩
def RXS0_E_LEG_DOWN : Fld := ⟨0x20010, 4, 1, 1⟩
def RXS0_E_LEG_UP : Fld := ⟨0x20010, 4, 2, 2⟩
def RXS0_E_LATE_PKT : Fld := ⟨0x20010, 4, 3, 3⟩
def RXS0_E_EARLY_PKT : Fld := ⟨0x20010, 4, 4, 4⟩
def RXS0_E_BAD_FMT : Fld := ⟨0x20010, 4, 5, 5⟩
def RXS0_E_SEQ_MISMATCH : Fld := ⟨0x20010, 4, 6, 6⟩
def RXS0_WIN_SEL_CTX : Fld := ⟨0x20080, 4, 7, 0⟩
def RXS0_WIN_SEL_KIND : Fld := ⟨0x20080, 4, 9, 8⟩
def RXS0_WIN_DATA_DATA : Fld := ⟨0x20100, 4, 31, 0⟩
def RXS1_ACT_EN : Fld := ⟨0x21080, 4, 31, 0⟩
def RXS1_LEG0_UP_UP : Fld := ⟨0x210A0, 4, 31, 0⟩
def RXS1_LEG1_UP_UP : Fld := ⟨0x210C0, 4, 31, 0⟩
def RXS1_LOSS_LOSS : Fld := ⟨0x210E0, 4, 31, 0⟩
def RXS1_LATE_LATE : Fld := ⟨0x21100, 4, 31, 0⟩
def TXS0_C_EN : Fld := ⟨0x24008, 4, 0, 0⟩
def TXS0_S_GATE_OPEN : Fld := ⟨0x2400C, 4, 0, 0⟩
def TXS0_S_SILENCE : Fld := ⟨0x2400C, 4, 1, 1⟩
def TXS0_E_LATE_SHEET : Fld := ⟨0x24010, 4, 0, 0⟩
def TXS0_E_GATE_CLOSED : Fld := ⟨0x24010, 4, 1, 1⟩
def TXS0_E_GATE_OPENED : Fld := ⟨0x24010, 4, 2, 2⟩
def TXS0_E_SILENCE_START : Fld := ⟨0x24010, 4, 3, 3⟩
def TXS0_E_SILENCE_END : Fld := ⟨0x24010, 4, 4, 4⟩
def TXS0_WIN_SEL_CTX : Fld := ⟨0x24080, 4, 6, 0⟩
def TXS0_WIN_SEL_KIND : Fld := ⟨0x24080, 4, 9, 8⟩
def TXS0_WIN_DATA_DATA : Fld := ⟨0x24100, 4, 31, 0⟩
def TXS1_ACT_EN : Fld := ⟨0x25080, 4, 31, 0⟩
def TXS1_LATE_LATE : Fld := ⟨0x250A0, 4, 31, 0⟩
def ICB0_C_EN : Fld := ⟨0x30008, 4, 0, 0⟩
def ICB0_S_ACQUIRING : Fld := ⟨0x3000C, 4, 0, 0⟩
def ICB0_E_SAT : Fld := ⟨0x30010, 4, 0, 0⟩
def ICB0_E_ASRC_LOCK : Fld := ⟨0x30010, 4, 1, 1⟩
def ICB0_E_ASRC_SLIP : Fld := ⟨0x30010, 4, 2, 2⟩
def ICB0_E_RATIO_CLAMP : Fld := ⟨0x30010, 4, 3, 3⟩
def ICB0_E_ASRC_RESTART : Fld := ⟨0x30010, 4, 4, 4⟩
def ICB0_WIN_SEL_INDEX : Fld := ⟨0x30080, 4, 9, 0⟩
def ICB0_WIN_SEL_KIND : Fld := ⟨0x30080, 4, 14, 12⟩
def ICB0_WIN_SEL_BLOCK : Fld := ⟨0x30080, 4, 22, 16⟩
def ICB0_SAT_CNT_COUNT : Fld := ⟨0x30084, 4, 31, 0⟩
def ICB0_WIN_DATA_DATA : Fld := ⟨0x30100, 4, 31, 0⟩
def ICB1_DC_FREEZE_FREEZE : Fld := ⟨0x31080, 4, 31, 0⟩
def ICB1_DC_CLEAR_CLEAR : Fld := ⟨0x31100, 4, 31, 0⟩
def ICB1_SAT_SAT : Fld := ⟨0x31180, 4, 31, 0⟩
def ICB2_LOOP_CFG_ACQ_KP : Fld := ⟨0x32080, 4, 3, 0⟩
def ICB2_LOOP_CFG_ACQ_KI : Fld := ⟨0x32080, 4, 7, 4⟩
def ICB2_LOOP_CFG_TRK_KP : Fld := ⟨0x32080, 4, 11, 8⟩
def ICB2_LOOP_CFG_TRK_KI : Fld := ⟨0x32080, 4, 15, 12⟩
def ICB2_LOOP_CFG_LOCK_CNT : Fld := ⟨0x32080, 4, 23, 16⟩
def ICB2_RATIO_LIM_LIM : Fld := ⟨0x32084, 4, 15, 0⟩
def ICB2_ASRC_LOCKED_LOCKED : Fld := ⟨0x320A0, 4, 31, 0⟩
def ICB2_ASRC_SLIP_SLIP : Fld := ⟨0x320C0, 4, 31, 0⟩
def OBJ0_C_EN : Fld := ⟨0x60008, 4, 0, 0⟩
def OBJ0_S_HOLDING : Fld := ⟨0x6000C, 4, 0, 0⟩
def OBJ0_S_QUEUED : Fld := ⟨0x6000C, 4, 1, 1⟩
def OBJ0_E_LATE_META : Fld := ⟨0x60010, 4, 0, 0⟩
def OBJ0_E_META_REJECT : Fld := ⟨0x60010, 4, 1, 1⟩
def OBJ0_E_QUOTA_HOLD : Fld := ⟨0x60010, 4, 2, 2⟩
def OBJ0_E_ZONE_FALLBACK : Fld := ⟨0x60010, 4, 3, 3⟩
def OBJ0_E_DIST_CLAMP : Fld := ⟨0x60010, 4, 4, 4⟩
def OBJ0_E_MODE_DENIED : Fld := ⟨0x60010, 4, 5, 5⟩
def OBJ0_WIN_SEL_INDEX : Fld := ⟨0x60080, 4, 9, 0⟩
def OBJ0_WIN_SEL_KIND : Fld := ⟨0x60080, 4, 13, 12⟩
def OBJ0_WIN_SEL_BLOCK : Fld := ⟨0x60080, 4, 17, 16⟩
def OBJ0_BANK_ACTIVE : Fld := ⟨0x60084, 4, 0, 0⟩
def OBJ0_INBOX_BASE_ADDR : Fld := ⟨0x60088, 4, 31, 0⟩
def OBJ0_Q_FLUSH_OBJ : Fld := ⟨0x6008C, 4, 9, 0⟩
def OBJ0_Q_FLUSH_GO : Fld := ⟨0x6008C, 4, 31, 31⟩
def OBJ0_LAST_REJ_OBJ : Fld := ⟨0x60090, 4, 9, 0⟩
def OBJ0_LAST_REJ_REASON : Fld := ⟨0x60090, 4, 13, 12⟩
def OBJ0_LAST_REJ_MASTER : Fld := ⟨0x60090, 4, 22, 16⟩
def OBJ0_LATE_META_CNT_COUNT : Fld := ⟨0x60094, 4, 31, 0⟩
def OBJ0_REJ_FULL_CNT_COUNT : Fld := ⟨0x60098, 4, 31, 0⟩
def OBJ0_REJ_ORDER_CNT_COUNT : Fld := ⟨0x6009C, 4, 31, 0⟩
def OBJ0_REJ_FIELD_CNT_COUNT : Fld := ⟨0x600A0, 4, 31, 0⟩
def OBJ0_SEARCH_CNT_COUNT : Fld := ⟨0x600A4, 4, 31, 0⟩
def OBJ0_HOLD_CNT_COUNT : Fld := ⟨0x600A8, 4, 31, 0⟩
def OBJ0_FALLBACK_CNT_COUNT : Fld := ⟨0x600AC, 4, 31, 0⟩
def OBJ0_DIST_CLAMP_CNT_COUNT : Fld := ⟨0x600B0, 4, 31, 0⟩
def OBJ0_MODE_DENIED_CNT_COUNT : Fld := ⟨0x600B4, 4, 31, 0⟩
def OBJ0_QUEUED_COUNT : Fld := ⟨0x600B8, 4, 14, 0⟩
def OBJ0_WIN_DATA_DATA : Fld := ⟨0x60100, 4, 31, 0⟩
def OBJ1_LATE_LATE : Fld := ⟨0x61080, 4, 31, 0⟩
def OBJ1_HOLD_HOLD : Fld := ⟨0x61100, 4, 31, 0⟩
def MOULD0_E_ACTIVE_WRITE : Fld := ⟨0x68010, 4, 0, 0⟩
def MOULD0_E_SET_SWAP : Fld := ⟨0x68010, 4, 1, 1⟩
def MOULD0_E_CHECK_FAIL : Fld := ⟨0x68010, 4, 2, 2⟩
def MOULD0_SET_CTRL_NEXT : Fld := ⟨0x68080, 4, 0, 0⟩
def MOULD0_SET_CTRL_ACTIVE : Fld := ⟨0x68080, 4, 8, 8⟩
def MOULD0_WIN_SEL_INDEX : Fld := ⟨0x68084, 4, 10, 0⟩
def MOULD0_WIN_SEL_KIND : Fld := ⟨0x68084, 4, 14, 12⟩
def MOULD0_WIN_SEL_SET : Fld := ⟨0x68084, 4, 15, 15⟩
def MOULD0_WIN_SEL_BLOCK : Fld := ⟨0x68084, 4, 19, 16⟩
def MOULD0_SOUND_SPEED_C : Fld := ⟨0x68088, 4, 31, 0⟩
def MOULD0_CHECK_FAULT : Fld := ⟨0x6808C, 4, 3, 0⟩
def MOULD0_CHECK_SET : Fld := ⟨0x6808C, 4, 4, 4⟩
def MOULD0_CHECK_INDEX : Fld := ⟨0x6808C, 4, 26, 16⟩
def MOULD0_WIN_DATA_DATA : Fld := ⟨0x68100, 4, 31, 0⟩
def VAT_C_EN : Fld := ⟨0x40008, 4, 0, 0⟩
def VAT_S_WF_ACTIVE : Fld := ⟨0x4000C, 4, 0, 0⟩
def VAT_S_XFADE : Fld := ⟨0x4000C, 4, 1, 1⟩
def VAT_E_DLY_CLAMP : Fld := ⟨0x40010, 4, 0, 0⟩
def VAT_E_GAIN_SAT : Fld := ⟨0x40010, 4, 1, 1⟩
def VAT_E_PF_SAT : Fld := ⟨0x40010, 4, 2, 2⟩
def VAT_E_JUMP : Fld := ⟨0x40010, 4, 3, 3⟩
def VAT_JUMP_CFG_JUMP_LIM : Fld := ⟨0x40080, 4, 2, 0⟩
def VAT_WF_MAP_WF : Fld := ⟨0x40084, 4, 15, 0⟩
def VAT_PAIRS_ACTIVE_COUNT : Fld := ⟨0x40088, 4, 13, 0⟩
def VAT_DLY_CLAMP_CNT_COUNT : Fld := ⟨0x4008C, 4, 31, 0⟩
def VAT_GAIN_SAT_CNT_COUNT : Fld := ⟨0x40090, 4, 31, 0⟩
def VAT_PF_SAT_CNT_COUNT : Fld := ⟨0x40094, 4, 31, 0⟩
def VAT_JUMP_CNT_COUNT : Fld := ⟨0x40098, 4, 31, 0⟩
def VAT_PAIR_SEL_SLOT : Fld := ⟨0x400A0, 4, 3, 0⟩
def VAT_PAIR_SEL_BLOCK : Fld := ⟨0x400A0, 4, 11, 8⟩
def VAT_PAIR_SEL_FIELD : Fld := ⟨0x400A0, 4, 16, 16⟩
def VAT_OBJ_MAP_OBJ : Fld := ⟨0x40100, 4, 9, 0⟩
def VAT_OBJ_MAP_VALID : Fld := ⟨0x40100, 4, 15, 15⟩
def VAT_OBJ_MAP_MODE : Fld := ⟨0x40100, 4, 17, 16⟩
def VAT_PF_CFG_F_LO : Fld := ⟨0x40180, 4, 10, 0⟩
def VAT_PF_CFG_F_HI : Fld := ⟨0x40180, 4, 29, 16⟩
def VAT_PF_CFG_PF_EN : Fld := ⟨0x40180, 4, 31, 31⟩
def VAT_PF_ACT_CFG : Fld := ⟨0x401C0, 4, 31, 0⟩
def VAT_PAIR_DATA_DATA : Fld := ⟨0x40200, 4, 31, 0⟩
def PRESS_S_PENDING : Fld := ⟨0x800C, 4, 0, 0⟩
def PRESS_E_COMMITTED : Fld := ⟨0x8010, 4, 0, 0⟩
def PRESS_E_REFUSED : Fld := ⟨0x8010, 4, 1, 1⟩
def PRESS_E_SHADOW_BUSY : Fld := ⟨0x8010, 4, 2, 2⟩
def PRESS_PRES_LAT_L : Fld := ⟨0x8080, 4, 12, 0⟩
def PRESS_PRES_LAT_ACT_L : Fld := ⟨0x8084, 4, 12, 0⟩
def PRESS_REQ_SHEET_LO_N : Fld := ⟨0x8088, 4, 31, 0⟩
def PRESS_REQ_SHEET_HI_N : Fld := ⟨0x808C, 4, 15, 0⟩
def PRESS_REQ_GO : Fld := ⟨0x8090, 4, 0, 0⟩
def PRESS_REQ_ABORT : Fld := ⟨0x8090, 4, 1, 1⟩
def PRESS_REQ_RING : Fld := ⟨0x8090, 4, 2, 2⟩
def PRESS_REQ_REL : Fld := ⟨0x8090, 4, 3, 3⟩
def PRESS_REQ_ID : Fld := ⟨0x8090, 4, 15, 8⟩
def PRESS_RESULT_REASON : Fld := ⟨0x8094, 4, 3, 0⟩
def PRESS_RESULT_ID : Fld := ⟨0x8094, 4, 15, 8⟩
def PRESS_RESULT_NODE : Fld := ⟨0x8094, 4, 31, 16⟩
def PRESS_DETAIL_INDEX : Fld := ⟨0x8098, 4, 15, 0⟩
def PRESS_LAST_SHEET_LO_N : Fld := ⟨0x80A0, 4, 31, 0⟩
def PRESS_LAST_SHEET_HI_N : Fld := ⟨0x80A4, 4, 15, 0⟩
def PRESS_COMMIT_CNT_COUNT : Fld := ⟨0x80A8, 4, 31, 0⟩
def PRESS_REFUSE_CNT_COUNT : Fld := ⟨0x80AC, 4, 31, 0⟩
def PRESS_TAU_R_TAU : Fld := ⟨0x80B0, 4, 9, 0⟩
def PRESS_POOL_USE_USE : Fld := ⟨0x80B4, 4, 16, 0⟩
def PRESS_PAD_SEL_BLOCK : Fld := ⟨0x80B8, 4, 4, 0⟩
def PRESS_PAD_PAD : Fld := ⟨0x8100, 4, 9, 0⟩
def MIX0_C_EN : Fld := ⟨0x70008, 4, 0, 0⟩
def MIX0_S_XFADING : Fld := ⟨0x7000C, 4, 0, 0⟩
def MIX0_S_FADE_QUEUED : Fld := ⟨0x7000C, 4, 1, 1⟩
def MIX0_E_BUS_SAT : Fld := ⟨0x70010, 4, 0, 0⟩
def MIX0_E_SINK_SAT : Fld := ⟨0x70010, 4, 1, 1⟩
def MIX0_E_FADE_OVF : Fld := ⟨0x70010, 4, 2, 2⟩
def MIX0_WIN_SEL_INDEX : Fld := ⟨0x70080, 4, 12, 0⟩
def MIX0_WIN_SEL_KIND : Fld := ⟨0x70080, 4, 15, 13⟩
def MIX0_TEST_CFG_WAVE : Fld := ⟨0x70084, 4, 1, 0⟩
def MIX0_TEST_CFG_LEVEL : Fld := ⟨0x70084, 4, 31, 16⟩
def MIX0_TEST_FREQ_INC : Fld := ⟨0x70088, 4, 31, 0⟩
def MIX0_FADE_GAIN_GAIN : Fld := ⟨0x7008C, 4, 23, 0⟩
def MIX0_FADE_CMD_INDEX : Fld := ⟨0x70090, 4, 12, 0⟩
def MIX0_FADE_CMD_GO : Fld := ⟨0x70090, 4, 31, 31⟩
def MIX0_FADE_LEVEL_LEVEL : Fld := ⟨0x70094, 4, 8, 0⟩
def MIX0_SINK_SAT_CNT_COUNT : Fld := ⟨0x70098, 4, 31, 0⟩
def MIX0_SINK_SAT_LAST_SINK : Fld := ⟨0x7009C, 4, 13, 0⟩
def MIX0_XP_ACTIVE_COUNT : Fld := ⟨0x700A0, 4, 13, 0⟩
def MIX0_WIN_DATA_DATA : Fld := ⟨0x70100, 4, 31, 0⟩
def MIX1_HOME_EN : Fld := ⟨0x71080, 4, 31, 0⟩
def MIX1_HOME_ACT_EN : Fld := ⟨0x710C0, 4, 31, 0⟩
def MIX1_BUS_SAT_SAT : Fld := ⟨0x71100, 4, 31, 0⟩
def OUT0_C_EN : Fld := ⟨0x78008, 4, 0, 0⟩
def OUT0_C_MUTE_ALL : Fld := ⟨0x78008, 4, 1, 1⟩
def OUT0_S_LIMITING : Fld := ⟨0x7800C, 4, 0, 0⟩
def OUT0_E_SAT : Fld := ⟨0x78010, 4, 0, 0⟩
def OUT0_E_DECK_HARD : Fld := ⟨0x78010, 4, 1, 1⟩
def OUT0_E_DECK_CLIP : Fld := ⟨0x78010, 4, 2, 2⟩
def OUT0_E_DECK_LIMIT : Fld := ⟨0x78010, 4, 3, 3⟩
def OUT0_E_THERMAL : Fld := ⟨0x78010, 4, 4, 4⟩
def OUT0_WIN_SEL_INDEX : Fld := ⟨0x78080, 4, 8, 0⟩
def OUT0_WIN_SEL_KIND : Fld := ⟨0x78080, 4, 14, 12⟩
def OUT0_WIN_SEL_BLOCK : Fld := ⟨0x78080, 4, 17, 16⟩
def OUT0_SAT_CNT_COUNT : Fld := ⟨0x78084, 4, 31, 0⟩
def OUT0_HARD_CNT_COUNT : Fld := ⟨0x78088, 4, 31, 0⟩
def OUT0_CLIP_CNT_COUNT : Fld := ⟨0x7808C, 4, 31, 0⟩
def OUT0_WIN_DATA_DATA : Fld := ⟨0x78100, 4, 31, 0⟩
def OUT1_MUTE_MUTE : Fld := ⟨0x79080, 4, 31, 0⟩
def OUT1_MUTED_MUTED : Fld := ⟨0x790C0, 4, 31, 0⟩
def OUT1_SAT_SAT : Fld := ⟨0x79100, 4, 31, 0⟩
def OUT1_GR_GR : Fld := ⟨0x79140, 4, 31, 0⟩
def CONV_C_EN : Fld := ⟨0x80008, 4, 0, 0⟩
def CONV_S_BYPASS : Fld := ⟨0x8000C, 4, 0, 0⟩
def CONV_S_XFADE : Fld := ⟨0x8000C, 4, 1, 1⟩
def CONV_S_LOADING : Fld := ⟨0x8000C, 4, 2, 2⟩
def CONV_S_BUILDING : Fld := ⟨0x8000C, 4, 3, 3⟩
def CONV_S_VERIFYING : Fld := ⟨0x8000C, 4, 4, 4⟩
def CONV_E_TAIL_DROP : Fld := ⟨0x80010, 4, 0, 0⟩
def CONV_E_BYPASS_ON : Fld := ⟨0x80010, 4, 1, 1⟩
def CONV_E_BYPASS_OFF : Fld := ⟨0x80010, 4, 2, 2⟩
def CONV_E_LOAD_DONE : Fld := ⟨0x80010, 4, 3, 3⟩
def CONV_E_LOAD_FAIL : Fld := ⟨0x80010, 4, 4, 4⟩
def CONV_E_IMAGE_WRITE : Fld := ⟨0x80010, 4, 5, 5⟩
def CONV_E_SET_SWAP : Fld := ⟨0x80010, 4, 6, 6⟩
def CONV_E_XFADE_DONE : Fld := ⟨0x80010, 4, 7, 7⟩
def CONV_E_RET_SAT : Fld := ⟨0x80010, 4, 8, 8⟩
def CONV_E_XFORM_SAT : Fld := ⟨0x80010, 4, 9, 9⟩
def CONV_E_POISON : Fld := ⟨0x80010, 4, 10, 10⟩
def CONV_E_SET_LOST : Fld := ⟨0x80010, 4, 11, 11⟩
def CONV_SET_CTRL_NEXT : Fld := ⟨0x80080, 4, 0, 0⟩
def CONV_SET_CTRL_ACTIVE : Fld := ⟨0x80080, 4, 8, 8⟩
def CONV_DRAM_BASE_BASE : Fld := ⟨0x80084, 4, 12, 0⟩
def CONV_LOAD_SET : Fld := ⟨0x80088, 4, 0, 0⟩
def CONV_LOAD_GO : Fld := ⟨0x80088, 4, 4, 4⟩
def CONV_LOAD_RELOAD : Fld := ⟨0x80088, 4, 5, 5⟩
def CONV_LOAD_ABORT : Fld := ⟨0x80088, 4, 6, 6⟩
def CONV_LOAD_STATUS_REASON : Fld := ⟨0x8008C, 4, 3, 0⟩
def CONV_LOAD_STATUS_SET : Fld := ⟨0x8008C, 4, 4, 4⟩
def CONV_LOAD_STATUS_PROGRESS : Fld := ⟨0x8008C, 4, 25, 16⟩
def CONV_SET_STATE_STATE_A : Fld := ⟨0x80090, 4, 2, 0⟩
def CONV_SET_STATE_STATE_B : Fld := ⟨0x80090, 4, 6, 4⟩
def CONV_SET_STATE_FADING_A : Fld := ⟨0x80090, 4, 8, 8⟩
def CONV_SET_STATE_FADING_B : Fld := ⟨0x80090, 4, 9, 9⟩
def CONV_BYPASS_WHY_DRAM_OFF : Fld := ⟨0x80094, 4, 0, 0⟩
def CONV_BYPASS_WHY_PLLB_FAIL : Fld := ⟨0x80094, 4, 1, 1⟩
def CONV_BYPASS_WHY_SET_LOST : Fld := ⟨0x80094, 4, 2, 2⟩
def CONV_TAIL_DROP_CNT_COUNT : Fld := ⟨0x80098, 4, 31, 0⟩
def CONV_RET_SAT_CNT_COUNT : Fld := ⟨0x8009C, 4, 31, 0⟩
def CONV_XFORM_SAT_CNT_COUNT : Fld := ⟨0x800A0, 4, 31, 0⟩
def CONV_POISON_CNT_COUNT : Fld := ⟨0x800A4, 4, 31, 0⟩
def CONV_DIGEST_A_LO_CRC : Fld := ⟨0x800B0, 4, 31, 0⟩
def CONV_DIGEST_A_HI_CRC : Fld := ⟨0x800B4, 4, 31, 0⟩
def CONV_DIGEST_B_LO_CRC : Fld := ⟨0x800B8, 4, 31, 0⟩
def CONV_DIGEST_B_HI_CRC : Fld := ⟨0x800BC, 4, 31, 0⟩
def CONV_WIN_SEL_OUT : Fld := ⟨0x800C0, 4, 8, 0⟩
def CONV_WIN_SEL_SET : Fld := ⟨0x800C0, 4, 12, 12⟩
def CONV_MASK_EMPTY1 : Fld := ⟨0x800C4, 4, 13, 0⟩
def CONV_MASK_EMPTY2 : Fld := ⟨0x800C4, 4, 29, 16⟩
def CONV_MASK_HEAD_EMPTY : Fld := ⟨0x800C4, 4, 31, 31⟩
def CONV_EXP_E1 : Fld := ⟨0x80100, 4, 7, 0⟩
def CONV_EXP_E2 : Fld := ⟨0x80100, 4, 15, 8⟩
def CONV_DROP_DROP : Fld := ⟨0x80180, 4, 31, 0⟩
def IE_C_RESTART : Fld := ⟨0x90008, 4, 0, 0⟩
def IE_C_HALT : Fld := ⟨0x90008, 4, 1, 1⟩
def IE_S_STATE : Fld := ⟨0x9000C, 4, 2, 0⟩
def IE_S_HANDLER : Fld := ⟨0x9000C, 4, 3, 3⟩
def IE_S_BULK_BUSY : Fld := ⟨0x9000C, 4, 4, 4⟩
def IE_S_HALTED : Fld := ⟨0x9000C, 4, 5, 5⟩
def IE_E_LATE_SHEET : Fld := ⟨0x90010, 4, 0, 0⟩
def IE_E_FAULT : Fld := ⟨0x90010, 4, 1, 1⟩
def IE_E_LOAD_DONE : Fld := ⟨0x90010, 4, 2, 2⟩
def IE_E_LOAD_FAIL : Fld := ⟨0x90010, 4, 3, 3⟩
def IE_E_SIGNAL : Fld := ⟨0x90010, 4, 4, 4⟩
def IE_E_BAD_ADDR : Fld := ⟨0x90010, 4, 5, 5⟩
def IE_E_BULK_ERR : Fld := ⟨0x90010, 4, 6, 6⟩
def IE_PROG_CFG_ENTRY : Fld := ⟨0x90080, 4, 13, 0⟩
def IE_PROG_CFG_IVEC : Fld := ⟨0x90080, 4, 29, 16⟩
def IE_PROG_CFG_RUN : Fld := ⟨0x90080, 4, 31, 31⟩
def IE_PROG_IMG_LO_ADDR : Fld := ⟨0x90088, 4, 31, 0⟩
def IE_PROG_IMG_HI_ADDR : Fld := ⟨0x9008C, 4, 7, 0⟩
def IE_PROG_CRC_LO_CRC : Fld := ⟨0x90090, 4, 31, 0⟩
def IE_PROG_CRC_HI_CRC : Fld := ⟨0x90094, 4, 31, 0⟩
def IE_ACT_CFG_CFG : Fld := ⟨0x900A0, 4, 31, 0⟩
def IE_ACT_IMG_LO_ADDR : Fld := ⟨0x900A8, 4, 31, 0⟩
def IE_ACT_IMG_HI_ADDR : Fld := ⟨0x900AC, 4, 7, 0⟩
def IE_ACT_CRC_LO_CRC : Fld := ⟨0x900B0, 4, 31, 0⟩
def IE_ACT_CRC_HI_CRC : Fld := ⟨0x900B4, 4, 31, 0⟩
def IE_LOADED_CRC_LO_CRC : Fld := ⟨0x900B8, 4, 31, 0⟩
def IE_LOADED_CRC_HI_CRC : Fld := ⟨0x900BC, 4, 31, 0⟩
def IE_DOORBELL_RING : Fld := ⟨0x900C0, 4, 0, 0⟩
def IE_LOAD_STATUS_REASON : Fld := ⟨0x900C4, 4, 2, 0⟩
def IE_FAULT_INFO_PC : Fld := ⟨0x900C8, 4, 13, 0⟩
def IE_FAULT_INFO_CAUSE : Fld := ⟨0x900C8, 4, 18, 16⟩
def IE_BAD_ADDR_PC : Fld := ⟨0x900CC, 4, 13, 0⟩
def IE_BAD_ADDR_ADDR : Fld := ⟨0x900CC, 4, 30, 14⟩
def IE_LATE_CNT_COUNT : Fld := ⟨0x900D0, 4, 31, 0⟩
def IE_CYC_LAST_CYC : Fld := ⟨0x900D4, 4, 17, 0⟩
def IE_CYC_MAX_CYC : Fld := ⟨0x900D8, 4, 17, 0⟩
def IE_PC_PC : Fld := ⟨0x900DC, 4, 13, 0⟩
def IE_DM_ADDR_ADDR : Fld := ⟨0x90100, 4, 16, 0⟩
def IE_DM_DATA_DATA : Fld := ⟨0x90104, 4, 31, 0⟩
def IE_PM_ADDR_ADDR : Fld := ⟨0x90108, 4, 13, 0⟩
def IE_PM_DATA_DATA : Fld := ⟨0x9010C, 4, 31, 0⟩
def IE_REG_SEL_INDEX : Fld := ⟨0x90110, 4, 7, 0⟩
def IE_REG_DATA_DATA : Fld := ⟨0x90114, 4, 31, 0⟩
def FAB_S_LOCK_HELD : Fld := ⟨0xA000C, 4, 0, 0⟩
def FAB_E_DECODE_MISS : Fld := ⟨0xA0010, 4, 0, 0⟩
def FAB_E_DOMAIN_OFF : Fld := ⟨0xA0010, 4, 1, 1⟩
def FAB_E_DENIED : Fld := ⟨0xA0010, 4, 2, 2⟩
def FAB_E_GUARD_HIT : Fld := ⟨0xA0010, 4, 3, 3⟩
def FAB_E_LOCK_BREAK : Fld := ⟨0xA0010, 4, 4, 4⟩
def FAB_E_LOCK_REFUSED : Fld := ⟨0xA0010, 4, 5, 5⟩
def FAB_ERR_ADDR_LO_ADDR : Fld := ⟨0xA0080, 4, 31, 0⟩
def FAB_ERR_ADDR_HI_ADDR : Fld := ⟨0xA0084, 4, 7, 0⟩
def FAB_ERR_INFO_MASTER : Fld := ⟨0xA0088, 4, 6, 0⟩
def FAB_ERR_INFO_WRITE : Fld := ⟨0xA0088, 4, 8, 8⟩
def FAB_ERR_INFO_CAUSE : Fld := ⟨0xA0088, 4, 10, 9⟩
def FAB_ERR_INFO_TARGET : Fld := ⟨0xA0088, 4, 14, 12⟩
def FAB_ERR_CNT_COUNT : Fld := ⟨0xA008C, 4, 31, 0⟩
def FAB_GUARD_ADDR_OFFSET : Fld := ⟨0xA0090, 4, 23, 0⟩
def FAB_GUARD_INFO_MASTER : Fld := ⟨0xA0094, 4, 6, 0⟩
def FAB_GUARD_INFO_WRITE : Fld := ⟨0xA0094, 4, 8, 8⟩
def FAB_GUARD_CNT_COUNT : Fld := ⟨0xA0098, 4, 31, 0⟩
def FAB_LOCK_BREAK_CNT_COUNT : Fld := ⟨0xA009C, 4, 31, 0⟩
def FAB_LOCK_INFO_MASTER : Fld := ⟨0xA00A0, 4, 6, 0⟩
def FAB_LOCK_INFO_REFUSED : Fld := ⟨0xA00A0, 4, 8, 8⟩
def FAB_ARB_WT_0_WT_i : Fld := ⟨0xA00A4, 4, 3, 0⟩
def FAB_ARB_WT_1_WT_8 : Fld := ⟨0xA00A8, 4, 3, 0⟩
def FAB_ARB_ACT_0_W_i : Fld := ⟨0xA00AC, 4, 3, 0⟩
def FAB_ARB_ACT_1_W_8 : Fld := ⟨0xA00B0, 4, 3, 0⟩
def FAB_AT_SEL_TARGET : Fld := ⟨0xA00C0, 4, 2, 0⟩
def FAB_AT_SEL_REGION : Fld := ⟨0xA00C0, 4, 11, 8⟩
def FAB_AT_PERM_PERM : Fld := ⟨0xA00C4, 4, 15, 0⟩
def FAB_AT_PERM_VALID : Fld := ⟨0xA00C4, 4, 31, 31⟩
def FAB_AT_BASE_LO_BASE : Fld := ⟨0xA00C8, 4, 31, 12⟩
def FAB_AT_BASE_HI_BASE : Fld := ⟨0xA00CC, 4, 7, 0⟩
def FAB_AT_LIMIT_LO_LIMIT : Fld := ⟨0xA00D0, 4, 31, 12⟩
def FAB_AT_LIMIT_HI_LIMIT : Fld := ⟨0xA00D4, 4, 7, 0⟩
def FAB_MGRP_0_GRP : Fld := ⟨0xA0100, 4, 2, 0⟩
def FAB_MGRP_1_GRP : Fld := ⟨0xA0104, 4, 2, 0⟩
def FAB_MGRP_2_GRP : Fld := ⟨0xA0108, 4, 2, 0⟩
def FAB_MGRP_3_GRP : Fld := ⟨0xA010C, 4, 2, 0⟩
def SRAM_C_SCRUB_EN : Fld := ⟨0xA8008, 4, 0, 0⟩
def SRAM_S_POISON_PRESENT : Fld := ⟨0xA800C, 4, 0, 0⟩
def SRAM_E_CORRECTED : Fld := ⟨0xA8010, 4, 0, 0⟩
def SRAM_E_UNCORRECTABLE : Fld := ⟨0xA8010, 4, 1, 1⟩
def SRAM_E_SCRUB_PASS : Fld := ⟨0xA8010, 4, 2, 2⟩
def SRAM_E_RMW_POISON : Fld := ⟨0xA8010, 4, 3, 3⟩
def SRAM_SCRUB_CFG_INTERVAL : Fld := ⟨0xA8080, 4, 15, 0⟩
def SRAM_SCRUB_POS_WORD : Fld := ⟨0xA8084, 4, 21, 0⟩
def SRAM_SCRUB_PASSES_COUNT : Fld := ⟨0xA8088, 4, 31, 0⟩
def SRAM_UE_CNT_COUNT : Fld := ⟨0xA808C, 4, 31, 0⟩
def SRAM_UE_ADDR_LO_ADDR : Fld := ⟨0xA8090, 4, 31, 0⟩
def SRAM_UE_ADDR_HI_ADDR : Fld := ⟨0xA8094, 4, 7, 0⟩
def SRAM_UE_INFO_MASTER : Fld := ⟨0xA8098, 4, 6, 0⟩
def SRAM_UE_INFO_VAT : Fld := ⟨0xA8098, 4, 12, 8⟩
def SRAM_UE_INFO_LOCAL : Fld := ⟨0xA8098, 4, 13, 13⟩
def SRAM_UE_INFO_BANK : Fld := ⟨0xA8098, 4, 21, 16⟩
def SRAM_POISONED_COUNT : Fld := ⟨0xA809C, 4, 21, 0⟩
def SRAM_INJ_ADDR_LO_ADDR : Fld := ⟨0xA80A0, 4, 31, 0⟩
def SRAM_INJ_ADDR_HI_ADDR : Fld := ⟨0xA80A4, 4, 7, 0⟩
def SRAM_INJ_CTRL_SYMS : Fld := ⟨0xA80A8, 4, 1, 0⟩
def SRAM_INJ_CTRL_GO : Fld := ⟨0xA80A8, 4, 31, 31⟩
def SRAM_CE_CNT_COUNT : Fld := ⟨0xA8100, 4, 31, 0⟩
def SRAM_VCE_SEL_VAT : Fld := ⟨0xA81C0, 4, 4, 0⟩
def SRAM_VCE_CNT_COUNT : Fld := ⟨0xA8200, 4, 31, 0⟩
def DRC_C_RETRAIN : Fld := ⟨0xB0008, 4, 0, 0⟩
def DRC_S_STATE : Fld := ⟨0xB000C, 4, 2, 0⟩
def DRC_S_ROW_OPEN : Fld := ⟨0xB000C, 4, 3, 3⟩
def DRC_E_CORRECTED : Fld := ⟨0xB0010, 4, 0, 0⟩
def DRC_E_UNCORRECTABLE : Fld := ⟨0xB0010, 4, 1, 1⟩
def DRC_E_DEGRADED : Fld := ⟨0xB0010, 4, 2, 2⟩
def DRC_E_OFFLINE : Fld := ⟨0xB0010, 4, 3, 3⟩
def DRC_E_ONLINE : Fld := ⟨0xB0010, 4, 4, 4⟩
def DRC_E_TRAIN_FAIL : Fld := ⟨0xB0010, 4, 5, 5⟩
def DRC_E_FORCED_REF : Fld := ⟨0xB0010, 4, 6, 6⟩
def DRC_E_DRAM_HOT : Fld := ⟨0xB0010, 4, 7, 7⟩
def DRC_PAGE_CFG_POLICY : Fld := ⟨0xB0080, 4, 0, 0⟩
def DRC_AGE_CFG_AGE_TAIL : Fld := ⟨0xB0084, 4, 7, 0⟩
def DRC_AGE_CFG_AGE_SYS : Fld := ⟨0xB0084, 4, 15, 8⟩
def DRC_AGE_CFG_AGE_BULK : Fld := ⟨0xB0084, 4, 23, 16⟩
def DRC_TRAIN_PERIOD_MS : Fld := ⟨0xB0088, 4, 15, 0⟩
def DRC_REF_STATE_OWED : Fld := ⟨0xB008C, 4, 3, 0⟩
def DRC_REF_STATE_LIMIT : Fld := ⟨0xB008C, 4, 11, 8⟩
def DRC_RD_CNT_COUNT : Fld := ⟨0xB0090, 4, 31, 0⟩
def DRC_WR_CNT_COUNT : Fld := ⟨0xB0094, 4, 31, 0⟩
def DRC_HIT_CNT_COUNT : Fld := ⟨0xB0098, 4, 31, 0⟩
def DRC_MISS_CNT_COUNT : Fld := ⟨0xB009C, 4, 31, 0⟩
def DRC_CE_CNT_COUNT : Fld := ⟨0xB00A0, 4, 31, 0⟩
def DRC_UE_CNT_COUNT : Fld := ⟨0xB00A4, 4, 31, 0⟩
def DRC_FORCED_CNT_COUNT : Fld := ⟨0xB00A8, 4, 31, 0⟩
def DRC_TRAIN_FAIL_CNT_COUNT : Fld := ⟨0xB00AC, 4, 31, 0⟩
def DRC_UE_ADDR_LO_ADDR : Fld := ⟨0xB00B0, 4, 31, 0⟩
def DRC_UE_ADDR_HI_ADDR : Fld := ⟨0xB00B4, 4, 7, 0⟩
def DRC_UE_INFO_MASTER : Fld := ⟨0xB00B8, 4, 6, 0⟩
def DRC_UE_INFO_WRITE : Fld := ⟨0xB00B8, 4, 8, 8⟩
def DRC_TRAIN_RESULT_WIN_RD : Fld := ⟨0xB00C0, 4, 7, 0⟩
def DRC_TRAIN_RESULT_WIN_WR : Fld := ⟨0xB00C0, 4, 15, 8⟩
def DRC_TRAIN_RESULT_GOOD_FULL : Fld := ⟨0xB00C0, 4, 16, 16⟩
def DRC_TRAIN_RESULT_GOOD_HALF : Fld := ⟨0xB00C0, 4, 17, 17⟩
def DRC_INJ_ADDR_LO_ADDR : Fld := ⟨0xB00C8, 4, 31, 0⟩
def DRC_INJ_ADDR_HI_ADDR : Fld := ⟨0xB00CC, 4, 7, 0⟩
def DRC_INJ_CTRL_SYMS : Fld := ⟨0xB00D0, 4, 1, 0⟩
def DRC_INJ_CTRL_GO : Fld := ⟨0xB00D0, 4, 31, 31⟩
def DPHY_C_INIT : Fld := ⟨0xB8008, 4, 0, 0⟩
def DPHY_S_USABLE : Fld := ⟨0xB800C, 4, 0, 0⟩
def DPHY_S_REFX2 : Fld := ⟨0xB800C, 4, 1, 1⟩
def DPHY_E_INIT_DONE : Fld := ⟨0xB8010, 4, 0, 0⟩
def DPHY_E_UNUSABLE : Fld := ⟨0xB8010, 4, 1, 1⟩
def DPHY_E_USABLE : Fld := ⟨0xB8010, 4, 2, 2⟩
def DPHY_E_REF_RATE : Fld := ⟨0xB8010, 4, 3, 3⟩
def DPHY_GEOM_DENSITY : Fld := ⟨0xB8080, 4, 1, 0⟩
def DPHY_GEOM_CHANNELS : Fld := ⟨0xB8080, 4, 5, 4⟩
def DPHY_POP_SIZE_MIB : Fld := ⟨0xB8084, 4, 15, 0⟩
def DPHY_TEMP_CFG_ON : Fld := ⟨0xB8088, 4, 7, 0⟩
def DPHY_TEMP_CFG_OFF : Fld := ⟨0xB8088, 4, 15, 8⟩
def DPHY_TEMP_CFG_MR4_EN : Fld := ⟨0xB8088, 4, 16, 16⟩
def DPHY_TEMP_DEG : Fld := ⟨0xB808C, 4, 11, 0⟩
def DPHY_REG_RATE_RATE : Fld := ⟨0xB8100, 8, 15, 0⟩
def DPHY_REG_BURST_BURST : Fld := ⟨0xB8104, 8, 15, 0⟩
def APL_C_EAST_EN : Fld := ⟨0xC0008, 4, 0, 0⟩
def APL_C_WEST_EN : Fld := ⟨0xC0008, 4, 1, 1⟩
def APL_S_EAST_STATE : Fld := ⟨0xC000C, 4, 1, 0⟩
def APL_S_WEST_STATE : Fld := ⟨0xC000C, 4, 3, 2⟩
def APL_S_WRAP_EAST : Fld := ⟨0xC000C, 4, 4, 4⟩
def APL_S_WRAP_WEST : Fld := ⟨0xC000C, 4, 5, 5⟩
def APL_E_EAST_DOWN : Fld := ⟨0xC0010, 4, 0, 0⟩
def APL_E_EAST_UP : Fld := ⟨0xC0010, 4, 1, 1⟩
def APL_E_WEST_DOWN : Fld := ⟨0xC0010, 4, 2, 2⟩
def APL_E_WEST_UP : Fld := ⟨0xC0010, 4, 3, 3⟩
def APL_E_WRAP : Fld := ⟨0xC0010, 4, 4, 4⟩
def APL_E_CRC_ERR : Fld := ⟨0xC0010, 4, 5, 5⟩
def APL_E_LINK_LONG : Fld := ⟨0xC0010, 4, 6, 6⟩
def APL_E_ORDER_ERR : Fld := ⟨0xC0010, 4, 7, 7⟩
def APL_E_MGR_CONFLICT : Fld := ⟨0xC0010, 4, 8, 8⟩
def APL_LINK_DLY_D : Fld := ⟨0xC0080, 32, 31, 0⟩
def APL_ASYM_A : Fld := ⟨0xC0084, 32, 31, 0⟩
def APL_DLY_CFG_DLY_AVG : Fld := ⟨0xC0088, 32, 3, 0⟩
def APL_SENDER_DEVID : Fld := ⟨0xC008C, 32, 4, 0⟩
def APL_SENDER_VALID : Fld := ⟨0xC008C, 32, 8, 8⟩
def APL_FRAMES_COUNT : Fld := ⟨0xC0090, 32, 31, 0⟩
def APL_HDR_ERR_COUNT : Fld := ⟨0xC0094, 32, 31, 0⟩
def APL_REGION_ERR_COUNT : Fld := ⟨0xC0098, 32, 31, 0⟩
def APL_PCS_ERR_COUNT : Fld := ⟨0xC009C, 32, 31, 0⟩
def RING_C_EN : Fld := ⟨0xC2008, 4, 0, 0⟩
def RING_S_RING_UP : Fld := ⟨0xC200C, 4, 0, 0⟩
def RING_S_WRAPPED : Fld := ⟨0xC200C, 4, 1, 1⟩
def RING_S_ISOLATED : Fld := ⟨0xC200C, 4, 2, 2⟩
def RING_E_REMOTE_EVENT : Fld := ⟨0xC2010, 4, 0, 0⟩
def RING_E_WMK_MISMATCH : Fld := ⟨0xC2010, 4, 1, 1⟩
def RING_E_META_FWD_FULL : Fld := ⟨0xC2010, 4, 2, 2⟩
def RING_E_RRA_DONE : Fld := ⟨0xC2010, 4, 3, 3⟩
def RING_E_DECISION_LOST : Fld := ⟨0xC2010, 4, 4, 4⟩
def RING_E_SNAP_LATE : Fld := ⟨0xC2010, 4, 5, 5⟩
def RING_E_SHEET_MISMATCH : Fld := ⟨0xC2010, 4, 6, 6⟩
def RING_E_MEMBER_CHANGE : Fld := ⟨0xC2010, 4, 7, 7⟩
def RING_E_UNKNOWN_MSG : Fld := ⟨0xC2010, 4, 8, 8⟩
def RING_E_FWD_LOSS : Fld := ⟨0xC2010, 4, 9, 9⟩
def RING_E_RET_LOSS : Fld := ⟨0xC2010, 4, 10, 10⟩
def RING_E_BULK_DONE : Fld := ⟨0xC2010, 4, 11, 11⟩
def RING_E_BULK_ERR : Fld := ⟨0xC2010, 4, 12, 12⟩
def RING_MEMBERS_P : Fld := ⟨0xC2080, 4, 31, 0⟩
def RING_SEEN_P : Fld := ⟨0xC2084, 4, 31, 0⟩
def RING_REM_PEND_P : Fld := ⟨0xC2088, 4, 31, 0⟩
def RING_ALIGN_CFG_BW : Fld := ⟨0xC208C, 4, 6, 0⟩
def RING_ALIGN_CFG_LOCK_THR : Fld := ⟨0xC208C, 4, 15, 8⟩
def RING_ALIGN_CFG_UNLOCK_THR : Fld := ⟨0xC208C, 4, 23, 16⟩
def RING_RET_CFG_RC : Fld := ⟨0xC2090, 4, 6, 0⟩
def RING_RET_ACT_RC : Fld := ⟨0xC2094, 4, 6, 0⟩
def RING_PRESS_FAULT_DEVID : Fld := ⟨0xC2098, 4, 4, 0⟩
def RING_PRESS_FAULT_REASON : Fld := ⟨0xC2098, 4, 11, 8⟩
def RING_PRESS_FAULT_NODE : Fld := ⟨0xC2098, 4, 31, 16⟩
def RING_WMK_CFG_PERSIST : Fld := ⟨0xC209C, 4, 3, 0⟩
def RING_WMK_ODD_RING_P : Fld := ⟨0xC20A0, 4, 31, 0⟩
def RING_WMK_ODD_GROUP_P : Fld := ⟨0xC20A4, 4, 31, 0⟩
def RING_WMK_GROUP_GRP : Fld := ⟨0xC20A8, 4, 3, 0⟩
def RING_FWD_LOSS_CNT_COUNT : Fld := ⟨0xC20B8, 4, 31, 0⟩
def RING_RET_LOSS_CNT_COUNT : Fld := ⟨0xC20BC, 4, 31, 0⟩
def RING_SNAP_HSI_LO_HSI : Fld := ⟨0xC20C0, 4, 31, 0⟩
def RING_SNAP_HSI_HI_HSI : Fld := ⟨0xC20C4, 4, 31, 0⟩
def RING_SNAP_CMD_GO : Fld := ⟨0xC20C8, 4, 0, 0⟩
def RING_RRA_DEV_DEVID : Fld := ⟨0xC20D0, 4, 4, 0⟩
def RING_RRA_ADDR_LO_ADDR : Fld := ⟨0xC20D4, 4, 31, 0⟩
def RING_RRA_ADDR_HI_ADDR : Fld := ⟨0xC20D8, 4, 7, 0⟩
def RING_RRA_DATA_LO_DATA : Fld := ⟨0xC20DC, 4, 31, 0⟩
def RING_RRA_DATA_HI_DATA : Fld := ⟨0xC20E0, 4, 31, 0⟩
def RING_RRA_CMP_CMP : Fld := ⟨0xC20E4, 4, 31, 0⟩
def RING_RRA_CTRL_OP : Fld := ⟨0xC20E8, 4, 2, 0⟩
def RING_RRA_CTRL_GO : Fld := ⟨0xC20E8, 4, 31, 31⟩
def RING_RRA_STATUS_BUSY : Fld := ⟨0xC20EC, 4, 0, 0⟩
def RING_RRA_STATUS_RESP : Fld := ⟨0xC20EC, 4, 3, 1⟩
def RING_BLK_SRC_LO_ADDR : Fld := ⟨0xC20F0, 4, 31, 0⟩
def RING_BLK_SRC_HI_ADDR : Fld := ⟨0xC20F4, 4, 7, 0⟩
def RING_BLK_DST_LO_ADDR : Fld := ⟨0xC20F8, 4, 31, 0⟩
def RING_BLK_DST_HI_ADDR : Fld := ⟨0xC20FC, 4, 7, 0⟩
def RING_BLK_DST_HI_DEV : Fld := ⟨0xC20FC, 4, 12, 8⟩
def RING_BLK_LEN_LEN : Fld := ⟨0xC2100, 4, 23, 0⟩
def RING_BLK_CTRL_GO : Fld := ⟨0xC2104, 4, 0, 0⟩
def RING_BLK_CTRL_BUSY : Fld := ⟨0xC2104, 4, 8, 8⟩
def RING_FWD_MAP_FWD : Fld := ⟨0xC2400, 4, 31, 0⟩
def RING_FWD_ACT_FWD : Fld := ⟨0xC2480, 4, 31, 0⟩
def RING_RET_MAP_BASE : Fld := ⟨0xC2500, 4, 9, 0⟩
def RING_RET_MAP_EN : Fld := ⟨0xC2500, 4, 15, 15⟩
def RING_BULK_ALLOC_LEN : Fld := ⟨0xC2580, 4, 15, 0⟩
def RING_REM_EVT_VEC : Fld := ⟨0xC2600, 4, 31, 0⟩
def WMK_C_RESCAN_EN : Fld := ⟨0x7008, 4, 0, 0⟩
def WMK_S_SETTLED : Fld := ⟨0x700C, 4, 0, 0⟩
def WMK_S_MISMATCH : Fld := ⟨0x700C, 4, 1, 1⟩
def WMK_E_RESCAN_MISMATCH : Fld := ⟨0x7010, 4, 0, 0⟩
def WMK_E_RESCAN_POISON : Fld := ⟨0x7010, 4, 1, 1⟩
def WMK_E_RESCAN_PASS : Fld := ⟨0x7010, 4, 2, 2⟩
def WMK_E_RESCAN_SKIP : Fld := ⟨0x7010, 4, 3, 3⟩
def WMK_DIG_ALL_LO_W : Fld := ⟨0x7080, 4, 31, 0⟩
def WMK_DIG_ALL_HI_W : Fld := ⟨0x7084, 4, 31, 0⟩
def WMK_DIG_RING_LO_W : Fld := ⟨0x7088, 4, 31, 0⟩
def WMK_DIG_RING_HI_W : Fld := ⟨0x708C, 4, 31, 0⟩
def WMK_DIG_GROUP_LO_W : Fld := ⟨0x7090, 4, 31, 0⟩
def WMK_DIG_GROUP_HI_W : Fld := ⟨0x7094, 4, 31, 0⟩
def WMK_EPOCH_TAG_TAG : Fld := ⟨0x7098, 4, 15, 0⟩
def WMK_EPOCH_SHEET_SHEET : Fld := ⟨0x709C, 4, 31, 0⟩
def WMK_SCOPE_RING_EN : Fld := ⟨0x70A0, 4, 31, 0⟩
def WMK_SCOPE_GROUP_EN : Fld := ⟨0x70B0, 4, 31, 0⟩
def WMK_PAGE_SEL_SOURCE : Fld := ⟨0x70C0, 4, 6, 0⟩
def WMK_PAGE_DIG_LO_W : Fld := ⟨0x70C8, 4, 31, 0⟩
def WMK_PAGE_DIG_HI_W : Fld := ⟨0x70CC, 4, 31, 0⟩
def WMK_PAGE_SCAN_LO_S : Fld := ⟨0x70D0, 4, 31, 0⟩
def WMK_PAGE_SCAN_HI_S : Fld := ⟨0x70D4, 4, 31, 0⟩
def WMK_MISMATCH_BAD : Fld := ⟨0x70E0, 4, 31, 0⟩
def WMK_RESCAN_CFG_INTERVAL : Fld := ⟨0x70F0, 4, 15, 0⟩
def WMK_RESCAN_PASSES_COUNT : Fld := ⟨0x70F4, 4, 31, 0⟩
def WMK_RESCAN_ADDR_LO_ADDR : Fld := ⟨0x70F8, 4, 31, 0⟩
def WMK_RESCAN_ADDR_HI_ADDR : Fld := ⟨0x70FC, 4, 7, 0⟩
def RED_C_EN : Fld := ⟨0xD0008, 4, 0, 0⟩
def RED_C_YIELD : Fld := ⟨0xD0008, 4, 1, 1⟩
def RED_S_GRANT : Fld := ⟨0xD000C, 4, 0, 0⟩
def RED_S_FENCED : Fld := ⟨0xD000C, 4, 1, 1⟩
def RED_S_SILENCE : Fld := ⟨0xD000C, 4, 2, 2⟩
def RED_S_RESTORING : Fld := ⟨0xD000C, 4, 3, 3⟩
def RED_S_PROOF_RUNNING : Fld := ⟨0xD000C, 4, 4, 4⟩
def RED_S_CKPT_BUSY : Fld := ⟨0xD000C, 4, 5, 5⟩
def RED_S_SLOT_OK : Fld := ⟨0xD000C, 4, 6, 6⟩
def RED_E_GRANTED : Fld := ⟨0xD0010, 4, 0, 0⟩
def RED_E_FENCED : Fld := ⟨0xD0010, 4, 1, 1⟩
def RED_E_FAULT : Fld := ⟨0xD0010, 4, 2, 2⟩
def RED_E_CKPT_SENT : Fld := ⟨0xD0010, 4, 3, 3⟩
def RED_E_CKPT_STORED : Fld := ⟨0xD0010, 4, 4, 4⟩
def RED_E_CKPT_BAD : Fld := ⟨0xD0010, 4, 5, 5⟩
def RED_E_CKPT_SKIP : Fld := ⟨0xD0010, 4, 6, 6⟩
def RED_E_RESTORE_DONE : Fld := ⟨0xD0010, 4, 7, 7⟩
def RED_E_NO_CKPT : Fld := ⟨0xD0010, 4, 8, 8⟩
def RED_E_AUDIO_ON : Fld := ⟨0xD0010, 4, 9, 9⟩
def RED_E_PROOF_DONE : Fld := ⟨0xD0010, 4, 10, 10⟩
def RED_E_PROOF_FAIL : Fld := ⟨0xD0010, 4, 11, 11⟩
def RED_E_DECLARED : Fld := ⟨0xD0010, 4, 12, 12⟩
def RED_E_NO_STANDBY : Fld := ⟨0xD0010, 4, 13, 13⟩
def RED_E_CTX_CHANGE : Fld := ⟨0xD0010, 4, 14, 14⟩
def RED_E_LOG_OVF : Fld := ⟨0xD0010, 4, 15, 15⟩
def RED_ARB_CFG_MODE : Fld := ⟨0xD0080, 4, 1, 0⟩
def RED_ARB_CFG_RING_FENCE : Fld := ⟨0xD0080, 4, 4, 4⟩
def RED_PARTNER_DEVID : Fld := ⟨0xD0084, 4, 4, 0⟩
def RED_PARTNER_EN : Fld := ⟨0xD0084, 4, 8, 8⟩
def RED_CKPT_CFG_PERIOD : Fld := ⟨0xD0088, 4, 8, 0⟩
def RED_CKPT_BUF_LO_ADDR : Fld := ⟨0xD0090, 4, 31, 0⟩
def RED_CKPT_BUF_HI_ADDR : Fld := ⟨0xD0094, 4, 7, 0⟩
def RED_SLOT_BASE_LO_ADDR : Fld := ⟨0xD0098, 4, 31, 0⟩
def RED_SLOT_BASE_HI_ADDR : Fld := ⟨0xD009C, 4, 7, 0⟩
def RED_LOG_BASE_LO_ADDR : Fld := ⟨0xD00A0, 4, 31, 0⟩
def RED_LOG_BASE_HI_ADDR : Fld := ⟨0xD00A4, 4, 7, 0⟩
def RED_TAKE_CFG_FADE : Fld := ⟨0xD00A8, 4, 12, 0⟩
def RED_FAULT_EN_EN : Fld := ⟨0xD00AC, 4, 6, 0⟩
def RED_FAULT_CAUSE_CAUSE : Fld := ⟨0xD00B0, 4, 6, 0⟩
def RED_WDOG_CFG_MS : Fld := ⟨0xD00B4, 4, 15, 0⟩
def RED_WDOG_KICK_KICK : Fld := ⟨0xD00B8, 4, 0, 0⟩
def RED_PROOF_CFG_EN : Fld := ⟨0xD00BC, 4, 0, 0⟩
def RED_PROOF_CFG_INTERVAL : Fld := ⟨0xD00BC, 4, 27, 16⟩
def RED_PROOF_STATUS_PASS : Fld := ⟨0xD00C0, 4, 0, 0⟩
def RED_PROOF_STATUS_RUNS : Fld := ⟨0xD00C0, 4, 31, 16⟩
def RED_CKPT_SEQ_SEQ : Fld := ⟨0xD00C4, 4, 31, 0⟩
def RED_CKPT_SHEET_C : Fld := ⟨0xD00C8, 4, 31, 0⟩
def RED_LAST_SIZE_LEN : Fld := ⟨0xD00CC, 4, 22, 0⟩
def RED_CKPT_CNT_COUNT : Fld := ⟨0xD00D0, 4, 31, 0⟩
def RED_BAD_CNT_COUNT : Fld := ⟨0xD00D4, 4, 31, 0⟩
def RED_SKIP_CNT_COUNT : Fld := ⟨0xD00D8, 4, 31, 0⟩
def RED_LOG_LEVEL_COUNT : Fld := ⟨0xD00DC, 4, 16, 0⟩
def RED_TAKE_SHEET_G : Fld := ⟨0xD00E0, 4, 31, 0⟩
def RED_RESTORE_TIME_SHEETS : Fld := ⟨0xD00E4, 4, 15, 0⟩
def RED_MISS_CNT_MISSES : Fld := ⟨0xD00E8, 4, 2, 0⟩
def RED_PAIR_PARTNER : Fld := ⟨0xD0100, 4, 4, 0⟩
def RED_PAIR_EN : Fld := ⟨0xD0100, 4, 8, 8⟩
def RED_PAIR_HOLDER : Fld := ⟨0xD0100, 4, 20, 16⟩
def RED_PAIR_STATE : Fld := ⟨0xD0100, 4, 25, 24⟩
def PWR_C_RETAIN : Fld := ⟨0x1008, 4, 0, 0⟩
def PWR_S_BUSY : Fld := ⟨0x100C, 4, 0, 0⟩
def PWR_S_HOT : Fld := ⟨0x100C, 4, 1, 1⟩
def PWR_S_LOW_SUPPLY : Fld := ⟨0x100C, 4, 2, 2⟩
def PWR_E_MODE_DONE : Fld := ⟨0x1010, 4, 0, 0⟩
def PWR_E_MODE_REFUSED : Fld := ⟨0x1010, 4, 1, 1⟩
def PWR_E_RST_REFUSED : Fld := ⟨0x1010, 4, 2, 2⟩
def PWR_E_BROWNOUT_WARN : Fld := ⟨0x1010, 4, 3, 3⟩
def PWR_E_THERM_WARN : Fld := ⟨0x1010, 4, 4, 4⟩
def PWR_E_THERM_SHUT : Fld := ⟨0x1010, 4, 5, 5⟩
def PWR_MODE_REQ_TARGET : Fld := ⟨0x1080, 4, 2, 0⟩
def PWR_MODE_REQ_GO : Fld := ⟨0x1080, 4, 31, 31⟩
def PWR_MODE_RESULT_FROM : Fld := ⟨0x1084, 4, 2, 0⟩
def PWR_MODE_RESULT_TO : Fld := ⟨0x1084, 4, 6, 4⟩
def PWR_MODE_RESULT_REASON : Fld := ⟨0x1084, 4, 10, 8⟩
def PWR_MODE_RESULT_FORCED : Fld := ⟨0x1084, 4, 16, 16⟩
def PWR_DOM_ON_ON : Fld := ⟨0x1088, 4, 13, 0⟩
def PWR_DOM_RST_RST : Fld := ⟨0x108C, 4, 13, 0⟩
def PWR_RST_CAUSE_POWER_ON : Fld := ⟨0x1090, 4, 0, 0⟩
def PWR_RST_CAUSE_POR_PIN : Fld := ⟨0x1090, 4, 1, 1⟩
def PWR_RST_CAUSE_RESET_PIN : Fld := ⟨0x1090, 4, 2, 2⟩
def PWR_RST_CAUSE_BROWNOUT : Fld := ⟨0x1090, 4, 3, 3⟩
def PWR_RST_CAUSE_WDOG : Fld := ⟨0x1090, 4, 4, 4⟩
def PWR_RST_CFG_WDOG_RST : Fld := ⟨0x1094, 4, 0, 0⟩
def PWR_TEMP_DEG : Fld := ⟨0x1098, 4, 11, 0⟩
def PWR_TJ_CFG_WARN : Fld := ⟨0x109C, 4, 7, 0⟩
def PWR_TJ_CFG_SHUT : Fld := ⟨0x109C, 4, 15, 8⟩
def PWR_SUPPLY_LOW : Fld := ⟨0x10A0, 4, 4, 0⟩
def PWR_MODE_TIME_US : Fld := ⟨0x10A4, 4, 15, 0⟩
def CAL_TEMP_FUSE_OFS : Fld := ⟨0x4080, 4, 7, 0⟩
def CAL_TEMP_USER_OFS : Fld := ⟨0x4084, 4, 7, 0⟩
def CAL_PLL_FUSE_BAND_A : Fld := ⟨0x4088, 4, 5, 0⟩
def CAL_PLL_FUSE_BAND_B : Fld := ⟨0x4088, 4, 13, 8⟩
def CAL_PLL_USER_BAND_A : Fld := ⟨0x408C, 4, 3, 0⟩
def CAL_PLL_USER_BAND_B : Fld := ⟨0x408C, 4, 11, 8⟩
def CAL_SD_FUSE_PRE : Fld := ⟨0x4100, 4, 5, 0⟩
def CAL_SD_FUSE_MAIN : Fld := ⟨0x4100, 4, 13, 8⟩
def CAL_SD_FUSE_POST : Fld := ⟨0x4100, 4, 21, 16⟩
def CAL_SD_USER_PRE : Fld := ⟨0x4140, 4, 5, 0⟩
def CAL_SD_USER_MAIN : Fld := ⟨0x4140, 4, 13, 8⟩
def CAL_SD_USER_POST : Fld := ⟨0x4140, 4, 21, 16⟩
def CAL_MCLK_FUSE_DLY : Fld := ⟨0x4180, 4, 15, 0⟩
def CAL_MCLK_USER_DLY : Fld := ⟨0x4190, 4, 15, 0⟩
def CAL_PTP_RX_FUSE_LAT : Fld := ⟨0x4200, 16, 31, 0⟩
def CAL_PTP_RX_USER_LAT : Fld := ⟨0x4204, 16, 31, 0⟩
def CAL_PTP_TX_FUSE_LAT : Fld := ⟨0x4208, 16, 31, 0⟩
def CAL_PTP_TX_USER_LAT : Fld := ⟨0x420C, 16, 31, 0⟩
def BOOT_C_GO : Fld := ⟨0xE8008, 4, 0, 0⟩
def BOOT_C_ABORT : Fld := ⟨0xE8008, 4, 1, 1⟩
def BOOT_S_BUSY : Fld := ⟨0xE800C, 4, 0, 0⟩
def BOOT_S_DONE : Fld := ⟨0xE800C, 4, 1, 1⟩
def BOOT_S_FAILED : Fld := ⟨0xE800C, 4, 2, 2⟩
def BOOT_S_EXECUTING : Fld := ⟨0xE800C, 4, 3, 3⟩
def BOOT_E_BOOT_DONE : Fld := ⟨0xE8010, 4, 0, 0⟩
def BOOT_E_BOOT_FAIL : Fld := ⟨0xE8010, 4, 1, 1⟩
def BOOT_SRC_ADDR_LO_ADDR : Fld := ⟨0xE8080, 4, 31, 0⟩
def BOOT_SRC_ADDR_HI_ADDR : Fld := ⟨0xE8084, 4, 31, 0⟩
def BOOT_SRC_CFG_FABRIC : Fld := ⟨0xE8088, 4, 0, 0⟩
def BOOT_RESULT_SOURCE : Fld := ⟨0xE808C, 4, 1, 0⟩
def BOOT_RESULT_COPY : Fld := ⟨0xE808C, 4, 4, 4⟩
def BOOT_RESULT_REASON : Fld := ⟨0xE808C, 4, 11, 8⟩
def BOOT_REC_INDEX_INDEX : Fld := ⟨0xE8090, 4, 31, 0⟩
def BOOT_FAIL_ADDR_LO_ADDR : Fld := ⟨0xE8094, 4, 31, 0⟩
def BOOT_FAIL_ADDR_HI_ADDR : Fld := ⟨0xE8098, 4, 7, 0⟩
def BOOT_BUILD_LO_BUILD : Fld := ⟨0xE80A0, 4, 31, 0⟩
def BOOT_BUILD_HI_BUILD : Fld := ⟨0xE80A4, 4, 31, 0⟩
def BOOT_IMG_LEN_LEN : Fld := ⟨0xE80A8, 4, 27, 0⟩
def BOOT_QSPI_INFO_MODE : Fld := ⟨0xE80AC, 4, 1, 0⟩
def BOOT_QSPI_INFO_ADDR4 : Fld := ⟨0xE80AC, 4, 4, 4⟩
def BOOT_QSPI_INFO_SFDP : Fld := ⟨0xE80AC, 4, 5, 5⟩
def BOOT_QSPI_INFO_DENSITY : Fld := ⟨0xE80AC, 4, 15, 8⟩
def SNAP_E_SNAP_TAKEN : Fld := ⟨0x6010, 4, 0, 0⟩
def SNAP_E_SNAP_MISSED : Fld := ⟨0x6010, 4, 1, 1⟩
def SNAP_E_MATCH_PAST : Fld := ⟨0x6010, 4, 2, 2⟩
def SNAP_E_DUMP_DONE : Fld := ⟨0x6010, 4, 3, 3⟩
def SNAP_E_DUMP_REFUSED : Fld := ⟨0x6010, 4, 4, 4⟩
def SNAP_E_DUMP_DIRTY : Fld := ⟨0x6010, 4, 5, 5⟩
def SNAP_S_DUMP_BUSY : Fld := ⟨0x600C, 4, 0, 0⟩
def CAL_S_FUSE_OK : Fld := ⟨0x400C, 4, 0, 0⟩
def CAL_E_FUSE_ERR : Fld := ⟨0x4010, 4, 0, 0⟩

end R

end Sys2Proof.Machine
end

