-- ==== Sys2Proof/Machine/RegMap.lean ====
section
/-! DEFINITION. The register map: for every page kind, the block-specific registers with the masks of their access codes (00_scope
R5, 02_register_pages R44, R48, R52), their reset values, the words that are configuration-class (R60 and the
sentence of each chapter that lists them), the ACTIVE mirror of each pressable register (R413) and the counters that are
snapshot-freezable (R64). Written from the register tables of the chapters. -/

namespace Sys2Proof.Machine

/-- One register, or a row of n registers `stride` bytes apart: the masks of its RW, RWL, W1C and WO bits, of the bits
that are guarded and triplicated, its reset value, its configuration-class bits, the key address of its ACTIVE value (0: not
pressable), whether it is the low half of a 64-bit pair and whether it is a snapshot-freezable counter. -/
structure RegSpec where
  off : Nat
  n : Nat
  stride : Nat
  rw : Nat
  rwl : Nat
  w1c : Nat
  wo : Nat
  guard : Nat
  tmr : Nat
  reset : Nat
  cfg : Nat
  act : Nat
  pairLow : Bool
  frz : Bool
  deriving DecidableEq, Repr

/-- The kinds of page (R43): pages of one kind share their register layout. -/
inductive Blk where
  | sys | pwr | clk | time | cal | evt | snap | wmk | press | mac
  | rxs0 | rxs1 | rxs2 | txs0 | txs1 | txs2 | icb0 | icb1 | icb2 | icb3
  | obj0 | obj1 | obj2 | mould0 | mould1 | mix0 | mix1 | mix2 | out0 | out1
  | out2 | conv | ie | fab | sram | drc | dphy | apl | ring | red
  | host | boot | vat
  deriving DecidableEq, Repr

/-- The registers of SYS. -/
def regsSys : List RegSpec := [
  ⟨0x80, 1, 4, 0, 0, 0, 0, 0, 0, 0x10240000, 0, 0, false, false⟩ /- PART -/,
  ⟨0x88, 1, 4, 0, 0, 0, 0, 0, 0, 0, 0, 0, true, false⟩ /- UID_LO -/,
  ⟨0x8c, 1, 4, 0, 0, 0, 0, 0, 0, 0, 0, 0, false, false⟩ /- UID_HI -/,
  ⟨0x90, 1, 4, 0, 0, 0, 0, 0, 0, 0, 0, 0, false, false⟩ /- STRAPS -/,
  ⟨0x94, 1, 4, 0, 0x103, 0, 0, 0x103, 0x103, 0, 0, 0, false, false⟩ /- ROLE_CFG -/,
  ⟨0x98, 1, 4, 0, 0, 0, 0, 0, 0, 0, 0, 0, false, false⟩ /- ROLE_EFF -/,
  ⟨0x9c, 1, 4, 0, 0, 0, 0, 0, 0, 1, 0, 0, false, false⟩ /- MODE -/,
  ⟨0xa0, 1, 4, 0, 0, 0, 1, 0, 0, 0, 0, 0, false, false⟩ /- SNAP_CMD -/,
  ⟨0xa4, 1, 4, 0xffffffff, 0, 0, 0, 0, 0, 0, 0, 0, false, false⟩ /- SCRATCH -/,
  ⟨0xa8, 1, 4, 0, 0, 0, 0, 0, 0, 0, 0, 0, false, false⟩ /- TMR_FIX_CNT -/,
  ⟨0xac, 1, 4, 0, 0, 0, 0, 0, 0, 0, 0, 0, false, false⟩ /- TMR_FIX_LAST -/]

/-- The registers of PWR. -/
def regsPwr : List RegSpec := [
  ⟨8, 1, 4, 1, 0, 0, 0, 0, 0, 1, 1, 0, false, false⟩ /- CTRL -/,
  ⟨0xc, 1, 4, 0, 0, 0, 0, 0, 0, 0, 0, 0, false, false⟩ /- STATUS -/,
  ⟨0x10, 1, 4, 0, 0, 0x3f, 0, 0, 0, 0, 0, 0, false, false⟩ /- EVENT -/,
  ⟨0x80, 1, 4, 0, 0, 0, 0x80000007, 0x80000007, 0, 0, 0, 0, false, false⟩ /- MODE_REQ -/,
  ⟨0x84, 1, 4, 0, 0, 0, 0, 0, 0, 0x10, 0, 0, false, false⟩ /- MODE_RESULT -/,
  ⟨0x88, 1, 4, 0, 0, 0, 0, 0, 0, 3, 0, 0, false, false⟩ /- DOM_ON -/,
  ⟨0x8c, 1, 4, 0, 0, 0, 0x3fff, 0x3fff, 0, 0, 0, 0, false, false⟩ /- DOM_RST -/,
  ⟨0x90, 1, 4, 0, 0, 0x1f, 0, 0, 0, 0, 0, 0, false, false⟩ /- RST_CAUSE -/,
  ⟨0x94, 1, 4, 1, 0, 0, 0, 1, 0, 0, 1, 0, false, false⟩ /- RST_CFG -/,
  ⟨0x98, 1, 4, 0, 0, 0, 0, 0, 0, 0, 0, 0, false, false⟩ /- TEMP -/,
  ⟨0x9c, 1, 4, 0, 0xff, 0, 0, 0, 0, 0x7369, 0xff, 0, false, false⟩ /- TJ_CFG -/,
  ⟨0xa0, 1, 4, 0, 0, 0, 0, 0, 0, 0, 0, 0, false, false⟩ /- SUPPLY -/,
  ⟨0xa4, 1, 4, 0, 0, 0, 0, 0, 0, 0, 0, 0, false, false⟩ /- MODE_TIME -/]

/-- The registers of CLK. -/
def regsClk : List RegSpec := [
  ⟨0xc, 1, 4, 0, 0, 0, 0, 0, 0, 4, 0, 0, false, false⟩ /- STATUS -/,
  ⟨0x10, 1, 4, 0, 0, 0x3f, 0, 0, 0, 0, 0, 0, false, false⟩ /- EVENT -/,
  ⟨0x80, 1, 4, 0, 0, 0, 0, 0, 0, 0, 0, 0, false, false⟩ /- PLLA_PHERR -/,
  ⟨0x84, 1, 4, 0xf31, 0, 0, 0x80000000, 0, 0, 0, 0xf31, 0, false, false⟩ /- PLLB_CFG -/,
  ⟨0x88, 1, 4, 0, 0, 0, 0, 0, 0, 0, 0, 0, false, false⟩ /- PLLB_ACTIVE -/,
  ⟨0x90, 4, 4, 0x137, 0, 0, 0, 0, 0, 0x20, 0x137, 0, false, false⟩ /- MCLK_CFG_n -/,
  ⟨0xa0, 4, 4, 0x107, 0, 0, 0, 0, 0, 0, 0x107, 0, false, false⟩ /- WCLK_CFG_n -/,
  ⟨0xb0, 1, 4, 0x33, 0, 0, 0, 0, 0, 0, 0x23, 0, false, false⟩ /- SYNC_CTRL -/,
  ⟨0xb4, 1, 4, 0, 0, 0, 0, 0, 0, 0, 0, 0, false, false⟩ /- SYNC_OFS -/,
  ⟨0xb8, 1, 4, 7, 0, 0, 0, 0, 0, 3, 7, 0, false, false⟩ /- LOCKF_CFG -/]

/-- The registers of TIME. -/
def regsTimea : List RegSpec := [
  ⟨8, 1, 4, 1, 0, 0, 2, 0, 0, 0, 1, 0, false, false⟩ /- CTRL -/,
  ⟨0xc, 1, 4, 0, 0, 0, 0, 0, 0, 0, 0, 0, false, false⟩ /- STATUS -/,
  ⟨0x10, 1, 4, 0, 0, 0x3ff, 0, 0, 0, 0, 0, 0, false, false⟩ /- EVENT -/,
  ⟨0x80, 1, 4, 0x117, 0, 0, 0, 0, 0x117, 0, 0x117, 0, false, false⟩ /- REF_SEL -/,
  ⟨0x84, 1, 4, 0xffffffff, 0, 0, 0, 0, 0, 0xe37a, 0xffffffff, 0, false, false⟩ /- SERVO_KP -/,
  ⟨0x88, 1, 4, 0xffffffff, 0, 0, 0, 0, 0, 0x6511, 0xffffffff, 0, false, false⟩ /- SERVO_KI -/,
  ⟨0x8c, 1, 4, 0xf, 0, 0, 0, 0, 0, 4, 0xf, 0, false, false⟩ /- DELAY_FILT -/,
  ⟨0x90, 1, 4, 0xffffff, 0, 0, 0, 0, 0, 0x100064, 0xffffff, 0, false, false⟩ /- LOCK_CFG -/,
  ⟨0x94, 1, 4, 0xffffff, 0, 0, 0, 0, 0, 0x403e8, 0xffffff, 0, false, false⟩ /- UNLOCK_CFG -/,
  ⟨0x98, 1, 4, 0xffffff, 0, 0, 0, 0, 0, 0x80064, 0xffffff, 0, false, false⟩ /- OUTLIER_CFG -/,
  ⟨0x9c, 1, 4, 0xffff, 0, 0, 0, 0, 0, 0x3e8, 0xffff, 0, false, false⟩ /- LOSS_TIMEOUT -/,
  ⟨0xa0, 1, 4, 1, 0, 0, 0, 0, 1, 0, 1, 0, false, false⟩ /- RETURN_CFG -/,
  ⟨0xa4, 1, 4, 0x1ff01ff, 0, 0, 0, 0, 0, 0xc80064, 0x1ff01ff, 0, false, false⟩ /- SLEW_CFG -/,
  ⟨0xa8, 1, 4, 0xffffffff, 0, 0, 0, 0, 0, 0x7d0, 0xffffffff, 0, false, false⟩ /- REANCHOR_THR -/,
  ⟨0xac, 1, 4, 0, 0, 0, 3, 0, 0, 0, 0, 0, false, false⟩ /- REANCHOR -/,
  ⟨0xb0, 1, 4, 0xffffffff, 0, 0, 0, 0, 0, 0, 0, 0, true, false⟩ /- MUTE_SHEET_LO -/,
  ⟨0xb4, 1, 4, 0x8000ffff, 0, 0, 0, 0, 0, 0, 0, 0, false, false⟩ /- MUTE_SHEET_HI -/,
  ⟨0xb8, 1, 4, 0xffffffff, 0, 0, 0, 0, 0, 0, 0xffffffff, 0, false, false⟩ /- FREQ_TRIM -/,
  ⟨0xbc, 1, 4, 0xffff, 0, 0, 0, 0, 0, 0, 0xffff, 0, false, false⟩ /- WCLK_IN_OFS -/,
  ⟨0xc0, 1, 4, 0, 0, 0, 1, 0, 0, 0, 0, 0, false, false⟩ /- CAPTURE -/,
  ⟨0xc4, 1, 4, 0, 0, 0, 0, 0, 0, 0, 0, 0, false, false⟩ /- CAP_PHASE -/,
  ⟨0xc8, 1, 4, 0, 0, 0, 0, 0, 0, 0, 0, 0, true, false⟩ /- CAP_HSI_LO -/,
  ⟨0xcc, 1, 4, 0, 0, 0, 0, 0, 0, 0, 0, 0, false, false⟩ /- CAP_HSI_HI -/,
  ⟨0xd0, 1, 4, 0xffffffff, 0, 0, 0, 0xffffffff, 0, 0, 0, 0, true, false⟩ /- HSI_SET_LO -/]

/-- The registers of TIME. -/
def regsTimeb : List RegSpec := [
  ⟨0xd4, 1, 4, 0xffffffff, 0, 0, 0, 0xffffffff, 0, 0, 0, 0, false, false⟩ /- HSI_SET_HI -/,
  ⟨0xd8, 1, 4, 0, 0, 0, 1, 1, 0, 0, 0, 0, false, false⟩ /- HSI_SET_CMD -/,
  ⟨0xe0, 1, 4, 0, 0, 0, 0, 0, 0, 0, 0, 0, true, false⟩ /- OFFSET_LO -/,
  ⟨0xe4, 1, 4, 0, 0, 0, 0, 0, 0, 0, 0, 0, false, false⟩ /- OFFSET_HI -/,
  ⟨0xe8, 1, 4, 0, 0, 0, 0, 0, 0, 0, 0, 0, false, false⟩ /- PATH_DELAY -/,
  ⟨0xec, 1, 4, 0, 0, 0, 0, 0, 0, 0, 0, 0, false, false⟩ /- FREQ_ADJ -/,
  ⟨0xf0, 1, 4, 0, 0, 0, 0, 0, 0, 0, 0, 0, false, false⟩ /- FREQ_HOLD -/,
  ⟨0xf4, 1, 4, 0, 0, 0, 0, 0, 0, 0, 0, 0, false, false⟩ /- SERVO_STATE -/,
  ⟨0xf8, 1, 4, 0, 0, 0, 0, 0, 0, 0, 0, 0, true, false⟩ /- LAST_STEP_LO -/,
  ⟨0xfc, 1, 4, 0, 0, 0, 0, 0, 0, 0, 0, 0, false, false⟩ /- LAST_STEP_HI -/,
  ⟨0x100, 1, 4, 0, 0, 0, 0, 0, 0, 0, 0, 0, false, false⟩ /- STEP_CNT -/,
  ⟨0x104, 1, 4, 0, 0, 0, 0, 0, 0, 0, 0, 0, false, true⟩ /- MEAS_ACCEPT -/,
  ⟨0x108, 1, 4, 0, 0, 0, 0, 0, 0, 0, 0, 0, false, true⟩ /- MEAS_REJECT -/,
  ⟨0x10c, 1, 4, 0, 0, 0, 0, 0, 0, 0, 0, 0, false, true⟩ /- MEAS_OUTLIER -/,
  ⟨0x110, 1, 4, 0, 0, 0, 0, 0, 0, 0, 0, 0, false, true⟩ /- MEAS_OVF -/,
  ⟨0x114, 1, 4, 0xffffffff, 0, 0, 0, 0, 0, 0x1570000, 0, 0x68088, false, false⟩ /- SOUND_SPEED -/,
  ⟨0x120, 4, 4, 0xffffffff, 0, 0, 0, 0, 0, 0, 0xffffffff, 0, false, false⟩ /- ASYM_p -/,
  ⟨0x200, 16, 4, 0xffffffff, 0, 0, 0, 0, 0, 0, 0, 0, false, false⟩ /- MEAS_w -/,
  ⟨0x240, 1, 4, 0, 0, 0, 1, 0, 0, 0, 0, 0, false, false⟩ /- MEAS_PUSH -/,
  ⟨0x244, 1, 4, 0, 0, 0, 0, 0, 0, 0, 0, 0, false, false⟩ /- MEAS_LEVEL -/]

/-- The registers of CAL. -/
def regsCal : List RegSpec := [
  ⟨0xc, 1, 4, 0, 0, 0, 0, 0, 0, 0, 0, 0, false, false⟩ /- STATUS -/,
  ⟨0x10, 1, 4, 0, 0, 1, 0, 0, 0, 0, 0, 0, false, false⟩ /- EVENT -/,
  ⟨0x80, 1, 4, 0, 0, 0, 0, 0, 0, 0, 0, 0, false, false⟩ /- TEMP_FUSE -/,
  ⟨0x84, 1, 4, 0, 0xff, 0, 0, 0, 0, 0, 0xff, 0, false, false⟩ /- TEMP_USER -/,
  ⟨0x88, 1, 4, 0, 0, 0, 0, 0, 0, 0, 0, 0, false, false⟩ /- PLL_FUSE -/,
  ⟨0x8c, 1, 4, 0, 0xf0f, 0, 0, 0, 0, 0, 0xf0f, 0, false, false⟩ /- PLL_USER -/,
  ⟨0x100, 12, 4, 0, 0, 0, 0, 0, 0, 0, 0, 0, false, false⟩ /- SD_FUSE_l -/,
  ⟨0x140, 12, 4, 0, 0x3f3f3f, 0, 0, 0, 0, 0, 0x3f3f3f, 0, false, false⟩ /- SD_USER_l -/,
  ⟨0x180, 4, 4, 0, 0, 0, 0, 0, 0, 0, 0, 0, false, false⟩ /- MCLK_FUSE_n -/,
  ⟨0x190, 4, 4, 0, 0xffff, 0, 0, 0, 0, 0, 0xffff, 0, false, false⟩ /- MCLK_USER_n -/,
  ⟨0x200, 4, 16, 0, 0, 0, 0, 0, 0, 0, 0, 0, false, false⟩ /- PTP_RX_FUSE_p -/,
  ⟨0x204, 4, 16, 0, 0xffffffff, 0, 0, 0, 0, 0, 0xffffffff, 0, false, false⟩ /- PTP_RX_USER_p -/,
  ⟨0x208, 4, 16, 0, 0, 0, 0, 0, 0, 0, 0, 0, false, false⟩ /- PTP_TX_FUSE_p -/,
  ⟨0x20c, 4, 16, 0, 0xffffffff, 0, 0, 0, 0, 0, 0xffffffff, 0, false, false⟩ /- PTP_TX_USER_p -/]

/-- The registers of EVT. -/
def regsEvt : List RegSpec := [
  ⟨0x80, 4, 4, 0, 0, 0, 0, 0, 0, 0, 0, 0, false, false⟩ /- PEND -/,
  ⟨0x90, 4, 4, 0xffffffff, 0, 0, 0, 0, 0, 0, 0, 0, false, false⟩ /- SRC_EN -/,
  ⟨0xa0, 1, 4, 0, 0, 0, 0, 0, 0, 0, 0, 0, false, false⟩ /- VEC_ACTIVE -/,
  ⟨0xa4, 1, 4, 0xffffffff, 0, 0, 0, 0, 0, 0, 0, 0, false, false⟩ /- IRQ_EN -/,
  ⟨0xa8, 1, 4, 0, 0, 0, 0xffffffff, 0, 0, 0, 0, 0, false, false⟩ /- VEC_ACK -/,
  ⟨0xac, 1, 4, 0xffffffff, 0, 0, 0, 0xffffffff, 0, 0, 0, 0, false, false⟩ /- VEC_FUNC -/,
  ⟨0x100, 32, 4, 0x1f1f1f1f, 0, 0, 0, 0, 0, 0, 0, 0, false, false⟩ /- VMAP -/]

/-- The registers of SNAP. -/
def regsSnap : List RegSpec := [
  ⟨8, 1, 4, 3, 0, 0, 0, 0, 0, 0, 3, 0, false, false⟩ /- CTRL -/,
  ⟨0xc, 1, 4, 0, 0, 0, 0, 0, 0, 0, 0, 0, false, false⟩ /- STATUS -/,
  ⟨0x10, 1, 4, 0, 0, 0x3f, 0, 0, 0, 0, 0, 0, false, false⟩ /- EVENT -/,
  ⟨0x80, 1, 4, 0x1f, 0, 0, 0, 0, 0, 0, 0, 0, false, false⟩ /- TRIG_EN -/,
  ⟨0x84, 1, 4, 0xff, 0, 0, 0, 0, 0, 0, 0, 0, false, false⟩ /- HOLDOFF -/,
  ⟨0x88, 1, 4, 0x1f7f, 0, 0, 0, 0, 0, 0, 0, 0, false, false⟩ /- EVT_SEL -/,
  ⟨0x90, 1, 4, 0xffffffff, 0, 0, 0, 0, 0, 0, 0, 0, true, false⟩ /- MATCH_HSI_LO -/,
  ⟨0x94, 1, 4, 0xffffffff, 0, 0, 0, 0, 0, 0, 0, 0, false, false⟩ /- MATCH_HSI_HI -/,
  ⟨0x98, 1, 4, 0, 0, 0, 0, 0, 0, 0, 0, 0, true, false⟩ /- LAST_HSI_LO -/,
  ⟨0x9c, 1, 4, 0, 0, 0, 0, 0, 0, 0, 0, 0, false, false⟩ /- LAST_HSI_HI -/,
  ⟨0xa0, 1, 4, 0, 0, 0, 0, 0, 0, 0, 0, 0, false, false⟩ /- LAST_PHASE -/,
  ⟨0xa4, 1, 4, 0, 0, 0, 0, 0, 0, 0, 0, 0, false, false⟩ /- LAST_SRC -/,
  ⟨0xa8, 1, 4, 0, 0, 0, 0, 0, 0, 0, 0, 0, false, false⟩ /- SEQ -/,
  ⟨0xac, 1, 4, 0, 0, 0, 0, 0, 0, 0, 0, 0, false, false⟩ /- MISSED -/,
  ⟨0xb0, 1, 4, 1, 0, 0, 2, 3, 0, 0, 0, 0, false, false⟩ /- DUMP_CTRL -/,
  ⟨0xb4, 1, 4, 0, 0, 0, 0, 0, 0, 0, 0, 0, false, false⟩ /- DUMP_STATUS -/,
  ⟨0xb8, 1, 4, 0, 0, 0, 0, 0, 0, 0, 0, 0, false, false⟩ /- DUMP_DIRTY -/,
  ⟨0x100, 16, 16, 0xffffffff, 0, 0, 0, 0xffffffff, 0, 0, 0, 0, false, false⟩ /- DESC_d_SRC -/,
  ⟨0x104, 16, 16, 0xffffffff, 0, 0, 0, 0xffffffff, 0, 0, 0, 0, false, false⟩ /- DESC_d_LEN -/,
  ⟨0x108, 16, 16, 0xffffffff, 0, 0, 0, 0xffffffff, 0, 0, 0, 0, false, false⟩ /- DESC_d_DST -/,
  ⟨0x10c, 16, 16, 0x800000ff, 0, 0, 0, 0x800000ff, 0, 0, 0, 0, false, false⟩ /- DESC_d_CFG -/]

/-- The registers of WMK. -/
def regsWmk : List RegSpec := [
  ⟨8, 1, 4, 1, 0, 0, 0, 0, 0, 1, 1, 0, false, false⟩ /- CTRL -/,
  ⟨0xc, 1, 4, 0, 0, 0, 0, 0, 0, 1, 0, 0, false, false⟩ /- STATUS -/,
  ⟨0x10, 1, 4, 0, 0, 0xf, 0, 0, 0, 0, 0, 0, false, false⟩ /- EVENT -/,
  ⟨0x80, 1, 4, 0, 0, 0, 0, 0, 0, 0, 0, 0, true, false⟩ /- DIG_ALL_LO -/,
  ⟨0x84, 1, 4, 0, 0, 0, 0, 0, 0, 0, 0, 0, false, false⟩ /- DIG_ALL_HI -/,
  ⟨0x88, 1, 4, 0, 0, 0, 0, 0, 0, 0, 0, 0, true, false⟩ /- DIG_RING_LO -/,
  ⟨0x8c, 1, 4, 0, 0, 0, 0, 0, 0, 0, 0, 0, false, false⟩ /- DIG_RING_HI -/,
  ⟨0x90, 1, 4, 0, 0, 0, 0, 0, 0, 0, 0, 0, true, false⟩ /- DIG_GROUP_LO -/,
  ⟨0x94, 1, 4, 0, 0, 0, 0, 0, 0, 0, 0, 0, false, false⟩ /- DIG_GROUP_HI -/,
  ⟨0x98, 1, 4, 0xffff, 0, 0, 0, 0, 0, 0, 0, 0, false, false⟩ /- EPOCH_TAG -/,
  ⟨0x9c, 1, 4, 0, 0, 0, 0, 0, 0, 0, 0, 0, false, false⟩ /- EPOCH_SHEET -/,
  ⟨0xa0, 3, 4, 0xffffffff, 0, 0, 0, 0, 0, 0, 0xffffffff, 0, false, false⟩ /- SCOPE_RING_x -/,
  ⟨0xb0, 3, 4, 0xffffffff, 0, 0, 0, 0, 0, 0, 0xffffffff, 0, false, false⟩ /- SCOPE_GROUP_x -/,
  ⟨0xc0, 1, 4, 0x7f, 0, 0, 0, 0, 0, 0, 0, 0, false, false⟩ /- PAGE_SEL -/,
  ⟨0xc8, 1, 4, 0, 0, 0, 0, 0, 0, 0, 0, 0, true, false⟩ /- PAGE_DIG_LO -/,
  ⟨0xcc, 1, 4, 0, 0, 0, 0, 0, 0, 0, 0, 0, false, false⟩ /- PAGE_DIG_HI -/,
  ⟨0xd0, 1, 4, 0, 0, 0, 0, 0, 0, 0, 0, 0, true, false⟩ /- PAGE_SCAN_LO -/,
  ⟨0xd4, 1, 4, 0, 0, 0, 0, 0, 0, 0, 0, 0, false, false⟩ /- PAGE_SCAN_HI -/,
  ⟨0xe0, 3, 4, 0, 0, 0xffffffff, 0, 0, 0, 0, 0, 0, false, false⟩ /- MISMATCH_x -/,
  ⟨0xf0, 1, 4, 0xffff, 0, 0, 0, 0, 0, 0x40, 0xffff, 0, false, false⟩ /- RESCAN_CFG -/,
  ⟨0xf4, 1, 4, 0, 0, 0, 0, 0, 0, 0, 0, 0, false, false⟩ /- RESCAN_PASSES -/,
  ⟨0xf8, 1, 4, 0, 0, 0, 0, 0, 0, 0, 0, 0, true, false⟩ /- RESCAN_ADDR_LO -/,
  ⟨0xfc, 1, 4, 0, 0, 0, 0, 0, 0, 0, 0, 0, false, false⟩ /- RESCAN_ADDR_HI -/]

/-- The registers of PRESS. -/
def regsPress : List RegSpec := [
  ⟨0xc, 1, 4, 0, 0, 0, 0, 0, 0, 0, 0, 0, false, false⟩ /- STATUS -/,
  ⟨0x10, 1, 4, 0, 0, 7, 0, 0, 0, 0, 0, 0, false, false⟩ /- EVENT -/,
  ⟨0x80, 1, 4, 0x1fff, 0, 0, 0, 0, 0, 0x48, 0x1fff, 0x8084, false, false⟩ /- PRES_LAT -/,
  ⟨0x84, 1, 4, 0, 0, 0, 0, 0, 0, 0x48, 0x1fff, 0, false, false⟩ /- PRES_LAT_ACT -/,
  ⟨0x88, 1, 4, 0xffffffff, 0, 0, 0, 0, 0, 0, 0, 0, true, false⟩ /- REQ_SHEET_LO -/,
  ⟨0x8c, 1, 4, 0xffff, 0, 0, 0, 0, 0, 0, 0, 0, false, false⟩ /- REQ_SHEET_HI -/,
  ⟨0x90, 1, 4, 0, 0, 0, 0xff0f, 0, 0, 0, 0, 0, false, false⟩ /- REQ -/,
  ⟨0x94, 1, 4, 0, 0, 0, 0, 0, 0, 0, 0, 0, false, false⟩ /- RESULT -/,
  ⟨0x98, 1, 4, 0, 0, 0, 0, 0, 0, 0, 0, 0, false, false⟩ /- DETAIL -/,
  ⟨0xa0, 1, 4, 0, 0, 0, 0, 0, 0, 0, 0, 0, true, false⟩ /- LAST_SHEET_LO -/,
  ⟨0xa4, 1, 4, 0, 0, 0, 0, 0, 0, 0, 0, 0, false, false⟩ /- LAST_SHEET_HI -/,
  ⟨0xa8, 1, 4, 0, 0, 0, 0, 0, 0, 0, 0, 0, false, false⟩ /- COMMIT_CNT -/,
  ⟨0xac, 1, 4, 0, 0, 0, 0, 0, 0, 0, 0, 0, false, false⟩ /- REFUSE_CNT -/,
  ⟨0xb0, 1, 4, 0, 0, 0, 0, 0, 0, 0, 0, 0, false, false⟩ /- TAU_R -/,
  ⟨0xb4, 1, 4, 0, 0, 0, 0, 0, 0, 0, 0, 0, false, false⟩ /- POOL_USE -/,
  ⟨0xb8, 1, 4, 0x1f, 0, 0, 0, 0, 0, 0, 0, 0, false, false⟩ /- PAD_SEL -/,
  ⟨0x100, 32, 4, 0, 0, 0, 0, 0, 0, 0, 0, 0, false, false⟩ /- PAD_w -/]

/-- The registers of MAC. -/
def regsMaca : List RegSpec := [
  ⟨8, 1, 4, 3, 0, 0, 0, 0, 0, 0, 3, 0, false, false⟩ /- CTRL -/,
  ⟨0xc, 1, 4, 0, 0, 0, 0, 0, 0, 0, 0, 0, false, false⟩ /- STATUS -/,
  ⟨0x10, 1, 4, 0, 0, 0x1ffff, 0, 0, 0, 0, 0, 0, false, false⟩ /- EVENT -/,
  ⟨0x80, 1, 4, 0x33, 0, 0, 0, 0, 0, 1, 0x33, 0, false, false⟩ /- PCS_CFG -/,
  ⟨0x84, 1, 4, 0x1f3fff, 0, 0, 0, 0, 0, 0xa05ee, 0x1f3fff, 0, false, false⟩ /- RX_CFG -/,
  ⟨0x8c, 1, 4, 1, 0, 0, 0, 0, 0, 1, 1, 0, false, false⟩ /- PAUSE_CFG -/,
  ⟨0x90, 1, 4, 0, 0, 0, 0, 0, 0, 0, 0, 0, false, false⟩ /- PAUSE_LEFT -/,
  ⟨0x94, 1, 4, 0xfff0fff1, 0, 0, 0, 0, 0, 0x1000640, 0xfff0fff1, 0, false, false⟩ /- EEE_CFG -/,
  ⟨0x98, 1, 4, 0x13, 0, 0, 0, 0, 0, 0x10, 0x13, 0, false, false⟩ /- DEF_RULE -/,
  ⟨0xa0, 1, 4, 0xffffffff, 0, 0, 0, 0, 0, 0, 0xffffffff, 0, true, false⟩ /- ADDR_LO -/,
  ⟨0xa4, 1, 4, 0xffff, 0, 0, 0, 0, 0, 0, 0xffff, 0, false, false⟩ /- ADDR_HI -/,
  ⟨0xa8, 1, 4, 0xffffffff, 0, 0, 0, 0, 0, 0, 0xffffffff, 0, false, false⟩ /- IPV4 -/,
  ⟨0xb0, 4, 4, 0xffffffff, 0, 0, 0, 0, 0, 0, 0xffffffff, 0, false, false⟩ /- IPV6_w -/,
  ⟨0xc0, 16, 4, 0x8fff, 0, 0, 0, 0, 0, 0, 0x8fff, 0, false, false⟩ /- VID_v -/,
  ⟨0x100, 1, 4, 0xff, 0, 0, 0, 0, 0, 0, 0, 0, false, false⟩ /- MCX_SEL -/,
  ⟨0x104, 1, 4, 0xffffffff, 0, 0, 0, 0, 0, 0, 0, 0, false, false⟩ /- MCX_LO -/,
  ⟨0x108, 1, 4, 0x8000ffff, 0, 0, 0, 0, 0, 0, 0, 0, false, false⟩ /- MCX_HI -/,
  ⟨0x200, 128, 4, 0xffffffff, 0, 0, 0, 0, 0, 0, 0xffffffff, 0, false, false⟩ /- MC_HASH_w -/,
  ⟨0x400, 64, 4, 0, 0, 0, 0, 0, 0, 0, 0, 0, false, true⟩ /- CNT_i -/,
  ⟨0x500, 1, 4, 0, 0, 0xffffffff, 0, 0, 0, 0, 0, 0, false, false⟩ /- CNT_HALF_0 -/,
  ⟨0x504, 1, 4, 0, 0, 0xffffffff, 0, 0, 0, 0, 0, 0, false, false⟩ /- CNT_HALF_1 -/,
  ⟨0x600, 8, 32, 0xffffffff, 0, 0, 0, 0, 0, 0, 0xffffffff, 0, true, false⟩ /- RING_BASE_LO_r -/,
  ⟨0x604, 8, 32, 0xffffffff, 0, 0, 0, 0, 0, 0, 0xffffffff, 0, false, false⟩ /- RING_BASE_HI_r -/,
  ⟨0x608, 8, 32, 0x10f, 0, 0, 0, 0, 0, 4, 0x10f, 0, false, false⟩ /- RING_SIZE_r -/]

/-- The registers of MAC. -/
def regsMacb : List RegSpec := [
  ⟨0x60c, 8, 32, 0xfff, 0, 0, 0, 0, 0, 0, 0, 0, false, false⟩ /- RING_TAIL_r -/,
  ⟨0x610, 8, 32, 0, 0, 0, 0, 0, 0, 0, 0, 0, false, false⟩ /- RING_HEAD_r -/,
  ⟨0x614, 4, 32, 0, 0, 0, 0, 0, 0, 0, 0, 0, false, false⟩ /- RING_CFG_r, receive rings -/,
  ⟨0x694, 4, 32, 3, 0, 0, 0, 0, 0, 0, 3, 0, false, false⟩ /- RING_CFG_r, transmit rings -/,
  ⟨0x700, 16, 16, 0x8fffffff, 0, 0, 0, 0, 0, 0, 0x8fffffff, 0, false, false⟩ /- RULE_MATCH_i -/,
  ⟨0x704, 16, 16, 0xffffffff, 0, 0, 0, 0, 0, 0xffff0000, 0xffffffff, 0, false, false⟩ /- RULE_DPORT_i -/,
  ⟨0x708, 16, 16, 0x13, 0, 0, 0, 0, 0, 0, 0x13, 0, false, false⟩ /- RULE_ACT_i -/,
  ⟨0x70c, 16, 16, 0, 0, 0, 0, 0, 0, 0, 0, 0, false, false⟩ /- RULE_HITS_i -/]

/-- The registers of RXS0. -/
def regsRxs0 : List RegSpec := [
  ⟨8, 1, 4, 1, 0, 0, 0, 0, 0, 0, 1, 0, false, false⟩ /- CTRL -/,
  ⟨0xc, 1, 4, 0, 0, 0, 0, 0, 0, 0, 0, 0, false, false⟩ /- STATUS -/,
  ⟨0x10, 1, 4, 0, 0, 0x7f, 0, 0, 0, 0, 0, 0, false, false⟩ /- EVENT -/,
  ⟨0x80, 1, 4, 0x3ff, 0, 0, 0, 0, 0, 0, 0, 0, false, false⟩ /- WIN_SEL -/,
  ⟨0x100, 32, 4, 0xffffffff, 0, 0, 0, 0, 0, 0, 0, 0, false, false⟩ /- WIN_DATA_w -/]

/-- The registers of RXS1. -/
def regsRxs1 : List RegSpec := [
  ⟨0x80, 8, 4, 0, 0, 0, 0, 0, 0, 0, 0, 0, false, false⟩ /- ACT_x -/,
  ⟨0xa0, 8, 4, 0, 0, 0, 0, 0, 0, 0, 0, 0, false, false⟩ /- LEG0_UP_x -/,
  ⟨0xc0, 8, 4, 0, 0, 0, 0, 0, 0, 0, 0, 0, false, false⟩ /- LEG1_UP_x -/,
  ⟨0xe0, 8, 4, 0, 0, 0xffffffff, 0, 0, 0, 0, 0, 0, false, false⟩ /- LOSS_x -/,
  ⟨0x100, 8, 4, 0, 0, 0xffffffff, 0, 0, 0, 0, 0, 0, false, false⟩ /- LATE_x -/]

/-- The registers of TXS0. -/
def regsTxs0 : List RegSpec := [
  ⟨8, 1, 4, 1, 0, 0, 0, 0, 0, 0, 1, 0, false, false⟩ /- CTRL -/,
  ⟨0xc, 1, 4, 0, 0, 0, 0, 0, 0, 0, 0, 0, false, false⟩ /- STATUS -/,
  ⟨0x10, 1, 4, 0, 0, 0x1f, 0, 0, 0, 0, 0, 0, false, false⟩ /- EVENT -/,
  ⟨0x80, 1, 4, 0x37f, 0, 0, 0, 0, 0, 0, 0, 0, false, false⟩ /- WIN_SEL -/,
  ⟨0x100, 32, 4, 0xffffffff, 0, 0, 0, 0, 0, 0, 0, 0, false, false⟩ /- WIN_DATA_w -/]

/-- The registers of TXS1. -/
def regsTxs1 : List RegSpec := [
  ⟨0x80, 4, 4, 0, 0, 0, 0, 0, 0, 0, 0, 0, false, false⟩ /- ACT_x -/,
  ⟨0xa0, 4, 4, 0, 0, 0xffffffff, 0, 0, 0, 0, 0, 0, false, false⟩ /- LATE_x -/]

/-- The registers of ICB0. -/
def regsIcb0 : List RegSpec := [
  ⟨8, 1, 4, 1, 0, 0, 0, 0, 0, 0, 1, 0, false, false⟩ /- CTRL -/,
  ⟨0xc, 1, 4, 0, 0, 0, 0, 0, 0, 0, 0, 0, false, false⟩ /- STATUS -/,
  ⟨0x10, 1, 4, 0, 0, 0x1f, 0, 0, 0, 0, 0, 0, false, false⟩ /- EVENT -/,
  ⟨0x80, 1, 4, 0x7f73ff, 0, 0, 0, 0, 0, 0, 0, 0, false, false⟩ /- WIN_SEL -/,
  ⟨0x84, 1, 4, 0, 0, 0, 0, 0, 0, 0, 0, 0, false, true⟩ /- SAT_CNT -/,
  ⟨0x100, 32, 4, 0xffffffff, 0, 0, 0, 0, 0, 0, 0, 0, false, false⟩ /- WIN_DATA_w -/]

/-- The registers of ICB1. -/
def regsIcb1 : List RegSpec := [
  ⟨0x80, 32, 4, 0xffffffff, 0, 0, 0, 0, 0, 0, 0xffffffff, 0, false, false⟩ /- DC_FREEZE_x -/,
  ⟨0x100, 32, 4, 0, 0, 0, 0xffffffff, 0, 0, 0, 0, 0, false, false⟩ /- DC_CLEAR_x -/,
  ⟨0x180, 32, 4, 0, 0, 0xffffffff, 0, 0, 0, 0, 0, 0, false, false⟩ /- SAT_x -/]

/-- The registers of ICB2. -/
def regsIcb2 : List RegSpec := [
  ⟨0x80, 1, 4, 0xffffff, 0, 0, 0, 0, 0, 0x20e662, 0xffffff, 0, false, false⟩ /- LOOP_CFG -/,
  ⟨0x84, 1, 4, 0xffff, 0, 0, 0, 0, 0, 0x3e8, 0xffff, 0, false, false⟩ /- RATIO_LIM -/,
  ⟨0xa0, 8, 4, 0, 0, 0, 0, 0, 0, 0, 0, 0, false, false⟩ /- ASRC_LOCKED_x -/,
  ⟨0xc0, 8, 4, 0, 0, 0xffffffff, 0, 0, 0, 0, 0, 0, false, false⟩ /- ASRC_SLIP_x -/]

/-- The registers of OBJ0. -/
def regsObj0 : List RegSpec := [
  ⟨8, 1, 4, 1, 0, 0, 0, 0, 0, 0, 1, 0, false, false⟩ /- CTRL -/,
  ⟨0xc, 1, 4, 0, 0, 0, 0, 0, 0, 0, 0, 0, false, false⟩ /- STATUS -/,
  ⟨0x10, 1, 4, 0, 0, 0x3f, 0, 0, 0, 0, 0, 0, false, false⟩ /- EVENT -/,
  ⟨0x80, 1, 4, 0x333ff, 0, 0, 0, 0, 0, 0, 0, 0, false, false⟩ /- WIN_SEL -/,
  ⟨0x84, 1, 4, 0, 0, 0, 0, 0, 0, 0, 0, 0, false, false⟩ /- BANK -/,
  ⟨0x88, 1, 4, 0, 0, 0, 0, 0, 0, 0x11790000, 0, 0, false, false⟩ /- INBOX_BASE -/,
  ⟨0x8c, 1, 4, 0, 0, 0, 0x800003ff, 0, 0, 0, 0, 0, false, false⟩ /- Q_FLUSH -/,
  ⟨0x90, 1, 4, 0, 0, 0, 0, 0, 0, 0, 0, 0, false, false⟩ /- LAST_REJ -/,
  ⟨0x94, 1, 4, 0, 0, 0, 0, 0, 0, 0, 0, 0, false, true⟩ /- LATE_META_CNT -/,
  ⟨0x98, 1, 4, 0, 0, 0, 0, 0, 0, 0, 0, 0, false, true⟩ /- REJ_FULL_CNT -/,
  ⟨0x9c, 1, 4, 0, 0, 0, 0, 0, 0, 0, 0, 0, false, true⟩ /- REJ_ORDER_CNT -/,
  ⟨0xa0, 1, 4, 0, 0, 0, 0, 0, 0, 0, 0, 0, false, true⟩ /- REJ_FIELD_CNT -/,
  ⟨0xa4, 1, 4, 0, 0, 0, 0, 0, 0, 0, 0, 0, false, true⟩ /- SEARCH_CNT -/,
  ⟨0xa8, 1, 4, 0, 0, 0, 0, 0, 0, 0, 0, 0, false, true⟩ /- HOLD_CNT -/,
  ⟨0xac, 1, 4, 0, 0, 0, 0, 0, 0, 0, 0, 0, false, true⟩ /- FALLBACK_CNT -/,
  ⟨0xb0, 1, 4, 0, 0, 0, 0, 0, 0, 0, 0, 0, false, true⟩ /- DIST_CLAMP_CNT -/,
  ⟨0xb4, 1, 4, 0, 0, 0, 0, 0, 0, 0, 0, 0, false, true⟩ /- MODE_DENIED_CNT -/,
  ⟨0xb8, 1, 4, 0, 0, 0, 0, 0, 0, 0, 0, 0, false, false⟩ /- QUEUED -/,
  ⟨0x100, 32, 4, 0xffffffff, 0, 0, 0, 0, 0, 0, 0, 0, false, false⟩ /- WIN_DATA_w -/]

/-- The registers of OBJ1. -/
def regsObj1 : List RegSpec := [
  ⟨0x80, 32, 4, 0, 0, 0xffffffff, 0, 0, 0, 0, 0, 0, false, false⟩ /- LATE_x -/,
  ⟨0x100, 32, 4, 0, 0, 0xffffffff, 0, 0, 0, 0, 0, 0, false, false⟩ /- HOLD_x -/]

/-- The registers of MOULD0. -/
def regsMould0 : List RegSpec := [
  ⟨0x10, 1, 4, 0, 0, 7, 0, 0, 0, 0, 0, 0, false, false⟩ /- EVENT -/,
  ⟨0x80, 1, 4, 1, 0, 0, 0, 0, 0, 0, 1, 0x4000068080, false, false⟩ /- SET_CTRL -/,
  ⟨0x84, 1, 4, 0xff7ff, 0, 0, 0, 0, 0, 0, 0, 0, false, false⟩ /- WIN_SEL -/,
  ⟨0x88, 1, 4, 0, 0, 0, 0, 0, 0, 0x1570000, 0xffffffff, 0, false, false⟩ /- SOUND_SPEED -/,
  ⟨0x8c, 1, 4, 0, 0, 0, 0, 0, 0, 0, 0, 0, false, false⟩ /- CHECK -/,
  ⟨0x100, 32, 4, 0xffffffff, 0, 0, 0, 0, 0, 0, 0, 0, false, false⟩ /- WIN_DATA_w -/]

/-- The registers of MIX0. -/
def regsMix0 : List RegSpec := [
  ⟨8, 1, 4, 1, 0, 0, 0, 0, 0, 0, 1, 0, false, false⟩ /- CTRL -/,
  ⟨0xc, 1, 4, 0, 0, 0, 0, 0, 0, 0, 0, 0, false, false⟩ /- STATUS -/,
  ⟨0x10, 1, 4, 0, 0, 7, 0, 0, 0, 0, 0, 0, false, false⟩ /- EVENT -/,
  ⟨0x80, 1, 4, 0xffff, 0, 0, 0, 0, 0, 0, 0, 0, false, false⟩ /- WIN_SEL -/,
  ⟨0x84, 1, 4, 0xffff0003, 0, 0, 0, 0, 0, 0x80000000, 0xffff0003, 0, false, false⟩ /- TEST_CFG -/,
  ⟨0x88, 1, 4, 0xffffffff, 0, 0, 0, 0, 0, 0, 0xffffffff, 0, false, false⟩ /- TEST_FREQ -/,
  ⟨0x8c, 1, 4, 0xffffff, 0, 0, 0, 0, 0, 0, 0, 0, false, false⟩ /- FADE_GAIN -/,
  ⟨0x90, 1, 4, 0, 0, 0, 0x80001fff, 0, 0, 0, 0, 0, false, false⟩ /- FADE_CMD -/,
  ⟨0x94, 1, 4, 0, 0, 0, 0, 0, 0, 0, 0, 0, false, false⟩ /- FADE_LEVEL -/,
  ⟨0x98, 1, 4, 0, 0, 0, 0, 0, 0, 0, 0, 0, false, true⟩ /- SINK_SAT_CNT -/,
  ⟨0x9c, 1, 4, 0, 0, 0, 0, 0, 0, 0, 0, 0, false, false⟩ /- SINK_SAT_LAST -/,
  ⟨0xa0, 1, 4, 0, 0, 0, 0, 0, 0, 0, 0, 0, false, false⟩ /- XP_ACTIVE -/,
  ⟨0x100, 32, 4, 0xffffffff, 0, 0, 0, 0, 0, 0, 0, 0, false, false⟩ /- WIN_DATA_w -/]

/-- The registers of MIX1. -/
def regsMix1 : List RegSpec := [
  ⟨0x80, 16, 4, 0xffffffff, 0, 0, 0, 0, 0, 0xffffffff, 0xffffffff, 0x710c0, false, false⟩ /- HOME_x -/,
  ⟨0xc0, 16, 4, 0, 0, 0, 0, 0, 0, 0xffffffff, 0xffffffff, 0, false, false⟩ /- HOME_ACT_x -/,
  ⟨0x100, 18, 4, 0, 0, 0xffffffff, 0, 0, 0, 0, 0, 0, false, false⟩ /- BUS_SAT_x -/]

/-- The registers of OUT0. -/
def regsOut0 : List RegSpec := [
  ⟨8, 1, 4, 3, 0, 0, 0, 0, 0, 0, 1, 0, false, false⟩ /- CTRL -/,
  ⟨0xc, 1, 4, 0, 0, 0, 0, 0, 0, 0, 0, 0, false, false⟩ /- STATUS -/,
  ⟨0x10, 1, 4, 0, 0, 0x1f, 0, 0, 0, 0, 0, 0, false, false⟩ /- EVENT -/,
  ⟨0x80, 1, 4, 0x371ff, 0, 0, 0, 0, 0, 0, 0, 0, false, false⟩ /- WIN_SEL -/,
  ⟨0x84, 1, 4, 0, 0, 0, 0, 0, 0, 0, 0, 0, false, true⟩ /- SAT_CNT -/,
  ⟨0x88, 1, 4, 0, 0, 0, 0, 0, 0, 0, 0, 0, false, true⟩ /- HARD_CNT -/,
  ⟨0x8c, 1, 4, 0, 0, 0, 0, 0, 0, 0, 0, 0, false, true⟩ /- CLIP_CNT -/,
  ⟨0x100, 32, 4, 0xffffffff, 0, 0, 0, 0, 0, 0, 0, 0, false, false⟩ /- WIN_DATA_w -/]

/-- The registers of OUT1. -/
def regsOut1 : List RegSpec := [
  ⟨0x80, 16, 4, 0xffffffff, 0, 0, 0, 0, 0, 0, 0, 0, false, false⟩ /- MUTE_x -/,
  ⟨0xc0, 16, 4, 0, 0, 0, 0, 0, 0, 0, 0, 0, false, false⟩ /- MUTED_x -/,
  ⟨0x100, 16, 4, 0, 0, 0xffffffff, 0, 0, 0, 0, 0, 0, false, false⟩ /- SAT_x -/,
  ⟨0x140, 16, 4, 0, 0, 0, 0, 0, 0, 0, 0, 0, false, false⟩ /- GR_x -/]

/-- The registers of CONV. -/
def regsConv : List RegSpec := [
  ⟨8, 1, 4, 1, 0, 0, 0, 0, 0, 0, 1, 0, false, false⟩ /- CTRL -/,
  ⟨0xc, 1, 4, 0, 0, 0, 0, 0, 0, 0, 0, 0, false, false⟩ /- STATUS -/,
  ⟨0x10, 1, 4, 0, 0, 0xfff, 0, 0, 0, 0, 0, 0, false, false⟩ /- EVENT -/,
  ⟨0x80, 1, 4, 1, 0, 0, 0, 0, 0, 0, 1, 0x4000080080, false, false⟩ /- SET_CTRL -/,
  ⟨0x84, 1, 4, 0x1fff, 0, 0, 0, 0, 0, 0x200, 0x1fff, 0, false, false⟩ /- DRAM_BASE -/,
  ⟨0x88, 1, 4, 0, 0, 0, 0x71, 0, 0, 0, 0, 0, false, false⟩ /- LOAD -/,
  ⟨0x8c, 1, 4, 0, 0, 0, 0, 0, 0, 0, 0, 0, false, false⟩ /- LOAD_STATUS -/,
  ⟨0x90, 1, 4, 0, 0, 0, 0, 0, 0, 0, 0x377, 0, false, false⟩ /- SET_STATE -/,
  ⟨0x94, 1, 4, 0, 0, 0, 0, 0, 0, 0, 0, 0, false, false⟩ /- BYPASS_WHY -/,
  ⟨0x98, 1, 4, 0, 0, 0, 0, 0, 0, 0, 0, 0, false, true⟩ /- TAIL_DROP_CNT -/,
  ⟨0x9c, 1, 4, 0, 0, 0, 0, 0, 0, 0, 0, 0, false, true⟩ /- RET_SAT_CNT -/,
  ⟨0xa0, 1, 4, 0, 0, 0, 0, 0, 0, 0, 0, 0, false, true⟩ /- XFORM_SAT_CNT -/,
  ⟨0xa4, 1, 4, 0, 0, 0, 0, 0, 0, 0, 0, 0, false, true⟩ /- POISON_CNT -/,
  ⟨0xb0, 1, 4, 0, 0, 0, 0, 0, 0, 0, 0, 0, true, false⟩ /- DIGEST_A_LO -/,
  ⟨0xb4, 1, 4, 0, 0, 0, 0, 0, 0, 0, 0, 0, false, false⟩ /- DIGEST_A_HI -/,
  ⟨0xb8, 1, 4, 0, 0, 0, 0, 0, 0, 0, 0, 0, true, false⟩ /- DIGEST_B_LO -/,
  ⟨0xbc, 1, 4, 0, 0, 0, 0, 0, 0, 0, 0, 0, false, false⟩ /- DIGEST_B_HI -/,
  ⟨0xc0, 1, 4, 0x11ff, 0, 0, 0, 0, 0, 0, 0, 0, false, false⟩ /- WIN_SEL -/,
  ⟨0xc4, 1, 4, 0, 0, 0, 0, 0, 0, 0, 0, 0, false, false⟩ /- MASK -/,
  ⟨0x100, 14, 4, 0, 0, 0, 0, 0, 0, 0, 0, 0, false, false⟩ /- EXP_p -/,
  ⟨0x180, 16, 4, 0, 0, 0xffffffff, 0, 0, 0, 0, 0, 0, false, false⟩ /- DROP_x -/]

/-- The registers of IE. -/
def regsIea : List RegSpec := [
  ⟨8, 1, 4, 0, 0, 0, 3, 0, 0, 0, 0, 0, false, false⟩ /- CTRL -/,
  ⟨0xc, 1, 4, 0, 0, 0, 0, 0, 0, 0, 0, 0, false, false⟩ /- STATUS -/,
  ⟨0x10, 1, 4, 0, 0, 0x7f, 0, 0, 0, 0, 0, 0, false, false⟩ /- EVENT -/,
  ⟨0x80, 1, 4, 0xbfff3fff, 0, 0, 0, 0, 0, 0, 0xbfff3fff, 0x900a0, false, false⟩ /- PROG_CFG -/,
  ⟨0x88, 1, 4, 0xffffffff, 0, 0, 0, 0, 0, 0, 0xffffffff, 0x900a8, true, false⟩ /- PROG_IMG_LO -/,
  ⟨0x8c, 1, 4, 0xff, 0, 0, 0, 0, 0, 0, 0xff, 0x900ac, false, false⟩ /- PROG_IMG_HI -/,
  ⟨0x90, 1, 4, 0xffffffff, 0, 0, 0, 0, 0, 0, 0xffffffff, 0x900b0, true, false⟩ /- PROG_CRC_LO -/,
  ⟨0x94, 1, 4, 0xffffffff, 0, 0, 0, 0, 0, 0, 0xffffffff, 0x900b4, false, false⟩ /- PROG_CRC_HI -/,
  ⟨0xa0, 1, 4, 0, 0, 0, 0, 0, 0, 0, 0xffffffff, 0, false, false⟩ /- ACT_CFG -/,
  ⟨0xa8, 1, 4, 0, 0, 0, 0, 0, 0, 0, 0xffffffff, 0, true, false⟩ /- ACT_IMG_LO -/,
  ⟨0xac, 1, 4, 0, 0, 0, 0, 0, 0, 0, 0xff, 0, false, false⟩ /- ACT_IMG_HI -/,
  ⟨0xb0, 1, 4, 0, 0, 0, 0, 0, 0, 0, 0xffffffff, 0, true, false⟩ /- ACT_CRC_LO -/,
  ⟨0xb4, 1, 4, 0, 0, 0, 0, 0, 0, 0, 0xffffffff, 0, false, false⟩ /- ACT_CRC_HI -/,
  ⟨0xb8, 1, 4, 0, 0, 0, 0, 0, 0, 0, 0, 0, true, false⟩ /- LOADED_CRC_LO -/,
  ⟨0xbc, 1, 4, 0, 0, 0, 0, 0, 0, 0, 0, 0, false, false⟩ /- LOADED_CRC_HI -/,
  ⟨0xc0, 1, 4, 0, 0, 0, 1, 0, 0, 0, 0, 0, false, false⟩ /- DOORBELL -/,
  ⟨0xc4, 1, 4, 0, 0, 0, 0, 0, 0, 0, 0, 0, false, false⟩ /- LOAD_STATUS -/,
  ⟨0xc8, 1, 4, 0, 0, 0, 0, 0, 0, 0, 0, 0, false, false⟩ /- FAULT_INFO -/,
  ⟨0xcc, 1, 4, 0, 0, 0, 0, 0, 0, 0, 0, 0, false, false⟩ /- BAD_ADDR -/,
  ⟨0xd0, 1, 4, 0, 0, 0, 0, 0, 0, 0, 0, 0, false, true⟩ /- LATE_CNT -/,
  ⟨0xd4, 1, 4, 0, 0, 0, 0, 0, 0, 0, 0, 0, false, false⟩ /- CYC_LAST -/,
  ⟨0xd8, 1, 4, 0x3ffff, 0, 0, 0, 0, 0, 0, 0, 0, false, false⟩ /- CYC_MAX -/,
  ⟨0xdc, 1, 4, 0, 0, 0, 0, 0, 0, 0, 0, 0, false, false⟩ /- PC -/,
  ⟨0x100, 1, 4, 0x1ffff, 0, 0, 0, 0, 0, 0, 0, 0, false, false⟩ /- DM_ADDR -/]

/-- The registers of IE. -/
def regsIeb : List RegSpec := [
  ⟨0x104, 1, 4, 0xffffffff, 0, 0, 0, 0, 0, 0, 0, 0, false, false⟩ /- DM_DATA -/,
  ⟨0x108, 1, 4, 0x3fff, 0, 0, 0, 0, 0, 0, 0, 0, false, false⟩ /- PM_ADDR -/,
  ⟨0x10c, 1, 4, 0, 0, 0, 0, 0, 0, 0, 0, 0, false, false⟩ /- PM_DATA -/,
  ⟨0x110, 1, 4, 0xff, 0, 0, 0, 0, 0, 0, 0, 0, false, false⟩ /- REG_SEL -/,
  ⟨0x114, 1, 4, 0, 0, 0, 0, 0, 0, 0, 0, 0, false, false⟩ /- REG_DATA -/]

/-- The registers of FAB. -/
def regsFaba : List RegSpec := [
  ⟨0xc, 1, 4, 0, 0, 0, 0, 0, 0, 0, 0, 0, false, false⟩ /- STATUS -/,
  ⟨0x10, 1, 4, 0, 0, 0x3f, 0, 0, 0, 0, 0, 0, false, false⟩ /- EVENT -/,
  ⟨0x80, 1, 4, 0, 0, 0, 0, 0, 0, 0, 0, 0, true, false⟩ /- ERR_ADDR_LO -/,
  ⟨0x84, 1, 4, 0, 0, 0, 0, 0, 0, 0, 0, 0, false, false⟩ /- ERR_ADDR_HI -/,
  ⟨0x88, 1, 4, 0, 0, 0, 0, 0, 0, 0, 0, 0, false, false⟩ /- ERR_INFO -/,
  ⟨0x8c, 1, 4, 0, 0, 0, 0, 0, 0, 0, 0, 0, false, true⟩ /- ERR_CNT -/,
  ⟨0x90, 1, 4, 0, 0, 0, 0, 0, 0, 0, 0, 0, false, false⟩ /- GUARD_ADDR -/,
  ⟨0x94, 1, 4, 0, 0, 0, 0, 0, 0, 0, 0, 0, false, false⟩ /- GUARD_INFO -/,
  ⟨0x98, 1, 4, 0, 0, 0, 0, 0, 0, 0, 0, 0, false, true⟩ /- GUARD_CNT -/,
  ⟨0x9c, 1, 4, 0, 0, 0, 0, 0, 0, 0, 0, 0, false, true⟩ /- LOCK_BREAK_CNT -/,
  ⟨0xa0, 1, 4, 0, 0, 0, 0, 0, 0, 0, 0, 0, false, false⟩ /- LOCK_INFO -/,
  ⟨0xa4, 1, 4, 0, 0xffffffff, 0, 0, 0xffffffff, 0, 0, 0xffffffff, 0, false, false⟩ /- ARB_WT_0 -/,
  ⟨0xa8, 1, 4, 0, 0xf, 0, 0, 0xf, 0, 0, 0xf, 0, false, false⟩ /- ARB_WT_1 -/,
  ⟨0xac, 1, 4, 0, 0, 0, 0, 0, 0, 0, 0, 0, false, false⟩ /- ARB_ACT_0 -/,
  ⟨0xb0, 1, 4, 0, 0, 0, 0, 0, 0, 0, 0, 0, false, false⟩ /- ARB_ACT_1 -/,
  ⟨0xc0, 1, 4, 0xf07, 0, 0, 0, 0, 0, 0, 0, 0, false, false⟩ /- AT_SEL -/,
  ⟨0xc4, 1, 4, 0, 0x8000ffff, 0, 0, 0x8000ffff, 0x8000ffff, 0, 0, 0, false, false⟩ /- AT_PERM -/,
  ⟨0xc8, 1, 4, 0, 0xfffff000, 0, 0, 0xfffff000, 0xfffff000, 0, 0, 0, true, false⟩ /- AT_BASE_LO -/,
  ⟨0xcc, 1, 4, 0, 0xff, 0, 0, 0xff, 0xff, 0, 0, 0, false, false⟩ /- AT_BASE_HI -/,
  ⟨0xd0, 1, 4, 0, 0xfffff000, 0, 0, 0xfffff000, 0xfffff000, 0, 0, 0, true, false⟩ /- AT_LIMIT_LO -/,
  ⟨0xd4, 1, 4, 0, 0xff, 0, 0, 0xff, 0xff, 0, 0, 0, false, false⟩ /- AT_LIMIT_HI -/,
  ⟨0x100, 1, 4, 0, 0x7777, 0, 0, 0x7777, 0x7777, 0x10, 0x7777, 0, false, false⟩ /- MGRP_0 -/,
  ⟨0x104, 1, 4, 0, 0x7777, 0, 0, 0x7777, 0x7777, 0x2222, 0x7777, 0, false, false⟩ /- MGRP_1 -/,
  ⟨0x108, 1, 4, 0, 0x77777777, 0, 0, 0x77777777, 0x77777777, 0x55555555, 0x77777777, 0, false, false⟩ /- MGRP_2 -/]

/-- The registers of FAB. -/
def regsFabb : List RegSpec := [
  ⟨0x10c, 1, 4, 0, 0x777, 0, 0, 0x777, 0x777, 0x666, 0x777, 0, false, false⟩ /- MGRP_3 -/]

/-- The registers of SRAM. -/
def regsSram : List RegSpec := [
  ⟨8, 1, 4, 1, 0, 0, 0, 0, 0, 1, 1, 0, false, false⟩ /- CTRL -/,
  ⟨0xc, 1, 4, 0, 0, 0, 0, 0, 0, 0, 0, 0, false, false⟩ /- STATUS -/,
  ⟨0x10, 1, 4, 0, 0, 0xf, 0, 0, 0, 0, 0, 0, false, false⟩ /- EVENT -/,
  ⟨0x80, 1, 4, 0xffff, 0, 0, 0, 0, 0, 0x100, 0xffff, 0, false, false⟩ /- SCRUB_CFG -/,
  ⟨0x84, 1, 4, 0, 0, 0, 0, 0, 0, 0, 0, 0, false, false⟩ /- SCRUB_POS -/,
  ⟨0x88, 1, 4, 0, 0, 0, 0, 0, 0, 0, 0, 0, false, true⟩ /- SCRUB_PASSES -/,
  ⟨0x8c, 1, 4, 0, 0, 0, 0, 0, 0, 0, 0, 0, false, true⟩ /- UE_CNT -/,
  ⟨0x90, 1, 4, 0, 0, 0, 0, 0, 0, 0, 0, 0, true, false⟩ /- UE_ADDR_LO -/,
  ⟨0x94, 1, 4, 0, 0, 0, 0, 0, 0, 0, 0, 0, false, false⟩ /- UE_ADDR_HI -/,
  ⟨0x98, 1, 4, 0, 0, 0, 0, 0, 0, 0, 0, 0, false, false⟩ /- UE_INFO -/,
  ⟨0x9c, 1, 4, 0, 0, 0, 0, 0, 0, 0, 0, 0, false, false⟩ /- POISONED -/,
  ⟨0xa0, 1, 4, 0xffffffff, 0, 0, 0, 0xffffffff, 0, 0, 0, 0, true, false⟩ /- INJ_ADDR_LO -/,
  ⟨0xa4, 1, 4, 0xff, 0, 0, 0, 0xff, 0, 0, 0, 0, false, false⟩ /- INJ_ADDR_HI -/,
  ⟨0xa8, 1, 4, 0, 0, 0, 0x80000003, 0x80000003, 0, 0, 0, 0, false, false⟩ /- INJ_CTRL -/,
  ⟨0x100, 48, 4, 0, 0, 0, 0, 0, 0, 0, 0, 0, false, true⟩ /- CE_CNT_b -/,
  ⟨0x1c0, 1, 4, 0x1f, 0, 0, 0, 0, 0, 0, 0, 0, false, false⟩ /- VCE_SEL -/,
  ⟨0x200, 16, 4, 0, 0, 0, 0, 0, 0, 0, 0, 0, false, true⟩ /- VCE_CNT_k -/]

/-- The registers of DRC. -/
def regsDrc : List RegSpec := [
  ⟨8, 1, 4, 0, 0, 0, 1, 0, 0, 0, 0, 0, false, false⟩ /- CTRL -/,
  ⟨0xc, 1, 4, 0, 0, 0, 0, 0, 0, 0, 0, 0, false, false⟩ /- STATUS -/,
  ⟨0x10, 1, 4, 0, 0, 0xff, 0, 0, 0, 0, 0, 0, false, false⟩ /- EVENT -/,
  ⟨0x80, 1, 4, 1, 0, 0, 0, 0, 0, 0, 1, 0, false, false⟩ /- PAGE_CFG -/,
  ⟨0x84, 1, 4, 0xffffff, 0, 0, 0, 0, 0, 0x641404, 0xffffff, 0, false, false⟩ /- AGE_CFG -/,
  ⟨0x88, 1, 4, 0xffff, 0, 0, 0, 0, 0, 0x100, 0xffff, 0, false, false⟩ /- TRAIN_PERIOD -/,
  ⟨0x8c, 1, 4, 0, 0, 0, 0, 0, 0, 0x800, 0, 0, false, false⟩ /- REF_STATE -/,
  ⟨0x90, 1, 4, 0, 0, 0, 0, 0, 0, 0, 0, 0, false, true⟩ /- RD_CNT -/,
  ⟨0x94, 1, 4, 0, 0, 0, 0, 0, 0, 0, 0, 0, false, true⟩ /- WR_CNT -/,
  ⟨0x98, 1, 4, 0, 0, 0, 0, 0, 0, 0, 0, 0, false, true⟩ /- HIT_CNT -/,
  ⟨0x9c, 1, 4, 0, 0, 0, 0, 0, 0, 0, 0, 0, false, true⟩ /- MISS_CNT -/,
  ⟨0xa0, 1, 4, 0, 0, 0, 0, 0, 0, 0, 0, 0, false, true⟩ /- CE_CNT -/,
  ⟨0xa4, 1, 4, 0, 0, 0, 0, 0, 0, 0, 0, 0, false, true⟩ /- UE_CNT -/,
  ⟨0xa8, 1, 4, 0, 0, 0, 0, 0, 0, 0, 0, 0, false, true⟩ /- FORCED_CNT -/,
  ⟨0xac, 1, 4, 0, 0, 0, 0, 0, 0, 0, 0, 0, false, true⟩ /- TRAIN_FAIL_CNT -/,
  ⟨0xb0, 1, 4, 0, 0, 0, 0, 0, 0, 0, 0, 0, true, false⟩ /- UE_ADDR_LO -/,
  ⟨0xb4, 1, 4, 0, 0, 0, 0, 0, 0, 0, 0, 0, false, false⟩ /- UE_ADDR_HI -/,
  ⟨0xb8, 1, 4, 0, 0, 0, 0, 0, 0, 0, 0, 0, false, false⟩ /- UE_INFO -/,
  ⟨0xc0, 1, 4, 0, 0, 0, 0, 0, 0, 0, 0, 0, false, false⟩ /- TRAIN_RESULT -/,
  ⟨0xc8, 1, 4, 0xffffffff, 0, 0, 0, 0xffffffff, 0, 0, 0, 0, true, false⟩ /- INJ_ADDR_LO -/,
  ⟨0xcc, 1, 4, 0xff, 0, 0, 0, 0xff, 0, 0, 0, 0, false, false⟩ /- INJ_ADDR_HI -/,
  ⟨0xd0, 1, 4, 0, 0, 0, 0x80000003, 0x80000003, 0, 0, 0, 0, false, false⟩ /- INJ_CTRL -/]

/-- The registers of DPHY. -/
def regsDphy : List RegSpec := [
  ⟨8, 1, 4, 0, 0, 0, 1, 0, 0, 0, 0, 0, false, false⟩ /- CTRL -/,
  ⟨0xc, 1, 4, 0, 0, 0, 0, 0, 0, 0, 0, 0, false, false⟩ /- STATUS -/,
  ⟨0x10, 1, 4, 0, 0, 0xf, 0, 0, 0, 0, 0, 0, false, false⟩ /- EVENT -/,
  ⟨0x80, 1, 4, 0, 0x33, 0, 0, 0, 0x33, 0x32, 0x33, 0, false, false⟩ /- GEOM -/,
  ⟨0x84, 1, 4, 0, 0, 0, 0, 0, 0, 0, 0, 0, false, false⟩ /- POP_SIZE -/,
  ⟨0x88, 1, 4, 0x1ffff, 0, 0, 0, 0, 0, 0x15055, 0x1ffff, 0, false, false⟩ /- TEMP_CFG -/,
  ⟨0x8c, 1, 4, 0, 0, 0, 0, 0, 0, 0, 0, 0, false, false⟩ /- TEMP -/,
  ⟨0x100, 8, 8, 0xffff, 0, 0, 0, 0, 0, 0, 0xffff, 0, false, false⟩ /- REG_RATE_p -/,
  ⟨0x104, 8, 8, 0xffff, 0, 0, 0, 0, 0, 0x40, 0xffff, 0, false, false⟩ /- REG_BURST_p -/]

/-- The registers of APL. -/
def regsApl : List RegSpec := [
  ⟨8, 1, 4, 3, 0, 0, 0, 0, 0, 0, 3, 0, false, false⟩ /- CTRL -/,
  ⟨0xc, 1, 4, 0, 0, 0, 0, 0, 0, 0, 0, 0, false, false⟩ /- STATUS -/,
  ⟨0x10, 1, 4, 0, 0, 0x1ff, 0, 0, 0, 0, 0, 0, false, false⟩ /- EVENT -/,
  ⟨0x80, 2, 32, 0, 0, 0, 0, 0, 0, 0, 0, 0, false, false⟩ /- LINK_DLY_q -/,
  ⟨0x84, 2, 32, 0xffffffff, 0, 0, 0, 0, 0, 0, 0xffffffff, 0, false, false⟩ /- ASYM_q -/,
  ⟨0x88, 2, 32, 0xf, 0, 0, 0, 0, 0, 4, 0xf, 0, false, false⟩ /- DLY_CFG_q -/,
  ⟨0x8c, 2, 32, 0, 0, 0, 0, 0, 0, 0, 0, 0, false, false⟩ /- SENDER_q -/,
  ⟨0x90, 2, 32, 0, 0, 0, 0, 0, 0, 0, 0, 0, false, true⟩ /- FRAMES_q -/,
  ⟨0x94, 2, 32, 0, 0, 0, 0, 0, 0, 0, 0, 0, false, true⟩ /- HDR_ERR_q -/,
  ⟨0x98, 2, 32, 0, 0, 0, 0, 0, 0, 0, 0, 0, false, true⟩ /- REGION_ERR_q -/,
  ⟨0x9c, 2, 32, 0, 0, 0, 0, 0, 0, 0, 0, 0, false, true⟩ /- PCS_ERR_q -/]

/-- The registers of RING. -/
def regsRinga : List RegSpec := [
  ⟨8, 1, 4, 1, 0, 0, 0, 0, 0, 0, 1, 0, false, false⟩ /- CTRL -/,
  ⟨0xc, 1, 4, 0, 0, 0, 0, 0, 0, 0, 0, 0, false, false⟩ /- STATUS -/,
  ⟨0x10, 1, 4, 0, 0, 0x1fff, 0, 0, 0, 0, 0, 0, false, false⟩ /- EVENT -/,
  ⟨0x80, 1, 4, 0, 0, 0, 0, 0, 0, 0, 0, 0, false, false⟩ /- MEMBERS -/,
  ⟨0x84, 1, 4, 0, 0, 0, 0, 0, 0, 0, 0, 0, false, false⟩ /- SEEN -/,
  ⟨0x88, 1, 4, 0, 0, 0, 0, 0, 0, 0, 0, 0, false, false⟩ /- REM_PEND -/,
  ⟨0x8c, 1, 4, 0xffff7f, 0, 0, 0, 0, 0, 0x140a0a, 0xffff7f, 0, false, false⟩ /- ALIGN_CFG -/,
  ⟨0x90, 1, 4, 0x7f, 0, 0, 0, 0, 0, 0, 0x7f, 0xc2094, false, false⟩ /- RET_CFG -/,
  ⟨0x94, 1, 4, 0, 0, 0, 0, 0, 0, 0, 0x7f, 0, false, false⟩ /- RET_ACT -/,
  ⟨0x98, 1, 4, 0, 0, 0, 0, 0, 0, 0, 0, 0, false, false⟩ /- PRESS_FAULT -/,
  ⟨0x9c, 1, 4, 0xf, 0, 0, 0, 0, 0, 2, 0xf, 0, false, false⟩ /- WMK_CFG -/,
  ⟨0xa0, 1, 4, 0, 0, 0, 0, 0, 0, 0, 0, 0, false, false⟩ /- WMK_ODD_RING -/,
  ⟨0xa4, 1, 4, 0, 0, 0, 0, 0, 0, 0, 0, 0, false, false⟩ /- WMK_ODD_GROUP -/,
  ⟨0xa8, 4, 4, 0xffffffff, 0, 0, 0, 0, 0, 0, 0xffffffff, 0, false, false⟩ /- WMK_GROUP_x -/,
  ⟨0xb8, 1, 4, 0, 0, 0, 0, 0, 0, 0, 0, 0, false, true⟩ /- FWD_LOSS_CNT -/,
  ⟨0xbc, 1, 4, 0, 0, 0, 0, 0, 0, 0, 0, 0, false, true⟩ /- RET_LOSS_CNT -/,
  ⟨0xc0, 1, 4, 0xffffffff, 0, 0, 0, 0, 0, 0, 0, 0, true, false⟩ /- SNAP_HSI_LO -/,
  ⟨0xc4, 1, 4, 0xffffffff, 0, 0, 0, 0, 0, 0, 0, 0, false, false⟩ /- SNAP_HSI_HI -/,
  ⟨0xc8, 1, 4, 0, 0, 0, 1, 0, 0, 0, 0, 0, false, false⟩ /- SNAP_CMD -/,
  ⟨0xd0, 1, 4, 0x1f, 0, 0, 0, 0x1f, 0, 0, 0, 0, false, false⟩ /- RRA_DEV -/,
  ⟨0xd4, 1, 4, 0xffffffff, 0, 0, 0, 0xffffffff, 0, 0, 0, 0, true, false⟩ /- RRA_ADDR_LO -/,
  ⟨0xd8, 1, 4, 0xff, 0, 0, 0, 0xff, 0, 0, 0, 0, false, false⟩ /- RRA_ADDR_HI -/,
  ⟨0xdc, 1, 4, 0xffffffff, 0, 0, 0, 0xffffffff, 0, 0, 0, 0, true, false⟩ /- RRA_DATA_LO -/,
  ⟨0xe0, 1, 4, 0xffffffff, 0, 0, 0, 0xffffffff, 0, 0, 0, 0, false, false⟩ /- RRA_DATA_HI -/]

/-- The registers of RING. -/
def regsRingb : List RegSpec := [
  ⟨0xe4, 1, 4, 0xffffffff, 0, 0, 0, 0xffffffff, 0, 0, 0, 0, false, false⟩ /- RRA_CMP -/,
  ⟨0xe8, 1, 4, 0, 0, 0, 0x80000007, 0x80000007, 0, 0, 0, 0, false, false⟩ /- RRA_CTRL -/,
  ⟨0xec, 1, 4, 0, 0, 0, 0, 0, 0, 0, 0, 0, false, false⟩ /- RRA_STATUS -/,
  ⟨0xf0, 1, 4, 0xffffffff, 0, 0, 0, 0xffffffff, 0, 0, 0, 0, true, false⟩ /- BLK_SRC_LO -/,
  ⟨0xf4, 1, 4, 0xff, 0, 0, 0, 0xff, 0, 0, 0, 0, false, false⟩ /- BLK_SRC_HI -/,
  ⟨0xf8, 1, 4, 0xffffffff, 0, 0, 0, 0xffffffff, 0, 0, 0, 0, true, false⟩ /- BLK_DST_LO -/,
  ⟨0xfc, 1, 4, 0x1fff, 0, 0, 0, 0x1fff, 0, 0, 0, 0, false, false⟩ /- BLK_DST_HI -/,
  ⟨0x100, 1, 4, 0xffffff, 0, 0, 0, 0xffffff, 0, 0, 0, 0, false, false⟩ /- BLK_LEN -/,
  ⟨0x104, 1, 4, 0, 0, 0, 1, 1, 0, 0, 0, 0, false, false⟩ /- BLK_CTRL -/,
  ⟨0x400, 32, 4, 0xffffffff, 0, 0, 0, 0, 0, 0, 0xffffffff, 0xc2480, false, false⟩ /- FWD_MAP_x -/,
  ⟨0x480, 32, 4, 0, 0, 0, 0, 0, 0, 0, 0xffffffff, 0, false, false⟩ /- FWD_ACT_x -/,
  ⟨0x500, 32, 4, 0x83ff, 0, 0, 0, 0, 0, 0, 0x83ff, 0x40000c2500, false, false⟩ /- RET_MAP_p -/,
  ⟨0x580, 32, 4, 0xffff, 0, 0, 0, 0, 0, 0, 0xffff, 0, false, false⟩ /- BULK_ALLOC_p -/,
  ⟨0x600, 32, 4, 0, 0, 0, 0, 0, 0, 0, 0, 0, false, false⟩ /- REM_EVT_p -/]

/-- The registers of RED. -/
def regsReda : List RegSpec := [
  ⟨8, 1, 4, 1, 0, 0, 2, 0, 0, 0, 1, 0, false, false⟩ /- CTRL -/,
  ⟨0xc, 1, 4, 0, 0, 0, 0, 0, 0, 0, 0, 0, false, false⟩ /- STATUS -/,
  ⟨0x10, 1, 4, 0, 0, 0xffff, 0, 0, 0, 0, 0, 0, false, false⟩ /- EVENT -/,
  ⟨0x80, 1, 4, 0, 0x13, 0, 0, 0x13, 0x13, 0x10, 0x13, 0, false, false⟩ /- ARB_CFG -/,
  ⟨0x84, 1, 4, 0x11f, 0, 0, 0, 0, 0, 0, 0x11f, 0, false, false⟩ /- PARTNER -/,
  ⟨0x88, 1, 4, 0x1ff, 0, 0, 0, 0, 0, 0x10, 0x1ff, 0, false, false⟩ /- CKPT_CFG -/,
  ⟨0x90, 1, 4, 0xffffffff, 0, 0, 0, 0, 0, 0, 0xffffffff, 0, true, false⟩ /- CKPT_BUF_LO -/,
  ⟨0x94, 1, 4, 0xff, 0, 0, 0, 0, 0, 0, 0xff, 0, false, false⟩ /- CKPT_BUF_HI -/,
  ⟨0x98, 1, 4, 0xffffffff, 0, 0, 0, 0, 0, 0, 0xffffffff, 0, true, false⟩ /- SLOT_BASE_LO -/,
  ⟨0x9c, 1, 4, 0xff, 0, 0, 0, 0, 0, 0, 0xff, 0, false, false⟩ /- SLOT_BASE_HI -/,
  ⟨0xa0, 1, 4, 0xffffffff, 0, 0, 0, 0, 0, 0, 0xffffffff, 0, true, false⟩ /- LOG_BASE_LO -/,
  ⟨0xa4, 1, 4, 0xff, 0, 0, 0, 0, 0, 0, 0xff, 0, false, false⟩ /- LOG_BASE_HI -/,
  ⟨0xa8, 1, 4, 0x1fff, 0, 0, 0, 0, 0, 0x60, 0x1fff, 0, false, false⟩ /- TAKE_CFG -/,
  ⟨0xac, 1, 4, 0x7f, 0, 0, 0, 0, 0x7f, 0x7f, 0x7f, 0, false, false⟩ /- FAULT_EN -/,
  ⟨0xb0, 1, 4, 0, 0, 0, 0, 0, 0, 0, 0, 0, false, false⟩ /- FAULT_CAUSE -/,
  ⟨0xb4, 1, 4, 0xffff, 0, 0, 0, 0, 0, 0, 0xffff, 0, false, false⟩ /- WDOG_CFG -/,
  ⟨0xb8, 1, 4, 0, 0, 0, 1, 0, 0, 0, 0, 0, false, false⟩ /- WDOG_KICK -/,
  ⟨0xbc, 1, 4, 0xfff0001, 0, 0, 0, 0, 0, 0x2580000, 0xfff0001, 0, false, false⟩ /- PROOF_CFG -/,
  ⟨0xc0, 1, 4, 0, 0, 0, 0, 0, 0, 0, 0, 0, false, true⟩ /- PROOF_STATUS -/,
  ⟨0xc4, 1, 4, 0, 0, 0, 0, 0, 0, 0, 0, 0, false, false⟩ /- CKPT_SEQ -/,
  ⟨0xc8, 1, 4, 0, 0, 0, 0, 0, 0, 0, 0, 0, false, false⟩ /- CKPT_SHEET -/,
  ⟨0xcc, 1, 4, 0, 0, 0, 0, 0, 0, 0, 0, 0, false, false⟩ /- LAST_SIZE -/,
  ⟨0xd0, 1, 4, 0, 0, 0, 0, 0, 0, 0, 0, 0, false, true⟩ /- CKPT_CNT -/,
  ⟨0xd4, 1, 4, 0, 0, 0, 0, 0, 0, 0, 0, 0, false, true⟩ /- BAD_CNT -/]

/-- The registers of RED. -/
def regsRedb : List RegSpec := [
  ⟨0xd8, 1, 4, 0, 0, 0, 0, 0, 0, 0, 0, 0, false, true⟩ /- SKIP_CNT -/,
  ⟨0xdc, 1, 4, 0, 0, 0, 0, 0, 0, 0, 0, 0, false, false⟩ /- LOG_LEVEL -/,
  ⟨0xe0, 1, 4, 0, 0, 0, 0, 0, 0, 0, 0, 0, false, false⟩ /- TAKE_SHEET -/,
  ⟨0xe4, 1, 4, 0, 0, 0, 0, 0, 0, 0, 0, 0, false, false⟩ /- RESTORE_TIME -/,
  ⟨0xe8, 1, 4, 0, 0, 0, 0, 0, 0, 0, 0, 0, false, false⟩ /- MISS_CNT -/,
  ⟨0x100, 32, 4, 0x11f, 0, 0, 0, 0, 0, 0, 0x11f, 0, false, false⟩ /- PAIR_p -/]

/-- The registers of BOOT. -/
def regsBoot : List RegSpec := [
  ⟨8, 1, 4, 0, 0, 0, 3, 3, 0, 0, 0, 0, false, false⟩ /- CTRL -/,
  ⟨0xc, 1, 4, 0, 0, 0, 0, 0, 0, 0, 0, 0, false, false⟩ /- STATUS -/,
  ⟨0x10, 1, 4, 0, 0, 3, 0, 0, 0, 0, 0, 0, false, false⟩ /- EVENT -/,
  ⟨0x80, 1, 4, 0xffffffff, 0, 0, 0, 0xffffffff, 0, 0, 0, 0, true, false⟩ /- SRC_ADDR_LO -/,
  ⟨0x84, 1, 4, 0xffffffff, 0, 0, 0, 0xffffffff, 0, 0, 0, 0, false, false⟩ /- SRC_ADDR_HI -/,
  ⟨0x88, 1, 4, 1, 0, 0, 0, 1, 0, 0, 0, 0, false, false⟩ /- SRC_CFG -/,
  ⟨0x8c, 1, 4, 0, 0, 0, 0, 0, 0, 0, 0, 0, false, false⟩ /- RESULT -/,
  ⟨0x90, 1, 4, 0, 0, 0, 0, 0, 0, 0, 0, 0, false, false⟩ /- REC_INDEX -/,
  ⟨0x94, 1, 4, 0, 0, 0, 0, 0, 0, 0, 0, 0, true, false⟩ /- FAIL_ADDR_LO -/,
  ⟨0x98, 1, 4, 0, 0, 0, 0, 0, 0, 0, 0, 0, false, false⟩ /- FAIL_ADDR_HI -/,
  ⟨0xa0, 1, 4, 0, 0, 0, 0, 0, 0, 0, 0, 0, true, false⟩ /- BUILD_LO -/,
  ⟨0xa4, 1, 4, 0, 0, 0, 0, 0, 0, 0, 0, 0, false, false⟩ /- BUILD_HI -/,
  ⟨0xa8, 1, 4, 0, 0, 0, 0, 0, 0, 0, 0, 0, false, false⟩ /- IMG_LEN -/,
  ⟨0xac, 1, 4, 0, 0, 0, 0, 0, 0, 0, 0, 0, false, false⟩ /- QSPI_INFO -/]

/-- The registers of VAT. -/
def regsVat : List RegSpec := [
  ⟨8, 1, 4, 1, 0, 0, 0, 0, 0, 0, 1, 0, false, false⟩ /- CTRL -/,
  ⟨0xc, 1, 4, 0, 0, 0, 0, 0, 0, 0, 0, 0, false, false⟩ /- STATUS -/,
  ⟨0x10, 1, 4, 0, 0, 0xf, 0, 0, 0, 0, 0, 0, false, false⟩ /- EVENT -/,
  ⟨0x80, 1, 4, 7, 0, 0, 0, 0, 0, 3, 7, 0, false, false⟩ /- JUMP_CFG -/,
  ⟨0x84, 1, 4, 0, 0, 0, 0, 0, 0, 0, 0, 0, false, false⟩ /- WF_MAP -/,
  ⟨0x88, 1, 4, 0, 0, 0, 0, 0, 0, 0, 0, 0, false, false⟩ /- PAIRS_ACTIVE -/,
  ⟨0x8c, 1, 4, 0, 0, 0, 0, 0, 0, 0, 0, 0, false, true⟩ /- DLY_CLAMP_CNT -/,
  ⟨0x90, 1, 4, 0, 0, 0, 0, 0, 0, 0, 0, 0, false, true⟩ /- GAIN_SAT_CNT -/,
  ⟨0x94, 1, 4, 0, 0, 0, 0, 0, 0, 0, 0, 0, false, true⟩ /- PF_SAT_CNT -/,
  ⟨0x98, 1, 4, 0, 0, 0, 0, 0, 0, 0, 0, 0, false, true⟩ /- JUMP_CNT -/,
  ⟨0xa0, 1, 4, 0x10f0f, 0, 0, 0, 0, 0, 0, 0, 0, false, false⟩ /- PAIR_SEL -/,
  ⟨0x100, 32, 4, 0, 0, 0, 0, 0, 0, 0, 0, 0, false, false⟩ /- OBJ_MAP_k -/,
  ⟨0x180, 16, 4, 0xbfff07ff, 0, 0, 0, 0, 0, 0x6400064, 0xbfff07ff, 0x401c0, false, false⟩ /- PF_CFG_k -/,
  ⟨0x1c0, 16, 4, 0, 0, 0, 0, 0, 0, 0x6400064, 0xffffffff, 0, false, false⟩ /- PF_ACT_k -/,
  ⟨0x200, 32, 4, 0, 0, 0, 0, 0, 0, 0, 0, 0, false, false⟩ /- PAIR_DATA_w -/]

/-- The block-specific registers of a page kind. -/
def blkRegs : Blk → List RegSpec
  | .sys => regsSys
  | .pwr => regsPwr
  | .clk => regsClk
  | .time => regsTimea ++ regsTimeb
  | .cal => regsCal
  | .evt => regsEvt
  | .snap => regsSnap
  | .wmk => regsWmk
  | .press => regsPress
  | .mac => regsMaca ++ regsMacb
  | .rxs0 => regsRxs0
  | .rxs1 => regsRxs1
  | .rxs2 => []
  | .txs0 => regsTxs0
  | .txs1 => regsTxs1
  | .txs2 => []
  | .icb0 => regsIcb0
  | .icb1 => regsIcb1
  | .icb2 => regsIcb2
  | .icb3 => []
  | .obj0 => regsObj0
  | .obj1 => regsObj1
  | .obj2 => []
  | .mould0 => regsMould0
  | .mould1 => []
  | .mix0 => regsMix0
  | .mix1 => regsMix1
  | .mix2 => []
  | .out0 => regsOut0
  | .out1 => regsOut1
  | .out2 => []
  | .conv => regsConv
  | .ie => regsIea ++ regsIeb
  | .fab => regsFaba ++ regsFabb
  | .sram => regsSram
  | .drc => regsDrc
  | .dphy => regsDphy
  | .apl => regsApl
  | .ring => regsRinga ++ regsRingb
  | .red => regsReda ++ regsRedb
  | .host => []
  | .boot => regsBoot
  | .vat => regsVat

/-- A page: its kind, its instance among the pages of its kind, its base offset and its CAPS (R43, R44). -/
structure Page where
  blk : Blk
  inst : Nat
  typ : Nat
  idInst : Nat
  base : Nat
  caps : Nat
  deriving DecidableEq, Repr

/-- Page map rows (R43): first event source, number of pages, kind, block type, instance number of the first page,
base offset and CAPS. -/
def pageRows : List (Nat × Nat × Blk × Nat × Nat × Nat × Nat) := [
  (0, 1, .sys, 1, 0, 0, 0x144820),
  (1, 1, .pwr, 2, 0, 0x1000, 0x6e),
  (2, 1, .clk, 3, 0, 0x2000, 0x144),
  (3, 1, .time, 4, 0, 0x3000, 0x8041f),
  (4, 1, .cal, 5, 0, 0x4000, 0x44c),
  (5, 1, .evt, 6, 0, 0x5000, 0x2080),
  (6, 1, .snap, 7, 0, 0x6000, 0x10),
  (7, 1, .wmk, 8, 0, 0x7000, 0x60),
  (8, 1, .press, 9, 0, 0x8000, 0x1212c0),
  (9, 4, .mac, 0x10, 0, 0x10000, 0x401044),
  (13, 1, .rxs0, 0x11, 0, 0x20000, 0x100),
  (14, 1, .rxs1, 0x11, 1, 0x21000, 0),
  (15, 2, .rxs2, 0x11, 2, 0x22000, 0),
  (17, 1, .txs0, 0x12, 0, 0x24000, 0x80),
  (18, 1, .txs1, 0x12, 1, 0x25000, 0),
  (19, 2, .txs2, 0x12, 2, 0x26000, 0),
  (21, 1, .icb0, 0x20, 0, 0x30000, 0x400100),
  (22, 1, .icb1, 0x20, 1, 0x31000, 0),
  (23, 1, .icb2, 0x20, 2, 0x32000, 0),
  (24, 1, .icb3, 0x20, 3, 0x33000, 0),
  (25, 1, .obj0, 0x21, 0, 0x60000, 0x10100400),
  (26, 1, .obj1, 0x21, 1, 0x61000, 0),
  (27, 2, .obj2, 0x21, 2, 0x62000, 0),
  (29, 1, .mould0, 0x22, 0, 0x68000, 0x4000240),
  (30, 3, .mould1, 0x22, 1, 0x69000, 0),
  (33, 1, .mix0, 0x24, 0, 0x70000, 0x10402000),
  (34, 1, .mix1, 0x24, 1, 0x71000, 0),
  (35, 2, .mix2, 0x24, 2, 0x72000, 0),
  (37, 1, .out0, 0x25, 0, 0x78000, 0x3f010200),
  (38, 1, .out1, 0x25, 1, 0x79000, 0),
  (39, 2, .out2, 0x25, 2, 0x7a000, 0),
  (41, 1, .conv, 0x26, 0, 0x80000, 0xd0ee200),
  (42, 8, .ie, 0x27, 0, 0x90000, 0x210e40),
  (50, 1, .fab, 0x30, 0, 0xa0000, 0x208105),
  (51, 1, .sram, 0x31, 0, 0xa8000, 0x1030),
  (52, 4, .drc, 0x32, 0, 0xb0000, 0x410),
  (56, 1, .dphy, 0x33, 0, 0xb8000, 0x804),
  (57, 1, .apl, 0x40, 0, 0xc0000, 0x22),
  (58, 1, .ring, 0x41, 0, 0xc2000, 0x4000020),
  (59, 1, .red, 0x42, 0, 0xd0000, 0x20),
  (60, 1, .host, 0x50, 0, 0xe0000, 0),
  (61, 1, .boot, 0x51, 0, 0xe8000, 0x1b),
  (64, 32, .vat, 0x23, 0, 0x40000, 0xd1020)]

end Sys2Proof.Machine
end

