-- ==== Sys2Proof/Machine/Pages.lean ====
section
/-! DEFINITION. The address map of register space (02_register_pages R42, R43), the register at an offset (R44, R48), the power
domain of each page (15_power_and_bringup R443), the key addresses of words (13_apsal_systems R413) and the value that each
word has after reset. -/

namespace Sys2Proof.Machine

/-- The page of an event source number (R43). -/
def pageOfSrc (src : Nat) : Option Page :=
  match pageRows.find? (fun r => decide (r.1 ≤ src) && decide (src < r.1 + r.2.1)) with
  | some (s0, _, blk, typ, inst, base, caps) =>
    some ⟨blk, src - s0, typ, inst + (src - s0), base + 0x1000 * (src - s0), caps⟩
  | none => none

/-- The event source number of the page at a 4 KiB slot of register space; none where the slot is not populated. -/
def srcOfSlot (slot : Nat) : Option Nat :=
  match pageRows.find? (fun r => decide (r.2.2.2.2.2.1 ≤ slot * 0x1000) && decide (slot * 0x1000 < r.2.2.2.2.2.1 + 0x1000 * r.2.1)) with
  | some (s0, _, _, _, _, base, _) => some (s0 + (slot - base / 0x1000))
  | none => none

/-- The event source number of the page that holds a register-space address. -/
def srcOf (a : Nat) : Option Nat := if a < 2 ^ 24 then srcOfSlot (a / 0x1000) else none

/-- The base offset of a source's page (of no page: an offset outside register space). -/
def pageBase (src : Nat) : Nat := match pageOfSrc src with | some p => p.base | none => 2 ^ 24

/-- All event sources with a page, in ascending order. -/
def allSources : List Nat := List.range 62 ++ (List.range 32).map (· + 64)

/-- The register of a list that lies at an offset, with its place in its row. -/
def regIn (l : List RegSpec) (off : Nat) : Option (RegSpec × Nat) :=
  match l.find? (fun r => decide (r.off ≤ off) && decide ((off - r.off) % r.stride = 0) && decide ((off - r.off) / r.stride < r.n)) with
  | some r => some (r, (off - r.off) / r.stride)
  | none => none

/-- A register of the common header with the given write masks (R44). -/
def hdrSpec (off rw w1c wo reset cfg : Nat) : RegSpec := ⟨off, 1, 4, rw, 0, w1c, wo, 0, 0, reset, cfg, 0, false, false⟩

/-- The EVENT bits that a page kind has: its own, LOCK_VIOLATION and TMR_FIX (R48). -/
def eventMask (b : Blk) : Nat :=
  (match regIn (blkRegs b) 0x10 with | some (r, _) => r.w1c | none => 0) + 0xC0000000

/-- The register of a page kind at an offset: the common header of R44, then the block's own. -/
def regAt (b : Blk) (off : Nat) : Option (RegSpec × Nat) :=
  if off = 0x10 then some (hdrSpec 0x10 0 (eventMask b) 0 0 0, 0)
  else if off = 0x14 then some (hdrSpec 0x14 (eventMask b) 0 0 0 (eventMask b), 0)
  else if off = 0x18 then some (hdrSpec 0x18 0 0 (eventMask b) 0 0, 0)
  else if off = 0x1C then some ({ hdrSpec 0x1C 0 0 0 0 1 with tmr := 1 }, 0)
  else if off = 0x20 then some (hdrSpec 0x20 3 0 4 1 3, 0)
  else regIn (blkRegs b) off

/-- The register at a register-space address. -/
def regOf (a : Nat) : Option (RegSpec × Nat) :=
  match srcOf a with
  | some s => match pageOfSrc s with | some p => regAt p.blk (a % 0x1000) | none => none
  | none => none

/-- The power domain of a source's page (R443). -/
def domainOf (src : Nat) : Nat :=
  if src = 60 ∨ src = 61 then 1
  else if src = 9 ∨ src = 10 ∨ (13 ≤ src ∧ src ≤ 20) then 2
  else if src = 11 ∨ src = 12 then 3
  else if src = 57 ∨ src = 58 then 4
  else if src = 50 ∨ src = 51 ∨ src = 7 ∨ src = 8 ∨ (25 ≤ src ∧ src ≤ 32) then 5
  else if 21 ≤ src ∧ src ≤ 24 then 6
  else if 64 ≤ src then 7 + (src - 64) / 8
  else if 33 ≤ src ∧ src ≤ 41 then 11
  else if 42 ≤ src ∧ src ≤ 49 then 12
  else if 52 ≤ src ∧ src ≤ 56 then 13
  else 0

/-! Key addresses (R413). -/

/-- The key of the ACTIVE value of a pressable register that no read-only register shows. -/
def actKey (a : Nat) : Nat := a + 0x4000000000

/-- The key of word n of window kind `kind` of the page with event source src. -/
def winKey (src kind n : Nat) : Nat := 0x8000000000 + src * 2 ^ 30 + kind * 2 ^ 26 + 4 * n

/-- The same in set B of the mould (R413). -/
def mouldKey (set kind n : Nat) : Nat := winKey 29 kind n + set * 2 ^ 25

/-- The event source of the page that a key belongs to (96: none, a memory address); the ACTIVE SOUND_SPEED is a word of
TIME under the address of the register of MOULD0 that shows it (R413; 03_timebase). -/
def keySrc (k : Nat) : Nat :=
  if k = 0x68088 then 3
  else if k < 2 ^ 24 then (srcOf k).getD 96
  else if k < 0x4000000000 then 96
  else if k < 0x8000000000 then (srcOf (k - 0x4000000000)).getD 96
  else (k - 0x8000000000) / 2 ^ 30

/-- The window kind and the word number of a window key. -/
def keyKind (k : Nat) : Nat := (k - 0x8000000000) % 2 ^ 30 / 2 ^ 26
def keyWord (k : Nat) : Nat := (k - 0x8000000000) % 2 ^ 26 / 4

/-- The target ranges of R352: base and last byte of targets 0 to 4. -/
def targetRange : Nat → Nat × Nat
  | 0 => (0, 0xFFFFFF)
  | 1 => (0x10000000, 0x117FFFFF)
  | 2 => (0x117C0000, 0x117DFFFF)
  | 3 => (0x20000000, 0x21FFFFFF)
  | _ => (0x1000000000, 0x11FFFFFFFF)

/-- Words per record of the access-table window of FAB: PERM, BASE_LO, BASE_HI, LIMIT_LO, LIMIT_HI (R362). -/
def atKey (target region word : Nat) : Nat := winKey 50 0 ((target * 16 + region) * 5 + word)

/-- Reset of the access tables (R356): region 0 of every target covers it and grants everything. -/
def atReset (n : Nat) : Nat :=
  let target := n / 5 / 16
  if n / 5 % 16 = 0 ∧ target < 5 then
    match n % 5 with
    | 0 => 0x8000FFFF
    | 1 => (targetRange target).1 % 2 ^ 32 / 0x1000 * 0x1000
    | 2 => (targetRange target).1 / 2 ^ 32
    | 3 => (targetRange target).2 % 2 ^ 32 / 0x1000 * 0x1000
    | _ => (targetRange target).2 / 2 ^ 32
  else 0

/-- The bits of CAL's FUSE registers (R461); reserved bits read zero. -/
def fuseMask (off : Nat) : Nat :=
  if off = 0x80 then 0xFF
  else if off = 0x88 then 0x3F3F
  else if 0x100 ≤ off ∧ off < 0x180 then 0x3F3F3F
  else if 0x180 ≤ off ∧ off < 0x200 then 0xFFFF
  else 0xFFFFFFFF

/-- A factory word of CAL: 0 on a part whose fuse check fails (R459). -/
def fuseWord (off mask : Nat) : Nat := if Config.fuseOk then Config.fuse off &&& mask else 0

/-- Reset of a register-space word: the fused and sampled words, the rows that give a reset per instance, and the
table's value. -/
def resetReg (a : Nat) : Nat :=
  if a = 0x80 then 0x10240000 + Config.step % 256 * 256 + (if Config.gradeE then 0x0E else 0x0C)
  else if a = 0x88 then Config.uid % 2 ^ 32
  else if a = 0x8C then Config.uid / 2 ^ 32 % 2 ^ 32
  else if a = 0x90 then bits Config.straps 4 0 + bits Config.straps 9 8 * 256 + bits Config.straps 13 12 * 4096
  else if a = 0x98 then bits Config.straps 9 8
  else if a = 0x109C then (if Config.gradeE then 110 + 120 * 256 else 105 + 115 * 256)
  else if a = 0x400C then (if Config.fuseOk then 1 else 0)
  else if a = 0x4010 then (if Config.fuseOk then 0 else 1)
  else match regOf a with
    | some (r, i) =>
      if a / 0x1000 = 4 ∧ r.rwl = 0 ∧ 0x80 ≤ a % 0x1000 then
        fuseWord (a % 0x1000) (fuseMask (a % 0x1000))
      else if r.off = 0x694 ∧ r.n = 4 then (if i = 1 ∨ i = 2 then 2 else if i = 3 then 3 else 0)
      else r.reset
    | none => 0

/-- Reset of a window word (R180, R214, R217, R218, R275, R278, R356): zero but for the fields that the tables give. -/
def resetWin (src kind n : Nat) : Nat :=
  if src = 50 then (if kind = 0 then atReset n else 0)
  else if src = 60 then (if n % 4 = 3 then 1 else 0)
  else if src = 21 then (if kind ≤ 1 ∧ n % 2 = 0 then 100 else 0)
  else if src = 25 then
    (if 1 < kind then 0 else if n % 8 = 0 then n / 8 / 32 * 2 ^ 16 + n / 8 % 32 * 2 ^ 21 else if n % 8 = 5 then 0x80008000 else 0)
  else if src = 29 then
    let w := n % 2 ^ 23
    (if kind = 0 ∧ w % 4 = 3 then 0xFFFF
    else if kind = 1 ∧ w % 16 = 1 then 0x07FF07FF
    else if kind = 1 ∧ w % 16 = 2 then 0x7FF
    else if kind = 3 ∧ w = 1 then 8 else 0)
  else if src = 33 then
    (if kind ≤ 1 then (if n % 2 = 1 then 0x30000000 else 0)
    else if kind ≤ 3 then (if n % 4 = 1 then 0x100 else if n % 4 = 2 then 10 + 100 * 2 ^ 16 else 0) else 0)
  else if src = 37 then
    (if kind ≤ 1 then
      (if n % 8 = 3 then 10 * 2 ^ 16 else if n % 8 = 4 then 100 else if n % 8 = 5 then 10 * 2 ^ 16 else 0)
    else if kind ≤ 3 then (if n % 96 < 80 ∧ n % 96 % 5 = 0 then 0x08000000 else 0) else 0)
  else 0

/-- What every word reads as until something writes it. -/
def resetWord (k : Nat) : Word :=
  if k < 2 ^ 24 then w32 (resetReg k)
  else if k < 0x4000000000 then 0
  else if k < 0x8000000000 then 0
  else w32 (resetWin (keySrc k) (keyKind k) (keyWord k))

/-- The configuration-class bits of a word (R60 and each chapter's list; windows: both banks of records). -/
def cfgMask (k : Nat) : Nat :=
  if k < 2 ^ 24 then (match regOf k with | some (r, _) => r.cfg | none => 0)
  else if k < 0x4000000000 then 0
  else if k < 0x8000000000 then (match regOf (k - 0x4000000000) with | some (r, _) => r.cfg | none => 0)
  else
    let src := keySrc k
    let kind := keyKind k
    if src = 13 ∨ src = 17 then (if kind ≤ 1 then 0xFFFFFFFF else 0)
    else if src = 21 then (if kind ≤ 3 then 0xFFFFFFFF else 0)
    else if src = 25 then (if kind ≤ 1 then 0xFFFFFFFF else 0)
    else if src = 29 then 0xFFFFFFFF
    else if src = 33 then (if kind ≤ 3 then 0xFFFFFFFF else 0)
    else if src = 37 then (if kind ≤ 3 then 0xFFFFFFFF else 0)
    else if src = 50 then (if kind = 0 then 0xFFFFFFFF else 0)
    else if 9 ≤ src ∧ src ≤ 12 then 0xFFFFFFFF
    else 0

end Sys2Proof.Machine
end

