-- ==== Sys2Proof/Machine/State.lean ====
section
/-! DEFINITION. The state of the DLR-1024: plain data. Every register, table word and counter lives in ONE store, `words`,
under its key address (R413); what the registers do not show (queues, lines, engines at work, frames on their way) has a
structure per block. -/

namespace Sys2Proof.Machine

/-- Why a command could stop the machine: nothing. The spec answers every command of the table with an effect, a response
code or nothing; a command for an event whose condition does not hold has no effect (log entry 2). -/
inductive Fault where
  deriving DecidableEq, Repr

/-- Why a command has no meaning in this model. -/
inductive Refusal where
  /-- Raised by exec's arms for a command without a meaning yet (safe: the model stops). -/
  | notModelled (mnemonic : String)
  deriving DecidableEq, Repr

/-- The response codes of R353; `wait` while the request waits at its target (R358, R374, R382), `abort` for a PCIe
Completer Abort (R56, R357, R486). -/
inductive Resp where
  | ok | terr | derr | lerr | wait | abort
  deriving DecidableEq, Repr

/-- What the device last answered to a requester. -/
structure BusOut where
  resp : Resp
  data : List Byte
  deriving DecidableEq, Repr

/-- The pair latch of a page (R55): tag and captured or held half. -/
structure PairTag where
  page : Nat
  master : Nat
  low : Nat
  write : Bool
  held : Word
  deriving DecidableEq, Repr

/-- A recognised snapshot trigger on its way to the pages (R64): when it was recognised, and by which triggers. -/
structure SnapReq where
  slot : Nat
  hsi : Nat
  cyc : Nat
  mask : Nat
  deriving DecidableEq, Repr

/-- A descriptor of a running dump (R67). -/
structure DumpDesc where
  idx : Nat
  src : Nat
  lines : Nat
  dst : Nat
  deriving DecidableEq, Repr

/-- A running dump: the snapshot's SEQ, its descriptors, and the source lines already copied with the number of the descriptor
that copied them (R67). -/
structure DumpSt where
  seq : Nat
  descs : List DumpDesc
  copied : List (Nat × Nat)
  deriving DecidableEq, Repr

/-- MSI-X (R62): active(v) as last evaluated, and for each function its enable, function mask, per-vector masks,
and pending bits (the tables themselves are words). -/
structure MsixSt where
  active : Nat
  en : Nat
  fmask : Nat
  mask : Tab Nat
  pba : Tab Nat
  deriving DecidableEq, Repr

/-- A lock held on target 2 (R357, R358): the holder, the address, the bytes of the closing write and those it found. -/
structure LockSt where
  master : Nat
  addr : Nat
  closing : List Byte
  old : List Byte
  deriving DecidableEq, Repr

/-- An AtomicOp: the operation, whether it is 64 bits wide, its operand and its compare value (R357). -/
structure AtomReq where
  op : AtomicOp
  wide : Bool
  operand : Nat
  compare : Nat
  deriving DecidableEq, Repr

/-- A memory request that waits at its target (R358), at a regulator port (R374) or at a DRAM channel (R382); `atomic`
where it is the locked read of a locked sequence, `rra` where a remote access asks, `posted` where a posted PCIe write, which has no
completion, asks (R56, R486); the fabric cycle in which it was issued or, once it has passed its regulator port, in which it passed it,
from which it ages in its channel's queue (R373); the PCIe read or the WRITE segment of which it is a piece (13_apsal_systems R397); and whether it has passed its port (R374). -/
structure MemReq where
  master : Nat
  addr : Nat
  write : Bool
  width : Nat
  data : List Byte
  atomic : Option AtomReq
  rra : Bool
  posted : Bool
  since : Nat
  part : Option Nat
  passed : Bool
  deriving DecidableEq, Repr

/-- A PCIe read whose completion waits for some of its pieces (15_power_and_bringup R486): its number, whether a piece has failed, the
pieces left, its first address and its bytes. -/
structure ReadSt where
  id : Nat
  bad : Bool
  left : Nat
  at0 : Nat
  data : List Byte
  deriving DecidableEq, Repr

/-- A DRAM bank (R376): the predictor counter, the row of the last access and the open row. -/
structure BankSt where
  ctr : Nat
  last : Option Nat
  row : Option Nat
  deriving DecidableEq, Repr

/-- A DRAM channel beyond its registers: banks, the next bank to refresh, the latest MR4 refresh-rate field, whether a
bring-up runs on it, and the ECC groups whose check lines its cache holds, the latest used first (R368). -/
structure ChanSt where
  banks : List BankSt
  nextBank : Nat
  mr4 : Nat
  bring : Bool
  cache : List Nat
  deriving DecidableEq, Repr

/-- The watermark (R412, R414, R415): each page's digest as a difference from its reset digest, the sum of each page's
last completed scan, the running sum of the page in progress and the next key to visit there, and whether that page has
met an uncorrectable word or a skipped one. -/
structure WmkSt where
  diff : Tab (BitVec 64)
  scan : Tab (BitVec 64)
  run : BitVec 64
  page : Nat
  pos : Nat
  bad : Bool
  skip : Bool
  deriving DecidableEq, Repr

/-- A 12-byte PTP timestamp (R83, R88). -/
structure PtpTs where
  sec : Nat
  ns : Nat
  frac : Nat
  deriving DecidableEq, Repr

/-- A measurement record (R88). -/
structure MeasRec where
  typ : Nat
  port : Nat
  gen : Nat
  corr : Int
  a : PtpTs
  b : PtpTs
  c : PtpTs
  d : PtpTs
  deriving DecidableEq, Repr

/-- An accepted SYNC in 2^-16 ns: t1, t2 and its correction (R89). -/
structure SyncRec where
  t1 : Int
  t2 : Int
  c : Int
  deriving DecidableEq, Repr

/-- Why a step of the HSI is due (R99). -/
inductive StepWhy where
  | firstLock | mute | reanchor | hsiSet | ring
  deriving DecidableEq, Repr

/-- A step of the HSI that is scheduled: the slot at whose boundary it is due, and D (an HSI_SET takes its D at the
boundary; `ring` is a step that a manager announced or had announced). -/
structure StepReq where
  due : Nat
  d : Int
  why : StepWhy
  deriving DecidableEq, Repr

/-- TIME beyond its registers (R88-R102): the record FIFO, the loop (I and y in ppb, times in 2^-16 ns), acquisition,
run counters, the slew plan, the slot from which an acquisition on a word clock counts its sheets, and the scheduled steps. -/
structure TimeSt where
  fifo : List MeasRec
  integ : Rat
  dbar : Option Int
  syncs : List (Nat × SyncRec)
  lastT2 : Option Int
  lastSync : Nat
  acq : List SyncRec
  acqPath : Bool
  theta : Int
  thetaHold : Int
  outliers : List SyncRec
  lockRun : Nat
  unlockRun : Nat
  reason : Nat
  ignore : Bool
  slewEnd : Nat
  slewAcq : Bool
  yLoop : Rat
  yNext : Int
  acqSince : Nat
  steps : List StepReq
  deriving DecidableEq, Repr

/-- A clock output (R104–R107). While it runs: its waveform and format, taken when it started, its output delay in ps and the shift
of its phase from the house grid. Up to `high`, a PLL-A cycle of device time, it finishes a high phase; EN takes effect at `low`, and
from its first rising edge at `start` it follows the waveform. `set` says that software has written its configuration. -/
structure ClkOut where
  run : Bool
  freq : Nat
  fmt : Nat
  dly : Int
  shift : Nat
  high : Nat
  low : Nat
  start : Nat
  set : Bool
  deriving DecidableEq, Repr

/-- CLK beyond its registers: the PLL-B change in progress (the slot of its APPLY), one waiting for a retrain (R385),
the clock outputs (MCLK 0-3, WCLK 4-7), the low time of LOCK_F in its window of 400 fabric cycles (R108), the bands that the PLLs
took at their last lock (15_power_and_bringup R459) and the cycle of the last SYNC_IN edge accepted (16_electrical R480). -/
structure ClkSt where
  change : Option Nat
  waiting : Bool
  outs : List ClkOut
  lockF : Nat
  bandA : Nat
  bandB : Nat
  syncAt : Option Nat
  deriving DecidableEq, Repr

/-- A message, frame or host-memory effect that leaves the device. -/
inductive Output where
  | msix (fn vector : Nat)
  | frame (port : Nat) (bytes : List Byte)
  | apsal (port : Nat) (bytes : List Byte)
  deriving DecidableEq, Repr

/-- The state. -/
structure State where
  /-- The commands that wait, first in, first out. -/
  pending : List Instr
  /-- Slots begun since reset, the HSI at the start of the current sheet, and the fabric cycle within it (R9–R11, R82). -/
  slot : Nat
  hsi : Nat
  cyc : Nat
  /-- Every register and table word, by key address. -/
  words : Tab Word
  /-- Copies 1 and 2 of the triplicated bits, as differences from copy 0 (R58). -/
  tmrA : Tab Word
  tmrB : Tab Word
  /-- Frozen counter views (R64). -/
  frozen : Tab Word
  pairs : List PairTag
  bus : BusOut
  wmk : WmkSt
  msix : MsixSt
  snapQ : List SnapReq
  /-- The slot and the fabric cycle of the previous snapshot cycle (R65). -/
  lastSnap : Option (Nat × Nat)
  /-- Whether the HSI match can still fire (R63). -/
  matchArmed : Bool
  dump : Option DumpSt
  /-- SRAM and DRAM by fabric address; error vectors, and the three copies of each SRAM word's poison bit (R345, R348, R368). -/
  mem : Tab Byte
  sramErr : Tab Nat
  dramErr : Tab Nat
  poison : Tab Nat
  lock : Option LockSt
  waiting : List MemReq
  /-- Masters whose request waits at the master's own engine and has passed its regulator port (R374). -/
  passed : List Nat
  /-- PCIe reads that wait for pieces (R486). -/
  reads : List ReadSt
  buckets : Tab Nat
  chans : List ChanSt
  /-- A PLL-B change has failed and no later APPLY has succeeded (R81, R382). -/
  pllbFail : Bool
  /-- Domains held in reset (R453). -/
  held : Nat
  time : TimeSt
  clk : ClkSt
  /-- Host memory that the control rings reach (R128). -/
  hostMem : Tab Byte
  macs : List MacSt
  /-- Samples by node and slot (Audio.lean), pads by edge, the commits that changed them with the pad before (newest first), and
  the slot of the last commit. -/
  audio : Tab (List Int)
  pads : Tab Nat
  padHist : Tab (List (Nat × Nat))
  padSlot : Nat
  rx : Tab RxCtx
  /-- The sheet of the last receive cut-off. -/
  rxCut : Int
  /-- DC estimates with 51 fractional bits, channels owing a clear, sheets that ICB has processed, FIR starts and crossfades. -/
  dc : Tab Int
  dcClr : Tab Nat
  icbN : Nat
  firFrom : Tab Nat
  firXf : Tab FirXf
  tx : Tab TxCtx
  /-- An opening of the media gate waits for a boundary (R149); sheets up to this slot are zeros after a step (R100). -/
  gateNext : Bool
  txZero : Nat
  stages : Tab StageSt
  /-- The slots after the last send cut-off and the last insert exchange (R12, R31, R32). -/
  sendCut : Nat
  exchCut : Nat
  /-- Objects, their knots by object and slot, and the first sheet that OBJ has not frozen (R189, R190). -/
  objs : Tab ObjSt
  knots : Tab Knot
  frozenTo : Int
  /-- Commits that changed the line read of an object (newest first), the slot of the last commit that discarded an object's walk, and
  what was in force before each commit whose slots a stage may still render (newest first) (R186, R194, R206, R208, R233). -/
  lineHist : Tab (List LineStep)
  objMoved : Tab Nat
  objEras : List ObjEra
  /-- The slot of the last swap of mould sets (R195, R201). -/
  swapSlot : Option Nat
  /-- First slot of each line, pre-filter states, air states at the write and at the read, partial sums of a slot's vats. -/
  lineFrom : Tab Nat
  pfSt : Tab (List Int)
  airW : Tab Int
  airR : Tab Int
  partials : Tab (List (Nat × List Int))
  mix : MixSt
  outs : OutSt
  conv : ConvSt
  /-- The insert engines, by number. -/
  ies : Tab IeSt
  press : Option PressSt
  /-- A distributed press to announce in the next frame (N, tag), a vote to send (tag, reason, node) and a decision to
  announce (R408). -/
  askRing : Option (Nat × Nat)
  vote : Option (Nat × Nat × Nat)
  verdict : Option Decision
  /-- a(c) of the forwarded channels at the manager, as PRESS_TABLE gives them and as last committed (R402, R408). -/
  fwdTerm : Tab Nat
  fwdTermAct : Tab Nat
  ring : RingSt
  red : RedSt
  pwr : PwrSt
  boot : BootSt
  /-- The JTAG port (16_electrical R482). -/
  tap : TapSt
  /-- Draws of free values so far. -/
  freeCtr : Nat
  out : List Output
  deriving DecidableEq, Repr

/-- A DRAM bank after a reset of the DRAM domain (R376). -/
def BankSt.reset : BankSt := ⟨2, none, none⟩

/-- A DRAM channel after a reset of the DRAM domain. -/
def ChanSt.reset : ChanSt := ⟨List.replicate 16 BankSt.reset, 0, 0, false, []⟩

/-- TIME after POR (R94). -/
def TimeSt.reset : TimeSt where
  fifo := []
  integ := 0
  dbar := none
  syncs := []
  lastT2 := none
  lastSync := 0
  acq := []
  acqPath := false
  theta := 0
  thetaHold := 0
  outliers := []
  lockRun := 0
  unlockRun := 0
  reason := 0
  ignore := false
  slewEnd := 0
  slewAcq := false
  yLoop := 0
  yNext := 0
  acqSince := 0
  steps := []

/-- CLK after reset: clock outputs disabled, LOCK_F not pulled low within its first window. -/
def ClkSt.reset : ClkSt := ⟨none, false, List.replicate 8 ⟨false, 0, 0, 0, 0, 0, 0, 0, false⟩, 400, 0, 0, none⟩

/-- A port after reset: empty queues. -/
def MacSt.reset : MacSt := ⟨[], [], List.replicate 4 ⟨0, []⟩, List.replicate 4 0, 0, 0, 0, 0, 0⟩

/-- The machine right after reset (R449): STANDBY after a VDD_AON power-up, HSI 0, PLL-A
locked (R112) and the PCIe lanes running with their effective settings (R459), RST_CAUSE reading POWER_ON alone, every other word at its reset value, memory cleared. -/
def State.reset : State where
  pending := []
  slot := 0
  hsi := 0
  cyc := 0
  words := [(0x1090, 1), (0x200C, 5)]
  tmrA := []
  tmrB := []
  frozen := []
  pairs := []
  bus := ⟨.ok, []⟩
  wmk := ⟨[], [], 0, 0, 0, false, false⟩
  msix := ⟨0, 0, 0, [], []⟩
  snapQ := []
  lastSnap := none
  matchArmed := false
  dump := none
  mem := []
  sramErr := []
  dramErr := []
  poison := []
  lock := none
  waiting := []
  passed := []
  reads := []
  buckets := []
  chans := List.replicate 4 ChanSt.reset
  pllbFail := false
  held := 0
  time := TimeSt.reset
  clk := { ClkSt.reset with bandA := bits (fuseWord 0x88 0x3F3F) 5 0 }
  hostMem := []
  macs := List.replicate 4 MacSt.reset
  audio := []
  pads := []
  padHist := []
  padSlot := 0
  rx := []
  rxCut := -1
  dc := []
  dcClr := []
  icbN := 0
  firFrom := []
  firXf := []
  tx := []
  gateNext := false
  txZero := 0
  stages := []
  sendCut := 0
  exchCut := 0
  objs := []
  knots := []
  frozenTo := 0
  lineHist := []
  objMoved := []
  objEras := []
  swapSlot := none
  lineFrom := []
  pfSt := []
  airW := []
  airR := []
  partials := []
  mix := MixSt.reset
  outs := OutSt.reset
  conv := ConvSt.reset
  ies := []
  press := none
  askRing := none
  vote := none
  verdict := none
  fwdTerm := []
  fwdTermAct := []
  ring := RingSt.reset
  red := RedSt.reset
  pwr := { PwrSt.reset with lanes := [8, 9, 10, 11].foldl (fun t l => tset (fun _ => 0) t l (w32 (fuseWord (0x100 + 4 * l) 0x3F3F3F))) [] }
  boot := BootSt.reset
  tap := TapSt.reset
  freeCtr := 0
  out := []

end Sys2Proof.Machine
end

