-- ==== Sys2Proof/Machine/Ops.lean ====
section
/-! DEFINITION. The named operations over the state that every block uses: words and fields, the watermark of a changed
word (13_apsal_systems R412–R415), event latches and snapshot triggers (02_register_pages R47, R63, R65), counters, power
domains, the outcome of a command with the interrupt evaluation of R61–R62, and the time of day of the block. -/

namespace Sys2Proof.Machine

/-! Watermark. -/

/-- key(a) of R412. -/
def wmkKey (a : Nat) : BitVec 64 :=
  let z : BitVec 64 := BitVec.ofNat 64 a * 0x9E3779B97F4A7C15
  let z := (z ^^^ (z >>> 30)) * 0xBF58476D1CE4E5B9
  let z := (z ^^^ (z >>> 27)) * 0x94D049BB133111EB
  (z ^^^ (z >>> 31)) ||| 1

/-- The change of its page's digest when the masked value of the word at key a goes from o to n (R414). -/
def wmkDelta (a mask o n : Nat) : BitVec 64 :=
  wmkKey a * (BitVec.ofNat 64 (n &&& mask) - BitVec.ofNat 64 (o &&& mask))

/-- R414, R415: a configuration-class word of page p at key a changes under a mask. -/
def WmkSt.change (w : WmkSt) (p a mask o n : Nat) : WmkSt :=
  if o &&& mask = n &&& mask ∨ 96 ≤ p then w
  else
    let d := wmkDelta a mask o n
    { w with
      diff := tset zeroAt w.diff p (tget zeroAt w.diff p + d)
      run := if p = w.page ∧ a < w.pos then w.run + d else w.run
      scan := if p < w.page then tset zeroAt w.scan p (tget zeroAt w.scan p + d) else w.scan }

/-! Words and fields. -/

/-- The word at a key address. -/
def State.w (s : State) (k : Nat) : Word := tget resetWord s.words k

/-- The same as a number. -/
def State.n (s : State) (k : Nat) : Nat := (s.w k).toNat

/-- Write the word at a key address; a configuration-class word updates its page's digest (R414). -/
def State.setW (s : State) (k : Nat) (v : Word) : State :=
  { s with
    words := tset resetWord s.words k v
    wmk := s.wmk.change (keySrc k) k (cfgMask k) (s.n k) v.toNat }

/-- Write a word from a number, modulo 2^32. -/
def State.setN (s : State) (k v : Nat) : State := s.setW k (w32 v)

/-- The value of a field. -/
def State.get (s : State) (f : Fld) : Nat := bits (s.n f.addr) f.hi f.lo

/-- The value of a signed field. -/
def State.getI (s : State) (f : Fld) : Int := sx (f.hi + 1 - f.lo) (s.get f)

/-- Whether a field is not zero. -/
def State.is (s : State) (f : Fld) : Bool := s.get f != 0

/-- Write a field (its low bits), leaving the other bits of its register. -/
def State.put (s : State) (f : Fld) (v : Nat) : State := s.setN f.addr (putBits (s.n f.addr) f.hi f.lo v)

/-- Write a signed field, saturated to its width (R7). -/
def State.putI (s : State) (f : Fld) (v : Int) : State := s.put f (satTz (f.hi + 1 - f.lo) v)

/-- Write a one-bit field. -/
def State.putB (s : State) (f : Fld) (b : Bool) : State := s.put f (b2n b)

/-- A counter that wraps. -/
def State.addW (s : State) (f : Fld) (n : Nat) : State := s.put f (s.get f + n)

/-- A counter that saturates at all ones. -/
def State.addS (s : State) (f : Fld) (n : Nat) : State := s.put f (min (s.get f + n) (2 ^ (f.hi + 1 - f.lo) - 1))

/-- A 64-bit value held in a low and a high word. -/
def State.get64 (s : State) (lo : Nat) : Nat := s.n lo + s.n (lo + 4) * 2 ^ 32

/-- Write a 64-bit value into a low and a high word. -/
def State.set64 (s : State) (lo v : Nat) : State := (s.setN lo v).setN (lo + 4) (v / 2 ^ 32)

/-- Set bits of a word. -/
def State.orW (s : State) (k mask : Nat) : State := s.setN k (s.n k ||| mask)

/-- Clear bits of a word. -/
def State.clrW (s : State) (k mask : Nat) : State := s.setW k (s.w k &&& ~~~ w32 mask)

/-- Bit o of an array of 32-bit maps whose first register is at address a. -/
def State.mapBit (s : State) (a o : Nat) : Bool := bitOf (s.n (a + 4 * (o / 32))) (o % 32)

/-- Set or clear bit o of an array of maps. -/
def State.setMap (s : State) (a o : Nat) (b : Bool) : State :=
  if b then s.orW (a + 4 * (o / 32)) (2 ^ (o % 32)) else s.clrW (a + 4 * (o / 32)) (2 ^ (o % 32))

/-- Apply an operation for each element of a list. -/
def State.each {α : Type} (s : State) (l : List α) (f : State → α → State) : State := l.foldl f s

/-- Apply an operation for each number below n. -/
def State.upto (s : State) (n : Nat) (f : State → Nat → State) : State := (List.range n).foldl f s

/-- Apply an operation where a condition holds. -/
def State.onlyIf (s : State) (b : Bool) (f : State → State) : State := if b then f s else s

/-! Triplicated bits (R58). -/

/-- Bitwise majority. -/
def maj (a b c : Word) : Word := (a &&& b) ||| (a &&& c) ||| (b &&& c)

/-- The majority of the three copies of the word at a key. -/
def State.majW (s : State) (k : Nat) : Word :=
  maj (s.w k) (s.w k ^^^ tget zeroAt s.tmrA k) (s.w k ^^^ tget zeroAt s.tmrB k)

/-! Power domains. -/

/-- A domain is on and not held in reset (R443, R453). -/
def State.domOn (s : State) (d : Nat) : Bool := bitOf (s.get R.PWR_DOM_ON_ON) d && !bitOf s.held d

/-- The page of an event source answers. -/
def State.pageOn (s : State) (src : Nat) : Bool := s.domOn (domainOf src)

/-! Roles, modes, time. -/

/-- SYS.MODE codes (R69). -/
def mOff : Nat := 0
def mStandby : Nat := 1
def mConfig : Nat := 2
def mRun : Nat := 3
def mSpare : Nat := 4
def mService : Nat := 5

/-- A block of a render domain works: its domain is on, and it is not waiting for boundary R of a takeover, at which every block starts
(14_redundancy R436). -/
def State.blockRuns (s : State) (src : Nat) : Bool := s.pageOn src && !s.pwr.trans.any fun x => x.1 == mSpare && x.2.1 == mRun

def State.mode (s : State) : Nat := s.get R.SYS_MODE_MODE

/-- The role in force (R70): manager 0, worker 1, spare 2, standalone 3. -/
def State.role (s : State) : Nat := s.get R.SYS_ROLE_EFF_ROLE

/-- Whether the device manages a ring: manager, or standalone, a ring of one. -/
def State.isManager (s : State) : Bool := s.role = 0 || s.role = 3

/-- This device's DEVID. -/
def State.devid (s : State) : Nat := s.get R.SYS_STRAPS_DEVID

/-- MEMBERS other than this device (R405). -/
def State.otherMembers (s : State) : Nat := s.get R.RING_MEMBERS_P &&& (2 ^ 32 - 1 - 2 ^ s.devid)

/-- Fabric cycles of one sheet and of one house sample (R9, R82). -/
def sheetCycles : Nat := 76800

/-- Fabric cycles since reset, as the device counts them. -/
def State.absCyc (s : State) : Nat := s.slot * sheetCycles + s.cyc

/-- Fabric cycles of n microseconds. -/
def usCyc (n : Nat) : Nat := n * 6144 / 10
def sampleCycles : Nat := 12800

/-- The house sample in progress. -/
def State.hsiNow (s : State) : Nat := s.hsi + s.cyc / sampleCycles

/-- The sheet number of the current slot (R5). -/
def State.sheet (s : State) : Nat := s.hsi / 6

/-! Events (R47) and snapshot triggers (R63, R65). -/

/-- The key of a page's EVENT register. -/
def evKey (src : Nat) : Nat := pageBase src + 0x10

/-- Whether the holdoff of R65 runs: fewer than HOLDOFF sheets have passed since the previous snapshot cycle. -/
def State.inHoldoff (s : State) : Bool :=
  match s.lastSnap with
  | none => false
  | some (sl, cy) =>
    let h := s.get R.SNAP_HOLDOFF_SHEETS
    h != 0 && decide (s.slot * sheetCycles + s.cyc ≤ sl * sheetCycles + cy + h * sheetCycles)

/-- A recognised trigger joins the snapshot of its fabric cycle, or makes one in order of time (R65). -/
def joinSnap : List SnapReq → SnapReq → List SnapReq
  | [], q => [q]
  | x :: l, q =>
    if x.slot = q.slot ∧ x.cyc = q.cyc then { x with mask := x.mask ||| q.mask } :: l
    else if q.slot < x.slot ∨ (q.slot = x.slot ∧ q.cyc < x.cyc) then q :: x :: l
    else x :: joinSnap l q

/-- Trigger t in the fabric cycle that lies `late` cycles after now. -/
def State.snapReq (s : State) (t late : Nat) : SnapReq :=
  if sheetCycles ≤ s.cyc + late then ⟨s.slot + 1, s.hsi + 6, s.cyc + late - sheetCycles, 2 ^ t⟩
  else ⟨s.slot, s.hsi, s.cyc + late, 2 ^ t⟩

/-- n occurrences of snapshot trigger t, recognised `late` cycles from now: ignored unless enabled and armed, discarded and
counted one by one within the holdoff, otherwise on their way to every page (R47, R63, R65). A discard latches SNAP_MISSED without being
an occurrence for trigger 3 in its turn (DESIGN CHOICE, log entry 138). -/
def State.recogniseN (s : State) (t n late : Nat) : State :=
  if !bitOf (s.get R.SNAP_TRIG_EN_EN) t || !s.is R.SNAP_C_ARMED then s
  else if s.inHoldoff then (s.addS R.SNAP_MISSED_COUNT n).orW (evKey 6) 2
  else { s with snapQ := joinSnap s.snapQ (s.snapReq t late) }

/-- One occurrence of trigger t, recognised now. -/
def State.recognise (s : State) (t : Nat) : State := s.recogniseN t 1 0

/-- n occurrences, n > 0, of the cause of an EVENT bit: the bit latches, and trigger 3 is recognised for each when SNAP.EVT_SEL
selects it, whether or not the bit was already set (R47, R63). -/
def State.latches (s : State) (src bit n : Nat) : State :=
  let s := s.orW (evKey src) (2 ^ bit)
  if s.get R.SNAP_EVT_SEL_SOURCE = src ∧ s.get R.SNAP_EVT_SEL_BIT = bit then s.recogniseN 3 n 0 else s

/-- One occurrence of the cause of an EVENT bit. -/
def State.latch (s : State) (src bit : Nat) : State := s.latches src bit 1

/-- n occurrences of one cause (R47), or none. -/
def State.latchN (s : State) (src bit n : Nat) : State := if n = 0 then s else s.latches src bit n

/-- Set a STATUS bit and, on a change from 0 to 1, latch the EVENT bit of the same cause (R46, R47). -/
def State.status (s : State) (f : Fld) (b : Bool) (src bit : Nat) : State :=
  if b && !s.is f then (s.putB f true).latch src bit else s.putB f b

/-- Event sources of single pages (R43). -/
def eSYS : Nat := 0
def ePWR : Nat := 1
def eCLK : Nat := 2
def eTIME : Nat := 3
def eSNAP : Nat := 6
def eWMK : Nat := 7
def ePRESS : Nat := 8
def eMAC (p : Nat) : Nat := 9 + p
def eRXS : Nat := 13
def eTXS : Nat := 17
def eICB : Nat := 21
def eOBJ : Nat := 25
def eMOULD : Nat := 29
def eMIX : Nat := 33
def eOUT : Nat := 37
def eCONV : Nat := 41
def eIE (e : Nat) : Nat := 42 + e
def eFAB : Nat := 50
def eSRAM : Nat := 51
def eDRC (c : Nat) : Nat := 52 + c
def eDPHY : Nat := 56
def eAPL : Nat := 57
def eRING : Nat := 58
def eRED : Nat := 59
def eBOOT : Nat := 61
def eVAT (v : Nat) : Nat := 64 + v

/-! Lines that a running dump has not copied yet (R67). -/

/-- The descriptors of the running dump whose source holds line a and that have not copied it. -/
def State.dumpPending (s : State) (a : Nat) : List DumpDesc :=
  match s.dump with
  | some x => x.descs.filter fun d => decide (d.src ≤ a) && decide (a < d.src + 64 * d.lines) && !x.copied.contains (d.idx, a)
  | none => []

/-- A descriptor becomes dirty: a write that is not held has reached one of its lines (R67). -/
def State.dumpMark (s : State) (d : DumpDesc) : State := (s.orW 0x60B8 (2 ^ d.idx)).latch eSNAP 5

/-- A block works in n bytes of SRAM from address a, where its layout, which no chapter publishes, decides the lines that it writes: each
descriptor with a line left there becomes dirty or does not (R67, R343; log entry 109). -/
def State.dumpArea (s : State) (a n : Nat) : State :=
  match s.dump with
  | none => s
  | some x =>
    s.each (x.descs.filter fun d => (List.range d.lines).any fun i =>
        let l := d.src + 64 * i
        decide (a ≤ l) && decide (l < a + n) && !x.copied.contains (d.idx, l)) fun s d =>
      let s' := { s with freeCtr := s.freeCtr + 1 }
      if (Config.freeWord s.freeCtr).toNat % 2 = 1 then s'.dumpMark d else s'

/-- A block writes n bytes of its own at address a of the SRAM (R67). -/
def State.dumpDirty (s : State) (a n : Nat) : State :=
  if s.dump.isNone then s
  else s.each (((List.range n).map fun i => (a + i) / 64 * 64).eraseDups) fun s l => s.each (s.dumpPending l) State.dumpMark

/-! Interrupts (R61, R62). -/

/-- pend(s): a page that is off pends nothing. -/
def State.pend (s : State) (src : Nat) : Bool :=
  s.pageOn src && s.n (pageBase src + 0x14) != 0 && (s.n (pageBase src + 0x10) &&& s.n (pageBase src + 0x14)) != 0

/-- vmap(s). -/
def State.vmap (s : State) (src : Nat) : Nat := bits (s.n (0x5100 + 4 * (src / 4))) (8 * (src % 4) + 4) (8 * (src % 4))

/-- src_en(s). -/
def State.srcEn (s : State) (src : Nat) : Bool := s.mapBit 0x5090 src

/-- The mask of active(v). -/
def State.vecActive (s : State) : Nat :=
  allSources.foldl (fun m src => if s.srcEn src && s.pend src then m ||| 2 ^ s.vmap src else m) 0

/-- irq_asserted: IRQ_N is low while it holds (R61). -/
def State.irqAsserted (s : State) : Bool := (s.vecActive &&& s.n 0x50A4) != 0

/-- Function fn sends or pends the message of vector v (R62; PCI Express 4.0 MSI-X). -/
def State.msixRequest (s : State) (v : Nat) : State :=
  let fn := b2n (bitOf (s.n 0x50AC) v)
  if !bitOf s.msix.en fn then s
  else if bitOf s.msix.fmask fn || tget (fun _ => 1) s.msix.mask (fn * 32 + v) != 0 then
    { s with msix := { s.msix with pba := tset zeroAt s.msix.pba (fn * 32 + v) 1 } }
  else { s with out := s.out ++ [.msix fn v] }

/-- EVT's continuous evaluation, taken at the end of each command: a rise of active(v) requests a message, a fall
clears a pending bit that is still masked (R61, R62). -/
def State.settle (s : State) : State :=
  let a := s.vecActive
  let old := s.msix.active
  let s1 := { s with msix := { s.msix with
    active := a
    pba := s.msix.pba.filter fun e => bitOf a (e.1 % 32) } }
  (List.range 32).foldl (fun s v => if bitOf a v && !bitOf old v then s.msixRequest v else s) s1

/-- The outcome of a command: the state its effect leaves, with the interrupt lines settled. -/
def done (s : State) : Host.Outcome State Fault Refusal := .next s.settle

/-! Outputs, responses, free values. -/

def State.emit (s : State) (o : Output) : State := { s with out := s.out ++ [o] }

def State.answer (s : State) (r : Resp) (d : List Byte) : State := { s with bus := ⟨r, d⟩ }

/-- Draw a free value: the draw's number, and the state that has drawn it. -/
def State.draw (s : State) : Nat × State := (s.freeCtr, { s with freeCtr := s.freeCtr + 1 })

end Sys2Proof.Machine
end

