-- ==== Sys2Proof/Machine/Time.lean ====
section
/-! DEFINITION. TIME (03_timebase R82–R102): device time, measurement records, the servo loop and its states, slews and the
scheduling of steps. Times are integers in 2^−16 ns, rates are rationals in ppb, and a value is rounded only where the manual
rounds it (log entry 10). -/

namespace Sys2Proof.Machine

/-- One nanosecond, one second and one sheet (125 µs) in 2^−16 ns. -/
def uNs : Int := 65536
def uSec : Int := 65536 * 1000000000
def uSheet : Int := 65536 * 125000

/-- A PTP timestamp as an integer. -/
def PtpTs.toU (t : PtpTs) : Int := t.sec * uSec + t.ns * uNs + t.frac

/-- Device time (HSI, PH) in 2^−16 ns, rounded once to the nearest unit (R83). -/
def devTimeU (hsi ph : Nat) : Int :=
  (hsi / 48000 : Nat) * uSec + rndDiv (((hsi % 48000 * 12800 + ph) * (625 * 65536) : Nat)) 384

/-- The PTP timestamp of a time in 2^−16 ns. -/
def tsOfU (u : Int) : PtpTs :=
  let n := u.toNat
  ⟨n / (65536 * 1000000000), n % (65536 * 1000000000) / 65536, n % 65536⟩

/-- PH of the current cycle and the current time (R82). -/
def State.ph (s : State) : Nat := s.cyc % sampleCycles
def State.nowU (s : State) : Int := devTimeU s.hsiNow s.ph

/-- A timestamp in 12 bytes: FRAC, NS, SEC, little-endian (R88). -/
def tsAt (l : List Byte) (o : Nat) : PtpTs := ⟨leAt l (o + 6) 6, leAt l (o + 2) 4, leAt l o 2⟩

/-- The record that MEAS_0–MEAS_15 hold (R88). -/
def State.measRecord (s : State) : MeasRec :=
  let l := (List.range 16).flatMap fun w => leBytes 4 (s.n (0x3200 + 4 * w))
  ⟨leAt l 0 1, leAt l 1 1 % 4, leAt l 4 1 % 16, sx 64 (leAt l 8 8), tsAt l 0x10, tsAt l 0x1C, tsAt l 0x28, tsAt l 0x34⟩

/-- Servo states (R93). -/
def tFreerun : Nat := 0
def tAcquire : Nat := 1
def tTrack : Nat := 2
def tLocked : Nat := 3
def tHoldover : Nat := 4
def tSlewing : Nat := 5
def tStepPending : Nat := 6
def tReanchor : Nat := 7

def State.servo (s : State) : Nat := s.get R.TIME_SERVO_STATE_STATE
def State.anchored (s : State) : Bool := s.is R.TIME_SERVO_STATE_ANCHORED
def State.gen (s : State) : Nat := s.get R.TIME_SERVO_STATE_GEN

/-- The source selected (R87); 5–7 act as FREE. -/
def State.src (s : State) : Nat :=
  let v := (s.majW 0x3080).toNat % 8
  if 5 ≤ v then 0 else v

def State.setTime (s : State) (f : TimeSt → TimeSt) : State := { s with time := f s.time }

/-- The states whose loop or slew runs: leaving them fixes FREQ_HOLD (R93). -/
def steering (st : Nat) : Bool := st = tTrack || st = tLocked || st = tSlewing || st = tStepPending

/-- y in 2^−16 ppm from a rate in ppb. -/
def yOfPpb (q : Rat) : Int := rndRat (q * 65536 / 1000)

/-- The limit of R77 in 2^−16 ppm. -/
def yLimit : Int := 250 * 65536

/-- The slew rate in ppb (R97, R99). -/
def State.slewRate (s : State) : Rat :=
  if s.time.slewAcq then (clampN 10 500 (s.get R.TIME_SLEW_CFG_ACQ_SLEW) * 1000 : Nat)
  else (clampN 1 500 (s.get R.TIME_SLEW_CFG_SLEW_LIM) * 100 : Nat)

/-- y in a servo state (R93), before the limit. -/
def State.yState (s : State) : Rat :=
  let st := s.servo
  let trim : Rat := s.getI R.TIME_FREQ_TRIM_Y * 1000 / 65536
  let hold : Rat := s.getI R.TIME_FREQ_HOLD_Y * 1000 / 65536
  if st = tFreerun then trim
  else if st = tAcquire then (if s.anchored then hold else trim)
  else if st = tTrack ∨ st = tLocked ∨ st = tStepPending then s.time.yLoop
  else if st = tSlewing then -s.time.integ - s.time.theta.sign * s.slewRate
  else hold

/-- Compute the y that CLK applies at the next sheet boundary; the limit latches FREQ_CLAMP (R77). -/
def State.steer (s : State) : State :=
  let y := yOfPpb s.yState
  let c := clampI (-yLimit) yLimit y
  let s := s.setTime fun t => { t with yNext := c }
  if y = c then s else s.latch eTIME 8

/-- STATUS follows the servo state (R95, R109). -/
def State.servoStatus (s : State) : State :=
  let st := s.servo
  let lost := s.is R.TIME_S_LOCKED && st != tLocked
  let s := s.status R.TIME_S_LOCKED (st = tLocked) eTIME 0
  let s := if lost then s.latch eTIME 1 else s
  let s := s.status R.TIME_S_HOLDOVER (st = tHoldover || st = tReanchor || (st = tAcquire && s.anchored)) eTIME 2
  let s := s.status R.TIME_S_REANCHOR_REQUIRED (st = tReanchor) eTIME 3
  let s := s.putB R.TIME_S_STEP_PENDING (st = tStepPending)
  s.putB R.TIME_S_SLEWING (st = tSlewing)

/-- A scheduled step survives in a servo state: a first-lock step in ACQUIRE, the step of ACTION and that at the mute sheet in
STEP_PENDING, any other in every state (R97–R99). -/
def StepReq.keptIn (q : StepReq) (st : Nat) : Bool :=
  match q.why with
  | .firstLock => st = tAcquire
  | .reanchor => st = tStepPending
  | .mute => st = tStepPending
  | _ => true

/-- Enter a servo state; `why` is the reason of a holdover (R93, R110). While FORCE_HOLD is 1 the servo goes to and stays in HOLDOVER
with reason HOST. The reason of the holdover just left is kept for REANCHOR_WAIT. -/
def State.enterServo (s : State) (next why : Nat) : State :=
  let force := s.is R.TIME_C_FORCE_HOLD
  let st := if force then tHoldover else next
  let reason := if force then 3 else if st = tHoldover then why else if st = tFreerun then 0 else s.time.reason
  let s := if steering s.servo && !steering st then s.putI R.TIME_FREQ_HOLD_Y (yOfPpb (-s.time.integ)) else s
  let s := s.setTime fun t => { t with
    reason := reason
    lockRun := 0
    unlockRun := 0
    outliers := if st = tTrack ∨ st = tLocked then t.outliers else []
    acq := if st = tAcquire ∨ st = tHoldover then t.acq else []
    acqPath := if st = tAcquire then t.acqPath else false
    acqSince := if st = tAcquire then s.slot else t.acqSince
    steps := t.steps.filter fun q => q.keptIn st }
  let s := s.put R.TIME_SERVO_STATE_STATE st
  let s := s.put R.TIME_SERVO_STATE_HOLD_REASON (if st = tHoldover ∨ st = tReanchor then reason else 0)
  s.servoStatus.steer

/-- Start an acquisition, with the records that already count toward it. -/
def State.acquire (s : State) (recs : List SyncRec) : State :=
  let s := s.enterServo tAcquire 0
  s.setTime fun t => { t with acq := recs, acqPath := false }

/-- To HOLDOVER with a reason (R93). -/
def State.holdover (s : State) (reason : Nat) : State :=
  let s := s.setTime fun t => { t with acq := [] }
  s.enterServo tHoldover reason

/-- FREE as the new source after a holdover (R87, R93): with the clock present, it takes over at the next sheet boundary. -/
def State.freeReturn (s : State) : State :=
  if s.servo = tHoldover ∧ s.src = 0 ∧ s.is R.TIME_C_FORCE_HOLD = false ∧ s.is R.CLK_S_REF_LOSS = false ∧ s.is R.CLK_S_PLLA_LOCK then
    s.enterServo tFreerun 0
  else s

/-- The SRC field changed (R87, R93). REF_PRESENT is 0 for FREE (DESIGN CHOICE, log entry 142), and for PTP and APSAL until the first
accepted SYNC or frame (DESIGN CHOICE, log entry 178). -/
def State.srcWritten (s : State) : State :=
  let s := s.setTime fun t => { t with ignore := false, acq := [] }
  let s := s.putB R.TIME_S_REF_PRESENT false
  if s.is R.TIME_C_FORCE_HOLD then s
  else if steering s.servo then s.holdover 4
  else if s.src = 0 then s.enterServo tFreerun 0
  else s.acquire []

/-- FORCE_HOLD written (R93). -/
def State.forceHoldWritten (s : State) (old new : Bool) : State :=
  if new && !old then s.holdover 3
  else if old && !new then (if s.src = 0 then s.enterServo tFreerun 0 else s.acquire [])
  else s

/-- Store θ and report it (R91, R110). -/
def State.reportTheta (s : State) (th : Int) : State :=
  (s.setTime fun t => { t with theta := th }).set64 0x30E0 (satTz 64 (rndDiv th uNs))

/-- Sheets that a slew of θ takes at r ppb, ending on a sheet boundary (R96). -/
def slewSheets (th : Int) (r : Rat) : Nat := (Rat.ceil ((th.natAbs : Rat) * 1000000000 / (uSheet * r))).toNat

/-- Enter or renew SLEWING on the stored θ, at ACQ_SLEW or SLEW_LIM; without a rate in its direction the servo waits
for a re-anchor (R96). -/
def State.startSlew (s : State) (acqRate : Bool) : State :=
  let s := s.setTime fun t => { t with slewAcq := acqRate }
  let want : Rat := s.time.theta.sign * s.slewRate
  let y : Int := clampI (-yLimit) yLimit (yOfPpb (-s.time.integ - want))
  let rate : Rat := -((y : Rat) * 1000 / 65536 + s.time.integ)
  if s.time.theta = 0 then (s.setTime fun t => { t with yLoop := -t.integ }).enterServo tTrack 0
  else if rate * s.time.theta.sign ≤ 0 then
    (if y = yOfPpb (-s.time.integ - want) then s else s.latch eTIME 8).enterServo tReanchor 0
  else
    let n := slewSheets s.time.theta (if rate < 0 then -rate else rate)
    let s := s.setTime fun t => { t with slewEnd := s.slot + n }
    s.enterServo tSlewing 0

/-- D of a step that removes θ (R99). -/
def stepD (th : Int) : Int := rndDiv (-th) uSheet

/-- The slot of the first sheet boundary at least 16 sheets from now (R98, R101). -/
def State.slot16 (s : State) : Nat := if s.cyc = 0 then s.slot + 16 else s.slot + 17

/-- A ring manager with active workers: it announces every step at least 16 sheets ahead (R101). -/
def State.stepLead (s : State) : Bool := s.role = 0 && s.otherMembers != 0

/-- The slot of a step decided now: the next boundary, or one at least 16 sheets away (R99, R101). -/
def State.stepDue (s : State) : Nat := if s.stepLead then s.slot16 else s.slot + 1

/-- Schedule a step in place of one for the same reason; of the steps that a manager announces, in place of one at the same boundary
(13_apsal_systems R410). -/
def State.addStep (s : State) (q : StepReq) : State :=
  s.setTime fun t => { t with steps := (t.steps.filter fun x => x.why != q.why || (q.why == .ring && x.due != q.due)) ++ [q] }

/-- A step for one of some reasons is scheduled. -/
def State.stepFor (s : State) (p : StepWhy → Bool) : Bool := s.time.steps.any fun q => p q.why

/-- Acquisition completes (R94, R97). -/
def State.acquired (s : State) : State :=
  let th := s.time.theta
  if !s.anchored then
    if stepD th = 0 then (s.putB R.TIME_SERVO_STATE_ANCHORED true).startSlew true
    else (s.addStep ⟨s.stepDue, stepD th, .firstLock⟩).setTime fun t => { t with acq := [] }
  else if (max 125 (s.get R.TIME_REANCHOR_THR_US) : Int) * 1000 * uNs < th.natAbs then s.enterServo tReanchor 0
  else if th.natAbs < 62500 * 65536 ∨ s.is R.TIME_RETURN_CFG_POLICY = false then s.startSlew false
  else
    let s := s.setTime fun t => { t with thetaHold := th, yLoop := -t.integ }
    s.enterServo tStepPending 0

/-- The frequency estimate of R94 from the first and fourth records, in ppb; free where it divides by zero (DESIGN CHOICE, log entry
119). -/
def freqEstimate (l : List SyncRec) : Rat :=
  match l.head?, l[3]? with
  | some a, some b =>
    let dm := (b.t1 + b.c) - (a.t1 + a.c)
    if dm = 0 then Config.freqZero ((b.t2 - a.t2 : Int)) else (1000000000 : Rat) * (((b.t2 - a.t2) - dm : Int) : Rat) / (dm : Rat)
  | _, _ => 0

/-- θ of a SYNC record of port p, once there is a path sample (R91). -/
def State.offsetOf (s : State) (p : Nat) (y : SyncRec) : Option Int :=
  s.time.dbar.map fun b => (y.t2 - y.t1 - y.c) - b - s.getI (R.TIME_ASYM_A.ix p)

/-- Complete the acquisition when four SYNCs and a path sample are in (R94); θ is that of the latest SYNC with the path sample. -/
def State.tryAcquired (s : State) : State :=
  if s.servo = tAcquire ∧ 4 ≤ s.time.acq.length ∧ s.time.acqPath ∧ !s.stepFor (· == .firstLock) then
    let s := s.setTime fun t => { t with integ := freqEstimate t.acq }
    match s.time.syncs.getLast?.bind fun e => s.offsetOf e.1 e.2 with
    | some th => (s.reportTheta th).acquired
    | none => s
  else s

/-- A record's closing local timestamp (R90). -/
def MeasRec.closing (r : MeasRec) : Int := if r.typ = 1 then r.b.toU else if r.typ = 2 then r.a.toU else r.d.toU

/-- The checks of R90 beyond the source. -/
def State.recordOk (s : State) (r : MeasRec) : Bool :=
  (r.typ = 1 || r.typ = (if bitOf (s.majW 0x3080).toNat 4 then 3 else 2)) &&
  r.gen = s.gen &&
  decide (r.a.ns ≤ 999999999) && decide (r.b.ns ≤ 999999999) && decide (r.c.ns ≤ 999999999) && decide (r.d.ns ≤ 999999999) &&
  decide (r.closing ≤ s.nowU) && decide (s.nowU ≤ r.closing + uSec)

/-- The latest accepted SYNC of a port (R91). -/
def State.syncOf (s : State) (p : Nat) : Option SyncRec := (s.time.syncs.find? fun e => e.1 == p).map Prod.snd

/-- A path sample passes the filter (R91). -/
def State.pathSample (s : State) (d : Int) : State :=
  let k := min 8 (s.get R.TIME_DELAY_FILT_DLY_AVG)
  let n := match s.time.dbar with
    | none => d
    | some b => b + rndShr (d - b) k
  let s := s.setTime fun t => { t with dbar := some n, acqPath := true }
  s.setN 0x30E8 (clampI 0 (2 ^ 32 - 1) n).toNat

/-- The path sample of an accepted delay record (R91). -/
def State.pathOf (s : State) (r : MeasRec) : Option Int :=
  if r.typ = 3 then some (rndDiv ((r.d.toU - r.a.toU) - (r.c.toU - r.b.toU) - r.corr) 2)
  else match s.syncOf r.port with
    | some y => some (rndDiv ((y.t2 - r.a.toU) + (r.b.toU - y.t1) - y.c - r.corr) 2)
    | none => none

/-- The loop of R92 on an error e, at the SYNC with ingress time t2. -/
def State.loopUpdate (s : State) (e t2 : Int) : State :=
  let t : Rat := match s.time.lastT2 with
    | some p => (min (t2 - p) (2 * uSec) : Int) / (uSec : Rat)
    | none => 0
  let ns : Rat := (e : Rat) / (uNs : Rat)
  let ki : Rat := (s.get R.TIME_SERVO_KI_KI : Rat) / 65536
  let kp : Rat := (s.get R.TIME_SERVO_KP_KP : Rat) / 65536
  let i : Rat := max (-250000) (min 250000 (s.time.integ + ki * ns * t))
  (s.setTime fun x => { x with integ := i, yLoop := -(i + kp * ns) }).steer

/-- What judges an accepted offset: LOCK_THR and UNLOCK_THR in ns, LOCK_CNT and UNLOCK_CNT (R95). -/
structure LockCfg where
  thr : Nat
  unThr : Nat
  cnt : Nat
  unCnt : Nat
  deriving DecidableEq, Repr

/-- The criteria that TIME's registers set. -/
def State.lockCfg (s : State) : LockCfg :=
  ⟨s.get R.TIME_LOCK_CFG_LOCK_THR, s.get R.TIME_UNLOCK_CFG_UNLOCK_THR,
    clampN 1 255 (s.get R.TIME_LOCK_CFG_LOCK_CNT), clampN 1 255 (s.get R.TIME_UNLOCK_CFG_UNLOCK_CNT)⟩

/-- An accepted offset in TRACK or LOCKED: outliers, the loop `upd` on the offset, lock criteria (R92, R95). -/
def State.trackWith (s : State) (c : LockCfg) (upd : State → Int → State) (y : SyncRec) : State :=
  let th := s.time.theta
  let unlockHit := decide ((c.unThr : Int) * uNs < th.natAbs)
  let s := s.setTime fun t => { t with unlockRun := if unlockHit then t.unlockRun + 1 else 0 }
  let outlier := decide ((s.get R.TIME_OUTLIER_CFG_OUT_THR : Int) * 100 * uNs < th.natAbs)
  let s :=
    if outlier then
      let s := ((s.addW R.TIME_MEAS_OUTLIER_COUNT 1).latch eTIME 6)
      s.setTime fun t => { t with outliers := t.outliers ++ [y], lockRun := 0 }
    else
      let s := s.setTime fun t => { t with
        outliers := []
        lockRun := if (th.natAbs : Int) ≤ (c.thr : Int) * uNs then t.lockRun + 1 else 0 }
      upd s th
  if clampN 1 255 (s.get R.TIME_OUTLIER_CFG_OUT_CNT) ≤ s.time.outliers.length then
    let recs := s.time.outliers
    (s.holdover 2).setTime fun t => { t with acq := recs }
  else if s.servo = tLocked ∧ c.unCnt ≤ s.time.unlockRun then s.enterServo tTrack 0
  else if s.servo = tTrack ∧ c.cnt ≤ s.time.lockRun then s.enterServo tLocked 0
  else s

/-- An accepted SYNC in TRACK or LOCKED. -/
def State.trackSync (s : State) (y : SyncRec) : State := s.trackWith s.lockCfg (fun s th => s.loopUpdate th y.t2) y

/-- An accepted SYNC record counts toward the acquisition; a gap longer than LOSS_TIMEOUT restarts the count (R94). After STAY the
source is ignored (R98). -/
def State.acqSync (s : State) (y : SyncRec) : State :=
  if s.time.ignore then s else
  let lim : Int := max 1 (s.get R.TIME_LOSS_TIMEOUT_MS) * 1000000 * uNs
  let kept := match s.time.acq.getLast? with
    | some l => if lim < y.t2 - l.t2 then [] else s.time.acq
    | none => []
  s.setTime fun t => { t with acq := kept ++ [y] }

/-- What an accepted SYNC does in each servo state (R92–R98). In any HOLDOVER but a forced one it starts an acquisition, that of a lost
REF_CLK_IN among them (DESIGN CHOICE, log entry 173). -/
def State.servoSync (s : State) (y : SyncRec) : State :=
  let st := s.servo
  if st = tHoldover then
    if s.is R.TIME_C_FORCE_HOLD || s.time.ignore then s
    else (s.acquire s.time.acq).acqSync y
  else if st = tAcquire then s.acqSync y
  else if s.time.dbar.isNone then s
  else if st = tTrack ∨ st = tLocked then s.trackSync y
  else if st = tSlewing then s.startSlew s.time.slewAcq
  else if st = tStepPending then s.loopUpdate (s.time.theta - s.time.thetaHold) y.t2
  else s

/-- Process an accepted SYNC (R91–R98); its t2 is the one before the next in the loop (R92). -/
def State.acceptSync (s : State) (r : MeasRec) : State :=
  let y : SyncRec := ⟨r.a.toU, r.b.toU, r.corr⟩
  let s := s.setTime fun t => { t with
    syncs := (t.syncs.filter fun e => e.1 != r.port) ++ [(r.port, y)]
    lastSync := s.slot }
  let s := s.putB R.TIME_S_REF_PRESENT true
  let s := match s.offsetOf r.port y with
    | some th => s.reportTheta th
    | none => s
  (s.servoSync y).setTime fun t => { t with lastT2 := some y.t2 }

/-- Process one record at the boundary (R90). -/
def State.processRecord (s : State) (r : MeasRec) : State :=
  if s.src ≠ 1 then s
  else if !s.recordOk r then (s.addW R.TIME_MEAS_REJECT_COUNT 1).latch eTIME 7
  else
    let s := s.addW R.TIME_MEAS_ACCEPT_COUNT 1
    let s := if r.typ = 1 then s.acceptSync r
      else match s.pathOf r with
        | some d => s.pathSample d
        | none => s
    s.tryAcquired

/-- Push the record window into the FIFO (R90). -/
def State.measPushOp (s : State) : State :=
  if 8 ≤ s.time.fifo.length then (s.addW R.TIME_MEAS_OVF_COUNT 1).latch eTIME 5
  else
    let s := s.setTime fun t => { t with fifo := t.fifo ++ [s.measRecord] }
    s.put R.TIME_MEAS_LEVEL_LEVEL s.time.fifo.length

/-- Empty the FIFO (R109). -/
def State.measFlushOp (s : State) : State := (s.setTime fun t => { t with fifo := [] }).put R.TIME_MEAS_LEVEL_LEVEL 0

/-- The mute sheet (R97). -/
def State.muteSheet (s : State) : Nat := s.n 0x30B0 + s.get R.TIME_MUTE_SHEET_HI_SHEET * 2 ^ 32

/-- ARMED clears when the device is past the mute sheet by any path other than its own step (R97), another step among them (DESIGN
CHOICE, log entry 175). -/
def State.muteSheetPassed (s : State) : State :=
  if s.is R.TIME_MUTE_SHEET_HI_ARMED && decide (s.muteSheet < s.sheet) then s.putB R.TIME_MUTE_SHEET_HI_ARMED false else s

/-- The loop of R92 on a phase measured once per sheet, with t = 125 µs (log entry 21). -/
def State.wclkLoop (s : State) (e : Int) : State :=
  let ns : Rat := (e : Rat) / (uNs : Rat)
  let ki : Rat := (s.get R.TIME_SERVO_KI_KI : Rat) / 65536
  let kp : Rat := (s.get R.TIME_SERVO_KP_KP : Rat) / 65536
  let i : Rat := max (-250000) (min 250000 (s.time.integ + ki * ns / 8000))
  (s.setTime fun x => { x with integ := i, yLoop := -(i + kp * ns) }).steer

/-- θ against the edge of WCLK_IN or TENM_IN, measured once per sheet (R87): the states of the servo on it (R92–R96). -/
def State.wclkTheta (s : State) (th : Int) : State :=
  let s := s.reportTheta th
  let st := s.servo
  if st = tHoldover then
    if s.is R.TIME_C_FORCE_HOLD || s.time.ignore then s else s.acquire []
  else if st = tTrack ∨ st = tLocked then s.trackWith s.lockCfg State.wclkLoop ⟨0, s.nowU, 0⟩
  else if st = tSlewing then s.startSlew s.time.slewAcq
  else if st = tStepPending then s.wclkLoop (th - s.time.thetaHold)
  else s

/-- A phase taken modulo a house sample, at most half of one (R87). -/
def wrapPhase (th : Int) : Int := th - rndDiv (rndDiv (6 * th) uSheet * uSheet) 6

/-- θ of a word-clock source from the device's lead over its rising edge (R87): the house-sample boundary belongs at the selected edge
plus WCLK_IN_OFS; the falling edge comes a high time of the input later. TENM_IN has neither. -/
def State.edgeTheta (s : State) (lead : Int) : Int :=
  if s.src = 2 then
    wrapPhase (lead + (if s.is R.TIME_REF_SEL_WCLK_EDGE then Config.wclkHigh else 0) + rndDiv (s.getI R.TIME_WCLK_IN_OFS_CYC * 625 * 65536) 384)
  else wrapPhase lead

/-- The sheet's phase of a WCLK_IN or TENM_IN that is present: a free value, as no row carries it (log entry 21). -/
def State.wclkSheet (s : State) : State :=
  if (s.src = 2 ∨ s.src = 3) ∧ s.is R.TIME_S_REF_PRESENT ∧ s.servo ≠ tAcquire then
    let (k, s) := s.draw
    s.wclkTheta (s.edgeTheta (Config.freeInt k))
  else s

/-- A manager with active workers decides the step at an armed mute sheet at least 16 sheets ahead, with the θ of that time; a mute
sheet that is disarmed or moved takes its step with it (R97, R101). -/
def State.mutePlan (s : State) : State :=
  let armed := s.is R.TIME_MUTE_SHEET_HI_ARMED && s.servo = tStepPending
  let due := s.slot + (s.muteSheet - s.sheet)
  let s := s.setTime fun t => { t with steps := t.steps.filter fun q => q.why != .mute || (armed && q.due == due) }
  if s.stepLead && armed && decide (s.sheet + 16 ≤ s.muteSheet) && !s.stepFor (· == .mute) then
    s.addStep ⟨due, stepD s.time.theta, .mute⟩
  else s

/-- D of an HSI_SET at the current boundary (R102). -/
def State.hsiSetD (s : State) : Int := ((s.get64 0x30D0 / 6 : Nat) : Int) - (s.hsi / 6 : Nat)

/-- A manager with active workers takes the value of HSI_SET at the boundary after the command, and announces the step that sets the HSI
to it 16 sheets later (R101, R102). -/
def State.hsiSetPlan (s : State) : State :=
  if s.stepLead && (s.time.steps.any fun q => q.why == .hsiSet && q.due ≤ s.slot) then
    let d := s.hsiSetD - 16
    let s := s.setTime fun t => { t with steps := t.steps.filter fun q => q.why != .hsiSet }
    if d = 0 then s else s.addStep ⟨s.slot + 16, d, .ring⟩
  else s

/-- TIME at a sheet boundary: CLK applies the new y (R77), then TIME takes every record of the FIFO in push order
(R90) and measures the phase of a word clock (R87). -/
def State.timeBoundary (s : State) : State :=
  let s := s.putI R.TIME_FREQ_ADJ_Y s.time.yNext
  let recs := s.time.fifo
  let s := s.measFlushOp
  let s := s.each recs fun s r => s.processRecord r
  s.wclkSheet.freeReturn.muteSheetPassed.mutePlan.hsiSetPlan

/-- A record in the numbering after a step by D sheets. -/
def SyncRec.moved (d : Int) (y : SyncRec) : SyncRec := { y with t2 := y.t2 + d * uSheet }

/-- TIME's part of a step by D sheets (R99, R100): false where it is not made. Local times that TIME still uses, those of an
acquisition among them, take the new numbering (DEDUCED, log entry 24). -/
def State.stepTime (s : State) (d : Int) : Bool × State :=
  if d = 0 then (false, s)
  else if (s.hsi : Int) + 6 * d < 0 then (false, s.enterServo tReanchor 0)
  else
    let s := { s with hsi := ((s.hsi : Int) + 6 * d).toNat }
    let s := s.put R.TIME_SERVO_STATE_GEN (s.gen + 1)
    let s := (s.addS R.TIME_STEP_CNT_COUNT 1).set64 0x30F8 (satTz 64 d)
    let s := s.setTime fun t => { t with
      syncs := t.syncs.map fun e => (e.1, e.2.moved d)
      acq := t.acq.map (SyncRec.moved d)
      outliers := t.outliers.map (SyncRec.moved d)
      lastT2 := t.lastT2.map fun x => x + d * uSheet }
    (true, s.latch eTIME 4)

/-- After a step that removes θ: the residual is slewed (R99). -/
def State.slewResidual (s : State) (d : Int) (acqRate : Bool) : State :=
  (s.reportTheta (s.time.theta + d * uSheet)).startSlew acqRate

/-- A capture of one fabric cycle (R110). -/
def State.captureOp (s : State) : State :=
  let s := (s.put R.TIME_CAP_PHASE_PH s.ph).put R.TIME_CAP_PHASE_GEN s.gen
  s.set64 0x30C8 (s.hsiNow % 2 ^ 64)

/-- HSI_SET_CMD[APPLY] (R102): a step is requested at the next boundary; while one is pending, a further APPLY has no effect. -/
def State.hsiSetOp (s : State) : State :=
  let st := s.servo
  if (st = tFreerun ∨ st = tAcquire ∨ st = tHoldover ∨ st = tReanchor) ∧ s.src ≠ 4 then
    if s.stepFor fun w => w == .hsiSet || (w == .ring && s.role == 0) then s else s.addStep ⟨s.slot + 1, 0, .hsiSet⟩
  else s.latch eTIME 9

/-- REANCHOR[ACTION] written in REANCHOR_WAIT (R98). A step without an armed mute sheet takes its D from θ at the write (DESIGN CHOICE,
log entry 176). -/
def State.reanchorOp (s : State) (action : Nat) : State :=
  if s.servo ≠ tReanchor then s
  else if action = 1 then s.startSlew false
  else if action = 2 then
    let armed := s.is R.TIME_MUTE_SHEET_HI_ARMED
    let s := (s.setTime fun t => { t with thetaHold := t.theta, yLoop := -t.integ }).enterServo tStepPending 0
    if armed ∨ s.servo ≠ tStepPending then s else s.addStep ⟨s.slot16, stepD s.time.theta, .reanchor⟩
  else if action = 3 then (s.setTime fun t => { t with ignore := true }).enterServo tHoldover s.time.reason
  else s

/-- The selected reference is lost (R93): for PTP only once LOSS_TIMEOUT has passed since the last accepted SYNC. -/
def State.sourceLossOp (s : State) : State :=
  if s.src = 0 then s
  else if s.src = 1 ∧ s.slot < s.time.lastSync + 8 * max 1 (s.get R.TIME_LOSS_TIMEOUT_MS) then s
  else if s.src = 4 ∧ (s.ring.ports.any fun e => e.2.last.any fun l => decide (s.slot < l + 8)) then s
  else
    let s := s.putB R.TIME_S_REF_PRESENT false
    if steering s.servo then s.holdover 1
    else if s.servo = tAcquire then s.setTime fun t => { t with acq := [] }
    else s

/-- A WCLK_IN or TENM_IN source is present (again) (R87, R93). -/
def State.sourceReturnOp (s : State) : State :=
  if s.src = 2 ∨ s.src = 3 then
    let s := if s.is R.TIME_S_REF_PRESENT then s else s.setTime fun t => { t with acqSince := s.slot }
    let s := s.putB R.TIME_S_REF_PRESENT true
    if s.servo = tHoldover ∧ s.is R.TIME_C_FORCE_HOLD = false ∧ s.time.ignore = false then s.acquire [] else s
  else s

/-- Acquisition from WCLK_IN or TENM_IN (R94): the source has been present for 64 consecutive sheets in ACQUIRE. -/
def State.wclkAcquireOp (s : State) (freqErr lead : Int) : State :=
  if s.servo = tAcquire ∧ (s.src = 2 ∨ s.src = 3) ∧ s.is R.TIME_S_REF_PRESENT ∧ s.time.ignore = false ∧ s.time.acqSince + 64 ≤ s.slot then
    let s := s.setTime fun t => { t with integ := freqErr }
    let s := (s.reportTheta (s.edgeTheta lead)).putB R.TIME_SERVO_STATE_ANCHORED true
    s.startSlew true
  else s

/-- The planned slew ends (R96). -/
def State.slewEndOp (s : State) : State :=
  if s.servo = tSlewing ∧ s.time.slewEnd ≤ s.slot then
    (s.setTime fun t => { t with theta := 0, yLoop := -t.integ }).enterServo tTrack 0
  else s

/-! APSAL as the source (13_apsal_systems R399, R400). -/

/-- ωn = 2π BW as a rational (log entry 10). -/
def State.apsOmega (s : State) : Rat :=
  2 * ((fxPi : Rat) / (fx1 : Rat)) * (clampN 1 100 (s.get R.RING_ALIGN_CFG_BW) : Nat)

/-- The loop of R92 with t = 125 µs, KP = √2 ωn and KI = ωn². -/
def State.apsLoop (s : State) (e : Int) : State :=
  let w := s.apsOmega
  let ns : Rat := (e : Rat) / (uNs : Rat)
  let i : Rat := max (-250000) (min 250000 (s.time.integ + w * w * ns / 8000))
  let r2 : Rat := (fxSqrt (2 * fx1) : Rat) / (fx1 : Rat)
  (s.setTime fun x => { x with integ := i, yLoop := -(i + r2 * w * ns) }).steer

/-- An acquisition completes: one step at first lock; later a large offset waits for a re-anchor and latches
SHEET_MISMATCH; otherwise the residual is slewed at ACQ_SLEW. -/
def State.apsAcquired (s : State) : State :=
  let th := s.time.theta
  if !s.anchored then
    if stepD th = 0 then (s.putB R.TIME_SERVO_STATE_ANCHORED true).startSlew true
    else (s.addStep ⟨s.slot + 1, stepD th, .firstLock⟩).setTime fun t => { t with acq := [] }
  else if 62500 * 65536 ≤ th.natAbs then (s.enterServo tReanchor 0).latch eRING 6
  else s.startSlew true

/-- θ of a valid frame of the timing leg; `ready` says whether 8 consecutive valid frames and a path sample are in. -/
def State.apsFrame (s : State) (th : Int) (ready : Bool) : State :=
  let s := s.setTime fun t => { t with lastSync := s.slot }
  let s := (s.putB R.TIME_S_REF_PRESENT true).reportTheta th
  let st := s.servo
  if st = tHoldover then
    if s.is R.TIME_C_FORCE_HOLD || s.time.ignore then s else s.acquire []
  else if st = tAcquire then (if ready && !s.time.ignore && !s.stepFor (· == .firstLock) then s.apsAcquired else s)
  else if st = tTrack ∨ st = tLocked then
    s.trackWith ⟨s.get R.RING_ALIGN_CFG_LOCK_THR, s.get R.RING_ALIGN_CFG_UNLOCK_THR, 64, 8⟩ State.apsLoop ⟨0, s.nowU, 0⟩
  else if st = tSlewing then s.startSlew s.time.slewAcq
  else if st = tStepPending then s.apsLoop (th - s.time.thetaHold)
  else s

end Sys2Proof.Machine
end

