-- ==== Sys2Proof/Machine/Audio.lean ====
section
/-! DEFINITION. Samples between blocks (01_signal_path R22–R28): every node's sheet is kept under the slot that processed it; a
consumer reads it λ + pad slots later, so a pad is a distance and a pad change is a crossfade between two distances (R26). -/

namespace Sys2Proof.Machine

/-- Node classes. -/
def aInput : Nat := 0
def aTest : Nat := 1
def aSpk : Nat := 2
def aAux : Nat := 3
def aIeOut : Nat := 4
def aOutSink : Nat := 5
def aIeIn : Nat := 6
def aAuxIn : Nat := 7
def aGroup : Nat := 8
def aResult : Nat := 9
def aRaw : Nat := 10
def aDc : Nat := 11

/-- Further node classes: the tree sum of an auxiliary bus before conversion, trimmed outputs, sends to CONV, deckle inputs. -/
def aAuxSum : Nat := 13
def aTrim : Nat := 14
def aSend : Nat := 15
def aPre : Nat := 16

def aKey (cls idx slot : Nat) : Nat := (cls * 65536 + idx) * 2 ^ 64 + slot

/-- Nothing stored: silence. -/
def silence : Nat → List Int := fun _ => []

/-- A list of samples, with zeros for what is absent. -/
def padTo (n : Nat) (l : List Int) : List Int := (l ++ List.replicate (n - l.length) 0).take n

/-- The sheet that a node produced in a slot. -/
def State.sheetOf (s : State) (cls idx slot : Nat) : List Int := padTo 6 (tget silence s.audio (aKey cls idx slot))

/-- Store a sheet; silence is not stored. -/
def State.putSheet (s : State) (cls idx slot : Nat) (l : List Int) : State :=
  { s with audio := tset silence s.audio (aKey cls idx slot) (if l.all (· = 0) then [] else l) }

/-- Drop the sheets of some classes (R100). -/
def State.dropAudio (s : State) (p : Nat → Bool) : State := { s with audio := tdrop (fun k => p (k / 2 ^ 80)) s.audio }

/-- Edges of the path graph that hold a pad (R22, R23). -/
def eInput (c : Nat) : Nat := c
def eObject (o : Nat) : Nat := 0x10000 + o
/-- The edge into lane j of TX context t from its source: an output result by number, or 512 for its channel group. -/
def eTx (t lane src : Nat) : Nat := 0x2000000 + (64 * t + lane) * 1024 + src
/-- The edge from node (class, index) to route-matrix sink (class, index). -/
def eRoute (sc si kc ki : Nat) : Nat := 0x100000000 + ((sc * 1024 + si) * 16 + kc) * 1024 + ki

/-- The slot that a read with a pad reaches: λ + pad slots back. -/
def backSlot (slot d : Nat) : Option Nat := if d ≤ slot then some (slot - d) else none

/-- The read at a pad is silent in a slot: a commit chose that pad in place of a shorter one, and the first sheet that the fade-out over
8 sheets has not carried has not arrived (R26). `h` holds that commit and those before it. -/
def padSilent (h : List (Nat × Nat)) (p slot : Nat) : Bool :=
  h.any fun e => decide (e.1 ≤ slot) && decide (e.2 < p) && decide (slot < e.1 + 8 + (p - e.2))

/-- The signal of an edge with pad p after the commits of `h` (R26): each commit's new signal fades in over 48 samples while the
signal that went before it, with whatever of its own fades still runs, fades out. -/
def padSignal (get : Nat → List Int) (slot : Nat) : Nat → List (Nat × Nat) → List Int
  | p, [] => get p
  | p, (c, d) :: t =>
    if slot < c then padSignal get slot d t
    else
      let new := if padSilent ((c, d) :: t) p slot then padTo 6 [] else get p
      let i0 := 6 * (slot - c)
      if 48 ≤ i0 then new
      else (List.zip (padSignal get slot d t) new).zipIdx.map fun x => blendW x.1.1 x.1.2 (vWin 48 (i0 + x.2))

/-- The commits that changed the pad of an edge, newest first: the slot, and the pad before. -/
def State.padSteps (s : State) (e : Nat) : List (Nat × Nat) := tget (fun _ => []) s.padHist e

/-- A sheet read over an edge in a slot (R26). -/
def State.edgeRead (s : State) (e lam slot : Nat) (rd : Nat → List Int) : List Int :=
  padSignal (fun p => match backSlot slot (lam + p) with | some x => rd x | none => padTo 6 []) slot
    (tget zeroAt s.pads e) (s.padSteps e)

/-- Slots for which a commit's pads are remembered: more than any read reaches back (S is at most 800). -/
def padMemory : Nat := 4096

/-- The pads of the edges of a new schedule (R26). `olds` and `news` are the edges before and after: an edge of both whose pad
changes crossfades, an edge that is new takes its pad at once, and one that is no more keeps its pad for what still reads it. -/
def State.setPads (s : State) (pads : Tab Nat) (olds news : List Nat) : State :=
  let p0 (e : Nat) : Nat := tget zeroAt s.pads e
  let p1 (e : Nat) : Nat := tget zeroAt pads e
  let both := (List.range 1024).map eInput ++ news.filter olds.contains
  let gone := (s.pads.map Prod.fst).filter fun e => decide (0x20000 ≤ e) && !news.contains e
  let hist := (news.filter fun e => !olds.contains e).foldl (fun t e => tset (fun _ => []) t e []) s.padHist
  { s with
    pads := tsetAll zeroAt pads (gone.map fun e => (e, p0 e))
    padHist := (both.filter fun e => p0 e != p1 e).foldl (fun t e =>
      tset (fun _ => []) t e ((s.slot, p0 e) :: (s.padSteps e).filter fun h => decide (s.slot < h.1 + padMemory))) hist
    padSlot := s.slot }

/-- A pad of an edge that a fade still reads, or the pad in force, is p. -/
def State.padInUse (s : State) (e p : Nat) : Bool :=
  tget zeroAt s.pads e == p || (s.padSteps e).any fun h => h.2 == p && decide (s.slot < h.1 + 8)

/-- Input channel c as its consumers find it when node c is processed in a slot (R28). -/
def State.inputAt (s : State) (c slot : Nat) : List Int := s.edgeRead (eInput c) 0 slot fun x => s.sheetOf aInput c x

end Sys2Proof.Machine
end

