-- ==== Sys2Proof/Machine/ConvArea.lean ====
section
/-! DEFINITION. What lies where in CONV's area of the shared SRAM (09_room_correction R291): the parts in the order of its table, each
by output, in 32-bit words. -/

namespace Sys2Proof.Machine

/-- A 32-bit word of CONV's area: a sample of a send ring, a component of a stage-1 send spectrum, a sample of a return buffer's half, a
head coefficient, a slot of a stage-1 coefficient spectrum (two 16-bit components), or a word of the tables. -/
inductive ConvItem where
  | ring (o i : Nat)
  | spec (o e i : Nat)
  | ret1 (o h i : Nat)
  | ret2 (o h i : Nat)
  | head (o set k : Nat)
  | coef (o set p k : Nat)
  | table
  deriving DecidableEq, Repr

/-- Where the parts begin, in bytes from the area's first. -/
def cvSpec : Nat := 2176 * 1024
def cvRet1 : Nat := 5760 * 1024
def cvRet2 : Nat := 6016 * 1024
def cvHead : Nat := 8064 * 1024
def cvCoef : Nat := 8576 * 1024
def cvTable : Nat := 12160 * 1024
def cvEnd : Nat := 12288 * 1024

/-- The item at byte offset x of the area. -/
def convItem (x : Nat) : ConvItem :=
  if x < cvSpec then .ring (x / 4352) (x % 4352 / 4)
  else if x < cvRet1 then let y := x - cvSpec; .spec (y / 7168) (y % 7168 / 512) (y % 512 / 4)
  else if x < cvRet2 then let y := x - cvRet1; .ret1 (y / 512) (y % 512 / 256) (y % 256 / 4)
  else if x < cvHead then let y := x - cvRet2; .ret2 (y / 4096) (y % 4096 / 2048) (y % 2048 / 4)
  else if x < cvCoef then let y := x - cvHead; .head (y / 1024) (y % 1024 / 512) (y % 512 / 4)
  else if x < cvTable then let y := x - cvCoef; .coef (y / 7168) (y % 7168 / 3584) (y % 3584 / 256) (y % 256 / 4)
  else .table

/-- The latest send sample that the ring holds at position i. -/
def State.ringSample (s : State) (i : Nat) : Option Nat :=
  let l := 6 * s.conv.n
  if l ≤ i then none else some (l - 1 - (l - 1 - i) % 1088)

def ConvSt.tab (c : ConvSt) (set : Nat) : Tab Derived := if set = 0 then c.setA else c.setB
def ConvSt.setTab (c : ConvSt) (set : Nat) (t : Tab Derived) : ConvSt := if set = 0 then { c with setA := t } else { c with setB := t }
def State.derived (s : State) (set o : Nat) : Derived := tget (fun _ => Derived.empty) (s.conv.tab set) o

def State.setDerived (s : State) (set o : Nat) (d : Derived) : State :=
  { s with conv := s.conv.setTab set (tset (fun _ => Derived.empty) (s.conv.tab set) o d) }

/-- The stage-1 send spectrum in delay-line entry e of output o, packed (R284). -/
def State.specEntry (s : State) (o e : Nat) : List Int := padTo 128 (tget silence s.conv.x1 (14 * o + e))

def State.setSpec (s : State) (o e : Nat) (l : List Int) : State :=
  { s with conv := { s.conv with x1 := tset silence s.conv.x1 (14 * o + e) (if l.all (· = 0) then [] else l) } }

/-- The key of a return block: output block m, set and output. -/
def retKey (m set o : Nat) : Nat := (m * 2 + set) * 512 + o

/-- Change sample i of the blocks of output o in half h of a return buffer. -/
def setRet (t : Tab (List Int)) (o h i : Nat) (v : Int) : Tab (List Int) :=
  t.map fun e => if e.1 % 512 = o ∧ e.1 / 1024 % 2 = h then (e.1, e.2.set i v) else e

/-- The 32 bits of an item that holds something the manual gives a format; none for a return sample, whose 32 bits R291 does not
state, for the tables, and for what an empty head or partition does not store. -/
def State.convGet (s : State) : ConvItem → Option Nat
  | .ring o i => some (match s.ringSample i with
    | some u => tz 32 ((s.sheetOf aSend o (u / 6)).getD (u % 6) 0)
    | none => 0)
  | .spec o e i => some (tz 32 ((s.specEntry o e).getD i 0))
  | .ret1 _ _ _ => none
  | .ret2 _ _ _ => none
  | .head o set k => ((s.derived set o).head[k]?).map (tz 32)
  | .coef o set p k => ((s.derived set o).s1.getD p [])[k]?.map fun c =>
      if k = 0 then tz 16 c.1 + tz 16 (((s.derived set o).s1.getD p []).getD 64 (0, 0)).1 * 2 ^ 16
      else tz 16 c.1 + tz 16 c.2 * 2 ^ 16
  | .table => none

/-- A slot of an unpacked coefficient spectrum takes 32 bits. -/
def setCoef (l : List (Int × Int)) (k v : Nat) : List (Int × Int) :=
  let re := sx 16 (v % 2 ^ 16)
  let im := sx 16 (v / 2 ^ 16 % 2 ^ 16)
  if k = 0 then (l.set 0 (re, 0)).set 64 (im, 0) else l.set k (re, im)

/-- An item takes 32 bits; `r` is what they mean as a return sample. -/
def State.convSet (s : State) (v : Nat) (r : Int) : ConvItem → State
  | .ring o i => match s.ringSample i with
    | some u => s.putSheet aSend o (u / 6) ((s.sheetOf aSend o (u / 6)).set (u % 6) (sx 32 v))
    | none => s
  | .spec o e i => s.setSpec o e ((s.specEntry o e).set i (sx 32 v))
  | .ret1 o h i => { s with conv := { s.conv with y1 := setRet s.conv.y1 o h i r } }
  | .ret2 o h i => { s with conv := { s.conv with y2 := setRet s.conv.y2 o h i r } }
  | .head o set k =>
    let d := s.derived set o
    if d.head.isEmpty then s else s.setDerived set o { d with head := d.head.set k (sx 32 v) }
  | .coef o set p k =>
    let d := s.derived set o
    if (d.s1.getD p []).isEmpty then s else s.setDerived set o { d with s1 := d.s1.set p (setCoef (d.s1.getD p []) k v) }
  | .table => s

/-- The byte of CONV's area at fabric address a, where an item holds it. -/
def State.convByte (s : State) (a : Nat) : Option Byte :=
  if 0x10000000 ≤ a ∧ a < 0x10000000 + cvEnd then
    (s.convGet (convItem (a - 0x10000000))).map fun v => BitVec.ofNat 8 (v / 2 ^ (8 * (a % 4)))
  else none

/-- Bytes written into CONV's area from outside: the items change. -/
def State.convBytes (s : State) (a : Nat) (data : List Byte) : State :=
  data.zipIdx.foldl (fun s x =>
    let b := a + x.2
    if 0x10000000 ≤ b ∧ b < 0x10000000 + cvEnd then
      let it := convItem (b - 0x10000000)
      let v := putBits ((s.convGet it).getD 0) (8 * (b % 4) + 7) (8 * (b % 4)) x.1.toNat
      s.convSet v (Config.retSample v) it
    else s) s

/-- The word of 24 bytes at fabric address a is poisoned: what CONV held there reads as zero (R290). -/
def State.loseConv (s : State) (a : Nat) : State :=
  if 0x10000000 ≤ a ∧ a < 0x10000000 + cvEnd then
    s.upto 6 fun s i => if a + 4 * i < 0x10000000 + cvEnd then s.convSet 0 0 (convItem (a + 4 * i - 0x10000000)) else s
  else s

end Sys2Proof.Machine
end

