-- ==== Sys2Proof/Machine/Ecc.lean ====
section
/-! DEFINITION. The Reed–Solomon code of 11_memory_fabric R345 and 12_dram R368 over GF(2^8), as a function of the error pattern
alone: the code is linear, so what the decoder makes of a word depends only on the bytes by which it differs from its
codeword. An error pattern is a number whose byte i (bits 8i+7:8i) is the error of codeword byte i. -/

namespace Sys2Proof.Machine

/-- Multiplication by α = 0x02 modulo x^8 + x^4 + x^3 + x^2 + 1. -/
def gfX (a : Nat) : Nat := if a < 128 then 2 * a else (2 * a) ^^^ 0x11D

/-- Multiplication in GF(2^8): the low n bits of b, from the top. -/
def gfMulGo (a b : Nat) : Nat → Nat → Nat
  | 0, r => r
  | n + 1, r => gfMulGo a b n (gfX r ^^^ (if b.testBit n then a else 0))

def gfMul (a b : Nat) : Nat := gfMulGo a b 8 0

/-- Powers of an element. -/
def gfPow (a : Nat) : Nat → Nat
  | 0 => 1
  | n + 1 => gfMul a (gfPow a n)

/-- The inverse of a nonzero element. -/
def gfInv (a : Nat) : Nat := gfPow a 254

/-- Byte i of an error pattern. -/
def errByte (e i : Nat) : Nat := e / 2 ^ (8 * i) % 256

/-- Syndrome j of an n-byte word whose byte i is the coefficient of x^(n−1−i): the error polynomial at α^j. -/
def syndrome (n e j : Nat) : Nat :=
  (List.range n).foldl (fun r i => gfMul r (gfPow 2 j) ^^^ errByte e i) 0

/-- The pattern that one byte error of value v at byte i makes. -/
def oneErr (i v : Nat) : Nat := v * 2 ^ (8 * i)

/-- The correction of weight one with the given syndromes, if there is one. -/
def decode1 (n s0 s1 s2 s3 : Nat) : Option Nat :=
  match (List.range n).find? fun i =>
    let a := gfPow 2 (n - 1 - i)
    s0 != 0 && gfMul s0 a == s1 && gfMul s1 a == s2 && gfMul s2 a == s3 with
  | some i => some (oneErr i s0)
  | none => none

/-- The two values at bytes i and j that explain syndromes 0 and 1. -/
def pairVals (n s0 s1 i j : Nat) : Nat × Nat :=
  let a := gfPow 2 (n - 1 - i)
  let b := gfPow 2 (n - 1 - j)
  let v := gfMul (s1 ^^^ gfMul a s0) (gfInv (a ^^^ b))
  (s0 ^^^ v, v)

/-- Whether errors of those values at bytes i and j give all four syndromes. -/
def pairFits (n s0 s1 s2 s3 i j : Nat) : Bool :=
  let a := gfPow 2 (n - 1 - i)
  let b := gfPow 2 (n - 1 - j)
  let p := pairVals n s0 s1 i j
  p.1 != 0 && p.2 != 0 &&
  gfMul p.1 (gfMul a a) ^^^ gfMul p.2 (gfMul b b) == s2 &&
  gfMul p.1 (gfPow a 3) ^^^ gfMul p.2 (gfPow b 3) == s3

/-- The correction of weight two with the given syndromes, if there is one. -/
def decode2 (n s0 s1 s2 s3 : Nat) : Option Nat :=
  (List.range n).findSome? fun j =>
    (List.range j).findSome? fun i =>
      if pairFits n s0 s1 s2 s3 i j then
        let p := pairVals n s0 s1 i j
        some (oneErr i p.1 ^^^ oneErr j p.2)
      else none

/-- The bounded-distance decoder: the correction of at most two bytes that it applies to an n-byte word with error
pattern e, or none where no codeword lies within two bytes (R345). -/
def rsDecode (n e : Nat) : Option Nat :=
  let s0 := syndrome n e 0
  let s1 := syndrome n e 1
  let s2 := syndrome n e 2
  let s3 := syndrome n e 3
  if s0 = 0 ∧ s1 = 0 ∧ s2 = 0 ∧ s3 = 0 then some 0
  else match decode1 n s0 s1 s2 s3 with
    | some d => some d
    | none => decode2 n s0 s1 s2 s3

end Sys2Proof.Machine
end

