-- ==== Sys2Proof/Machine/Fab.lean ====
section
/-! DEFINITION. Masters, targets, access tables and the logs of FAB (11_memory_fabric R351–R356). -/

namespace Sys2Proof.Machine

/-- The secure masters (R52). -/
def isSecure (m : Nat) : Bool := m = 0 || m = 2 || m = 3

/-- The register that holds the reset group of a checked master, and the field's low bit (R351, R362). -/
def mgrpOf (m : Nat) : Option (Nat × Nat) :=
  if m ≤ 3 then some (0xA0100, 4 * m)
  else if 8 ≤ m ∧ m ≤ 0x0B then some (0xA0104, 4 * (m - 8))
  else if 0x38 ≤ m ∧ m ≤ 0x3F then some (0xA0108, 4 * (m - 0x38))
  else if 0x40 ≤ m ∧ m ≤ 0x42 then some (0xA010C, 4 * (m - 0x40))
  else none

/-- Region r of a target's access table holds all n bytes at a and grants the group the access (R355). -/
def State.regionGrants (s : State) (target r g a n : Nat) (write : Bool) : Bool :=
  let perm := (s.majW (atKey target r 0)).toNat
  let base := (s.majW (atKey target r 1)).toNat / 0x1000 * 0x1000 + (s.majW (atKey target r 2)).toNat % 256 * 2 ^ 32
  let limit := (s.majW (atKey target r 3)).toNat / 0x1000 * 0x1000 + 0xFFF + (s.majW (atKey target r 4)).toNat % 256 * 2 ^ 32
  bitOf perm 31 && bitOf perm (2 * g + b2n write) && decide (base ≤ a) && decide (a + n ≤ limit + 1)

/-- Whether the access tables allow a request (R355). -/
def State.allowed (s : State) (m target a n : Nat) (write : Bool) : Bool :=
  match mgrpOf m with
  | none => true
  | some (k, lo) =>
    let g := bits (s.majW k).toNat (lo + 2) lo
    (List.range 16).any fun r => s.regionGrants target r g a n write

/-- The target of an address (R352); 7 for the default target. -/
def targetOf (a : Nat) : Nat :=
  if a < 0x1000000 then 0
  else if 0x117C0000 ≤ a ∧ a ≤ 0x117DFFFF then 2
  else if 0x10000000 ≤ a ∧ a ≤ 0x117FFFFF then 1
  else if 0x20000000 ≤ a ∧ a ≤ 0x21FFFFFF ∧ a % 0x100000 < 0xC0000 then 3
  else if 0x1000000000 ≤ a ∧ a ≤ 0x11FFFFFFFF then 4
  else 7

/-- FAB logs a DERR, a TERR of R52 rule 3 or a denial (R353, R361): cause DECODE 0, DOMAIN_OFF 1, DENIED 2. -/
def State.errLog (s : State) (m a : Nat) (write : Bool) (cause target : Nat) : State :=
  if !s.pageOn eFAB then s
  else
    let s := (s.setN 0xA0080 a).setN 0xA0084 (a / 2 ^ 32)
    let s := s.setN 0xA0088 (m % 128 + b2n write * 2 ^ 8 + cause * 2 ^ 9 + target * 2 ^ 12)
    (s.addS R.FAB_ERR_CNT_COUNT 1).latch eFAB cause

/-- FAB logs a GUARD_HIT (R52 rule 5, R353). -/
def State.guardHit (s : State) (m a : Nat) (write : Bool) : State :=
  if !s.pageOn eFAB then s
  else
    let s := (s.setN 0xA0090 (a % 2 ^ 24)).setN 0xA0094 (m % 128 + b2n write * 2 ^ 8)
    (s.addS R.FAB_GUARD_CNT_COUNT 1).latch eFAB 3

/-- The masters of R351; the ID of another is never issued. -/
def masterExists (m : Nat) : Bool :=
  decide (m ≤ 3) || (decide (0x08 ≤ m) && decide (m ≤ 0x0D)) || (decide (0x10 ≤ m) && decide (m ≤ 0x35)) ||
    (decide (0x38 ≤ m) && decide (m ≤ 0x42)) || (decide (0x44 ≤ m) && decide (m ≤ 0x47))

/-- A request that is not made: its master does not exist, or it would come over PCIe while the link does not run
or HOST is in reset (16_electrical R473, R476). -/
def State.noRequest (s : State) (m : Nat) : Bool :=
  !masterExists m || (decide (m ≤ 1) && (s.pwr.perst || s.pwr.inReset.isSome || s.pwr.off || !s.domOn 1))

/-- Whether the tables allow a request; a denial is logged (R353, R355). -/
def State.permit (s : State) (m target a n : Nat) (write : Bool) : Bool × State :=
  if s.allowed m target a n write then (true, s) else (false, s.errLog m a write 2 target)

/-- The longest aligned access that starts at a and does not pass n bytes; registers take up to 8. -/
def pieceLen (a n : Nat) : Nat :=
  (([64, 32, 16, 8, 4, 2].filter fun w => decide (w ≤ 8) || targetOf a != 0).find? fun w => decide (a % w = 0) && decide (w ≤ n)).getD 1

/-- The aligned pieces of a block, in ascending order; the first argument bounds their number. -/
def blockPieces : Nat → Nat → List Byte → List (Nat × List Byte)
  | 0, _, _ => []
  | _, _, [] => []
  | k + 1, a, b :: t =>
    let n := pieceLen a (b :: t).length
    (a, (b :: t).take n) :: blockPieces k (a + n) ((b :: t).drop n)

end Sys2Proof.Machine
end

