-- ==== Sys2Proof/Machine/Sram.lean ====
section
/-! DEFINITION. The on-chip SRAM (11_memory_fabric R341–R350, R364): ECC words, correction and poison, the scrubber, error
injection. A word's stored bytes are the bytes of `mem` with its error pattern added. -/

namespace Sys2Proof.Machine

/-- What an unlisted byte of SRAM or DRAM reads as: zero, as initialisation leaves it (R349, R371). -/
def memZero : Nat → Byte := fun _ => 0

def State.byte (s : State) (a : Nat) : Byte := tget memZero s.mem a

def State.setByte (s : State) (a : Nat) (b : Byte) : State := { s with mem := tset memZero s.mem a b }

/-- Set the error pattern of a stored SRAM word, the three copies of its poison bit, and the error pattern of a DRAM line. -/
def State.setSramErr (s : State) (w e : Nat) : State := { s with sramErr := tset zeroAt s.sramErr w e }
def State.setPoison (s : State) (w : Nat) (b : Bool) : State := { s with poison := tset zeroAt s.poison w (if b then 7 else 0) }
def State.setDramErr (s : State) (l e : Nat) : State := { s with dramErr := tset zeroAt s.dramErr l e }

/-- Write bytes at ascending addresses. -/
def State.putBytes (s : State) : Nat → List Byte → State
  | _, [] => s
  | a, b :: t => (s.setByte a b).putBytes (a + 1) t

/-- Read n bytes at ascending addresses. -/
def State.bytes (s : State) (a n : Nat) : List Byte := (List.range n).map fun i => s.byte (a + i)

/-- Words of the shared part and of one vat-local part (R342). -/
def sharedWords : Nat := 1048576
def vatWords : Nat := 32768

/-- The SRAM word, numbered as SCRUB_POS numbers words, that holds a fabric address (R341, R342, R364). -/
def sramWord (a : Nat) : Option Nat :=
  if 0x10000000 ≤ a ∧ a ≤ 0x117FFFFF then some ((a - 0x10000000) / 24)
  else if 0x20000000 ≤ a ∧ a ≤ 0x21FFFFFF ∧ a % 0x100000 < 0xC0000 then
    some (sharedWords + vatWords * ((a - 0x20000000) / 0x100000) + a % 0x100000 / 24)
  else none

/-- The fabric address of the first byte of a word. -/
def sramBase (w : Nat) : Nat :=
  if w < sharedWords then 0x10000000 + 24 * w
  else 0x20000000 + 0x100000 * ((w - sharedWords) / vatWords) + 24 * ((w - sharedWords) % vatWords)

/-- The vat of a vat-local word. -/
def wordVat (w : Nat) : Option Nat := if w < sharedWords then none else some ((w - sharedWords) / vatWords)

/-- The bank of a word (R342). -/
def wordBank (w : Nat) : Nat := if w < sharedWords then w % 48 else (w - sharedWords) % vatWords % 16

/-- The majority of three copies in the low bits of a number. -/
def majBit (x : Nat) : Bool := decide (2 ≤ x % 2 + x / 2 % 2 + x / 4 % 2)

/-- A word's poison bit (R348). -/
def State.poisoned (s : State) (w : Nat) : Bool := majBit (tget zeroAt s.poison w)

/-- POISONED and STATUS[POISON_PRESENT] follow the number of poisoned words (R348, R363). -/
def State.poisonCount (s : State) : State :=
  let n := s.poison.countP fun e => majBit e.2
  (s.put R.SRAM_POISONED_COUNT n).putB R.SRAM_S_POISON_PRESENT (n != 0)

/-- Node classes of samples (Audio.lean) that the area of shared SRAM at address a holds (R343): the delay pool, the output lines,
the packet buffers; and the object lines in a vat's local part (R39). -/
def areaHolds (a cls idx : Nat) : Bool :=
  if 0x10C00000 ≤ a ∧ a < 0x10D80000 then decide (cls ≤ 4) || cls == 8
  else if 0x10D80000 ≤ a ∧ a < 0x11580000 then cls == 14 || cls == 16
  else if 0x11580000 ≤ a ∧ a < 0x11600000 then cls == 10
  else if 0x20000000 ≤ a then cls == 12 && idx / 32 == (a - 0x20000000) / 0x100000
  else false

/-- A word's samples are lost: they read zero until the word is written again (R348). Which sheet lies in the word the block's own
layout decides, which no chapter publishes (R343; log entry 109). -/
def State.loseSheet (s : State) (a : Nat) : State :=
  let l := s.audio.filter fun e => areaHolds a (e.1 / 2 ^ 80) (e.1 / 2 ^ 64 % 65536)
  if l.isEmpty then s
  else
    let (k, s) := s.draw
    match l[(Config.freeWord k).toNat % (l.length + 1)]? with
    | some e => { s with audio := tdrop (fun k => k == e.1) s.audio }
    | none => s

/-- The six samples of one channel that a word of the packet buffers holds (R116, R342): of receive context c, lane j, stream samples 6g to
6g + 5; or of line n of transmit context t, lane j, from the first of its media samples waiting. -/
inductive BufWord where
  | rx (c g j : Nat)
  | tx (t n g j : Nat)
  deriving DecidableEq, Repr

/-- The words of the packet buffers that hold samples. -/
def State.bufWords (s : State) : List BufWord :=
  (s.rx.flatMap fun e => (e.2.buf.map fun b => (b.1 / 6, b.2.length)).eraseDups.flatMap fun g =>
    (List.range g.2).map fun j => BufWord.rx e.1 g.1 j) ++
  s.tx.flatMap fun e => (e.2.olds ++ e.2.cur.toList).zipIdx.flatMap fun l =>
    (List.range ((l.1.buf.length + 5) / 6)).flatMap fun g => (List.range (l.1.buf.headD []).length).map fun j => BufWord.tx e.1 l.2 g j

/-- A line of a transmit context with samples 6g to 6g + 5 of lane j zero. -/
def TxLine.zeroAt (l : TxLine) (g j : Nat) : TxLine :=
  { l with buf := l.buf.zipIdx.map fun x => if x.2 / 6 = g then x.1.set j 0 else x.1 }

/-- Those samples read as zero (R348). -/
def State.loseBuf (s : State) : BufWord → State
  | .rx c g j => { s with rx := s.rx.map fun e =>
      if e.1 = c then (e.1, { e.2 with buf := e.2.buf.map fun b => if b.1 / 6 = g then (b.1, b.2.set j 0) else b }) else e }
  | .tx t n g j => { s with tx := s.tx.map fun e =>
      if e.1 = t then (e.1, { e.2 with
        olds := e.2.olds.zipIdx.map fun l => if l.2 = n then l.1.zeroAt g j else l.1
        cur := e.2.cur.map fun l => if e.2.olds.length = n then l.zeroAt g j else l }) else e }

/-- A word of the packet buffers at address a is lost: which samples it holds RXS's and TXS's own layout decides (R343; log entry 109). -/
def State.losePacket (s : State) (a : Nat) : State :=
  if a + 24 ≤ 0x11580000 ∨ 0x11600000 ≤ a then s
  else
    let l := s.bufWords
    let (k, s) := s.draw
    match l[(Config.freeWord k).toNat % (l.length + 1)]? with
    | some b => s.loseBuf b
    | none => s

/-- The bytes of queued metadata records that lie in the word at a are lost (R211, R348). -/
def State.loseRecords (s : State) (a : Nat) : State :=
  if a + 24 ≤ 0x11710000 ∨ 0x11790000 ≤ a then s
  else { s with objs := s.objs.map fun e => (e.1, { e.2 with
    queue := e.2.queue.zipIdx.map fun q => (q.1.1, q.1.2.zipIdx.map fun x =>
      let b := 0x11710000 + 512 * e.1 + 32 * q.2 + x.2
      if a ≤ b ∧ b < a + 24 then 0 else x.1) }) }

/-- A quantity that a block keeps in SRAM beside its sheets (R39, R40): a partial sum of a vat and slot, an entry of a pair table, a pre-filter
state, an air state at the write and at the read of an object slot of a vat, a DC estimate, the mapping of a ratio loop, a compressor's state. -/
inductive Kept where
  | part (k bus i : Nat)
  | pair (k out : Nat)
  | filter (k i : Nat)
  | airIn (k : Nat)
  | airOut (k : Nat)
  | dc (c : Nat)
  | loop (c : Nat)
  | comp (a : Nat)
  deriving DecidableEq, Repr

/-- The quantities of vat v. -/
def State.keptVat (s : State) (v : Nat) : List Kept :=
  ((s.partials.filter fun e => e.1 % 32 == v).flatMap fun e => e.2.flatMap fun b => (List.range 6).map fun i => Kept.part e.1 b.1 i) ++
  ((s.knots.filter fun e => bits (s.n (winKey 25 1 (8 * (e.1 / 2 ^ 64)))) 20 16 == v).flatMap fun e => e.2.pairs.map fun p => Kept.pair e.1 p.1) ++
  ((s.pfSt.filter fun e => e.1 / 32 == v).flatMap fun e => (List.range 3).map fun i => Kept.filter e.1 i) ++
  ((s.airW.filter fun e => e.1 / 32 == v).map fun e => Kept.airIn e.1) ++
  (s.airR.filter fun e => e.1 / 32 == v).map fun e => Kept.airOut e.1

/-- The quantities that the area of the word at address a keeps (R39, R343). -/
def State.keptAt (s : State) (a : Nat) : List Kept :=
  if 0x20000000 ≤ a then s.keptVat ((a - 0x20000000) / 0x100000)
  else if 0x11600000 ≤ a ∧ a < 0x11680000 then (s.dc.map fun e => Kept.dc e.1) ++ s.rx.map fun e => Kept.loop e.1
  else if 0x116C0000 ≤ a ∧ a < 0x11700000 then s.mix.comp.map fun e => Kept.comp e.1
  else []

/-- A quantity reads as zero. -/
def State.loseKept (s : State) : Kept → State
  | .part k b i => { s with partials := s.partials.map fun e =>
      if e.1 = k then (k, e.2.map fun x => if x.1 = b then (b, x.2.set i 0) else x) else e }
  | .pair k o => { s with knots := s.knots.map fun e =>
      if e.1 = k then (k, { e.2 with pairs := e.2.pairs.map fun p => if p.1 = o then (o, 0, 0) else p }) else e }
  | .filter k i => { s with pfSt := s.pfSt.map fun e => if e.1 = k then (k, e.2.set i 0) else e }
  | .airIn k => { s with airW := tset zeroAt s.airW k 0 }
  | .airOut k => { s with airR := tset zeroAt s.airR k 0 }
  | .dc c => { s with dc := tset zeroAt s.dc c 0 }
  | .loop c => { s with rx := s.rx.map fun e => if e.1 = c then (c, { e.2 with tb := 0, b := 0 }) else e }
  | .comp a => { s with mix := { s.mix with comp := tset zeroAt s.mix.comp a 0 } }

/-- A word of 24 bytes holds up to six of these quantities: which, the block's own layout decides (R343; log entry 109). -/
def State.loseState (s : State) (a : Nat) : State :=
  let l := s.keptAt a
  if l.isEmpty then s
  else
    let (k, s) := s.draw
    let (n, s) := s.draw
    s.each ((l.drop ((Config.freeWord k).toNat % l.length)).take ((Config.freeWord n).toNat % 7)) State.loseKept

/-- Set a word's poison bit and log its first uncorrectable read by master m (R348). -/
def State.poisonWord (s : State) (m w : Nat) : State :=
  let s := s.setPoison w true
  let s := (s.poisonCount).addW R.SRAM_UE_CNT_COUNT 1
  let a := sramBase w
  let s := (s.setN 0xA8090 a).setN 0xA8094 (a / 2 ^ 32)
  let v := wordVat w
  let s := s.setN 0xA8098 (m % 128 + v.getD 0 * 2 ^ 8 + b2n v.isSome * 2 ^ 13 + wordBank w * 2 ^ 16)
  (((((s.latch eSRAM 1).loseSheet a).loseState a).losePacket a).loseRecords a).loseConv a

/-- Count a correction in the word's bank (R347). -/
def State.countCorrected (s : State) (w : Nat) : State :=
  let s := match wordVat w with
    | none => s.setN (0xA8100 + 4 * wordBank w) (s.n (0xA8100 + 4 * wordBank w) + 1)
    | some v => s.setN (winKey 51 0 (16 * v + wordBank w)) (s.n (winKey 51 0 (16 * v + wordBank w)) + 1)
  s.latch eSRAM 0

/-- Change n bytes from address a by an error pattern. -/
def State.xorBytes (s : State) (a n e : Nat) : State :=
  s.upto n fun s i => s.setByte (a + i) (s.byte (a + i) ^^^ BitVec.ofNat 8 (errByte e i))

/-- Apply the correction d to a word with error pattern e (R347): what d does not cover stays in the stored bytes; d = 0 where the
pattern is itself a codeword, which no decoder sees. -/
def State.correctWord (s : State) (w e d : Nat) : State :=
  let s := (s.xorBytes (sramBase w) 24 (e ^^^ d)).setSramErr w 0
  if d = 0 then s else s.countCorrected w

/-- Read a word for master m: whether its data can be used, and the state after correction or poisoning (R347, R348). -/
def State.readWord (s : State) (m w : Nat) : Bool × State :=
  if s.poisoned w then (false, s)
  else
    let e := tget zeroAt s.sramErr w
    if e = 0 then (true, s)
    else match rsDecode 28 e with
      | none => (false, s.poisonWord m w)
      | some d => (true, s.correctWord w e d)

/-- A whole-word write: new check bytes, and the poison bit clears (R346). -/
def State.healWord (s : State) (w : Nat) : State :=
  let s1 := (s.setSramErr w 0).setPoison w false
  if s.poisoned w then s1.poisonCount else s1

/-- The widths of an SRAM or DRAM request (R346, R369). -/
def widthOk (n : Nat) : Bool := n = 1 || n = 2 || n = 4 || n = 8 || n = 16 || n = 32 || n = 64

/-- The words that a request of n bytes at address a touches, in ascending order. -/
def wordsOf (a n : Nat) : List Nat :=
  ((List.range n).filterMap fun i => sramWord (a + i)).eraseDups

/-- Where OBJ keeps a word of its configuration banks (06_objects_and_mould R211): ACTIVE words lie in the active bank. -/
def State.bankAddr (s : State) (k : Nat) : Option Nat :=
  if 0x8000000000 ≤ k ∧ keySrc k = eOBJ ∧ keyKind k ≤ 1 then
    some (0x11700000 + 0x8000 * ((s.get R.OBJ0_BANK_ACTIVE + keyKind k + 1) % 2) + 4 * keyWord k)
  else none

/-- Where a block keeps a configuration word in SRAM (R343): OBJ's banks by R211; the mould sets, ICB's coefficients and MIX's crosspoint
banks where their own layouts put them. -/
def State.wordAddr (s : State) (k : Nat) : Option Nat :=
  if k < 0x8000000000 then none
  else if keySrc k = eMOULD then some (0x11680000 + 4 * (Config.wordSpot k % 65536))
  else if keySrc k = eICB ∧ keyKind k ≤ 3 then some (0x11600000 + 4 * (Config.wordSpot k % 131072))
  else if keySrc k = eMIX ∧ keyKind k ≤ 1 then some (0x116C0000 + 4 * (Config.wordSpot k % 65536))
  else s.bankAddr k

/-- A configuration word lies in a poisoned word: its block reads zeros (R348). -/
def State.wordLost (s : State) (k : Nat) : Bool :=
  !s.poison.isEmpty && ((s.wordAddr k).any fun a => (wordsOf a 4).any s.poisoned)

/-- A configuration word as its block reads it. -/
def State.cw (s : State) (k : Nat) : Nat := if s.wordLost k then 0 else s.n k

/-- A block writes a configuration word that it keeps in SRAM (02_register_pages R67). -/
def State.wordDirty (s : State) (k : Nat) : State :=
  if s.dump.isNone then s
  else match s.wordAddr k with
    | some a => s.dumpDirty a 4
    | none => s

/-- Bytes written to OBJ's configuration banks (06_objects_and_mould R211). -/
def State.bankBytes (s : State) (a : Nat) (data : List Byte) : State :=
  data.zipIdx.foldl (fun s x =>
    let b := a + x.2
    if 0x11700000 ≤ b ∧ b < 0x11710000 then
      let k := winKey 25 (if (b - 0x11700000) / 0x8000 = s.get R.OBJ0_BANK_ACTIVE then 1 else 0) (8 * (b % 0x8000 / 32) + b % 32 / 4)
      let lo := 8 * (b % 4)
      s.setN k (putBits (s.n k) (lo + 7) lo x.1.toNat)
    else s) s

/-- Bytes written from outside into areas whose content a block holds: OBJ's banks (06_objects_and_mould R211) and CONV's area
(09_room_correction R291). -/
def State.ownBytes (s : State) (a : Nat) (data : List Byte) : State := (s.bankBytes a data).convBytes a data

/-- Write the part of a request that falls into word w (R346). -/
def State.writeWord (s : State) (m a : Nat) (data : List Byte) (w : Nat) : Bool × State :=
  let b := sramBase w
  let lo := max a b
  let hi := min (a + data.length) (b + 24)
  let part := (data.drop (lo - a)).take (hi - lo)
  if lo = b ∧ hi = b + 24 then (true, ((s.healWord w).putBytes lo part).ownBytes lo part)
  else if s.poisoned w then (false, s.latch eSRAM 3)
  else
    let (ok, s) := s.readWord m w
    if ok then (true, (s.putBytes lo part).ownBytes lo part) else (false, s)

/-- A fabric write to SRAM (R346): each word separately; OK only where every word was written. -/
def State.sramStore (s : State) (m a : Nat) (data : List Byte) : Bool × State :=
  (wordsOf a data.length).foldl (fun r w => let q := r.2.writeWord m a data w; (r.1 && q.1, q.2)) (true, s)

/-- A fabric read of SRAM (R347, R348): every word that it covers is read; the data, or none where one is unusable. -/
def State.sramLoad (s : State) (m a n : Nat) : Option (List Byte) × State :=
  let r := (wordsOf a n).foldl (fun r w => let q := r.2.readWord m w; (r.1 && q.1, q.2)) (true, s)
  (if r.1 then some (r.2.bytes a n) else none, r.2)

/-- Initialise the SRAM (R349). -/
def State.sramInit (s : State) : State :=
  { s with
    mem := s.mem.filter fun e => decide (0x1000000000 ≤ e.1)
    sramErr := []
    poison := [] }

/-- The next word of the scrubber, skipping vats whose domain is off (R350); none: the pass has ended. -/
def State.nextScrub (s : State) (w : Nat) : Nat :=
  match (List.range 33).find? fun i =>
      let w' := if i = 0 then w else ((w - sharedWords) / vatWords + i) * vatWords + sharedWords
      decide (w < sharedWords) || decide (sharedWords + 32 * vatWords ≤ w') ||
        s.domOn (7 + (w' - sharedWords) / vatWords / 8) with
  | some 0 => w
  | some i => ((w - sharedWords) / vatWords + i) * vatWords + sharedWords
  | none => sharedWords + 32 * vatWords

/-- A word lies in target 2. -/
def wordShared (w : Nat) : Bool := (List.range 24).any fun i => decide (0x117C0000 ≤ sramBase w + i) && decide (sramBase w + i < 0x117E0000)

/-- The scrubber reads a word, as master 0x42: the access tables may deny it (R351, R355). -/
def State.scrubRead (s : State) (w : Nat) : State :=
  let q := s.permit 0x42 (targetOf (sramBase w)) (sramBase w) 24 false
  if q.1 then (q.2.readWord 0x42 w).2 else q.2

/-- One visit of the scrubber (R350); a visit of target 2 waits while a lock is held there (R358). -/
def State.scrub (s : State) : State :=
  let w := s.nextScrub (s.get R.SRAM_SCRUB_POS_WORD)
  if !s.is R.SRAM_C_SCRUB_EN || !s.pageOn eSRAM || (s.lock.isSome && wordShared w) then s
  else
    let s := if w < sharedWords + 32 * vatWords then s.scrubRead w else s
    let nx := s.nextScrub (w + 1)
    if sharedWords + 32 * vatWords ≤ nx then
      ((s.put R.SRAM_SCRUB_POS_WORD 0).addW R.SRAM_SCRUB_PASSES_COUNT 1).latch eSRAM 2
    else s.put R.SRAM_SCRUB_POS_WORD nx

/-- The pattern that inverts bytes 0 to n − 1. -/
def invPattern (n : Nat) : Nat := 2 ^ (8 * n) - 1

/-- Perform the injection of SRAM.INJ_CTRL written with v (R364). -/
def State.sramInjectOp (s : State) (v : Nat) : State :=
  let n := v % 4
  if !bitOf v 31 || n = 0 then s
  else match sramWord (s.get64 0xA80A0 % 2 ^ 40) with
    | some w => s.setSramErr w (tget zeroAt s.sramErr w ^^^ invPattern n)
    | none => s

end Sys2Proof.Machine
end

