-- ==== Sys2Proof/Machine/Dram.lean ====
section
/-! DEFINITION. The DRAM controller (12_dram R366–R385): the address map, inline ECC, banks and the page policy, refresh, the
regulators, channel states and training. -/

namespace Sys2Proof.Machine

def dramBase : Nat := 0x1000000000

/-- Populated channels (R366, R388): GEOM reads through the majority of its copies. -/
def State.dramN (s : State) : Nat :=
  match bits (s.majW 0xB8080).toNat 5 4 with
  | 0 => 1
  | 1 => 2
  | 2 => 4
  | _ => 0

/-- U of R366, in MiB. -/
def State.dramU (s : State) : Nat :=
  match bits (s.majW 0xB8080).toNat 1 0 with
  | 0 => 481
  | 1 => 963
  | _ => 1927

/-- The channel and the data byte offset in it of a fabric address (R366); none above the populated range. -/
def State.dramMap (s : State) (a : Nat) : Option (Nat × Nat) :=
  let x := a - dramBase
  if a < dramBase ∨ s.dramN * s.dramU * 2 ^ 20 ≤ x then none
  else some (x / 256 % s.dramN, x / 256 / s.dramN * 256 + x % 256)

/-- The device line of a data byte offset (R367). -/
def deviceLine (off : Nat) : Nat := 17 * (off / 64 / 16) + off / 64 % 16

/-- Bank (bank group in [1:0], bank in [3:2]) and row of a device line (R367). -/
def deviceBank (l : Nat) : Nat := bits (64 * l) 14 11
def deviceRow (l : Nat) : Nat := 64 * l / 2 ^ 15

/-- Channel states (R382). -/
def chOff : Nat := 0
def chInit : Nat := 1
def chOnline : Nat := 2
def chDegraded : Nat := 3
def chSelfRefresh : Nat := 4
def chRetrain : Nat := 5
def chOffline : Nat := 6

def State.chanState (s : State) (c : Nat) : Nat := s.get (R.DRC_S_STATE.pg c)

def State.chan (s : State) (c : Nat) : ChanSt := nth s.chans c ChanSt.reset

def State.setChan (s : State) (c : Nat) (x : ChanSt) : State := { s with chans := s.chans.set c x }

/-- STATUS[ROW_OPEN] of a channel (R386). -/
def State.rowOpen (s : State) (c : Nat) : State :=
  s.putB (R.DRC_S_ROW_OPEN.pg c) ((s.chan c).banks.any fun b => b.row.isSome)

/-- One access to a bank (R376): the predictor, the row left open, and whether it was a row hit. -/
def BankSt.access (b : BankSt) (policy row : Nat) : Bool × BankSt :=
  let ctr := match b.last with
    | some r => if r = row then min 3 (b.ctr + 1) else b.ctr - 1
    | none => b.ctr
  (b.row = some row, ⟨ctr, some row, if policy = 0 ∧ ctr ≤ 1 then none else some row⟩)

/-- A device line is accessed on a channel: page policy, hit and miss counters (R376, R387). -/
def State.bankAccess (s : State) (c l : Nat) : State :=
  let i := deviceBank l
  let ch := s.chan c
  let (hit, b) := (nth ch.banks i BankSt.reset).access (s.get (R.DRC_PAGE_CFG_POLICY.pg c)) (deviceRow l)
  let s := s.setChan c { ch with banks := ch.banks.set i b }
  let s := s.rowOpen c
  s.addW ((if hit then R.DRC_HIT_CNT_COUNT else R.DRC_MISS_CNT_COUNT).pg c) 1

/-- The ECC group of a data byte offset, and the device line that holds its check bytes (R367). -/
def eccGroup (off : Nat) : Nat := off / 64 / 16
def checkLine (off : Nat) : Nat := 17 * eccGroup off + 16

/-- A group's check line comes into the channel's cache or is used there: 64 entries, the least recently used makes room (DESIGN CHOICE,
log entry 149). -/
def ChanSt.cached (ch : ChanSt) (g : Nat) : ChanSt := { ch with cache := (g :: ch.cache.filter fun x => x != g).take 64 }

/-- The check bytes of a data line: a write masks them into the check line, a read finds them in the cache or reads the line (R368). -/
def State.checkAccess (s : State) (c off : Nat) (write : Bool) : State :=
  let g := eccGroup off
  let s := if write || !(s.chan c).cache.contains g then s.bankAccess c (checkLine off) else s
  if write then s else s.setChan c ((s.chan c).cached g)

/-- A data line is read or written on a channel, then its check bytes (R367, R368, R387). -/
def State.lineAccess (s : State) (c off : Nat) (write : Bool) : State :=
  let s := (s.bankAccess c (deviceLine off)).checkAccess c off write
  s.addW ((if write then R.DRC_WR_CNT_COUNT else R.DRC_RD_CNT_COUNT).pg c) 1

/-- The row of an address is open in its bank: an access would hit (R373, R376). -/
def State.rowHit (s : State) (a : Nat) : Bool :=
  match s.dramMap a with
  | some (c, off) => let l := deviceLine off
    (nth (s.chan c).banks (deviceBank l) BankSt.reset).row == some (deviceRow l)
  | none => false

/-- A write to PAGE_CFG, or a reset, sets every predictor counter to weak open (R376). -/
def State.predictorReset (s : State) (c : Nat) : State :=
  let ch := s.chan c
  s.setChan c { ch with banks := ch.banks.map fun b => { b with ctr := 2 } }

/-- Log an uncorrectable line (R370). -/
def State.dramUe (s : State) (c m a : Nat) (write : Bool) : State :=
  let s := s.addW (R.DRC_UE_CNT_COUNT.pg c) 1
  let p := 0xB0000 + 0x1000 * c
  let s := (s.setN (p + 0xB0) a).setN (p + 0xB4) (a / 2 ^ 32)
  let s := s.setN (p + 0xB8) (m % 128 + b2n write * 2 ^ 8)
  s.latch (eDRC c) 1

/-- Apply the correction d to a line with error pattern e (R370); d = 0 where the pattern is itself a codeword, which no decoder sees. -/
def State.correctLine (s : State) (c l e d : Nat) : State :=
  let s := (s.xorBytes (64 * l) 64 (e ^^^ d)).setDramErr l 0
  if d = 0 then s else (s.addW (R.DRC_CE_CNT_COUNT.pg c) 1).latch (eDRC c) 0

/-- Read and correct the line that holds address a (R368, R370): whether its data can be used. A read writes a corrected line back; a
part-line write writes it with the bytes that it merges. -/
def State.readLine (s : State) (c off m a : Nat) (forWrite : Bool) : Bool × State :=
  let l := a / 64
  let e := tget zeroAt s.dramErr l
  if e = 0 then (true, s)
  else match rsDecode 68 e with
    | none => (false, s.dramUe c m a forWrite)
    | some d =>
      let s := s.correctLine c l e d
      (true, if d = 0 ∨ forWrite then s else s.lineAccess c off true)

/-! Tap images (09_room_correction R292, R296; 13_apsal_systems R413, R414). -/

/-- Where CONV.DRAM_BASE places the tap image of a set. -/
def imageBase (base set : Nat) : Nat := base * 2 ^ 27 + (if set = 0 then 0 else 44 * 2 ^ 20)

def State.convBase (s : State) : Nat := s.get R.CONV_DRAM_BASE_BASE * 2 ^ 27
def State.imageAt (s : State) (set : Nat) : Nat := imageBase (s.get R.CONV_DRAM_BASE_BASE) set

/-- The set whose tap image, under a value of DRAM_BASE, holds a DRAM address. -/
def imageSet (base a : Nat) : Option Nat :=
  if a < dramBase then none
  else (List.range 2).find? fun set => decide (imageBase base set ≤ a) && decide (a < imageBase base set + 16 * 2 ^ 20)

/-- The set whose tap image holds an address. -/
def State.imageOf (s : State) (a : Nat) : Option Nat := imageSet (s.get R.CONV_DRAM_BASE_BASE) a

/-- What a byte adds to the digest of CONV's page as part of its image word. -/
def imageTerm (a : Nat) (b : Byte) : BitVec 64 := wmkKey (a / 4 * 4) * BitVec.ofNat 64 (b.toNat * 256 ^ (a % 4))

/-- The sum of the image words below key `top` under a value of DRAM_BASE. -/
def State.imagesSum (s : State) (base top : Nat) : BitVec 64 :=
  s.mem.foldl (fun x e => if (imageSet base e.1).isSome && decide (e.1 < top) then x + imageTerm e.1 e.2 else x) 0

/-- Image words change their page's sum by d, those that the rescan has passed by `past` (R414, R415). -/
def WmkSt.addImages (w : WmkSt) (past d : BitVec 64) : WmkSt :=
  { w with
    diff := tset zeroAt w.diff eCONV (tget zeroAt w.diff eCONV + d)
    run := if eCONV = w.page then w.run + past else w.run
    scan := if eCONV < w.page then tset zeroAt w.scan eCONV (tget zeroAt w.scan eCONV + d) else w.scan }

/-- The same for an image word at key a. -/
def WmkSt.addImage (w : WmkSt) (a : Nat) (d : BitVec 64) : WmkSt := w.addImages (if a < w.pos then d else 0) d

/-- Write DRAM bytes, updating the digest where they lie in an image. -/
def State.putDram (s : State) (a : Nat) (data : List Byte) : State :=
  if (s.imageOf a).isNone then s.putBytes a data
  else
    let w := data.zipIdx.foldl (fun w x =>
      w.addImage ((a + x.2) / 4 * 4) (imageTerm (a + x.2) x.1 - imageTerm (a + x.2) (s.byte (a + x.2)))) s.wmk
    { s with wmk := w }.putBytes a data

/-- The images have moved or been cleared since state o (DRAM_BASE, initialisation): the digest follows. -/
def State.reImage (s o : State) : State :=
  let d (top : Nat) : BitVec 64 := s.imagesSum (s.get R.CONV_DRAM_BASE_BASE) top - o.imagesSum (o.get R.CONV_DRAM_BASE_BASE) top
  { s with wmk := s.wmk.addImages (d s.wmk.pos) (d (2 ^ 64)) }

/-- A DRAM read served by its channel (R370). -/
def State.dramLoad (s : State) (c off m a n : Nat) : Option (List Byte) × State :=
  let s := s.lineAccess c off false
  let (ok, s) := s.readLine c off m a false
  (if ok then some (s.bytes a n) else none, s)

/-- A DRAM write served by its channel (R369, R370): whole line, or an atomic read-modify-write. -/
def State.dramStore (s : State) (c off m a : Nat) (data : List Byte) : Bool × State :=
  if data.length = 64 then
    let s := s.lineAccess c off true
    (true, (s.setDramErr (a / 64) 0).putDram a data)
  else
    let s := s.lineAccess c off false
    let (ok, s) := s.readLine c off m a true
    if ok then (true, (s.lineAccess c off true).putDram a data) else (false, s)

/-- Zero a channel's contents (R371): every byte that maps to it. -/
def State.dramZero (s : State) (c : Nat) : State :=
  let s := s.setChan c { s.chan c with cache := [] }
  State.reImage { s with
    mem := s.mem.filter fun e => !((s.dramMap e.1).any fun p => p.1 == c)
    dramErr := s.dramErr.filter fun e => !((s.dramMap (64 * e.1)).any fun p => p.1 == c) } s

/-! Service classes and regulators (R372–R374). -/

/-- The regulator port of a master (R372); loads and digest checks of CONV enter at port 1. -/
def regPort (m : Nat) : Nat :=
  if m = 0x30 then 0
  else if m = 0x40 then 2
  else if m = 0x41 then 3
  else if m = 0x42 then 4
  else if m = 0x02 then 5
  else if 0x38 ≤ m ∧ m ≤ 0x3F then 7
  else 6

/-- The service class of what enters at a port (R372): tail 0, system 1, bulk 2. -/
def portClass (p : Nat) : Nat := if p = 0 then 0 else if p ≤ 5 then 1 else 2

/-- The age in µs beyond which a channel promotes a request of a class (R373, R387). -/
def State.ageLimit (s : State) (c cls : Nat) : Nat :=
  if cls = 0 then max 1 (s.get (R.DRC_AGE_CFG_AGE_TAIL.pg c))
  else s.get ((if cls = 1 then R.DRC_AGE_CFG_AGE_SYS else R.DRC_AGE_CFG_AGE_BULK).pg c)

/-- The bucket ceiling of a port, in bytes. -/
def State.bucketMax (s : State) (p : Nat) : Nat := max 1 (s.get (R.DPHY_REG_BURST_BURST.ix p)) * 64

/-- What a port's bucket holds; a bucket nothing has taken from is full. -/
def bucketFull : Nat → Nat := fun _ => 4096

def State.bucket (s : State) (p : Nat) : Nat := tget bucketFull s.buckets p

def State.setBucket (s : State) (p v : Nat) : State := { s with buckets := tset bucketFull s.buckets p v }

/-- Whether one line may pass a port now. -/
def State.portOpen (s : State) (p : Nat) : Bool :=
  s.get (R.DPHY_REG_RATE_RATE.ix p) = 0 || decide (64 ≤ s.bucket p)

/-- One line passes a port. -/
def State.portTake (s : State) (p : Nat) : State :=
  if s.get (R.DPHY_REG_RATE_RATE.ix p) = 0 then s else s.setBucket p (s.bucket p - 64)

/-- Of n lines as many as may pass a port now. -/
def State.portPass (s : State) (p n : Nat) : Nat × State :=
  if s.get (R.DPHY_REG_RATE_RATE.ix p) = 0 then (n, s)
  else
    let k := min n (s.bucket p / 64)
    (k, s.setBucket p (s.bucket p - 64 * k))

/-- Time has passed in which a port let a line through: what the sender's command says of work that takes its time (DESIGN CHOICE, log
entry 78). -/
def State.passTime (s : State) (p : Nat) : State := if s.portOpen p then s else s.setBucket p 64

/-- A line of such work passes a port. -/
def State.portUse (s : State) (p : Nat) : State := (s.passTime p).portTake p

/-- A write to a port's registers: the bucket starts full (R374). -/
def State.portWritten (s : State) (p : Nat) : State := s.setBucket p (s.bucketMax p)

/-- DPHY starts: every bucket is full. -/
def State.portsFull (s : State) : State := s.upto 8 fun s p => s.portWritten p

/-- One microsecond: every bucket gains its rate, up to its ceiling (R374). -/
def State.refill (s : State) : State :=
  s.upto 8 fun s p =>
    s.setBucket p (min (s.bucketMax p) (s.bucket p + 16 * s.get (R.DPHY_REG_RATE_RATE.ix p)))

/-! Usability (R382). -/

/-- A channel counts as usable. -/
def State.chanUsable (s : State) (c : Nat) : Bool :=
  let st := s.chanState c
  st = chOnline || st = chDegraded || st = chRetrain || (st = chSelfRefresh && !s.pllbFail)

/-- What a channel in a state does with a request: serve, wait or TERR (R382); from APPLY on it issues none (R385). -/
inductive ChanDo where
  | serve | wait | terr
  deriving DecidableEq, Repr

def State.chanDo (s : State) (c : Nat) : ChanDo :=
  let st := s.chanState c
  if st = chOnline ∨ st = chDegraded then (if s.clk.change.isSome then .wait else .serve)
  else if st = chInit ∨ st = chRetrain then .wait
  else if st = chSelfRefresh then (if s.pllbFail then .terr else .wait)
  else .terr

/-- Some populated channel holds its requests back: work that runs over all channels makes no progress (R366, R382, R385). -/
def State.chanWaits (s : State) : Bool := (List.range s.dramN).any fun c => s.chanDo c == .wait

/-- A write to the line of address a waits: a later read of the line returns what it writes, so the read waits too (R373). -/
def State.writeWaits (s : State) (a : Nat) : Bool := s.waiting.any fun r => r.write && r.addr / 64 == a / 64

/-- DRAM is usable (R382). -/
def State.dramUsable (s : State) : Bool :=
  s.domOn 13 && s.dramN != 0 && (List.range s.dramN).all fun c => s.chanUsable c

/-- STATUS[USABLE] and its events follow the channels (R382, R388). -/
def State.usableUpdate (s : State) : State :=
  let u := s.dramUsable
  let o := s.is R.DPHY_S_USABLE
  let s := s.putB R.DPHY_S_USABLE u
  if u && !o then s.latch eDPHY 2 else if o && !u then s.latch eDPHY 1 else s

def State.setChanState (s : State) (c st : Nat) : State := s.put (R.DRC_S_STATE.pg c) st

/-! Refresh (R377–R380). -/

def State.refLimit (s : State) : Nat := if s.is R.DPHY_S_REFX2 then 4 else 8

def State.owed (s : State) (c : Nat) : Nat := s.get (R.DRC_REF_STATE_OWED.pg c)

/-- A refresh goes to the next bank in round-robin order and closes its row. -/
def State.refreshBank (s : State) (c : Nat) : State :=
  let ch := s.chan c
  let b := nth ch.banks ch.nextBank BankSt.reset
  (s.setChan c { ch with
    banks := ch.banks.set ch.nextBank { b with row := none }
    nextBank := (ch.nextBank + 1) % 16 }).rowOpen c

/-- A forced refresh (R378). -/
def State.forcedRefresh (s : State) (c : Nat) : State :=
  ((s.refreshBank c).addW (R.DRC_FORCED_CNT_COUNT.pg c) 1).latch (eDRC c) 6

/-- A channel that runs refreshes. -/
def State.refreshes (s : State) (c : Nat) : Bool :=
  let st := s.chanState c
  st = chOnline || st = chDegraded || st = chRetrain

/-- A refresh becomes owed (R378): at the limit it forces one. -/
def State.owe (s : State) (c : Nat) : State :=
  if !s.refreshes c then s
  else if s.refLimit ≤ s.owed c then s.forcedRefresh c
  else s.put (R.DRC_REF_STATE_OWED.pg c) (s.owed c + 1)

/-- An owed refresh is issued (R377). -/
def State.issueRefresh (s : State) (c : Nat) : State :=
  if !s.refreshes c || s.owed c = 0 then s
  else (s.refreshBank c).put (R.DRC_REF_STATE_OWED.pg c) (s.owed c - 1)

/-- Issue owed refreshes as forced refreshes until k are left. -/
def State.forceDownTo (s : State) (c k : Nat) : State :=
  let n := s.owed c - k
  (s.upto n fun s _ => s.forcedRefresh c).put (R.DRC_REF_STATE_OWED.pg c) (min k (s.owed c))

/-- Enter or leave the 2x rate (R379, R380). -/
def State.setRefX2 (s : State) (x2 : Bool) : State :=
  if s.is R.DPHY_S_REFX2 = x2 then s
  else
    let s := (s.putB R.DPHY_S_REFX2 x2).latch eDPHY 3
    let s := s.upto 4 fun s c => s.put (R.DRC_REF_STATE_LIMIT.pg c) (if x2 then 4 else 8)
    if x2 then s.upto 4 fun s c => if 4 < s.owed c then s.forceDownTo c 4 else s else s

/-- The refresh rate that the die temperature (in quarters of a degree) and the latest MR4 fields select (R379). -/
def State.chooseRefRate (s : State) (t : Int) : State :=
  let on : Int := s.get R.DPHY_TEMP_CFG_ON
  let off : Int := min (s.get R.DPHY_TEMP_CFG_OFF : Int) (on - 1)
  let mr4 := s.is R.DPHY_TEMP_CFG_MR4_EN && (List.range s.dramN).any fun c => (s.chan c).mr4 != 0
  if 4 * on ≤ t ∨ mr4 then s.setRefX2 true
  else if t ≤ 4 * off then s.setRefX2 false
  else s

/-! Training (R383, R384). -/

/-- PLL-B runs at half rate (R79, R113: PLLB_ACTIVE[0]). -/
def State.halfRate (s : State) : Bool := bitOf (s.n 0x2088) 0

/-- The field that says whether a last good setting exists for the current rate. -/
def State.goodFld (s : State) (c : Nat) : Fld :=
  (if s.halfRate then R.DRC_TRAIN_RESULT_GOOD_HALF else R.DRC_TRAIN_RESULT_GOOD_FULL).pg c

/-- A channel enters ONLINE (R386: latches on each entry). -/
def State.goOnline (s : State) (c : Nat) : State := (s.setChanState c chOnline).latch (eDRC c) 4

/-- A training ends on a channel (R383, R384). -/
def State.trained (s : State) (c : Nat) (r : TrainResult) : State :=
  match r with
  | .pass rd wr =>
    let s := s.put (R.DRC_TRAIN_RESULT_WIN_RD.pg c) rd.toNat
    let s := s.put (R.DRC_TRAIN_RESULT_WIN_WR.pg c) wr.toNat
    let s := s.putB (s.goodFld c) true
    if s.chanState c = chOnline then s else s.goOnline c
  | .fail =>
    let s := (s.addW (R.DRC_TRAIN_FAIL_CNT_COUNT.pg c) 1).latch (eDRC c) 5
    if s.is (s.goodFld c) then
      if s.chanState c = chDegraded then s else (s.setChanState c chDegraded).latch (eDRC c) 2
    else if s.chanState c = chOffline then s else (s.setChanState c chOffline).latch (eDRC c) 3

/-- POP_SIZE follows GEOM (R366). -/
def State.popSize (s : State) : State := s.put R.DPHY_POP_SIZE_MIB (s.dramN * s.dramU)

/-- Perform the injection of DRCc.INJ_CTRL written with v (R387). -/
def State.dramInjectOp (s : State) (c v : Nat) : State :=
  let n := v % 4
  let a := s.get64 (0xB00C8 + 0x1000 * c) % 2 ^ 40
  if !bitOf v 31 || n = 0 then s
  else if (s.dramMap a).any fun p => p.1 == c then
    s.setDramErr (a / 64) (tget zeroAt s.dramErr (a / 64) ^^^ invPattern n)
  else s

end Sys2Proof.Machine
end

