-- ==== Sys2Proof/Machine/Arb.lean ====
section
/-! DEFINITION. Arbitration at bank 0 of the shared SRAM as FAB shows it (11_memory_fabric R360, R362). The order of grants is
timing and no part of the model. -/

namespace Sys2Proof.Machine

/-- The global input of a master. -/
def arbInput (m : Nat) : Option Nat :=
  if 0x10 ≤ m ∧ m < 0x30 then some ((m - 0x10) / 8)
  else if 0x44 ≤ m ∧ m < 0x48 then some (m - 0x44)
  else if 0x30 ≤ m ∧ m < 0x36 then some 4
  else if 0x08 ≤ m ∧ m < 0x0E then some 5
  else if 0x38 ≤ m ∧ m < 0x40 then some 6
  else if m < 4 then some 7
  else if 0x40 ≤ m ∧ m < 0x43 then some 8
  else none

/-- The master of a stage (Stage.lean numbers them). -/
def stageMaster (k : Nat) : Nat :=
  if k = 0 then 0x32 else if k ≤ 4 then 0x43 + k else if k < 40 then 0x08 + k
  else if k = 40 then 0x35 else if k = 41 then 0x33 else if k = 42 then 0x31 else 0x30

/-- A request that reaches bank 0 of the shared SRAM. -/
def atBank0 (a n : Nat) : Bool := (wordsOf a n).any fun w => decide (w < sharedWords) && decide (w % 48 = 0)

/-- The masters with a request at bank 0: those whose requests wait there, and the stages at work, whose sheets lie across every
bank (log entry 71). -/
def State.bank0Masters (s : State) : List Nat :=
  (s.waiting.filter fun r => atBank0 r.addr r.width).map MemReq.master ++
    (s.stages.filter fun e => e.2.busy).map fun e => stageMaster e.1

/-- ARB_ACT follows a visit of bank 0 that master m makes (R360, R362): the weight that ARB_WT sets, or the number of distinct
masters behind the input that have a request there. -/
def State.arbSample (s : State) (m : Nat) : State :=
  match arbInput m with
  | none => s
  | some i =>
    let k := 4 * (i / 8)
    let lo := 4 * (i % 8)
    let wt := bits (s.n (0xA00A4 + k)) (lo + 3) lo
    let n := (((m :: s.bank0Masters).filter fun x => arbInput x == some i).eraseDups).length
    s.setN (0xA00AC + k) (putBits (s.n (0xA00AC + k)) (lo + 3) lo (if wt = 0 then min 15 n else wt))

/-- An area of SRAM in which a block works: first address, size, and whether the block reads and writes there. -/
structure Area where
  base : Nat
  size : Nat
  read : Bool
  written : Bool
  deriving DecidableEq, Repr

/-- A word lies in an area. -/
def Area.holds (q : Area) (w : Nat) : Bool := decide (q.base ≤ sramBase w) && decide (sramBase w < q.base + q.size)

/-- Words that hold an error or are poisoned. -/
def State.badWords (s : State) : List Nat := (s.sramErr.map Prod.fst ++ s.poison.map Prod.fst).eraseDups

/-- Master m works in areas of the SRAM: a dump finds the lines that it writes (R67), and it meets the words there that hold an error or
are poisoned: which of them it reads, and which it writes whole, its layout decides (R343–R348; log entry 109). -/
def State.areaTouch (s : State) (m : Nat) (l : List Area) : State :=
  let s := s.each (l.filter fun q => q.written) fun s q => s.dumpArea q.base q.size
  s.each (s.badWords.filter fun w => l.any fun q => q.holds w) fun s w =>
    let (k, s) := s.draw
    let c := (Config.freeWord k).toNat % 4
    let s := if c % 2 = 1 ∧ (l.any fun q => q.read && q.holds w) then (s.readWord m w).2 else s
    if 2 ≤ c ∧ (l.any fun q => q.written && q.holds w) then s.healWord w else s

/-- The same, seen in the arbitration of the bank as well (R360). -/
def State.areaWork (s : State) (m : Nat) (l : List Area) : State :=
  let s := s.areaTouch m l
  if s.pageOn eFAB then s.arbSample m else s

/-- The delay pool of input sheets (R40, R343), where Apsal Link places sheets too (13_apsal_systems R402, R403). -/
def poolWrite : Area := ⟨0x10C00000, 0x180000, false, true⟩

/-- The packet buffers of RXS and TXS (R116, R343), read and written. -/
def packetRead : Area := ⟨0x11580000, 0x80000, true, false⟩
def packetWrite : Area := ⟨0x11580000, 0x80000, false, true⟩

/-- The same where an access of n bytes at a reaches bank 0. -/
def State.arbVisit (s : State) (m a n : Nat) : State := if atBank0 a n && s.pageOn eFAB then s.arbSample m else s

end Sys2Proof.Machine
end

