-- ==== Sys2Proof/Machine/F32.lean ====
section
/-! DEFINITION. IEEE 754 binary32 with round-to-nearest-even, on rationals (06_objects_and_mould R193): every operation is exact
and then rounded; square roots and trigonometric functions are correctly rounded. Nothing of the manual's formulas leaves the
finite range. -/

namespace Sys2Proof.Machine

/-- floor(log2 q) for q > 0. -/
def log2Rat (q : Rat) : Int :=
  let e : Int := (q.num.natAbs.log2 : Int) - (q.den.log2 : Int)
  if (if 0 ≤ e then (2 : Rat) ^ e.toNat else 1 / (2 : Rat) ^ (-e).toNat) ≤ q then e else e - 1

/-- 2^e. -/
def pow2Rat (e : Int) : Rat := if 0 ≤ e then (2 : Rat) ^ e.toNat else 1 / (2 : Rat) ^ (-e).toNat

/-- Nearest integer, a half to even. -/
def rndEven (q : Rat) : Int :=
  let f := q.floor
  let r := q - f
  if r < 1 / 2 then f else if 1 / 2 < r then f + 1 else if f % 2 = 0 then f else f + 1

/-- Round to binary32. -/
def f32 (q : Rat) : Rat :=
  if q = 0 then 0
  else
    let u := pow2Rat (max (log2Rat |q| - 23) (-149))
    (rndEven (q / u) : Rat) * u

def fAdd (a b : Rat) : Rat := f32 (a + b)
def fSub (a b : Rat) : Rat := f32 (a - b)
def fMul (a b : Rat) : Rat := f32 (a * b)
def fDiv (a b : Rat) : Rat := f32 (a / b)

/-- √q, from its value to 2^−200 of a number scaled into [1, 4). -/
def fSqrt (q : Rat) : Rat :=
  if q ≤ 0 then 0
  else
    let e := log2Rat q / 2
    f32 (fxRat (fxSqrt (fxOf (q / pow2Rat (2 * e)))) * pow2Rat e)

/-- Sum of a list, in its order. -/
def fSum (l : List Rat) : Rat := l.foldl fAdd 0

/-- Dot product of two vectors, in order. -/
def fDot (a b : List Rat) : Rat := fSum (List.zipWith fMul a b)

/-- Length of a vector. -/
def fNorm (a : List Rat) : Rat := fSqrt (fDot a a)

/-- π in binary32 times a rational, rounded once: an angle in radians. -/
def fAngle (halfTurns : Rat) : Rat := f32 (fxRat fxPi * halfTurns)

def fSin (a : Rat) : Rat := f32 (fxRat (fxSin (fxOf a)))
def fCos (a : Rat) : Rat := f32 (fxRat (fxCos (fxOf a)))
def fExp (a : Rat) : Rat := f32 (fxRat (fxExp (fxOf a)))
def fPow10 (a : Rat) : Rat := f32 (fxRat (fxPow10 (fxOf a)))
def fLog10 (a : Rat) : Rat := f32 (fxRat (fxLog10 (fxOf a)))
def fPow (a b : Rat) : Rat := f32 (fxRat (fxExp (fxMul (fxOf b) (fxLn (fxOf a)))))

/-- Σ (−1)^k z^(2k+1)/(2k+1), n terms. -/
def fxAtanS (z zz : Int) : Nat → Nat → Int
  | 0, _ => 0
  | n + 1, k => z / (2 * (k : Int) + 1) - fxAtanS (fxMul z zz) zz n (k + 1)

/-- atan x for 0 ≤ x ≤ 1: three half-angle reductions, then the series. -/
def fxAtan01 (x : Int) : Int :=
  let h (x : Int) : Int := fxDiv x (fx1 + fxSqrt (fx1 + fxMul x x))
  let z := h (h (h x))
  8 * fxAtanS z (fxMul z z) 40 0

/-- atan2(y, x) as a real to 2^−190. -/
def fxAtan2 (y x : Int) : Int :=
  let a := |y|
  let b := |x|
  let t := if a = 0 ∧ b = 0 then 0 else if a ≤ b then fxAtan01 (fxDiv a b) else fxPi / 2 - fxAtan01 (fxDiv b a)
  let t := if x < 0 then fxPi - t else t
  if y < 0 then -t else t

/-- atan2 of two binary32 numbers, correctly rounded. -/
def fAtan2 (y x : Rat) : Rat :=
  let m := max |y| |x|
  if m = 0 then 0 else f32 (fxRat (fxAtan2 (fxOf (y / m)) (fxOf (x / m))))

/-- asin of a binary32 number in [−1, 1]. -/
def fAsin (z : Rat) : Rat := f32 (fxRat (fxAtan2 (fxOf z) (fxSqrt (fxOf (1 - z * z)))))

/-- A signed fixed-point word with k fractional bits in binary32. -/
def fFix (k : Nat) (v : Int) : Rat := f32 ((v : Rat) / (2 ^ k : Nat))

/-- A result to k fractional bits, nearest, ties away from zero (R193). -/
def toFix (k : Nat) (q : Rat) : Int := rndRat (q * (2 ^ k : Nat))

end Sys2Proof.Machine
end

