-- ==== Sys2Proof/Machine/Obj.lean ====
section
/-! DEFINITION. Objects (06_objects_and_mould R183–R192, R209–R215): records, the metadata queues, the freeze of an input sheet
and the paths. -/

namespace Sys2Proof.Machine

/-! Configuration records (R214). -/

/-- Word w of the record of object o as OBJ reads it: bank 0 SHADOW, 1 ACTIVE. -/
def State.objW (s : State) (bank o w : Nat) : Nat := s.cw (winKey 25 bank (8 * o + w))
def State.objRec (s : State) (bank o : Nat) : List Nat := (List.range 8).map fun w => s.objW bank o w

def oSrc (r : List Nat) : Nat := bits (r.getD 0 0) 9 0
def oKind (r : List Nat) : Nat := bits (r.getD 0 0) 10 10
def oEn (r : List Nat) : Bool := bitOf (r.getD 0 0) 15
def oVat (r : List Nat) : Nat := bits (r.getD 0 0) 20 16
def oSlot (r : List Nat) : Nat := bits (r.getD 0 0) 25 21
/-- What a commit cannot change without moving the object (R186). -/
def oKey (r : List Nat) : List Nat := [oSrc r, oKind r, oVat r, oSlot r]
def oNoDop (r : List Nat) : Bool := bitOf (r.getD 0 0) 26
def oSpk (r : List Nat) : Nat := bits (r.getD 1 0) 8 0
def oDist (r : List Nat) : Nat := let m := bits (r.getD 1 0) 13 12; if m = 3 then 0 else m
def oAir (r : List Nat) : Bool := bitOf (r.getD 1 0) 16
def oDly (r : List Nat) : Nat := min (bits (r.getD 2 0) 19 0) 524288
def oRate (r : List Nat) : Nat := bits (r.getD 3 0) 15 0
/-- Send b: bus, enable, gain code. -/
def oAuxBus (r : List Nat) (b : Nat) : Nat := bits (r.getD 4 0) (8 * b + 5) (8 * b)
def oAuxEn (r : List Nat) (b : Nat) : Bool := bitOf (r.getD 4 0) (8 * b + 7)
def oAuxGain (r : List Nat) (b : Nat) : Nat := bits (r.getD 5 0) (16 * b + 15) (16 * b)

/-- Length of the line of a slot (R184). -/
def lineLen (slot : Nat) : Nat := if slot < 16 then 8192 else 2048

/-- Enabled objects of a bank in ascending order: an enabled record is listed. -/
def State.objEnabled (s : State) (bank : Nat) : List Nat :=
  (s.words.filter fun e => decide (winKey 25 bank 0 ≤ e.1) && decide (e.1 < winKey 25 bank 8192) &&
    decide (keyWord e.1 % 8 = 0) && bitOf e.2.toNat 15 && !s.wordLost e.1).map fun e => keyWord e.1 / 8

def State.obj (s : State) (o : Nat) : ObjSt := tget (fun _ => ObjSt.reset) s.objs o
def State.setObj (s : State) (o : Nat) (f : ObjSt → ObjSt) : State :=
  { s with objs := tset (fun _ => ObjSt.reset) s.objs o (f (s.obj o)) }

/-! Paths (R191, R192). -/

/-- A metadata gain code as a linear gain with 30 fractional bits: mute, and at most +6.00 dB (R187, R191). -/
def metaGain (code : Nat) : Int :=
  if code % 65536 = 0x8000 then 0
  else fxRound 30 (fxPow10 (fxOf ((min (sx 16 code) 0x600 : Int) / 5120 : Rat)))

/-- A segment at sample t. -/
def Seg.eval (g : Seg) (t : Int) : List Int :=
  if g.at0 + g.ramp ≤ t then g.target
  else if t < g.at0 then g.start
  else List.zipWith (fun a b => a + rndDiv ((b - a) * (t - g.at0)) g.ramp) g.start g.target

/-- The segment in force at t: the last that has begun. -/
def segAt (l : List Seg) (t : Int) : Option Seg :=
  match (l.filter fun g => decide (g.at0 ≤ t)).getLast? with
  | some g => some g
  | none => l.head?

def pathAt (l : List Seg) (t : Int) : List Int := match segAt l t with | some g => g.eval t | none => []

/-- The value of a step group at t. -/
def stepAt (l : List (Int × Nat)) (t : Int) : Nat :=
  match (l.filter fun g => decide (g.1 ≤ t)).getLast? with
  | some g => g.2
  | none => match l.head? with | some g => g.2 | none => 0

/-- A new segment from where the path is (R191); segments that ended before `old` are dropped, but the one in force there. -/
def newSeg (l : List Seg) (a old : Int) (ramp : Nat) (target : List Int) : List Seg :=
  let n := (l.filter fun g => decide (g.at0 ≤ old)).length
  l.drop (n - 1) ++ [⟨a, ramp, pathAt l a, target⟩]

def newStep (l : List (Int × Nat)) (a old : Int) (v : Nat) : List (Int × Nat) :=
  let n := (l.filter fun g => decide (g.1 ≤ old)).length
  l.drop (n - 1) ++ [(a, v)]

/-- Apply a record at sample a (R187, R190–R192). -/
def State.applyRecord (s : State) (o : Nat) (b : List Byte) (a : Int) : State :=
  let fl := leAt b 3 1
  let ramp := leAt b 0x1A 2
  let old := a - 96
  let mode := leAt b 2 1 % 8
  let std := decide (16 ≤ oSlot (s.objRec 1 o))
  let denied := bitOf fl 4 && decide (mode = 2) && std
  let s := s.setObj o fun x => { x with
    pos := if bitOf fl 0 then newSeg x.pos a old ramp [sx 32 (leAt b 4 4), sx 32 (leAt b 8 4), sx 32 (leAt b 12 4)] else x.pos
    gain := if bitOf fl 1 then newSeg x.gain a old ramp [metaGain (leAt b 0x10 2)] else x.gain
    spread := if bitOf fl 2 then
        newSeg x.spread a old ramp [min 36000 (leAt b 0x12 2), min 18000 (leAt b 0x14 2), leAt b 0x16 2] else x.spread
    zones := if bitOf fl 3 then newStep x.zones a old (leAt b 0x18 2) else x.zones
    flags := if bitOf fl 4 then newStep x.flags a old (bits fl 6 5) else x.flags
    mode := if bitOf fl 4 then newStep x.mode a old (if denied then 1 else mode) else x.mode }
  if denied then (s.addW R.OBJ0_MODE_DENIED_CNT_COUNT 1).latch eOBJ 5 else s

/-! Queues (R189, R190). -/

/-- QUEUED and STATUS[QUEUED] (R212, R213). -/
def State.queuedStatus (s : State) : State :=
  let n := (s.objs.map fun e => e.2.queue.length).sum
  (s.put R.OBJ0_QUEUED_COUNT n).putB R.OBJ0_S_QUEUED (n != 0)

/-- The extended apply sample of a record (R189). -/
def State.applyTime (s : State) (b : List Byte) : Int :=
  let q := 6 * s.frozenTo
  q + sx 32 (tz 32 ((leAt b 0x1C 4 : Int) - q))

/-- The reason for which a push is rejected, if any (R189). -/
def State.pushReason (s : State) (b : List Byte) : Nat :=
  let q := (s.obj (leAt b 0 2 % 1024)).queue
  if bitOf (leAt b 3 1) 4 ∧ 4 ≤ leAt b 2 1 % 8 then 3
  else if 16 ≤ q.length then 1
  else match q.getLast? with
    | some e => if s.applyTime b < e.1 then 2 else 0
    | none => 0

/-- Reject a push (R189). -/
def State.pushReject (s : State) (m : Nat) (b : List Byte) (reason : Nat) : State :=
  let s := s.addW (if reason = 1 then R.OBJ0_REJ_FULL_CNT_COUNT else if reason = 2 then R.OBJ0_REJ_ORDER_CNT_COUNT
    else R.OBJ0_REJ_FIELD_CNT_COUNT) 1
  (s.setN 0x60090 (leAt b 0 2 % 1024 + reason * 2 ^ 12 + m % 128 * 2 ^ 16)).latch eOBJ 1

/-- Append an accepted record to its object's queue. -/
def State.pushAccept (s : State) (b : List Byte) : State :=
  let a := s.applyTime b
  let o := leAt b 0 2 % 1024
  let x := 0x11710000 + 512 * o + 32 * (s.obj o).queue.length
  let s := (s.dumpDirty x 32).arbVisit 0x34 x 32
  (s.setObj o fun x => { x with queue := x.queue ++ [(a, b)] }).queuedStatus

/-- Freeze input sheet n for one object: every due record applies, in order; n records at most (R190). -/
def State.freezeObj (s : State) (o : Nat) (n : Int) : Nat → State
  | 0 => s
  | k + 1 =>
    match (s.obj o).queue with
    | [] => s
    | (a, b) :: t =>
      if 6 * n + 5 < a then s
      else
        let s := s.setObj o fun x => { x with queue := t }
        let s := s.applyRecord o b (max a (6 * n))
        let s := if a < 6 * n then ((s.addW R.OBJ0_LATE_META_CNT_COUNT 1).setMap 0x61080 o true).latch eOBJ 0 else s
        s.freezeObj o n k

/-- τ_R of the ACTIVE schedule (R22). -/
def State.tauR (s : State) : Nat := s.get R.PRESS_TAU_R_TAU

/-- The freeze at the start of a slot (R190). -/
def State.freeze (s : State) : State :=
  if !s.pageOn eOBJ then s
  else
    let n : Int := (s.sheet : Int) - s.tauR + 4
    let s := { s with frozenTo := n + 1 }
    (s.each (s.objs.map fun e => e.1) fun s o => s.freezeObj o n 17).queuedStatus

/-- Q_FLUSH[GO] (R190). -/
def State.qFlush (s : State) (o : Nat) : State := (s.setObj o fun x => { x with queue := [] }).queuedStatus

end Sys2Proof.Machine
end

