-- ==== Sys2Proof/Machine/Geometry.lean ====
section
/-! DEFINITION. The mould and the geometry units (06_objects_and_mould R193–R204, R206, R207; 07_wavefront R218–R225, R228):
what a cluster computes at a knot. -/

namespace Sys2Proof.Machine

/-! The mould (R195, R196, R217–R219). -/

/-- The mould set in force. -/
def State.mset (s : State) : Nat := s.get R.MOULD0_SET_CTRL_ACTIVE

/-- A word of a mould set: vertices 4 words a record, triangles and downmix 16, globals 32, arrays 512. -/
def State.mw (s : State) (set kind n : Nat) : Nat := s.cw (mouldKey set kind n)

def State.vtxPos (s : State) (set v : Nat) : List Int := (List.range 3).map fun w => sx 32 (s.mw set 0 (4 * v + w))
def State.vtxZones (s : State) (set v : Nat) : Nat := bits (s.mw set 0 (4 * v + 3)) 15 0
def State.vtxPresent (s : State) (set v : Nat) : Bool := bitOf (s.mw set 0 (4 * v + 3)) 16
def State.triVtx (s : State) (set t : Nat) : List Nat :=
  (List.range 3).map fun k => bits (s.mw set 1 (16 * t)) (10 * k + 9) (10 * k)
def State.triNbr (s : State) (set t : Nat) : List Nat :=
  [bits (s.mw set 1 (16 * t + 1)) 10 0, bits (s.mw set 1 (16 * t + 1)) 26 16, bits (s.mw set 1 (16 * t + 2)) 10 0]
/-- M_T row-major, 24 fractional bits. -/
def State.triM (s : State) (set t : Nat) : List Int := (List.range 9).map fun k => sx 32 (s.mw set 1 (16 * t + 3 + k))
def State.ntri (s : State) (set : Nat) : Nat := bits (s.mw set 3 0) 10 0
def State.walkLim (s : State) (set : Nat) : Nat := bits (s.mw set 3 1) 5 0
def State.distRef (s : State) (set : Nat) : Int := sx 32 (s.mw set 3 2)
/-- F of R19, R221. -/
def State.preDelay (s : State) (set : Nat) : Nat := bits (s.mw set 3 3) 13 0
/-- Word w of array a. -/
def State.arrW (s : State) (set a w : Nat) : Nat := s.mw set 4 (512 * a + w)
def State.arrEn (s : State) (set a : Nat) : Bool := bitOf (s.arrW set a 0) 31
def State.arrFirst (s : State) (set a : Nat) : Nat := bits (s.arrW set a 0) 8 0
def State.arrCount (s : State) (set a : Nat) : Nat := bits (s.arrW set a 0) 24 16

/-- A position in metres, in binary32. -/
def posF (l : List Int) : List Rat := l.map (fFix 16)

/-! The bank of a slot to come (R194): a scheduled press is known from its acceptance on, so that what a unit computes ahead for a slot
at or after its commit takes the SHADOW bank, which the pending press holds as it is (08_buses_and_outputs R260). -/

/-- A press that will commit: its checks have passed, and a distributed one has its decision. -/
def PressSt.scheduled (p : PressSt) : Bool := p.ahead.isSome && (!p.ring || p.decided == some true)

/-- The slot at whose start a press commits. -/
def State.pressSlot (s : State) (p : PressSt) : Nat := if p.skip then s.slot else s.slot + (p.sheet - s.sheet)

/-- The scheduled press that has committed by a slot to come. -/
def State.bankAhead (s : State) (slot : Nat) : Option PressSt :=
  s.press.filter fun p => p.scheduled && decide (s.pressSlot p ≤ slot)

/-- The knots of slots from n on are discarded, and their units begin again at slot n. -/
def State.knotsAgain (s : State) (n : Nat) : State :=
  let s := { s with knots := s.knots.filter fun e => decide (e.1 % 2 ^ 64 < n) }
  s.each [1, 2, 3, 4] fun s g =>
    if (tget (fun _ => ⟨0, false⟩) s.stages g).next < n then s
    else { s with stages := tset (fun _ => ⟨0, false⟩) s.stages g ⟨n, false⟩ }

/-- The speed of sound of a slot (R103): from the slot of a press on, that of the value that commits (DEDUCED, log entry 185). -/
def State.soundSpeed (s : State) (slot : Nat) : Rat := fFix 16 (s.n (if (s.bankAhead slot).isSome then 0x3114 else 0x68088))

/-- A unit direction from a direction word (R219). -/
def dirF (w : Nat) : List Rat :=
  let az := fAngle ((sx 16 w : Rat) / 32768)
  let el := fAngle ((clampI (-16384) 16384 (sx 16 (w / 65536)) : Int) / 32768 : Rat)
  [fMul (fCos el) (fSin az), fMul (fCos el) (fCos az), fSin el]

/-- The unit direction of a vertex (R196). -/
def State.vtxDir (s : State) (set v : Nat) : List Rat :=
  let p := posF (s.vtxPos set v)
  let n := fNorm p
  p.map fun x => if n = 0 then 0 else fDiv x n

/-! Locating a direction (R201). -/

/-- The weights d × M_T. -/
def State.weights (s : State) (set t : Nat) (d : List Rat) : List Rat :=
  let m := (s.triM set t).map (fFix 24)
  (List.range 3).map fun k => fDot d [m.getD k 0, m.getD (3 + k) 0, m.getD (6 + k) 0]

def min3 (g : List Rat) : Rat := min (g.getD 0 0) (min (g.getD 1 0) (g.getD 2 0))

/-- The walk from triangle t: the triangle that contains d, within n steps. -/
def State.walk (s : State) (set : Nat) (d : List Rat) : Nat → Nat → Option Nat
  | 0, _ => none
  | n + 1, t =>
    let g := s.weights set t d
    let m := min3 g
    if 0 ≤ m then some t
    else
      let v := (leastN 3 fun k => decide (g.getD k 0 = m)).getD 0
      let u := (s.triNbr set t).getD v 0x7FF
      if u = 0x7FF then none else s.walk set d n u

/-- The triangle with the largest least weight, ties to the lower index. -/
def State.fullSearch (s : State) (set : Nat) (d : List Rat) : Nat :=
  ((List.range (s.ntri set)).foldl (fun (b : Option (Nat × Rat)) t =>
    let m := min3 (s.weights set t d)
    match b with
    | some x => if x.2 < m then some (t, m) else b
    | none => some (t, m)) none).elim 0 Prod.fst

/-- locate of R201 from a previous triangle, if any: the triangle, and whether a full search was made. -/
def State.locate3 (s : State) (set : Nat) (prev : Option Nat) (d : List Rat) : Nat × Bool :=
  match prev with
  | some t =>
    match s.walk set d (s.walkLim set) t with
    | some u => (u, false)
    | none => (s.fullSearch set d, true)
  | none => (s.fullSearch set d, true)

/-! Mesh gains (R198–R200). -/

/-- Sub-source counts (R199). -/
def subAz (w : Int) : Nat := if w < 100 then 1 else if w < 3000 then 2 else if w < 9000 then 3 else 4
def subEl (h : Int) : Nat := if h < 100 then 1 else if h < 2000 then 2 else if h < 6000 then 3 else 4

/-- The object's direction u (R198). -/
def unitDir (p : List Rat) : List Rat :=
  let n := fNorm p
  if n < 1 / 64 then [0, 1, 0] else p.map fun x => fDiv x n

/-- The directions of the sub-source grid, k = j·n_az + i (R198, R199). -/
def subDirs (u : List Rat) (width height : Int) : List (List Rat) :=
  let naz := subAz width
  let nel := subEl height
  if naz = 1 ∧ nel = 1 then [u]
  else
    let th0 := fAtan2 (u.getD 0 0) (u.getD 1 0)
    let ph0 := fAsin (max (-1) (min 1 (u.getD 2 0)))
    let w := fAngle ((width : Rat) / 18000)
    let h := fAngle ((height : Rat) / 18000)
    let q := fAngle (1 / 2)
    let part (i n : Nat) : Rat := fSub (fDiv (fAdd i (1 / 2)) n) (1 / 2)
    (List.range nel).flatMap fun j => (List.range naz).map fun i =>
      let th := fAdd th0 (fMul w (part i naz))
      let ph := max (-q) (min q (fAdd ph0 (fMul h (part j nel))))
      [fMul (fCos ph) (fSin th), fMul (fCos ph) (fCos th), fSin ph]

/-- Constant power or constant amplitude (R198). -/
def gNorm (amp : Bool) (g : List Rat) : Rat := if amp then fSum g else fSqrt (fDot g g)

/-- Add to an accumulator by output. -/
def accAdd (a : Tab Rat) (o : Nat) (g : Rat) : Tab Rat := tset zeroAt a o (fAdd (tget zeroAt a o) g)

/-- The contributions of sub-source k in triangle t (R198). -/
def State.subGains (s : State) (set k t : Nat) (d : List Rat) (amp : Bool) (a : Tab Rat) : Tab Rat :=
  let g := (s.weights set t d).map (max · 0)
  let n := gNorm amp g
  let g := g.zipIdx.map fun x => if n = 0 then f32 ((Config.zeroNorm k x.2 : Rat) / 2 ^ 30) else fDiv x.1 n
  (List.zip (s.triVtx set t) g).foldl (fun a x =>
    if x.1 < 512 then accAdd a x.1 x.2
    else (List.range 8).foldl (fun a e =>
      let b := 16 * (x.1 - 512) + 2 * e
      if bitOf (s.mw set 2 b) 15 then accAdd a (bits (s.mw set 2 b) 8 0) (fMul x.2 (fFix 30 (sx 32 (s.mw set 2 (b + 1))))) else a) a) a

/-- The n entries with the largest values, ties to the lower key. -/
def keepLargest : Nat → List (Nat × Rat) → List (Nat × Rat)
  | 0, _ => []
  | n + 1, l =>
    match l.foldl (fun (b : Option (Nat × Rat)) x => match b with
      | some y => if y.2 < x.2 then some x else b
      | none => some x) none with
    | some x => x :: keepLargest n (l.filter fun y => y.1 != x.1)
    | none => []

/-- The permitted real vertex nearest to u (R200). -/
def State.fallbackVtx (s : State) (set zmask : Nat) (u : List Rat) : Option Nat :=
  ((List.range 512).foldl (fun (b : Option (Nat × Rat)) v =>
    if s.vtxPresent set v && s.vtxZones set v &&& zmask != 0 then
      let c := fDot (s.vtxDir set v) u
      match b with
      | some x => if x.2 < c then some (v, c) else b
      | none => some (v, c)
    else b) none).map Prod.fst

/-- What an object needs of its unit at a knot: triangles found, gains, full searches, and whether R200 applied. -/
structure Located where
  tris : List (Option Nat)
  foot : List (Nat × Int)
  searches : Nat
  fell : Bool
  deriving DecidableEq, Repr

/-- The fallback of R200: one vertex at gain 1.0, or nothing where the mask permits no vertex. -/
def State.fallback (s : State) (set zmask : Nat) (u : List Rat) (tris : List (Option Nat)) (n : Nat) : Located :=
  match s.fallbackVtx set zmask u with
    | some v => ⟨tris, [(v, 2 ^ 30)], n + 1, true⟩
    | none => ⟨tris, [], n + 1, true⟩

/-- A MESH knot (R198). -/
def State.meshKnot (s : State) (set : Nat) (prev : List (Option Nat)) (p : List Rat) (width height : Int) (zmask : Nat)
    (amp : Bool) : Located :=
  let u := unitDir p
  let ds := (subDirs u width height).zipIdx
  let found := ds.map fun d => s.locate3 set (match prev[d.2]? with | some t => t | none => prev.headD none) d.1
  let n := (found.filter fun x => x.2).length
  let tris := found.map fun x => some x.1
  let acc := (List.zip ds found).foldl (fun a x => s.subGains set x.1.2 x.2.1 x.1.1 amp a) []
  let acc := acc.filter fun x => s.vtxZones set x.1 &&& zmask != 0
  if acc = [] then s.fallback set zmask u tris n
  else
    let kept := keepLargest 16 ((List.range 512).map fun o => (o, tget zeroAt acc o))
    let m := gNorm amp (kept.map Prod.snd)
    let foot := kept.map fun x => (x.1, satI 32 (if m = 0 then Config.zeroNorm 16 x.1 else toFix 30 (fDiv x.2 m)))
    ⟨tris, (foot.filter fun x => x.2 != 0).mergeSort fun a b => decide (a.1 ≤ b.1), n, false⟩

/-- A SNAP knot without an assigned loudspeaker (R203). -/
def State.snapKnot (s : State) (set : Nat) (prev : List (Option Nat)) (p : List Rat) (zmask : Nat) : Located :=
  let u := unitDir p
  let f := s.locate3 set (prev.headD none) u
  let n := b2n f.2
  let ok := ((List.zip (s.triVtx set f.1) (s.weights set f.1 u)).filter fun x =>
    decide (x.1 < 512) && s.vtxZones set x.1 &&& zmask != 0)
  let best := ok.foldl (fun (b : Option (Nat × Rat)) x => match b with
    | some y => if y.2 < x.2 ∨ (y.2 = x.2 ∧ x.1 < y.1) then some x else b
    | none => some x) none
  match best with
  | some x => ⟨[some f.1], [(x.1, 2 ^ 30)], n, false⟩
  | none => s.fallback set zmask u [some f.1] n

/-! Pair geometry (R223–R225). -/

/-- The end taper (R224). -/
def taper (j count t : Nat) : Rat :=
  let u := min j (count - 1 - j)
  if u < t then fDiv (fSub 1 (fCos (fAngle (((u + 1 : Nat) : Rat) / ((t + 1 : Nat) : Rat))))) 2 else 1

/-- One pair (R223): the delay in samples and the gain, in binary32. -/
def State.pair (s : State) (set a j : Nat) (p pd : List Rat) (delta c : Rat) (foc : Bool) : Rat × Rat :=
  let si := posF (s.vtxPos set (s.arrFirst set a + j))
  let v := List.zipWith fSub si p
  let r := fNorm v
  let ni := dirF (s.arrW set a (32 + j))
  let cphi := if r < 1 / 64 then 0 else if foc then fDiv (-(fDot v ni)) r else fDiv (fDot v ni) r
  let rf := fFix 16 (sx 32 (s.arrW set a 11))
  let g := if cphi ≤ 0 then 0
    else
      let w := if foc then (if rf = 0 then 0 else max 0 (min 1 (fMul 8 (fSub 1 (fDiv r rf))))) else 1
      let rg := max (fSqrt (fAdd (fMul r r) (fMul delta delta))) (max (fFix 16 (sx 32 (s.arrW set a 10))) (1 / 64))
      fMul (fMul (fMul (fMul (fFix 30 (sx 32 (s.arrW set a 2))) cphi)
        (fSqrt (fDiv (fFix 16 (sx 32 (s.arrW set a 3))) rg))) w) (taper j (s.arrCount set a) (bits (s.arrW set a 5) 8 0))
  let rd := fNorm (List.zipWith fSub si pd)
  let e := fSub (fDiv (fMul (if foc then -48000 else 48000) rd) c) (fFix 16 (sx 32 (s.arrW set a 4)))
  (e, g)

/-- All pairs of an object (R222, R225): (output, E, G), and how many gains saturated. -/
def State.pairTable (s : State) (set : Nat) (c : Rat) (p pd : List Rat) (delta : Rat) (zmask : Nat) : List (Nat × Int × Nat) × Nat :=
  let all := ((List.range 32).filter fun a => s.arrEn set a && bits (s.arrW set a 1) 15 0 &&& zmask != 0).flatMap fun a =>
    let ca := posF ((List.range 3).map fun w => sx 32 (s.arrW set a (6 + w)))
    let foc := decide (0 < fDot (List.zipWith fSub p ca) (dirF (s.arrW set a 9)))
    (List.range (s.arrCount set a)).map fun j =>
      let q := s.pair set a j p pd delta c foc
      let g := (toFix 15 q.2).toNat
      (s.arrFirst set a + j, satI 24 (toFix 10 q.1), min g 65535, decide (65536 ≤ g))
  ((all.map fun x => (x.1, x.2.1, x.2.2.1)), (all.filter fun x => x.2.2.2).length)

/-! A knot. -/

/-- A knot's entries in the pair table: none outside WAVEFRONT mode (R222). -/
def Knot.table (k : Knot) : List (Nat × Int × Nat) := if k.mode = 2 then k.pairs else []

/-- The knot of object o for a render slot, if its unit has computed it. -/
def State.knot (s : State) (o slot : Nat) : Option Knot := (s.knots.find? fun e => e.1 == o * 2 ^ 64 + slot).map Prod.snd

/-- The latest knot of object o before a slot, with its slot; slots whose work was dropped have none (R34). -/
def State.lastKnot (s : State) (o slot : Nat) : Option (Nat × Knot) :=
  ((s.knots.filter fun e => decide (e.1 / 2 ^ 64 = o) && decide (e.1 % 2 ^ 64 < slot)).foldl (fun (b : Option (Nat × Knot)) e =>
    match b with
    | some x => if x.1 < e.1 then some e else b
    | none => some e) none).map fun e => (e.1 % 2 ^ 64, e.2)

/-- The same without the slot. -/
def State.knotBefore (s : State) (o slot : Nat) : Option Knot := (s.lastKnot o slot).map Prod.snd

/-- The latest knot that a geometry unit has delivered for an object. -/
def State.latestKnot (s : State) (o : Nat) : Option Knot :=
  ((s.knots.filter fun e => decide (e.1 / 2 ^ 64 = o)).getLast?).map Prod.snd

def State.setKnot (s : State) (o slot : Nat) (k : Knot) : State :=
  { s with knots := s.knots.filter (fun e => decide (e.1 ≠ o * 2 ^ 64 + slot) &&
      (decide (e.1 / 2 ^ 64 ≠ o) || decide (slot ≤ e.1 % 2 ^ 64 + 8))) ++ [(o * 2 ^ 64 + slot, k)] }

/-! What is ACTIVE in a slot (R194): a commit takes effect from its slot on, also where a stage still works on earlier ones. -/

/-- The delay base B = 6·pad + F of an object (R230). -/
def State.lineBase (s : State) (o : Nat) : Nat := 6 * tget zeroAt s.pads (eObject o) + s.preDelay s.mset

/-- Commits whose crossfades of the line read of an object may still run, newest first (R206, R208, R233). -/
def State.lineSteps (s : State) (o : Nat) : List LineStep := tget (fun _ => []) s.lineHist o

/-- The commits after a slot, the first of them first. -/
def State.erasAfter (s : State) (slot : Nat) : List ObjEra := (s.objEras.filter fun e => decide (slot < e.slot)).reverse

/-- The mould set and τ_R of a slot. -/
def State.setIn (s : State) (slot : Nat) : Nat :=
  if (s.bankAhead slot).isSome then s.n 0x68080 % 2 else match s.erasAfter slot with | e :: _ => e.set | [] => s.mset
def State.tauIn (s : State) (slot : Nat) : Nat :=
  match (s.bankAhead slot).bind fun p => p.ahead with
  | some a => a.1
  | none => match s.erasAfter slot with | e :: _ => e.tau | [] => s.tauR

/-- Object o as it is in a slot. -/
def State.objIn (s : State) (o slot : Nat) : ObjGone :=
  match (s.bankAhead slot).bind fun p => p.ahead with
  | some a =>
    let r := s.objRec 0 o
    ⟨o, r, tget zeroAt a.2 o, tget zeroAt s.lineFrom (oVat r * 32 + oSlot r), []⟩
  | none =>
    match ((s.erasAfter slot).flatMap fun e => e.objs).find? fun g => g.obj == o with
    | some g => g
    | none =>
      let r := s.objRec 1 o
      ⟨o, r, s.lineBase o, tget zeroAt s.lineFrom (oVat r * 32 + oSlot r), s.lineSteps o⟩

/-- The record of object o in a slot. -/
def State.recIn (s : State) (o slot : Nat) : List Nat := (s.objIn o slot).rcd

/-- The objects enabled in a slot, in ascending order. -/
def State.objsIn (s : State) (slot : Nat) : List Nat :=
  if (s.bankAhead slot).isSome then s.objEnabled 0
  else match s.erasAfter slot with
  | [] => s.objEnabled 1
  | l => ((s.objEnabled 1 ++ l.flatMap fun e => e.objs.map ObjGone.obj).eraseDups.filter fun o => oEn (s.recIn o slot)).mergeSort
      fun a b => decide (a ≤ b)

/-- The enabled objects of a vat in a slot. -/
def State.vatObjs (s : State) (v slot : Nat) : List Nat := (s.objsIn slot).filter fun o => decide (oVat (s.recIn o slot) = v)

/-- The input sheet that a render slot renders (R30), by sheet numbers as they stand now. -/
def State.renderSheet (s : State) (slot : Nat) : Int := (s.sheet : Int) - s.slot + slot - s.tauIn slot

/-- The mode that an object renders in at sample t of a slot: never WAVEFRONT in a standard slot (R184). -/
def State.modeAt (s : State) (o slot : Nat) (t : Int) : Nat :=
  let m := stepAt (s.obj o).mode t
  if m = 2 ∧ 16 ≤ oSlot (s.recIn o slot) then 1 else m

/-- The distance part of the delay and β at a position (R206, R207). -/
def State.distBeta (s : State) (set : Nat) (c : Rat) (r : List Nat) (p : List Rat) : Int × Int :=
  let d := max 0 (fSub (fNorm p) (fFix 16 (s.distRef set)))
  let a := min (f32 (95 / 100)) (fMul (f32 ((oRate r : Rat) / 2 ^ 20)) d)
  (toFix 8 (fDiv (fMul 48000 d) c), toFix 30 (fSub 1 a))

/-- The distance delay of a record at a knot, in 1/256 samples (R206). -/
def ddist (r : List Nat) (k : Knot) : Int :=
  if oDist r = 0 then 0 else if oDist r = 1 then oDly r else oDly r + k.dpart

/-- Whether a position ramp is in progress at t (R228). -/
def State.posRamping (s : State) (o : Nat) (t : Int) : Bool :=
  match segAt (s.obj o).pos t with
  | some g => decide (g.at0 ≤ t) && decide (t < g.at0 + g.ramp)
  | none => false

/-- A change of record moves an object: it enables or disables it, or gives it another line (R186). -/
def objMoves (a b : List Nat) : Bool := !oEn a || !oEn b || oKey a != oKey b

/-- The knot of object o before a slot that its unit goes on from (R186, R201): none from the commit on that enables the object again. -/
def State.walkBefore (s : State) (o slot : Nat) : Option (Nat × Knot) :=
  (s.lastKnot o slot).filter fun k => match s.bankAhead slot with
    | some p => oEn (s.objRec 1 o) || decide (s.pressSlot p ≤ k.1)
    | none => true

/-- A full search of object o is requested that its last knot before the slot has not answered (R195, R201): the mould sets have swapped
or a commit has discarded the walk since. -/
def State.searchOwed (s : State) (o slot : Nat) : Bool :=
  let since (c : Nat) : Bool := decide (c ≤ slot) && (match s.lastKnot o slot with | some k => decide (k.1 < c) | none => true)
  s.swapSlot.any since || since (tget zeroAt s.objMoved o) ||
    (s.bankAhead slot).any fun p => since (s.pressSlot p) &&
      (s.n 0x68080 % 2 != s.mset || objMoves (s.objRec 1 o) (s.objRec 0 o))

/-- The knot of object o for a slot, with the full searches it takes and the quota left (R193, R201, R202). -/
def State.objKnot (s : State) (o slot quota : Nat) : Nat × State :=
  let r := s.recIn o slot
  let set := s.setIn slot
  let t := 6 * s.renderSheet slot + 5
  let x := s.obj o
  let prev := (s.walkBefore o slot).map Prod.snd
  let c := s.soundSpeed slot
  let mode := s.modeAt o slot t
  let pos := pathAt x.pos t
  let p := posF pos
  let spread := pathAt x.spread t
  let zmask := stepAt x.zones t
  let fl := stepAt x.flags t
  let db := s.distBeta set c r p
  let changed := match prev with | some k => k.mode != mode | none => true
  let need := (match prev with | some k => k.need | none => true) || (changed && (mode = 1 || mode = 3))
    || s.searchOwed o slot
  let tris := if need then [] else match prev with | some k => k.tris | none => []
  let pd := if oNoDop r && s.posRamping o t then (match prev with | some k => k.pd | none => pos) else pos
  let base : Knot := ⟨mode, match prev with | some k => k.tris | none => [], [], db.1, db.2, [], pd, false, need⟩
  let clamp (s : State) : State :=
    if (mode = 1 ∨ mode = 3) ∧ (256 * (lineLen (oSlot r) - 1) : Int) - 1 < 256 * (s.objIn o slot).base + ddist r base then
      (s.addW R.OBJ0_DIST_CLAMP_CNT_COUNT 1).latch eOBJ 4
    else s
  let locate (l : Located) : Nat × State :=
    if quota < l.searches then
      let s := ((s.addW R.OBJ0_HOLD_CNT_COUNT 1).setMap 0x61100 o true).latch eOBJ 2
      (quota, (clamp s).setKnot o slot { base with foot := match prev with | some k => k.foot | none => [], held := true })
    else
      let s := s.addW R.OBJ0_SEARCH_CNT_COUNT l.searches
      let s := if l.fell then (s.addW R.OBJ0_FALLBACK_CNT_COUNT 1).latch eOBJ 3 else s
      (quota - l.searches, (clamp s).setKnot o slot { base with tris := l.tris, foot := l.foot, need := false })
  if mode = 0 then (quota, s.setKnot o slot base)
  else if mode = 2 then
    let q := s.pairTable set c p (posF pd) (fFix 8 (spread.getD 2 0)) zmask
    let v := oVat r
    let s := (s.addW (R.VAT_GAIN_SAT_CNT_COUNT.pg v) q.2).latchN (eVAT v) 1 q.2
    (quota, s.setKnot o slot { base with pairs := q.1 })
  else if mode = 3 ∧ bitOf fl 1 then (quota, (clamp s).setKnot o slot { base with foot := [(oSpk r, 2 ^ 30)] })
  else if s.ntri set = 0 then (quota, (clamp s).setKnot o slot base)
  else if mode = 3 then locate (s.snapKnot set tris p zmask)
  else locate (s.meshKnot set tris p (spread.getD 0 0) (spread.getD 1 0) zmask (bitOf fl 0))

/-- The objects of a cluster in a slot. -/
def State.clusterObjs (s : State) (g slot : Nat) : List Nat := (s.objsIn slot).filter fun o => decide (oVat (s.recIn o slot) / 8 = g)

/-- One cluster computes every knot of a slot: those that held first, then the others (R202); HOLDING is 1 while an object holds (R212). -/
def State.clusterKnots (s : State) (g slot : Nat) : State :=
  if !s.pageOn eOBJ then s
  else
    let l := s.clusterObjs g slot
    let held (o : Nat) : Bool := (s.walkBefore o slot).any fun k => k.2.held
    let q := (l.filter held ++ l.filter fun o => !held o).foldl (fun (q : Nat × State) o => q.2.objKnot o slot q.1) (16, s)
    q.2.putB R.OBJ0_S_HOLDING ((q.2.objEnabled 1).any fun o => (q.2.latestKnot o).any fun k => k.held)

end Sys2Proof.Machine
end

