-- ==== Sys2Proof/Machine/Vat.lean ====
section
/-! DEFINITION. The vats (06_objects_and_mould R186, R192, R193, R205–R208; 07_wavefront R226–R236): writing an object's line, the
mesh read, the wavefront pairs, auxiliary sends, and a vat's partial sums. -/

namespace Sys2Proof.Machine

/-- Sheets of the object lines, by vat * 32 + slot: what the vat wrote in a slot (R205, R236). -/
def aLine : Nat := 12

/-! Sources (R184, R236). -/

/-- The sheet of a record's source that the vat writes in a slot (λ = 1). -/
def State.objSource (s : State) (r : List Nat) (slot : Nat) : List Int :=
  if slot = 0 then padTo 6 []
  else if oKind r = 0 then s.inputAt (oSrc r) (slot - 1) else s.sheetOf aIeOut (oSrc r) (slot - 1)

/-! Pre-filter (R235). -/

/-- PF_ACT_k as K, then z_m and p_m of the three sections, 30 fractional bits; none where PF_EN is 0. -/
def State.pfCoef (s : State) (v k : Nat) : Option (Int × List (Int × Int)) :=
  let c := s.n (0x401C0 + 0x1000 * v + 4 * k)
  if !bitOf c 31 then none
  else
    let lo := clampN 20 2000 (bits c 10 0)
    let hi := clampN (2 * lo) (min (64 * lo) 16000) (bits c 29 16)
    let rho := fPow (fDiv hi lo) (fDiv 1 6)
    let pole (x : Rat) : Rat := fExp (fDiv (fMul (fMul (fAngle (-2)) lo) (fPow rho x)) 48000)
    let zp := [1, 2, 3].map fun (m : Nat) => (pole (2 * (m : Rat) - 3 / 2), pole (2 * (m : Rat) - 1 / 2))
    let kk := zp.foldl (fun a x => fMul a (fDiv (fSub 1 x.2) (fSub 1 x.1))) 1
    let c30 (q : Rat) : Int := satI 32 (toFix 30 q)
    some (c30 kk, zp.map fun x => (c30 x.1, c30 x.2))

/-- One sample through the sections: each adds its state and keeps p·out − z·in. -/
def pfSections (x : Int) : List ((Int × Int) × Int) → Int × List Int
  | [] => (x, [])
  | ((z, p), w) :: t =>
    let y := x + w
    let q := pfSections y t
    (q.1, satI 40 (rndShr (p * y - z * x) 30) :: q.2)

/-- A sheet through the pre-filter: samples before saturation, and the states. -/
def pfRun (k : Int) (zp : List (Int × Int)) : List Int → List Int → List Int × List Int
  | [], st => ([], st)
  | x :: t, st =>
    let q := pfSections (rndShr (k * x) 30) (List.zip zp st)
    let r := pfRun k zp t q.2
    (q.1 :: r.1, r.2)

/-! Air absorption (R205, R207, R236). -/

/-- A value between two knots, at sample i of the sheet (R193). -/
def lerp6 (a b : Int) (i : Nat) : Int := a + rndDiv ((b - a) * ((i : Int) + 1)) 6

/-- The one-pole filter over samples with 35 fractional bits, β by sample. -/
def airRun (on : Bool) (bp bn : Int) : Nat → List Int → Int → List Int × Int
  | _, [], y => ([], y)
  | i, x :: t, y =>
    let y := if on then satI 40 (y + rndShr (lerp6 bp bn i * (x - y)) 30) else x
    let r := airRun on bp bn (i + 1) t y
    (y :: r.1, r.2)

/-! Writing the line (R236). -/

/-- What a vat writes: the samples, the filter states after them and the saturated samples. -/
structure LineWrite where
  out : List Int
  pf : List Int
  air : Int
  sat : Nat
  deriving DecidableEq, Repr

/-- One sheet of a record's source on its way into the line. -/
def State.lineWrite (s : State) (r : List Nat) (slot : Nat) (kp kn : Option Knot) : LineWrite :=
  let v := oVat r
  let sl := oSlot r
  let src := s.objSource r slot
  let st := padTo 3 (tget silence s.pfSt (v * 32 + sl))
  let a := tget zeroAt s.airW (v * 32 + sl)
  if 16 ≤ sl then ⟨src, st, a, 0⟩
  else
    let q := match s.pfCoef v sl with | some c => pfRun c.1 c.2 src st | none => (src, st)
    let f := q.1.map (satI 32)
    let bn := match kn with | some k => k.beta | none => 2 ^ 30
    let bp := match kp with | some k => k.beta | none => bn
    let y := airRun (oAir r) bp bn 0 (f.map (· * 256)) a
    let wf := match kn with | some k => k.mode == 2 | none => false
    ⟨if wf then y.1.map (rndShr · 8) else src, q.2, y.2, (q.1.filter (ovfI 32)).length⟩

/-- The line of a record as a vat reads it in a slot: what it writes now, and what it wrote from slot `first` on. -/
def State.lineAt (s : State) (r : List Nat) (slot first : Nat) (cur : List Int) (pos : Int) : Int :=
  if pos < 6 * first then 0
  else
    let x := (pos / 6).toNat
    (if x = slot then cur else s.sheetOf aLine (oVat r * 32 + oSlot r) x).getD (pos % 6).toNat 0

/-! Reads. -/

/-- The linear read of R205 at a delay in 1/256 samples: 35 fractional bits. -/
def meshRead (ln : Int → Int) (t : Int) (d : Int) : Int :=
  let k := d / 256
  let q := d % 256
  256 * ln (t - k) + q * (ln (t - k - 1) - ln (t - k))

/-- The Lagrange coefficients of R231 for q = m / 1024, 30 fractional bits. -/
def lagrange (m : Int) : List Int :=
  [rndDiv (-(m * (m - 1024) * (m - 2048))) 6, rndDiv ((m + 1024) * (m - 1024) * (m - 2048)) 2,
   rndDiv (-((m + 1024) * m * (m - 2048))) 2, rndDiv ((m + 1024) * m * (m - 1024)) 6]

/-- The limits of D (R230), in 1/1024 samples. -/
def wfClamp (d : Int) : Int := clampI 1024 (8190 * 1024 - 1) d

/-- The interpolated read of R230 and R231 at a delay in 1/1024 samples. -/
def wfRead (ln : Int → Int) (t d : Int) : Int :=
  let d := wfClamp d
  let k := d / 1024
  rndShr ((List.zipWith (· * ·) (lagrange (d % 1024)) [ln (t - k + 1), ln (t - k), ln (t - k - 1), ln (t - k - 2)]).sum) 30

/-- round30 of R232: a product of factors with 30 fractional bits each, n of them beyond the first. -/
def round30 (p : Int) (n : Nat) : Int := satI 32 (rndShr p (30 * n))

/-! Rendering an object (R192, R205, R208, R226–R234). -/

/-- What an object adds in a sheet: contributions (bus, sample, value), air state, clamped pairs, switches, base crossfade. -/
structure Rendered where
  adds : List (Nat × Nat × Int)
  air : Int
  clamps : Nat
  jumps : Nat
  fading : Bool
  deriving DecidableEq, Repr

/-- The weight of a mode in a sheet: 1, or the window of a mode sheet (R192). -/
def modeW (change new : Bool) (i : Nat) : Int := if !change then 2 ^ 30 else if new then w6 i else w6 (5 - i)

/-- A value read under the base and record in force, after the commits of a list (R206, R233): each commit's reading fades in over 48
samples from the reading before it. A base that grows reads the line's older samples at once, with no silent gap (DESIGN CHOICE, log
entry 172). t is the sample, 6 a slot. -/
def baseMix (rd : Nat → List Nat → Int) (t : Nat) : Nat → List Nat → List LineStep → Int
  | b, r, [] => rd b r
  | b, r, x :: h =>
    if t < 6 * x.slot then baseMix rd t x.base x.rcd h
    else if 6 * x.slot + 48 ≤ t then rd b r
    else blendW (baseMix rd t x.base x.rcd h) (rd b r) (vWin 48 (t - 6 * x.slot))

/-- Send k of two records is one send: enabled in both, on one bus. -/
def sameSend (a b : List Nat) (k : Nat) : Bool := oAuxEn a k && oAuxEn b k && oAuxBus a k == oAuxBus b k

/-- The linear gain of send k at sample t (R208): a commit that changes it ramps over 48 samples from what it was. -/
def sendGain (k : Nat) : Nat → List Nat → List LineStep → Int
  | _, r, [] => metaGain (oAuxGain r k)
  | t, r, x :: h =>
    let g := metaGain (oAuxGain r k)
    if !sameSend x.rcd r k ∨ 6 * x.slot + 48 ≤ t then g
    else
      let g0 := sendGain k (6 * x.slot) x.rcd h
      g0 + rndDiv ((g - g0) * ((t : Int) - 6 * x.slot)) 48

/-- Auxiliary sends at sample i of a slot (R208): (bus, linear gain with 30 fractional bits, weight). In the commit sheet a send whose
bus or enable changed fades out, and the new one in. -/
def auxSends (h : List LineStep) (r : List Nat) (slot i : Nat) : List (Nat × Int × Int) :=
  [0, 1].flatMap fun k =>
    let one (w : Int) (r : List Nat) (h : List LineStep) : List (Nat × Int × Int) :=
      if oAuxEn r k then [(oAuxBus r k, sendGain k (6 * slot + i) r h, w)] else []
    match h with
    | x :: t =>
      if x.slot = slot ∧ sameSend x.rcd r k = false ∧ (oAuxEn x.rcd k || oAuxEn r k) then
        one (w6 (5 - i)) x.rcd t ++ one (w6 i) r []
      else one (2 ^ 30) r h
    | [] => one (2 ^ 30) r []

/-- The bases that a read mixes at sample t (R233). -/
def basesAt (t : Nat) : Nat → List LineStep → List Nat
  | b, [] => [b]
  | b, x :: h =>
    if t < 6 * x.slot then basesAt t x.base h
    else if 6 * x.slot + 48 ≤ t then [b]
    else b :: basesAt t x.base h

/-- One wavefront pair over a sheet: six samples (0 where the gain is 0), whether it clamped and whether it switched. -/
def wfPair (ln : Int → Int) (t0 b : Nat) (h : List LineStep) (gobj : Nat → Int) (change enter leave nodop : Bool)
    (lim : Int) (p n : Int × Nat) : List Int × Bool × Bool :=
  let sw := !change && p.2 != 0 && n.2 != 0 && (decide (lim * 1024 < |n.1 - p.1|) || (nodop && n.1 != p.1))
  let one (i : Nat) (e : Int) : Int := baseMix (fun b _ => wfRead ln (t0 + i : Nat) (1024 * (b : Int) + e)) (t0 + i) b [] h
  let e (i : Nat) : Int :=
    if enter then n.1 else if leave then p.1 else if p.2 = 0 then n.1 else if n.2 = 0 then p.1 else lerp6 p.1 n.1 i
  let g (i : Nat) : Int :=
    if enter then round30 (gobj i * ((n.2 : Int) * 32768) * w6 i) 2
    else if leave then round30 (gobj i * ((p.2 : Int) * 32768) * w6 (5 - i)) 2
    else round30 (gobj i * rndDiv (((p.2 : Int) * (5 - i) + (n.2 : Int) * (i + 1)) * 32768) 6) 1
  let es (i : Nat) : List Int := if sw then [p.1, n.1] else [e i]
  let used := if enter then n.2 != 0 else if leave then p.2 != 0 else p.2 != 0 || n.2 != 0
  let cl := (List.range 6).any fun i => (es i).any fun e => (basesAt (t0 + i) b h).any fun b =>
    wfClamp (1024 * (b : Int) + e) != 1024 * (b : Int) + e
  if !used then ([], false, false)
  else
    ((List.range 6).map fun i =>
      let x := if sw then blend2 (one i p.1) (one i n.1) i else one i (e i)
      rndShr (x * g i) 30, cl, sw)
where
  /-- The switch of R227. -/
  blend2 (a b : Int) (i : Nat) : Int := rndShr (w6 (5 - i) * a + w6 i * b) 30

/-- An object as it is in a render slot: knots before and of the slot, its entries in the pair table before, the line, an overall
fade-out (R186). -/
def State.renderRec (s : State) (slot : Nat) (g : ObjGone) (kp : Option Knot) (pp : List (Nat × Int × Nat)) (kn : Knot)
    (ln : Int → Int) (fadeOut : Bool) : Rendered :=
  let o := g.obj
  let r := g.rcd
  let b1 := g.base
  let h := g.hist
  let v := oVat r
  let t0 : Nat := 6 * slot
  let n := s.renderSheet slot
  let gobj (i : Nat) : Int := (pathAt (s.obj o).gain (6 * n + i)).headD 0
  let len := lineLen (oSlot r)
  let lmax : Int := 256 * (len - 1) - 1
  let kq := kp.getD kn
  let xs := (List.range 6).map fun i => baseMix (fun b rec =>
    meshRead ln (t0 + i : Nat) (min lmax (256 * (b : Int) + lerp6 (ddist rec kq) (ddist rec kn) i))) (t0 + i) b1 r h
  let ys := airRun (oAir r) kq.beta kn.beta 0 xs (tget zeroAt s.airR (v * 32 + oSlot r))
  let change := match kp with | some k => k.mode != kn.mode | none => false
  let out (i : Nat) : Int := if fadeOut then w6 (5 - i) else 2 ^ 30
  -- mesh and SNAP
  let mesh (k : Knot) : Bool := k.mode = 1 || k.mode = 3
  let meshAdds := (List.range 6).flatMap fun i =>
    let y := ys.1.getD i 0
    let put (bus : Nat) (g : Int) : Nat × Nat × Int := (bus, i, rndShr (rndShr (y * g) 38 * out i) 30)
    if change then
      (if mesh kq then kq.foot.map fun f => put f.1 (round30 (gobj i * f.2 * w6 (5 - i)) 2) else []) ++
      (if mesh kn then kn.foot.map fun f => put f.1 (round30 (gobj i * f.2 * w6 i) 2) else [])
    else if mesh kn then
      let gp : Tab Int := match kp with | some k => tsetAll zeroAt [] k.foot | none => []
      let gn : Tab Int := tsetAll zeroAt [] kn.foot
      let js := kn.foot.map Prod.fst ++ (gp.map Prod.fst).filter fun b => !(kn.foot.any fun f => f.1 == b)
      js.map fun b =>
        put b (satI 32 (rndDiv (gobj i * (tget zeroAt gp b * (5 - i) + tget zeroAt gn b * (i + 1))) (6 * 2 ^ 30)))
    else []
  -- wavefront
  let enter := change && kn.mode == 2
  let leave := change && kq.mode == 2
  let pn := kn.table
  let outs := pn.map Prod.fst ++ (pp.map Prod.fst).filter fun b => !(pn.any fun f => f.1 == b)
  let at0 (l : List (Nat × Int × Nat)) (b : Nat) : Int × Nat := match l.find? fun f => f.1 == b with | some f => f.2 | none => (0, 0)
  let lim : Int := clampN 1 6 (s.get (R.VAT_JUMP_CFG_JUMP_LIM.pg v))
  let pairs := outs.map fun b =>
    (b, wfPair ln t0 b1 h gobj change enter leave (oNoDop r) lim (at0 pp b) (at0 pn b))
  let wfAdds := pairs.flatMap fun q => q.2.1.zipIdx.map fun x => (q.1, x.2, rndShr (x.1 * out x.2) 30)
  -- auxiliary sends
  let auxAdds := (List.range 6).flatMap fun i =>
    let y := ys.1.getD i 0
    let dry := baseMix (fun b _ => ln ((t0 + i : Nat) - (b : Int))) (t0 + i) b1 r h
    let sends := auxSends h r slot i
    let part (k : Knot) (new : Bool) : List (Nat × Nat × Int) :=
      if k.mode = 0 then []
      else sends.map fun q =>
        let g := round30 (gobj i * q.2.1 * q.2.2 * modeW change new i) 3
        (512 + q.1, i, rndShr ((if k.mode = 2 then rndShr (dry * g) 30 else rndShr (y * g) 38) * out i) 30)
    (if change then part kq false else []) ++ part kn true
  ⟨meshAdds ++ wfAdds ++ auxAdds, ys.2, (pairs.filter fun q => q.2.2.1).length, (pairs.filter fun q => q.2.2.2).length,
    pairs.any fun q => q.2.2.2 || (!q.2.1.isEmpty && (basesAt t0 b1 h).any (· != b1))⟩

/-! A vat's sheet. -/

/-- Add contributions to partial sums by bus. -/
def addPart (a : Tab (List Int)) (l : List (Nat × Nat × Int)) : Tab (List Int) :=
  l.foldl (fun a q =>
    let b := padTo 6 (tget silence a q.1)
    tset silence a q.1 (b.set q.2.1 (b.getD q.2.1 0 + q.2.2))) a

/-- Write the line of an object and keep its filter states (R236). -/
def State.writeLine (s : State) (r : List Nat) (slot : Nat) (kp kn : Option Knot) : State :=
  let v := oVat r
  let k := v * 32 + oSlot r
  let w := s.lineWrite r slot kp kn
  let s := s.putSheet aLine k slot w.out
  let s := { s with
    pfSt := tset silence s.pfSt k (if w.pf.all (· = 0) then [] else w.pf)
    airW := tset zeroAt s.airW k w.air }
  (s.addW (R.VAT_PF_SAT_CNT_COUNT.pg v) w.sat).latchN (eVAT v) 2 w.sat

/-- The vat renders: it contributes only while VAT and OBJ are enabled (R212, R239). -/
def State.vatOn (s : State) (v : Nat) : Bool := s.is (R.VAT_C_EN.pg v) && s.is R.OBJ0_C_EN

/-- Take what an object rendered: its counters, air state and contributions. -/
def State.take (s : State) (v : Nat) (q : Rendered) : State :=
  let s := (s.addW (R.VAT_DLY_CLAMP_CNT_COUNT.pg v) q.clamps).latchN (eVAT v) 0 q.clamps
  let s := (s.addW (R.VAT_JUMP_CNT_COUNT.pg v) q.jumps).latchN (eVAT v) 3 q.jumps
  s.onlyIf q.fading fun s => s.putB (R.VAT_S_XFADE.pg v) true

/-- The objects that a commit at a slot moved or disabled, as they were (R186). -/
def State.objsGone (s : State) (slot : Nat) : List ObjGone :=
  match s.objEras.find? fun e => e.slot == slot with
  | some e => e.objs.filter fun g => oEn g.rcd && (!oEn (s.recIn g.obj slot) || oKey g.rcd != oKey (s.recIn g.obj slot))
  | none => []

/-- The old output of such an object, at its old delay (R186). -/
def State.fadeObj (s : State) (slot : Nat) (a : Tab (List Int)) (g : ObjGone) : Tab (List Int) × State :=
  match s.knotBefore g.obj slot with
  | none => (a, s)
  | some k =>
    let cur := (s.lineWrite g.rcd slot (some k) (some k)).out
    let q := s.renderRec slot g (some k) k.table k (s.lineAt g.rcd slot g.first cur) true
    (addPart a q.adds, s.take (oVat g.rcd) q)

/-- The object that stands in slot sl of vat v in a render slot: the enabled one. -/
def State.occupant (s : State) (v sl slot : Nat) : Option Nat := (s.vatObjs v slot).find? fun o => oSlot (s.recIn o slot) == sl

/-- The entries of slot sl of vat v, where object o stands now, in the pair table of the latest knot before a slot (R222): those of the
object that stood there then. -/
def State.pairsBefore (s : State) (o v sl slot : Nat) : List (Nat × Int × Nat) :=
  let n := match s.lastKnot o slot with | some k => k.1 | none => slot - 1
  match (s.occupant v sl n).bind fun x => s.knotBefore x (n + 1) with
  | some k => if n < slot then k.table else []
  | none => []

/-- An enabled object of the vat: its line, then its output. -/
def State.liveObj (s : State) (v slot : Nat) (a : Tab (List Int)) (o : Nat) : Tab (List Int) × State :=
  let g := s.objIn o slot
  let r := g.rcd
  let kp := s.knotBefore o slot
  let kn := s.knot o slot
  let s := s.writeLine r slot kp kn
  match kn with
  | none => (a, s)
  | some k =>
    let cur := s.sheetOf aLine (v * 32 + oSlot r) slot
    let q := s.renderRec slot g kp (s.pairsBefore o v (oSlot r) slot) k (s.lineAt r slot g.first cur) false
    let s := { s with airR := tset zeroAt s.airR (v * 32 + oSlot r) q.air }
    if s.vatOn v then (addPart a q.adds, s.take v q) else (a, s)

/-- Vat v renders a slot: its partial sums by bus (0–511 loudspeakers, 512–575 auxiliary buses). -/
def State.vatSheet (s : State) (v slot : Nat) : State :=
  if !s.pageOn (eVAT v) then s
  else
    let s := s.putB (R.VAT_S_XFADE.pg v) false
    let fades := if s.vatOn v then (s.objsGone slot).filter fun g => oVat g.rcd == v else []
    let q := fades.foldl (fun (q : Tab (List Int) × State) g => q.2.fadeObj slot q.1 g) ([], s)
    let q := (q.2.vatObjs v slot).foldl (fun (q : Tab (List Int) × State) o => q.2.liveObj v slot q.1 o) q
    let keep := q.2.partials.filter fun e => decide (slot ≤ e.1 / 32 + 2)
    { q.2 with partials := tset (fun _ => []) keep (slot * 32 + v) q.1 }

/-- The partial sum of a bus over the 32 vats for a slot (the reduction tree): exact, 40 bits suffice (R205). -/
def State.busSum (s : State) (bus slot : Nat) : List Int :=
  (List.range 32).foldl (fun a v =>
    List.zipWith (· + ·) a (padTo 6 (tget silence (tget (fun _ => []) s.partials (slot * 32 + v)) bus))) (padTo 6 [])

/-! What VAT shows (R239, R240). -/

/-- The object that the ACTIVE bank places in a slot: the enabled one, else the lowest that names it. -/
def State.slotObj (s : State) (v sl : Nat) : Option Nat :=
  (s.objEnabled 1).find? fun o => decide (oVat (s.objRec 1 o) = v) && decide (oSlot (s.objRec 1 o) = sl)

/-- The slot of the latest knot that a cluster's geometry unit has delivered (`geo` is its stage, which computes at its start). -/
def latestSlot (geo : StageSt) : Nat := if geo.busy then geo.next else geo.next - 1

/-- The latest knot of the object that stood in a slot of the vat at that knot (R222). -/
def State.slotKnot (s : State) (v sl : Nat) : Option Knot :=
  let n := latestSlot (tget (fun _ => ⟨0, false⟩) s.stages (1 + v / 8))
  (s.occupant v sl n).bind fun o => s.knotBefore o (n + 1)

/-- WF_MAP. -/
def State.wfMap (s : State) (v : Nat) : Nat :=
  (List.range 16).foldl (fun a k => match s.slotKnot v k with | some x => if x.mode = 2 then a + 2 ^ k else a | none => a) 0

/-- PAIRS_ACTIVE. -/
def State.pairsActive (s : State) (v : Nat) : Nat :=
  ((List.range 16).map fun k => match s.slotKnot v k with
    | some x => (x.table.filter fun p => p.2.2 != 0).length
    | none => 0).sum

/-- PAIR_DATA_w. -/
def State.pairData (s : State) (v w : Nat) : Nat :=
  let out := 32 * s.get (R.VAT_PAIR_SEL_BLOCK.pg v) + w
  match s.slotKnot v (s.get (R.VAT_PAIR_SEL_SLOT.pg v)) with
  | some x =>
    match x.table.find? fun p => p.1 == out with
    | some p => if s.is (R.VAT_PAIR_SEL_FIELD.pg v) then p.2.2 else satTz 32 p.2.1
    | none => 0
  | none => 0

/-- The mode of object o of vat v at the latest knot of its cluster: that of its own knot, or where it is disabled that of its path, which
keeps advancing (R186). -/
def State.modeShown (s : State) (v o : Nat) : Nat :=
  let n := latestSlot (tget (fun _ => ⟨0, false⟩) s.stages (1 + v / 8))
  match (s.latestKnot o).filter fun _ => oEn (s.recIn o n) with
  | some k => k.mode
  | none => s.modeAt o n (6 * s.renderSheet n + 5)

/-- OBJ_MAP_k: an object stands in the slot that its record names, enabled or not. -/
def State.objMap (s : State) (v k : Nat) : Nat :=
  match s.slotObj v k with
  | some o => o + 2 ^ 15 + s.modeShown v o * 2 ^ 16
  | none =>
    match leastN 1024 fun o => decide (oVat (s.objRec 1 o) = v) && decide (oSlot (s.objRec 1 o) = k) with
    | some o => o + s.modeShown v o * 2 ^ 16
    | none => 0

end Sys2Proof.Machine
end

