-- ==== Sys2Proof/Machine/Mix.lean ====
section
/-! DEFINITION. The reduction tree and MIX (08_buses_and_outputs R242–R255): buses, readings of crosspoints and home feeds, the test
generator, sinks, auxiliary buses and their compressors, the fader path. -/

namespace Sys2Proof.Machine

/-- A sum in the 72-bit accumulator (R6). -/
def acc72 (x : Int) : Int := if ovfI 72 x then Config.acc72 x else x

/-! Records (R275). -/

def State.xpW (s : State) (bank k w : Nat) : Nat := s.cw (winKey 33 bank (2 * k + w))
def xpSrc (w0 : Nat) : Nat := bits w0 11 0
def xpSnk (w0 : Nat) : Nat := bits w0 25 12
def xpEn (w0 : Nat) : Bool := bitOf w0 31
/-- GAIN in the coefficient format (R251). -/
def xpGain (w1 : Nat) : Int := sx 24 w1 * 256
def xpXf (w1 : Nat) : Nat := bits w1 31 24

/-- Crosspoints of a bank that are not as after reset, in ascending order. -/
def State.xpListed (s : State) (bank : Nat) : List Nat :=
  ((s.words.filter fun e => decide (winKey 33 bank 0 ≤ e.1) && decide (e.1 < winKey 33 bank 16384)).map fun e => keyWord e.1 / 2).dedup

/-- Enabled crosspoints of a bank. -/
def State.xpEnabled (s : State) (bank : Nat) : List Nat := (s.xpListed bank).filter fun k => xpEn (s.xpW bank k 0)

/-- Home feed o in a bank (R246). -/
def State.home (s : State) (bank o : Nat) : Bool := s.mapBit (if bank = 0 then 0x71080 else 0x710C0) o

/-! Readings (R250, R251). -/

/-- A reading at full weight and constant gain. -/
def steady (src snk : Nat) (g : Int) : XpReading := ⟨src, snk, g, g, 0, 0, true, 0, 0, 0⟩

/-- Readings that nothing has changed: none for a crosspoint, the feed itself for a home feed (R246). -/
def xpReset (k : Nat) : List XpReading := if k < 8192 then [] else [steady (0x600 + (k - 8192)) (k - 8192) (2 ^ 30)]

def State.readings (s : State) (k : Nat) : List XpReading := tget xpReset s.mix.xps k
def State.setReadings (s : State) (k : Nat) (l : List XpReading) : State :=
  { s with mix := { s.mix with xps := tset xpReset s.mix.xps k l } }

/-- The sample of a slot, counted from a start slot; −1 is the sample before it. -/
def sinceSlot (slot start i : Nat) : Int := 6 * ((slot : Int) - start) + i

/-- v_X at a sample count that may lie before the start. -/
def vAt (x : Nat) (j : Int) : Int := if j < 0 then 0 else vWin x j.toNat

/-- The gain of a reading at sample j of its ramp. -/
def XpReading.gainAt (r : XpReading) (j : Int) : Int := r.ga + rndShr ((r.gb - r.ga) * vAt r.gx j) 30

/-- The weight of a reading at sample j of its fade. -/
def XpReading.weightAt (r : XpReading) (j : Int) : Int :=
  if r.fadeIn then (if j < 0 then r.wa else vAt r.wx j) else rndShr (r.wa * (2 ^ 30 - vAt r.wx j)) 30

/-- The coefficient that MIX applies at sample i of a slot. -/
def XpReading.coef (r : XpReading) (slot i : Nat) : Int :=
  satI 32 (rndShr (r.gainAt (sinceSlot slot r.gs i) * r.weightAt (sinceSlot slot r.ws i)) 30)

/-- A reading whose fade-out has ended. -/
def XpReading.ended (r : XpReading) (slot : Nat) : Bool := !r.fadeIn && decide ((r.wx : Int) ≤ sinceSlot slot r.ws 0)

/-- A reading that still fades or ramps in a slot. -/
def XpReading.moving (r : XpReading) (slot : Nat) : Bool :=
  (decide (sinceSlot slot r.ws 0 < r.wx) && (!r.fadeIn || r.wx != 0)) || (r.ga != r.gb && decide (sinceSlot slot r.gs 0 < r.gx))

/-- Gain and weight at the sample before a slot. -/
def XpReading.gainNow (r : XpReading) (slot : Nat) : Int := r.gainAt (sinceSlot slot r.gs 0 - 1)
def XpReading.weightNow (r : XpReading) (slot : Nat) : Int := r.weightAt (sinceSlot slot r.ws 0 - 1)

/-- A reading that fades in from a slot. -/
def fadeInR (src snk : Nat) (g : Int) (slot x : Nat) : XpReading := ⟨src, snk, g, g, 0, 0, true, 0, slot, x⟩

/-- The newest reading fades out from its present weight; an older one is dropped. -/
def fadeOutR (l : List XpReading) (slot x : Nat) : List XpReading :=
  match l.getLast? with
  | some r => if r.fadeIn then [{ r with fadeIn := false, wa := r.weightNow slot, ws := slot, wx := x }] else [r]
  | none => []

/-- The newest reading's gain ramps from where it is. -/
def rampR (l : List XpReading) (g : Int) (slot x : Nat) : List XpReading :=
  match l.getLast? with
  | some r =>
    if r.fadeIn then [{ r with ga := r.gainNow slot, gb := g, gs := slot, gx := x }] else l
  | none => l

/-- A crosspoint changes at the commit of a slot (R251). -/
def xpChange (l : List XpReading) (slot o0 o1 n0 n1 : Nat) : List XpReading :=
  let new := fadeInR (xpSrc n0) (xpSnk n0) (xpGain n1) slot (xpXf n1)
  let l := l.filter fun r => !r.ended slot
  match xpEn o0, xpEn n0 with
  | false, false => l
  | false, true => l.drop (l.length - 1) ++ [new]
  | true, false => fadeOutR l slot (xpXf o1)
  | true, true =>
    if xpSrc o0 = xpSrc n0 ∧ xpSnk o0 = xpSnk n0 then
      if xpGain o1 = xpGain n1 then l else rampR l (xpGain n1) slot (xpXf n1)
    else fadeOutR l slot (xpXf o1) ++ [new]

/-- Every enabled crosspoint and home feed of the ACTIVE bank at full weight (R245, R246), at the gain given for it by number or else that
of its record. -/
def State.routeReadings (s : State) (gain : Nat → Option Int) : State :=
  let xs := (s.xpEnabled 1).map fun k =>
    (k, [steady (xpSrc (s.xpW 1 k 0)) (xpSnk (s.xpW 1 k 0)) ((gain k).getD (xpGain (s.xpW 1 k 1)))])
  let hs := (List.range 512).map fun o => (8192 + o, if s.home 1 o then [steady (0x600 + o) o ((gain (8192 + o)).getD (2 ^ 30))] else [])
  { s with mix := { s.mix with xps := tsetAll xpReset [] (xs ++ hs) } }

/-- A commit changes crosspoints and home feeds; `o` is the state before it. -/
def State.mixCommit (s o : State) : State :=
  let s := s.each ((o.xpListed 1 ++ s.xpListed 1).dedup) fun s k =>
    if o.xpW 1 k 0 = s.xpW 1 k 0 ∧ o.xpW 1 k 1 = s.xpW 1 k 1 then s
    else s.setReadings k (xpChange (s.readings k) s.slot (o.xpW 1 k 0) (o.xpW 1 k 1) (s.xpW 1 k 0) (s.xpW 1 k 1))
  s.upto 512 fun s h =>
    if o.home 1 h = s.home 1 h then s
    else
      let l := (s.readings (8192 + h)).filter fun r => !r.ended s.slot
      s.setReadings (8192 + h) (if s.home 1 h then l.drop (l.length - 1) ++ [fadeInR (0x600 + h) h (2 ^ 30) s.slot 48]
        else fadeOutR l s.slot 48)

/-! Fader path (R252). -/

def State.fadeLevel (s : State) : State :=
  (s.put R.MIX0_FADE_LEVEL_LEVEL s.mix.fifo.length).putB R.MIX0_S_FADE_QUEUED (!s.mix.fifo.isEmpty)

/-- FADE_CMD[GO] into a FIFO with room. -/
def State.fadePush (s : State) (k : Nat) : State :=
  let g := s.get R.MIX0_FADE_GAIN_GAIN
  let put (s : State) (bank : Nat) : State :=
    if 8192 ≤ k then s else s.setN (winKey 33 bank (2 * k + 1)) (putBits (s.xpW bank k 1) 23 0 g)
  let s := put (put s 0) 1
  { s with mix := { s.mix with fifo := s.mix.fifo ++ [(k, g)] } }.fadeLevel

/-- The queued gains start their ramps at the sheet that MIX forms now. -/
def State.fadeApply (s : State) (slot : Nat) : State :=
  let last := s.mix.fifo.foldl (fun (t : Tab Nat) e => tset (fun _ => 2 ^ 24) t e.1 e.2) []
  let s := s.each last fun s e =>
    if xpEn (s.xpW 1 e.1 0) && !((s.readings e.1).getLast?.any fun r => r.gb == xpGain e.2 && r.ga == r.gb) then
      s.setReadings e.1 (rampR (s.readings e.1) (xpGain e.2) slot (xpXf (s.xpW 1 e.1 1)))
    else s
  { s with mix := { s.mix with fifo := [] } }.fadeLevel

/-! Sources (R244). -/

/-- The node of a source code. -/
def srcNode (c : Nat) : Nat × Nat :=
  if c < 0x400 then (aInput, c) else if c < 0x600 then (aIeOut, c - 0x400)
  else if c < 0x800 then (aSpk, c - 0x600) else if c < 0x840 then (aAux, c - 0x800) else (aTest, 0)

/-- The node of a sink code; a channel-group sink is one node with lanes (R21, R25). -/
def snkNode (c : Nat) : Nat × Nat :=
  if c < 0x200 then (aOutSink, c) else if c < 0x400 then (aIeIn, c - 0x200)
  else if c < 0x440 then (aAuxIn, c - 0x400) else (aGroup, (c - 0x1000) / 64)

/-- Whether a sink code names a sink (R244). -/
def snkValid (c : Nat) : Bool := decide (c < 0x440) || (decide (0x1000 ≤ c) && decide (c < 0x1000 + 64 * 128))

/-- The edge of a reading: all loudspeaker buses leave one render node (R21). -/
def routeEdge (src snk : Nat) : Nat :=
  let a := srcNode src
  let b := snkNode snk
  eRoute a.1 (if a.1 = aSpk then 0 else a.2) b.1 b.2

/-- λ of a reading (R21). -/
def routeLam (src snk : Nat) : Nat :=
  if src < 0x400 then 1 else if src < 0x600 ∧ 0x200 ≤ snk ∧ snk < 0x400 then 1 else 0

/-- The edges of an auxiliary bus (R21): from the render node, and from its input sink. -/
def eAuxPart (a : Nat) : Nat := eRoute aSpk 0 aAux a
def eAuxSink (a : Nat) : Nat := eRoute aAuxIn a aAux a

/-- A source's sheet as a sink finds it in a slot. -/
def State.routeRead (s : State) (src snk slot : Nat) : List Int :=
  let n := srcNode src
  s.edgeRead (routeEdge src snk) (routeLam src snk) slot fun x =>
    if n.1 = aInput then s.inputAt n.2 x else s.sheetOf n.1 n.2 x

/-- The source of a reading reaches the sink in the same slot, by the pad in force or by the one that fades out. -/
def State.routeNow (s : State) (src snk : Nat) : Bool :=
  routeLam src snk = 0 && s.padInUse (routeEdge src snk) 0

/-! Sinks (R247). -/

/-- The readings that feed each sink code, home feeds included. -/
def State.feeds (s : State) (snk : Nat) : List XpReading :=
  ((s.mix.xps.filter fun e => decide (e.1 < 8192)).flatMap fun e => e.2.filter fun r => r.snk == snk) ++
  (if snk < 512 then s.readings (8192 + snk) else [])

/-- Σ x·g of a lane, 57 fractional bits. -/
def State.laneSum (s : State) (snk slot : Nat) : List Int :=
  (s.feeds snk).foldl (fun a r =>
    let x := s.routeRead r.src r.snk slot
    List.zipWith (· + ·) a ((List.range 6).map fun i => x.getD i 0 * r.coef slot i)) (padTo 6 [])

/-- Count saturated samples of a sink, or of a compressor (code 0x3FFF). -/
def State.sinkSat (s : State) (code n : Nat) : State :=
  if n = 0 then s else ((s.addW R.MIX0_SINK_SAT_CNT_COUNT n).put R.MIX0_SINK_SAT_LAST_SINK code).latchN eMIX 1 n

/-- The store class and index of a sink lane. -/
def laneNode (snk : Nat) : Nat × Nat := if 0x1000 ≤ snk then (aGroup, snk - 0x1000) else snkNode snk

/-- Form a sink lane: an auxiliary-bus input stays exact (R253), any other is rounded and saturated. -/
def State.formSink (s : State) (snk slot : Nat) : State :=
  let x := (s.laneSum snk slot).map acc72
  let n := laneNode snk
  if n.1 = aAuxIn then s.putSheet n.1 n.2 slot x
  else
    let y := x.map (rndShr · 30)
    (s.putSheet n.1 n.2 slot (y.map (satI 32))).sinkSat snk (y.filter (ovfI 32)).length

/-! Buses (R242, R243, R253). -/

/-- Count saturated samples of a bus. -/
def State.busSat (s : State) (b n : Nat) : State :=
  if n = 0 then s
  else ((s.setN (winKey 33 4 b) (s.n (winKey 33 4 b) + n)).setMap 0x71100 b true).latchN eMIX 0 n

/-- The reduction tree: sums of a slot, loudspeaker buses converted once, auxiliary sums kept exact. -/
def State.treeSheet (s : State) (slot : Nat) : State :=
  let s := s.upto 512 fun s b =>
    let x := s.busSum b slot
    (s.putSheet aSpk b slot (x.map (satI 32))).busSat b (x.filter (ovfI 32)).length
  s.upto 64 fun s a => s.putSheet aAuxSum a slot (s.busSum (512 + a) slot)

/-- Steps 1 and 2 of R253: the bus before its compressor, kept under index 64 + a until step 3. -/
def State.formAux (s : State) (a slot : Nat) : State :=
  let p := s.edgeRead (eAuxPart a) 0 slot fun x => s.sheetOf aAuxSum a x
  let q := s.edgeRead (eAuxSink a) 0 slot fun x => s.sheetOf aAuxIn a x
  let x := List.zipWith (fun p q => rndShr (p * 2 ^ 30 + q) 30) p q
  (s.putSheet aAux (64 + a) slot (x.map (satI 32))).busSat (512 + a) (x.filter (ovfI 32)).length

/-! Compressors (R254, R255). -/

/-- A compressor record. -/
structure Comp where
  en : Bool
  group : Nat
  thr : Rat
  knee : Rat
  slope : Rat
  makeup : Rat
  att : Rat
  rel : Rat
  deriving DecidableEq, Repr

/-- 1 − exp(−1 / (48,000 × time)), the time in units of 1/d s. -/
def onePole (time d : Nat) : Rat := fSub 1 (fExp (fDiv (-1) (fDiv (48000 * time : Nat) d)))

/-- Words of a compressor record. -/
def State.compW (s : State) (bank a w : Nat) : Nat := s.n (winKey 33 bank (4 * a + w))

/-- A record read with its limits (R274). -/
def State.comp (s : State) (bank a : Nat) : Comp :=
  let w := s.compW bank a
  let ratio := bits (w 1) 15 0
  { en := bitOf (w 3) 31
    group := min 16 (bits (w 3) 4 0)
    thr := fFix 8 (clampI (-24576) 6144 (sx 16 (w 0)))
    knee := fFix 8 (min 6144 (bits (w 0) 31 16))
    slope := fSub (if ratio = 0 then 0 else fDiv 1 (fFix 8 (clampN 0x100 0x6400 ratio))) 1
    makeup := fFix 8 (min 6144 (bits (w 1) 31 16))
    att := onePole (clampN 1 5000 (bits (w 2) 15 0)) 10000
    rel := onePole (clampN 5 5000 (bits (w 2) 31 16)) 1000 }

/-- Members of the group of bus a that share its detector. -/
def State.compGroup (s : State) (a : Nat) : List Nat :=
  let g := min 16 (bits (s.compW 1 a 3) 4 0)
  if g = 0 then [a] else (List.range 64).filter fun b => min 16 (bits (s.compW 1 b 3) 4 0) = g

/-- The gain computer of R254. -/
def compGc (c : Comp) (l : Rat) : Rat :=
  let d := fSub l c.thr
  if fMul 2 d < -c.knee then 0
  else if fMul 2 |d| ≤ c.knee then
    (if c.knee = 0 then f32 ((Config.kneeZero : Rat) / 256)
    else
      let h := fAdd d (fDiv c.knee 2)
      fDiv (fMul c.slope (fMul h h)) (fMul 2 c.knee))
  else fMul c.slope d

/-- One sample: level, bus sample and state to the output before saturation and the new state. -/
def compStep (c : Comp) (lv x : Int) (st : Rat) : Int × Rat :=
  let l := fMul 20 (fLog10 (max (fFix 27 lv) (1 / 2 ^ 27)))
  let gc := compGc c l
  let st := if gc < st then fAdd st (fMul c.att (fSub gc st)) else fAdd st (fMul c.rel (fSub gc st))
  let g := satI 32 (toFix 27 (fPow10 (fDiv (fAdd st c.makeup) 20)))
  (rndShr (x * g) 27, st)

/-! Formed nodes: a sink code, 0x4000 + a for the bus before its compressor, 0x8000 + a for the bus. -/

def nAuxX (a : Nat) : Nat := 0x4000 + a
def nAuxY (a : Nat) : Nat := 0x8000 + a

def State.isFormed (s : State) (n : Nat) : Bool := s.mix.formed.contains n
def State.markFormed (s : State) (n : Nat) : State := { s with mix := { s.mix with formed := s.mix.formed ++ [n] } }

/-- The compressor of bus a has all that it reads: with EN = 0 the bus alone. -/
def State.compReady (s : State) (a : Nat) : Bool :=
  !(s.comp 1 a).en || (s.compGroup a).all fun b => s.isFormed (nAuxX b)

/-- Step 3 of R253. A member of the group that waits for this very bus enters the detector with a free level (R254). -/
def State.compress (s : State) (a slot : Nat) : State :=
  let c := s.comp 1 a
  let x := s.sheetOf aAux (64 + a) slot
  if !c.en then s.putSheet aAux a slot x
  else
    let ms := ((s.compGroup a).filter fun b => b = a || s.isFormed (nAuxX b)).map fun b => s.sheetOf aAux (64 + b) slot
    let r := x.zipIdx.foldl (fun (r : List Int × Rat) v =>
      let lv := ms.foldl (fun m y => max m |y.getD v.2 0|) (if s.compReady a then 0 else (Config.loopLevel slot a v.2 : Int))
      let q := compStep c lv v.1 r.2
      (r.1 ++ [q.1], q.2)) ([], tget zeroAt s.mix.comp a)
    let s := { s with mix := { s.mix with comp := tset zeroAt s.mix.comp a r.2 } }
    (s.putSheet aAux a slot (r.1.map (satI 32))).sinkSat 0x3FFF (r.1.filter (ovfI 32)).length

/-! Test generator (R249). -/

/-- A write of TEST_CFG starts the phase again. -/
def State.testRestart (s : State) : State := { s with mix := { s.mix with phase := 0 } }

/-- n bits of PRBS31, first bit most significant. -/
def prbs : Nat → Nat → Nat → Nat × Nat
  | 0, st, v => (v, st)
  | n + 1, st, v =>
    let b := (st / 2 ^ 30 + st / 2 ^ 27) % 2
    prbs n (st * 2 % 2 ^ 31 + b) (2 * v + b)

/-- The generator's sheet for a slot whose sheet number is given. -/
def State.testSheet (s : State) (slot : Nat) (sheet : Int) : State :=
  let a := metaGain (s.get R.MIX0_TEST_CFG_LEVEL)
  let wave := s.get R.MIX0_TEST_CFG_WAVE
  let m := s.mix
  let inc := s.get R.MIX0_TEST_FREQ_INC
  if wave = 1 then
    let y := (List.range 6).map fun i =>
      let ph : Nat := (m.phase + i * inc) % 2 ^ 32
      rndShr (a * fxSin (2 * fxPi * (ph : Int) / (2 ^ 32 : Nat))) 203
    { s with mix := { m with phase := (m.phase + 6 * inc) % 2 ^ 32 } }.putSheet aTest 0 slot (y.map (satI 32))
  else if wave = 2 then
    let q := (List.range 6).foldl (fun (q : List Int × Nat) _ =>
      let r := prbs 24 q.2 0
      (q.1 ++ [rndShr (a * sx 24 r.1) 26], r.2)) ([], m.prbs)
    { s with mix := { m with prbs := q.2 } }.putSheet aTest 0 slot q.1
  else if wave = 3 ∧ (sheet - (m.tauTest : Int)) % 8000 = 0 then s.putSheet aTest 0 slot [rndShr a 3, 0, 0, 0, 0, 0]
  else s.putSheet aTest 0 slot []

/-! A sheet of MIX (R12, R27, R31, R248). -/

/-- The sources of a lane exist for this slot; insert outputs exist after the exchange. -/
def State.laneReady (s : State) (exch : Bool) (snk : Nat) : Bool :=
  (s.feeds snk).all fun r =>
    !s.routeNow r.src r.snk ||
      (let n := srcNode r.src
       if n.1 = aIeOut then exch else if n.1 = aAux then s.isFormed (nAuxY n.2) else true)

/-- One pass over the auxiliary buses; `all` forms them whatever they wait for. -/
def State.auxPass (s : State) (slot : Nat) (exch all : Bool) : State :=
  let s := s.upto 64 fun s a =>
    if s.isFormed (nAuxX a) || !(all || s.laneReady exch (0x400 + a)) then s
    else ((s.formSink (0x400 + a) slot).formAux a slot).markFormed (nAuxX a)
  s.upto 64 fun s a =>
    if s.isFormed (nAuxY a) || !s.isFormed (nAuxX a) || !s.compReady a then s
    else (s.compress a slot).markFormed (nAuxY a)

/-- Auxiliary buses in the order of their dependencies, n passes at most. -/
def State.auxPasses (s : State) (slot : Nat) (exch : Bool) : Nat → State
  | 0 => s
  | n + 1 =>
    let s' := s.auxPass slot exch false
    if s'.mix.formed.length = s.mix.formed.length then s' else s'.auxPasses slot exch n

/-- Buses whose detectors wait for one another: the lowest goes on without the others, then all that follows from it. -/
def State.auxLoops (s : State) (slot : Nat) : Nat → State
  | 0 => s
  | n + 1 =>
    match (List.range 64).find? fun a => s.isFormed (nAuxX a) && !s.isFormed (nAuxY a) with
    | some a => (((s.compress a slot).markFormed (nAuxY a)).auxPasses slot true 65).auxLoops slot n
    | none => s

/-- The sink codes that some reading feeds, but for auxiliary-bus inputs. -/
def State.fedSinks (s : State) : List Nat :=
  (((s.mix.xps.filter fun e => decide (e.1 < 8192)).flatMap fun e => e.2.map fun r => r.snk).dedup.filter
    fun k => decide (512 ≤ k) && !(decide (0x400 ≤ k) && decide (k < 0x440))) ++ List.range 512

/-- Form what can be formed. -/
def State.formSinks (s : State) (slot : Nat) (exch all : Bool) : State :=
  let s := s.auxPasses slot exch 65
  let s := if all then (s.auxLoops slot 64).auxPass slot exch true else s
  s.each s.fedSinks fun s k =>
    if s.isFormed k || !(all || s.laneReady exch k) then s else (s.formSink k slot).markFormed k

/-- Any crossfade in a slot (R274). -/
def State.mixFading (s : State) (slot : Nat) : Bool :=
  (s.mix.xps.any fun e => e.2.any fun r => r.moving slot) ||
    s.padHist.any fun e => decide (eRoute 0 0 0 0 ≤ e.1) && e.2.any fun h => decide (h.1 ≤ slot) && decide (slot < h.1 + 8)

/-- MIX starts on a sheet: faders, test generator, and every sink that needs no insert output of this slot. -/
def State.mixStart (s : State) (slot : Nat) (sheet : Int) : State :=
  if !s.pageOn eMIX then s
  else
    let s := if s.is R.MIX0_C_EN then s.fadeApply slot else s
    let s := { s with mix := { s.mix with
      formed := []
      xps := s.mix.xps.foldl (fun t (e : Nat × List XpReading) => tset xpReset t e.1 ((Prod.snd e).filter fun r => !r.ended slot)) [] } }
    let s := (s.testSheet slot sheet).putB R.MIX0_S_XFADING (s.mixFading slot)
    if s.is R.MIX0_C_EN then s.formSinks slot false false else s

/-- MIX completes the sheet, after the insert exchange. -/
def State.mixEnd (s : State) (slot : Nat) : State :=
  if !s.pageOn eMIX || !s.is R.MIX0_C_EN then s
  else
    let s := s.formSinks slot true true
    { s with mix := { s.mix with formed := [] } }

end Sys2Proof.Machine
end

