-- ==== Sys2Proof/Machine/Conv.lean ====
section
/-! DEFINITION. CONV (09_room_correction R280–R305): transforms, derived data, the return, stage-2 windows, filter sets, bypass and
verification. -/

namespace Sys2Proof.Machine

/-! Transforms (R283–R285). -/

abbrev Cx := Int × Int

/-- w(m) for n points: exp(−2πi m / n), components rounded to 2^−30. -/
def twiddle (n m : Nat) : Cx :=
  let a := 2 * fxPi * (m : Int) / (n : Int)
  (fxRound 30 (fxCos a), -(fxRound 30 (fxSin a)))

def cxMul (a b : Cx) : Cx := (a.1 * b.1 - a.2 * b.2, a.1 * b.2 + a.2 * b.1)

/-- Two lists, alternating. -/
def interleave {α : Type} : List α → List α → List α
  | a :: s, b :: t => a :: b :: interleave s t
  | s, [] => s
  | [], t => t

/-- The even-numbered and the odd-numbered elements. -/
def evens {α : Type} : List α → List α
  | a :: _ :: t => a :: evens t
  | l => l
def odds {α : Type} : List α → List α
  | _ :: b :: t => b :: odds t
  | _ => []

/-- forward of R283 on 2^k points, bins in natural order: `h` halvings a stage (1, or 0 at a load) and the rounding q. -/
def forward (h : Nat) (sat : Int → Int) : Nat → List Cx → List Cx
  | 0, z => z
  | k + 1, z =>
    let m := 2 ^ k
    let p := List.zip (z.take m) (z.drop m)
    let r (n : Nat) (x : Int) : Int := sat (rndShr x n)
    let top := p.map fun x => (r h (x.1.1 + x.2.1), r h (x.1.2 + x.2.2))
    let bot := p.zipIdx.map fun x =>
      let d := cxMul (x.1.1.1 - x.1.2.1, x.1.1.2 - x.1.2.2) (twiddle (2 * m) x.2)
      (r (30 + h) d.1, r (30 + h) d.2)
    interleave (forward h sat k top) (forward h sat k bot)

/-- inverse of R285 on 2^k points: the values and whether t or s saturated. -/
def inverse : Nat → List Cx → List Cx × Bool
  | 0, y => (y, false)
  | k + 1, y =>
    let m := 2 ^ k
    let e := inverse k (evens y)
    let o := inverse k (odds y)
    let p := (List.zip e.1 o.1).zipIdx.map fun x =>
      let w := twiddle (2 * m) x.2
      let t := cxMul x.1.2 (w.1, -w.2)
      let t := (rndShr t.1 30, rndShr t.2 30)
      let s (v : Int) : Int := satI 48 v
      let o (v : Int) : Bool := ovfI 48 v
      let a := x.1.1
      ((s (a.1 + t.1), s (a.2 + t.2)), (s (a.1 - t.1), s (a.2 - t.2)),
        o t.1 || o t.2 || o (a.1 + t.1) || o (a.2 + t.2) || o (a.1 - t.1) || o (a.2 - t.2))
    ((p.map fun x => x.1) ++ (p.map fun x => x.2.1), e.2 || o.2 || p.any fun x => x.2.2)

/-- Stage s: block length M as a power of two (6 and 9); the transform has twice as many points. -/
def stM (st : Nat) : Nat := if st = 1 then 6 else 9

/-- The packing of R284: bin 0 and bin N/2 share slot 0. -/
def packSpec (l : List Cx) : List Int :=
  let n := l.length - 1
  (l.headD (0, 0)).1 :: (l.getD n (0, 0)).1 :: ((l.take n).drop 1).flatMap fun x => [x.1, x.2]

/-- Pairs of a list. -/
def pairUp : List Int → List Cx
  | a :: b :: t => (a, b) :: pairUp t
  | _ => []

def unpackSpec (l : List Int) : List Cx :=
  match pairUp l with
  | (a, b) :: t => (a, 0) :: t ++ [(b, 0)]
  | [] => []

/-! Derived data (R284). -/

/-- The exponent and the stored spectrum of a partition's taps (30 fractional bits): width 16 or 32. -/
def derive (st : Nat) (taps : List Int) : Int × List Cx :=
  let k := stM st
  let z := (taps ++ List.replicate (2 ^ k) 0).map fun v => ((v * 2 ^ 32, 0) : Cx)
  let h := (forward 0 id (k + 1) z).take (2 ^ k + 1)
  let f : Int := if st = 1 then 14 else 30
  let q (e x : Int) : Int := let sh := f - e - 62; if 0 ≤ sh then x * 2 ^ sh.toNat else rndShr x (-sh).toNat
  let lim : Int := if st = 1 then 2 ^ 15 - 1 else 2 ^ 31 - 1
  let e : Int := (((List.range 35).map fun (i : Nat) => (i : Int) - 24).find? fun e =>
    h.all fun x => decide (|q e x.1| ≤ lim) && decide (|q e x.2| ≤ lim)).getD 10
  (e, h.map fun x => (q e x.1, q e x.2))

/-- The derived data of one output's 8192 taps, with the packed stage-2 spectra of its non-empty partitions. -/
def deriveAll (taps : List Int) : Derived × List (Nat × List Int) :=
  let part (t m p : Nat) : List Int := (taps.drop (t + p * m)).take m
  let empty (l : List Int) : Bool := l.all (· = 0)
  let mask (t m : Nat) : Nat := (List.range 14).foldl (fun a p => if empty (part t m p) then a + 2 ^ p else a) 0
  let one (st t m : Nat) : List (Int × List Cx) := (List.range 14).map fun p =>
    if empty (part t m p) then (0, []) else derive st (part t m p)
  let a := one 1 128 64
  let b := one 2 1024 512
  let hd := taps.take 128
  ({ head := if empty hd then [] else hd
     s1 := a.map Prod.snd
     e1 := a.map Prod.fst
     e2 := b.map Prod.fst
     mask1 := mask 128 64
     mask2 := mask 1024 512
     headEmpty := empty hd },
   (b.zipIdx.filter fun x => !x.1.2.isEmpty).map fun x => (x.2, packSpec x.1.2))

def crc64Bit (c : Nat) : Nat := if c % 2 = 1 then (c / 2) ^^^ 0xC96C5795D7870F42 else c / 2

def crc64Byte (c : Nat) (b : Byte) : Nat :=
  crc64Bit (crc64Bit (crc64Bit (crc64Bit (crc64Bit (crc64Bit (crc64Bit (crc64Bit (c ^^^ b.toNat))))))))

/-- The CRC-64 of R295, running: start from all ones, invert at the end. -/
def crc64Run (c : Nat) (l : List Byte) : Nat := l.foldl crc64Byte c
def crc64 (l : List Byte) : Nat := crc64Run (2 ^ 64 - 1) l ^^^ (2 ^ 64 - 1)

/-- 32-bit signed words of a byte string. -/
def words32 (n : Nat) (l : List Byte) : List Int := (List.range n).map fun i => sx 32 (leAt l (4 * i) 4)

/-! Sets, registers, layout (R292, R293). -/

def State.specAt (s : State) (set o p : Nat) : Nat := s.imageAt set + 16 * 2 ^ 20 + 4096 * (14 * o + p)
def State.dlAt (s : State) (o e : Nat) : Nat := s.convBase + 88 * 2 ^ 20 + 4096 * (14 * o + e)

def csEmpty : Nat := 0
def csLoading : Nat := 1
def csReady : Nat := 2
def csDirty : Nat := 3
def csFailed : Nat := 4
def csLost : Nat := 5

def State.setState (s : State) (set : Nat) : Nat := s.get (if set = 0 then R.CONV_SET_STATE_STATE_A else R.CONV_SET_STATE_STATE_B)
def State.putSetState (s : State) (set st : Nat) : State :=
  s.put (if set = 0 then R.CONV_SET_STATE_STATE_A else R.CONV_SET_STATE_STATE_B) st
def State.setFading (s : State) (set : Nat) : Bool := s.is (if set = 0 then R.CONV_SET_STATE_FADING_A else R.CONV_SET_STATE_FADING_B)
def State.convActive (s : State) : Nat := s.get R.CONV_SET_CTRL_ACTIVE
def State.inForce (s : State) (set : Nat) : Bool := s.convActive = set

/-- A set becomes EMPTY: it holds no filter. -/
def State.convEmpty (s : State) (set : Nat) : State :=
  let s := s.putSetState set csEmpty
  { s with conv := s.conv.setTab set [] }

/-- The region of R292 lies in populated DRAM. -/
def State.convPopulated (s : State) : Bool :=
  decide (dramBase ≤ s.convBase) && decide (s.convBase + 116 * 2 ^ 20 ≤ dramBase + s.dramN * s.dramU * 2 ^ 20)

/-- The channels make DRAM unusable for CONV: one is OFFLINE, or OFF or INIT, as after power-up, or there is none (R299, 12_dram R382). -/
def State.convDramOff (s : State) : Bool :=
  s.dramN = 0 || (List.range s.dramN).any fun c => s.chanState c = chOffline || s.chanState c = chOff || s.chanState c = chInit

/-- DRAM is unusable for CONV (R299): by a channel, or from PLLB_FAIL until PLL-B locks. -/
def State.convUnusable (s : State) : Bool := s.convDramOff || s.pllbFail

/-! Image writes that the fabric refuses (R260, R296). -/

/-- The fabric refuses a write into an image: in force and not LOST, fading out, LOADING, or the set that a pending commit
brings into force (R260, R296). -/
def State.imageClosed (s : State) (set : Nat) : Bool :=
  (s.inForce set && s.setState set != csLost) || s.setFading set || s.setState set == csLoading

/-- The set that the pending press would bring into force. -/
def State.pressedSet (s : State) (set : Nat) : Bool :=
  s.is R.PRESS_S_PENDING && decide (s.n 0x80080 % 2 = set) && !s.inForce set

/-- A write at an address is one of those. -/
def State.imageShut (s : State) (a : Nat) : Bool := (s.imageOf a).any fun set => s.imageClosed set || s.pressedSet set

/-! DRAM by lines. -/

/-- A write waits to one of n bytes from address a. -/
def State.writesIn (s : State) (a n : Nat) : Bool := s.waiting.any fun r => r.write && decide (a ≤ r.addr) && decide (r.addr < a + n)

/-- A request stays at its master: behind its requests to another target, or as its 33rd (11_memory_fabric R354). -/
def MemReq.atMaster (r : MemReq) (before : List MemReq) : Bool :=
  (before.any fun q => q.master == r.master && targetOf q.addr != targetOf r.addr) ||
    decide (32 ≤ before.countP fun q => q.master == r.master)

/-- A DRAM request that nothing refuses before its regulator port (12_dram R369, R374, R382). -/
def State.portBound (s : State) (r : MemReq) : Bool :=
  targetOf r.addr == 4 && r.atomic.isNone && widthOk r.width && r.addr % r.width == 0 && s.domOn 13 &&
    ((s.dramMap r.addr).any fun p => s.chanDo p.1 != .terr) && s.allowed r.master 4 r.addr r.width r.write &&
    !(r.write && s.imageShut r.addr)

/-- A request behind others comes to its port and passes it where the bucket lets it: it loses the line's tokens there, and its age
counts from then on (12_dram R373, R374). -/
def State.arrive (s : State) (before : List MemReq) (r : MemReq) : MemReq × State :=
  if r.passed || r.atMaster before || !s.portBound r || !s.portOpen (regPort r.master) then (r, s)
  else ({ r with passed := true, since := s.absCyc }, s.portTake (regPort r.master))

/-- The waiting requests come to their ports, in order. -/
def State.arrivals (s : State) : State :=
  let q := s.waiting.foldl (fun (q : List MemReq × State) r =>
    let x := q.2.arrive q.1 r
    (q.1 ++ [x.1], x.2)) ([], s)
  { q.2 with waiting := q.1 }

/-- An engine reads the line at address a: none where its channel does not serve it or its data cannot be used, and DERR outside the
populated range (11_memory_fabric R353). -/
def State.lineGet (s : State) (m a : Nat) : Option (List Byte) × State :=
  match s.dramMap a with
  | some p => if s.chanDo p.1 = .serve ∧ !s.writeWaits a then s.dramLoad p.1 p.2 m a 64 else (none, s)
  | none => (none, s.errLog m a false 0 7)

/-- Read n bytes line by line; none where a line cannot be used. -/
def State.linesGet (get : State → Nat → Option (List Byte) × State) (a n : Nat) (s : State) : Option (List Byte) × State :=
  (List.range (n / 64)).foldl (fun (q : Option (List Byte) × State) i =>
    let r := get q.2 (a + 64 * i)
    (match q.1, r.1 with | some x, some y => some (x ++ y) | _, _ => none, r.2)) (some [], s)

/-- The same through CONV's port 1, over the time of a load or a digest check (12_dram R372). -/
def State.loadGet (s : State) (a n : Nat) : Option (List Byte) × State :=
  (s.upto (n / 64) fun s _ => s.portUse 1).linesGet (fun s a => s.lineGet 0x30 a) a n

/-- A line that has come from its channel, whatever the channel does since; none where a write before the read still waits, or its data
cannot be used. -/
def State.lineCame (s : State) (a : Nat) : Option (List Byte) × State :=
  match s.dramMap a with
  | some p => if s.writeWaits a then (none, s) else s.dramLoad p.1 p.2 0x30 a 64
  | none => (none, s.errLog 0x30 a false 0 7)

/-- A posted write must wait: behind another of its master, at its channel, or at its port (11_memory_fabric R354, 12_dram R374, R382). -/
def State.mustPost (s : State) (c : Nat) (r : MemReq) : Bool :=
  (s.waiting.any fun q => q.master == r.master) || s.chanDo c == .wait || (s.chanDo c == .serve && !r.passed)

/-- An engine's write inside one line, posted: through its port to its channel, or waiting there in order; lost where the channel answers
TERR, and DERR outside the populated range (11_memory_fabric R353). -/
def State.linePost (s : State) (m a : Nat) (data : List Byte) : State :=
  match s.dramMap a with
  | some (c, off) =>
    let q := s.arrive s.waiting ⟨m, a, true, data.length, data, none, false, true, s.absCyc, none, false⟩
    if q.2.mustPost c q.1 then { q.2 with waiting := q.2.waiting ++ [q.1] }
    else if q.2.chanDo c = .serve then (q.2.dramStore c off m a data).2
    else q.2
  | none => s.errLog m a true 0 7

/-- Write whole lines. -/
def State.dramPut (s : State) (m a : Nat) (data : List Byte) : State :=
  (List.range (data.length / 64)).foldl (fun s i => s.linePost m (a + 64 * i) ((data.drop (64 * i)).take 64)) s

/-- A load writes whole lines through port 1, over its time. -/
def State.loadPut (s : State) (a : Nat) (data : List Byte) : State :=
  (List.range (data.length / 64)).foldl (fun s i =>
    match s.dramMap (a + 64 * i) with
    | some p => ((s.portUse 1).dramStore p.1 p.2 0x30 (a + 64 * i) ((data.drop (64 * i)).take 64)).2
    | none => s.errLog 0x30 (a + 64 * i) true 0 7) s

/-- CONV writes bytes lo to hi − 1 of its area, in ascending order and whole words (11_memory_fabric R344): a word is written when its
last byte is. A dump finds the lines written (02_register_pages R67). -/
def State.convHeal (s : State) (lo hi : Nat) : State :=
  let s := s.dumpDirty lo (hi - lo)
  s.each ((s.sramErr.map Prod.fst ++ s.poison.map Prod.fst).eraseDups.filter fun w =>
    decide (lo ≤ sramBase w + 23) && decide (sramBase w + 23 < hi)) State.healWord

/-- The address of an output's block within a part of the area. -/
def cvAt (part size o : Nat) : Nat := 0x10000000 + part + size * o

/-! The send and the return (R280–R286). -/

/-- Send sample u of output o. -/
def State.sendAt (s : State) (o : Nat) (u : Int) : Int :=
  if u < 0 then 0 else (s.sheetOf aSend o (u / 6).toNat).getD (u % 6).toNat 0

/-- X_j of a stage (R283). -/
def State.sendSpec (s : State) (st o : Nat) (j : Int) : List Cx :=
  let m : Int := 2 ^ stM st
  let z := (List.range (2 ^ (stM st + 1))).map fun i => ((s.sendAt o (j * m - m + i), 0) : Cx)
  (forward 1 (satI 32) (stM st + 1) z).take (2 ^ stM st + 1)

/-- Σ over partitions of c × X with the exponent (R285): accumulators of 57 fractional bits, saturating. -/
def mulAcc (f : Int) (acc : List Cx) (e : Int) (c x : List Cx) : List Cx :=
  let sh := e - f + 30
  let r (v : Int) : Int := if 0 ≤ sh then v * 2 ^ sh.toNat else rndShr v (-sh).toNat
  (List.zip acc (List.zip c x)).map fun q =>
    let p := cxMul q.2.1 q.2.2
    (satI 72 (q.1.1 + r p.1), satI 72 (q.1.2 + r p.2))

/-- From Y at 57 fractional bits to the output block of a stage, and whether anything saturated. -/
def outBlock (st : Nat) (y : List Cx) : List Int × Bool :=
  let m := 2 ^ stM st
  let r := y.map fun c => (rndShr c.1 22, rndShr c.2 22)
  let o := r.any fun c => ovfI 48 c.1 || ovfI 48 c.2
  let c := r.map fun c => (satI 48 c.1, satI 48 c.2)
  let full := c ++ (((c.take m).drop 1).reverse.map fun x => (x.1, -x.2))
  let q := inverse (stM st + 1) full
  ((q.1.drop m).map fun x => satI 40 (rndShr x.1 8), o || q.2)

/-- Stage 1, output block b of a set, from the delay line (R285). -/
def State.stage1 (s : State) (set o b : Nat) : List Int × Bool :=
  let d := s.derived set o
  if d.s1.all List.isEmpty then ([], false)
  else
    outBlock 1 ((d.s1.zipIdx.filter fun x => !x.1.isEmpty && decide (x.2 + 2 ≤ b)).foldl (fun a x =>
      mulAcc 14 a (d.e1.getD x.2 0) x.1 (unpackSpec (s.specEntry o ((b - 2 - x.2) % 14)))) (List.replicate 65 (0, 0)))

/-- The head and both stages at sample u, exact with 57 fractional bits. -/
def State.convExact (s : State) (set o u : Nat) : Int :=
  let hd := (s.derived set o).head
  let h := (hd.zipIdx.foldl (fun a x => a + x.1 * s.sendAt o ((u : Int) - x.2)) 0)
  let y (t : Tab (List Int)) (m : Nat) : Int := (tget silence t (retKey (u / m) set o)).getD (u % m) 0
  h + (y s.conv.y1 64 + y s.conv.y2 512) * 2 ^ 30

/-- The sets that the return at sample u takes (R298): the set, or outgoing, incoming and the crossfade position. -/
def State.setsAt (s : State) (u : Nat) : List Nat × Nat :=
  match s.conv.fade with
  | some (m, old) =>
    if u < 512 * m then ([old], 0) else if u < 512 * (m + 1) then ([old, s.convActive], u - 512 * m) else ([s.convActive], 0)
  | none => ([s.convActive], 0)

/-- The return of output o for the send sheet in progress (R286): values before saturation. -/
def State.convReturn (s : State) (o : Nat) : List Int :=
  (List.range 6).map fun i =>
    let u := 6 * s.conv.n + i
    let q := s.setsAt u
    let x (i : Nat) : Int := (q.1[i]?.map fun set => s.convExact set o u).getD 0
    if q.1.length = 2 then rndShr (x 0 * (2 ^ 30 - vWin 512 q.2) + x 1 * vWin 512 q.2) 60 else rndShr (acc72 (x 0)) 30

/-- Keep a send sheet of output o in its ring. -/
def State.convSend (s : State) (o : Nat) (x : List Int) : State :=
  let a := 6 * s.conv.n % 1088
  let b := cvAt 0 4352 o
  let s := s.putSheet aSend o s.conv.n x
  if a + 6 ≤ 1088 then s.convHeal (b + 4 * a) (b + 4 * a + 24) else (s.convHeal (b + 4 * a) (b + 4352)).convHeal b (b + 4 * a + 24 - 4352)

/-- Count the saturations of a return. -/
def State.convSat (s : State) (ret xf : Nat) : State :=
  let s := (s.addW R.CONV_RET_SAT_CNT_COUNT ret).latchN eCONV 8 ret
  (s.addW R.CONV_XFORM_SAT_CNT_COUNT xf).latchN eCONV 9 xf

/-- Stage 1 of output o once send block j is complete (R285, R287): its spectrum goes to the delay line, and output block j + 2 of each
set that its samples take to the return buffer. -/
def State.stage1Block (s : State) (j o : Nat) : State :=
  let x := packSpec (s.sendSpec 1 o j)
  let a := cvAt cvSpec 7168 o + 512 * (j % 14)
  let s := (s.setSpec o (j % 14) x).convHeal a (a + 512)
  let m := j + 2
  let r := (s.setsAt (64 * m)).1.map fun set => (set, s.stage1 set o m)
  let b := cvAt cvRet1 512 o + 256 * (m % 2)
  let s := { s with conv := { s.conv with
    y1 := r.foldl (fun t (q : Nat × List Int × Bool) => tset silence t (retKey m q.1 o) (if q.2.1.all (· = 0) then [] else q.2.1)) s.conv.y1 } }
  (s.convHeal b (b + 256)).convSat 0 (b2n (r.any fun q => q.2.2))

/-- STATUS[BUILDING] (R301). -/
def State.building (s : State) : State :=
  s.putB R.CONV_S_BUILDING (s.is R.CONV_C_EN && decide (6 * s.conv.n < s.conv.build + 8192))

/-- OUT has formed every send of a sheet: the count advances (R280). -/
def State.convAdvance (s : State) : State :=
  if !s.is R.CONV_C_EN then s
  else
    let u := 6 * (s.conv.n + 1)
    { s with conv := { s.conv with n := s.conv.n + 1, y1 := s.conv.y1.filter fun e => decide (u ≤ 64 * (e.1 / 1024 + 1)) } }.building

/-- The boundary after the slot in which a block of 64 ended: stage 1 of every output (R287). -/
def State.stage1Open (s : State) : State :=
  let j := s.conv.blocks1
  if 6 * s.conv.n < 64 * (j + 1) then s
  else { s with conv := { s.conv with blocks1 := j + 1 } }.upto 512 fun s o => s.stage1Block j o

/-- The crossfade ends. -/
def State.fadeEnd (s : State) : State :=
  let s := { s with conv := { s.conv with fade := none } }
  ((s.putB R.CONV_SET_STATE_FADING_A false).putB R.CONV_SET_STATE_FADING_B false).putB R.CONV_S_XFADE false

/-- CONV keeps no state beyond its sets: at a cold start, and while EN is 0 (R301). -/
def State.convSilent (s : State) : State :=
  { s.dropAudio (· == aSend) with conv := { s.conv with
    n := 0, blocks1 := 0, blocks := 0, dlFrom := 0, build := 0, wins := [], x1 := [], y1 := [], y2 := [] } }

/-- Cold start (R301). -/
def State.convCold (s : State) : State := s.convSilent.building

/-- EN falls: no crossfade outlives it, and no state is kept (R301, R303). -/
def State.convStop (s : State) : State :=
  let s := if s.is R.CONV_S_XFADE then s.fadeEnd.latch eCONV 7 else s
  s.convSilent.building

/-! Poison (R290). -/

/-- CONV reads an item of its area in the sheet that OUT forms now: the ring before the samples that the sheet itself writes, the head
coefficients, and the returns. -/
def State.sheetReads (s : State) (it : ConvItem) : Bool :=
  let u := 6 * s.conv.n
  let sets := (s.setsAt u).1 ++ (s.setsAt (u + 5)).1
  match it with
  | .ring _ i => decide ((u + 1087 - i) % 1088 < 127)
  | .ret1 _ h i => (List.range 6).any fun k => decide ((u + k) / 64 % 2 = h) && decide ((u + k) % 64 = i)
  | .ret2 _ h i => (List.range 6).any fun k => decide ((u + k) / 512 % 2 = h) && decide ((u + k) % 512 = i)
  | .head o set _ => sets.contains set && !(s.derived set o).head.isEmpty
  | _ => false

/-- CONV reads an item of its area at the boundary that begins this slot: the ring for the windows of the blocks that have ended, and for
stage 1 the coefficients of the partitions that are not empty and the spectra that they multiply; the latest was just computed. -/
def State.blockReads (s : State) (it : ConvItem) : Bool :=
  let j := s.conv.blocks1
  let one := decide (64 * (j + 1) ≤ 6 * s.conv.n)
  let two := decide (512 * (s.conv.blocks + 1) ≤ 6 * s.conv.n) && !s.is R.CONV_S_BYPASS
  let sets := (s.setsAt (64 * (j + 2))).1
  let held (set o p : Nat) : Bool := sets.contains set && !((s.derived set o).s1.getD p []).isEmpty
  let ends (m k u : Nat) : Bool := decide (m * k ≤ u + m) && decide (u < m * (k + 1))
  match it with
  | .ring _ i => (s.ringSample i).any fun u => (one && ends 64 j u) || (two && ends 512 s.conv.blocks u)
  | .spec o e _ => one && (List.range 14).any fun p => decide (p ≠ 0) && decide (p ≤ j) && decide ((j - p) % 14 = e) && sets.any fun set => held set o p
  | .coef o set p _ => one && held set o p
  | _ => false

/-- Words of CONV's area, of which `reads` says what CONV reads there. -/
def State.convReadsWord (reads : ConvItem → Bool) (w : Nat) : Bool :=
  (List.range 6).any fun i =>
    let x := 24 * w + 4 * i
    decide (x < cvEnd) && reads (convItem x)

/-- CONV has read n poisoned words. -/
def State.convPoison (s : State) (n : Nat) : State :=
  if n = 0 then s else (s.addW R.CONV_POISON_CNT_COUNT n).latchN eCONV 10 n

/-! Stage-2 windows (R287, R289). -/

/-- Output o drops n partitions (R289). -/
def State.tailDrop (s : State) (o n : Nat) : State :=
  if n = 0 then s else ((s.addW R.CONV_TAIL_DROP_CNT_COUNT n).setMap 0x80180 o true).latchN eCONV 0 n

/-- The partitions that CONV fetches for an output block: not empty, and with a delay-line entry that has been written. -/
def State.fetches (s : State) (w : Win) (set o : Nat) : List Nat :=
  let d := s.derived set o
  (List.range 14).filter fun p => decide (p < d.e2.length) && !bitOf d.mask2 p && decide (s.conv.dlFrom + 2 + p ≤ w.m)

/-- What CONV reads for an output in a window, in ascending partitions (R289): the partition, the sets whose coefficient spectra it needs,
and whether it needs a delay-line spectrum; partition 0 uses the one just computed on chip. -/
def State.winReads (s : State) (w : Win) (sets : List Nat) (o : Nat) : List (Nat × List Nat × Bool) :=
  let f := sets.map fun set => (set, s.fetches w set o)
  ((List.range 14).map fun p => (p, (f.filter fun q => q.2.contains p).map Prod.fst, decide (p ≠ 0))).filter fun x => !x.2.1.isEmpty

/-- The lines of 64 bytes that these reads take. -/
def State.winLines (s : State) (w : Win) (sets : List Nat) : Nat :=
  (((List.range 512).flatMap fun o => s.winReads w sets o).map fun x => 64 * (x.2.1.length + b2n x.2.2)).sum

/-- Port 0 lets lines of the open windows pass, the oldest window first (12_dram R374), after the windows have changed by f. What has
passed arrives while no channel holds its requests back (R382); in bypass CONV issues no read (R299). -/
def State.winPass (s : State) (f : Win → Win) : State :=
  let r := s.conv.wins.foldl (fun (q : List Win × State) w =>
    let w := f w
    let x := q.2.portPass 0 (if w.closed || s.is R.CONV_S_BYPASS then 0 else w.left)
    let sent := w.sent + x.1
    (q.1 ++ [{ w with left := w.left - x.1, sent := sent, came := if s.chanWaits then w.came else sent }], x.2)) ([], s)
  { r.2 with conv := { r.2.conv with wins := r.1 } }

/-- A block of stage 2 has ended: at the boundary its window opens; X goes to the delay line unless in bypass. -/
def State.openWin (s : State) : State :=
  let j := s.conv.blocks
  if !s.is R.CONV_C_EN || decide (6 * s.conv.n < 512 * (j + 1)) then s
  else
    let byp := s.is R.CONV_S_BYPASS
    let m := j + 2
    let sets := match s.conv.fade with
      | some (mo, old) => if m < mo then [old] else if m = mo then [old, s.convActive] else [s.convActive]
      | none => [s.convActive]
    let xs := if byp then [] else ((List.range 512).map fun o => (o, packSpec (s.sendSpec 2 o j))).filter fun e => !e.2.all (· = 0)
    let s := { s with conv := { s.conv with
      blocks := j + 1
      wins := s.conv.wins ++ [⟨m, s.slot, byp, sets, xs, false, [], 0, 0, 0⟩]
      y2 := s.conv.y2.filter fun e => decide (m ≤ e.1 / 1024 + 4) } }
    if byp then s
    else
      let s := s.upto 512 fun s o =>
        s.dramPut 0x30 (s.dlAt o (j % 14)) ((padTo 1024 (tget silence xs o)).flatMap fun v => leBytes 4 (tz 32 v))
      s.winPass fun w => if w.m = m then { w with left := s.winLines w sets } else w

/-- The fetches of an output at the deadline: what has arrived by set, the omitted partitions, and how many lines of later outputs have
arrived. Of a window that met a bypass, whose reads CONV issues no more (R299), what arrived before it is open: bit 14·i + p of k says
whether partition p of the i-th set had. A spectrum has arrived where all its lines have and every line can be used. -/
def State.fetchOut (s : State) (w : Win) (o k lines : Nat) : List (Nat × Fetched) × Nat × Nat × State :=
  let spec (l : List Byte) : List Cx := unpackSpec (words32 1024 l)
  let get (a : Nat) (q : Nat × State) : Option (List Byte) × Nat × State :=
    if q.1 < 64 then (none, q.1 - 64, q.2)
    else let r := q.2.linesGet State.lineCame a 4096; (r.1, q.1 - 64, r.2)
  (s.winReads w w.sets o).foldl (fun q x =>
    let came (set : Nat) : Bool := !s.is R.CONV_S_BYPASS || bitOf k (14 * w.sets.idxOf set + x.1)
    let c := x.2.1.foldl (fun (c : List (Nat × Option (List Byte)) × Nat × State) set =>
      if came set then let g := get (s.specAt set o x.1) c.2; (c.1 ++ [(set, g.1)], g.2) else (c.1 ++ [(set, none)], c.2)) ([], q.2.2)
    let d := if !x.2.2 then (some (unpackSpec (padTo 1024 (tget silence w.spec o))), c.2)
      else if x.2.1.any came then let g := get (s.dlAt o ((w.m - 2 - x.1) % 14)) c.2; (g.1.map spec, g.2)
      else (none, c.2)
    let got := c.1.filterMap fun y => match y.2, d.1 with | some a, some b => some (y.1, (⟨x.1, spec a, b⟩ : Fetched)) | _, _ => none
    (q.1 ++ got, q.2.1 + (c.1.length - got.length), d.2)) ([], 0, lines, s)

/-- The fetch deadline of a window: the start of slot e + 65 (R287). What has arrived of each output and set is kept, the rest dropped and
counted, the outputs in ascending order (R289). -/
def State.winDeadline (s : State) (w : Win) : State :=
  let s := s.winPass id
  let w := (s.conv.wins.find? fun x => x.m == w.m).getD w
  let r := (List.range 512).foldl (fun (q : Tab (List Fetched) × Nat × State) o =>
    let (k, s) := q.2.2.draw
    let f := s.fetchOut w o (Config.freeWord k).toNat q.2.1
    let got := w.sets.foldl (fun t set => tset (fun _ => []) t (512 * set + o) ((f.1.filter fun x => x.1 == set).map Prod.snd)) q.1
    (got, f.2.2.1, f.2.2.2.tailDrop o f.2.1)) ([], w.came, s)
  { r.2.2 with conv := { r.2.2.conv with wins := r.2.2.conv.wins.map fun x => if x.m = w.m then { x with closed := true, got := r.1, left := 0 } else x } }

/-- Y and the output block of one set (R285). -/
def State.stage2Set (s : State) (w : Win) (set o : Nat) : List Int × Bool :=
  match tget (fun _ => []) w.got (512 * set + o) with
  | [] => ([], false)
  | l => outBlock 2 (l.foldl (fun a f => mulAcc 30 a ((s.derived set o).e2.getD f.part 0) f.coef f.spec) (List.replicate 513 (0, 0)))

/-- Stage 2 of an output in a window: its return blocks; a saturation counts once for the output and block (R285). -/
def State.stage2 (s : State) (w : Win) (o : Nat) : State :=
  let r := w.sets.map fun set => (set, s.stage2Set w set o)
  let b := cvAt cvRet2 4096 o + 2048 * (w.m % 2)
  let s := { s with conv := { s.conv with
    y2 := r.foldl (fun t (q : Nat × List Int × Bool) => tset silence t (retKey w.m q.1 o) (if q.2.1.all (· = 0) then [] else q.2.1)) s.conv.y2 } }
  (s.convHeal b (b + 2048)).convSat 0 (b2n (r.any fun q => q.2.2))

/-- Windows at a boundary (R287): products and inverses of those whose deadline has passed, the deadline of those that reach it. -/
def State.closeWins (s : State) : State :=
  let (due, rest) := s.conv.wins.partition fun w => w.closed || (w.byp && decide (w.slot + 64 ≤ s.slot))
  let s := { s with conv := { s.conv with wins := rest } }
  let s := s.each due fun s w => if w.byp then s else s.upto 512 fun s o => s.stage2 w o
  s.each (s.conv.wins.filter fun w => decide (w.slot + 64 ≤ s.slot)) State.winDeadline

/-- At the fetch deadline of a window, partitions of output o had not arrived: 14·set + p, set A being 0 (R289). -/
def State.tailDeadline (s : State) (o : Nat) (missing : List Nat) : State :=
  match s.conv.wins.find? fun w => w.closed with
  | some w =>
    let gone (set : Nat) : List Fetched := (tget (fun _ => []) w.got (512 * set + o)).filter fun f => missing.contains (14 * set + f.part)
    let n := (w.sets.map fun set => (gone set).length).sum
    let got := w.sets.foldl (fun t set =>
      tset (fun _ => []) t (512 * set + o) ((tget (fun _ => []) t (512 * set + o)).filter fun f => !missing.contains (14 * set + f.part))) w.got
    { s.tailDrop o n with conv := { s.conv with wins := s.conv.wins.map fun x => if x.m = w.m then { x with got := got } else x } }
  | none => s

/-! Swap (R298). -/

/-- STATUS[BYPASS] and its events. -/
def State.setBypass (s : State) (b : Bool) : State :=
  if s.is R.CONV_S_BYPASS = b then s else (s.putB R.CONV_S_BYPASS b).latch eCONV (if b then 1 else 2)

/-- BYPASS ends: the delay line reads as zero and the tail builds up again (R300). -/
def State.bypassOff (s : State) : State :=
  let s := { s with conv := { s.conv with dlFrom := s.conv.blocks, build := 6 * s.conv.n } }
  (s.setBypass false).building

/-- Bypass holds while DRAM is unusable or the set in force is LOST. -/
def State.bypassCause (s : State) : Bool := s.n 0x80094 % 8 != 0

/-- BYPASS_WHY[SET_LOST] follows the set in force; with no cause left and no verification to come, BYPASS ends (R299, R300, R304). -/
def State.lostUpdate (s : State) : State :=
  let was := s.is R.CONV_BYPASS_WHY_SET_LOST
  let lost := s.setState s.convActive = csLost
  let s := s.putB R.CONV_BYPASS_WHY_SET_LOST lost
  if lost then s.setBypass true
  else if was && !s.bypassCause && !s.is R.CONV_S_VERIFYING && s.is R.CONV_S_BYPASS then s.bypassOff
  else s

/-- A commit takes the ACTIVE value of NEXT: `o` is the state before it. A window that opened at the boundary of this slot is that of
block m_o (R298). -/
def State.convCommit (s o : State) : State :=
  let nx := s.n 0x4000080080 % 2
  let old := o.convActive
  if nx = old then s
  else
    let s := ((s.put R.CONV_SET_CTRL_ACTIVE nx).latch eCONV 6).lostUpdate
    if !s.is R.CONV_C_EN then s
    else
      let u := 6 * s.conv.n
      let m := if s.conv.n ≠ 0 ∧ (u - 6) / 512 < u / 512 then u / 512 + 1 else u / 512 + 2
      let s := s.putB R.CONV_S_XFADE true
      let s := s.putB (if old = 0 then R.CONV_SET_STATE_FADING_A else R.CONV_SET_STATE_FADING_B) true
      { s with conv := { s.conv with
        fade := some (m, old)
        wins := s.conv.wins.map fun w => if w.m = m then { w with sets := [old, nx], left := w.left + (s.winLines w [old, nx] - s.winLines w [old]) } else w } }

/-- CONV completes a sheet: the crossfade ends when every output has passed block m_o. -/
def State.convEnd (s : State) : State :=
  match s.conv.fade with
  | some (m, _) => if 512 * (m + 1) ≤ 6 * s.conv.n then s.fadeEnd.latch eCONV 7 else s
  | none => s

/-! Loads (R294, R300). -/

/-- A request or a load ends with a reason. -/
def State.loadReason (s : State) (r : Nat) : State := (s.put R.CONV_LOAD_STATUS_REASON r).latch eCONV 4

def State.convBusy (s : State) : Bool := s.is R.CONV_S_LOADING || s.is R.CONV_S_VERIFYING

/-- The reason that refuses a load or reload of a set, 0 for none: the first of the table's rows (R294). -/
def State.loadRefusal (s : State) (set : Nat) (reload : Bool) : Nat :=
  if s.mode ≠ mConfig ∧ s.mode ≠ mRun then 1
  else if !reload ∧ (s.inForce set ∨ s.setFading set) then 2
  else if s.convBusy then 3
  else if s.convUnusable ∨ !s.convPopulated then 4
  else if reload ∧ s.setState set ≠ csLost then 8
  else 0

def State.setLoad (s : State) (l : Option LoadSt) : State := { s with conv := { s.conv with load := l } }

/-- LOAD with GO or RELOAD (R294): refused, or the load starts. Bit 4 of the request is GO, bit 5 RELOAD. -/
def State.loadReq (s : State) (v : Nat) : State :=
  let set := v % 2
  let reload := bitOf v 5 && !bitOf v 4
  let s := s.put R.CONV_LOAD_STATUS_SET set
  let r := s.loadRefusal set reload
  if r ≠ 0 then s.loadReason r
  else
    let s := ((s.put R.CONV_LOAD_STATUS_PROGRESS 0).putB R.CONV_S_LOADING true).setLoad (some ⟨set, reload, 0, 2 ^ 64 - 1, true, false⟩)
    if reload then s else s.putSetState set csLoading

/-- A running load or reload ends without success: a load leaves its set FAILED, a reload leaves it LOST. -/
def State.loadFail (s : State) (r : Nat) : State :=
  match s.conv.load with
  | none => s
  | some l =>
    let s := (s.putB R.CONV_S_LOADING false).setLoad none
    (if l.reload then s else s.putSetState l.set csFailed).loadReason r

/-- ABORT takes effect after the output in progress (R294). -/
def State.loadAbort (s : State) : State := s.setLoad (s.conv.load.map fun l => { l with abort := true })

/-- The taps of output o in an image. -/
def State.imageTaps (s : State) (set o : Nat) : Option (List Int) × State :=
  let q := s.loadGet (s.imageAt set + 32768 * o) 32768
  (q.1.map (words32 8192), q.2)

/-- Write stage-2 spectra of an output; they join the digest. -/
def State.putSpectra (s : State) (set o crc : Nat) (l : List (Nat × List Int)) : Nat × State :=
  l.foldl (fun (r : Nat × State) x =>
    let b := x.2.flatMap fun v => leBytes 4 (tz 32 v)
    (crc64Run r.1 b, r.2.loadPut (r.2.specAt set o x.1) b)) (crc, s)

/-- Derived data of an output go to SRAM. -/
def State.putDerived (s : State) (set o : Nat) (d : Derived) : State :=
  let h := cvAt cvHead 1024 o + 512 * set
  let c := cvAt cvCoef 7168 o + 3584 * set
  let s := s.setDerived set o d
  let s := if d.head.isEmpty then s else s.convHeal h (h + 512)
  s.each (d.s1.zipIdx.filter fun x => !x.1.isEmpty) fun s x => s.convHeal (c + 256 * x.2) (c + 256 * x.2 + 256)

/-- The copies in SRAM that a reload compares: the head and stage 1 (R300). -/
def Derived.sramPart (d : Derived) : Derived := { d with e2 := [], mask2 := 0 }

/-- The words of SRAM that hold derived data of an output and set: its head, and its stage-1 spectra that are not empty (R291). -/
def State.copyWords (s : State) (set o : Nat) : List Nat :=
  let d := s.derived set o
  let h := if d.head.isEmpty then [] else wordsOf (cvAt cvHead 1024 o + 512 * set) 512
  (h ++ (d.s1.zipIdx.filter fun x => !x.1.isEmpty).flatMap fun x => wordsOf (cvAt cvCoef 7168 o + 3584 * set + 256 * x.2) 256).eraseDups

/-- A reload reads an output's copies in SRAM (R290, R300): corrected, or poisoned, counted and read as zero. -/
def State.copyReads (s : State) (set o : Nat) : State :=
  let r := (s.copyWords set o).foldl (fun (q : Nat × State) w =>
    let r := q.2.readWord 0x30 w
    (q.1 + b2n !r.1, r.2)) (0, s)
  r.2.convPoison r.1

/-- The load completes one output: none once the image cannot be read. A load stores what it derives; a reload compares with what it reads
of the copies. -/
def State.loadOutput (s : State) (l : LoadSt) : Option LoadSt × State :=
  match s.imageTaps l.set l.done with
  | (none, s) => (none, s)
  | (some taps, s) =>
    let d := deriveAll taps
    if l.reload then
      let s := s.copyReads l.set l.done
      (some { l with done := l.done + 1, same := l.same && (s.derived l.set l.done).sramPart == d.1.sramPart }, s)
    else
      let r := (s.putDerived l.set l.done d.1).putSpectra l.set l.done l.crc d.2
      (some { l with done := l.done + 1, crc := r.1 }, r.2)

/-- The load completes n outputs, while any are left; a read error ends it with READ_ERR. -/
def State.loadRun (s : State) : Nat → State
  | 0 => s
  | n + 1 =>
    match s.conv.load with
    | none => s
    | some l =>
      if 512 ≤ l.done then s
      else match s.loadOutput l with
        | (none, s) => s.loadFail 5
        | (some l, s) => ((s.setLoad (some l)).put R.CONV_LOAD_STATUS_PROGRESS l.done).loadRun n

/-- A load or a digest check of a set does not move: a channel holds its requests back (12_dram R385), or a write that came before its
reads still waits, in the set's taps or spectra (R292; 12_dram R373). -/
def State.loadWaits (s : State) (set : Nat) : Bool := s.chanWaits || s.writesIn (s.imageAt set) (44 * 2 ^ 20)

/-- A slot of a load: how many outputs it completes is open, but the last completes with LOAD_DONE; a waiting ABORT ends it after the
output in progress (R294). -/
def State.loadSlot (s : State) : State :=
  match s.conv.load with
  | none => s
  | some l =>
    if s.loadWaits l.set then s
    else if l.abort then (s.loadRun 1).loadFail 6
    else
      let (k, s) := s.draw
      s.loadRun (min ((Config.freeWord k).toNat % 512) (511 - l.done))

def State.putDigest (s : State) (set d : Nat) : State := s.set64 (if set = 0 then 0x800B0 else 0x800B8) d
def State.digest (s : State) (set : Nat) : Nat := s.get64 (if set = 0 then 0x800B0 else 0x800B8)

/-- A reload whose copies match writes the stage-2 spectra again; the set is READY once the image has been read twice. -/
def State.reloadWrite (s : State) (set : Nat) : Option Nat × State :=
  (List.range 512).foldl (fun (r : Option Nat × State) o =>
    match r.1, r.2.imageTaps set o with
    | some crc, (some taps, s) =>
      let d := deriveAll taps
      let q := (s.setDerived set o { s.derived set o with e2 := d.1.e2, mask2 := d.1.mask2 }).putSpectra set o crc d.2
      (some q.1, q.2)
    | _, q => (none, q.2)) (some (2 ^ 64 - 1), s)

/-- A set becomes READY with a digest. -/
def State.loadReady (s : State) (set crc : Nat) : State :=
  let s := s.putDigest set (crc ^^^ (2 ^ 64 - 1))
  let s := ((s.put R.CONV_LOAD_STATUS_PROGRESS 512).putB R.CONV_S_LOADING false).putSetState set csReady
  ((s.setLoad none).latch eCONV 3).lostUpdate

/-- The load completes (R294, R300). -/
def State.loadDone (s : State) : State :=
  match s.conv.load with
  | none => s
  | some l =>
    if s.loadWaits l.set then s
    else if l.abort then (s.loadRun 1).loadFail 6
    else
      let s := s.loadRun (512 - l.done)
      match s.conv.load with
      | none => s
      | some l =>
        if !l.reload then s.loadReady l.set l.crc
        else if !l.same then s.loadFail 7
        else match s.reloadWrite l.set with
          | (some crc, s) => s.loadReady l.set crc
          | (none, s) => s.loadFail 5

/-- The boundary that begins a slot. -/
def State.convBoundary (s : State) : State :=
  if !s.pageOn eCONV then s
  else
    let s := s.loadSlot
    if !s.is R.CONV_C_EN then s else s.stage1Open.closeWins.openWin

/-! DRAM loss and return (R299, R300). -/

/-- CONV follows the DRAM: bypass while it is unusable, a verification when it returns. -/
def State.convDram (s : State) : State :=
  if !s.pageOn eCONV then s
  else
    let was := s.is R.CONV_BYPASS_WHY_DRAM_OFF || s.is R.CONV_BYPASS_WHY_PLLB_FAIL
    let s := (s.putB R.CONV_BYPASS_WHY_DRAM_OFF s.convDramOff).putB R.CONV_BYPASS_WHY_PLLB_FAIL s.pllbFail
    if s.convUnusable then ((s.loadFail 4).putB R.CONV_S_VERIFYING false).setBypass true
    else if was then s.putB R.CONV_S_VERIFYING true
    else s

/-- The digest of the stored stage-2 spectra of a set, none where a line cannot be read. -/
def State.specDigest (s : State) (set : Nat) : Option Nat × State :=
  let r := (List.range 512).foldl (fun (r : Option Nat × State) o =>
    ((List.range 14).filter fun p => decide (p < (r.2.derived set o).e2.length) && !bitOf (r.2.derived set o).mask2 p).foldl (fun (r : Option Nat × State) p =>
      let q := r.2.loadGet (r.2.specAt set o p) 4096
      (match r.1, q.1 with | some c, some b => some (crc64Run c b) | _, _ => none, q.2)) r) (some (2 ^ 64 - 1), s)
  (r.1.map (· ^^^ (2 ^ 64 - 1)), r.2)

/-- Whether a set's spectra match its digest. -/
def State.verifySet (s : State) (set : Nat) : Bool × State :=
  let q := s.specDigest set
  (q.1 == some (s.digest set), q.2)

/-- The verification ends (R300). -/
def State.verifyDone (s : State) : State :=
  if !s.is R.CONV_S_VERIFYING || s.loadWaits 0 || s.loadWaits 1 then s
  else
    let s := s.putB R.CONV_S_VERIFYING false
    let a := s.convActive
    let b := 1 - a
    let st := s.setState a
    let qa := if st = csEmpty then (true, s) else s.verifySet a
    let s := qa.2
    let sb := s.setState b
    let s := if sb = csReady ∨ sb = csDirty then
        let q := s.verifySet b
        if q.1 then q.2 else q.2.putSetState b csFailed
      else s
    if qa.1 then (if s.bypassCause then s else s.bypassOff)
    else ((s.putSetState a csLost).latch eCONV 11).lostUpdate

/-! Image writes (R296). -/

/-- A write into the image of a set was accepted: a READY set becomes DIRTY. -/
def State.imageWritten (s : State) (set : Nat) : State :=
  if s.setState set = csReady then s.putSetState set csDirty else s

/-- A fabric write into a tap image: whether it is refused, with its latch (R260, R296). -/
def State.imageGate (s : State) (a : Nat) : Bool × State :=
  match s.imageOf a with
  | none => (false, s)
  | some set =>
    if s.imageClosed set then (true, s.latch eCONV 5)
    else if s.pressedSet set then (true, s.latch ePRESS 2)
    else (false, s)

/-- The write was done. -/
def State.imageDone (s : State) (a : Nat) : State :=
  match s.imageOf a with
  | none => s
  | some set => s.imageWritten set

/-! Registers (R304). -/

/-- MASK and EXP_p of the selection. -/
def State.convMask (s : State) : Nat :=
  let d := s.derived (s.get R.CONV_WIN_SEL_SET) (s.get R.CONV_WIN_SEL_OUT)
  d.mask1 + d.mask2 * 2 ^ 16 + b2n d.headEmpty * 2 ^ 31

def State.convExp (s : State) (p : Nat) : Nat :=
  let d := s.derived (s.get R.CONV_WIN_SEL_SET) (s.get R.CONV_WIN_SEL_OUT)
  tz 8 (d.e1.getD p 0) + tz 8 (d.e2.getD p 0) * 256

end Sys2Proof.Machine
end

