-- ==== Sys2Proof/Machine/Out.lean ====
section
/-! DEFINITION. OUT (08_buses_and_outputs R263–R272): trim, alignment, biquads, the convolution send and return, the deckle and
the mute of each output. -/

namespace Sys2Proof.Machine

/-! Records (R278). -/

def State.outRec (s : State) (bank o : Nat) : List Nat := (List.range 8).map fun w => s.n (winKey 37 bank (8 * o + w))
def State.outBq (s : State) (bank o : Nat) : List Nat := (List.range 80).map fun w => s.n (winKey 37 (2 + bank) (96 * o + w))

/-- Records of a window kind, w words each, that differ between two states. -/
def recsChanged (a b : State) (src kind w : Nat) : List Nat :=
  let ks (s : State) : List Nat := (s.words.filter fun e =>
    decide (winKey src kind 0 ≤ e.1) && decide (e.1 < winKey src (kind + 1) 0)).map fun e => e.1
  (((ks a ++ ks b).filter fun k => a.w k != b.w k).map fun k => keyWord k / w).dedup

/-- The trim factor with 30 fractional bits (R264). -/
def oTrim (r : List Nat) : Int := let g := metaGain (bits (r.getD 0 0) 15 0); if bitOf (r.getD 0 0) 16 then -g else g
def oConv (r : List Nat) : Bool := bitOf (r.getD 0 0) 17
def oDeck (r : List Nat) : Bool := bitOf (r.getD 0 0) 18
def oAlign (r : List Nat) : Nat := min 4096 (bits (r.getD 1 0) 12 0)
def oBqEn (r : List Nat) (k : Nat) : Bool := bitOf (r.getD 1 0) (16 + k)
def oLa (r : List Nat) : Nat := min 48 (bits (r.getD 2 0) 5 0)
def oGroup (r : List Nat) : Nat := bits (r.getD 2 0) 13 8
/-- A level from −60 to 0 dB, linear with 30 fractional bits. -/
def levelGain (w : Nat) : Int := metaGain (tz 16 (clampI (-15360) 0 (sx 16 w)))
def oCeil (r : List Nat) : Int := levelGain (bits (r.getD 3 0) 15 0)
def oTrms (r : List Nat) : Int := levelGain (bits (r.getD 5 0) 15 0)
/-- D of the deckle, 6·e_deck (R18, R268). -/
def oDelay (r : List Nat) : Nat := if oDeck r then (oLa r + 5) / 6 * 6 else 0

/-- 1 − exp(−d / (48,000 × time)) with k fractional bits. -/
def poleFx (k time d : Nat) : Int := fxRound k (fx1 - fxExp (fxOf (-(d : Rat) / (48000 * time : Nat))))

/-- The sheet of OUT's own count that a slot processes: slots that CTRL[EN] = 0 skipped do not count, so all state holds through
them (R277). -/
def State.outSlot (s : State) (slot : Nat) : Nat := slot - s.outs.skipped

/-- OUT's own count at the last commit that changed output o. -/
def State.outSince (s : State) (o : Nat) : Nat := tget zeroAt s.outs.since o

/-- The sample of the crossfade of that commit that sample i of a slot's sheet is. -/
def State.outFade (s : State) (slot o i : Nat) : Nat := 6 * (s.outSlot slot - s.outSince o) + i

/-- The record that it replaced, within its 48 samples. -/
def State.outBefore (s : State) (o slot : Nat) : Option (List Nat) :=
  if s.outSlot slot < s.outSince o + 8 then
    match tget (fun _ => []) s.outs.oldRec o with
    | [] => none
    | r => some r
  else none

/-- A commit changes output records; `o` is the state before it (R264–R270). An output that it leaves as it is goes on with the
crossfades of an earlier commit. -/
def State.outCommit (s o : State) : State :=
  let ch := (recsChanged s o 37 1 8 ++ recsChanged s o 37 3 96).dedup
  s.each ch fun s i =>
    let old := o.outRec 1 i
    let s := { s with outs := { s.outs with
      oldRec := tset (fun _ => []) s.outs.oldRec i old
      oldBq := tset (fun _ => []) s.outs.oldBq i (o.outBq 1 i)
      since := tset zeroAt s.outs.since i (s.outSlot s.slot)
      bqOld := tset silence s.outs.bqOld i (tget silence s.outs.bq i) } }
    if oDeck (s.outRec 1 i) && !oDeck old then
      { s with outs := { s.outs with deck := tset (fun _ => Deck.reset) s.outs.deck i Deck.reset } }
    else s

/-! Stages. -/

/-- Count n saturated samples of output o (R263). -/
def State.outSat (s : State) (o n : Nat) : State :=
  if n = 0 then s else ((s.addW R.OUT0_SAT_CNT_COUNT n).setMap 0x79100 o true).latchN eOUT 0 n

/-- Sample `pos` of a per-output line. -/
def State.lineOf (s : State) (cls o : Nat) (pos : Int) : Int :=
  if pos < 0 then 0 else (s.sheetOf cls o (pos / 6).toNat).getD (pos % 6).toNat 0

/-- Stage 1: samples before saturation (R264). -/
def trimSheet (fo fn : Int) (j : Nat → Nat) (x : List Int) : List Int :=
  x.zipIdx.map fun v => rndShr (v.1 * (fo + rndShr ((fn - fo) * vWin 48 (j v.2)) 30)) 30

/-- One section (R266): coefficients b0 b1 b2 a1 a2, states with 54 fractional bits. -/
def bqSection (c : List Int) (x s1 s2 : Int) : Int × Int × Int × Bool :=
  let g (k : Nat) : Int := c.getD k 0
  let v := rndShr (acc72 (g 0 * x + s1)) 27
  let y := satI 32 v
  (y, acc72 (g 1 * x - g 3 * y + s2), acc72 (g 2 * x - g 4 * y), ovfI 32 v)

/-- One sample through the sections from k on: enables and coefficients, states; the output, states and saturations. -/
def bqSample (en : Nat → Bool) (co : List Nat) : Nat → Int → List Int → Int × List Int × Nat
  | k, x, s1 :: s2 :: t =>
    if en k then
      let q := bqSection (((co.drop (5 * k)).take 5).map (sx 32)) x s1 s2
      let r := bqSample en co (k + 1) q.1 t
      (r.1, q.2.1 :: q.2.2.1 :: r.2.1, b2n q.2.2.2 + r.2.2)
    else
      let r := bqSample en co (k + 1) x t
      (r.1, s1 :: s2 :: r.2.1, r.2.2)
  | _, x, st => (x, st, 0)

/-- A sheet through a chain. -/
def bqSheet (en : Nat → Bool) (co : List Nat) (x st : List Int) : List Int × List Int × Nat :=
  x.foldl (fun (q : List Int × List Int × Nat) v =>
    let r := bqSample en co 0 v q.2.1
    (q.1 ++ [r.1], r.2.1, q.2.2 + r.2.2)) ([], st, 0)

/-- From old to new with v_48. -/
def fade48 (j : Nat → Nat) (a b : List Int) : List Int :=
  (List.zip a b).zipIdx.map fun x => blendW x.1.1 x.1.2 (vWin 48 (j x.2))

/-- Stages 1 to 4 of output o in a slot (R263–R267); the stage-4 result is kept for the deckle. -/
def State.outFront (s : State) (slot o : Nat) : State :=
  let r := s.outRec 1 o
  let ro := s.outBefore o slot
  let r0 := ro.getD r
  let n := s.outSlot slot
  let j (i : Nat) : Nat := s.outFade slot o i
  let v := trimSheet (oTrim r0) (oTrim r) j (s.sheetOf aOutSink o slot)
  let s := (s.putSheet aTrim o n (v.map (satI 32))).outSat o (v.filter (ovfI 32)).length
  let al (a : Nat) : List Int := (List.range 6).map fun i => s.lineOf aTrim o (6 * (n : Int) + i - a)
  let x := if oAlign r0 = oAlign r then al (oAlign r) else fade48 j (al (oAlign r0)) (al (oAlign r))
  let st := padTo 32 (tget silence s.outs.bq o)
  let new := bqSheet (oBqEn r) (s.outBq 1 o) x st
  let keep (l : List Int) : List Int := if l.all (· = 0) then [] else l
  let s := { s with outs := { s.outs with bq := tset silence s.outs.bq o (keep new.2.1) } }
  let ob := tget (fun _ => []) s.outs.oldBq o
  let changed := ro.isSome && (ob != s.outBq 1 o || (r0.getD 1 0) / 65536 != (r.getD 1 0) / 65536)
  let (y, s) :=
    if changed then
      let old := bqSheet (oBqEn r0) ob x (padTo 32 (tget silence s.outs.bqOld o))
      (fade48 j old.1 new.1,
        ({ s with outs := { s.outs with bqOld := tset silence s.outs.bqOld o (keep old.2.1) } }).outSat o (new.2.2 + old.2.2))
    else (new.1, s.outSat o new.2.2)
  if !s.is R.CONV_C_EN then s.putSheet aPre o n y
  else
    let s := s.convSend o y
    let q := s.convReturn o
    let s := s.convSat (q.filter (ovfI 32)).length 0
    let ret := q.map (satI 32)
    let pick (b : Bool) : List Int := if b then ret else y
    s.putSheet aPre o n (if oConv r0 = oConv r then pick (oConv r) else fade48 j (pick (oConv r0)) (pick (oConv r)))

/-! Deckle (R268–R270). -/

/-- What the deckle of one output found for a sample: g, the required reduction r at t − D, the thermal gain, the delayed sample. -/
structure DeckStep where
  g : Rat
  r : Rat
  gt : Rat
  x : Int
  deriving DecidableEq, Repr

def DeckStep.ko (d : DeckStep) : Rat := min d.g (min d.r d.gt)

/-- The reduction a sample requires. -/
def deckReq (c : Rat) (x : Int) : Rat := if x = 0 then 1 else min 1 (fDiv c (fFix 27 |x|))

/-- One sample of the gain computation. -/
def deckStep (r : List Nat) (d : Deck) (xd : Int) (win : List Int) : DeckStep × Deck :=
  let c := fFix 30 (oCeil r)
  let att := fFix 30 (poleFx 30 (clampN 1 1000 (bits (r.getD 3 0) 31 16)) 100000)
  let rel := fFix 30 (poleFx 30 (clampN 1 2000 (bits (r.getD 4 0) 15 0)) 1000)
  let b := poleFx 40 (clampN 1 600 (bits (r.getD 5 0) 31 16)) 10
  let m := win.foldl (fun m x => min m (deckReq c x)) 1
  let g := fAdd d.g (fMul (if m < d.g then att else rel) (fSub m d.g))
  let ms := ((d.ms : Int) + rndShr (b * (xd * xd - d.ms)) 40).toNat
  let gt := if ms = 0 then 1 else min 1 (fDiv (fFix 30 (oTrms r)) (fSqrt (f32 ((ms : Rat) / (2 ^ 54 : Nat)))))
  (⟨g, deckReq c xd, gt, xd⟩, { d with g := g, gt := gt, ms := ms })

/-- The six steps of an output's deckle, and its state after them: with DECK_EN = 0 the state holds (R268). -/
def State.deckRun (s : State) (slot o : Nat) : List DeckStep × Deck :=
  let r := s.outRec 1 o
  let ro := s.outBefore o slot
  let d0 := tget (fun _ => Deck.reset) s.outs.deck o
  if !oDeck r then ([], d0)
  else
    let qo := match ro with | some x => if oDeck x then x else r | none => r
    (List.range 6).foldl (fun (a : List DeckStep × Deck) (i : Nat) =>
      let t := 6 * (s.outSlot slot : Int) + i
      let x (d : Nat) : Int := s.lineOf aPre o (t - d)
      let xd := if oDelay qo = oDelay r then x (oDelay r)
        else blendW (x (oDelay qo)) (x (oDelay r)) (vWin 48 (s.outFade slot o i))
      let win := (List.range (oLa r + 1)).map fun k => s.lineOf aPre o (t - oDelay r + k)
      let e := deckStep r a.2 xd win
      (a.1 ++ [e.1], e.2)) ([], d0)

/-- The last stages of an output, from its own steps and those of its group (R268, R269, R271). -/
def State.outBack (s : State) (slot o : Nat) (runs : Tab (List DeckStep × Deck)) : State :=
  let r := s.outRec 1 o
  let ro := s.outBefore o slot
  let dry := s.sheetOf aPre o (s.outSlot slot)
  let none' : Nat → List DeckStep × Deck := fun _ => ([], Deck.reset)
  let me := tget none' runs o
  let grp (k : Nat) : List (List DeckStep) :=
    if oGroup r = 0 then [me.1]
    else (runs.filter fun e => decide (e.1 = k) || (decide (oGroup (s.outRec 1 e.1) = oGroup r) && oDeck (s.outRec 1 e.1))).map fun e => e.2.1
  let q : List Int × State :=
    if !oDeck r then (dry, s.setMap 0x79140 o false)
    else
      let c27 := rndShr (oCeil r) 3
      let gs := grp o
      let a := me.1.zipIdx.foldl (fun (a : List Int × Int × State) (d : DeckStep × Nat) =>
        let k := gs.foldl (fun (m : Rat) (l : List DeckStep) => match l[d.2]? with | some e => min m e.ko | none => m) d.1.ko
        let k30 := satI 32 (toFix 30 k)
        let y := rndShr (d.1.x * k30) 30
        let clip := decide (c27 < |y|)
        let s := a.2.2
        let s := if d.1.r < d.1.g ∧ d.1.r < d.1.gt then (s.addW R.OUT0_HARD_CNT_COUNT 1).latch eOUT 1 else s
        let s := if clip then (s.addW R.OUT0_CLIP_CNT_COUNT 1).latch eOUT 2 else s
        let s := if a.2.1 = 2 ^ 30 ∧ k30 < 2 ^ 30 then s.latch eOUT (if d.1.gt = k then 4 else 3) else s
        (a.1 ++ [if clip then (if y < 0 then -c27 else c27) else y], k30, s))
        ([], (tget (fun _ => Deck.reset) s.outs.deck o).k, s)
      let s := a.2.2.setMap 0x79140 o (decide (a.2.1 < 2 ^ 30))
      let s := { s with outs := { s.outs with deck := tset (fun _ => Deck.reset) s.outs.deck o { me.2 with k := a.2.1 } } }
      (if (ro.map oDeck).getD true then a.1 else fade48 (s.outFade slot o) dry a.1, s)
  let wet := q.1
  let s := q.2
  let want := s.is R.OUT0_C_MUTE_ALL || s.mapBit 0x79080 o
  let is := s.mapBit 0x790C0 o
  let y := wet.zipIdx.map fun (v : Int × Nat) =>
    if want = is then (if is then 0 else v.1) else byW v.1 (if want then w6 (5 - v.2) else w6 v.2)
  (s.setMap 0x790C0 o want).putSheet aResult o slot y

/-- OUT processes a slot (R263, R277). -/
def State.outSheet (s : State) (slot : Nat) : State :=
  if !s.pageOn eOUT then s
  else if !s.is R.OUT0_C_EN then { s with outs := { s.outs with skipped := s.outs.skipped + 1 } }
  else
    let s := (s.upto 512 fun s o => s.outFront slot o).convAdvance
    let runs := (List.range 512).foldl (fun (t : Tab (List DeckStep × Deck)) o =>
      let d := s.deckRun slot o
      if d.1.isEmpty then t else t ++ [(o, d)]) []
    let s := s.upto 512 fun s o => s.outBack slot o runs
    s.putB R.OUT0_S_LIMITING ((List.range 16).any fun x => s.n (0x79140 + 4 * x) != 0)

/-- Run state of output o (R278): g, gt, the gain last applied, 10·log10(ms) in 1/256 dB. -/
def State.outRun (s : State) (o w : Nat) : Nat :=
  let d := tget (fun _ => Deck.reset) s.outs.deck o
  if w = 0 then satTz 32 (toFix 30 d.g)
  else if w = 1 then satTz 32 (toFix 30 d.gt)
  else if w = 2 then satTz 32 d.k
  else if w = 3 then satTz 32 (toFix 8 (if d.ms = 0 then f32 (Config.logZero : Rat) else fMul 10 (fLog10 (f32 ((d.ms : Rat) / (2 ^ 54 : Nat))))))
  else 0

end Sys2Proof.Machine
end

