-- ==== Sys2Proof/Machine/Asrc.lean ====
section
/-! DEFINITION. The ratio loop of an asynchronous stream (05_input_conditioning R168–R174) and the kernel that evaluates it. The
mapping (t_b, b) is exact (log entry 10); ρ̂ is held with 28 fractional bits. -/

namespace Sys2Proof.Machine

def State.rxCtx (s : State) (c : Nat) : RxCtx := tget (fun _ => RxCtx.init) s.rx c
def State.setRx (s : State) (c : Nat) (f : RxCtx → RxCtx) : State :=
  { s with rx := tset (fun _ => RxCtx.init) s.rx c (f (s.rxCtx c)) }

/-- Key of word w of the loop state of context c (R182). -/
def loopKey (c w : Nat) : Nat := winKey 21 4 (32 * c + w)

def State.loopState (s : State) (c : Nat) : Nat := s.n (loopKey c 0) % 4

/-- ρ̂ in input samples per house sample. -/
def State.rho (s : State) (c : Nat) : Rat := (s.n (loopKey c 1) : Rat) / 2 ^ 28

/-- ρ_nom of a record with nominal rate r Hz, and its 28-bit rounding. -/
def rhoNom (r : Nat) : Rat := (r : Rat) / 48000
def rhoWord (q : Rat) : Nat := (rndRat (q * 2 ^ 28)).toNat

/-- Enter a loop state (R172, R179). -/
def State.enterLoop (s : State) (c st : Nat) : State :=
  let s := s.setN (loopKey c 0) st
  let s := s.setMap 0x320A0 c (st = 2)
  s.putB R.ICB0_S_ACQUIRING ((List.range 256).any fun x => s.loopState x = 1)

/-- Count in a word of the loop state. -/
def State.loopCount (s : State) (c w : Nat) : State := s.setN (loopKey c w) (s.n (loopKey c w) + 1)

/-- Anchor the mapping at a packet (R172): t_b = T − 1, b = the last sample's timestamp. -/
def State.anchorLoop (s : State) (c : Nat) (t : Rat) (ts first : Int) : State :=
  s.setRx c fun x => { x with
    tb := t - 1
    b := ts
    lastT := t
    first := first
    live := false
    due := false
    used := none }

/-- The position P(t) (R169). -/
def State.asrcPos (s : State) (c : Nat) (t : Rat) : Rat :=
  let x := s.rxCtx c
  x.b + (t - x.tb) * s.rho c

/-- The first packet after an enable, a step or a change of rate anchors (R172, R174). -/
def State.loopFirst (s : State) (c nom : Nat) (t : Rat) (ts first : Int) : State :=
  let s := if s.loopState c = 0 then (s.setN (loopKey c 1) (rhoWord (rhoNom nom))).enterLoop c 1 else s
  s.anchorLoop c t ts first

/-- A restart under R139 or a slip re-anchors and acquires again; ρ̂ stays (R173). -/
def State.loopAgain (s : State) (c : Nat) (t : Rat) (ts first : Int) : State :=
  let s := (s.enterLoop c 1).anchorLoop c t ts first
  s.setRx c fun x => { x with zeros := 1 }

/-- The loop update of R171 at a packet whose last sample has extended timestamp ts; lock and slip (R172, R173). A packet that comes at
the instant of the last makes no correction of the ratio (DESIGN CHOICE, log entry 181). -/
def State.asrcUpdate (s : State) (c nom : Nat) (t : Rat) (ts : Int) : State :=
  let x := s.rxCtx c
  let rho := s.rho c
  let p := s.asrcPos c (t - 1)
  let e := (ts : Rat) - p
  let eh := e / rho
  let s := s.setN (loopKey c 2) (satTz 32 (rndRat (eh * 65536)))
  if 4 < |eh| then
    let s := ((s.loopCount c 4).setMap 0x320C0 c true).latch eICB 2
    s.loopAgain c t ts x.first
  else
    let acq := s.loopState c = 1
    let kp := if acq then s.get R.ICB2_LOOP_CFG_ACQ_KP else s.get R.ICB2_LOOP_CFG_TRK_KP
    let ki := if acq then s.get R.ICB2_LOOP_CFG_ACQ_KI else s.get R.ICB2_LOOP_CFG_TRK_KI
    let dt := t - x.lastT
    let r := rho + (if dt = 0 then 0 else e / dt) / 2 ^ ki
    let lim : Rat := (clampN 10 50000 (s.get R.ICB2_RATIO_LIM_LIM) : Rat) / 1000000
    let lo := rhoNom nom * (1 - lim)
    let hi := rhoNom nom * (1 + lim)
    let q := max lo (min hi r)
    let s := s.setRx c fun x => { x with tb := t - 1, b := p + e / 2 ^ kp, lastT := t }
    let s := (s.setN (loopKey c 1) (rhoWord q)).loopCount c 3
    let s := if q = r then s else (s.loopCount c 6).latch eICB 3
    let good := if |eh| < 1 / 4 then min 255 (bits (s.n (loopKey c 0)) 15 8 + 1) else 0
    let s := s.setN (loopKey c 0) (s.loopState c + good * 256)
    if acq && decide (max 1 (s.get R.ICB2_LOOP_CFG_LOCK_CNT) ≤ good) then
      ((s.enterLoop c 2).setN (loopKey c 0) (2 + good * 256)).latch eICB 1
    else s

/-! Kernel (R170). -/

/-- h(m/64), symmetric, zero from |m| = 1024 on. -/
def asrcProto (m : Int) : Int := if m.natAbs < 1024 then Config.asrcTap m.natAbs else 0

/-- h(v), linear between phases, with 30 fractional bits. -/
def asrcH (v : Rat) : Rat :=
  let u := v * 64
  let j := u.floor
  let f := u - j
  (asrcProto j : Rat) * (1 - f) + (asrcProto (j + 1) : Rat) * f

/-- The half-width of the kernel in input samples for a nominal ratio. -/
def asrcHalf (nom : Rat) : Rat := if 1 ≤ nom then 16 * nom else if 4 / 5 ≤ nom then 16 else 20 * nom

/-- The taps of position p: input sample and weight. -/
def asrcTaps (nom p : Rat) : List (Int × Rat) :=
  let w := asrcHalf nom
  let lo := (p - w).floor
  let n := ((p + w).ceil - lo + 1).toNat
  let str := max nom 1
  let l : List (Int × Rat) := ((List.range n).map fun k : Nat => lo + (k : Int)).filterMap fun (i : Int) =>
    if |p - (i : Rat)| < w then some (i, asrcH ((p - (i : Rat)) / str) / str) else none
  if 4 / 5 ≤ nom then l
  else
    let sum := (l.map fun x => x.2).sum
    l.map fun x => (x.1, x.2 / sum * 2 ^ 30)

/-- Channel j of the input at a position, rounded to house format (R162, R170). -/
def State.asrcEval (s : State) (c j : Nat) (nom p : Rat) : Int :=
  let buf := (s.rxCtx c).buf
  rndRat (((asrcTaps nom p).map fun x =>
    ((tget silence buf (x.1 + 2 ^ 63).toNat).getD j 0 : Rat) * x.2).sum / 2 ^ 30)

end Sys2Proof.Machine
end

