-- ==== Sys2Proof/Machine/Frame.lean ====
section
/-! DEFINITION. Frames (04_network R118–R122, R130, R146): the FCS, Internet checksums, one-tag parsing, and the
recomputation of a UDP checksum. -/

namespace Sys2Proof.Machine

/-- CRC-32 of IEEE 802.3, reflected, one bit. -/
def crcBit (c : Nat) : Nat := if c % 2 = 1 then (c / 2) ^^^ 0xEDB88320 else c / 2

def crcByte (c : Nat) (b : Byte) : Nat :=
  crcBit (crcBit (crcBit (crcBit (crcBit (crcBit (crcBit (crcBit (c ^^^ b.toNat))))))))

/-- The CRC-32 of a byte string, with the final complement (R121). -/
def crc32 (l : List Byte) : Nat := (l.foldl crcByte 0xFFFFFFFF) ^^^ 0xFFFFFFFF

/-- A frame with its FCS, least significant byte first on the wire. -/
def withFcs (l : List Byte) : List Byte := l ++ leBytes 4 (crc32 l)

/-- The FCS of a received frame is good. -/
def fcsOk (f : List Byte) : Bool :=
  decide (4 ≤ f.length) && leNat (f.drop (f.length - 4)) == crc32 (f.take (f.length - 4))

/-- Sum of the 16-bit big-endian words of a byte string, odd length padded. -/
def sum16 : List Byte → Nat
  | [] => 0
  | [a] => a.toNat * 256
  | a :: b :: t => a.toNat * 256 + b.toNat + sum16 t

def fold16 (n : Nat) : Nat := let m := n % 65536 + n / 65536; let m := m % 65536 + m / 65536; m % 65536 + m / 65536

/-- The Internet checksum over a sum. -/
def csum (n : Nat) : Nat := 0xFFFF - fold16 n

/-- What classification needs of a frame given without its FCS. -/
structure Pkt where
  dst : List Byte
  tci : Option Nat
  etype : Nat
  /-- IP version, 0 for none; offset of the IP header. -/
  ver : Nat
  l3 : Nat
  ipSrc : List Byte
  ipDst : List Byte
  proto : Nat
  frag : Bool
  /-- Offset of the header after IP, where it is whole. -/
  l4 : Nat
  ports : Bool
  dport : Nat
  udp : Bool
  payload : List Byte
  ipErr : Bool
  udpErr : Bool
  deriving DecidableEq, Repr

/-- A frame that carries no IP. -/
def Pkt.plain (dst : List Byte) (tci : Option Nat) (etype l3 : Nat) : Pkt :=
  ⟨dst, tci, etype, 0, l3, [], [], 0, false, 0, false, 0, false, [], false, false⟩

/-- The transport part of an IP datagram: ports, UDP payload and the UDP check (R118). -/
def Pkt.transport (p : Pkt) (d : List Byte) : Pkt :=
  if p.frag then p
  else
    let p := if (p.proto = 6 ∨ p.proto = 17) ∧ 4 ≤ d.length then { p with ports := true, dport := beAt d 2 2 } else p
    if p.proto ≠ 17 then p
    else
      let n := beAt d 4 2
      if d.length < 8 ∨ n < 8 ∨ d.length < n then { p with udp := true, udpErr := true }
      else
        let c := beAt d 6 2
        let pseudo := sum16 p.ipSrc + sum16 p.ipDst + 17 + n
        let bad := if c = 0 then p.ver = 6 else fold16 (pseudo + sum16 (d.take n)) ≠ 0xFFFF
        { p with udp := true, payload := (d.take n).drop 8, udpErr := bad }

/-- Parse a frame: one tag of TPID 0x8100, IPv4 or IPv6, UDP (R118, R120). IPv6 extension headers are not walked: a datagram behind one
is neither checked nor matched (DESIGN CHOICE, log entry 145). -/
def parseFrame (f : List Byte) : Pkt :=
  let tagged := beAt f 12 2 = 0x8100 ∧ 18 ≤ f.length
  let o := if tagged then 18 else 14
  let tci := if tagged then some (beAt f 14 2) else none
  let et := if tagged then beAt f 16 2 else beAt f 12 2
  let b := f.drop o
  let p := Pkt.plain (f.take 6) tci et o
  if et = 0x0800 then
    let ihl := beAt b 0 1 % 16 * 4
    if b.length < 20 ∨ beAt b 0 1 / 16 ≠ 4 ∨ ihl < 20 ∨ b.length < ihl then { p with ver := 4, ipErr := true }
    else
      let p := { p with
        ver := 4
        ipSrc := (b.drop 12).take 4
        ipDst := (b.drop 16).take 4
        proto := beAt b 9 1
        frag := beAt b 6 2 % 0x4000 != 0
        l4 := o + ihl
        ipErr := fold16 (sum16 (b.take ihl)) != 0xFFFF }
      p.transport ((b.take (max ihl (beAt b 2 2))).drop ihl)
  else if et = 0x86DD then
    if b.length < 40 ∨ beAt b 0 1 / 16 ≠ 6 then { p with ver := 6, ipErr := true }
    else
      let p := { p with
        ver := 6
        ipSrc := (b.drop 8).take 16
        ipDst := (b.drop 24).take 16
        proto := beAt b 6 1
        frag := beAt b 6 1 == 44
        l4 := o + 40 }
      p.transport ((b.drop 40).take (beAt b 4 2))
  else p

/-- The VID of the outer tag; an untagged or priority-tagged frame has none (R120). -/
def Pkt.vid (p : Pkt) : Option Nat :=
  match p.tci with
  | some t => if t % 4096 = 0 then none else some (t % 4096)
  | none => none

def Pkt.isBcast (p : Pkt) : Bool := p.dst == List.replicate 6 0xFF
def Pkt.isMcast (p : Pkt) : Bool := beNat (p.dst.take 1) % 2 == 1 && !p.isBcast

/-- Replace bytes of a string at an offset. -/
def splice (l : List Byte) (o : Nat) (d : List Byte) : List Byte := l.take o ++ d ++ l.drop (o + d.length)

/-- Recompute the UDP checksum of a frame that carries UDP (R86). -/
def fixUdp (f : List Byte) : List Byte :=
  let p := parseFrame f
  if !p.udp || p.l4 = 0 then f
  else
    let g := splice f (p.l4 + 6) [0, 0]
    let n := beAt g (p.l4 + 4) 2
    let c := csum (sum16 p.ipSrc + sum16 p.ipDst + 17 + n + sum16 ((g.drop p.l4).take n))
    splice f (p.l4 + 6) (beBytes 2 (if c = 0 then 0xFFFF else c))

end Sys2Proof.Machine
end

