-- ==== Sys2Proof/Machine/Rxs.lean ====
section
/-! DEFINITION. The receive streams (04_network R133–R143, R155–R157): matching, acceptance, placement, merging, the
receive cut-off with its fades and counts, and what a commit does to a context. -/

namespace Sys2Proof.Machine

/-- The 32 words of a context record: bank 0 SHADOW, 1 ACTIVE (R156). -/
def State.rxRec (s : State) (c bank : Nat) : List Nat := (List.range 32).map fun w => s.n (winKey 13 bank (32 * c + w))

/-- Fields of a receive record (R134). -/
def rCfg (r : List Nat) : Nat := r.getD 0 0
def rEn (r : List Nat) : Bool := bitOf (rCfg r) 0
def rSync (r : List Nat) : Bool := bitOf (rCfg r) 7
def rRate (r : List Nat) : Nat := if rSync r then 2 ^ bits (rCfg r) 10 9 else 1
def rChans (r : List Nat) : Nat := bits (rCfg r) 21 16 + 1
def rUse (r : List Nat) : Nat := bits (rCfg r) 29 24 + 1
def rBytes (r : List Nat) : Nat := if bitOf (rCfg r) 6 then 3 else 2
def rBase (r : List Nat) : Nat := bits (r.getD 1 0) 9 0
def rK (r : List Nat) : Nat := bits (r.getD 1 0) 23 16
def rNom (r : List Nat) : Nat := r.getD 4 0
def rPmax (r : List Nat) : Nat := bits (r.getD 5 0) 15 0
/-- The packet time in house samples (R145). -/
def ptime (v : Nat) : Nat := [6, 12, 16, 48].getD v 6
def rPt (r : List Nat) : Nat := bits (rCfg r) 13 12
/-- Samples per packet of a synchronous stream (R135). -/
def rP (r : List Nat) : Nat := ptime (rPt r) * rRate r
/-- e_pkt of R16. -/
def rEpkt (r : List Nat) : Nat :=
  let p := ptime (rPt r)
  if rSync r && bitOf (rCfg r) 8 then p / 6 - 1 else (p + 4) / 6
/-- e_cond of R17. -/
def rEcond (r : List Nat) : Nat := if rSync r then bits (rCfg r) 10 9 else 4
/-- A record as bytes, and its address fields. -/
def recBytes (r : List Nat) : List Byte := r.flatMap (leBytes 4)
def rAddr (r : List Nat) (o : Nat) : List Byte := ((recBytes r).drop o).take (if bitOf (rCfg r) 5 then 16 else 4)
/-- The port of a leg, if the context has it (R115, R134). -/
def rPort (r : List Nat) (leg : Nat) : Option Nat :=
  if bitOf (rCfg r) 1 then (if leg ≤ 1 then some (2 * bits (rCfg r) 2 2 + leg) else none)
  else if leg = 0 then some (bits (rCfg r) 4 3) else none
/-- UDP port and VID of a leg. A leg without a VID, or with VID 0, takes untagged and priority-tagged frames (DESIGN CHOICE, log entry
113). -/
def rUdp (r : List Nat) (leg : Nat) : Nat := bits (r.getD 6 0) (16 * leg + 15) (16 * leg)
def rVid (r : List Nat) (leg : Nat) : Option Nat :=
  let v := bits (r.getD 7 0) (16 * leg + 15) (16 * leg)
  if bitOf v 15 ∧ v % 4096 ≠ 0 then some (v % 4096) else none

/-- VID valid, which makes room for a tag (R135). -/
def rTag (r : List Nat) (leg : Nat) : Bool := bitOf (r.getD 7 0) (16 * leg + 15)

/-- Count in word w of a context's run state (R157). -/
def rxKey (c w : Nat) : Nat := winKey 13 2 (32 * c + w)
def State.rxCount (s : State) (c w n : Nat) : State := if n = 0 then s else s.setN (rxKey c w) (s.n (rxKey c w) + n)

/-- Contexts enabled in the ACTIVE bank. -/
def State.rxEnabled (s : State) : List Nat := (List.range 256).filter fun c => bitOf (s.n (winKey 13 1 (32 * c))) 0

/-- The leg that a UDP datagram on port p matches (R119 row 5, R134). -/
def State.rxMatch (s : State) (p : Nat) (k : Pkt) : Option (Nat × Nat) :=
  if !s.pageOn eRXS || !k.udp || k.frag then none
  else
    let hit (c leg : Nat) : Bool :=
      let r := s.rxRec c 1
      rPort r leg == some p && decide (k.ver = if bitOf (rCfg r) 5 then 6 else 4) && decide (k.ipDst = rAddr r (0x20 + 16 * leg))
        && decide (k.dport = rUdp r leg) && decide (k.vid = rVid r leg)
    (s.rxEnabled.flatMap fun c => [(c, 0), (c, 1)]).find? fun x => hit x.1 x.2

/-- Key base of RXS1.LEGn_UP. -/
def legMap (leg : Nat) : Nat := 0x210A0 + 32 * leg

/-- A leg's state changes (R141). -/
def State.setLeg (s : State) (c leg : Nat) (up : Bool) : State :=
  if s.mapBit (legMap leg) c = up then s
  else
    let s := s.setMap (legMap leg) c up
    let s := s.setN (rxKey c 0) (putBits (s.n (rxKey c 0)) leg leg (b2n up))
    s.latch eRXS (if up then 2 else 1)

/-- STATUS[LOSS_ACTIVE]: an enabled context has no leg up (R142). -/
def State.lossActive (s : State) : Bool :=
  s.rxEnabled.any fun c => !s.mapBit (legMap 0) c && !s.mapBit (legMap 1) c

/-- The link of port p fell: its legs go down (R141). -/
def State.portLegsDown (s : State) (p : Nat) : State :=
  if !s.pageOn eRXS then s
  else s.upto 256 fun s c => s.each [0, 1] fun s leg =>
    if s.mapBit (legMap leg) c && rPort (s.rxRec c 1) leg == some p then s.setLeg c leg false else s

/-- A leg has had no packet for LEG_TIMEOUT sheets (R141). -/
def State.legTimeoutOp (s : State) (c leg : Nat) : State :=
  let t := bits (s.n (winKey 13 1 (32 * c + 5))) 23 16
  let last := (s.rxCtx c).legLast.getD leg 0
  if s.pageOn eRXS && s.mapBit (legMap leg) c && decide (last + (if t = 0 then 8 else t) ≤ s.slot) then s.setLeg c leg false
  else s

/-! Acceptance (R136). -/

/-- An RTP packet: payload type, sequence number, timestamp, SSRC and payload, CSRCs, extension and padding skipped. -/
structure Rtp where
  pt : Nat
  seq : Nat
  ts : Nat
  ssrc : Nat
  data : List Byte
  deriving DecidableEq, Repr

def parseRtp (l : List Byte) : Option Rtp :=
  let b0 := beAt l 0 1
  if l.length < 12 ∨ b0 / 64 ≠ 2 then none
  else
    let o := 12 + 4 * (b0 % 16)
    let o' := if bitOf b0 4 then o + 4 + 4 * beAt l (o + 2) 2 else o
    let pad := if bitOf b0 5 then beAt l (l.length - 1) 1 else 0
    if l.length < o' + pad then none
    else some ⟨beAt l 1 1 % 128, beAt l 2 2, beAt l 4 4, beAt l 8 4, (l.drop o').take (l.length - o' - pad)⟩

/-- The tests of R136 on a packet that matched a leg. -/
def rtpOk (r : List Nat) (leg : Nat) (k : Pkt) (p : Rtp) : Bool :=
  let n := p.data.length
  let f := rChans r * rBytes r
  (!bitOf (r.getD 1 0) 31 || decide (p.pt = bits (r.getD 1 0) 30 24)) &&
  (!bitOf (rCfg r) 15 || decide (p.ssrc = r.getD 3 0)) &&
  (!bitOf (rCfg r) 14 || decide (k.ipSrc = rAddr r (0x40 + 16 * leg))) &&
  (if rSync r then decide (n = f * rP r) else decide (n % f = 0 ∧ n ≤ f * rPmax r))

/-- One sample in house format (R7), from big-endian bytes. -/
def netSample (l : List Byte) (o b : Nat) : Int := if b = 3 then sx 24 (beAt l o 3) * 16 else sx 16 (beAt l o 2) * 4096

/-- The used channels of each media sample of a payload. -/
def samplesOf (r : List Nat) (d : List Byte) : List (List Int) :=
  let f := rChans r * rBytes r
  (List.range (d.length / f)).map fun i => (List.range (min (rUse r) (rChans r))).map fun j =>
    netSample d (i * f + j * rBytes r) (rBytes r)

/-! Numbering (R140, R141). -/

/-- The extended sequence number nearest the highest so far. -/
def extSeq (top : Option Int) (q : Nat) : Int :=
  match top with
  | none => q
  | some t => t + sx 16 (tz 16 (q - t))

/-- A leg's packet: count, gap and liveness (R141). -/
def State.legPacket (s : State) (c leg q : Nat) : State :=
  let x := s.rxCtx c
  let gap := match x.legTop.getD leg none with
    | none => 0
    | some t => let d := tz 16 ((q : Int) - t); if 1 < d ∧ d < 32768 then d - 1 else 0
  let top := match x.legTop.getD leg none with
    | none => q
    | some t => if tz 16 ((q : Int) - t) < 32768 then q else t
  let s := (s.rxCount c (1 + leg) 1).rxCount c (3 + leg) gap
  let s := s.setRx c fun x => { x with legTop := x.legTop.set leg (some top), legLast := x.legLast.set leg s.slot }
  s.setLeg c leg true

/-- Remember a number whose first copy R138 discards as early: its second copy is a duplicate still (R140). -/
def State.noteSeen (s : State) (c : Nat) (e : Int) (ts : Nat) : State := s.setRx c fun x => { x with seen := x.seen ++ [(e, ts)] }

/-- Remember an accepted number: the 256 below the highest (R140), SEEN and SEQ (R157). -/
def State.remember (s : State) (c : Nat) (e : Int) (ts : Nat) : State :=
  let x := s.rxCtx c
  let top := match x.top with | none => e | some t => max t e
  let s := s.setRx c fun x => { x with
    top := some top
    seen := (x.seen ++ [(e, ts)]).filter fun p => top - 256 ≤ p.1 }
  s.setN (rxKey c 0) (s.n (rxKey c 0) % 4 + 4 + tz 16 top * 65536)

/-! Synchronous placement (R137, R138). -/

/-- The sheet that a media sample belongs to. -/
def sheetOfX (m : Nat) (x : Int) : Int := x / (6 * (m : Int))

/-- Sheet n of a context is open (R138). -/
def State.sheetOpen (s : State) (r : List Nat) (n : Int) : Bool := s.rxCut < n + 1 + rK r + rEpkt r

/-- The key of stream sample x in a jitter buffer. -/
def bufKey (x : Int) : Nat := (x + 2 ^ 63).toNat

/-- Count a late packet (R138). -/
def State.latePacket (s : State) (c : Nat) : State :=
  (((s.rxCount c 7 1).setMap 0x21100 c true)).latch eRXS 3

/-- A packet of a synchronous stream, first copy. The first one accepted ends the wait of R142, also where every sample of it is late. -/
def State.placeSync (s : State) (c : Nat) (r : List Nat) (p : Rtp) (e : Int) : State :=
  let m := rRate r
  let ref : Int := m * s.hsiNow
  let x := ref + sx 32 (tz 32 ((p.ts : Int) - r.getD 2 0 - ref))
  let smp := samplesOf r p.data
  let n := smp.length
  if (s.sheet : Int) < sheetOfX m (x + n - 1) then ((s.noteSeen c e p.ts).rxCount c 8 1).latch eRXS 4
  else
    let s := s.remember c e p.ts
    let s := if bitOf (rCfg r) 8 && decide (x % (6 * (m : Int)) ≠ 0) then s.rxCount c 11 1 else s
    let idx := smp.zipIdx.map fun v => (x + (v.2 : Int), v.1)
    let ok := idx.filter fun v => s.sheetOpen r (sheetOfX m v.1)
    let s := if ok.length < n then s.latePacket c else s
    match ok with
    | [] => if (s.rxCtx c).started then s else s.setRx c fun y => { y with started := true, since := x + n, fade := 0, rcd := r }
    | v :: _ => (s.areaWork 0x0C [packetWrite]).setRx c fun y => { y with
        started := true
        since := if y.started then y.since else v.1
        fade := if y.started then y.fade else 0
        rcd := r
        buf := tsetAll silence y.buf (ok.map fun v => (bufKey v.1, v.2)) }

/-! Asynchronous delivery (R139). -/

/-- The time of arrival in house samples. -/
def State.arrival (s : State) : Rat := (s.hsiNow : Rat) + (s.ph : Rat) / 12800

/-- A missing run begins: LOSS, STREAM_LOSS (R142). -/
def State.lossStart (s : State) (c : Nat) : State := (s.setMap 0x210E0 c true).latch eRXS 0

/-- Multiply the six buffered samples before x by the fade-out of R142, where they are still unconsumed. -/
def fadeBefore (buf : Tab (List Int)) (x : Int) (used : Option Int) : Tab (List Int) :=
  (List.range 6).foldl (fun b (d : Nat) =>
    let y : Int := x - 1 - (d : Int)
    if (match used with | some u => decide (u < y) | none => true) then
      tset silence b (bufKey y) ((tget silence b (bufKey y)).map fun v => byW v (w6 d))
    else b) buf

/-- How an asynchronous packet follows the one before it: its extended timestamp, the samples missing before it, whether it restarts
the stream (R139). -/
structure Follow where
  ts : Int
  gap : Nat
  restart : Bool
  deriving DecidableEq, Repr

def followOf (x : RxCtx) (r : List Nat) (ts : Nat) : Follow :=
  match x.expect with
  | none => ⟨ts, 0, false⟩
  | some q =>
    let t := q + sx 32 (tz 32 ((ts : Int) - q))
    let restart := decide (t < q ∨ 8 * (rPmax r : Int) < t - q)
    ⟨t, if restart then 0 else (t - q).toNat, restart⟩

/-- What RXS counts of a gap or a restart revealed by a packet of n samples (R139). -/
def State.followCount (s : State) (c n : Nat) (f : Follow) : State :=
  if f.restart then s.rxCount c 5 1
  else if f.gap = 0 then s
  else ((s.rxCount c 6 f.gap).rxCount c 5 ((f.gap + n - 1) / n)).lossStart c

/-- The samples of a packet reach ICB: fades, the ratio loop, the buffer (R139, R169–R173). -/
def State.deliverAsync (s : State) (c : Nat) (r : List Nat) (smp : List (List Int)) (f : Follow) : State :=
  let n := smp.length
  let t := s.arrival
  let last := f.ts + n - 1
  let s := if f.restart then s.setRx c fun y => { y with buf := [], fade := 6 }
    else if f.gap = 0 then s
    else s.setRx c fun y => { y with buf := fadeBefore y.buf (f.ts - f.gap) y.used, fade := 0 }
  let s := if f.restart ∧ s.loopState c ≠ 0 then
      ((s.loopCount c 5).latch eICB 4).loopAgain c t last f.ts
    else if (s.rxCtx c).due ∨ s.loopState c = 0 then s.loopFirst c (rNom r) t last f.ts
    else s.asrcUpdate c (rNom r) t last
  let y := s.rxCtx c
  let idx := smp.zipIdx.map fun v =>
    (f.ts + (v.2 : Int), if y.fade + v.2 < 6 then v.1.map fun q => byW q (w6 (y.fade + v.2)) else v.1)
  let ok := idx.filter fun v => match y.used with | some u => decide (u < v.1) | none => true
  let s := if ok.length < n then s.latePacket c else s
  (s.areaWork 0x0C [packetWrite]).setRx c fun y => { y with
    rcd := r
    fade := min 6 (y.fade + n)
    buf := tsetAll silence y.buf (ok.map fun v => (bufKey v.1, v.2)) }

/-- A packet of an asynchronous stream, first copy. While ICB is off or its EN is 0, all its state holds (R178): the samples are
counted as RXS counts them and not delivered. -/
def State.placeAsync (s : State) (c : Nat) (r : List Nat) (p : Rtp) (e : Int) : State :=
  let s := s.remember c e p.ts
  let smp := samplesOf r p.data
  let f := followOf (s.rxCtx c) r p.ts
  let s := s.followCount c smp.length f
  let s := if s.blockRuns eICB && s.is R.ICB0_C_EN then s.deliverAsync c r smp f else s
  s.setRx c fun y => { y with started := true, expect := some (f.ts + smp.length) }

/-- A media packet that passed the MAC (R136–R140, R155). An asynchronous one with an empty payload is remembered by its number and
has no other effect (DESIGN CHOICE, log entry 179). -/
def State.rxPacket (s : State) (c leg : Nat) (k : Pkt) : State :=
  if !s.is R.RXS0_C_EN then s
  else
    let r := s.rxRec c 1
    let bad (s : State) : State := (s.rxCount c 10 1).latch eRXS 5
    match parseRtp k.payload with
    | none => bad s
    | some p =>
      if !rtpOk r leg k p then bad s
      else
        let s := s.legPacket c leg p.seq
        let x := s.rxCtx c
        let e := extSeq x.top p.seq
        match x.seen.find? fun q => q.1 == e with
        | some q =>
          let s := s.rxCount c 9 1
          if q.2 = p.ts then s else (s.rxCount c 12 1).latch eRXS 6
        | none =>
          if rSync r then s.placeSync c r p e
          else if p.data = [] then s.remember c e p.ts
          else s.placeAsync c r p e

/-! Receive cut-off (R142). -/

/-- The run of a cut-off over one sheet: output samples so far, the missing run, the packets counted, the fade-in
position, packets to add, zero samples, runs begun. -/
structure Cut where
  out : List (List Int)
  run : Nat
  lost : Nat
  fade : Nat
  add : Nat
  zeros : Nat
  begun : Nat
  deriving DecidableEq, Repr

/-- One media sample at the cut-off; `due` while a missing sample counts. P: samples per packet. -/
def Cut.sample (c : Cut) (p : Nat) (v : Option (List Int)) (due : Bool) : Cut :=
  match v with
  | some x =>
    { c with
      out := c.out ++ [if c.fade < 6 then x.map fun q => byW q (w6 c.fade) else x]
      run := 0
      lost := 0
      fade := min 6 (c.fade + 1) }
  | none =>
    if !due then { c with out := c.out ++ [[]] }
    else
      let n := c.out.length
      let out := if c.run = 0 then
          c.out.zipIdx.map fun x => if n ≤ x.2 + 6 then x.1.map fun q => byW q (w6 (n - 1 - x.2)) else x.1
        else c.out
      let lost := (c.run + 1 + p - 1) / p
      { c with
        out := out ++ [[]]
        begun := c.begun + b2n (c.run = 0)
        run := c.run + 1
        lost := lost
        fade := 0
        add := c.add + (lost - c.lost)
        zeros := c.zeros + 1 }

/-- The input channels that enabled contexts map. -/
def State.mappedChans (s : State) : List Nat :=
  s.rxEnabled.flatMap fun c => let r := s.rxRec c 1; (List.range (rUse r)).map (rBase r + ·)

/-- The sheets before the rate stages of a channel are those of context c. -/
def State.rawOwn (s : State) (c ch : Nat) : Bool := (s.rxCtx c).chans.contains ch

/-- The sheets before the rate stages of a channel. -/
def State.dropRaw (s : State) (ch : Nat) : State := { s with audio := tdrop (fun k => k / 2 ^ 64 == aRaw * 65536 + ch) s.audio }

/-- A channel takes its sheets from context c from here on; those of another before do not enter its stages (R167). -/
def State.rawTake (s : State) (c ch : Nat) : State :=
  if s.rawOwn c ch then s
  else
    let s := { s.dropRaw ch with rx := s.rx.map fun (e : Nat × RxCtx) => (e.1, { e.2 with chans := e.2.chans.filter fun x => x != ch }) }
    s.setRx c fun x => { x with chans := x.chans ++ [ch] }

/-- Close sheet n of context c under record r, and put its samples before ICB; a context that only drains counts nothing and leaves
the channels of enabled ones (`taken`) alone. -/
def State.closeSheet (s : State) (c : Nat) (r : List Nat) (n : Int) (counts : Bool) (taken : List Nat) : State :=
  let m := rRate r
  let x := s.rxCtx c
  let x0 := 6 * (m : Int) * n
  let pre := tget silence x.buf
  let q := (List.range (6 * m)).foldl (fun (q : Cut) i =>
    let y := x0 + (i : Int)
    let v := pre (bufKey y)
    q.sample (rP r) (if v = [] then none else some v) (counts && x.started && decide (x.since ≤ y)))
    ⟨[], x.run, x.lost, x.fade, 0, 0, 0⟩
  let s := s.setRx c fun y => { y with
    run := q.run
    lost := q.lost
    fade := q.fade
    buf := tdrop (fun k => decide (k < bufKey (x0 + 6 * m))) y.buf }
  let s := (s.rxCount c 6 q.zeros).rxCount c 5 q.add
  let s := if q.begun = 0 then s else ((s.setMap 0x210E0 c true)).latchN eRXS 0 q.begun
  s.upto (rUse r) fun s j =>
    if taken.contains (rBase r + j) then s else (s.rawTake c (rBase r + j)).putSheet aRaw (rBase r + j) s.slot (q.out.map fun l => l.getD j 0)

/-- Samples of a context's synchronous record lie between the receive cut-off and the end of its rate stages. -/
def State.rawTail (s : State) (c : Nat) (r : List Nat) : Bool :=
  rSync r && (List.range (rEcond r + 1)).any fun d => decide (d ≤ s.slot) &&
    (List.range (rUse r)).any fun j => s.rawOwn c (rBase r + j) && tget silence s.audio (aKey aRaw (rBase r + j) (s.slot - d)) != []

/-- Disabled contexts that still have samples to deliver (R143). -/
def State.draining (s : State) : List Nat :=
  (s.rx.filter fun e => (e.2.buf != [] || s.rawTail e.1 e.2.rcd) && e.2.rcd != [] && !bitOf (s.n (winKey 13 1 (32 * e.1))) 0).map fun e => e.1

/-- A list with c put before the contexts that were disabled earlier. -/
def State.offInsert (s : State) (c : Nat) : List Nat → List Nat
  | [] => [c]
  | d :: t => if (s.rxCtx d).off ≤ (s.rxCtx c).off then c :: d :: t else d :: s.offInsert c t

/-- The disabled contexts with samples to deliver, the last disabled first, each with the channels that others before it hold: a channel
has one source (05_input_conditioning R161). -/
def State.drains (s : State) (taken : List Nat) : List (Nat × List Nat) :=
  ((s.draining.foldr s.offInsert []).foldl (fun (q : List (Nat × List Nat) × List Nat) c =>
    let x := s.rxCtx c
    let l := ((List.range (rUse x.rcd)).map (rBase x.rcd + ·)).filter fun ch => x.buf != [] || s.rawOwn c ch
    (q.1 ++ [(c, q.2)], q.2 ++ l)) ([], taken)).1

/-- The receive cut-off of the current slot. A context whose commit kept its buffer but changed LINK_OFS or PTIME goes on with the sheets
of its new record: some are closed again as missing, or passed over (DESIGN CHOICE, log entry 148). -/
def State.cutOff (s : State) : State :=
  let n : Int := s.sheet
  if n ≤ s.rxCut then s
  else
    let s := { s with rxCut := n }
    if !s.pageOn eRXS || !s.is R.RXS0_C_EN then s
    else
      let s := s.areaWork 0x0C [packetRead]
      let s := s.each s.rxEnabled fun s c =>
        let r := s.rxRec c 1
        if rSync r then s.closeSheet c r (n - 1 - rK r - rEpkt r) true [] else s
      s.each (s.drains s.mappedChans) fun s x =>
        let r := (s.rxCtx x.1).rcd
        if rSync r then s.closeSheet x.1 r (n - 1 - rK r - rEpkt r) false x.2 else s

/-! Commit (R143, R174). -/

/-- The context waits again with an empty buffer; its legs start down. A gap over it is no leg gap (DESIGN CHOICE, log entry 147). -/
def State.rxEmpty (s : State) (c : Nat) (r : List Nat) : State :=
  let s := s.setRx c fun x => { RxCtx.init with top := x.top, seen := x.seen }
  let s := s.each [0, 1] fun s leg => s.setLeg c leg false
  let s := s.enterLoop c 0
  s.upto (rUse r) fun s j => s.dropRaw (rBase r + j)

/-- The ACTIVE record of context c changes from o to n at a commit (R143, R174). A new NOM_RATE alone leaves a loop that is IDLE so
(DESIGN CHOICE, log entry 183). -/
def State.rxCommit (s : State) (c : Nat) (o n : List Nat) : State :=
  if o = n then s
  else
    let s := s.setMap 0x21080 c (rEn n)
    if !rEn n then
      if rEn o then (s.enterLoop c 0).setRx c fun x => { x with off := s.slot } else s
    else if !rEn o then
      let s := s.rxEmpty c n
      (s.setRx c fun _ => RxCtx.init).setN (rxKey c 0) (s.n (rxKey c 0) / 65536 * 65536)
    else if (rCfg o ^^^ rCfg n) &&& 0x3F06C0 ≠ 0 ∨ rBase o ≠ rBase n ∨ o.getD 2 0 ≠ n.getD 2 0 then s.rxEmpty c n
    else if !rSync n && decide (rNom o ≠ rNom n) then
      let s := (s.setN (loopKey c 1) (rhoWord (rhoNom (rNom n))))
      let s := if s.loopState c = 0 then s else s.enterLoop c 1
      s.setRx c fun x => { x with due := true, live := false }
    else s

end Sys2Proof.Machine
end

