-- ==== Sys2Proof/Machine/Icb.lean ====
section
/-! DEFINITION. Input conditioning (05_input_conditioning R161–R177): rate stages, DC blocker, premium FIR, the conditioned sheet
of every channel in a slot, and what a commit does to the FIR. -/

namespace Sys2Proof.Machine

/-! Records. -/

/-- A word of a channel record (R180) and of a slot record (R181); bank 0 SHADOW, 1 ACTIVE. -/
def State.icbCh (s : State) (bank c : Nat) : Nat := s.cw (winKey 21 bank (2 * c))
def State.icbSlot (s : State) (bank n w : Nat) : Nat := s.cw (winKey 21 (2 + bank) (513 * n + w))

def chFir (w : Nat) : Option Nat := if bitOf w 16 then some (bits w 29 24) else none
def slotN (w : Nat) : Nat := bits w 9 0
def slotG (w : Nat) : Nat := bits w 24 16

/-- The words of a slot record that its N uses. -/
def State.slotRec (s : State) (bank n : Nat) : List Nat :=
  (List.range (1 + min 512 (slotN (s.icbSlot bank n 0)))).map fun w => s.icbSlot bank n w

/-- e_fir = ceil(G / 6) of a channel (R15, R18). -/
def State.eFir (s : State) (bank c : Nat) : Nat :=
  match chFir (s.icbCh bank c) with
  | some n => (slotG (s.icbSlot bank n 0) + 5) / 6
  | none => 0

/-- Channels whose record is not at its reset value, in ascending order. -/
def State.icbListed (s : State) (bank : Nat) : List Nat :=
  (s.words.filter fun e => decide (winKey 21 bank 0 ≤ e.1) && decide (e.1 < winKey 21 bank 2048)).map fun e => keyWord e.1 / 2

/-- Channels with FIR_EN = 1. -/
def State.firChans (s : State) (bank : Nat) : List Nat := (s.icbListed bank).filter fun c => (chFir (s.icbCh bank c)).isSome

/-! Channels that Apsal delivers (13_apsal_systems R402, R403). -/

/-- The device takes the scene of a ring: a worker, or a spare (R402, R435). -/
def State.isWorker (s : State) : Bool := s.role = 1 || s.role = 2

/-- Channel c is forwarded in a bank (R402). -/
def State.forwarded (s : State) (bank c : Nat) : Bool := s.mapBit (if bank = 0 then 0xC2400 else 0xC2480) c

/-- RC in a bank. -/
def State.retCount (s : State) (bank : Nat) : Nat := min 64 (s.n (if bank = 0 then 0xC2090 else 0xC2094) % 128)

/-- RET_MAP_p in a bank. -/
def State.retMap (s : State) (bank p : Nat) : Nat := s.n ((if bank = 0 then 0 else 0x4000000000) + 0xC2500 + 4 * p)

/-- The return that feeds channel c on a manager: position and auxiliary bus (R403). -/
def State.returnOf (s : State) (bank c : Nat) : Option (Nat × Nat) :=
  if s.role ≠ 0 ∨ s.retCount bank = 0 then none
  else ((List.range 32).find? fun p => bitOf (s.retMap bank p) 15 && decide (s.retMap bank p % 1024 ≤ c) &&
    decide (c < s.retMap bank p % 1024 + s.retCount bank)).map fun p => (p, c - s.retMap bank p % 1024)

/-- Apsal delivers channel c: ICB does not condition it (R20, R485). -/
def State.apsalFed (s : State) (c : Nat) : Bool := (s.isWorker && s.forwarded 1 c) || (s.returnOf 1 c).isSome

/-! Rate stages. -/

/-- Half-band coefficient k of a stage with half-length K: even taps but h_0 are zero and the sum is 1 (R166). -/
def halfBand (stage kk : Nat) (k : Int) : Int :=
  if k = 0 then 2 ^ 30 - 2 * ((List.range kk).map fun i => if i % 2 = 0 then Config.halfBandTap stage (i + 1) else 0).sum
  else if k % 2 = 0 ∨ kk < k.natAbs then 0
  else Config.halfBandTap stage k.natAbs

/-- One half-band sum before rounding: Σ h_k x[2t + k]. -/
def halfSum (stage kk : Nat) (x : Int → Int) (t : Int) : Int :=
  ((List.range (2 * kk + 1)).map fun i => halfBand stage kk ((i : Int) - kk) * x (2 * t + (i : Int) - kk)).sum

/-- A sum with 57 fractional bits as a house sample, and whether it saturated (R162). -/
def toHouse (acc : Int) : Int × Bool := let v := rndShr acc 30; (satI 32 v, ovfI 32 v)

/-- A raw stream sample of channel c, at index i from the first sample of the sheet taken in slot r, n samples a sheet. -/
def State.rawAt (s : State) (c n r : Nat) (i : Int) : Int :=
  let d := i / (n : Int)
  let k := (r : Int) + d
  if k < 0 then 0 else (tget silence s.audio (aKey aRaw c k.toNat)).getD (i % (n : Int)).toNat 0

/-- The sheet that a synchronous channel gives stage 2 in a slot, with its saturated samples (R166, R167). -/
def State.rateSync (s : State) (c cond slot : Nat) : List Int × Nat :=
  if slot < cond then (padTo 6 [], 0)
  else
    let r := slot - cond
    if cond = 0 then (padTo 6 (tget silence s.audio (aKey aRaw c r)), 0)
    else
      let mid (u : Int) : Int × Bool :=
        if cond = 1 then (s.rawAt c 12 r u, false) else toHouse (halfSum 0 7 (s.rawAt c 24 r) u)
      let satA := if cond = 1 then 0 else ((List.range 12).filter fun u => (mid (u : Int)).2).length
      let ys := (List.range 6).map fun t => toHouse (halfSum 1 11 (fun u => (mid u).1) (t : Int))
      (ys.map fun y => y.1, satA + (ys.filter fun y => y.2).length)

/-- The sheets of an asynchronous context in the slot of a sheet (R169–R173): one list per used channel, with its saturated
samples. -/
def State.rateAsync (s : State) (c : Nat) (r : List Nat) (sheet : Int) : List (List Int × Nat) × State :=
  let x := s.rxCtx c
  let n : Int := sheet - 5 - rK r - rEpkt r
  let nom := rhoNom (rNom r)
  let pos (i : Nat) : Rat := s.asrcPos c (6 * (n : Rat) + i)
  let none6 := List.replicate (rUse r) (padTo 6 [], 0)
  let rxOn := bitOf (s.n (winKey 13 1 (32 * c))) 0
  if !s.is R.RXS0_C_EN then (none6, s)
  else if !rxOn ∧ x.due then (none6, s.setRx c fun x => { x with buf := [] })
  else if (rxOn ∧ s.loopState c = 0) ∨ x.due then (none6, s)
  else if 0 < x.zeros then (none6, s.setRx c fun x => { x with zeros := x.zeros - 1, live := false })
  else if !x.live && decide (pos 0 - asrcHalf nom < x.first) then (none6, s)
  else
    let raw := (List.range (rUse r)).map fun j => (List.range 6).map fun i =>
      let v := s.asrcEval c j nom (pos i)
      (if x.live then satI 32 v else byW (satI 32 v) (w6 i), ovfI 32 v)
    let used := (pos 5 + asrcHalf nom).ceil - 1
    let keep := bufKey ((pos 0).floor - 200)
    (raw.map fun l => (l.map fun v => v.1, (l.filter fun v => v.2).length), s.setRx c fun x => { x with
      live := true
      used := some (match x.used with | some u => max u used | none => used)
      buf := tdrop (fun k => decide (k < keep)) x.buf })

/-! DC blocker. -/

/-- α of R164 with 30 fractional bits. -/
def dcAlpha (fc : Nat) : Int := fxRound 30 (fx1 - fxExp (-(2 * fxPi * (clampN 50 2000 fc : Nat)) / 4800000))

/-- One sample of R163: the estimate and the output, and whether it saturated. -/
def dcStep (alpha : Int) (hold : Bool) (e x : Int) : Int × Int × Bool :=
  let v := x - rndShr e 24
  let y := satI 32 v
  (if hold then e else satI 56 (e + rndShr (alpha * y) 6), y, ovfI 32 v)

/-- One sheet through the DC blocker of channel c (R163–R165): the samples, the saturations, and the state. -/
def State.dcBlock (s : State) (c : Nat) (xs : List Int) : List Int × Nat × State :=
  let w := s.icbCh 1 c
  let e0 := if tget zeroAt s.dcClr c = 0 then tget zeroAt s.dc c else 0
  let s := { s with dcClr := tset zeroAt s.dcClr c 0 }
  if bitOf w 12 then (xs, 0, { s with dc := tset zeroAt s.dc c e0 })
  else
    let hold := s.mapBit 0x31080 c
    let a := dcAlpha (bits w 11 0)
    let q := xs.foldl (fun (q : Int × List Int × Nat) x =>
      let r := dcStep a hold q.1 x
      (r.1, q.2.1 ++ [r.2.1], q.2.2 + b2n r.2.2)) (e0, [], 0)
    (q.2.1, q.2.2, { s with dc := tset zeroAt s.dc c q.1 })

/-! Premium FIR. -/

/-- Σ h_k x[t + G − k] at position i of the output sheet that lags the sheet N by e_fir (R175). -/
def State.firSum (s : State) (c : Nat) (rcd : List Nat) (n i : Nat) : Int :=
  let g := slotG (rcd.headD 0)
  let from0 := 6 * tget zeroAt s.firFrom c
  ((rcd.drop 1).zipIdx.map fun h =>
    let p : Int := 6 * (n : Int) - 6 * (((g + 5) / 6 : Nat) : Int) + i + g - h.2
    if p < from0 then 0
    else sx 32 h.1 * (padTo 6 (tget silence s.audio (aKey aDc c (p.toNat / 6)))).getD (p.toNat % 6) 0).sum

/-- The conditioned sheet of a channel with a premium FIR, with its saturations (R175, R176). -/
def State.firSheet (s : State) (c slot n : Nat) : List Int × Nat :=
  let rcd := s.slotRec 1 slot
  let ys := (List.range 6).map fun i =>
    let new := s.firSum c rcd n i
    match (s.firXf.find? fun e => e.1 == c) with
    | some e =>
      let j := 6 * (n - e.2.start) + i
      if j < 48 then
        let v := vWin 48 j
        let y := rndShr (s.firSum c e.2.old n i * (2 ^ 30 - v) + new * v) 60
        (satI 32 y, ovfI 32 y)
      else toHouse new
    | none => toHouse new
  (ys.map fun y => y.1, (ys.filter fun y => y.2).length)

/-! The stage. -/

/-- Count the saturated samples of a channel (R162). -/
def State.icbSat (s : State) (c n : Nat) : State :=
  if n = 0 then s else (((s.addW R.ICB0_SAT_CNT_COUNT n).setMap 0x31180 c true)).latchN eICB 0 n

/-- Stages 2 and 3 of channel c on a sheet (R161). -/
def State.icbChan (s : State) (slot c : Nat) (xs : List Int) (sat : Nat) : State :=
  let (ys, k, s) := s.dcBlock c xs
  let s := s.putSheet aDc c s.icbN ys
  match chFir (s.icbCh 1 c) with
  | some n =>
    let f := s.firSheet c n s.icbN
    (s.putSheet aInput c slot f.1).icbSat c (sat + k + f.2)
  | none => (s.putSheet aInput c slot ys).icbSat c (sat + k)

/-- The channels that no enabled context maps and Apsal does not deliver and that still have something to process (R161, R485). -/
def State.icbIdle (s : State) (mapped : List Nat) : List Nat :=
  ((s.dc.map fun e => e.1) ++ s.firChans 1 ++ s.dcClr.map fun e => e.1).eraseDups.filter fun c => !mapped.contains c && !s.apsalFed c

/-- The contexts that ICB takes sheets from, each with its record and the channels that it feeds: the enabled ones, then those that
drain (R161), of which a synchronous one feeds the channels whose sheets before the rate stages are its own. -/
def State.icbSources (s : State) : List (Nat × List Nat × List Nat) :=
  let chans (r : List Nat) : List Nat := ((List.range (rUse r)).map (rBase r + ·)).filter fun c => !s.apsalFed c
  s.rxEnabled.map (fun c => (c, s.rxRec c 1, chans (s.rxRec c 1))) ++ (s.drains s.mappedChans).map fun x =>
    let r := (s.rxCtx x.1).rcd
    (x.1, r, (chans r).filter fun c => !x.2.contains c && (!rSync r || s.rawOwn x.1 c))

/-- ICB conditions every channel in a slot, whose sheet number is given (R161, R178). -/
def State.icbSheet (s : State) (slot : Nat) (sheet : Int) : State :=
  if !s.is R.ICB0_C_EN then s
  else
    let s := { s with icbN := s.icbN + 1 }
    let ctxs := s.icbSources
    let s := s.each ctxs fun s x =>
      let r := x.2.1
      if rSync r then s.each x.2.2 fun s c =>
        let q := s.rateSync c (rEcond r) slot
        s.icbChan slot c q.1 q.2
      else
        let (ls, s) := s.rateAsync x.1 r sheet
        s.each ls.zipIdx fun s l => if x.2.2.contains (rBase r + l.2) then s.icbChan slot (rBase r + l.2) l.1.1 l.1.2 else s
    s.each (s.icbIdle (ctxs.flatMap fun x => x.2.2)) fun s c => s.icbChan slot c (padTo 6 []) 0

/-! Commit (R176). -/

/-- A commit changes the FIR of channel c: `o` is the state before it. Within a crossfade it starts a new one from the filter then last
in force (DESIGN CHOICE, log entry 182). -/
def State.firCommit (s o : State) (c : Nat) : State :=
  let restart (s : State) : State :=
    { s with firFrom := tset zeroAt s.firFrom c (s.icbN + 1), firXf := s.firXf.filter fun e => e.1 != c }
  match chFir (o.icbCh 1 c), chFir (s.icbCh 1 c) with
  | _, none => { s with firXf := s.firXf.filter fun e => e.1 != c }
  | none, some _ => restart s
  | some a, some b =>
    let ro := o.slotRec 1 a
    let rn := s.slotRec 1 b
    if slotN (ro.headD 0) ≠ slotN (rn.headD 0) ∨ slotG (ro.headD 0) ≠ slotG (rn.headD 0) then restart s
    else if ro.drop 1 = rn.drop 1 then s
    else { s with firXf := (s.firXf.filter fun e => e.1 != c) ++ [(c, ⟨s.icbN + 1, ro⟩)] }

def State.icbCommit (s o : State) : State :=
  s.each (o.firChans 1 ++ s.firChans 1).eraseDups fun s c => s.firCommit o c

end Sys2Proof.Machine
end

