-- ==== Sys2Proof/Machine/Mac.lean ====
section
/-! DEFINITION. The Ethernet ports (04_network R114–R132, R152–R153): link, receive classification, rings in host memory,
transmit queues, pause and low-power idle. -/

namespace Sys2Proof.Machine

/-! Helpers. -/

def State.mac (s : State) (p : Nat) : MacSt := s.macs.getD p MacSt.reset
def State.setMac (s : State) (p : Nat) (f : MacSt → MacSt) : State := { s with macs := s.macs.modify p f }

/-- The domain of port p is on. -/
def State.portOn (s : State) (p : Nat) : Bool := s.pageOn (eMAC p)

/-- Counter i of port p grows by n; a change of bit 31 latches (R126). -/
def State.cnt (s : State) (p i n : Nat) : State :=
  if n = 0 then s
  else
    let k := 0x10400 + 0x1000 * p + 4 * i
    let o := s.n k
    let v := (o + n) % 2 ^ 32
    let s := s.setN k v
    if o / 2 ^ 31 = v / 2 ^ 31 then s
    else (s.orW (0x10500 + 0x1000 * p + 4 * (i / 32)) (2 ^ (i % 32))).latch (eMAC p) 14

/-- The size bin of R127. -/
def sizeBin (n : Nat) : Nat :=
  if n ≤ 64 then 0 else if n ≤ 127 then 1 else if n ≤ 255 then 2 else if n ≤ 511 then 3
  else if n ≤ 1023 then 4 else if n ≤ 1518 then 5 else 6

/-- Destination type: unicast 0, multicast 1, broadcast 2. -/
def dstType (d : List Byte) : Nat :=
  if d = List.replicate 6 0xFF then 2 else if beNat (d.take 1) % 2 = 1 then 1 else 0

def State.maxLen (s : State) (p : Nat) : Nat := clampN 64 9216 (s.get (R.MAC_RX_CFG_MAX_LEN.pg p))

/-- Host memory (R128). -/
def State.hostB (s : State) (a : Nat) : Byte := tget Config.hostByte s.hostMem (a % 2 ^ 64)
def State.hostBytes (s : State) (a n : Nat) : List Byte := (List.range n).map fun i => s.hostB (a + i)
def State.setHost (s : State) (a : Nat) (l : List Byte) : State :=
  { s with hostMem := tsetAll Config.hostByte s.hostMem (l.zipIdx.map fun e => ((a + e.2) % 2 ^ 64, e.1)) }

/-- A media frame of context t is not sent (R152, R160). -/
def State.txDropped (s : State) (t : Nat) : State :=
  let k := winKey 17 2 (32 * t + 9)
  s.setN k (s.n k + 1)

/-! Link (R114, R152). -/

/-- LINK falls: latched, and the legs on the port go down (R141, R152). -/
def State.linkFall (s : State) (p : Nat) : State :=
  let was := s.is (R.MAC_S_LINK.pg p)
  let s := (s.putB (R.MAC_S_LINK.pg p) false).putB (R.MAC_S_FEC_ACTIVE.pg p) false
  if was then (s.latch (eMAC p) 12).portLegsDown p else s

/-- SPEED or FEC written: the PCS restarts (R114). -/
def State.pcsWritten (s : State) (p : Nat) (old new : Nat) : State :=
  if old % 4 = new % 4 then s else (s.linkFall p).setMac p fun m => { m with pcs := s.absCyc }

/-- The PCS has block lock: no earlier than 1 ms after its restart (R114). -/
def State.linkUpOp (s : State) (p : Nat) : State :=
  if !s.portOn p || s.is (R.MAC_S_LINK.pg p) || decide (s.absCyc < (s.mac p).pcs + usCyc 1000) then s
  else
    let s := (s.putB (R.MAC_S_LINK.pg p) true).latch (eMAC p) 13
    s.putB (R.MAC_S_FEC_ACTIVE.pg p) (s.is (R.MAC_PCS_CFG_SPEED.pg p) && s.is (R.MAC_PCS_CFG_FEC.pg p))

def State.linkDownOp (s : State) (p : Nat) : State := if s.portOn p then s.linkFall p else s

/-! Pause (R124). -/

/-- The timer value that remains, in quanta of 512 bit times at the port rate. -/
def State.pauseLeft (s : State) (p : Nat) : Nat :=
  let m := s.mac p
  let c := s.absCyc - m.pauseAt
  let rate := if s.is (R.MAC_PCS_CFG_SPEED.pg p) then 25 else 10
  m.pauseQ - c * 625 * rate / (384 * 512)

/-- A pause frame with a pause time. -/
def State.pauseOp (s : State) (p q : Nat) : State :=
  if !s.is (R.MAC_PAUSE_CFG_RX_EN.pg p) then s
  else
    let s := s.latch (eMAC p) 16
    let s := s.setMac p fun m => { m with pauseAt := s.absCyc, pauseQ := q }
    let s := s.putB (R.MAC_S_PAUSED.pg p) (q != 0)
    if q = 0 then s else s.cnt p 49 1

/-- The quanta have elapsed: the control and bulk queues go on. -/
def State.pauseExpireOp (s : State) (p : Nat) : State :=
  if s.portOn p && s.pauseLeft p == 0 then (s.putB (R.MAC_S_PAUSED.pg p) false).setMac p fun m => { m with pauseQ := 0 } else s

/-! Receive (R116–R122, R129, R132). -/

/-- The address filter (R121). -/
def State.addrOk (s : State) (p : Nat) (d : List Byte) : Bool :=
  let a := beNat d
  let own := s.get (R.MAC_ADDR_LO_ADDR.pg p) + s.get (R.MAC_ADDR_HI_ADDR.pg p) * 2 ^ 32
  let entry (i : Nat) : Bool :=
    let hi := s.n (winKey (eMAC p) 0 (2 * i + 1))
    bitOf hi 31 && decide (s.n (winKey (eMAC p) 0 (2 * i)) + bits hi 15 0 * 2 ^ 32 = a)
  if s.is (R.MAC_RX_CFG_PROMISC.pg p) then true
  else match dstType d with
    | 0 => a = own
    | 2 => s.is (R.MAC_RX_CFG_BCAST_EN.pg p)
    | _ => s.is (R.MAC_RX_CFG_MCAST_ALL.pg p) || s.mapBit (0x10200 + 0x1000 * p) (crc32 d / 2 ^ 20)
      || (List.range 256).any entry

/-- The VLAN check (R120). -/
def State.vlanOk (s : State) (p : Nat) (k : Pkt) : Bool :=
  match k.vid with
  | none => s.is (R.MAC_RX_CFG_UNTAG_EN.pg p)
  | some v => (List.range 16).any fun i =>
      s.is ((R.MAC_VID_VALID.ix i).pg p) && decide (s.get ((R.MAC_VID_VID.ix i).pg p) = v)

/-- Rule i matches (R122). -/
def State.ruleHit (s : State) (p : Nat) (k : Pkt) (i : Nat) : Bool :=
  let f (x : Fld) := (x.ix i).pg p
  let mask := s.get (f R.MAC_RULE_DPORT_MASK)
  s.is (f R.MAC_RULE_MATCH_VALID) &&
  (!s.is (f R.MAC_RULE_MATCH_ETYPE_EN) || decide (k.etype = s.get (f R.MAC_RULE_MATCH_ETYPE))) &&
  (!s.is (f R.MAC_RULE_MATCH_PROTO_EN) || decide (k.ver ≠ 0 ∧ k.proto = s.get (f R.MAC_RULE_MATCH_IPPROTO))) &&
  (!s.is (f R.MAC_RULE_MATCH_DPORT_EN) ||
    (k.ports && decide (k.dport &&& mask = s.get (f R.MAC_RULE_DPORT_DPORT) &&& mask))) &&
  (!s.is (f R.MAC_RULE_MATCH_MCAST_ONLY) || decide (dstType k.dst ≠ 0))

/-- The number of descriptors of a ring. -/
def State.ringLen (s : State) (p r : Nat) : Nat := 2 ^ clampN 4 12 (s.get ((R.MAC_RING_SIZE_LOG2.ix r).pg p))

/-- The host address of a descriptor. -/
def State.descAt (s : State) (p r i : Nat) : Nat :=
  (s.n (0x10600 + 0x1000 * p + 32 * r) / 32 * 32 + s.n (0x10604 + 0x1000 * p + 32 * r) * 2 ^ 32) + 32 * i

def State.ringHead (s : State) (p r : Nat) : Nat := s.get ((R.MAC_RING_HEAD_HEAD.ix r).pg p) % s.ringLen p r
def State.ringTail (s : State) (p r : Nat) : Nat := s.get ((R.MAC_RING_TAIL_TAIL.ix r).pg p) % s.ringLen p r

/-- HEAD advances by one descriptor (R128). -/
def State.ringStep (s : State) (p r : Nat) : State :=
  s.put ((R.MAC_RING_HEAD_HEAD.ix r).pg p) ((s.ringHead p r + 1) % s.ringLen p r)

/-- Twelve bytes of a timestamp as descriptors hold it: FRAC, NS, SEC (R88, R129). -/
def tsBytes (u : Int) : List Byte :=
  let t := tsOfU u
  leBytes 2 t.frac ++ leBytes 4 t.ns ++ leBytes 6 t.sec

/-- The effective value of a CAL pair (R459): fuse plus user offset, limited to the field's range. -/
def State.calSum (s : State) (fuse user : Nat) (p : Nat) : Int :=
  clampI 0 (2 ^ 32 - 1) (s.n (fuse + 16 * p) + sx 32 (s.n (user + 16 * p)))

/-- The ingress time of a frame that arrives now (R85). -/
def State.rxTime (s : State) (p : Nat) : Int := s.nowU - s.calSum 0x4200 0x4204 p

/-- The egress time of a frame sent now (R85). -/
def State.txTime (s : State) (p : Nat) : Int := s.nowU + s.calSum 0x4208 0x420C p

/-- Ring r has no descriptor beyond n that are spoken for, or is disabled (R132). -/
def State.noDesc (s : State) (p r n : Nat) : Bool :=
  !s.is ((R.MAC_RING_SIZE_EN.ix r).pg p) || decide ((s.ringTail p r + s.ringLen p r - s.ringHead p r) % s.ringLen p r ≤ n)

/-- A frame for a ring without a descriptor is discarded (R132). -/
def State.dropNoDesc (s : State) (p r : Nat) : State := (s.cnt p 25 1).latch (eMAC p) (8 + r)

/-- A frame goes to receive ring r: it is discarded where the ring has no descriptor; data first, the descriptor last, then HEAD
(R129, R132). -/
def State.ringWrite (s : State) (p : Nat) (f : RxHeld) : State :=
  let r := f.ring
  if s.noDesc p r 0 then s.dropNoDesc p r
  else
    let d := s.descAt p r (s.ringHead p r)
    let desc := s.hostBytes d 16
    let len := leAt desc 8 2
    let out := f.data.take len
    let fl := f.flags + (if len < f.data.length then 4 else 0)
    let s := s.setHost (leAt desc 0 8) out
    let s := s.setHost (d + 10) (leBytes 2 out.length)
    let s := s.setHost (d + 0x10) (tsBytes f.ts ++ leBytes 2 f.tci)
    let s := s.setHost (d + 0xC) (leBytes 4 fl)
    ((s.ringStep p r).latch (eMAC p) r).cnt p (28 + r) 1

/-- Host memory cannot be reached: the PCIe link is in reset (16_electrical R473). -/
def State.hostStalled (s : State) : Bool := s.pwr.perst

/-- Bytes in the receive buffer of port p that wait for the PCIe link. -/
def State.rxBuffered (s : State) (p : Nat) : Nat := ((s.mac p).held.map fun f => f.size).sum

/-- A frame of which the MAC keeps n bytes finds no room in the 32 KiB receive buffer (R116, R117). -/
def State.rxFull (s : State) (p n : Nat) : Bool := decide (32768 < s.rxBuffered p + n)

/-- A frame for a ring: written at once, or kept in order while PCIe writes stall (R127); it is not kept to wait for a descriptor
(R132). -/
def State.ringDeliver (s : State) (p : Nat) (f : RxHeld) : State :=
  if !s.hostStalled then s.ringWrite p f
  else if s.noDesc p f.ring ((s.mac p).held.countP fun g => g.ring == f.ring) then s.dropNoDesc p f.ring
  else s.setMac p fun m => { m with held := m.held ++ [f] }

/-- The PCIe link is back: every frame kept is written, in order. -/
def State.ringDrain (s : State) (p : Nat) : State :=
  (s.setMac p fun m => { m with held := [] }).each (s.mac p).held fun s f => s.ringWrite p f

/-- Rows 6 and 7 of R119: the first matching rule, or the default. The tag of a frame cut to MAX_LEN is stripped after the cut, and
FRAME_LEN is then MAX_LEN − 4 (DESIGN CHOICE, log entry 146). -/
def State.toRing (s : State) (p size : Nat) (k : Pkt) (data : List Byte) (trunc : Bool) : State :=
  let rule := leastN 16 (s.ruleHit p k)
  let s := match rule with | some i => s.addW ((R.MAC_RULE_HITS_COUNT.ix i).pg p) 1 | none => s
  let drop := match rule with
    | some i => s.is ((R.MAC_RULE_ACT_DROP.ix i).pg p)
    | none => s.is (R.MAC_DEF_RULE_DROP.pg p)
  let ring := match rule with
    | some i => s.get ((R.MAC_RULE_ACT_RING.ix i).pg p)
    | none => s.get (R.MAC_DEF_RULE_RING.pg p)
  if drop then s.cnt p 24 1
  else
    let strip := s.is (R.MAC_RX_CFG_STRIP.pg p) && k.tci.isSome
    let data := if strip then data.take 12 ++ data.drop 16 else data
    let flags := b2n trunc * 2 + b2n (!trunc && (k.ipErr || k.udpErr)) * 8 + b2n strip * 16 + b2n (k.ver = 6) * 32
      + b2n k.udp * 64 + b2n k.isMcast * 128 + b2n k.isBcast * 256 + rule.getD 16 * 512
    s.ringDeliver p ⟨size, ring, data, flags + s.gen * 2 ^ 16, if strip then k.tci.getD 0 else 0, s.rxTime p⟩

/-- Rows 2 to 7 of R119 for a frame with a good FCS; `long` when it exceeds MAX_LEN (R117). A pause frame is obeyed whatever its
destination (DESIGN CHOICE, log entry 144). -/
def State.classify (s : State) (p : Nat) (frame : List Byte) (long : Bool) : State :=
  let body := frame.take (frame.length - 4)
  let k := parseFrame body
  let s := if long then s else
    (s.cnt p 18 (b2n k.ipErr)).cnt p 19 (b2n k.udpErr)
  if k.etype = 0x8808 then
    let s := s.cnt p 20 1
    let o := if k.tci.isSome then 18 else 14
    if beAt body o 2 = 1 then s.pauseOp p (beAt body (o + 2) 2) else s
  else if !s.addrOk p k.dst then s.cnt p 22 1
  else if !s.vlanOk p k then s.cnt p 23 1
  else match s.rxMatch p k with
    | some (c, leg) =>
      if long then s.cnt p 26 1
      else if k.ipErr || k.udpErr then s
      else (s.cnt p 21 1).rxPacket c leg k
    | none => s.toRing p (min frame.length (s.maxLen p)) k (if long then frame.take (s.maxLen p) else body) long

/-- A whole frame with its FCS arrives (R116, R117, R119, R127). One that finds no room in the receive buffer is lost and counts
there alone (DEDUCED, log entry 112). -/
def State.frameIn (s : State) (p : Nat) (frame : List Byte) (pcsError : Bool) : State :=
  if !s.portOn p || !s.is (R.MAC_C_RX_EN.pg p) || !s.is (R.MAC_S_LINK.pg p) then s
  else if pcsError then s
  else if s.rxFull p (min frame.length (s.maxLen p)) then s.cnt p 27 1
  else
    let n := frame.length
    let good := fcsOk frame
    let long := s.maxLen p < n
    let s := s.cnt p 14 (b2n (n < 64))
    let s := s.cnt p 12 (b2n !good)
    let s := s.cnt p 15 (b2n long)
    if n < 64 ∨ good = false then s
    else
      let s := if long then s else
        (((s.cnt p 0 1).cnt p 1 n).cnt p (2 + dstType (frame.take 6)) 1).cnt p (5 + sizeBin n) 1
      s.classify p frame long

/-- A pause frame as it stands on the wire (IEEE 802.3 clause 31): 64 bytes with the FCS. -/
def pauseFrame (q : Nat) : List Byte :=
  withFcs ([0x01, 0x80, 0xC2, 0x00, 0x00, 0x01] ++ List.replicate 6 0 ++ [0x88, 0x08, 0x00, 0x01] ++ beBytes 2 q
    ++ List.replicate 42 0)

/-! Transmit (R123, R130, R131). -/

/-- The transmit queue of ring r (4–7): PTP 0, control 2, bulk 3; 1 acts as control (R153). -/
def State.ringQueue (s : State) (p r : Nat) : Nat :=
  let q := s.get ((R.MAC_RING_CFG_QUEUE.ix r).pg p)
  if q = 1 then 2 else q

def MacSt.ring (m : MacSt) (r : Nat) : TxRing := m.rings.getD (r - 4) ⟨0, []⟩
def State.setRing (s : State) (p r : Nat) (f : TxRing → TxRing) : State :=
  s.setMac p fun m => { m with rings := m.rings.modify (r - 4) f }

/-- Ring r has a descriptor that the device owns and has not sent. -/
def State.ringWaits (s : State) (p r : Nat) : Bool :=
  s.is ((R.MAC_RING_SIZE_EN.ix r).pg p) && decide (((s.mac p).ring r).next % s.ringLen p r ≠ s.ringTail p r)

/-- It can be read now. -/
def State.ringReady (s : State) (p r : Nat) : Bool := !s.hostStalled && s.ringWaits p r

/-- The ring of queue q to serve next, round-robin after the ring that the queue served last (R123); the first turn after a reset is
that of ring 5, as if ring 4 had had one (DESIGN CHOICE, log entry 143). -/
def State.nextRing (s : State) (p q : Nat) : Option Nat :=
  let l := (s.mac p).last.getD q 0
  ((List.range 4).map fun i => 4 + (l + 1 + i) % 4).find? fun r => s.ringQueue p r == q && s.ringReady p r

/-- No frame waits in queues 0, 2 and 3 (R125). -/
def State.queuesEmpty (s : State) (p : Nat) : Bool := (List.range 4).all fun i => !s.ringWaits p (4 + i)

/-- Port p is in loopback (R153): codes 1 and 2, in SERVICE mode only. -/
def State.looped (s : State) (p : Nat) : Bool :=
  let v := s.get (R.MAC_PCS_CFG_LOOPBACK.pg p)
  s.mode = mService && (v = 1 || v = 2)

/-- Put a frame on the wire from a queue and count it (R127); in loopback it reaches the receiver of its own port and does not
leave the device (log entry 104). -/
def State.wire (s : State) (p q : Nat) (body : List Byte) : State :=
  let f := withFcs (body ++ List.replicate (60 - body.length) 0)
  let n := f.length
  let s := ((s.cnt p 32 1).cnt p 33 n).cnt p (34 + dstType (f.take 6)) 1
  let s := (s.cnt p (37 + sizeBin n) 1).cnt p (44 + q) 1
  if s.looped p then s.frameIn p f false else s.emit (.frame p f)

/-- One-step fields (R86): the origin timestamp, or the correction. -/
def oneStep (mode o : Nat) (f : List Byte) (egress ingress : Int) : List Byte :=
  if mode = 2 then
    let t := tsOfU egress
    fixUdp (splice f o (beBytes 6 t.sec ++ beBytes 4 t.ns))
  else if mode = 3 then fixUdp (splice f o (beBytes 8 (tz 64 (sx 64 (beAt f o 8) + egress - ingress))))
  else f

/-- Send or refuse the descriptor at the head of ring r (R86, R117, R130, R131). -/
def State.sendHost (s : State) (p q r : Nat) : State :=
  let i := ((s.mac p).ring r).next % s.ringLen p r
  let d := s.hostBytes (s.descAt p r i) 32
  let len := leAt d 8 2
  let ofs := leAt d 10 2
  let fl := leAt d 12 4
  let mode := bits fl 2 1
  let ins := bitOf fl 3
  let size := max (len + if ins then 4 else 0) 60 + 4
  let field := if mode = 2 then 10 else if mode = 3 then 8 else 0
  let bad := len < 14 ∨ s.maxLen p - 4 < len ∨ s.maxLen p < size ∨ (field ≠ 0 ∧ len < ofs + field)
    ∨ s.is (R.MAC_S_LINK.pg p) = false
  let s := s.setMac p fun m => { m with last := m.last.set q (r - 4), sentAt := s.absCyc }
  let fin (s : State) (x : TxDone) : State := s.setRing p r fun t => ⟨(i + 1) % s.ringLen p r, t.done ++ [x]⟩
  if bad then fin (s.cnt p 48 1) ⟨true, s.gen, none⟩
  else
    let f := s.hostBytes (leAt d 0 8) len
    let e := s.txTime p
    let f := oneStep mode ofs f e (tsAt d 16).toU
    let f := if ins then f.take 12 ++ [0x81, 0x00] ++ beBytes 2 (leAt d 0x1C 2) ++ f.drop 12 else f
    fin (s.wire p q f) ⟨false, s.gen, if mode = 1 then some e else none⟩

/-- A frame boundary: strict priority PTP, media, control, bulk (R123, R124, R152). -/
def State.frameOut (s : State) (p : Nat) : State :=
  if !s.portOn p || !s.is (R.MAC_C_TX_EN.pg p) || s.is (R.MAC_S_TX_LPI.pg p) || decide (s.absCyc < (s.mac p).hold) then s
  else
    let paused := s.is (R.MAC_S_PAUSED.pg p)
    match s.nextRing p 0 with
    | some r => s.sendHost p 0 r
    | none =>
      match (s.mac p).media with
      | m :: t =>
        let s := s.setMac p fun x => { x with media := t }
        if s.is (R.MAC_S_LINK.pg p) then s.wire p 1 m.bytes else (s.cnt p 48 1).txDropped m.ctx
      | [] =>
        if paused then s
        else match s.nextRing p 2 with
          | some r => s.sendHost p 2 r
          | none =>
            match s.nextRing p 3 with
            | some r => s.sendHost p 3 r
            | none => s

/-- Complete the oldest descriptor of a transmit ring (R130, R131). -/
def State.txComplete (s : State) (p r : Nat) : State :=
  if r < 4 ∨ s.portOn p = false ∨ s.hostStalled then s
  else match ((s.mac p).ring r).done with
    | [] => s
    | x :: t =>
      let d := s.descAt p r (s.ringHead p r)
      let fl := leAt (s.hostBytes (d + 12) 4) 0 4
      let fl := putBits (putBits (putBits fl 0 0 0) 5 5 (b2n x.err)) 19 16 x.gen
      let s := match x.ts with | some u => s.setHost (d + 0x10) (tsBytes u) | none => s
      let s := s.setHost (d + 12) (leBytes 4 fl)
      let s := s.setRing p r fun q => { q with done := t }
      (s.ringStep p r).latch (eMAC p) r

/-- A write to RING_SIZE or TAIL has left the queues of a port empty: o is the state before it (R125). -/
def State.queuesFell (s o : State) (p : Nat) : State :=
  if s.queuesEmpty p && !o.queuesEmpty p then s.setMac p fun m => { m with sentAt := s.absCyc } else s

/-- RING_SIZE written: a rising EN sets HEAD to 0 (R128). -/
def State.ringEnWritten (s : State) (p r : Nat) (old new : Nat) : State :=
  if bitOf new 8 && !bitOf old 8 then
    let s := s.put ((R.MAC_RING_HEAD_HEAD.ix r).pg p) 0
    if r < 4 then s else s.setRing p r fun _ => ⟨0, []⟩
  else s

/-! Low-power idle (R125). -/

/-- An enabled transmit context of the ACTIVE bank uses the port. -/
def State.eeeBlocked (s : State) (p : Nat) : Bool :=
  (List.range 128).any fun t =>
    let c := s.n (winKey 17 1 (32 * t))
    bitOf c 0 && (if bitOf c 1 then decide (bits c 2 2 = p / 2) else decide (bits c 4 3 = p))

/-- The conditions of R125 hold, LPI_IDLE counted from when the queues became empty. -/
def State.lpiEntryOp (s : State) (p : Nat) : State :=
  if s.portOn p && s.is (R.MAC_EEE_CFG_EN.pg p) && !s.is (R.MAC_S_TX_LPI.pg p) && !s.eeeBlocked p && s.queuesEmpty p &&
      decide ((s.mac p).sentAt + usCyc (s.get (R.MAC_EEE_CFG_LPI_IDLE.pg p)) ≤ s.absCyc)
  then (s.putB (R.MAC_S_TX_LPI.pg p) true).cnt p 50 1
  else s

def State.lpiWakeOp (s : State) (p : Nat) : State :=
  if s.is (R.MAC_S_TX_LPI.pg p) then
    (s.putB (R.MAC_S_TX_LPI.pg p) false).setMac p fun m =>
      { m with hold := s.absCyc + usCyc (s.get (R.MAC_EEE_CFG_TW_SYS.pg p)) }
  else s

def State.rxLpiOp (s : State) (p : Nat) (enter : Bool) : State :=
  if !s.portOn p || s.is (R.MAC_S_RX_LPI.pg p) == enter then s
  else
    let s := s.putB (R.MAC_S_RX_LPI.pg p) enter
    if enter && s.is (R.MAC_C_RX_EN.pg p) then s.cnt p 51 1 else s

/-- The link of port p is timed from now: the end of its power-up or reset (R114). -/
def State.pcsStart (s : State) (p : Nat) : State := s.setMac p fun m => { m with pcs := s.absCyc, sentAt := s.absCyc }

/-- The ports of a power domain. -/
def portsOf (d : Nat) : List Nat := if d = 2 then [0, 1] else if d = 3 then [2, 3] else []

/-! Media hand-off (R148, R152). -/

/-- Bytes of media frames in the transmit buffer of port p; host frames take no room in it (DESIGN CHOICE, log entry 124). -/
def State.txBuffered (s : State) (p : Nat) : Nat := ((s.mac p).media.map fun m => m.bytes.length + 4).sum

/-- TXS hands a frame to port p: it enters the 96 KiB transmit buffer, or is discarded (R116, R152) and then is no packet of LEGn_PKTS
(R160; DESIGN CHOICE, log entry 180). -/
def State.mediaIn (s : State) (p t leg : Nat) (body : List Byte) : State :=
  if !s.portOn p then s.txDropped t
  else if 98304 < s.txBuffered p + body.length + 4 then (s.cnt p 48 1).txDropped t
  else
    let k := winKey 17 2 (32 * t + 4 + leg)
    (s.setN k (s.n k + 1)).setMac p fun m => { m with media := m.media ++ [⟨t, body⟩] }

end Sys2Proof.Machine
end

