-- ==== Sys2Proof/Machine/Txs.lean ====
section
/-! DEFINITION. The transmit streams (01_signal_path R32–R35; 04_network R144–R151, R158–R160): the send cut-off, late sheets,
packets and their headers, the media gate, silence, and what a commit or a step does to a context. -/

namespace Sys2Proof.Machine

/-! Stages, as far as TXS asks. -/

/-- Stage numbers: icb 0, geometry 1–4, vats 8–39, tree 40, mix 41, out 42, conv 43. -/
def stMix : Nat := 41
def stOut : Nat := 42

def State.stage (s : State) (k : Nat) : StageSt := tget (fun _ => ⟨0, false⟩) s.stages k

/-- A stage has finished with a slot. -/
def State.stageDone (s : State) (k slot : Nat) : Bool := decide (slot < (s.stage k).next)

/-! Records (R144). -/

def State.txRec (s : State) (t bank : Nat) : List Nat := (List.range 32).map fun w => s.n (winKey 17 bank (32 * t + w))

def tCfg (r : List Nat) : Nat := r.getD 0 0
def tEn (r : List Nat) : Bool := bitOf (tCfg r) 0
def tM (r : List Nat) : Nat := if bitOf (tCfg r) 7 then 2 else 1
def tQ (r : List Nat) : Nat := ptime (bits (tCfg r) 9 8)
def tChans (r : List Nat) : Nat := bits (tCfg r) 21 16 + 1
def tBytes (r : List Nat) : Nat := if bitOf (tCfg r) 6 then 3 else 2
def tKind (r : List Nat) : Nat := (r.getD 1 0) % 2
def tBase (r : List Nat) : Nat := bits (r.getD 1 0) 12 4
def tPort (r : List Nat) (leg : Nat) : Option Nat :=
  if bitOf (tCfg r) 1 then (if leg ≤ 1 then some (2 * bits (tCfg r) 2 2 + leg) else none)
  else if leg = 0 then some (bits (tCfg r) 4 3) else none

def txKey (t w : Nat) : Nat := winKey 17 2 (32 * t + w)
def State.txCount (s : State) (t w n : Nat) : State := if n = 0 then s else s.setN (txKey t w) (s.n (txKey t w) + n)

def State.txCtx (s : State) (t : Nat) : TxCtx := tget (fun _ => TxCtx.init) s.tx t
def State.setTx (s : State) (t : Nat) (f : TxCtx → TxCtx) : State :=
  { s with tx := tset (fun _ => TxCtx.init) s.tx t (f (s.txCtx t)) }

/-- ANCHOR (R160); a step backward may leave it before sample 0 (R145). -/
def State.txAnchor (s : State) (t : Nat) : Int := sx 64 (s.get64 (txKey t 2))

/-- The first HSI at or after h that is a multiple of 48. -/
def anchorAt (h : Nat) : Nat := (h + 47) / 48 * 48

/-- S = L/6 of the ACTIVE bank (R13). -/
def State.latS (s : State) : Nat := s.n 0x8084 / 6

/-- RED asserts silence, or SILENT is 1 (R150). -/
def State.txSilent (s : State) (r : List Nat) : Bool := s.is R.TXS0_S_SILENCE || bitOf (tCfg r) 10

/-! Samples. -/

/-- The edge into lane j. -/
def txEdge (t : Nat) (r : List Nat) (j : Nat) : Nat := eTx t j (if tKind r = 0 then tBase r + j else 512)

/-- Sheet of lane j that reaches the send cut-off of a slot, at 48 kHz; d sheets later than its time for the interpolator. -/
def State.txLane (s : State) (t : Nat) (r : List Nat) (j slot : Nat) : List Int :=
  s.edgeRead (txEdge t r j) (1 + (tM r - 1)) slot fun x =>
    if tKind r = 0 then s.sheetOf aResult (tBase r + j) x else s.sheetOf aGroup (64 * t + j) x

/-- Interpolate by 2 (R147): stage B, unity gain, five samples of history and six of the next sheet. -/
def interp2 (prev cur next : List Int) : List Int :=
  let x (i : Int) : Int := (prev ++ cur ++ next).getD (i + 6).toNat 0
  (List.range 6).flatMap fun t =>
    (List.range 2).map fun (ph : Nat) =>
      let n : Int := 2 * (t : Int) + ph
      let acc := ((List.range 23).map fun i =>
        let k : Int := (i : Int) - 11
        if (n - k) % 2 = 0 then 2 * halfBand 1 11 k * x ((n - k) / 2) else 0).sum
      satI 32 (rndShr acc 30)

/-- The media samples of lane j for the six house samples of an output sheet: tM r per house sample. -/
def State.txMedia (s : State) (t : Nat) (r : List Nat) (j slot : Nat) : List Int :=
  let cur := s.txLane t r j slot
  if tM r = 1 then cur
  else
    let prev := if slot = 0 then padTo 6 [] else s.txLane t r j (slot - 1)
    interp2 prev cur (s.txLane t r j (slot + 1))

/-- Six house samples of a stream, each with its lanes interleaved by media sample. -/
def State.txSheet (s : State) (t : Nat) (r : List Nat) (slot : Nat) : List (List Int) :=
  let lanes := (List.range (tChans r)).map fun j => s.txMedia t r j slot
  (List.range 6).map fun i => (List.range (tM r)).flatMap fun ph => lanes.map fun l => l.getD (tM r * i + ph) 0

/-! The send cut-off (R32–R35, R150). -/

/-- The lanes of a stream have no finished sheet for the slot before this one. -/
def State.laneLate (s : State) (r : List Nat) : Bool :=
  if s.slot = 0 then false
  else if tKind r = 0 then s.pageOn eOUT && s.is R.OUT0_C_EN && !s.stageDone stOut (s.slot - 1)
  else s.pageOn eMIX && s.is R.MIX0_C_EN && !s.stageDone stMix (s.slot - 1)

/-- The output sheets of a stream whose lanes enter TXS at this send cut-off: with a pad p a lane brings sheet slot + e_96 + p (at 96 kHz
the check is that of the sheet's entry, DESIGN CHOICE, log entry 137). -/
def State.sheetsDue (s : State) (t : Nat) (r : List Nat) : List Nat :=
  (List.range (tChans r)).map fun j => s.slot + (tM r - 1) + tget zeroAt s.pads (txEdge t r j)

/-- The sheets of a stream that are not complete at this send cut-off; silent packets and the zeros that follow a step do not count as
late (R32, R100, R150). -/
def State.sheetsLate (s : State) (t : Nat) (r : List Nat) : List Nat :=
  if s.txSilent r || !s.laneLate r then [] else (s.sheetsDue t r).filter fun m => decide (s.txZero ≤ m)

/-- The last six gathered house samples fade out where they are still in the packet (R33). -/
def fadeTail (buf : List (List Int)) : List (List Int) :=
  let n := buf.length
  buf.zipIdx.map fun x => if n ≤ x.2 + 6 then x.1.map fun v => byW v (w6 (n - 1 - x.2)) else x.1

/-- Declare output sheet m of context t late (R32, R33, R35): once, with the fade-out of the sheet before it where that is
still to be taken. -/
def State.lateSheet (s : State) (t m : Nat) : State :=
  if (s.txCtx t).late.contains m then s
  else
    let s := ((s.txCount t 6 1).setMap 0x250A0 t true).latch eTXS 0
    s.setTx t fun x => { x with
      late := x.late ++ [m]
      fadeOut := if s.slot < m then x.fadeOut ++ [m - 1] else x.fadeOut }

/-- Check the lanes of a stream whose sheets enter TXS in this slot. -/
def State.lateCheck (s : State) (t : Nat) (r : List Nat) : State := s.each (s.sheetsLate t r) fun s m => s.lateSheet t m

/-- The first house sample of the packet in preparation (R145). -/
def TxLine.at0 (l : TxLine) : Int := l.anchor + l.idx * tQ l.rcd

/-- Take one output sheet into a line: zero-fill what was skipped, then the sheet, up to the line's stop. -/
def TxLine.take (l : TxLine) (h : Int) (sheet : List (List Int)) (zero : List Int) (sil : Bool) : TxLine :=
  let next := l.at0 + l.buf.length
  if h + 6 ≤ next then l
  else
    let buf := l.buf ++ List.replicate (h - next).toNat zero ++ sheet.drop (next - h).toNat
    let add := buf.length - l.buf.length
    let keep := match l.stop with | some e => (e - l.at0).toNat | none => buf.length
    { l with buf := buf.take keep, sil := (l.sil ++ List.replicate add sil).take keep }

/-- A line takes the output sheet of the slot into its packet, under the fade that follows a takeover (14_redundancy R437); and
whether the sheet was replaced by zeros. -/
def State.sendLine (s : State) (t : Nat) (l : TxLine) : TxLine × Bool :=
  let r := l.rcd
  let x := s.txCtx t
  let cut := x.late.contains s.slot || decide (s.slot < s.txZero)
  let sil := s.txSilent r
  let zero := List.replicate (tM r * tChans r) (0 : Int)
  let z := cut || sil
  let sh := if z then List.replicate 6 zero else s.txSheet t r s.slot
  let sh := if x.fadeOut.contains s.slot then sh.zipIdx.map fun v => v.1.map fun q => byW q (w6 (5 - v.2)) else sh
  let sh := if x.zeroed && !z then sh.zipIdx.map fun v => v.1.map fun q => byW q (w6 v.2) else sh
  let sh := match s.red.fade with
    | some (f, len) => sh.zipIdx.map fun v => v.1.map fun q => byW q (vWin len (6 * (s.slot - f) + v.2))
    | none => sh
  let l := if cut && !x.zeroed && !x.fadeOut.contains (s.slot - 1) then { l with buf := fadeTail l.buf } else l
  (l.take s.hsi sh zero sil, z)

/-- Every line of a context at the send cut-off: check, then take. -/
def State.sendCtx (s : State) (t : Nat) : State :=
  let ls := (s.txCtx t).olds ++ (s.txCtx t).cur.toList
  let s := s.each ls fun s l => s.lateCheck t l.rcd
  s.setTx t fun x =>
    let os := x.olds.map (s.sendLine t)
    let c := x.cur.map (s.sendLine t)
    { x with
      olds := os.map Prod.fst
      cur := c.map Prod.fst
      late := x.late.filter fun m => s.slot ≤ m
      fadeOut := x.fadeOut.filter fun m => s.slot ≤ m
      zeroed := match (os ++ c.toList).getLast? with | some q => q.2 | none => x.zeroed }

/-- SENDING_SILENCE: the context runs, and R150 applies to it (R160). -/
def State.sendingSilence (s : State) (t : Nat) : Bool := (s.txCtx t).cur.any fun l => s.txSilent l.rcd

/-! Packets (R145, R146, R148, R149). -/

/-- A media sample on the network: rounded, saturated, big-endian (R7, R146). -/
def netBytes (b : Nat) (v : Int) : List Byte :=
  if b = 3 then beBytes 3 (tz 24 (satI 24 (rndShr v 4))) else beBytes 2 (tz 16 (satI 16 (rndShr v 12)))

/-- The frame of one leg, without FCS (R146). -/
def State.txFrame (s : State) (r : List Nat) (leg p seq ts : Nat) (payload : List Byte) : List Byte :=
  let b := recBytes r
  let dmac := (b.drop (0x40 + 6 * leg)).take 6
  let smac := beBytes 6 (s.get (R.MAC_ADDR_LO_ADDR.pg p) + s.get (R.MAC_ADDR_HI_ADDR.pg p) * 2 ^ 32)
  let v := leAt b (0x1C + 2 * leg) 2
  let tag := if bitOf v 15 then [0x81, 0x00] ++ beBytes 2 (bits v 14 12 * 8192 + v % 4096) else []
  let rtp : List Byte := [0x80, BitVec.ofNat 8 (bits (r.getD 1 0) 22 16)] ++ beBytes 2 seq ++ beBytes 4 ts ++ beBytes 4 (r.getD 3 0)
  let ulen := 8 + rtp.length + payload.length
  let v6 := bitOf (tCfg r) 5
  let src := if v6 then (List.range 4).flatMap fun w => beBytes 4 (s.n (0x100B0 + 0x1000 * p + 4 * w))
    else beBytes 4 (s.n (0x100A8 + 0x1000 * p))
  let dst := (b.drop (0x20 + 16 * leg)).take (if v6 then 16 else 4)
  let udp0 := beBytes 2 (leAt b 0x12 2) ++ beBytes 2 (leAt b (0x18 + 2 * leg) 2) ++ beBytes 2 ulen
  let c := csum (sum16 src + sum16 dst + 17 + ulen + sum16 (udp0 ++ [0, 0] ++ rtp ++ payload))
  let udp := udp0 ++ beBytes 2 (if c = 0 then 0xFFFF else c)
  let dscp := bits (tCfg r) 29 24 * 4
  let ttl := leAt b 0x14 1
  let ip : List Byte := if v6 then
      beBytes 4 (6 * 2 ^ 28 + dscp * 2 ^ 20) ++ beBytes 2 ulen ++ [17, BitVec.ofNat 8 ttl] ++ src ++ dst
    else
      let h := [0x45, BitVec.ofNat 8 dscp] ++ beBytes 2 (20 + ulen) ++ [0, 0, 0x40, 0x00, BitVec.ofNat 8 ttl, 17]
      h ++ beBytes 2 (csum (sum16 (h ++ [0, 0] ++ src ++ dst))) ++ src ++ dst
  dmac ++ smac ++ tag ++ (if v6 then [0x86, 0xDD] else [0x08, 0x00]) ++ ip ++ udp ++ rtp ++ payload

/-- Build packet idx of a line and hand it to its ports, or discard it at the closed gate. -/
def State.sendPacket (s : State) (t : Nat) (l : TxLine) : State :=
  let r := l.rcd
  let q := tQ r
  let seq := (l.seqBase + l.idx) % 65536
  let ts := tz 32 (tM r * l.at0 + r.getD 2 0)
  let payload := (l.buf.take q).flatMap fun x => x.flatMap (netBytes (tBytes r))
  let s := s.txCount t 8 (b2n ((l.sil.take q).any id))
  if !s.is R.TXS0_S_GATE_OPEN then s.txCount t 7 1
  else s.each [0, 1] fun s leg =>
    match tPort r leg with
    | some p => s.mediaIn p t leg (s.txFrame r leg p seq ts payload)
    | none => s

/-- A line without its next k packets. -/
def TxLine.skip (l : TxLine) (k : Nat) : TxLine :=
  { l with idx := l.idx + k, buf := l.buf.drop (k * tQ l.rcd), sil := l.sil.drop (k * tQ l.rcd) }

/-- The packets of a line that begin before house sample h, from its packet in preparation on. -/
def TxLine.before (l : TxLine) (h : Int) : Nat := ((h - l.at0 + tQ l.rcd - 1) / tQ l.rcd).toNat

/-- The packets of a line that end before house sample h. -/
def TxLine.ended (l : TxLine) (h : Int) : Nat := ((h - l.at0) / tQ l.rcd).toNat

/-- A line at its stop has nothing left to send. -/
def TxLine.over (l : TxLine) : Bool := match l.stop with | some e => decide (e ≤ l.at0) | none => false

/-- The packet of a line whose last sample lies in the sheet before house sample h, if it is whole (R148); none whose boundary has
passed. -/
def State.launchLine (s : State) (t : Nat) (h : Int) (l : TxLine) : TxLine × State :=
  let l := l.skip (l.ended (h - 6))
  if tQ l.rcd ≤ l.buf.length ∧ l.at0 + tQ l.rcd ≤ h then (l.skip 1, s.sendPacket t l) else (l, s)

/-- With EN 0 TXS builds no packet that begins before house sample h, or began (R158). -/
def State.txIdle (s : State) (h : Int) : State :=
  s.each (s.tx.map fun e => e.1) fun s t => s.setTx t fun x =>
    let f (l : TxLine) : TxLine := l.skip (l.before h)
    { x with olds := (x.olds.map f).filter fun l => !l.over, cur := x.cur.map f }

/-- The send cut-off of the current slot (R32). -/
def State.sendCutOff (s : State) : State :=
  if s.slot < s.sendCut then s
  else
    let s := { s with sendCut := s.slot + 1 }
    if !s.pageOn eTXS then s
    else if !s.is R.TXS0_C_EN then s.txIdle (s.hsi + 6)
    else (s.areaWork 0x0D [packetWrite]).each (s.tx.map fun e => e.1) State.sendCtx

/-- The launch at the boundary that began the current slot (R148): every context in ascending order. -/
def State.launch (s : State) : State :=
  if !s.pageOn eTXS then s
  else if !s.is R.TXS0_C_EN then s.txIdle s.hsi
  else (s.areaWork 0x0D [packetRead]).each (s.tx.map fun e => e.1) fun s t =>
    let q := (s.txCtx t).olds.foldl (fun (q : List TxLine × State) l =>
      let r := q.2.launchLine t s.hsi l
      (if r.1.over then q.1 else q.1 ++ [r.1], r.2)) ([], s)
    let s := q.2.setTx t fun x => { x with olds := q.1 }
    match (s.txCtx t).cur with
    | some l =>
      let q := s.launchLine t s.hsi l
      q.2.setTx t fun x => { x with cur := some q.1 }
    | none => s

/-! Gate and silence (R149, R150). -/

/-- The gate closes for frames not yet handed to a port. -/
def State.gateClose (s : State) : State :=
  let s := { s with gateNext := false }
  if s.is R.TXS0_S_GATE_OPEN then (s.putB R.TXS0_S_GATE_OPEN false).latch eTXS 1 else s

/-- An opening waits for the next boundary. -/
def State.gateOpenReq (s : State) : State := { s with gateNext := true }

/-- The boundary at which an opening takes effect. -/
def State.gateBoundary (s : State) : State :=
  if !s.gateNext then s
  else
    let s := { s with gateNext := false }
    if s.is R.TXS0_S_GATE_OPEN then s else (s.putB R.TXS0_S_GATE_OPEN true).latch eTXS 2

/-- RED asserts or ends silence. -/
def State.setSilence (s : State) (b : Bool) : State :=
  if s.is R.TXS0_S_SILENCE = b then s else (s.putB R.TXS0_S_SILENCE b).latch eTXS (if b then 3 else 4)

/-! Commit and step (R145, R151, R100). -/

/-- ANCHOR, SEQ_BASE and ANCHORED of a line, as the window shows them. -/
def State.showLine (s : State) (t : Nat) (l : TxLine) : State :=
  let s := s.setN (txKey t 0) 1
  (s.setN (txKey t 1) (l.seqBase % 65536)).set64 (txKey t 2) (tz 64 l.anchor)

/-- A context is enabled: the ports that it uses leave low-power idle (R125). -/
def State.txWake (s : State) (r : List Nat) : State :=
  s.each [0, 1] fun s leg => match tPort r leg with | some p => s.lpiWakeOp p | none => s

/-- The ACTIVE record of context t changes from o to n at the commit that begins the current slot. A line keeps the packets that began
before it, with those of earlier commits that are still to go (R151). -/
def State.txCommit (s : State) (t : Nat) (o n : List Nat) : State :=
  if o = n then s
  else
    let s := s.setMap 0x25080 t (tEn n)
    let s := if tEn n then s.txWake n else s
    let fresh (base : Nat) : TxLine := ⟨n, anchorAt s.hsi, base, 0, none, [], []⟩
    let start (s : State) (l : TxLine) (olds : List TxLine) : State :=
      (s.showLine t l).setTx t fun x => { x with cur := some l, olds := olds }
    let olds := (s.txCtx t).olds
    match (s.txCtx t).cur with
    | none => if tEn n then start s (fresh (bits (n.getD 4 0) 15 0)) olds else s
    | some l =>
      let k := l.before s.hsi
      let olds := if k = 0 then olds else olds ++ [{ l with stop := some (l.at0 + k * tQ l.rcd) }]
      if !tEn n then s.setTx t fun x => { x with cur := none, olds := olds }
      else if tQ o ≠ tQ n ∨ tM o ≠ tM n then start s (fresh ((l.seqBase + l.idx + k) % 65536)) olds
      else s.setTx t fun x => { x with cur := some { l with rcd := n, idx := l.idx + k, buf := [], sil := [] }, olds := olds }

/-- Lines move with the HSI at a step of h house samples (R145). -/
def TxLine.shift (l : TxLine) (h : Int) : TxLine :=
  { l with anchor := l.anchor + h, stop := l.stop.map fun e => e + h }

/-- A step of 6D samples (R100): ANCHOR moves, the pads are empty, S output sheets are zeros. -/
def State.txStep (s : State) (h : Int) : State :=
  let s := { s with txZero := s.slot + s.latS }
  s.each (s.tx.map fun e => e.1) fun s t =>
    let s := s.setTx t fun x => { x with cur := x.cur.map (·.shift h), olds := x.olds.map (·.shift h), late := [], fadeOut := [] }
    match (s.txCtx t).cur with | some l => s.set64 (txKey t 2) (tz 64 l.anchor) | none => s

end Sys2Proof.Machine
end

