-- ==== Sys2Proof/Machine/Solve.lean ====
section
/-! DEFINITION. The path graph and the solver of PRESS (01_signal_path R15–R25, R485; 13_apsal_systems R402, R403). -/

namespace Sys2Proof.Machine

/-! Nodes (R21, R25): identifier in [15:0] for the named types; render, test generator, output results and TX channels
above. -/

def nIn (c : Nat) : Nat := c
def nAux (a : Nat) : Nat := 0x3000 + a
def nIns (i : Nat) : Nat := 0x4000 + i
def nOut (o : Nat) : Nat := 0x5000 + o
def nInsIn (i : Nat) : Nat := 0x6000 + i
def nAuxIn (a : Nat) : Nat := 0x7000 + a
def nGrp (t : Nat) : Nat := 0x8000 + t
def nRender : Nat := 0x10000
def nTest : Nat := 0x10001
/-- All insert inputs of engine e reach all its outputs: a node between them. -/
def nHub (e : Nat) : Nat := 0x10010 + e
def nRes (o : Nat) : Nat := 0x20000 + o
def nTx (t j : Nat) : Nat := 0x30000 + 64 * t + j

/-- The identifier that PRESS reports (R25). -/
def nodeId (n : Nat) : Nat :=
  if n < 0x10000 then n else if 0x30000 ≤ n then 0x9000 + (n - 0x30000) / 64 else if 0x20000 ≤ n then 0x5000 + (n - 0x20000) else 0xF000

/-- The node of a source code and of a sink code (R244). -/
def srcN (c : Nat) : Nat :=
  if c < 0x400 then nIn c else if c < 0x600 then nIns (c - 0x400) else if c < 0x800 then nRender
  else if c < 0x840 then nAux (c - 0x800) else nTest
def snkN (c : Nat) : Nat :=
  if c < 0x200 then nOut c else if c < 0x400 then nInsIn (c - 0x200) else if c < 0x440 then nAuxIn (c - 0x400) else nGrp ((c - 0x1000) / 64)

/-- An edge: from, to, λ. -/
structure Edge where
  u : Nat
  v : Nat
  lam : Nat
  deriving DecidableEq, Repr

/-! Arrival terms (R15, R485, R402, R403). -/

/-- The first enabled receive context that maps channel c, with its record. -/
def State.mapOf (s : State) (bank c : Nat) : Option (List Nat) :=
  (((s.words.filter fun e => decide (winKey 13 bank 0 ≤ e.1) && decide (e.1 < winKey 13 bank 8192) &&
    decide (keyWord e.1 % 32 = 0) && bitOf e.2.toNat 0).map fun e => s.rxRec (keyWord e.1 / 32) bank).find? fun r =>
    decide (rBase r ≤ c) && decide (c < rBase r + rUse r))

/-- The arrival term a(c) and the channel-sheets that the channel uses beside its pad (R15, R24). -/
def State.arrival15 (s : State) (bank c : Nat) : Nat × Nat :=
  if s.isWorker && s.forwarded bank c then (tget zeroAt (if bank = 0 then s.fwdTerm else s.fwdTermAct) c + 2, 3)
  else if (s.returnOf bank c).isSome then (2, 3)
  else
    let fir := s.eFir bank c
    match s.mapOf bank c with
    | some r =>
      let f := if rSync r then rRate r else (rNom r + 47999) / 48000
      (1 + rK r + rEpkt r + rEcond r + fir, f * (1 + rK r + rEpkt r) + 1)
    | none => (1 + fir, 1)

/-! The graph (R21). -/

/-- Transmit contexts enabled in a bank, with their records. -/
def State.txOn (s : State) (bank : Nat) : List (Nat × List Nat) :=
  (s.words.filter fun e => decide (winKey 17 bank 0 ≤ e.1) && decide (e.1 < winKey 17 bank 4096) &&
    decide (keyWord e.1 % 32 = 0) && bitOf e.2.toNat 0).map fun e => (keyWord e.1 / 32, s.txRec (keyWord e.1 / 32) bank)

/-- F of the set that a bank brings into force (R221). -/
def State.bankF (s : State) (bank : Nat) : Nat := s.preDelay (if bank = 0 then s.n 0x68080 % 2 else s.mset)

/-- The edges of a bank. -/
def State.pathEdges (s : State) (bank : Nat) : List Edge :=
  let f := s.bankF bank / 6
  let objs := (s.objEnabled bank).map fun o =>
    let r := s.objRec bank o
    Edge.mk (if oKind r = 0 then nIn (oSrc r) else nIns (oSrc r)) nRender (1 + f)
  let xps := (s.xpEnabled bank).map fun k =>
    let w := s.xpW bank k 0
    Edge.mk (srcN (xpSrc w)) (snkN (xpSnk w)) (routeLam (xpSrc w) (xpSnk w))
  let homes := ((List.range 512).filter (s.home bank)).map fun o => Edge.mk nRender (nOut o) 0
  let aux := (List.range 64).flatMap fun a => [Edge.mk nRender (nAux a) 0, Edge.mk (nAuxIn a) (nAux a) 0]
  let used (b : Nat) : List Nat := (((objs ++ xps).flatMap fun e => [e.u, e.v]).filter fun n => decide (b ≤ n) && decide (n < b + 512)).dedup
  let ie := (used 0x6000).map (fun n => Edge.mk n (nHub ((n - 0x6000) / 64)) 1) ++
    (used 0x4000).map fun n => Edge.mk (nHub ((n - 0x4000) / 64)) n 0
  let outs := (List.range 512).map fun o => Edge.mk (nOut o) (nRes o) (oDelay (s.outRec bank o) / 6)
  let tx := (s.txOn bank).flatMap fun t => (List.range (tChans t.2)).map fun j =>
    Edge.mk (if tKind t.2 = 0 then nRes (tBase t.2 + j) else nGrp t.1) (nTx t.1 j) (1 + (tM t.2 - 1))
  (objs ++ xps).eraseDups ++ homes ++ aux ++ ie ++ outs ++ tx

/-- The edges of a bank that hold a pad apart from the arrival and object edges (R23). -/
def State.padEdges (s : State) (bank : Nat) : List Nat :=
  (((s.xpEnabled bank).map fun k => let w := s.xpW bank k 0; routeEdge (xpSrc w) (xpSnk w)) ++
  ((List.range 512).filter (s.home bank)).map (fun o => routeEdge (0x600 + o) o) ++
  ((List.range 64).flatMap fun x => [eAuxPart x, eAuxSink x]) ++
  (s.txOn bank).flatMap fun t => (List.range (tChans t.2)).map (txEdge t.1 t.2)).dedup

/-! Order (R22, R25). -/

/-- Nodes in an order in which every edge goes forward, and the nodes that no such order reaches; `es` holds the edges
that leave the nodes of `rest`. -/
def topo (es : List Edge) : Nat → List Nat → List Nat × List Nat
  | 0, rest => ([], rest)
  | n + 1, rest =>
    let heads := es.map fun e => e.v
    let ready := rest.filter fun v => !heads.contains v
    if ready.isEmpty then ([], rest)
    else
      let q := topo (es.filter fun e => heads.contains e.u) n (rest.filter heads.contains)
      (ready ++ q.1, q.2)

/-- The nodes that every device has. -/
def fixedNodes : List Nat :=
  nRender :: nTest :: ((List.range 512).flatMap fun o => [nOut o, nRes o]) ++ (List.range 64).flatMap fun a => [nAux a, nAuxIn a]

/-- The nodes of a graph, each once. -/
def nodesOf (es : List Edge) : List Nat :=
  fixedNodes ++ ((es.flatMap fun e => [e.u, e.v]).filter fun n => !fixedNodes.contains n).eraseDups

/-- Nodes reached from a set, n steps. -/
def reachN (es : List Edge) : Nat → List Nat → List Nat
  | 0, l => l
  | n + 1, l =>
    let l' := (l ++ (es.filter fun e => l.contains e.u).map fun e => e.v).eraseDups
    if l'.length = l.length then l else reachN es n l'

/-- A node lies on a cycle. -/
def onCycle (es : List Edge) (n : Nat) : Bool :=
  (reachN es es.length ((es.filter fun e => e.u == n).map fun e => e.v)).contains n

/-- The lowest of a list. -/
def lowest (l : List Nat) : Option Nat := l.foldl (fun a x => some (match a with | some y => min x y | none => x)) none

/-- A schedule (R22): τ by node, pads by edge, pool use, and the first failure of R25, if any: reason and node. -/
structure Plan where
  tau : Tab Int
  tauR : Nat
  tauTest : Nat
  pads : Tab Nat
  pool : Nat
  fail : Option (Nat × Nat)
  deriving DecidableEq, Repr

def Plan.none : Plan := ⟨[], 0, 0, [], 0, .none⟩

/-- τ of the nodes with a path to a TX channel, as late as possible. -/
def tauBack (es : List Edge) (s : Int) (order : List Nat) : Tab (Option Int) :=
  order.reverse.foldl (fun t u =>
    if 0x30000 ≤ u then tset (fun _ => none) t u (some s)
    else
      let c := es.filterMap fun e => if e.u = u then (tget (fun _ => none) t e.v).map (· - (e.lam : Int)) else none
      match c with
      | [] => t
      | x :: l => tset (fun _ => none) t u (some (l.foldl min x))) []

/-- τ of the other nodes, from their incoming edges; an input channel from its arrival. -/
def tauFwd (es : List Edge) (a : Nat → Nat) (order : List Nat) (t : Tab (Option Int)) : Tab (Option Int) :=
  order.foldl (fun t u =>
    match tget (fun _ => none) t u with
    | some _ => t
    | none =>
      let c := (if u < 0x400 then [(a u : Int)] else []) ++
        es.filterMap fun e => if e.v = u then (tget (fun _ => none) t e.u).map (· + (e.lam : Int)) else none
      tset (fun _ => none) t u (some (match c with | [] => 0 | x :: l => l.foldl max x))) t

/-- The solver on a bank, L already checked. -/
def State.solve (s : State) (bank : Nat) : Plan :=
  let lat : Int := s.n (if bank = 0 then 0x8080 else 0x8084) / 6
  let es := s.pathEdges bank
  let nodes := nodesOf es
  let (order, rest) := topo es nodes.length nodes
  if !rest.isEmpty then
    let sub := es.filter fun e => rest.contains e.u && rest.contains e.v
    { Plan.none with fail := some (4, ((lowest ((rest.filter (onCycle sub)).map nodeId)).getD 0xF000)) }
  else
    let a (c : Nat) : Nat := (s.arrival15 bank c).1
    let t := tauFwd es a order (tauBack es lat order)
    -- an engine's outputs leave together, so what its inputs' rule leaves over lies behind the outputs (R23)
    let tau (n : Nat) : Int :=
      let v := (tget (fun _ => none) t n).getD (if n < 0x400 then (a n : Int) else 0)
      if 0x4000 ≤ n ∧ n < 0x4200 ∧ es.any (fun e => e.v == nHub ((n - 0x4000) / 64)) then (tget (fun _ => none) t (nHub ((n - 0x4000) / 64))).getD v else v
    let pad (u v lam : Nat) : Nat := (tau v - lam - tau u).toNat
    let inPads := (List.range 1024).map fun c => (eInput c, tau c - (a c : Int))
    let neg := (inPads.filter fun p => decide (p.2 < 0)).map fun p => p.1
    let tr := tau nRender
    let f := s.bankF bank
    let objs := (s.objEnabled bank).map fun o =>
      let r := s.objRec bank o
      (o, pad (if oKind r = 0 then nIn (oSrc r) else nIns (oSrc r)) nRender (1 + f / 6), oSlot r)
    let long := (objs.filter fun x => decide ((if x.2.2 < 16 then 8184 else 2046) < 6 * x.2.1 + f)).map fun x => 0x1000 + x.1
    let routes := (s.xpEnabled bank).map fun k =>
      let w := s.xpW bank k 0
      (routeEdge (xpSrc w) (xpSnk w), xpSrc w, pad (srcN (xpSrc w)) (snkN (xpSnk w)) (routeLam (xpSrc w) (xpSnk w)))
    let homes := ((List.range 512).filter (s.home bank)).map fun o =>
      (routeEdge (0x600 + o) o, 0x600 + o, pad nRender (nOut o) 0)
    let parts := (List.range 64).map fun x => (eAuxPart x, 0x10000 + x, pad nRender (nAux x) 0)
    let sinks := (List.range 64).map fun x => (eAuxSink x, 0x20000 + x, pad (nAuxIn x) (nAux x) 0)
    let mix := routes ++ homes ++ parts ++ sinks
    let tx := (s.txOn bank).flatMap fun t => (List.range (tChans t.2)).map fun j =>
      let u := if tKind t.2 = 0 then nRes (tBase t.2 + j) else nGrp t.1
      (txEdge t.1 t.2 j, (if tKind t.2 = 0 then u else 0x100000 + 64 * t.1 + j), pad u (nTx t.1 j) (1 + (tM t.2 - 1)))
    let bufs (l : List (Nat × Nat × Nat)) : Nat :=
      (((l.map fun x => x.2).filter fun x => x.2 != 0).eraseDups.map fun x => x.2 + 1).sum
    let pool := ((List.range 1024).map fun c => (s.arrival15 bank c).2).sum +
      (inPads.map fun p => p.2.toNat).sum + bufs mix + bufs tx
    let pads := tsetAll zeroAt [] ((inPads.map fun p => (p.1, p.2.toNat)) ++ (objs.map fun x => (eObject x.1, x.2.1)) ++
      (mix.map fun x => (x.1, x.2.2)) ++ tx.map fun x => (x.1, x.2.2))
    let none0 := !(es.any fun e => e.v == nRender) && !(tget (fun _ => none) (tauBack es lat order) nRender).isSome
    { tau := nodes.map fun n => (n, tau n)
      tauR := if none0 then 0 else tr.toNat
      tauTest := (tau nTest).toNat
      pads := pads
      pool := pool
      fail := match lowest neg, lowest long with
        | some c, _ => some (1, c)
        | none, some o => some (3, o)
        | none, none => if 65536 < pool then some (2, 0xF000) else none }

end Sys2Proof.Machine
end

