-- ==== Sys2Proof/Machine/Check.lean ====
section
/-! DEFINITION. What a press checks on the SHADOW bank (08_buses_and_outputs R259): the parameter-range checks of every chapter in
the order of the manual's files, the sets, and the schedule. -/

namespace Sys2Proof.Machine

/-- A failed check: reason, node, detail, and a fault of the mould (fault, set, index). -/
structure Refused where
  reason : Nat
  node : Nat
  detail : Nat
  mould : Option (Nat × Nat × Nat)
  deriving DecidableEq, Repr

/-- PARAM_RANGE naming a node. -/
def param (node : Nat) : Refused := ⟨6, node, 0, none⟩

/-- The first failure of a list of checks. -/
def firstOf : List (Option Refused) → Option Refused
  | [] => none
  | some r :: _ => some r
  | none :: t => firstOf t

/-- The lowest node of a list fails a check. -/
def failLow (l : List Nat) : Option Refused := (lowest l).map param

/-! Streams (R133–R135, R144, R148). -/

/-- Enabled receive contexts of a bank. -/
def State.rxOn (s : State) (bank : Nat) : List (Nat × List Nat) :=
  (s.words.filter fun e => decide (winKey 13 bank 0 ≤ e.1) && decide (e.1 < winKey 13 bank 8192) &&
    decide (keyWord e.1 % 32 = 0) && bitOf e.2.toNat 0).map fun e => (keyWord e.1 / 32, s.rxRec (keyWord e.1 / 32) bank)

/-- Legs of a receive record, each with the fields that R134 compares. -/
def legIds (r : List Nat) : List (Nat × Bool × List Byte × Nat × Option Nat) :=
  [0, 1].filterMap fun leg => (rPort r leg).map fun p => (p, bitOf (rCfg r) 5, rAddr r (0x20 + 16 * leg), rUdp r leg, rVid r leg)

/-- R135 for a frame with this payload on a port. -/
def State.tooLong (s : State) (p hdr payload : Nat) (vid : Bool) : Bool :=
  decide (s.maxLen p < 14 + 4 * b2n vid + hdr + 8 + 12 + payload + 4)

/-- The frame bytes of a transmit context on a leg, and its payload. -/
def txLen (r : List Nat) (leg : Nat) : Nat × Nat :=
  let payload := tChans r * (tQ r * tM r) * tBytes r
  let v := leAt (recBytes r) (0x1C + 2 * leg) 2
  (14 + 4 * b2n (bitOf v 15) + (if bitOf (tCfg r) 5 then 40 else 20) + 8 + 12 + payload + 4, payload)

def State.checkRx (s : State) : Option Refused :=
  let l := (s.rxOn 0).map fun x => x.2
  let bad (p : List Nat → Bool) : Option Refused := failLow ((l.filter p).map rBase)
  let share (a b : List Nat) : Bool := decide (rBase a < rBase b + rUse b) && decide (rBase b < rBase a + rUse a)
  let pairBad (p : List Nat → List Nat → Bool) : Option Refused :=
    failLow (((l.zipIdx.filter fun x => l.zipIdx.any fun y => x.2 != y.2 && p x.1 y.1)).map fun x => rBase x.1)
  firstOf [
    bad fun r => bitOf (rCfg r) 8 && (!rSync r || rPt r == 2),
    bad fun r => rSync r && bits (rCfg r) 10 9 == 3,
    bad fun r => decide (rChans r < rUse r),
    bad fun r => decide (1024 < rBase r + rUse r),
    pairBad share,
    pairBad fun a b => (legIds a).any fun x => (legIds b).contains x,
    bad fun r => !rSync r && (decide (rNom r < 12000) || decide (192000 < rNom r) || rPmax r == 0),
    bad fun r => [0, 1].any fun leg => match rPort r leg with
      | some p => s.tooLong p (if bitOf (rCfg r) 5 then 40 else 20)
          (rChans r * (if rSync r then rP r else rPmax r) * rBytes r) (rTag r leg)
      | none => false]

def State.checkTx (s : State) : Option Refused :=
  let l := s.txOn 0
  let bad (p : Nat × List Nat → Bool) : Option Refused := failLow ((l.filter p).map fun x => 0x9000 + x.1)
  let on (r : List Nat) (p : Nat) : Nat := ([0, 1].map fun leg => if tPort r leg = some p then (txLen r leg).1 + 20 else 0).sum
  let heavy (p : Nat) : Bool :=
    decide ((if s.is (R.MAC_PCS_CFG_SPEED.pg p) then 96000 else 48000) < (l.map fun x => on x.2 p).sum)
  firstOf [
    bad fun x => tKind x.2 == 0 && decide (512 < tBase x.2 + tChans x.2),
    bad fun x => [0, 1].any fun leg => match tPort x.2 leg with
      | some p => decide (s.maxLen p < (txLen x.2 leg).1)
      | none => false,
    bad fun x => (List.range 4).any fun p => heavy p && on x.2 p != 0]

/-! Conditioning (R168, R177). -/

/-- The FIR slot that SHADOW gives a channel, where it enables one. -/
def State.checkIcb (s : State) : Option Refused :=
  let asy := (List.range 1024).filter fun c => (s.rxOn 0).any fun x =>
    !rSync x.2 && decide (rBase x.2 ≤ c) && decide (c < rBase x.2 + rUse x.2)
  let fir := (List.range 1024).filterMap fun c => (chFir (s.icbCh 0 c)).map fun n => (c, n)
  let dup := fir.filter fun x => fir.any fun y => decide (y.1 < x.1) && y.2 == x.2
  let badSlot := fir.filter fun x =>
    let w := s.icbSlot 0 x.2 0
    slotN w == 0 || decide (512 < slotN w) || decide (slotN w < slotG w + 1)
  firstOf [(asy[256]?).map param, (fir[64]?).map fun x => param x.1, failLow (dup.map Prod.fst), failLow (badSlot.map Prod.fst)]

/-! Objects and mould (R185, R197, R220). -/

def State.checkObj (s : State) : Option Refused :=
  let l := (s.objEnabled 0).map fun o => (o, s.objRec 0 o)
  let dup := l.filter fun x => l.any fun y => decide (y.1 < x.1) && oVat y.2 == oVat x.2 && oSlot y.2 == oSlot x.2
  let listed := (s.words.filter fun e => decide (winKey 25 0 0 ≤ e.1) && decide (e.1 < winKey 25 0 8192) && decide (keyWord e.1 % 8 = 0)).map
    fun e => keyWord e.1 / 8
  let src := listed.filter fun o => let r := s.objRec 0 o; oKind r == 1 && decide (511 < oSrc r)
  firstOf [failLow (dup.map fun x => 0x1000 + x.1), failLow (src.map fun o => 0x1000 + o)]

/-- The first item below n that breaks a condition. -/
def firstItem (fault n : Nat) (bad : Nat → Bool) : Option (Nat × Nat) := (leastN n bad).map fun i => (fault, i)

/-- A fault without an item. -/
def faultIf (fault : Nat) (bad : Bool) : Option (Nat × Nat) := if bad then some (fault, 0) else none

/-- Triangle U names T across the two vertices that T's neighbour k shares with it. -/
def State.names (s : State) (set t k u : Nat) : Bool :=
  let others (t k : Nat) : List Nat := ((s.triVtx set t).zipIdx.filter fun x => x.2 != k).map fun x => x.1
  let a := others t k
  (List.range 3).any fun j => (s.triNbr set u).getD j 0x7FF == t &&
    (let b := others u j; a == b || a == b.reverse)

/-- An element of M_T × L_T is off by more than 2^−12. -/
def State.matrixBad (s : State) (set t : Nat) : Bool :=
  let m := (s.triM set t).map (fFix 24)
  let l := (s.triVtx set t).map (s.vtxDir set)
  (List.range 3).any fun i => (List.range 3).any fun j =>
    let v := fDot ((m.drop (3 * i)).take 3) (l.map fun r => r.getD j 0)
    decide (1 / 4096 < |v - (if i = j then 1 else 0)|)

/-- The faults of R197 and R220 in their order: the first, with its item. -/
def State.mouldFault (s : State) (set : Nat) : Option (Nat × Nat) :=
  let nt := s.ntri set
  let arr (fault : Nat) (bad : Nat → Bool) : Option (Nat × Nat) := firstItem fault 32 fun a => s.arrEn set a && bad a
  let members (a : Nat) : List Nat := (List.range (s.arrCount set a)).map (s.arrFirst set a + ·)
  let sw (a w : Nat) : Int := sx 32 (s.arrW set a w)
  let ordered := [
    faultIf 1 (decide (nt = 0) || decide (1024 < nt)),
    firstItem 2 nt fun t => (s.triVtx set t).any fun v => decide (575 < v) || !s.vtxPresent set v,
    firstItem 3 nt fun t => let v := s.triVtx set t; v.eraseDups.length != 3,
    firstItem 4 nt fun t => (s.triNbr set t).zipIdx.any fun u => u.1 != 0x7FF && (decide (nt ≤ u.1) || !s.names set t u.2 u.1),
    firstItem 5 64 fun p => (List.range 8).any fun e =>
      let w := s.mw set 2 (16 * p + 2 * e)
      bitOf w 15 && (decide (511 < bits w 8 0) || !s.vtxPresent set (bits w 8 0)),
    faultIf 6 (decide (s.walkLim set = 0) || decide (64 < s.walkLim set)),
    firstItem 7 576 fun v => s.vtxPresent set v && decide (((s.vtxPos set v).map fun x => x * x).sum < 1024 * 1024),
    firstItem 8 nt (s.matrixBad set),
    faultIf 9 (decide (s.preDelay set % 6 ≠ 0) || decide (4800 < s.preDelay set)),
    arr 0xA fun a => decide (s.arrCount set a = 0) || decide (480 < s.arrCount set a) || decide (512 < s.arrFirst set a + s.arrCount set a),
    arr 0xB fun a => (members a).any fun v => !s.vtxPresent set v,
    arr 0xC fun a => (List.range a).any fun b => s.arrEn set b &&
      decide (s.arrFirst set a < s.arrFirst set b + s.arrCount set b) && decide (s.arrFirst set b < s.arrFirst set a + s.arrCount set a),
    arr 0xD fun a => decide (sw a 3 < 1024) || decide (sw a 10 < 0) || decide (sw a 11 < 0),
    arr 0xE fun a => decide (s.arrCount set a / 2 < bits (s.arrW set a 5) 8 0),
    arr 0xF fun a => decide (sw a 2 < 0)]
  (ordered.filterMap id).head?

def State.checkMould (s : State) : Option Refused :=
  let nx := s.n 0x68080 % 2
  if nx = s.mset then none
  else (s.mouldFault nx).map fun f => ⟨6, 0xF000, 0, some (f.1, nx, f.2)⟩

/-! Routing, compressors, outputs (R245, R255, R270, R297). -/

def State.checkXp (s : State) : Option Refused :=
  let l := (s.xpEnabled 0).map fun k => (k, s.xpW 0 k 0)
  let bad (x : Nat × Nat) : Bool := decide (0x840 < xpSrc x.2) || !snkValid (xpSnk x.2)
  let dup := l.filter fun x => l.any fun y => decide (y.1 < x.1) && xpSrc y.2 == xpSrc x.2 && xpSnk y.2 == xpSnk x.2
  let node (x : Nat × Nat) : Nat := if snkValid (xpSnk x.2) then snkN (xpSnk x.2) else 0xF000
  let name (l : List (Nat × Nat)) : Option Refused :=
    match lowest (l.map node) with
    | some n => (l.find? fun x => node x == n).map fun x => ⟨6, n, x.1, none⟩
    | none => none
  firstOf [name (l.filter bad), name dup]

def State.checkComp (s : State) : Option Refused :=
  let key (a : Nat) : List Nat := [s.compW 0 a 0, bits (s.compW 0 a 1) 15 0, s.compW 0 a 2]
  let grp (a : Nat) : Nat := min 16 (bits (s.compW 0 a 3) 4 0)
  failLow (((List.range 64).filter fun a => grp a != 0 &&
    (List.range a).any fun b => grp b == grp a && key b != key a).map nAux)

def State.checkOut (s : State) : Option Refused :=
  let l := ((List.range 512).map fun o => (o, s.outRec 0 o)).filter fun x => oDeck x.2
  failLow ((l.filter fun x => oGroup x.2 != 0 &&
    l.any fun y => decide (y.1 < x.1) && oGroup y.2 == oGroup x.2 && oLa y.2 != oLa x.2).map fun x => nOut x.1)

def State.checkConv (s : State) : Option Refused :=
  if s.setState (s.n 0x80080 % 2) ≠ csEmpty then none
  else failLow (((List.range 512).filter fun o => oConv (s.outRec 0 o)).map nOut)

/-- R332: a program image that is not aligned. -/
def State.checkIe (s : State) : Option Refused :=
  failLow (((List.range 8).filter fun e => s.n (0x90088 + 0x1000 * e) % 64 != 0).map fun e => nIns (64 * e))

/-- R402 on a worker, R403 on a manager. -/
def State.checkRing (s : State) : Option Refused :=
  let mapped (c : Nat) : Bool := (s.mapOf 0 c).isSome
  if s.isWorker then failLow ((List.range 1024).filter fun c => s.forwarded 0 c && mapped c)
  else if s.role ≠ 0 then none
  else
    let rc := s.retCount 0
    let maps := (List.range 32).filterMap fun p => if bitOf (s.retMap 0 p) 15 then some (s.retMap 0 p % 1024) else none
    let chans := maps.flatMap fun b => (List.range rc).map (b + ·)
    firstOf [
      failLow ((maps.filter fun b => decide (1024 < b + rc))),
      failLow (chans.filter fun c => mapped c || s.forwarded 0 c || decide (1 < (chans.filter (· == c)).length))]

/-- PARAM_RANGE (row 5 of R259). -/
def State.checkParams (s : State) : Option Refused :=
  let c := s.n 0x3114
  firstOf [
    if c < 250 * 65536 ∨ 450 * 65536 < c then some (param 0xF000) else none,
    s.checkRx, s.checkTx, s.checkIcb, s.checkObj, s.checkMould, s.checkXp, s.checkComp, s.checkOut, s.checkConv,
    s.checkIe, s.checkRing]

/-- SET_NOT_READY (row 6, R297). -/
def State.checkSets (s : State) : Option Refused :=
  let nx := s.n 0x80080 % 2
  if nx = s.convActive then none
  else if s.setState nx ≠ csReady ∨ s.setFading nx then some ⟨0xB, 0xF000, 0, none⟩ else none

/-- Rows 4 to 8 of R259. -/
def State.pressChecks (s : State) : Option Refused :=
  let l := s.get R.PRESS_PRES_LAT_L
  if l % 6 ≠ 0 ∨ l < 18 ∨ 4800 < l then some ⟨5, 0xF000, 0, none⟩
  else match s.checkParams with
    | some r => some r
    | none =>
      match s.checkSets with
      | some r => some r
      | none => (s.solve 0).fail.map fun f => ⟨f.1, f.2, 0, none⟩

end Sys2Proof.Machine
end

