-- ==== Sys2Proof/Machine/Ie.lean ====
section
/-! DEFINITION. The insert engines (10_insert_engines R306–R336): registers, addressing, arithmetic, the pipeline of one
instruction, branches and loops, interrupts, the insert exchange, halt, restart and faults. -/

namespace Sys2Proof.Machine

/-! Access. -/

def State.ie (s : State) (e : Nat) : IeSt := tget (fun _ => IeSt.reset) s.ies e
def State.setIe (s : State) (e : Nat) (f : IeSt → IeSt) : State :=
  { s with ies := tset (fun _ => IeSt.reset) s.ies e (f (s.ie e)) }

/-- The states of R309. -/
def ieStopped : Nat := 0
def ieLoading : Nat := 1
def ieWait : Nat := 2
def ieRun : Nat := 3
def ieFault : Nat := 4

def State.ieState (s : State) (e : Nat) : Nat := s.get (R.IE_S_STATE.pg e)
def State.putIeState (s : State) (e v : Nat) : State := s.put (R.IE_S_STATE.pg e) v

/-- Special registers by spec number (R329). -/
def spA (i : Nat) : Nat := i
def spB (i : Nat) : Nat := 8 + i
def spL (i : Nat) : Nat := 16 + i
def spM (i : Nat) : Nat := 24 + i
def spRA : Nat := 32
def spFL : Nat := 33
def spIPC : Nat := 34
def spIFL : Nat := 35
def spXL : Nat := 36
def spIPEND : Nat := 37
def spIMASK : Nat := 38
def spCYC : Nat := 39
def spSHEET : Nat := 40

def IeSt.reg (i : IeSt) (r : Nat) : Word := tget zeroAt i.d r
def IeSt.val (i : IeSt) (r : Nat) : Int := (i.reg r).toInt
def IeSt.setReg (i : IeSt) (r : Nat) (v : Word) : IeSt := { i with d := tset zeroAt i.d r v }
def IeSt.spec (i : IeSt) (k : Nat) : Nat := tget zeroAt i.sp k
def IeSt.setSpec (i : IeSt) (k v : Nat) : IeSt := { i with sp := tset zeroAt i.sp k v }
def IeSt.fl (i : IeSt) (b : Nat) : Bool := bitOf (i.spec spFL) b
def IeSt.setFl (i : IeSt) (b : Nat) (v : Bool) : IeSt := i.setSpec spFL (putBits (i.spec spFL) b b (b2n v))
/-- The flags of R315. -/
def flZ : Nat := 0
def flN : Nat := 1
def flV : Nat := 2
def flAV : Nat := 3
def flIEN : Nat := 4
def flFS : Nat := 5
/-- An accumulator as the destination of an accumulating instruction reads it, and as every other reader does (R316). -/
def IeSt.accD (i : IeSt) (k : Nat) : Int := tget zeroAt i.acc (k % 8)
def IeSt.accS (i : IeSt) (k : Nat) : Int := tget zeroAt i.accVis (k % 8)

/-! Addressing (R322, R323, R329). -/

/-- The address that a step or displacement gives. -/
def IeSt.addr (i : IeSt) (p : Nat) (delta : Int) : Nat :=
  let a : Int := i.spec (spA p)
  let b : Int := i.spec (spB p)
  let l : Int := i.spec (spL p)
  if l = 0 then tz 17 (a + delta) else tz 17 (b + (a - b + delta) % l)

/-- The step of a MOD field. -/
def IeSt.modStep (i : IeSt) (p md : Nat) : Int :=
  match md with
  | 0 => 0
  | 1 => 1
  | 2 => -1
  | _ => sx 17 (i.spec (spM p))

/-- The pointer after its post-modify. -/
def IeSt.postMod (i : IeSt) (p md : Nat) : Nat := if md = 0 then i.spec (spA p) else i.addr p (i.modStep p md)

/-- R323: a pointer whose a, b or l was written lies in its buffer. -/
def IeSt.wrapPtr (i : IeSt) (p : Nat) : IeSt := if i.spec (spL p) = 0 then i else i.setSpec (spA p) (i.addr p 0)

/-- MVTA (R329). -/
def IeSt.writeSpec (i : IeSt) (k v : Nat) : IeSt :=
  if k < 16 then (i.setSpec k (v % 2 ^ 17)).wrapPtr (k % 8)
  else if k < 24 then (i.setSpec k (min 65536 (v % 2 ^ 17))).wrapPtr (k % 8)
  else if k < 32 then i.setSpec k (v % 2 ^ 17)
  else if k = spRA ∨ k = spIPC then i.setSpec k (v % 2 ^ 14)
  else if k = spFL ∨ k = spIFL then i.setSpec k (i.spec k / 32 * 32 + v % 32)
  else if k = spXL then i.setSpec k (v % 2 ^ 32)
  else if k = spIPEND then i.setSpec k (i.spec k &&& (3 - v % 4))
  else if k = spIMASK then i.setSpec k (v % 4)
  else i

/-- MVFA (R329). -/
def IeSt.readSpec (i : IeSt) (e k : Nat) : Word :=
  if 24 ≤ k ∧ k < 32 then w32i (sx 17 (i.spec k))
  else if k < 41 then w32 (i.spec k)
  else if k = 41 then w32 e
  else 0

/-! Data space (R306, R330, R331). -/

/-- Whether a load, or a store, at a word address is bad. -/
def badLoad (a : Nat) : Bool :=
  !(decide (a < 0x10180) || (decide (0x10400 ≤ a) && decide (a < 0x10580)) || (decide (0x10800 ≤ a) && decide (a ≤ 0x10804)))
def badStore (a : Nat) : Bool :=
  !(decide (a < 0x10000) || (decide (0x10400 ≤ a) && decide (a < 0x10580)) || (decide (0x10800 ≤ a) && decide (a ≤ 0x10804)))

/-- The word that a load returns. -/
def IeSt.load (i : IeSt) (a : Nat) : Word :=
  if a < 0x10000 then tget zeroAt i.dm a
  else if a < 0x10180 then w32i (tget zeroAt i.inBox (a - 0x10000))
  else if 0x10400 ≤ a ∧ a < 0x10580 then w32i (tget zeroAt i.outBox (a - 0x10400))
  else if 0x10800 ≤ a ∧ a ≤ 0x10804 then w32 (tget zeroAt i.bulk (a - 0x10800))
  else 0

def IeSt.setBulk (i : IeSt) (w v : Nat) : IeSt := { i with bulk := tset zeroAt i.bulk w v }
def IeSt.busy (i : IeSt) : Bool := i.run.isSome

/-- A store to the control word with GO (R331). -/
def IeSt.bulkGo (i : IeSt) : IeSt :=
  let ctl := tget zeroAt i.bulk 3
  let len := bits ctl 15 0
  let la := bits (tget zeroAt i.bulk 2) 16 0
  if i.busy then i.setBulk 4 (tget zeroAt i.bulk 4 ||| 8)
  else if len = 0 ∨ 0x10000 < la + len then i.setBulk 4 8
  else
    { i.setBulk 4 1 with
      run := some ⟨tget zeroAt i.bulk 0 / 4 * 4 + tget zeroAt i.bulk 1 % 256 * 2 ^ 32, la, len, bitOf ctl 16⟩ }

/-- A store. -/
def IeSt.store (i : IeSt) (a : Nat) (v : Word) : IeSt :=
  if a < 0x10000 then { i with dm := tset zeroAt i.dm a v }
  else if 0x10400 ≤ a ∧ a < 0x10580 then { i with outBox := tset zeroAt i.outBox (a - 0x10400) v.toInt }
  else if 0x10800 ≤ a ∧ a ≤ 0x10802 then (if i.busy then i else i.setBulk (a - 0x10800) v.toNat)
  else if a = 0x10803 then
    let i := i.setBulk 3 (v.toNat % 2 ^ 31)
    if bitOf v.toNat 31 then i.bulkGo else i
  else i

/-! Arithmetic (R324–R326). -/

/-- Z and N from a value. -/
def IeSt.zn (i : IeSt) (v : Int) : IeSt := (i.setFl flZ (v = 0)).setFl flN (decide (v < 0))

/-- A data result under the S rule: rd, Z, N and V. -/
def IeSt.result (i : IeSt) (sat : Bool) (rd : Nat) (x : Int) : IeSt :=
  let v := if sat then satI 32 x else sx 32 (tz 32 x)
  let i := (i.setReg rd (w32i v)).zn v
  if sat && ovfI 32 x then i.setFl flV true else i

/-- One accumulator step under the S rule; AV is on its way. -/
def IeSt.accPut (i : IeSt) (sat : Bool) (k : Nat) (x : Int) : IeSt :=
  let v := if sat then satI 72 x else sx 72 (tz 72 x)
  { i with acc := tset zeroAt i.acc (k % 8) v, av := i.av || ovfI 72 x }

/-! One instruction (R316). -/

/-- What an instruction does: its reads come from the first engine state, its writes go to the second (where the results of
earlier instructions have landed); a bad address; whether it is a LD or an accumulator writer; whether it signals. -/
structure IeOp where
  run : IeSt → IeSt → IeSt
  bad : IeSt → Option Nat := fun _ => none
  hazard : Bool := false
  sig : Bool := false

/-- What lands at the boundary before the next instruction but one: the LD before this one, and its AV. -/
def IeSt.land (i : IeSt) : IeSt :=
  let j := match i.ld with | some (r, v) => i.setReg r v | none => i
  let j := if i.av then j.setFl flAV true else j
  { j with ld := none, av := false, accVis := i.acc }

/-- The engine issues instructions: RUN, or a handler entered from WAIT; not between the delay slots of a DONE and its
completion. -/
def State.ieIssues (s : State) (e : Nat) : Bool :=
  let i := s.ie e
  s.blockRuns (eIE e) && (decide (s.ieState e = ieRun) || (decide (s.ieState e = ieWait) && !i.handlers.isEmpty)) && !i.doneWait

def State.pcShow (s : State) (e : Nat) : State := s.put (R.IE_PC_PC.pg e) (s.ie e).pc

/-- One issue of an instruction that is not of the branch class. -/
def State.ieOnce (s : State) (e : Nat) (op : IeOp) : State :=
  let i := s.ie e
  let s := match op.bad i with
    | some a => ((s.put (R.IE_BAD_ADDR_PC.pg e) i.pc).put (R.IE_BAD_ADDR_ADDR.pg e) a).latch (eIE e) 5
    | none => s
  let s := s.setIe e fun i =>
    let j := op.run i i.land
    { j with hazard := op.hazard }.setSpec spCYC ((j.spec spCYC + 1) % 2 ^ 18)
  let s := s.onlyIf op.sig (·.latch (eIE e) 4)
  s.putB (R.IE_S_BULK_BUSY.pg e) (s.ie e).busy

/-! Ending a program, faults (R312, R335, R336). -/

/-- Instructions already issued complete; branches, repetitions and loops are discarded. -/
def IeSt.drain (i : IeSt) : IeSt :=
  let j := match i.ld with | some (r, v) => i.setReg r v | none => i
  let j := if i.av then j.setFl flAV true else j
  { j with ld := none, av := false, accVis := i.acc, hazard := false, slots := 0, act := .seq, doneWait := false, rep := 0,
           loops := [], startPending := false }

/-- The same; a handler ends with FL := IFL. -/
def IeSt.endProgram (i : IeSt) : IeSt :=
  let j := i.drain
  if i.handlers.isEmpty then j else { j.setSpec spFL (j.spec spIFL) with handlers := [] }

def State.handlerShow (s : State) (e : Nat) : State := s.putB (R.IE_S_HANDLER.pg e) (!(s.ie e).handlers.isEmpty)

/-- A FAULT (R336). -/
def State.ieFaults (s : State) (e cause : Nat) : State :=
  let pc := (s.ie e).pc
  let s := (s.setIe e fun i => { i.drain with handlers := [] }).handlerShow e
  let s := (s.put (R.IE_FAULT_INFO_PC.pg e) pc).put (R.IE_FAULT_INFO_CAUSE.pg e) cause
  (s.putIeState e ieFault).latch (eIE e) 1

/-! Sequencing (R317–R321). -/

/-- The loop test at the instruction of address pc: the address to go to and the loops left. -/
def loopTest (pc : Nat) : List (Nat × Nat × Nat) → Option Nat × List (Nat × Nat × Nat)
  | [] => (none, [])
  | (first, last, n) :: t =>
    if last = pc then
      if 1 < n then (some first, (first, last, n - 1) :: t) else loopTest pc t
    else
      let q := loopTest pc t
      match q.1 with
      | some a => (some a, (first, last, n) :: q.2)
      | none => (none, (first, last, n) :: q.2)

/-- A sheet program starts (R310, R313). -/
def State.ieStart (s : State) (e : Nat) : State :=
  (s.setIe e fun i =>
    let i := { i with pc := bits i.cfg 13 0, rep := 0, loops := [], slots := 0, act := .seq, doneWait := false,
                      startPending := false }.setSpec spCYC 0
    if i.fsNext then { i.setFl flFS true with fsNext := false } else i).putIeState e ieRun

/-- A return from interrupt takes effect (R320): PC := IPC, FL := IFL; from a handler entered in WAIT the engine returns to
WAIT, where it stands at a boundary, or starts the sheet program that waited. -/
def State.ieReturn (s : State) (e : Nat) : State :=
  let i := s.ie e
  let s := s.setIe e fun i => { i.setSpec spFL (i.spec spIFL) with pc := i.spec spIPC, handlers := i.handlers.tail }
  let s := s.handlerShow e
  if !i.handlers.headD false then s
  else if i.startPending then s.ieStart e
  else s.setIe e fun i => { i with hazard := false }

/-- What follows the second delay slot. -/
def State.ieAct (s : State) (e : Nat) : State :=
  let i := s.ie e
  let s := s.setIe e fun i => { i with act := .seq }
  match i.act with
  | .seq => s.setIe e fun i => { i with pc := (i.pc + 1) % 2 ^ 14 }
  | .jump a br => s.setIe e fun i =>
      let loops := match i.loops with
        | (first, last, n) :: t => if br && !(decide (first ≤ a) && decide (a ≤ last)) then t else (first, last, n) :: t
        | [] => []
      { i with pc := a, loops := loops }
  | .reti => s.ieReturn e
  | .done =>
    if i.handlers.getLastD false then
      let s := s.setIe e fun i => { i with handlers := i.handlers.drop (i.handlers.length - 1) }
      s.ieReturn e
    else s.setIe e fun i => { i with doneWait := true }

/-- Go on after an instruction at the engine's PC. -/
def State.ieNext (s : State) (e : Nat) : State :=
  let i := s.ie e
  if i.slots = 0 then
    let q := loopTest i.pc i.loops
    s.setIe e fun i => { i with pc := q.1.getD ((i.pc + 1) % 2 ^ 14), loops := q.2 }
  else
    let s := s.setIe e fun i => { i with slots := i.slots - 1 }
    if i.slots = 1 then s.ieAct e else s.setIe e fun i => { i with pc := (i.pc + 1) % 2 ^ 14 }

/-- The instruction at PC lies at the end of an active loop. -/
def IeSt.atEnd (i : IeSt) : Bool := i.loops.any fun l => l.2.1 == i.pc

/-- Issue an instruction that is not of the branch class; under a REP, one of its repetitions (R318). -/
def State.ieIssue (s : State) (e : Nat) (op : IeOp) : State :=
  if !s.ieIssues e then s
  else
    let i := s.ie e
    let s := s.pcShow e
    if i.slots ≠ 0 ∧ i.atEnd then s.ieFaults e 2
    else
      let s := (s.ieOnce e op).setIe e fun j => { j with rep := i.rep - 1 }
      if 1 < i.rep then s else s.ieNext e

/-- Issue an instruction of the branch class: f changes the engine and gives the delay slots and what follows them, or
a fault cause. -/
def State.ieBranch (s : State) (e : Nat) (f : IeSt → Nat ⊕ (IeSt × Nat × IeAct)) : State :=
  if !s.ieIssues e then s
  else
    let i := s.ie e
    let s := s.pcShow e
    if i.slots ≠ 0 ∨ i.rep ≠ 0 then s.ieFaults e 2
    else if i.atEnd then s.ieFaults e 4
    else match f i with
      | .inl cause => s.ieFaults e cause
      | .inr q =>
        let s := s.setIe e fun i =>
          let l := i.land
          let j : IeSt := { l with rep := q.1.rep, loops := q.1.loops, hazard := false, slots := q.2.1, act := q.2.2,
                                   pc := (i.pc + 1) % 2 ^ 14 }
          (j.setSpec spRA (q.1.spec spRA)).setSpec spCYC ((i.spec spCYC + 1) % 2 ^ 18)
        s

/-- A condition (R317). -/
def IeSt.cond (i : IeSt) (c : Nat) : Bool :=
  let z := i.fl flZ
  let n := i.fl flN
  match c with
  | 0 => true
  | 1 => z
  | 2 => !z
  | 3 => n
  | 4 => !n
  | 5 => !n && !z
  | 6 => n || z
  | 7 => i.fl flV
  | 8 => !i.fl flV
  | 9 => i.fl flAV
  | 10 => !i.fl flAV
  | 11 => i.fl flFS
  | 12 => !i.fl flFS
  | _ => false

/-- A count field of REP or LOOP. -/
def count12 (n : Nat) : Nat := if n % 4096 = 0 then 4096 else n % 4096

/-- LOOP and LOOPR (R319). -/
def IeSt.loop (i : IeSt) (n last : Nat) : Nat ⊕ (IeSt × Nat × IeAct) :=
  let first := (i.pc + 1) % 2 ^ 14
  if i.loops.length = 2 then .inl 3
  else if last < first then .inl 4
  else .inr ({ i with loops := (first, last, count12 n) :: i.loops }, 0, .seq)

/-! Completion, interrupts, halt, restart (R311, R320, R321, R336). -/

/-- Completion takes effect. -/
def State.ieComplete (s : State) (e : Nat) : State :=
  if !(s.pageOn (eIE e) && decide (s.ieState e = ieRun) && (s.ie e).doneWait) then s
  else
    let c := (s.ie e).spec spCYC
    let s := s.put (R.IE_CYC_LAST_CYC.pg e) c
    let s := s.put (R.IE_CYC_MAX_CYC.pg e) (max c (s.get (R.IE_CYC_MAX_CYC.pg e)))
    let s := s.setIe e fun i => i.endProgram.setFl flFS false
    (s.handlerShow e).putIeState e ieWait

/-- An interrupt can be accepted at this boundary. -/
def State.ieAccepts (s : State) (e : Nat) : Bool :=
  let i := s.ie e
  s.blockRuns (eIE e) && (decide (s.ieState e = ieRun) || decide (s.ieState e = ieWait)) && !i.doneWait && i.fl flIEN &&
    (i.spec spIPEND &&& i.spec spIMASK) != 0 && decide (i.slots = 0) && decide (i.rep = 0) && i.loops.isEmpty && !i.hazard

def State.ieInterrupt (s : State) (e : Nat) : State :=
  if !s.ieAccepts e then s
  else
    let wait := decide (s.ieState e = ieWait) && (s.ie e).handlers.isEmpty
    (s.setIe e fun i =>
      let i := (i.setSpec spIPC i.pc).setSpec spIFL (i.spec spFL)
      { i.setFl flIEN false with pc := bits i.cfg 29 16, handlers := wait :: i.handlers }).handlerShow e

/-- DOORBELL[RING]. -/
def State.ieDoor (s : State) (e : Nat) : State := s.setIe e fun i => i.setSpec spIPEND (i.spec spIPEND ||| 1)

/-- CTRL[HALT]. -/
def State.ieHalt (s : State) (e : Nat) : State :=
  let s := (s.setIe e fun i => { i.drain with handlers := [] }).handlerShow e
  (s.putIeState e ieStopped).putB (R.IE_S_HALTED.pg e) true

/-- LOADED_CRC and the ACTIVE PROG_CRC. -/
def State.loadedCrc (s : State) (e : Nat) : Nat := s.get64 (0x900B8 + 0x1000 * e)
def State.activeCrc (s : State) (e : Nat) : Nat := s.get64 (0x900B0 + 0x1000 * e)

/-- CTRL[RESTART] (R336): the stop conditions end, and the next sheet program, whenever it starts, runs with FS set (R313). -/
def State.ieRestart (s : State) (e : Nat) : State :=
  let s := s.putB (R.IE_S_HALTED.pg e) false
  let s := if s.ieState e = ieFault then s.putIeState e ieStopped else s
  s.setIe e fun i => { i with fsNext := true }

/-! The insert exchange (R310, R312, R334, R335). -/

/-- The output sheet of a channel of engine e that MIX takes: the program's, faded in after a substitute, or the substitute. -/
def State.insTaken (s : State) (e : Nat) (ok : Bool) (c : Nat) : List Int :=
  (List.range 6).map fun k =>
    let x := tget zeroAt (s.ie e).outBox (6 * c + k)
    if !ok then byW (tget zeroAt s.mix.insZ (64 * e + c)) (w6 (5 - k))
    else if s.mix.insSub.contains e then byW x (w6 k) else x

/-- MIX takes the output sheets of engine e: `ok` when it takes the output buffer (R312). -/
def State.insTake (s : State) (e slot : Nat) (ok : Bool) : State :=
  let outs := (List.range 64).map fun c => (64 * e + c, s.insTaken e ok c)
  let s := s.each outs fun s q => s.putSheet aIeOut q.1 slot q.2
  { s with mix := { s.mix with
    insZ := tsetAll zeroAt s.mix.insZ (outs.map fun q => (q.1, if ok then q.2.getD 5 0 else 0))
    insSub := (s.mix.insSub.filter (· != e)) ++ (if ok then [] else [e]) } }

/-- MIX swaps the mailboxes of engine e. -/
def State.ieSwap (s : State) (e slot : Nat) (ok : Bool) : State :=
  let s := s.insTake e slot ok
  let box := tsetAll zeroAt [] ((List.range 64).flatMap fun c => (s.sheetOf aIeIn (64 * e + c) slot).zipIdx.map fun q => (6 * c + q.2, q.1))
  s.setIe e fun i =>
    { i with inBox := box, outBox := [], cfg := s.n (0x900A0 + 0x1000 * e) }.setSpec spSHEET (s.sheet % 2 ^ 32)

/-- A load starts (R335). -/
def State.ieLoadStart (s : State) (e : Nat) : State :=
  let s := { s with passed := s.passed.filter (· != 0x38 + e) }
  let s := s.setIe e fun i => { i.endProgram with run := none, bulk := tset zeroAt i.bulk 4 0 }
  let s := (s.handlerShow e).putB (R.IE_S_BULK_BUSY.pg e) false
  (s.set64 (0x900B8 + 0x1000 * e) 0).putIeState e ieLoading

/-- The exchange at engine e; one without power runs no program, and MIX takes a substitute. -/
def State.ieExchange (s : State) (slot e : Nat) : State :=
  if !s.blockRuns (eIE e) then s.insTake e slot false
  else
    let i := s.ie e
    let s := s.setIe e fun i => { i with reload := false }
    let st := s.ieState e
    let run := bitOf (s.n (0x900A0 + 0x1000 * e)) 31
    let halted := s.is (R.IE_S_HALTED.pg e)
    let same := decide (s.loadedCrc e = s.activeCrc e)
    let live := decide (st = ieRun) || decide (st = ieWait)
    let load := run && !halted && decide (st ≠ ieLoading) && (!same || (i.reload && live))
    let complete := decide (st = ieWait) && !i.startPending
    let late := live && !complete && !load && run
    let s := s.ieSwap e slot (complete && !load)
    let s := s.onlyIf late fun s => (s.addW (R.IE_LATE_CNT_COUNT.pg e) 1).latch (eIE e) 0
    if load then s.ieLoadStart e
    else if (live || decide (st = ieLoading) || decide (st = ieFault)) && !run then ((s.setIe e (·.endProgram)).handlerShow e).putIeState e ieStopped
    else if late then ((s.setIe e fun i => i.endProgram.setFl flFS false).handlerShow e).ieStart e
    else if st = ieWait then
      if i.handlers.isEmpty then s.ieStart e else s.setIe e fun i => { i with startPending := true }
    else if st = ieStopped ∧ run ∧ !halted then s.ieStart e
    else s

/-- The insert exchange point of a slot (R31): every engine, once a slot. -/
def State.exchange (s : State) : State :=
  if s.slot < s.exchCut ∨ !s.blockRuns eMIX then s
  else ({ s with exchCut := s.slot + 1 }).upto 8 fun s e => s.ieExchange s.slot e

/-- A commit that changes PROG_IMG or PROG_CRC of a running engine reloads it (R335); `o` is the state before it. -/
def State.ieCommit (s o : State) : State :=
  s.upto 8 fun s e =>
    let k := 0x1000 * e
    if o.get64 (0x900A8 + k) ≠ s.get64 (0x900A8 + k) ∨ o.get64 (0x900B0 + k) ≠ s.get64 (0x900B0 + k) then
      s.setIe e fun i => { i with reload := decide (s.ieState e = ieRun) || decide (s.ieState e = ieWait) }
    else s

/-! Windows (R336, R340). -/

/-- REG_DATA. -/
def State.ieRegData (s : State) (e : Nat) : Word :=
  let i := s.ie e
  let x := s.get (R.IE_REG_SEL_INDEX.pg e)
  if s.ieState e ≠ ieStopped ∧ s.ieState e ≠ ieFault then 0
  else if x < 16 then i.reg x
  else if 64 ≤ x ∧ x < 128 then i.readSpec e (x - 64)
  else if 128 ≤ x ∧ x < 160 ∧ x % 4 < 3 then w32i (i.accD ((x - 128) / 4) / 2 ^ (32 * (x % 4)))
  else 0

/-- DM_DATA. -/
def State.ieDmData (s : State) (e : Nat) : Word :=
  let a := s.get (R.IE_DM_ADDR_ADDR.pg e)
  if a < 0x10000 then tget zeroAt (s.ie e).dm a else 0

def State.ieDmWrite (s : State) (e : Nat) (v : Word) : State :=
  let a := s.get (R.IE_DM_ADDR_ADDR.pg e)
  if a < 0x10000 then s.setIe e fun i => { i with dm := tset zeroAt i.dm a v } else s

def State.ieDmNext (s : State) (e : Nat) : State := s.addW (R.IE_DM_ADDR_ADDR.pg e) 1

/-- PM_DATA. -/
def State.iePmData (s : State) (e : Nat) : Word := tget zeroAt (s.ie e).pm (s.get (R.IE_PM_ADDR_ADDR.pg e))
def State.iePmNext (s : State) (e : Nat) : State := s.addW (R.IE_PM_ADDR_ADDR.pg e) 1

end Sys2Proof.Machine
end

