-- ==== Sys2Proof/Machine/Press.lean ====
section
/-! DEFINITION. The press (08_buses_and_outputs R256–R262, 13_apsal_systems R408, R409): requests, refusals, the end of the checks, the
decision of a distributed press, and the commit. -/

namespace Sys2Proof.Machine

/-! Refusals (R258, R259). -/

/-- Reasons of R259. -/
def rTooLate : Nat := 7
def rBusy : Nat := 8
def rRingAbort : Nat := 9
def rLocal : Nat := 0xA
def rMode : Nat := 0xC
def rAborted : Nat := 0xD

/-- RESULT, DETAIL, REFUSE_CNT and REFUSED. -/
def State.refuseShow (s : State) (reason node detail id : Nat) : State :=
  let s := (s.setN 0x8094 (reason % 16 + id % 256 * 2 ^ 8 + node % 2 ^ 16 * 2 ^ 16)).setN 0x8098 (detail % 2 ^ 16)
  (s.addW R.PRESS_REFUSE_CNT_COUNT 1).latch ePRESS 1

/-- The pending press is no longer scheduled: what was computed for it is discarded (R194; DEDUCED, log entry 186). -/
def State.knotsBack (s : State) (p : PressSt) : State := if p.scheduled then s.knotsAgain (s.pressSlot p) else s

/-- The pending press ends with a refusal. -/
def State.pressRefuse (s : State) (reason node detail : Nat) : State :=
  match s.press with
  | some p => ({ s with press := none }.putB R.PRESS_S_PENDING false).knotsBack p |>.refuseShow reason node detail p.id
  | none => s

/-- A device that may hold or vote on a press: the mode is CONFIG or RUN. -/
def State.pressMode (s : State) : Bool := s.mode = mConfig || s.mode = mRun

/-- The mode has changed (R261). -/
def State.pressModeLost (s : State) : State := if s.press.isSome && !s.pressMode then s.pressRefuse rMode 0xF000 0 else s

/-- SHADOW differs from ACTIVE in L, the forwarded map or RC. -/
def State.ringDiffers (s : State) : Bool :=
  s.n 0x8080 != s.n 0x8084 || s.n 0xC2090 % 128 != s.n 0xC2094 % 128 ||
    (List.range 32).any fun x => s.n (0xC2400 + 4 * x) != s.n (0xC2480 + 4 * x)

/-- A local press that R259 row 3 or R409 forbids. -/
def State.pressForbidden (s : State) (ring : Bool) : Bool :=
  s.role = 1 || (s.role = 0 && !ring && s.otherMembers != 0 && s.ringDiffers)

/-! Requests. -/

/-- PRESS_DECIDE goes out at every boundary up to N − 1 (R408). -/
def State.ringDecide (s : State) (p : PressSt) (go : Bool) (dev reason node : Nat) : State :=
  let s := if go then s else
    s.setN 0xC2098 (dev % 32 + reason % 16 * 2 ^ 8 + node % 2 ^ 16 * 2 ^ 16)
  { s with verdict := some ⟨p.id, go, dev, reason, node, p.sheet⟩ }

/-- REQ[ABORT]: before the start of slot N − 1. -/
def State.pressAbort (s : State) : State :=
  match s.press with
  | some p =>
    if s.sheet + 1 < p.sheet then
      let s := if p.ring && s.isManager && p.decided.isNone then s.ringDecide p false s.devid rAborted 0xF000 else s
      s.pressRefuse rAborted 0xF000 0
    else s
  | none => s

/-- REQ[GO] with the write's bits. -/
def State.pressGo (s : State) (v : Nat) : State :=
  let id := bits v 15 8
  let ring := bitOf v 2 && s.isManager
  let n := (if bitOf v 3 then s.sheet else 0) + s.get64 0x8088 % 2 ^ 48
  if !s.pressMode then s.refuseShow rMode 0xF000 0 id
  else if s.press.isSome then s.refuseShow rBusy 0xF000 0 id
  else if s.pressForbidden ring then s.refuseShow rLocal 0xF000 0 id
  else if ring ∧ n < s.sheet + 16 then s.refuseShow rTooLate 0xF000 0 id
  else
    { s with
      press := some ⟨n, id, ring, s.sheet, false, none, [], none, none⟩
      askRing := if ring then some (n, id) else s.askRing }.putB R.PRESS_S_PENDING true

/-- A write to REQ: ABORT first, then GO (R259). -/
def State.pressReq (s : State) (v : Nat) : State :=
  let s := if bitOf v 1 then s.pressAbort else s
  if bitOf v 0 then s.pressGo v else s

/-! The checks end (R258, R259 row 9). -/

/-- The start of slot N − 1 has passed. -/
def State.pressLate (s : State) (p : PressSt) : Bool :=
  decide ((p.sheet : Int) ≤ p.goSheet) ||
    (!p.skip && (decide (p.sheet < s.sheet + 1) || (decide (p.sheet = s.sheet + 1) && decide (0 < s.cyc))))

/-- The outcome of the own checks, with what MOULD shows of a failed set (R197). -/
def State.pressJudge (s : State) (p : PressSt) : (Nat × Nat × Nat) × State :=
  match s.pressChecks with
  | some r =>
    let s := match r.mould with
      | some (fault, set, index) =>
        ((((s.put R.MOULD0_CHECK_FAULT fault).put R.MOULD0_CHECK_SET set).put R.MOULD0_CHECK_INDEX index)).latch eMOULD 2
      | none => s
    ((r.reason, r.node, r.detail), s)
  | none => (if s.pressLate p then (rTooLate, 0xF000, 0) else (0, 0, 0), s)

/-- What the solver finds for the objects of the bank to come: τ_R and their delay bases (R22, 07_wavefront R230). -/
def State.objPlan (s : State) : Nat × Tab Nat :=
  let plan := s.solve 0
  (plan.tauR, tsetAll zeroAt [] ((s.objEnabled 0).map fun o =>
    (o, 6 * tget zeroAt plan.pads (eObject o) + s.preDelay (s.n 0x68080 % 2))))

/-- The press is pending as p now; once that schedules its commit, the knots computed for slots at or after it are discarded, and
computed again for the bank to come (R194; DEDUCED, log entry 186). -/
def State.pressIs (s : State) (p : PressSt) : State :=
  let was := s.press.any PressSt.scheduled
  let s := { s with press := some p }
  if p.scheduled && !was then s.knotsAgain (s.pressSlot p) else s

/-- The checks and the solver end. -/
def State.pressChecked (s : State) : State :=
  match s.press with
  | some p =>
    if p.own.isSome ∨ !s.pageOn ePRESS then s
    else
      let (r, s) := s.pressJudge p
      let p := { p with own := some r, ahead := if r.1 = 0 then some s.objPlan else none }
      if p.ring then
        { s with vote := if s.isManager then s.vote else some (p.id, r.1, r.2.1) }.pressIs
          { p with votes := p.votes ++ (if s.isManager then [(s.devid, r.1, r.2.1)] else []) }
      else if r.1 = 0 then s.pressIs p
      else s.pressRefuse r.1 r.2.1 r.2.2
  | none => s

/-! The distributed press (R408, R409). -/

/-- PRESS_REQ at a MEMBER that is a worker. -/
def State.pressAsked (s : State) (id n : Nat) : State :=
  if s.role ≠ 1 ∨ !s.pressMode ∨ !s.pageOn ePRESS then s
  else if s.press.isSome then
    if (s.press.map fun p => p.id) = some id then s else { s with vote := some (id, rBusy, 0xF000) }
  else { s with press := some ⟨n, id, true, s.sheet, false, none, [], none, none⟩ }.putB R.PRESS_S_PENDING true

/-- PRESS_TABLE: L, RC, the forwarded map and a(c) go to SHADOW. -/
def State.pressTable (s : State) (b : List Byte) : State :=
  match s.press with
  | some p =>
    if !p.ring ∨ s.isManager ∨ p.own.isSome ∨ leAt b 0 1 ≠ p.id then s
    else
      let s := (s.setN 0x8080 (leAt b 2 2 % 2 ^ 13)).setN 0xC2090 (leAt b 4 1 % 2 ^ 7)
      let s := s.upto 32 fun s x => s.setN (0xC2400 + 4 * x) (leAt b (8 + 4 * x) 4)
      { s with fwdTerm := tsetAll zeroAt [] ((List.range 1024).map fun c => (c, leAt b (0x88 + 2 * c) 2)) }
  | none => s

/-- PRESS_VOTE at the manager. -/
def State.pressVoted (s : State) (pos id reason node : Nat) : State :=
  match s.press with
  | some p =>
    if p.ring && s.isManager && decide (p.id = id) && bitOf (s.get R.RING_MEMBERS_P) pos && !(p.votes.any fun v => v.1 == pos) then
      { s with press := some { p with votes := p.votes ++ [(pos, reason, node)] } }
    else s
  | none => s

/-- MEMBERS other than the manager that have not voted. -/
def State.voteless (s : State) (p : PressSt) : List Nat :=
  (List.range 32).filter fun q => bitOf s.otherMembers q && !(p.votes.any fun v => v.1 == q)

/-- The manager decides: on the first refusal, on all accepting votes, or at the start of slot N − 4. -/
def State.pressDecision (s : State) : State :=
  match s.press with
  | some p =>
    if !p.ring ∨ !s.isManager ∨ p.decided.isSome then s
    else
      let own := p.votes.any fun v => v.1 == s.devid
      let abort (dev reason node : Nat) : State :=
        let s := s.ringDecide p false dev reason node
        match p.own with
        | some r => if r.1 = 0 then s.pressRefuse rRingAbort 0xF000 0 else s.pressRefuse r.1 r.2.1 r.2.2
        | none => s.pressRefuse rRingAbort 0xF000 0
      match p.votes.find? fun v => v.2.1 != 0 with
      | some v => abort v.1 v.2.1 v.2.2
      | none =>
        if own && (s.voteless p).isEmpty then
          (s.ringDecide p true 0 0 0).pressIs { p with decided := some true }
        else if p.sheet ≤ s.sheet + 4 then
          abort (((if own then [] else [s.devid]) ++ s.voteless p).headD s.devid) rRingAbort 0xF000
        else s
  | none => s

/-- PRESS_DECIDE at a MEMBER. -/
def State.pressDecided (s : State) (id : Nat) (go : Bool) : State :=
  match s.press with
  | some p =>
    if !p.ring ∨ s.isManager ∨ p.id ≠ id then s
    else if go then s.pressIs { p with decided := some true }
    else match p.own with
      | some r => if r.1 = 0 then s.pressRefuse rRingAbort 0xF000 0 else s.pressRefuse r.1 r.2.1 r.2.2
      | none => s.pressRefuse rRingAbort 0xF000 0
  | none => s

/-! The commit (R257). -/

/-- Copy one SHADOW word to its ACTIVE value. -/
def State.copyW (s : State) (a b : Nat) : State := s.setW b (s.w a)

/-- Copy a window kind's SHADOW words to the ACTIVE kind; the block writes what changes in SRAM (OBJ in the bank that was ACTIVE,
R67, R183). -/
def State.copyWin (s : State) (src k0 k1 : Nat) : State :=
  let idx := (s.words.filter fun e => decide (0x8000000000 ≤ e.1) && decide (keySrc e.1 = src) &&
    (decide (keyKind e.1 = k0) || decide (keyKind e.1 = k1))).map fun e => keyWord e.1
  s.each idx.dedup fun s n =>
    let s := if s.w (winKey src k0 n) = s.w (winKey src k1 n) then s else s.wordDirty (winKey src (if src = eOBJ then k0 else k1) n)
    s.copyW (winKey src k0 n) (winKey src k1 n)

/-- Pressable registers: the SHADOW key and the ACTIVE key (those of which ACTIVE takes one bit aside). -/
def bankRegs : List (Nat × Nat) :=
  [(0x3114, 0x68088), (0x8080, 0x8084), (0xC2090, 0xC2094)] ++
  (List.range 16).map (fun x => (0x71080 + 4 * x, 0x710C0 + 4 * x)) ++
  ((List.range 8).flatMap fun e => [(0x80, 0xA0), (0x88, 0xA8), (0x8C, 0xAC), (0x90, 0xB0), (0x94, 0xB4)].map fun (q : Nat × Nat) =>
    (0x90000 + 0x1000 * e + q.1, 0x90000 + 0x1000 * e + q.2)) ++
  (List.range 512).map (fun x => (0x40180 + 0x1000 * (x / 16) + 4 * (x % 16), 0x401C0 + 0x1000 * (x / 16) + 4 * (x % 16))) ++
  ((List.range 32).flatMap fun x => [(0xC2400 + 4 * x, 0xC2480 + 4 * x), (0xC2500 + 4 * x, actKey (0xC2500 + 4 * x))])

/-- Pressable records in windows: source, SHADOW kind, ACTIVE kind. -/
def bankWins : List (Nat × Nat × Nat) :=
  [(13, 0, 1), (17, 0, 1), (21, 0, 1), (21, 2, 3), (25, 0, 1), (33, 0, 1), (33, 2, 3), (37, 0, 1), (37, 2, 3)]

/-- A key of one of the press banks: also the sets in force that MOULD and CONV name. -/
def bankKey (k : Nat) : Bool :=
  (if 0x8000000000 ≤ k then bankWins.any fun q => keySrc k = q.1 && (keyKind k = q.2.1 || keyKind k = q.2.2)
  else bankRegs.any fun q => k = q.1 || k = q.2) ||
  k = 0x68080 || k = 0x80080 || k = 0x4000068080 || k = 0x4000080080

/-- Every pressable word (R256); OBJ's physical banks change roles (R183). -/
def State.copyBank (s : State) : State :=
  let s := s.each bankRegs fun s q => s.copyW q.1 q.2
  let s := (s.setN 0x4000068080 (s.n 0x68080 % 2)).setN 0x4000080080 (s.n 0x80080 % 2)
  let s := s.put R.OBJ0_BANK_ACTIVE (s.get R.OBJ0_BANK_ACTIVE + 1)
  let s := s.each bankWins fun s q => s.copyWin q.1 q.2.1 q.2.2
  { s with fwdTermAct := s.fwdTerm }

/-- What a commit does to object k, whose record was a under the state o before it and is b now (R186, R206, R208, R233): commits
whose crossfades run are kept while it stays enabled, and this one joins them where it changes the base or the record. -/
def State.objStep (s o : State) (k : Nat) (a b : List Nat) : List LineStep :=
  if !oEn a || !oEn b then []
  else
    let h := (tget (fun _ => []) s.lineHist k).filter fun x => decide (s.slot < x.slot + 8)
    if o.lineBase k = s.lineBase k ∧ a = b then h else ⟨s.slot, o.lineBase k, a⟩ :: h

/-- The slots before this one that a geometry unit or a vat may still render. -/
def State.oldestRender (s : State) : Nat :=
  ([1, 2, 3, 4] ++ (List.range 32).map (8 + ·)).foldl (fun m k => min m (s.stage k).next) s.slot

/-- The objects at a commit (R186, R194, R206, R208): what was in force before it, the walks that it discards, and the lines that it
starts empty. -/
def State.objCommit (s o : State) : State :=
  let ids := (o.objEnabled 1 ++ s.objEnabled 1).dedup
  let moved := ids.filter fun k =>
    objMoves (o.objRec 1 k) (s.objRec 1 k)
  let was := (ids.filter fun k => o.objRec 1 k != s.objRec 1 k || o.lineBase k != s.lineBase k).map fun k =>
    let a := o.objRec 1 k
    ObjGone.mk k a (o.lineBase k) (tget zeroAt s.lineFrom (oVat a * 32 + oSlot a)) (tget (fun _ => []) s.lineHist k)
  let s := { s with
    lineHist := tsetAll (fun _ => []) [] (ids.map fun k => (k, s.objStep o k (o.objRec 1 k) (s.objRec 1 k)))
    objMoved := tsetAll zeroAt s.objMoved (moved.map fun k => (k, s.slot))
    objEras := ⟨s.slot, o.tauR, o.mset, was⟩ :: s.objEras.filter fun e => decide (s.oldestRender ≤ e.slot + 16)
    knots := s.knots.filter fun e =>
      decide (s.slot ≤ e.1 % 2 ^ 64) || !moved.contains (e.1 / 2 ^ 64) || oEn (o.objRec 1 (e.1 / 2 ^ 64)) }
  s.each (moved.filter fun k => oEn (s.objRec 1 k)) fun s k =>
    let r := s.objRec 1 k
    let i := oVat r * 32 + oSlot r
    { s with lineFrom := tset zeroAt s.lineFrom i s.slot }

/-- The swap of the mould sets (R195). -/
def State.mouldCommit (s : State) : State :=
  let nx := s.n 0x4000068080 % 2
  if nx = s.mset then s
  else { (s.put R.MOULD0_SET_CTRL_ACTIVE nx).latch eMOULD 1 with swapSlot := some s.slot }

/-- Everything that changes at the commit. -/
def State.commitAll (o : State) : State :=
  let plan := o.solve 0
  let s := (o.copyBank).mouldCommit
  let s := s.setPads plan.pads (o.padEdges 1) (s.padEdges 1)
  let s := { s with mix := { s.mix with tauTest := plan.tauTest } }
  let s := (s.put R.PRESS_TAU_R_TAU plan.tauR).put R.PRESS_POOL_USE_USE (min plan.pool (2 ^ 17 - 1))
  let s := s.objCommit o
  let s := s.each (recsChanged s o 13 1 32) fun s c => s.rxCommit c (o.rxRec c 1) (s.rxRec c 1)
  let s := s.each (recsChanged s o 17 1 32) fun s t => s.txCommit t (o.txRec t 1) (s.txRec t 1)
  (((((s.icbCommit o).mixCommit o).outCommit o).convCommit o).ieCommit o).freeze

/-- The pending press commits; the knots of one that was not scheduled before are computed again (R194). -/
def State.pressCommits (s : State) (p : PressSt) : State :=
  let s := { s.commitAll with press := none }
  let s := if p.scheduled then s else s.knotsAgain s.slot
  let s := s.putB R.PRESS_S_PENDING false
  let s := (s.set64 0x80A0 (s.sheet % 2 ^ 48)).setN 0x709C (s.sheet % 2 ^ 32)
  let s := ((s.setN 0x8094 (p.id % 256 * 2 ^ 8)).setN 0x8098 0).addW R.PRESS_COMMIT_CNT_COUNT 1
  (s.putB R.WMK_S_SETTLED false).latch ePRESS 0

/-- The boundary of sheet N, or the first one after a step that skipped it. -/
def State.pressCommit (s : State) : State :=
  match s.press with
  | some p =>
    if s.cyc ≠ 0 ∨ (s.sheet < p.sheet ∧ !p.skip) ∨ !s.pageOn ePRESS then s
    else if p.ring then
      if p.decided = some true then s.pressCommits p
      else if s.isManager then s
      else (s.pressRefuse rRingAbort 0xF000 0).latch eRING 4
    else match p.own with
      | some r => if r.1 = 0 then s.pressCommits p else s
      | none => s
  | none => s

/-- A step of the HSI from sheet a to sheet b, with N between them (R100, R261). -/
def State.pressStep (s : State) (a b : Nat) : State :=
  match s.press with
  | some p => if a < p.sheet ∧ p.sheet < b then { s with press := some { p with skip := true } } else s
  | none => s

/-- PAD_w of the block that PAD_SEL selects. -/
def State.padW (s : State) (w : Nat) : Nat := min 1023 (tget zeroAt s.pads (eInput (32 * s.get R.PRESS_PAD_SEL_BLOCK + w)))

end Sys2Proof.Machine
end

