-- ==== Sys2Proof/Machine/Wmk.lean ====
section
/-! DEFINITION. WMK (13_apsal_systems R412–R416): the digests, the words of each page, the background rescan. -/

namespace Sys2Proof.Machine

/-- Window kinds that hold configuration-class words, with their word counts (R413). -/
def cfgWindows (src : Nat) : List (Nat × Nat) :=
  if src = 13 then [(0, 8192), (1, 8192)]
  else if src = 17 then [(0, 4096), (1, 4096)]
  else if src = 21 then [(0, 2048), (1, 2048), (2, 32832), (3, 32832)]
  else if src = 25 then [(0, 8192), (1, 8192)]
  else if src = 29 then [(0, 2304), (1, 16384), (2, 1024), (3, 32), (4, 16384)]
  else if src = 33 then [(0, 16384), (1, 16384), (2, 256), (3, 256)]
  else if src = 37 then [(0, 4096), (1, 4096), (2, 49152), (3, 49152)]
  else if src = 50 then [(0, 400)]
  else if 9 ≤ src ∧ src ≤ 12 then [(0, 512)]
  else []

/-- Offsets in a page of the common header's configuration-class registers that every page has (R60). -/
def hdrCfg : List Nat := [0x14, 0x1C, 0x20]

/-- The registers of a page, and its ACTIVE words that no register shows, with configuration-class bits. -/
def pageRegs (src : Nat) : List Nat :=
  match pageOfSrc src with
  | none => []
  | some p =>
    let rows := (blkRegs p.blk).flatMap fun r => if r.cfg = 0 then [] else (List.range r.n).map fun i => (r, p.base + r.off + r.stride * i)
    let regs := (rows.map Prod.snd ++ hdrCfg.map (p.base + ·)).filter fun a => keySrc a = src
    let acts := (rows.filter fun x => decide (0x4000000000 ≤ x.1.act)).map fun x => actKey x.2
    (regs ++ acts ++ (if src = eTIME then [0x68088] else [])).foldl (fun l k => l.takeWhile (· ≤ k) ++ k :: l.dropWhile (· ≤ k)) []

/-- The window words of a page, in ascending order. -/
def pageWins (src : Nat) : List Nat :=
  (cfgWindows src).flatMap fun q => (List.range (if src = 29 then 2 else 1)).flatMap fun set =>
    (List.range q.2).map fun n => winKey src q.1 n + set * 2 ^ 25

/-- The configuration-class words of page p other than those of the tap images, in ascending order (R412, R413). -/
def pageWords (p : Nat) : List Nat := pageRegs p ++ pageWins p

/-- The digest of a page's reset state. -/
def resetDigest (p : Nat) : BitVec 64 :=
  (pageWords p).foldl (fun x k => x + wmkKey k * BitVec.ofNat 64 ((resetWord k).toNat &&& cfgMask k)) 0

/-- w_p (R412). -/
def State.digestOf (s : State) (p : Nat) : BitVec 64 := resetDigest p + tget zeroAt s.wmk.diff p

/-- The sum over the pages that a scope register selects. -/
def State.digestSum (s : State) (sel : Nat → Bool) : BitVec 64 :=
  ((List.range 96).filter sel).foldl (fun x p => x + s.digestOf p) 0

def State.wAll (s : State) : BitVec 64 := s.digestSum fun _ => true
def State.wRing (s : State) : BitVec 64 := s.digestSum fun p => s.mapBit 0x70A0 p
def State.wGroup (s : State) : BitVec 64 := s.digestSum fun p => s.mapBit 0x70B0 p

/-! The rescan (R415). -/

/-- The value of a configuration-class word as the rescan sums it. -/
def State.scanTerm (s : State) (k : Nat) : BitVec 64 := wmkKey k * BitVec.ofNat 64 ((s.majW k).toNat &&& cfgMask k)

/-- STATUS[MISMATCH]. -/
def State.wmkStatus (s : State) : State :=
  s.putB R.WMK_S_MISMATCH ((s.n 0x70E0 ||| s.n 0x70E4 ||| s.n 0x70E8) != 0)

/-- The scan of the current page ends: the comparison, then the next page; after page 95 the pass ends. -/
def State.pageScanned (s : State) : State :=
  let w := s.wmk
  let p := w.page
  let bad := !w.skip && (w.bad || w.run != s.digestOf p)
  let s := { s with wmk := { w with
    scan := if w.skip then w.scan else tset zeroAt w.scan p w.run
    run := 0
    page := if p = 95 then 0 else p + 1
    pos := 0
    bad := false
    skip := false } }
  let s := if bad then ((s.setMap 0x70E0 p true).latch eWMK 0).wmkStatus else s
  if p = 95 then (s.addW R.WMK_RESCAN_PASSES_COUNT 1).latch eWMK 2 else s

/-- Skip what is left of the page and do not compare it. -/
def State.pageSkipped (s : State) : State :=
  ({ s with wmk := { s.wmk with skip := true } }.latch eWMK 3).pageScanned

/-- The first line of a tap image at or after key a. -/
def State.nextImageLine (s : State) (a : Nat) : Option Nat :=
  let from0 (set : Nat) : Option Nat :=
    let b := s.imageAt set
    if b < dramBase ∨ b + 16 * 2 ^ 20 ≤ a then none else some (max b (a / 64 * 64))
  match from0 0 with
  | some x => some x
  | none => from0 1

/-- A word that cannot be read adds nothing, its page counts as mismatched, and RESCAN_ADDR logs it (R415). -/
def State.scanBad (s : State) (a : Nat) : State :=
  (({ s with wmk := { s.wmk with bad := true } }.setN 0x70F8 a).setN 0x70FC (a / 2 ^ 32 % 256)).latch eWMK 1

/-- One line of an image: its words, or a mismatch where it cannot be corrected; a line that the access tables deny adds
nothing (11_memory_fabric R355). A read that waits at its regulator port or its channel is made when it comes again (12_dram R374, R382). -/
def State.scanLine (s : State) (a : Nat) : State :=
  let pass (s : State) : State := { s with wmk := { s.wmk with pos := a + 64 } }
  match s.dramMap a with
  | none => (pass s).errLog 0x42 a false 0 7
  | some (c, off) =>
    let (ok, s) := s.permit 0x42 4 a 64 false
    if !ok then pass s
    else if s.chanDo c != .serve || !s.portOpen 4 || s.writeWaits a then s
    else
      let q := ((pass s).portTake 4).dramLoad c off 0x42 a 64
      match q.1 with
      | some b => { q.2 with wmk := { q.2.wmk with run := b.zipIdx.foldl (fun x e => x + imageTerm (a + e.2) e.1) q.2.wmk.run } }
      | none => q.2.scanBad a

/-- Up to 16 words of the current page from the next key on that lie below key `top`. -/
def State.scanWords (s : State) (top : Nat) : List Nat :=
  ((pageWords s.wmk.page).filter fun k => decide (s.wmk.pos ≤ k) && decide (k < top)).take 16

/-- The rescan reads the SRAM where a block keeps a word, as master 0x42 (11_memory_fabric R355): the word is corrected or poisoned; none
where the access tables deny the read. -/
def State.scanRead (s : State) (a : Nat) : Option Bool × State :=
  let p := s.permit 0x42 (targetOf a) a 4 false
  if p.1 then
    let q := (wordsOf a 4).foldl (fun (r : Bool × State) w => let q := r.2.readWord 0x42 w; (r.1 && q.1, q.2)) (true, p.2.arbVisit 0x42 a 4)
    (some q.1, q.2)
  else (none, p.2)

/-- The rescan sums one word, of the SRAM or of a page; a word that the access tables deny adds nothing. -/
def State.scanWord (s : State) (k : Nat) : State :=
  let q := match s.wordAddr k with
    | none => (some true, s)
    | some a => s.scanRead a
  match q.1 with
  | some true => { q.2 with wmk := { q.2.wmk with run := q.2.wmk.run + q.2.scanTerm k } }
  | some false => q.2.scanBad k
  | none => q.2

/-- One read of the rescan. -/
def State.rescan (s : State) : State :=
  if !s.is R.WMK_C_RESCAN_EN || !s.pageOn eWMK then s
  else
    let p := s.wmk.page
    if (pageOfSrc p).isNone then s.pageScanned
    else if !s.pageOn p then s.pageSkipped
    else
      let im := if p = eCONV then s.nextImageLine s.wmk.pos else none
      match s.scanWords (im.getD (2 ^ 64)), im with
      | [], some a => if s.dramUsable then s.scanLine a else s.pageSkipped
      | [], none => s.pageScanned
      | l, _ =>
        let s := s.each l State.scanWord
        { s with wmk := { s.wmk with pos := (l.getLast?.getD 0) + 4 } }

/-- The ACTIVE words are settled (R414). -/
def State.wmkSettle (s : State) : State := if s.pageOn eWMK then s.putB R.WMK_S_SETTLED true else s

end Sys2Proof.Machine
end

