-- ==== Sys2Proof/Machine/Ring.lean ====
section
/-! DEFINITION. RING (13_apsal_systems R396–R411, R416): membership, remote access, events, the messages of steps and snapshots,
watermark reports, and the start of a bulk transfer. A delivered message is a command of its own (log entry 31). -/

namespace Sys2Proof.Machine

def State.modRing (s : State) (f : RingSt → RingSt) : State := { s with ring := f s.ring }

/-- The ring functions run (R419). -/
def State.ringOn (s : State) : Bool := s.pageOn eRING && s.is R.RING_C_EN

/-! Membership (R405). -/

/-- A heartbeat word shows a voting role in CONFIG or RUN. -/
def isMember (w : Nat) : Bool := decide (bits w 4 3 ≤ 1) && (decide (w % 8 = mConfig) || decide (w % 8 = mRun))

/-- MEMBERS and STATUS[WRAPPED] follow SEEN and the latest heartbeats. -/
def State.membersUpdate (s : State) : State :=
  let seen := s.get R.RING_SEEN_P
  let word (p : Nat) : Nat := tget zeroAt s.ring.hbw p
  let m := (List.range 32).foldl (fun m p => if bitOf seen p && isMember (word p) then m ||| 2 ^ p else m) 0
  let s := s.putB R.RING_S_WRAPPED ((List.range 32).any fun p => bitOf seen p && bitOf (word p) 6)
  if m = s.get R.RING_MEMBERS_P then s else (s.put R.RING_MEMBERS_P m).latch eRING 7

/-- HEARTBEAT (R396, R405). -/
def State.heartbeat (s : State) (p w : Nat) : State :=
  if !s.ringOn then s
  else
    let s := s.modRing fun r => { r with heard := r.heard ||| 2 ^ p, hbw := tset zeroAt r.hbw p w }
    ((s.setMap 0xC2084 p true)).membersUpdate

/-- At a boundary: positions whose heartbeat the latest frames did not deliver leave SEEN. -/
def State.seenBoundary (s : State) : State :=
  if !s.ringOn then s
  else ((s.put R.RING_SEEN_P (s.get R.RING_SEEN_P &&& s.ring.heard)).modRing fun r => { r with heard := 0 }).membersUpdate

/-! Events (R407). -/

/-- EVT_SUM at the manager. -/
def State.evtSum (s : State) (p v : Nat) : State :=
  if !s.ringOn || !s.isManager then s
  else
    let old := s.get (R.RING_REM_EVT_VEC.ix p)
    let s := (s.put (R.RING_REM_EVT_VEC.ix p) v).setMap 0xC2088 p (v != 0)
    if v ||| old = old then s else s.latch eRING 0

/-! Remote access (R406). -/

/-- Operations that return data. -/
def rraReads (op : Nat) : Bool := op = 0 || op = 2 || op = 4 || op = 5

/-- A remote access completes. -/
def State.rraFinish (s : State) (op resp data : Nat) : State :=
  let s := if rraReads op && decide (resp = 0) then s.set64 0xC20DC data else s
  let s := (s.putB R.RING_RRA_STATUS_BUSY false).put R.RING_RRA_STATUS_RESP resp
  (s.modRing fun r => { r with rra := none }).latch eRING 3

/-- An access to execute here, at once or behind another (R406). -/
def State.rraPut (s : State) (q : Rra) : State :=
  s.modRing fun r => if r.rraHere.isSome then { r with rraWait := r.rraWait ++ [q] } else { r with rraHere := some q }

/-- RRA_CTRL written with GO (a write while BUSY does not get here): completes at once where the position is not seen, is
is executed here where it is the own one, and otherwise waits for the next frame; BUSY until it ends. -/
def State.rraGo (s : State) (op : Nat) : State :=
  let q : Rra := ⟨s.ring.tag, s.get R.RING_RRA_DEV_DEVID, op, s.get64 0xC20D4 % 2 ^ 40, s.get64 0xC20DC, s.n 0xC20E4, s.slot, false⟩
  if q.dev = s.devid then (s.rraPut q).putB R.RING_RRA_STATUS_BUSY true
  else if !bitOf (s.get R.RING_SEEN_P) q.dev then s.rraFinish op 5 0
  else (s.modRing fun r => { r with rra := some q, tag := (r.tag + 1) % 256 }).putB R.RING_RRA_STATUS_BUSY true

/-- RRA_RSP. -/
def State.rraRsp (s : State) (tag resp data : Nat) : State :=
  match s.ring.rra with
  | some q => if s.ringOn && decide (q.tag = tag) then s.rraFinish q.op resp data else s
  | none => s

/-- The operation of an own access that has timed out and is still at its target: its response is dropped. -/
def opGone : Nat := 8

/-- The own access that is at hand: sent to another device, or to be executed here. -/
def State.rraOwn (s : State) : Option Rra :=
  s.ring.rra.orElse fun _ => (s.ring.rraHere.toList ++ s.ring.rraWait).find? fun q => !q.sent && q.op != opGone

/-- 16 sheets without a response (R406). -/
def State.rraTimeout (s : State) : State :=
  match s.rraOwn with
  | some q =>
    if s.slot < q.at0 + 16 then s
    else
      let s := s.modRing fun r => { r with
        rraHere := r.rraHere.map fun x => if x.sent then x else { x with op := opGone }
        rraWait := r.rraWait.filter fun x => x.sent }
      s.rraFinish q.op 4 0
  | none => s

/-! Steps and snapshots (R410, R411). -/

/-- STEP: D at the boundary "at sheet b". -/
def State.stepMsg (s : State) (d : Int) (b : Nat) : State :=
  if !s.ringOn || s.isManager || s.src != 4 || decide (b ≤ s.sheet) then s
  else s.addStep ⟨s.slot + (b - s.sheet), d, .ring⟩

/-- A ring snapshot becomes known: late where its HSI has passed. -/
def State.snapMsg (s : State) (h : Nat) : State :=
  if !s.ringOn then s
  else if s.ring.snap = some h ∨ s.ring.snapDone = some h then s
  else if h < s.hsiNow then s.latch eRING 5
  else s.modRing fun r => { r with snap := some h }

/-- SNAP_CMD[GO] on the manager. -/
def State.ringSnapGo (s : State) : State :=
  let h := s.get64 0xC20C0
  if !s.ringOn || !s.isManager then s
  else if h < s.hsiNow + 48 then s.latch eRING 5
  else s.modRing fun r => { r with snap := some h }

/-- The HSI of the ring snapshot. -/
def State.ringTrigger (s : State) : State :=
  match s.ring.snap with
  | some h =>
    if s.hsiNow < h then s
    else (s.modRing fun r => { r with snap := none, snapDone := some h }).recognise 4
  | none => s

/-! Watermark reports (R416). -/

/-- The capture at a boundary "at sheet 64k". -/
def State.wmkCapture (s : State) : State :=
  if !s.ringOn || !s.pageOn eWMK || s.sheet % 64 != 0 then s
  else
    let q : Report := ⟨s.devid, s.sheet / 64 % 2 ^ 32, s.n 0x7098 % 2 ^ 16, s.is R.WMK_S_SETTLED, s.n 0x709C, s.wRing, s.wGroup⟩
    s.modRing fun r => { r with report := some q, reportDue := true, reports := if q.settled then [q] else [] }

/-- The WMK group of a position. -/
def State.wmkGroup (s : State) (p : Nat) : Nat := bits (s.n (0xC20A8 + 4 * (p / 8))) (4 * (p % 8) + 3) (4 * (p % 8))

/-- One compared report: a match clears the position's bit, PERSIST consecutive differences set it. -/
def State.wmkJudge (s : State) (map key p : Nat) (same : Bool) : State :=
  let n := tget zeroAt s.ring.diffs (key + p) + 1
  let s := s.modRing fun r => { r with diffs := tset zeroAt r.diffs (key + p) (if same then 0 else n) }
  if same then s.setMap map p false
  else if clampN 1 15 (s.get R.RING_WMK_CFG_PERSIST) ≤ n then
    let s' := s.setMap map p true
    if s.mapBit map p then s' else s'.latch eRING 1
  else s

/-- The lowest DEVID of a position's group. -/
def State.groupHead (s : State) (p : Nat) : Option Nat := leastN 32 fun q => s.wmkGroup q = s.wmkGroup p && (s.mapBit 0xC2084 q || q = s.devid)

/-- Compare W_GROUP of a report with that of its group's lowest DEVID, where both are at hand. -/
def State.groupJudge (s : State) (q : Report) : State :=
  if s.wmkGroup q.pos = 0 ∨ !(s.mapBit 0xC2084 q.pos) then s
  else match s.groupHead q.pos with
    | some h => match s.ring.reports.find? fun x => x.pos == h with
      | some x => if h = q.pos then s else s.wmkJudge 0xC20A4 32 q.pos (q.wGroup = x.wGroup)
      | none => s
    | none => s

/-- WMK_REPORT at the manager: reports of the manager's k with SETTLED and its epoch are compared, each once, with the manager's own
only where that has SETTLED too. -/
def State.wmkReport (s : State) (q : Report) : State :=
  match s.ring.report with
  | some own =>
    if !s.ringOn || !s.isManager || !q.settled || decide (q.k ≠ own.k) || decide (q.tag ≠ own.tag) ||
        decide (q.epoch ≠ own.epoch) || s.ring.reports.any (fun x => x.pos == q.pos) then s
    else
      let s := s.modRing fun r => { r with reports := r.reports ++ [q] }
      let s := if own.settled && s.mapBit 0xC2080 q.pos then s.wmkJudge 0xC20A0 0 q.pos (q.wRing = own.wRing) else s
      if s.groupHead q.pos = some q.pos then s.each s.ring.reports fun s x => if s.wmkGroup x.pos = s.wmkGroup q.pos then s.groupJudge x else s
      else s.groupJudge q
  | none => s

/-! Bulk (R397). -/

/-- BLK_CTRL[GO]: ignored while a transfer runs. -/
def State.bulkGo (s : State) : State :=
  if s.ring.bulk.isSome then s
  else
    let q : BulkOut := ⟨s.get64 0xC20F0 % 2 ^ 40 / 16 * 16, s.get64 0xC20F8 % 2 ^ 40, s.get R.RING_BLK_DST_HI_DEV, s.n 0xC2100 % 2 ^ 24 / 16 * 16, 0⟩
    (s.modRing fun r => { r with bulk := some q }).putB R.RING_BLK_CTRL_BUSY true

/-- The last segment has left. -/
def State.bulkDone (s : State) : State :=
  match s.ring.bulk with
  | some q => if q.sent < q.len then s
    else ((s.modRing fun r => { r with bulk := none }).putB R.RING_BLK_CTRL_BUSY false).latch eRING 11
  | none => s

/-! Metadata (R404). -/

/-- The code for which a push is rejected (R189), FULL also where a manager's forwarding FIFO is full; 0: accepted. -/
def State.pushCode (s : State) (b : List Byte) : Nat :=
  let r := s.pushReason b
  if r = 0 ∧ s.ringOn ∧ s.role = 0 ∧ 1024 ≤ s.ring.fifo.length then 1 else r

/-- A push from master m: a record that a manager's OBJ accepts goes to the forwarding FIFO as well. -/
def State.inboxPush (s : State) (m : Nat) (b : List Byte) : State :=
  let c := s.pushCode b
  if c ≠ 0 then
    let s' := s.pushReject m b c
    if s.pushReason b = 0 then s'.latch eRING 2 else s'
  else
    let fwd := s.ringOn && s.role = 0
    let s := s.pushAccept b
    if fwd then s.modRing fun x => { x with fifo := x.fifo ++ [b] } else s


/-- A proof run, with its way back to SPARE (14_redundancy R440; 15_power_and_bringup R446). -/
def State.proofing (s : State) : Bool := s.is R.RED_S_PROOF_RUNNING || s.pwr.trans.any fun x => x.1 == mService && x.2.1 == mSpare

/-- The device stands by: SPARE, or a proof run (14_redundancy R436, R440). -/
def State.spareNow (s : State) : Bool := s.mode = mSpare || s.proofing

/-- The records of the slot's frame go to the inbox, as master 0x34 (R351), on a worker, and on a standby from its restore on (14_redundancy
R436). -/
def State.ringMeta (s : State) : State :=
  if !s.ringOn || !s.pageOn eOBJ || s.spareNow || !(s.role = 1 || (s.role = 2 && s.mode = mRun)) then s
  else
    let l := s.ring.recs
    (s.modRing fun r => { r with recs := [] }).each l fun s b => s.inboxPush 0x34 b

end Sys2Proof.Machine
end

