-- ==== Sys2Proof/Machine/ApsPort.lean ====
section
/-! DEFINITION. The Apsal ports (13_apsal_systems R390, R391, R401, R417): states, the lock to a manager, wraps. Port 0 is EAST
and port 1 is WEST. -/

namespace Sys2Proof.Machine

/-- What a port holds. -/
def apsNone : Nat → ApsPort := fun _ => ApsPort.reset
def State.port (s : State) (q : Nat) : ApsPort := tget apsNone s.ring.ports q
def State.setPort (s : State) (q : Nat) (x : ApsPort) : State := s.modRing fun r => { r with ports := tset apsNone r.ports q x }

/-- DOWN 0, ALIGNED 1, UP 2 (R390). -/
def portFld (q : Nat) : Fld := if q = 0 then R.APL_S_EAST_STATE else R.APL_S_WEST_STATE
def State.portState (s : State) (q : Nat) : Nat := s.get (portFld q)

/-- The wrap for a failed port. -/
def wrapFld (q : Nat) : Fld := if q = 0 then R.APL_S_WRAP_EAST else R.APL_S_WRAP_WEST
def State.wraps (s : State) (q : Nat) : Bool := s.is (wrapFld q)

/-- The port is enabled, and the device is not standalone (R70, R390). -/
def State.portEn (s : State) (q : Nat) : Bool := s.pageOn eAPL && s.role != 3 && bitOf (s.n 0xC0008) q

/-- Start or end a wrap: each latches WRAP (R401). -/
def State.setWrap (s : State) (q : Nat) (b : Bool) : State :=
  if s.wraps q = b then s else (s.putB (wrapFld q) b).latch eAPL 4

/-- The device wraps for a port that is not UP while the other is UP; with neither UP, no wrap is left (R401). -/
def State.wrapUpdate (s : State) : State :=
  let e := s.portState 0 = 2
  let w := s.portState 1 = 2
  if e && w then s
  else if e then (s.setWrap 0 false).setWrap 1 true
  else if w then (s.setWrap 1 false).setWrap 0 true
  else (s.setWrap 0 false).setWrap 1 false

/-- A port changes state: changes to and from UP latch (R417). -/
def State.putPortState (s : State) (q st : Nat) : State :=
  let o := s.portState q
  let s := s.put (portFld q) st
  let s := if o = 2 ∧ st ≠ 2 then s.latch eAPL (2 * q) else if o ≠ 2 ∧ st = 2 then s.latch eAPL (2 * q + 1) else s
  s.wrapUpdate

/-- RING_UP and ISOLATED, while the ring functions run (R419). -/
def State.ringStatus (s : State) : State :=
  let up := (List.range 2).any fun q => s.portState q != 0 && (s.port q).run != 0
  (s.putB R.RING_S_RING_UP up).putB R.RING_S_ISOLATED (s.ringOn && s.role != 3 && !up)

/-- A port goes DOWN (R390); with both DOWN, the lock to a manager is dropped (R391). -/
def State.portDown (s : State) (q : Nat) : State :=
  let s := (s.setPort q { s.port q with run := 0, up := 0 }).putPortState q 0
  let s := if s.portState 0 = 0 ∧ s.portState 1 = 0 then s.modRing fun r => { r with mgr := none } else s
  s.ringStatus

/-- Both lanes have block lock and alignment (R390). -/
def State.portAligned (s : State) (q : Nat) : State :=
  if s.portEn q ∧ s.portState q = 0 then ((s.setPort q { s.port q with run := 0, up := 0 }).putPortState q 1).ringStatus else s

/-- APL.CTRL written: a disabled port is DOWN. -/
def State.portsWritten (s : State) : State :=
  s.upto 2 fun s q => if s.portEn q ∨ s.portState q = 0 then s else s.portDown q

/-- 64 consecutive frames since the failed port came UP: the wrap ends at the boundary (R401). -/
def State.wrapEnd (s : State) (q : Nat) : State :=
  if s.wraps q ∧ s.portState q = 2 ∧ 64 ≤ (s.port q).up then s.setWrap q false else s

end Sys2Proof.Machine
end

