-- ==== Sys2Proof/Machine/Clock.lean ====
section
/-! DEFINITION. CLK (03_timebase R74–R81, R104–R108, R112): the PLLs, a PLL-B change, the clock outputs, SYNC_IN and
LOCK_F. -/

namespace Sys2Proof.Machine

def State.setClk (s : State) (f : ClkSt → ClkSt) : State := { s with clk := f s.clk }

/-- STATUS[SSC_ACTIVE]: PLL-B is locked and spread (R79, R112): centre with codes 1–5, down with codes 1–10;
with depth code 0 it is not spread (DESIGN CHOICE, log entry 174). -/
def State.sscStatus (s : State) : State :=
  let c := s.n 0x2088
  let m := bits c 5 4
  s.putB R.CLK_S_SSC_ACTIVE (s.is R.CLK_S_PLLB_LOCK && (m = 1 || m = 2) && bits c 11 8 != 0)

/-- REF_CLK_IN is lost (R75): a servo in REANCHOR_WAIT goes to HOLDOVER too, where R98 lets only ACTION end that state (DESIGN CHOICE,
log entry 140). -/
def State.refLossOp (s : State) : State := (s.status R.CLK_S_REF_LOSS true eCLK 4).holdover 5

/-- REF_CLK_IN is back (R75): from a holdover that only the clock caused, a free-running servo runs free again (DESIGN CHOICE, log
entry 116). -/
def State.refReturnOp (s : State) : State :=
  let s := s.putB R.CLK_S_REF_LOSS false
  if s.time.reason = 5 then s.freeReturn else s

/-- The effective band of a PLL (15_power_and_bringup R459): factory plus user, limited to the factory field's range. -/
def State.pllBand (s : State) : Pll → Nat
  | .a => (clampI 0 63 (s.get R.CAL_PLL_FUSE_BAND_A + s.getI R.CAL_PLL_USER_BAND_A)).toNat
  | .b => (clampI 0 63 (s.get R.CAL_PLL_FUSE_BAND_B + s.getI R.CAL_PLL_USER_BAND_B)).toNat

/-- The low time of LOCK_F, which cannot pull low before VDDIO is in tolerance (16_electrical R484) and stays low until the device runs
(R448). -/
def State.setLockF (s : State) (low : Nat) : State :=
  s.setClk fun c => { c with lockF := if !s.pwr.io then 0 else if s.pwr.off then 400 else low }

/-- PLL-A is locked, with its effective band. -/
def State.pllaLocked (s : State) : State := (s.putB R.CLK_S_PLLA_LOCK true).setClk fun c => { c with bandA := s.pllBand .a }

/-- PLL-B is locked, with its effective band. -/
def State.pllbLocked (s : State) : State := ((s.putB R.CLK_S_PLLB_LOCK true).setClk fun c => { c with bandB := s.pllBand .b }).sscStatus

/-- A PLL locks (R78, R112); after a failed change the bypass stays (R81). -/
def State.pllLockOp (s : State) (p : Pll) : State :=
  match p with
  | .a => s.pllaLocked
  | .b => if s.domOn 13 && s.clk.change.isNone then
      (if s.pllbFail then s else s.putB R.CLK_S_PLLB_BYPASS false).pllbLocked
    else s

/-- A PLL loses lock (R78): PLL-A to holdover where the reference is present; PLL-B latches outside a change (R112). -/
def State.pllUnlockOp (s : State) (p : Pll) : State :=
  match p with
  | .a =>
    let was := s.is R.CLK_S_PLLA_LOCK
    let s := (s.putB R.CLK_S_PLLA_LOCK false).setLockF 400
    let s := if was then s.latch eCLK 0 else s
    if s.is R.CLK_S_REF_LOSS then s else s.holdover 5
  | .b =>
    let was := s.is R.CLK_S_PLLB_LOCK
    let s := (s.putB R.CLK_S_PLLB_LOCK false).sscStatus
    if was && s.clk.change.isNone then s.latch eCLK 1 else s

/-- Start a PLL-B change with the settings now in PLLB_CFG (R81), those of a change that waited for a retrain too (R385; DESIGN CHOICE,
log entry 139). PLLB_ACTIVE shows them as written, a code out of range too (DESIGN CHOICE, log entry 118). -/
def State.pllbStart (s : State) : State :=
  let s := s.putB R.CLK_S_PLLB_BYPASS true
  let s := s.putB R.CLK_S_PLLB_LOCK false
  let s := s.put R.CLK_PLLB_ACTIVE_CFG (s.n 0x2084 % 4096)
  let s := s.sscStatus
  s.setClk fun c => { c with change := some s.slot, waiting := false }

/-- PLLB_CFG[APPLY] written (R81, R385): ignored during a change, and while PLL-B is off (DESIGN CHOICE, log entry 117); waits while a
channel retrains. -/
def State.pllbApplyOp (s : State) : State :=
  if s.clk.change.isSome ∨ s.clk.waiting ∨ s.domOn 13 = false then s
  else if (List.range s.dramN).any fun c => s.chanState c = chRetrain then s.setClk fun c => { c with waiting := true }
  else s.pllbStart

/-- A change that waited for a retrain starts once no channel retrains (R385). -/
def State.pllbResume (s : State) : State :=
  if s.clk.waiting && !(List.range s.dramN).any fun c => s.chanState c = chRetrain then s.pllbStart else s

/-- A channel enters self-refresh for a change (R385): owed refreshes first. -/
def State.selfRefreshOp (s : State) (c : Nat) : State :=
  if s.clk.change.isSome ∧ (s.chanState c = chOnline ∨ s.chanState c = chDegraded) then
    let s := s.forceDownTo c 0
    let ch := s.chan c
    let s := (s.setChan c { ch with banks := ch.banks.map fun b => { b with row := none } }).rowOpen c
    (s.setChanState c chSelfRefresh).usableUpdate
  else s

/-- PLL-B has locked with the new settings (R81, R385). -/
def State.pllbLockedOp (s : State) : State :=
  if s.clk.change.isNone then s
  else
    let s := s.upto s.dramN State.selfRefreshOp
    let s := { s.setClk fun c => { c with change := none } with pllbFail := false }
    let s := (s.putB R.CLK_S_PLLB_BYPASS false).pllbLocked
    let s := s.latch eCLK 2
    let s := s.upto s.dramN fun s c => if s.chanState c = chSelfRefresh then s.setChanState c chRetrain else s
    s.usableUpdate

/-- PLL-B has not locked 8 sheets after APPLY (R81). -/
def State.pllbFailOp (s : State) : State :=
  match s.clk.change with
  | some t =>
    if s.slot < t + 8 then s
    else
      let s := s.upto s.dramN State.selfRefreshOp
      let s := { s.setClk fun c => { c with change := none } with pllbFail := true }
      (s.latch eCLK 3).usableUpdate
  | none => s

/-- PLL-B starts as the DRAM domain powers up, with the settings in PLLB_CFG; a failed change is over (R112). -/
def State.pllbPowerUp (s : State) : State :=
  let s := { s.setClk fun c => { c with change := none, waiting := false } with pllbFail := false }
  (s.put R.CLK_PLLB_ACTIVE_CFG (s.n 0x2084 % 4096)).sscStatus

/-- PLL-B stops with the DRAM domain: no lock, no spread, the bypass, and no event (R112). -/
def State.pllbStop (s : State) : State :=
  let s := s.setClk fun c => { c with change := none, waiting := false }
  ((s.putB R.CLK_S_PLLB_LOCK false).putB R.CLK_S_PLLB_BYPASS true).sscStatus

/-! Clock outputs (R104–R107), in PLL-A cycles of device time. -/

/-- The index of an output and the address of its configuration. -/
def outIndex : ClockOut → Nat
  | .mclk n => n
  | .wclk n => 4 + n

def outCfg : ClockOut → Nat
  | .mclk n => 0x2090 + 4 * n
  | .wclk n => 0x20A0 + 4 * n

def State.clkOut (s : State) (o : ClockOut) : ClkOut := nth s.clk.outs (outIndex o) ⟨false, 0, 0, 0, 0, 0, 0, 0, false⟩

def State.setOut (s : State) (o : ClockOut) (x : ClkOut) : State := s.setClk fun c => { c with outs := c.outs.set (outIndex o) x }

/-- The PLL-A cycle that begins the current fabric cycle: 307,200 to a slot. -/
def State.pllaNow (s : State) : Nat := 307200 * s.slot + 4 * s.cyc

/-- The period of a waveform, and its high time (R104, R105). -/
def wavePeriod : ClockOut → Nat → Nat
  | .mclk _, f => 200 / 2 ^ f
  | .wclk _, f => if f = 0 then 51200 else if f = 1 then 25600 else 307200
def waveHigh (o : ClockOut) (f : Nat) : Nat :=
  match o with
  | .mclk _ => wavePeriod o f / 2
  | .wclk _ => if f = 2 then 51200 else wavePeriod o f / 2

/-- Cycles since the last rising edge of a waveform with a shift, at cycle t (R104, R105). -/
def sinceRise (period shift t : Nat) : Nat := (((t : Int) - (shift : Int)) % (period : Int)).toNat

/-- The first rising edge of a waveform at t or after. -/
def nextRise (period shift t : Nat) : Nat := t + (((shift : Int) - (t : Int)) % (period : Int)).toNat

/-- The start of the first low phase of a waveform at t or after. -/
def nextLow (period high shift t : Nat) : Nat := nextRise period (shift + high) t

/-- What an output drives. -/
inductive PinLevel where
  | low | high | highZ
  deriving DecidableEq, Repr

/-- The output's waveform is high at a cycle (R105). -/
def ClkOut.isHigh (o : ClockOut) (x : ClkOut) (t : Nat) : Bool :=
  decide (t < x.high) ||
    (x.run && decide (x.start ≤ t) && decide (sinceRise (wavePeriod o x.freq) x.shift t < waveHigh o x.freq))

/-- The output is in its disabled state at a cycle (R106). -/
def ClkOut.disabled (o : ClockOut) (x : ClkOut) (t : Nat) : Bool := !x.isHigh o t && (!x.run || decide (t < x.low))

/-- The level of an output at a cycle: the disabled state is low, or high impedance with DIS_Z (R106). -/
def State.clkLevel (s : State) (o : ClockOut) (t : Nat) : PinLevel :=
  let x := s.clkOut o
  if x.isHigh o t then .high else if x.disabled o t && bitOf (s.n (outCfg o)) 8 then .highZ else .low

/-- The level of MCLK_OUTn_N (16_electrical R472): high impedance in the LVCMOS formats, otherwise the complement of P; low until
software has changed the output's reset state. -/
def State.mclkNeg (s : State) (n : Fin 4) (t : Nat) : PinLevel :=
  let o : ClockOut := .mclk n
  let x := s.clkOut o
  let fmt := if x.disabled o t then bits (s.n (outCfg o)) 5 4 else x.fmt
  if !x.set then .low
  else if 2 ≤ fmt then .highZ
  else match s.clkLevel o t with
    | .high => .low
    | .low => .high
    | .highZ => .highZ

/-- Software has written the configuration of MCLK_OUTn. -/
def State.mclkSet (s : State) (n : Nat) : State :=
  s.setClk fun c => { c with outs := c.outs.zipIdx.map fun x => if x.2 = n then { x.1 with set := true } else x.1 }

/-- The end of the high phase that an output is in at a cycle; the cycle itself where it is low. -/
def ClkOut.highEnd (o : ClockOut) (x : ClkOut) (t : Nat) : Nat :=
  if t < x.high then x.high
  else if x.isHigh o t then nextLow (wavePeriod o x.freq) (waveHigh o x.freq) x.shift t
  else t

/-- The start of the low time in which an output is, or will be after its high phase. -/
def ClkOut.lowSince (o : ClockOut) (x : ClkOut) (t : Nat) : Nat :=
  if x.isHigh o t then x.highEnd o t
  else if x.run && decide (x.start ≤ t) then
    t - (sinceRise (wavePeriod o x.freq) x.shift t - waveHigh o x.freq)
  else x.high

/-- The effective MCLK output delay in ps (R104, R459): factory plus user, limited to the field's range. -/
def State.mclkDelay (s : State) (o : ClockOut) : Int :=
  match o with
  | .mclk n => clampI (-32768) 32767 (s.getI (R.CAL_MCLK_FUSE_DLY.ix n) + s.getI (R.CAL_MCLK_USER_DLY.ix n))
  | .wclk _ => 0

/-- When the rising edge that belongs to the house-sample boundary leaves the ball, in ps after the boundary (R104): SYNC_OFS, then the
delay of the output. A PLL-A cycle is 1,000,000 / 2457.6 ps. -/
def ClkOut.edgePs (x : ClkOut) : Rat := (x.shift : Rat) * 10000000 / 24576 + x.dly

/-- The format suits the supply of the bank that the device senses (16_electrical R478): LVCMOS 1.8 V and 3.3 V of an MCLK need their own
VDDM; otherwise the output stays disabled. -/
def fmtOk (o : ClockOut) (fmt : Nat) : Bool :=
  match o with
  | .mclk _ => decide (fmt < 2) || (fmt == 3) == Config.vddm33
  | .wclk _ => true

/-- An enabled output starts: from the start of the next low phase of the selected waveform, its first edge is a full rising edge
(R106). -/
def State.clkEnableOp (s : State) (o : ClockOut) : State :=
  let c := s.n (outCfg o)
  let f := bits c 2 1
  let x := s.clkOut o
  if bitOf c 0 && f != 3 && fmtOk o (bits c 5 4) && !x.run then
    let sh := s.get R.CLK_SYNC_OFS_OFS
    let lo := nextLow (wavePeriod o f) (waveHigh o f) sh (max s.pllaNow x.high)
    s.setOut o ⟨true, f, bits c 5 4, s.mclkDelay o, sh, x.high, lo, nextRise (wavePeriod o f) sh lo, x.set⟩
  else s

/-- A disabled output, or one whose FREQ changed, finishes its high phase and takes its disabled state (R106). -/
def State.clkDisableOp (s : State) (o : ClockOut) : State :=
  let c := s.n (outCfg o)
  let x := s.clkOut o
  if x.run && (!bitOf c 0 || bits c 2 1 != x.freq) then s.setOut o { x with run := false, high := x.highEnd o s.pllaNow }
  else s

/-- An output meets a re-phase (R107): within one PLL-A cycle of the new phase it does not change; otherwise it finishes its high
phase, holds low, and restarts at the first new rising edge, not before `first`, that leaves at least half a period of low time. -/
def ClkOut.rephased (o : ClockOut) (x : ClkOut) (now first shift : Nat) : ClkOut :=
  let p := wavePeriod o x.freq
  let off := sinceRise p x.shift shift
  if !x.run || decide (off ≤ 1) || off = p - 1 then x
  else { x with shift := shift, high := x.highEnd o now, start := nextRise p shift (max first (x.lowSince o now + p / 2)) }

/-- The clock outputs. -/
def clockOuts : List ClockOut := [.mclk 0, .mclk 1, .mclk 2, .mclk 3, .wclk 0, .wclk 1, .wclk 2, .wclk 3]

/-- STATUS[SYNC_ARMED] (R112): SYNC_IN can re-phase. -/
def State.syncArmed (s : State) : State :=
  s.putB R.CLK_S_SYNC_ARMED (s.get R.CLK_SYNC_CTRL_MODE = 1 && (s.is R.CLK_SYNC_CTRL_ARM || s.is R.CLK_SYNC_CTRL_CONT))

/-- The outputs are re-phased to a shift in PLL-A cycles; the first new edges come at cycle `first` or later (R107). -/
def State.rephase (s : State) (first shift : Nat) : State :=
  let s := s.each clockOuts fun s o => s.setOut o ((s.clkOut o).rephased o s.pllaNow first shift)
  (((s.put R.CLK_SYNC_OFS_OFS shift).putB R.CLK_SYNC_CTRL_ARM false).latch eCLK 5).syncArmed

/-- A rising edge on SYNC_IN in the current fabric cycle (R107): the new edges fall 16 fabric cycles later; those of the 8 kHz waveform
where R105 places them with the new shift, modulo 51,200 cycles (DESIGN CHOICE, log entry 141). `k` says where, from one
PLL-A cycle before the earliest point of that fabric cycle to one after its last: the edge's place within its cycle, ± 1. An edge less
than 2 sheets after the last accepted one is ignored (16_electrical R480). -/
def State.syncInOp (s : State) (k : Nat) : State :=
  if s.get R.CLK_SYNC_CTRL_MODE = 1 ∧ (s.is R.CLK_SYNC_CTRL_ARM ∨ s.is R.CLK_SYNC_CTRL_CONT) ∧
      s.clk.syncAt.all (fun t => decide (t + usCyc 250 ≤ s.absCyc)) then
    let first := s.pllaNow + 64 + k - 1
    (s.rephase first (first % 51200)).setClk fun c => { c with syncAt := some s.absCyc }
  else s

/-- A PTP second in mode 2: back to the house grid (R107), at every one while MODE stays 2 (DESIGN CHOICE, log entry 177). -/
def State.syncSecondOp (s : State) : State :=
  if s.get R.CLK_SYNC_CTRL_MODE = 2 ∧ s.hsiNow % 48000 = 0 then s.rephase s.pllaNow 0 else s

/-- LOCK_F's low time in its next window, in fabric cycles (R108). -/
def State.lockFOp (s : State) (err : BitVec 16) : State :=
  let s := s.setN 0x2080 err.toNat
  let fs : Nat := match s.get R.CLK_LOCKF_CFG_FS with | 0 => 250 | 1 => 1000 | 2 => 4000 | _ => 16000
  let low := min 400 (rndDiv (400 * err.toInt.natAbs) fs).toNat
  s.setLockF (if s.is R.CLK_LOCKF_CFG_EN && s.is R.CLK_S_PLLA_LOCK then low else 400)

end Sys2Proof.Machine
end

