-- ==== Sys2Proof/Machine/Red.lean ====
section
/-! DEFINITION. RED (14_redundancy R424–R430): who opens the media gate, fault causes, fencing, grants and the manager's
arbitration. -/

namespace Sys2Proof.Machine

def State.modRed (s : State) (f : RedSt → RedSt) : State := { s with red := f s.red }

/-- The redundancy functions run (R441). -/
def State.redOn (s : State) : Bool := s.is R.RED_C_EN

/-- ARB_CFG[MODE]: 3 acts as 0 (R442). -/
def State.arbMode (s : State) : Nat := let m := (s.majW 0xD0080).toNat % 4; if m = 3 then 0 else m

/-- The right to transmit (R424): in RUN for an unpaired device that is not strapped as spare; by grant or pin, and not
fenced, in the other modes. -/
def State.hasRight (s : State) : Bool :=
  if s.arbMode = 0 then s.get R.SYS_STRAPS_ROLE != 2
  else s.is R.RED_S_GRANT && !s.is R.RED_S_FENCED && (s.arbMode = 1 || s.red.arb)

/-- The gate may be open in this mode with this right (R424, R445). -/
def State.gateMay (s : State) : Bool :=
  s.hasRight && (s.mode = mRun || (s.arbMode != 0 && (s.mode = mSpare || (s.mode = mService && s.proofing))))

/-- An opening of the gate: at this boundary, or at the next one where the boundary has passed. -/
def State.gateOpenNow (s : State) : State :=
  if !s.gateMay then s
  else if s.cyc = 0 then s.gateOpenReq.gateBoundary
  else s.gateOpenReq

/-! Fencing (R427) and fault causes (R429). -/

/-- Fence a holder. -/
def State.fence (s : State) : State :=
  if !s.is R.RED_S_GRANT then s
  else
    let s := (s.gateClose.putB R.RED_S_GRANT false).status R.RED_S_FENCED true eRED 1
    s.modRed fun r => { r with grantAt := none, loseAt := none }

/-- FAULT_CAUSE: WDOG, SRAM_UE and HOST are held, the others follow their cause. -/
def State.causes (s : State) : Nat :=
  (s.get R.RED_FAULT_CAUSE_CAUSE &&& 0x49) ||| b2n (!s.is R.CLK_S_PLLA_LOCK) * 2 |||
    b2n (s.red.late.any fun e => decide (8 ≤ e.2)) * 4 ||| b2n (s.is R.PWR_S_LOW_SUPPLY) * 16 ||| b2n s.pwr.above * 32

/-- Causes have changed: an enabled cause that becomes active latches FAULT and, but for HOST, fences a holder. -/
def State.faultUpdate (s : State) : State :=
  let c := s.causes
  let s := s.put R.RED_FAULT_CAUSE_CAUSE c
  let act := if s.redOn then c &&& (s.majW 0xD00AC).toNat % 128 else 0
  let fresh := (List.range 7).filter fun i => bitOf act i && !bitOf s.red.shown i
  let s := s.modRed fun r => { r with shown := act }
  if fresh.isEmpty then s
  else
    let s := s.latch eRED 2
    if (fresh.any fun i => i != 6) && s.arbMode != 0 then s.fence else s

/-- A held cause becomes active, or ends. -/
def State.raiseCause (s : State) (i : Nat) : State := (s.orW 0xD00B0 (2 ^ i)).faultUpdate
def State.dropCause (s : State) (i : Nat) : State := (s.clrW 0xD00B0 (2 ^ i)).faultUpdate

/-- LATE follows the sheet that each context has taken at the send cut-off of the slot: how many before it, without a gap, were late
(R429). -/
def State.lateRuns (s : State) : State :=
  let runs := s.tx.foldl (fun l e => tset zeroAt l e.1 (if e.2.late.contains s.slot then tget zeroAt s.red.late e.1 + 1 else 0)) []
  (s.modRed fun r => { r with late := runs }).faultUpdate

/-- WDOG_KICK[KICK]. -/
def State.wdogKick (s : State) : State := (s.modRed fun r => { r with kick := s.absCyc }).dropCause 0

/-- The watchdog has not been kicked for its time (R429, R452). -/
def State.wdogExpire (s : State) : State :=
  let ms := s.get R.RED_WDOG_CFG_MS
  if !s.redOn || ms = 0 || decide (s.absCyc < s.red.kick + ms * 8 * sheetCycles) || bitOf (s.get R.RED_FAULT_CAUSE_CAUSE) 0 then s
  else
    let s := if s.is R.PWR_RST_CFG_WDOG_RST then { s with pwr := { s.pwr with wdogAt := some s.slot } } else s
    s.raiseCause 0

/-- MANAGER_HEARTBEAT_CHECK: a holder counts slots without a heartbeat of the manager and fences at the sixth (R427). -/
def State.managerCheck (s : State) : State :=
  if !s.redOn || !s.is R.RED_S_GRANT || !(s.arbMode = 1 || (s.arbMode = 2 && bitOf (s.majW 0xD0080).toNat 4)) then s
  else if s.ring.mgr.any fun m => bitOf s.ring.heard m then s.put R.RED_MISS_CNT_MISSES 0
  else
    let n := min 7 (s.get R.RED_MISS_CNT_MISSES + 1)
    let s := s.put R.RED_MISS_CNT_MISSES n
    if n = 6 then s.fence else s

/-! Grants (R426). -/

/-- GRANT as a device receives it. -/
def State.grantMsg (s : State) (holder partner : Nat) (nobody : Bool) (g : Nat) : State :=
  if !s.redOn || s.arbMode != 1 then s
  else if !nobody ∧ holder = s.devid then
    if s.is R.RED_S_GRANT ∨ s.red.lastG = some g ∨ s.red.grantAt.isSome then s
    else s.modRed fun r => { r with grantAt := some g }
  else if (nobody ∧ (holder = s.devid ∨ partner = s.devid)) ∨ (!nobody ∧ holder = s.get R.RED_PARTNER_DEVID) then
    if bitOf (s.get R.RED_FAULT_CAUSE_CAUSE) 6 && s.is R.RED_S_GRANT && !nobody then
      s.modRed fun r => { r with loseAt := some g }
    else (s.modRed fun r => { r with grantAt := none }).fence
  else s

/-- The boundary "at sheet G" of a grant, and of one that ends a planned takeover. -/
def State.grantBoundary (s : State) : State :=
  let s := match s.red.loseAt with
    | some g => if g ≤ s.sheet then s.fence.dropCause 6 else s
    | none => s
  match s.red.grantAt with
  | some g =>
    if s.sheet < g then s
    else
      let s := s.modRed fun r => { r with grantAt := none, lastG := some g, grantWait := s.pwr.trans.isSome }
      let s := ((s.putB R.RED_S_GRANT true).putB R.RED_S_FENCED false).latch eRED 0
      let s := ((s.setN 0xD00E0 (s.sheet % 2 ^ 32)).put R.RED_MISS_CNT_MISSES 0).clrW 0xD00B0 0x48
      let s := s.faultUpdate
      if bits s.red.shown 5 0 ≠ 0 then s.fence else if s.mode = mRun then s.gateOpenNow else s
  | none => s

/-- ARB_GRANT_N (R428). -/
def State.arbAssert (s : State) : State :=
  let s := s.modRed fun r => { r with arb := true }
  if s.arbMode = 2 ∧ s.is R.RED_S_GRANT = false then s.modRed fun r => { r with grantAt := some (s.sheet + 1) } else s

def State.arbDeassert (s : State) : State :=
  let s := s.modRed fun r => { r with arb := false }
  if s.arbMode = 2 then
    (s.gateClose.putB R.RED_S_GRANT false).modRed fun r => { r with grantAt := none }
  else s

/-- ARB_CFG has selected another arbiter: a grant of the last one ends, an asserted ARB_GRANT_N grants at the next boundary (R424, R428),
and the gate follows. -/
def State.arbModeWritten (s : State) (old : Nat) : State :=
  let was := if old % 4 = 3 then 0 else old % 4
  let s := if s.arbMode = was then s
    else
      let s := s.putB R.RED_S_GRANT false
      s.modRed fun r => { r with grantAt := if s.arbMode = 2 ∧ r.arb = true then some (s.sheet + 1) else none, loseAt := none }
  if !s.gateMay then s.gateClose else if s.is R.TXS0_S_GATE_OPEN then s else s.gateOpenReq

/-- ARB_HB at a boundary (R428). -/
def State.arbHeart (s : State) : State :=
  if s.get R.RED_FAULT_CAUSE_CAUSE = 0 ∧ (s.mode = mRun ∨ s.mode = mSpare) then s.modRed fun r => { r with arbHb := !r.arbHb } else s

/-! The manager's arbitration (R425, R426). -/

def State.pairOn (s : State) (p : Nat) : Bool := s.is (R.RED_PAIR_EN.ix p)
def State.pairPartner (s : State) (p : Nat) : Nat := s.get (R.RED_PAIR_PARTNER.ix p)

/-- What is announced for the pair of worker position p. -/
def State.grantOf (s : State) (p : Nat) : Option Grant := tget (fun _ => none) s.red.grants p

def State.putGrant (s : State) (p : Nat) (g : Grant) : State :=
  s.modRed fun r => { r with grants := tset (fun _ => none) r.grants p (some g), miss := tset zeroAt r.miss p 0 }

/-- A standby may be granted: heard within 64 sheets, with PROOF_OK. -/
def State.standbyOk (s : State) (d : Nat) : Bool :=
  match tget (fun _ => none) s.red.standbys d with
  | some x => bitOf x.flags 1 && decide (s.slot < x.slot + 64)
  | none => false

/-- The manager declares the holder of pair p failed. -/
def State.declare (s : State) (p holder : Nat) : State :=
  let st := if holder = p then s.pairPartner p else p
  let s := s.latch eRED 12
  if s.standbyOk st then (s.put (R.RED_PAIR_STATE.ix p) 1).putGrant p ⟨st, holder, false, s.sheet + 3, s.slot⟩
  else ((s.put (R.RED_PAIR_STATE.ix p) 3).latch eRED 13).putGrant p ⟨holder, st, true, s.sheet + 3, s.slot⟩

/-- The first grant of a pair: three sheets after the strapped worker is first heard in RUN. -/
def State.firstGrant (s : State) (p : Nat) : State :=
  if bitOf s.ring.heard p && decide (tget zeroAt s.ring.hbw p % 8 = mRun) then
    ((s.put (R.RED_PAIR_HOLDER.ix p) p).put (R.RED_PAIR_STATE.ix p) 0).putGrant p ⟨p, s.pairPartner p, false, s.sheet + 3, s.slot⟩
  else s

/-- HEARTBEAT_CHECK at the manager. -/
def State.heartbeatCheck (s : State) : State :=
  if !s.redOn || !s.ringOn || !s.isManager then s
  else s.upto 32 fun s p =>
    if !s.pairOn p then s
    else match s.grantOf p with
      | none => s.firstGrant p
      | some g =>
        if g.none || decide (s.sheet < g.sheet) then s
        else if bitOf s.ring.heard g.holder then s.modRed fun r => { r with miss := tset zeroAt r.miss p 0 }
        else
          let n := tget zeroAt s.red.miss p + 1
          let s := s.modRed fun r => { r with miss := tset zeroAt r.miss p n }
          if n = 4 then s.declare p g.holder else s

/-- FAULT from a holder. -/
def State.faultMsg (s : State) (pos : Nat) : State :=
  if !s.redOn || !s.ringOn || !s.isManager then s
  else s.upto 32 fun s p =>
    match s.grantOf p with
    | some g => if s.pairOn p && !g.none && g.holder = pos && decide (g.sheet ≤ s.sheet) then s.declare p pos else s
    | none => s

/-- STANDBY_STATE at the manager. -/
def State.standbyMsg (s : State) (pos flags seq sheet : Nat) : State :=
  if !s.redOn || !s.ringOn || !s.isManager then s
  else s.modRed fun r => { r with standbys := tset (fun _ => none) r.standbys pos (some ⟨flags, seq, sheet, s.slot⟩) }

/-- A pair's grant takes effect: HOLDER, and STATE of a takeover. -/
def State.pairBoundary (s : State) : State :=
  s.each s.red.grants fun s e =>
    match e.2 with
    | some g =>
      if g.sheet ≤ s.sheet ∧ g.none = false then
        let s := s.put (R.RED_PAIR_HOLDER.ix e.1) g.holder
        if s.get (R.RED_PAIR_STATE.ix e.1) = 1 then s.put (R.RED_PAIR_STATE.ix e.1) 2 else s
      else s
    | none => s

/-- The GRANT messages of the frame that the manager launches at this boundary (R425): at the two boundaries after the
declaration, then every 64 sheets. -/
def State.grantsNow (s : State) : List Grant :=
  (s.red.grants.filterMap fun e => e.2).filter fun g =>
    g.slot + 1 = s.slot || g.slot + 2 = s.slot || (decide (g.slot + 2 < s.slot) && (s.slot - (g.slot + 2)) % 64 = 0)

end Sys2Proof.Machine
end

