-- ==== Sys2Proof/Machine/Power.lean ====
section
/-! DEFINITION. Power domains, modes, resets, temperature and supplies (15_power_and_bringup R443–R453, R473). The domain
changes of a transition follow one another from its request to its end (log entry 33). -/

namespace Sys2Proof.Machine

def State.modPwr (s : State) (f : PwrSt → PwrSt) : State := { s with pwr := f s.pwr }

/-- Domain masks (R443, R445). -/
def allDoms : Nat := 0x3FFF
def renderDoms : Nat := 0x1FC0
def modeDoms (m : Nat) : Nat :=
  if m = mStandby then 3 else if m = mConfig ∨ m = mRun ∨ m = mService then allDoms else if m = mSpare then 0x203F else 0

/-! A domain starts as after reset (R444, R453). -/

/-- A word of a domain's pages returns to its reset value, or keeps its configuration-class bits, as the majority of their copies
(R58). -/
def State.resetW (s : State) (keep : Bool) (k : Nat) : State :=
  let m := if keep then cfgMask k else 0
  let v := w32 (((s.majW k).toNat &&& m) ||| ((resetWord k).toNat &&& (2 ^ 32 - 1 - m)))
  { s.setW k v with tmrA := tset zeroAt s.tmrA k 0, tmrB := tset zeroAt s.tmrB k 0 }

/-- Every word of the pages for which p holds. -/
def State.resetPages (s : State) (keep : Bool) (p : Nat → Bool) : State :=
  let s := s.each ((s.words.map fun e => e.1).filter fun k => p (keySrc k)) fun s k => s.resetW keep k
  { s with
    tmrA := tdrop (fun k => p (keySrc k)) s.tmrA
    tmrB := tdrop (fun k => p (keySrc k)) s.tmrB
    frozen := tdrop (fun k => p (keySrc k)) s.frozen
    pairs := s.pairs.filter fun t => !p t.page }

/-- The domain that holds the samples of an audio node. -/
def audioDom (k : Nat) : Nat :=
  let cls := k / 2 ^ 80
  if cls = aInput ∨ cls = aRaw ∨ cls = aDc then 6
  else if cls = aLine then 7 + k / 2 ^ 64 % 65536 / 256
  else 11

/-- Drop a domain's samples; forwarded sheets lie in the pool as the ring wrote them (R435), and CONV's rings lie in its area of the SRAM
(09_room_correction R291). -/
def State.dropDomAudio (s : State) (d : Nat) : State :=
  { s with audio := tdrop (fun k => audioDom k == d && !(k / 2 ^ 80 == aSend) &&
      !(k / 2 ^ 80 == aInput && s.isWorker && s.forwarded 1 (k / 2 ^ 64 % 65536))) s.audio }

/-- CONV at a reset of its domain (R293): set states, derived data and digests stay, and what lies in its area of the SRAM (R291); a load
fails, a fade ends. -/
def State.convReset (s : State) : State :=
  let st := s.n 0x80090
  let dig := (List.range 4).map fun i => s.n (0x800B0 + 4 * i)
  let loading := (List.range 2).filter fun set => s.setState set = csLoading
  let s := s.resetPages false fun p => p = eCONV
  let s := (s.setN 0x80090 st).putB R.CONV_SET_STATE_FADING_A false
  let s := s.putB R.CONV_SET_STATE_FADING_B false
  let s := s.each dig.zipIdx fun s x => s.setN (0x800B0 + 4 * x.2) x.1
  let s := s.each loading fun s set => (s.putSetState set csFailed).put R.CONV_LOAD_STATUS_REASON 6
  { s with conv := { s.conv with wins := [], fade := none, load := none } }

/-- The OUT domain powers up with retention: the configuration stays, the set in force is the one that the ACTIVE bank names, and EN comes
back as a cold start (R301, R444). -/
def State.convRetained (s : State) : State :=
  let s' := s.convReset
  let s' := s'.each ((s.words.map fun e => e.1).filter fun k => keySrc k = eCONV && k != 0x80090 && cfgMask k != 0)
    fun s' k => s'.setN k (((s'.n k) &&& (2 ^ 32 - 1 - cfgMask k)) ||| ((s.n k) &&& cfgMask k))
  let s' := s'.put R.CONV_SET_CTRL_ACTIVE (s'.n 0x4000080080 % 2)
  if s'.is R.CONV_C_EN then s'.convCold else s'

/-- CONV's sets after an initialisation of the SRAM: EMPTY, without digests (R293). -/
def State.convForget (s : State) : State := (((s.convEmpty 0).convEmpty 1).putDigest 0 0).putDigest 1 0

/-- MIX and OUT after reset (R272); with the configuration kept, the readings of the ACTIVE bank are at full weight and the schedule in
force stays (R245, R246, R249). -/
def State.outStart (s : State) (keep : Bool) : State :=
  let s := (if keep then s.convRetained else s.convReset).lostUpdate.convDram
  if keep then s.routeReadings fun _ => none else s

/-- The hidden state of a domain's blocks. -/
def State.resetBlock (s : State) (d : Nat) : State :=
  let macs (a b : Nat) : List MacSt := s.macs.zipIdx.map fun x => if x.2 = a ∨ x.2 = b then MacSt.reset else x.1
  if d = 1 then { s with boot := BootSt.reset, passed := s.passed.filter (· != 2) }
  else if d = 2 then { s with macs := macs 0 1, rx := [], tx := [], gateNext := false, txZero := 0 }
  else if d = 3 then { s with macs := macs 2 3 }
  else if d = 4 then { s with ring := RingSt.reset, fwdTerm := [], fwdTermAct := [] }
  else if d = 5 then { s with
    objs := [], lineHist := [], objMoved := [], objEras := [], swapSlot := none, press := none, askRing := none, vote := none,
    verdict := none, mix := { s.mix with tauTest := 0 }, dump := none, lock := none, waiting := [], passed := [], reads := [], pads := [], padHist := [],
    wmk := { s.wmk with scan := [], run := 0, page := 0, pos := 0, bad := false, skip := false } }
  else if d = 6 then { s.dropDomAudio 6 with
    dc := [], dcClr := [], icbN := 0, firFrom := [], firXf := [],
    rx := s.rx.filter fun e => rSync (s.rxRec e.1 1), stages := tdrop (fun k => k == 0) s.stages }
  else if 7 ≤ d ∧ d ≤ 10 then
    let c := d - 7
    let mine (k : Nat) : Bool := k / 256 == c
    { s.dropDomAudio d with
      lineFrom := tdrop mine s.lineFrom, pfSt := tdrop mine s.pfSt, airW := tdrop mine s.airW, airR := tdrop mine s.airR,
      partials := tdrop (fun k => k % 32 / 8 == c) s.partials,
      knots := tdrop (fun k => oVat (s.objRec 1 (k / 2 ^ 64)) / 8 == c) s.knots,
      stages := tdrop (fun k => k == 1 + c || (decide (8 + 8 * c ≤ k) && decide (k < 16 + 8 * c))) s.stages }
  else if d = 11 then { s.dropDomAudio 11 with mix := { MixSt.reset with tauTest := s.mix.tauTest }, outs := OutSt.reset, stages := tdrop (fun k => decide (40 ≤ k)) s.stages }
  else if d = 12 then { s with ies := [], passed := s.passed.filter (· < 0x38) }
  else if d = 13 then { s with chans := List.replicate 4 ChanSt.reset, passed := [], clk := { s.clk with change := none, waiting := false } }
  else s

/-- The effective cursors of a SerDes lane (R459): factory plus user, each limited to the factory field's range. -/
def State.laneCursors (s : State) (l : Nat) : Word :=
  let c (a b : Fld) : Nat := (clampI 0 63 (s.get (a.ix l) + s.getI (b.ix l))).toNat
  w32 (c R.CAL_SD_FUSE_PRE R.CAL_SD_USER_PRE + c R.CAL_SD_FUSE_MAIN R.CAL_SD_USER_MAIN * 2 ^ 8 + c R.CAL_SD_FUSE_POST R.CAL_SD_USER_POST * 2 ^ 16)

/-- SerDes lanes restart and take their effective cursors (R459). -/
def State.lanesStart (s : State) (l : List Nat) : State :=
  s.each l fun s l => s.modPwr fun p => { p with lanes := tset (fun _ => 0) p.lanes l (s.laneCursors l) }

/-- The lanes of a domain (R459): its Ethernet ports, the Apsal ports, PCIe. -/
def lanesOf (d : Nat) : List Nat :=
  match d with
  | 1 => [8, 9, 10, 11]
  | 4 => [4, 5, 6, 7]
  | d => portsOf d

/-- The ports and lanes of a domain start. -/
def State.portsStart (s : State) (d : Nat) : State := (s.each (portsOf d) State.pcsStart).lanesStart (lanesOf d)

/-- TXS stops: no context has late sheets (14_redundancy R429). -/
def State.txStops (s : State) : State := (s.modRed fun r => { r with late := [] }).faultUpdate

/-- RXS starts: ACT shows the contexts that the ACTIVE bank enables (04_network R156), whose ratio loops are idle (05_input_conditioning
R172). -/
def State.rxStart (s : State) : State :=
  let s := s.upto 256 fun s c => s.setMap 0x21080 c (rEn (s.rxRec c 1))
  s.each ((List.range 256).filter fun c => s.loopState c != 0) fun s c => s.enterLoop c 0

/-- A domain starts: its pages at reset values but for what is retained, its blocks as after reset; the legs on its ports go down
(R141), and the ratio loops of contexts that no longer run are idle (05_input_conditioning R172). -/
def State.startDomain (s : State) (keep : Bool) (d : Nat) : State :=
  let s := s.each (portsOf d) fun s p => s.portLegsDown p
  let s := (s.resetBlock d).resetPages keep fun p => domainOf p = d && p != eCONV && p < 96
  let s := s.portsStart d
  let s := if d = 2 then s.txStops.rxStart else s
  if d = 11 then s.outStart keep
  else if d = 13 then s.popSize.portsFull
  else if d = 5 then s.put R.MOULD0_SET_CTRL_ACTIVE (s.n 0x4000068080 % 2)
  else s

/-- Enabled transmit contexts take new anchors when TXS starts with retained records. -/
def State.txStart (s : State) : State :=
  s.each ((List.range 128).filter fun t => tEn (s.txRec t 1)) fun s t => s.txCommit t (List.replicate 32 0) (s.txRec t 1)

/-- Channels that were in self-refresh exit it and retrain; without retention they start OFF (R444). -/
def State.dramStart (s : State) : State :=
  let s := s.pllbPowerUp
  let m := s.pwr.selfRef
  let s := s.upto 4 fun s c => if bitOf m c then s.setChanState c chRetrain else s
  (s.modPwr fun p => { p with selfRef := 0 }).usableUpdate.convDram

/-- A domain that is off completes its power-up. -/
def State.domUp (s : State) (d : Nat) : State :=
  if bitOf (s.get R.PWR_DOM_ON_ON) d then s
  else
    let keep := bitOf s.pwr.retained d
    let s := s.startDomain keep d
    let s := if d ≠ 5 then s else if keep then s.poisonCount else s.sramInit.convForget
    let s := { s.setMap 0x1088 d true with pwr := { s.pwr with retained := s.pwr.retained &&& (allDoms - 2 ^ d) } }
    if d = 2 then s.txStart else if d = 13 then s.dramStart else if d = 11 then s.convDram else s

/-- FAB stops, with its dump and checkpoint engines: no dump and no checkpoint goes on (DUMP_BUSY and CKPT_BUSY lie in AON and follow,
R46), and no lock is held. -/
def State.fabStops (s : State) : State :=
  { (s.putB R.SNAP_S_DUMP_BUSY false).putB R.RED_S_CKPT_BUSY false with
    dump := none, lock := none, red := { s.red with ckpt := none, ckptIn := none } }

/-- The DRAM contents are lost: the memories are without power or refresh. -/
def State.dramLost (s : State) : State :=
  let s := State.reImage { s with mem := s.mem.filter fun e => decide (e.1 < dramBase), dramErr := [] } s
  { s with red := { s.red with slots := [none, none] } }.putB R.RED_S_SLOT_OK false

/-- A domain that is on starts its power-down; `retain` keeps its configuration and the memory contents (R444). -/
def State.domDown (s : State) (retain : Bool) (d : Nat) : State :=
  if !bitOf (s.get R.PWR_DOM_ON_ON) d then s
  else
    let live := (List.range 4).foldl (fun m c =>
      if s.chanState c = chOnline ∨ s.chanState c = chDegraded ∨ s.chanState c = chSelfRefresh ∨ s.chanState c = chRetrain then m ||| 2 ^ c else m) 0
    let s := s.setMap 0x1088 d false
    let s := if d = 5 then s.fabStops else if d = 2 then s.txStops else s
    let s := s.modPwr fun p => { p with
      retained := if retain then p.retained ||| 2 ^ d else p.retained &&& (allDoms - 2 ^ d)
      selfRef := if d = 13 then (if retain then live else 0) else p.selfRef }
    if d = 13 then ((if retain then s else s.dramLost).pllbStop.putB R.DPHY_S_USABLE false).convDram else s

/-- The orders in which domains power up and down (R443). -/
def upOrder : List Nat := [5, 13, 2, 3, 4, 6, 7, 8, 9, 10, 11, 12]
def downOrder : List Nat := upOrder.reverse

/-- A power-up and a power-down take the longest time that R443 allows, in fabric cycles (DESIGN CHOICE, log entry 33). -/
def upCyc : Nat := usCyc 25
def downCyc : Nat := usCyc 10

/-- The domain changes from here to the domains of a mask, one at a time. -/
def State.domPlan (s : State) (mask : Nat) (keep : Bool) : List DomStep :=
  let on := s.get R.PWR_DOM_ON_ON
  let downs := downOrder.filter fun d => bitOf on d && !bitOf mask d
  let ups := upOrder.filter fun d => !bitOf on d && bitOf mask d
  let t := s.absCyc + downCyc * downs.length
  (downs.zipIdx.map fun x => ⟨x.1, false, keep, s.absCyc + downCyc * x.2⟩) ++ ups.zipIdx.map fun x => ⟨x.1, true, false, t + upCyc * (x.2 + 1)⟩

/-- A domain change takes place; a domain that powers down is kept in retention from CONFIG to SPARE, and while RETAIN is 1 (R444). -/
def State.domStep (s : State) (q : DomStep) : State :=
  if q.up then s.domUp q.dom else s.domDown (q.keep || s.is R.PWR_C_RETAIN) q.dom

/-- The domain changes that are due by a cycle take place, in order. -/
def State.domsTo (s : State) (t : Nat) : State :=
  let due := s.pwr.doms.takeWhile fun q => decide (q.at0 ≤ t)
  (s.modPwr fun p => { p with doms := p.doms.drop due.length }).each due State.domStep

/-- Time has passed in which domains change. -/
def State.domsTick (s : State) : State := if s.pwr.doms.isEmpty then s else s.domsTo s.absCyc

/-- Every domain change that is left takes place: the transition ends. -/
def State.domsAll (s : State) : State := (s.modPwr fun p => { p with doms := [] }).each s.pwr.doms State.domStep

/-! Mode transitions (R446, R447). -/

/-- The role of R70 takes effect. -/
def State.takeRole (s : State) : State :=
  let c := (s.majW 0x94).toNat
  let s := if bitOf c 8 then (s.put R.SYS_ROLE_EFF_ROLE c).putB R.SYS_ROLE_EFF_OVERRIDDEN true
    else (s.put R.SYS_ROLE_EFF_ROLE (s.get R.SYS_STRAPS_ROLE)).putB R.SYS_ROLE_EFF_OVERRIDDEN false
  if s.role = 3 then ((s.put R.APL_S_EAST_STATE 0).put R.APL_S_WEST_STATE 0).modRing fun r => { r with ports := [] } else s

/-- The transitions that a request may start. -/
def reqAllowed (f t : Nat) : Bool :=
  (f == mStandby && t == mConfig) || (f == mConfig && (t == mStandby || t == mRun || t == mService || t == mSpare)) ||
    ((f == mRun || f == mService || f == mSpare) && t == mConfig)

/-- A transition runs: a proof run counts as one. -/
def State.modeBusy (s : State) : Bool := s.pwr.trans.isSome || s.proofing

/-- The reason of R447, 0 for none. -/
def State.modeReason (s : State) (t : Nat) : Nat :=
  if !reqAllowed s.mode t then 1
  else if s.modeBusy then 2
  else if t = mSpare ∧ (s.role = 0 ∨ s.role = 3) then 3
  else if t ≠ mStandby ∧ s.is R.PWR_S_HOT then 4
  else 0

/-- MODE_RESULT; a boot record's target beyond the field's range is no mode, and shows its low bits (R457). -/
def State.modeResult (s : State) (f t reason : Nat) (forced : Bool) : State :=
  s.setN 0x1084 (f + t % 8 * 2 ^ 4 + reason * 2 ^ 8 + b2n forced * 2 ^ 16)

/-- A transition starts: its domain changes follow from here on, and the gate closes where the new mode closes it. -/
def State.modeStart (s : State) (t : Nat) (forced : Bool) : State :=
  let f := s.mode
  let s := (s.modPwr fun p => { p with trans := some (f, t, forced), doms := s.domPlan (modeDoms t) (f == mConfig && t == mSpare) }).putB R.PWR_S_BUSY true
  (if t = mRun || s.proofing then s else s.gateClose).domsTick

/-- MODE_REQ[GO] (R446, R447). -/
def State.modeRequest (s : State) (t : Nat) : State :=
  let r := s.modeReason t
  if r = 0 then s.modeStart t false
  else (s.modeResult s.mode t r false).latch ePWR 1

/-- The transition ends at a sheet boundary: the other domains are on and the new mode is in force. -/
def State.modeEnd (s : State) (f t micros : Nat) (forced : Bool) : State :=
  let s := s.domsAll
  let s := (s.put R.SYS_MODE_MODE t).modeResult f t 0 forced
  let s := (s.put R.PWR_MODE_TIME_US micros).putB R.PWR_S_BUSY false
  let s := (s.modPwr fun p => { p with trans := none }).latch ePWR 0
  let s := if t = mConfig then s.takeRole else s
  let s := s.pressModeLost
  if t = mRun then s.gateOpenNow else s

/-! Resets (R449, R453). -/

/-- A domain reset: accepted in CONFIG and SERVICE for the domains of R453; it discards what retention keeps of them (R444). -/
def State.domRst (s : State) (v : Nat) : State :=
  let ok := if s.mode = mConfig ∨ s.mode = mService then v &&& 0x3FDC else 0
  let s := if v &&& allDoms = ok then s else s.latch ePWR 2
  let lost := bitOf ok 13 && bitOf s.pwr.retained 13
  let s := s.modPwr fun p => { p with
    retained := p.retained &&& (allDoms - ok)
    selfRef := if bitOf ok 13 then 0 else p.selfRef }
  let s := if lost then s.dramLost else s
  let s := s.each ((List.range 14).filter fun d => bitOf ok d) fun s d => s.startDomain false d
  let s := { s with held := s.held ||| ok }
  if bitOf ok 13 then s.usableUpdate.convDram else s

/-- The hold of a domain reset ends. -/
def State.domRelease (s : State) (d : Nat) : State :=
  if s.pwr.inReset.isSome ∨ s.pwr.off ∨ s.pwr.test then s
  else { s with held := s.held &&& (allDoms - 2 ^ d) }.portsStart d

/-- What no reset of the device changes: what has left it, host memory, the queue of commands, draws of free values. -/
def State.renew (s : State) : State :=
  { State.reset with
    clk := ClkSt.reset
    pwr := PwrSt.reset
    tap := { TapSt.reset with trst := s.tap.trst }
    pending := s.pending
    hostMem := s.hostMem
    out := s.out
    bus := s.bus
    freeCtr := s.freeCtr }

/-- The registers that straps set (R69, R70). -/
def State.strapWords (s : State) (dev role boot : Nat) : State :=
  (s.setN 0x90 (dev % 32 + role % 4 * 2 ^ 8 + boot % 4 * 2 ^ 12)).setN 0x98 (role % 4)

/-- Hold every domain while the reset sequence runs (R449). -/
def State.hold (s : State) (por : Bool) : State :=
  ({ s with held := allDoms }.put R.SYS_MODE_MODE mOff).modPwr fun p => { p with inReset := some por }

/-- POR (R449): everything; `cause` is the bit of RST_CAUSE, alone after a loss of VDD_AON. Straps: DEVID [4:0], ROLE [6:5],
BOOT [8:7]. -/
def State.porOp (s : State) (cause : Nat) (alone : Bool) (straps : Nat) (test : Bool) : State :=
  let was := if alone then 0 else s.n 0x1090
  let s := (s.renew.hold true).strapWords (bits straps 4 0) (bits straps 6 5) (bits straps 8 7)
  (((s.setN 0x1090 (was ||| 2 ^ cause)).putB R.CLK_S_PLLA_LOCK false).modPwr fun p => { p with test := test, perst := s.pwr.perst, io := s.pwr.io }).setLockF 400

/-- RESET_N (R449): straps, fuses, PLL-A's lock, time and GEN stay. -/
def State.resetNOp (s : State) (cause : Nat) : State :=
  if s.pwr.off ∨ s.pwr.inReset = some true then s
  else
    let n := { (s.renew.hold false) with slot := s.slot, hsi := s.hsi, cyc := s.cyc, rxCut := s.rxCut, tap := s.tap }
    let st := s.n 0x90
    let n := n.strapWords (bits st 4 0) (bits st 9 8) (bits st 13 12)
    let n := (n.setN 0x1090 (s.n 0x1090 ||| 2 ^ cause)).put R.TIME_SERVO_STATE_GEN s.gen
    let n := (n.putB R.CLK_S_PLLA_LOCK (s.is R.CLK_S_PLLA_LOCK)).modPwr fun p => { p with test := s.pwr.test, perst := s.pwr.perst, io := s.pwr.io }
    (n.setClk fun c => { c with bandA := s.clk.bandA }).setLockF 400

/-- The effective temperature offset (R459). -/
def State.tempOffset (s : State) : Int := clampI (-128) 127 (s.getI R.CAL_TEMP_FUSE_OFS + s.getI R.CAL_TEMP_USER_OFS)

/-- WARN, limited to SHUT − 5, and SHUT, in quarters of a degree (R460). -/
def State.warnAt (s : State) : Int := 4 * (min (s.get R.PWR_TJ_CFG_WARN : Int) ((s.get R.PWR_TJ_CFG_SHUT : Int) - 5))
def State.shutAt (s : State) : Int := 4 * (s.get R.PWR_TJ_CFG_SHUT : Int)

/-- A forced STANDBY ends a proof run and a takeover (R450). -/
def State.takeDrop (s : State) : State :=
  let s := ((s.putB R.RED_S_PROOF_RUNNING false).putB R.RED_S_RESTORING false).putB R.RED_S_SILENCE false
  (s.modRed fun r => { r with take := none, takeWait := false, grantWait := false, silenceEnd := none }).setSilence false

/-- A temperature sample (R450, R379). -/
def State.tempSample (s : State) (raw : Int) : State :=
  let t := satI 12 (raw + s.tempOffset)
  let s := s.putI R.PWR_TEMP_DEG t
  let above := decide (s.warnAt < t)
  let s := if above && !s.pwr.above then s.latch ePWR 4 else s
  let s := (s.modPwr fun p => { p with above := above }).faultUpdate
  let s := if s.shutAt ≤ t then
      let s := (s.status R.PWR_S_HOT true ePWR 5).putB R.PWR_MODE_RESULT_FORCED true
      if (s.mode = mStandby ∨ s.mode = mOff) ∧ s.pwr.trans.isNone then s
      else if (s.pwr.trans.any fun x => x.2.2) then s
      else s.takeDrop.modeStart mStandby true
    else if t < s.warnAt then s.putB R.PWR_S_HOT false else s
  if s.domOn 13 then (s.putI R.DPHY_TEMP_DEG t).chooseRefRate t else s

/-- RESET_RELEASE (R449): the HSI starts after a POR; AON and HOST run, in STANDBY. -/
def State.resetRelease (s : State) (temp : Int) : State :=
  match s.pwr.inReset with
  | none => s
  | some por =>
    let s := if por then s.pllaLocked else s
    let s := { s with held := if s.pwr.test then allDoms - 1 else 0 }
    let s := ((s.put R.SYS_MODE_MODE mStandby).modPwr fun p => { p with inReset := none }).lanesStart (if s.domOn 1 && !s.pwr.perst then lanesOf 1 else [])
    s.tempSample temp

/-! Supplies (R446, R448, R451). -/

/-- The level of MC_RESET_N (16_electrical R475): low in reset and with the DRAM domain off, unless retention keeps the memories. -/
def State.mcResetN (s : State) : Bool := s.domOn 13 || (!bitOf (s.get R.PWR_DOM_ON_ON) 13 && bitOf s.pwr.retained 13)

/-- A rail is low, or is back. -/
def State.rail (s : State) (r : Nat) (low : Bool) : State :=
  if s.pwr.off then s
  else
    let s := s.setMap 0x10A0 r low
    let s := s.putB R.PWR_S_LOW_SUPPLY (s.get R.PWR_SUPPLY_LOW != 0)
    (if low then s.latch ePWR 3 else s).faultUpdate

/-- The board supplies are removed. -/
def State.supplyOff (s : State) : State :=
  let n := (s.renew.put R.SYS_MODE_MODE mOff).put R.PWR_DOM_ON_ON 0
  { n with held := allDoms, clk := { n.clk with lockF := 0 }, pwr := { PwrSt.reset with off := true, io := false, perst := s.pwr.perst } }

/-- VDDIO reaches tolerance: every output takes its reset state (R448). -/
def State.vddioUp (s : State) : State :=
  { s with
    clk := { s.clk with outs := ClkSt.reset.outs, lockF := 400 }
    red := { s.red with arbHb := false }
    pwr := { s.pwr with io := true } }

/-- PCIE_PERST_N resets the link and the configuration space, with the MSI-X capability and tables (R62, R473). -/
def State.perst (s : State) : State :=
  let s := s.each ((s.words.map fun e => e.1).filter fun k => keySrc k = 60 && decide (0x8000000000 ≤ k)) fun s k => s.setW k (resetWord k)
  { s with
    msix := { s.msix with en := 0, fmask := 0, mask := [], pba := [] }
    pwr := { s.pwr with perst := true } }

end Sys2Proof.Machine
end

