-- ==== Sys2Proof/Machine/Takeover.lean ====
section
/-! DEFINITION. Checkpoints, the takeover and the proof run (14_redundancy R431–R440). The data of an item is the model's own
layout (log entry 70): words as runs of a key of 8 bytes, a count of 4 and the words, and numbers as cells of 16 bytes. -/

namespace Sys2Proof.Machine

/-! Items. -/

/-- Runs of word entries with ascending keys; a single word between two that stands at its reset value joins their runs. -/
def wordRuns : List (Nat × Nat) → List (Nat × List Nat)
  | [] => []
  | (k, v) :: t =>
    match wordRuns t with
    | [] => [(k, [v])]
    | (k', vs) :: r =>
      if k' = k + 4 then (k, v :: vs) :: r
      else if k' = k + 8 ∧ k < 2 ^ 59 then (k, v :: (resetWord (k + 4)).toNat :: vs) :: r
      else (k, [v]) :: (k', vs) :: r

/-- Word entries, ascending: runs of key, count and values. -/
def packWords (l : List (Nat × Nat)) : List Byte :=
  (wordRuns l).flatMap fun r => leBytes 8 r.1 ++ leBytes 4 r.2.length ++ r.2.flatMap fun v => leBytes 4 v

/-- The entries of n runs at most. -/
def unpackRuns : Nat → List Byte → List (Nat × Nat)
  | 0, _ => []
  | n + 1, b =>
    if b.length < 16 then []
    else
      let c := min (leAt b 8 4) ((b.length - 12) / 4)
      ((List.range c).map fun i => (leAt b 0 8 + 4 * i, leAt b (12 + 4 * i) 4)) ++ unpackRuns n (b.drop (12 + 4 * c))

def unpackWords (b : List Byte) : List (Nat × Nat) := unpackRuns b.length b

/-- Cells: signed numbers of 128 bits. -/
def packCells (l : List Int) : List Byte := l.flatMap fun v => leBytes 16 (tz 128 v)

def unpackCells (b : List Byte) : List Int := (List.range (b.length / 16)).map fun i => sx 128 (leAt b (16 * i) 16)

/-- Zeros up to a multiple of 16. -/
def pad16 (b : List Byte) : List Byte := b ++ List.replicate ((16 - b.length % 16) % 16) 0

/-- An item (R432). -/
def itemBytes (id : Nat) (data : List Byte) : List Byte :=
  leBytes 4 id ++ leBytes 4 data.length ++ List.replicate 8 0 ++ pad16 data

/-- The items of an image, from its byte 64 on; n bounds their number. -/
def itemsOf : Nat → List Byte → List (Nat × List Byte)
  | 0, _ => []
  | n + 1, b =>
    if b.length < 16 then []
    else
      let len := leAt b 4 4
      (leAt b 0 2, (b.drop 16).take len) :: itemsOf n (b.drop (16 + (len + 15) / 16 * 16))

/-- The listed words whose keys satisfy p, as entries. -/
def State.wordsWhere (s : State) (p : Nat → Bool) : List (Nat × Nat) := (s.words.filter fun e => p e.1).map fun e => (e.1, e.2.toNat)

/-- Entries that hold a(c) of the forwarded channels: SHADOW, then ACTIVE. -/
def fwdKey (bank c : Nat) : Nat := 2 ^ 60 + bank * 2 ^ 16 + 4 * c

/-- Item 1. -/
def State.bankItem (s : State) : List Byte :=
  packWords (s.wordsWhere bankKey ++ s.fwdTerm.map (fun e => (fwdKey 0 e.1, e.2)) ++ s.fwdTermAct.map fun e => (fwdKey 1 e.1, e.2))

/-- A segment or a step of a path, in ten cells: object, group, sample, ramp, three start values, three targets. -/
def segCells (o g : Nat) (x : Seg) : List Int :=
  [(o : Int), g, x.at0, x.ramp] ++ (x.start ++ [0, 0, 0]).take 3 ++ (x.target ++ [0, 0, 0]).take 3

def stepCells (o g : Nat) (x : Int × Nat) : List Int := [(o : Int), g, x.1, x.2, 0, 0, 0, 0, 0, 0]

/-- The path that a group follows: its newest segment, which every later sheet reads. -/
def newest {α : Type} (l : List α) : List α := l.drop (l.length - 1)

/-- Item 2: the path of each group of the objects. -/
def State.pathItem (s : State) : List Byte :=
  packCells (s.objs.flatMap fun e =>
    (newest e.2.pos).flatMap (segCells e.1 0) ++ (newest e.2.gain).flatMap (segCells e.1 1) ++ (newest e.2.spread).flatMap (segCells e.1 2) ++
    (newest e.2.zones).flatMap (stepCells e.1 3) ++ (newest e.2.flags).flatMap (stepCells e.1 4) ++ (newest e.2.mode).flatMap (stepCells e.1 5))

/-- Item 3: metadata queues, in four cells a record: object, apply sample, the 32 bytes. -/
def State.queueItem (s : State) : List Byte :=
  s.objs.flatMap fun e => e.2.queue.flatMap fun q => packCells [(e.1 : Int), q.1] ++ q.2.take 32 ++ List.replicate (32 - q.2.length) 0

/-- Mutes. -/
def muteKey (k : Nat) : Bool := decide (0x79080 ≤ k) && decide (k < 0x790C0)

/-- The entry of the gain of a crosspoint, or of home feed o as 8192 + o. -/
def gainKey (k : Nat) : Nat := 2 ^ 60 + 4 * k

/-- The gains that crosspoints and home feeds have or ramp to, by number; what waits in the fader FIFO counts already (R252). -/
def State.gains (s : State) : Tab Int :=
  let now : List (Nat × Int) := s.mix.xps.filterMap fun e =>
    match e.2.getLast? with
    | some r => if r.fadeIn then some (e.1, r.gb) else none
    | none => none
  tsetAll (fun _ => -2 ^ 40) now ((s.mix.fifo.filter fun e => now.any fun x => x.1 == e.1).map fun e => (e.1, xpGain e.2))

/-- Item 4: MUTE_ALL, mutes, and the gains with 30 fractional bits. -/
def State.routeItem (s : State) : List Byte :=
  packWords ((0x78008, s.n 0x78008 / 2 % 2) :: s.wordsWhere muteKey ++ s.gains.map fun e => (gainKey e.1, tz 32 e.2))

/-- ACTIVE receive records, and ACTIVE transmit records with ANCHOR and SEQ_BASE. -/
def rxActKey (k : Nat) : Bool := decide (winKey 13 1 0 ≤ k) && decide (k < winKey 13 1 8192)
def txActKey (k : Nat) : Bool := decide (winKey 17 1 0 ≤ k) && decide (k < winKey 17 1 4096)
def txLineKey (k : Nat) : Bool := decide (winKey 17 2 0 ≤ k) && decide (k < winKey 17 2 4096) && decide (1 ≤ keyWord k % 32) && decide (keyWord k % 32 ≤ 3)

/-- The image of R432. -/
def State.image (s : State) (seq c : Nat) : List Byte :=
  let items := itemBytes 1 s.bankItem ++ itemBytes 2 s.pathItem ++ itemBytes 3 s.queueItem ++ itemBytes 4 s.routeItem ++
    itemBytes 5 (packWords (s.wordsWhere rxActKey)) ++ itemBytes 6 (packWords (s.wordsWhere fun k => txActKey k || txLineKey k)) ++
    itemBytes 7 (packWords [(0x30F0, s.n 0x30F0), (0x30F4, s.n 0x30F4)])
  leBytes 4 0x504B4843 ++ leBytes 4 seq ++ leBytes 8 (c % 2 ^ 48) ++ leBytes 4 s.devid ++ leBytes 4 (64 + items.length) ++
    leBytes 4 7 ++ List.replicate 36 0 ++ items

/-! The holder (R431, R433). -/

/-- STATUS[CKPT_BUSY]. -/
def State.putCkpt (s : State) (c : Option Ckpt) : State := (s.modRed fun r => { r with ckpt := c }).putB R.RED_S_CKPT_BUSY c.isSome

/-- BAD_CNT and CKPT_BAD. -/
def State.ckptBad (s : State) : State := (s.addW R.RED_BAD_CNT_COUNT 1).latch eRED 5

/-- A capture is due at this boundary. -/
def State.ckptDue (s : State) : Bool :=
  s.redOn && s.is R.RED_S_GRANT && s.is R.RED_PARTNER_EN && decide (s.cyc = 0) &&
    decide (s.sheet % (8 * clampN 8 256 (s.get R.RED_CKPT_CFG_PERIOD)) = 0)

/-- The capture at boundary C. -/
def State.ckptCapture (s : State) : State :=
  if !s.ckptDue then s
  else if s.red.ckpt.isSome then (s.addW R.RED_SKIP_CNT_COUNT 1).latch eRED 6
  else if !s.dramUsable then s.ckptBad
  else
    let seq := (s.red.seq + 1) % 2 ^ 32
    let im := s.image seq s.sheet
    let s := s.putCkpt (some ⟨seq, s.sheet, im, false, false, 0⟩)
    (s.modRed fun r => { r with seq := seq }).setN 0xD00CC (im.length % 2 ^ 23)

/-- The checkpoint engine (master 0x40, port 2) writes bytes to DRAM in aligned pieces, posted; a piece that waits is judged again when it
is served. `timed`: over the time of the work that its command ends. -/
def State.ckptPut (s : State) (timed : Bool) (a : Nat) (data : List Byte) : State :=
  (blockPieces data.length a data).foldl (fun s p =>
    if (s.dramMap p.1).isNone then s.errLog 0x40 p.1 true 0 7
    else
      let (ok, s) := s.permit 0x40 4 p.1 p.2.length true
      let s := if timed then s.passTime 2 else s
      if !ok then s
      else
        let (shut, s) := s.imageGate p.1
        if shut then s
        else
          let t := s.linePost 0x40 p.1 p.2
          if t.waiting.length = s.waiting.length then t.imageDone p.1 else t) s

/-- It reads the n bytes at a line by line, over the time that its port takes; none where a line cannot be read. -/
def State.ckptGet (s : State) (a n : Nat) : Option (List Byte) × State :=
  let first := a / 64
  let q := (List.range ((a + n + 63) / 64 - first)).foldl (fun (q : Option (List Byte) × State) i =>
    let l := 64 * (first + i)
    if (q.2.dramMap l).isNone then (none, q.2.errLog 0x40 l false 0 7)
    else
      let (ok, s) := q.2.permit 0x40 4 l 64 false
      let r := if ok then (s.portUse 2).lineGet 0x40 l else (none, s)
      (match q.1, r.1 with | some x, some y => some (x ++ y) | _, _ => none, r.2)) (some [], s)
  (q.1.map fun b => (b.drop (a - 64 * first)).take n, q.2)

/-- The engine's accesses make no progress: a channel waits, or writes of its own wait. -/
def State.ckptWaits (s : State) : Bool := s.chanWaits || s.waiting.any fun r => r.master == 0x40

/-- The staging buffer. -/
def State.ckptBuf (s : State) : Nat := s.get64 0xD0090 % 2 ^ 40 / 64 * 64

/-- Bytes up to whole lines. -/
def pad64 (b : List Byte) : List Byte := b ++ List.replicate ((64 - b.length % 64) % 64) 0

/-- The image lies in the staging buffer. -/
def State.ckptCaptured (s : State) : State :=
  match s.red.ckpt with
  | some c =>
    if c.ready then s
    else if !s.dramUsable then (s.putCkpt none).ckptBad
    else if s.ckptWaits then s
    else (s.ckptPut true s.ckptBuf (pad64 c.image)).putCkpt (some { c with ready := true })
  | none => s

/-! The standby (R434, R435). -/

/-- Slot k. -/
def State.slotAt (s : State) (k : Nat) : Nat := s.get64 0xD0098 % 2 ^ 40 / 64 * 64 + k * 0x410000

/-- The valid slots, and the one that holds the newest checkpoint. -/
def State.slotSeq (s : State) (k : Nat) : Option Nat := (s.red.slots.getD k none).map fun x => x.seq
def State.newestSlot (s : State) : Option Nat :=
  match s.slotSeq 0, s.slotSeq 1 with
  | some a, some b => if b ≤ a then some 0 else some 1
  | some _, none => some 0
  | none, some _ => some 1
  | none, none => none

/-- Replace what is known of slot k; STATUS[SLOT_OK], CKPT_SEQ and CKPT_SHEET follow. -/
def State.putSlot (s : State) (k : Nat) (x : Option CkptSlot) : State :=
  let s := s.modRed fun r => { r with slots := r.slots.set k x }
  let s := s.putB R.RED_S_SLOT_OK s.newestSlot.isSome
  match s.newestSlot.bind fun k => s.red.slots.getD k none with
  | some x => (s.setN 0xD00C4 x.seq).setN 0xD00C8 (x.sheet % 2 ^ 32)
  | none => s

/-- The valid checkpoint that slot k holds as its bytes stand (R434): its header, its trailer and its CRC agree, and every line can be
corrected. -/
def State.slotNow (s : State) (k : Nat) : Option CkptSlot :=
  let a := s.slotAt k
  let num (o n : Nat) : Nat := leAt (s.bytes (a + o) n) 0 n
  let n := num 0x14 4
  let lost (l : Nat) : Bool := decide (a / 64 ≤ l) && decide (l < (a + n + 63) / 64) || decide (l = (a + 0x400000) / 64)
  if a < dramBase ∨ n < 64 ∨ 0x400000 < n ∨ num 0x400000 4 ≠ num 4 4 then none
  else if s.dramErr.any fun e => lost e.1 && (rsDecode 68 e.2).isNone then none
  else if crc64 (s.bytes a n) = num 0x400008 8 then some ⟨num 4 4, num 8 8, n⟩
  else none

/-- The slots may have changed under the checkpoint engine: what they hold is judged again. -/
def State.slotsUpdate (s : State) : State :=
  s.upto 2 fun s k => if s.red.ckptIn.any fun c => c.slot == k then s else s.putSlot k (s.slotNow k)

/-- A write at address a by another master than the engine. -/
def State.slotTouch (s : State) (a : Nat) : State :=
  if (List.range 2).any fun k => decide (s.slotAt k ≤ a) && decide (a < s.slotAt k + 0x410000) then s.slotsUpdate else s

/-- The device stands by. -/
def State.standby (s : State) : Bool := s.redOn && s.spareNow

/-- OPEN: a CLOSE that still waits will never come to its check. -/
def State.ckptOpen (s : State) (seq len : Nat) : State :=
  if !s.standby || !s.dramUsable then s
  else
    let k := if s.newestSlot = some 0 then 1 else 0
    let s := if s.red.ckptIn.any fun c => c.close.isSome then s.ckptBad else s
    let s := (s.putSlot k none).ckptPut false (s.slotAt k + 0x400000) (List.replicate 16 0)
    s.modRed fun r => { r with ckptIn := some ⟨k, seq, len, none⟩ }

/-- Data of the checkpoint that is open. -/
def State.ckptData (s : State) (ofs : Nat) (data : List Byte) : State :=
  match s.red.ckptIn with
  | some c => if !s.standby || !s.dramUsable || decide (0x400000 < ofs + data.length) || c.close.isSome then s else s.ckptPut false (s.slotAt c.slot + ofs) data
  | none => s

/-- The image in slot k, n bytes long. -/
def State.slotImage (s : State) (k n : Nat) : Option (List Byte) × State :=
  s.ckptGet (s.slotAt k) n

/-- Replace the words of some keys by those of a list of entries. -/
def State.loadWords (s : State) (p : Nat → Bool) (l : List (Nat × Nat)) : State :=
  let s := s.each ((s.words.map fun e => e.1).filter p) fun s k => (s.wordDirty k).setW k (resetWord k)
  s.each (l.filter fun e => p e.1) fun s e => (s.wordDirty e.1).setN e.1 e.2

/-- A transmit context takes a record with the holder's numbering. -/
def State.txLoad (s : State) (t : Nat) (n : List Nat) : State :=
  let q := s.n (txKey t 1) % 65536
  let a := s.txAnchor t
  let s := s.setMap 0x25080 t (tEn n)
  let s := if tEn n then s.txWake n else s
  if !tEn n then s.setTx t fun _ => TxCtx.init
  else if ((s.txCtx t).cur.any fun l => l.rcd == n && l.anchor == a && l.seqBase == q) then s
  else
    let l : TxLine := ⟨n, a, q, (((s.hsi : Int) - a + tQ n - 1) / tQ n).toNat, none, [], []⟩
    (s.showLine t l).setTx t fun x => { x with cur := some l, olds := [] }

/-- Items 5 and 6: the ACTIVE contexts and the numbering; CTX_CHANGE where they differ from those held. -/
def State.loadContexts (s : State) (items : List (Nat × List Byte)) : State :=
  let data (id : Nat) : List (Nat × Nat) := match items.find? fun e => e.1 == id with | some e => unpackWords e.2 | none => []
  let o := s
  let s := s.loadWords rxActKey (data 5)
  let s := s.each (recsChanged s o 13 1 32) fun s c => s.rxCommit c (o.rxRec c 1) (s.rxRec c 1)
  let s := s.loadWords (fun k => txActKey k || txLineKey k) (data 6)
  let ts := (recsChanged s o 17 1 32 ++ (((s.words ++ o.words).map fun e => e.1).filter fun k => txLineKey k && s.n k != o.n k).map
    fun k => keyWord k / 32).dedup
  let s := s.each ts fun s t => s.txLoad t (s.txRec t 1)
  if (recsChanged s o 13 1 32).isEmpty && ts.isEmpty then s else s.latch eRED 14

/-- The records of frames before sheet c leave the log; the others stay where they are in its ring. -/
def State.logTrim (s : State) (c : Nat) : State :=
  let keep := s.red.log.filter fun e => decide (c ≤ e.1)
  let s := s.modRed fun r => { r with log := keep, logPos := (r.logPos + (r.log.length - keep.length)) % 65536 }
  s.setN 0xD00DC s.red.log.length

/-- A metadata record of the frame of a sheet (R435), from C of the newest valid checkpoint on; before the first one its C is still to come
(DESIGN CHOICE, log entry 151). -/
def State.logPush (s : State) (sheet : Nat) (b : List Byte) : State :=
  let c := ((s.newestSlot.bind fun k => s.red.slots.getD k none).map CkptSlot.sheet).getD 0
  let n := s.red.log.length
  if sheet < c ∨ !s.dramUsable then s
  else if 65536 ≤ n then s.latch eRED 15
  else
    let s := s.ckptPut false (s.get64 0xD00A0 % 2 ^ 40 + 32 * ((s.red.logPos + n) % 65536)) (b.take 32)
    (s.modRed fun r => { r with log := r.log ++ [(sheet, b)] }).setN 0xD00DC (n + 1)

/-- The check of a checkpoint that has been closed. -/
def State.ckptCheck (s : State) (c : CkptIn) (seq crc : Nat) : State :=
  let s := s.modRed fun r => { r with ckptIn := none }
  let q := if c.len ≤ 0x400000 then s.slotImage c.slot c.len else (none, s)
  let s := q.2
  match q.1 with
  | some im =>
    if c.seq = seq ∧ leAt im 4 4 = seq ∧ crc64 im = crc then
      let s := s.ckptPut false (s.slotAt c.slot + 0x400000) (leBytes 8 seq ++ leBytes 8 crc)
      let s := s.putSlot c.slot (some ⟨seq, leAt im 8 8, c.len⟩)
      let s := (s.setN 0xD00CC (c.len % 2 ^ 23)).addW R.RED_CKPT_CNT_COUNT 1
      let s := (s.latch eRED 4).loadContexts (itemsOf 16 (im.drop 64))
      s.logTrim (leAt im 8 8)
    else s.ckptBad
  | none => s.ckptBad

/-- CLOSE: a check that must wait for DRAM comes at a later boundary; without an OPEN it fails. -/
def State.ckptClose (s : State) (seq crc : Nat) : State :=
  if !s.standby || !s.dramUsable then s.modRed fun r => { r with ckptIn := none }
  else match s.red.ckptIn with
    | none => s.ckptBad
    | some c =>
      if s.ckptWaits then s.modRed fun r => { r with ckptIn := some { c with close := some (seq, crc) } }
      else s.ckptCheck c seq crc

/-- A boundary: the check that waited. -/
def State.ckptResume (s : State) : State :=
  match s.red.ckptIn with
  | some c =>
    match c.close with
    | some q => if s.ckptWaits && s.dramUsable then s else s.ckptClose q.1 q.2
    | none => s
  | none => s

/-! The takeover (R436, R438). -/

/-- The image of slot k, if its trailer, its header and its CRC agree now. -/
def State.validImage (s : State) (k : Nat) : Option (List Byte) × State :=
  match s.red.slots.getD k none with
  | none => (none, s)
  | some x =>
    if !s.dramUsable then (none, s)
    else
      let q := s.slotImage k x.len
      let t := q.2.ckptGet (s.slotAt k + 0x400000) 16
      match q.1, t.1 with
      | some im, some tr => (if leAt tr 0 4 = leAt im 4 4 ∧ leAt tr 8 8 = crc64 im then some im else none, t.2)
      | _, _ => (none, t.2)

/-- The valid image with the highest SEQ. -/
def State.bestImage (s : State) : Option (List Byte) × State :=
  match s.newestSlot with
  | none => (none, s)
  | some k =>
    match s.validImage k with
    | (some im, s) => (some im, s)
    | (none, s) => s.validImage (1 - k)

/-- The transition from SPARE to RUN starts. -/
def State.takeStart (s : State) : State := (s.modRed fun r => { r with takeWait := false }).modeStart mRun false

/-- The boundary G (R436): the gate and silence at once; the transition now, or when a proof run or a transition has ended. While a
channel holds the reading of the slot back, the slot counts as it was last judged. -/
def State.takeover (s : State) : State :=
  if !s.redOn || !s.is R.RED_S_GRANT || s.red.take.isSome || !s.spareNow || (s.pwr.trans.isSome && !s.proofing) then s
  else
    let s := s.gateOpenNow.setSilence true
    let s := (s.putB R.RED_S_SILENCE true).putB R.RED_S_RESTORING true
    let q : Bool × State := if s.dramUsable && s.ckptWaits then (s.newestSlot.isSome, s) else let q := s.bestImage; (q.1.isSome, q.2)
    let q := (q.1, q.2.modRed fun r => { r with take := some s.slot, own := !q.1 })
    let s := if q.1 then q.2 else q.2.latch eRED 8
    if s.modeBusy then s.modRed fun r => { r with takeWait := true } else s.takeStart

/-- The paths and queues of items 2 and 3. -/
def objOfCells (x : ObjSt) (c : List Int) : ObjSt :=
  let at0 := c.getD 2 0
  let v : Nat := (c.getD 3 0).toNat
  let seg (d : Nat) : Seg := ⟨at0, v, (c.drop 4).take d, (c.drop 7).take d⟩
  let g := c.getD 1 0
  if g = 0 then { x with pos := x.pos ++ [seg 3] }
  else if g = 1 then { x with gain := x.gain ++ [seg 1] }
  else if g = 2 then { x with spread := x.spread ++ [seg 3] }
  else if g = 3 then { x with zones := x.zones ++ [(at0, v)] }
  else if g = 4 then { x with flags := x.flags ++ [(at0, v)] }
  else { x with mode := x.mode ++ [(at0, v)] }

/-- Groups of n elements. -/
def groupsOf {α : Type} (n : Nat) (l : List α) : List (List α) := (List.range (l.length / n)).map fun i => (l.drop (n * i)).take n

def State.loadObjects (s : State) (paths queue : List Byte) : State :=
  let cs := groupsOf 10 (unpackCells paths)
  let ids := (cs.map fun c => (c.getD 0 0).toNat % 1024).dedup
  let objs := ids.map fun o =>
    (o, (cs.filter fun c => (c.getD 0 0).toNat % 1024 == o).foldl objOfCells ⟨[], [], [], [], [], [], []⟩)
  let s := { s with objs := tsetAll (fun _ => ObjSt.reset) [] objs }
  (s.each (groupsOf 64 queue) fun s b =>
    let o := leAt b 0 16 % 1024
    (s.dumpDirty (0x11710000 + 512 * o + 32 * (s.obj o).queue.length) 32).setObj o fun x => { x with queue := x.queue ++ [(sx 128 (leAt b 16 16), b.drop 32)] }).queuedStatus

/-- Item 4, and the readings of the ACTIVE crosspoints and home feeds with its gains. -/
def State.loadRoutes (s : State) (l : List (Nat × Nat)) : State :=
  let s := (s.loadWords muteKey l).putB R.OUT0_C_MUTE_ALL (l.any fun e => e.1 == 0x78008 && e.2 == 1)
  s.routeReadings fun k => (l.find? fun e => e.1 == gainKey k).map fun e => sx 32 e.2

/-- The schedule and what the blocks keep of the ACTIVE bank, as at its commit. -/
def State.startBanks (s : State) : State :=
  let plan := s.solve 1
  let s := { s with
    pads := plan.pads, padHist := [], padSlot := s.slot, mix := { s.mix with tauTest := plan.tauTest }
    lineHist := []
    objMoved := []
    objEras := []
    swapSlot := none
    knots := []
    lineFrom := tsetAll zeroAt [] ((s.objEnabled 1).map fun k => (oVat (s.objRec 1 k) * 32 + oSlot (s.objRec 1 k), s.slot)) }
  (s.put R.PRESS_TAU_R_TAU plan.tauR).put R.PRESS_POOL_USE_USE (min plan.pool (2 ^ 17 - 1))

/-- Item 7, where the servo is not LOCKED (R111): HOLDOVER at the checkpointed FREQ_HOLD; the reason it shows is free. -/
def State.loadTime (s : State) (l : List (Nat × Nat)) : State :=
  if s.servo = tLocked then s
  else
    let word (k : Nat) : Option Nat := (l.find? fun e => e.1 == k).map Prod.snd
    match word 0x30F0, word 0x30F4 with
    | some y, some v =>
      let (d, s) := s.draw
      let s := s.holdover ((Config.freeWord d).toNat % 8)
      (((s.setN 0x30F0 y).put R.TIME_SERVO_STATE_GEN (bits v 11 8)).put R.TIME_SERVO_STATE_ANCHORED (bits v 3 3)).servoStatus.steer
    | _, _ => s

/-- Every item of an image. -/
def State.restoreImage (s : State) (im : List Byte) : State :=
  let items := itemsOf 16 (im.drop 64)
  let data (id : Nat) : List Byte := match items.find? fun e => e.1 == id with | some e => e.2 | none => []
  let b := unpackWords (data 1)
  let fwd (bank : Nat) : Tab Nat := tsetAll zeroAt [] ((b.filter fun e => decide (fwdKey bank 0 ≤ e.1) && decide (e.1 < fwdKey bank 1024)).map
    fun e => ((e.1 - fwdKey bank 0) / 4, e.2))
  let s := s.loadContexts items
  let s := { s.loadWords (fun k => bankKey k && !rxActKey k && !txActKey k) b with fwdTerm := fwd 0, fwdTermAct := fwd 1 }
  let s := ((s.put R.MOULD0_SET_CTRL_ACTIVE (s.n 0x4000068080)).put R.CONV_SET_CTRL_ACTIVE (s.n 0x4000080080)).lostUpdate
  ((s.loadObjects (data 2) (data 3)).loadRoutes (unpackWords (data 4))).loadTime (unpackWords (data 7))

/-- Without a checkpoint: the own banks, no queue, paths as after reset (R438). -/
def State.restoreOwn (s : State) : State := ({ s with objs := [] }.queuedStatus).loadRoutes ((0x78008, s.n 0x78008 / 2 % 2) :: s.wordsWhere muteKey)

/-- The log ends; after the restore of an image it goes to the inbox, in frame order. -/
def State.replay (s : State) (image : Bool) : State :=
  let l := s.red.log
  let s := (s.modRed fun r => { r with log := [], logPos := 0 }).setN 0xD00DC 0
  if image then s.each l fun s e => s.inboxPush 0x34 e.2 else s

/-- The boundary R: power-up and restore are complete, RUN is in force and every block starts. -/
def State.restored (s : State) : State :=
  match s.red.take, s.pwr.trans with
  | some g, some (f, t, _) =>
    if f ≠ mSpare ∨ t ≠ mRun ∨ s.cyc ≠ 0 ∨ !s.is R.RED_S_RESTORING ∨ (s.dramUsable && s.ckptWaits) then s
    else
      let s := s.domsAll
      let q := if s.red.own then (none, s) else s.bestImage
      let s := match q.1 with
        | some im => q.2.restoreImage im
        | none => (if s.red.own then q.2 else q.2.latch eRED 8).restoreOwn
      let s := s.startBanks.replay q.1.isSome
      let s := s.modeEnd mSpare mRun (min 65535 ((s.slot - g) * 125)) false
      let s := (s.putB R.RED_S_RESTORING false).put R.RED_RESTORE_TIME_SHEETS (s.slot - g)
      (s.modRed fun r => { r with silenceEnd := some (s.slot + s.latS) }).latch eRED 7
  | _, _ => s

/-- Silence ends at boundary R + S, and the fade of R437 starts. -/
def State.audioOn (s : State) : State :=
  match s.red.silenceEnd with
  | some e =>
    if s.slot < e then s
    else
      let s := (s.setSilence false).putB R.RED_S_SILENCE false
      let s := s.modRed fun r => { r with
        take := none, silenceEnd := none, fade := some (s.slot, clampN 6 4800 (s.get R.RED_TAKE_CFG_FADE)) }
      s.latch eRED 9
  | none => s

/-- A transition has ended: a takeover that waited for a proof run or a transition starts in SPARE, and a grant that came during the
transition leads on to RUN (R440, R447). -/
def State.grantWaited (s : State) : State :=
  let came := s.red.grantWait
  let s := s.modRed fun r => { r with grantWait := false }
  if !s.redOn || !s.is R.RED_S_GRANT then s
  else if s.red.takeWait && s.mode = mSpare then s.takeStart
  else if came && s.mode = mSpare then s.takeover
  else if came && s.mode = mConfig then s.modeStart mRun false
  else s

/-! The proof run (R440, R446). -/

/-- A run is due. -/
def State.proofDue (s : State) : Bool :=
  s.redOn && s.is R.RED_PROOF_CFG_EN && decide (s.mode = mSpare) && !s.modeBusy && s.red.take.isNone &&
    decide (s.red.proofAt + 8000 * clampN 1 3600 (s.get R.RED_PROOF_CFG_INTERVAL) ≤ s.slot)

/-- The run starts: the transition to SERVICE. -/
def State.proofRun (s : State) : State :=
  if !s.proofDue then s
  else ((s.modRed fun r => { r with proofAt := s.slot }).putB R.RED_S_PROOF_RUNNING true).modeStart mService false

/-- The test in SERVICE has ended, with its result; the transition back to SPARE starts (DESIGN CHOICE, log entry 152). -/
def State.proofDone (s : State) (pass : Bool) : State :=
  if !s.is R.RED_S_PROOF_RUNNING || s.pwr.trans.isSome || s.mode != mService then s
  else
    let s := (s.putB R.RED_PROOF_STATUS_PASS pass).addW R.RED_PROOF_STATUS_RUNS 1
    let s := (s.modRed fun r => { r with proofOk := pass }).latch eRED (if pass then 10 else 11)
    (s.modeStart mSpare false).putB R.RED_S_PROOF_RUNNING false

/-- The words of this device's STANDBY_STATE (R426). -/
def State.standbyWords (s : State) : List Nat :=
  let x := s.newestSlot.bind fun k => s.red.slots.getD k none
  [b2n (s.is R.RED_S_SLOT_OK) + 2 * b2n s.red.proofOk + 4 * b2n (s.is R.RED_S_PROOF_RUNNING) + 8 * b2n s.dramUsable,
    (x.map CkptSlot.seq).getD 0, (x.map CkptSlot.sheet).getD 0 % 2 ^ 32]

end Sys2Proof.Machine
end

