-- ==== Sys2Proof/Machine/Boot.lean ====
section
/-! DEFINITION. The boot controller (15_power_and_bringup R455–R458, R462): how a boot starts, fails and ends. -/

namespace Sys2Proof.Machine

def State.modBoot (s : State) (f : BootSt → BootSt) : State := { s with boot := f s.boot }

/-- The straps' boot source. -/
def State.bootStrap (s : State) : Nat := bits (s.n 0x90) 13 12

/-- A verify pass starts on an image source: QSPI 0, PCIe 1, fabric 2. -/
def State.bootBegin (s : State) (source copy : Nat) : State :=
  let s := (s.setN 0xE800C 1).setN 0xE808C (source + copy * 16)
  let s := ((s.setN 0xE8090 0).set64 0xE8094 0)
  s.modBoot fun b => { BootSt.reset with verify := true, qspi := source == 0, copy1 := b.copy1 }

/-- A boot fails (R458). -/
def State.bootFail (s : State) (reason addr : Nat) : State :=
  let run := s.is R.BOOT_S_EXECUTING && decide (s.mode = mRun)
  let s := (s.setN 0xE800C 4).put R.BOOT_RESULT_REASON reason
  let s := s.set64 0xE8094 (addr % 2 ^ 40)
  let s := (s.modBoot fun _ => BootSt.reset).latch eBOOT 1
  if run then s.modeRequest mConfig else s

/-- A boot ends at END with a good CRC. -/
def State.bootOk (s : State) : State :=
  ((s.setN 0xE800C 2).modBoot fun _ => BootSt.reset).latch eBOOT 0

/-- The record in progress is done (R458). -/
def State.recDone (s : State) : State :=
  if !s.is R.BOOT_S_EXECUTING then s
  else
    let s := s.addW R.BOOT_REC_INDEX_INDEX 1
    let a := s.boot.abort
    let s := s.modBoot fun b =>
      { b with pos := b.pos + leAt b.image (b.pos + 4) 4, poll := none, modeWait := false, rest := none }
    if a then s.bootFail 9 0 else s

/-- CTRL[GO] (R455): in STANDBY or CONFIG, when no boot runs. -/
def State.bootGo (s : State) : State :=
  if s.is R.BOOT_S_BUSY ∨ ¬(s.mode = mStandby ∨ s.mode = mConfig) then s
  else
    let f := s.is R.BOOT_SRC_CFG_FABRIC
    let s' := s.bootBegin (if f then 2 else 1) 0
    if s.bootStrap = 1 ∧ s.get64 0xE8080 = 0 then s'.bootFail 1 0 else s'

/-- CTRL[ABORT] (R458): the verify pass ends at once, the execute pass after the record in progress. -/
def State.bootAbort (s : State) : State :=
  if !s.is R.BOOT_S_BUSY then s
  else if s.boot.poll.isSome ∨ s.boot.modeWait ∨ s.boot.rest.isSome then s.modBoot fun b => { b with abort := true }
  else s.bootFail 9 0

end Sys2Proof.Machine
end

