-- ==== Sys2Proof/Machine/DramCtl.lean ====
section
/-! DEFINITION. Bring-up, training and refresh rate of the DRAM channels (12_dram R371, R377–R385, R387). -/

namespace Sys2Proof.Machine

/-- The channels have changed: usability, CONV's bypass and a PLL-B change that waits follow (R299, R382, R385). -/
def State.chansChanged (s : State) : State := s.usableUpdate.convDram.pllbResume

/-- Whether a bring-up runs on a channel, and its mark. -/
def State.bringing (s : State) (c : Nat) : Bool := (s.chan c).bring
def State.setBring (s : State) (c : Nat) (b : Bool) : State := s.setChan c { s.chan c with bring := b }

/-- DPHY.CTRL[INIT] (R383): every populated channel is brought up, unless one is not OFF. -/
def State.dramInitOp (s : State) : State :=
  if s.dramN = 0 ∨ ((List.range s.dramN).any fun c => s.chanState c != chOff) then s
  else (s.upto s.dramN fun s c => ((s.dramZero c).setChanState c chInit).setBring c true).chansChanged

/-- The bring-up ends, with each channel's result (R383, R384). -/
def State.dramInitEnd (s : State) (rs : List TrainResult) : State :=
  let cs := (List.range s.dramN).filter fun c => s.chanState c = chInit && s.bringing c
  if cs.isEmpty then s
  else ((s.each cs fun s c => (s.trained c (rs.getD c .fail)).setBring c false).latch eDPHY 0).chansChanged

/-- DRCc.CTRL[RETRAIN] (R384): from OFFLINE the contents are lost. -/
def State.retrain (s : State) (c : Nat) : State :=
  let st := s.chanState c
  if st = chOnline ∨ st = chDegraded then (s.setChanState c chRetrain).chansChanged
  else if st = chOffline then ((s.dramZero c).setChanState c chInit).chansChanged
  else s

/-- The periodic turn of a channel (R383, R384). -/
def State.trainTurnOp (s : State) (c : Nat) (passing : Bool) : State :=
  let st := s.chanState c
  if !s.is (R.DRC_TRAIN_PERIOD_MS.pg c) || !(st = chOnline || st = chDegraded) then s
  else if passing then
    let s := s.putB (s.goodFld c) true
    if st = chDegraded then s.goOnline c else s
  else (s.setChanState c chRetrain).chansChanged

/-- A training outside a bring-up ends (R384). -/
def State.trainingEnd (s : State) (c : Nat) (r : TrainResult) : State :=
  if s.chanState c = chRetrain ∨ (s.chanState c = chInit ∧ s.bringing c = false) then (s.trained c r).chansChanged else s

/-- The MR4 refresh-rate fields are read: 0 asks for the 1x rate, 1 for 2x, 2 for more (R379). -/
def State.mr4Op (s : State) (rates : List Nat) : State :=
  if !s.domOn 13 then s
  else
    let s := s.upto s.dramN fun s c =>
      let r := rates.getD c 0
      let s := s.setChan c { s.chan c with mr4 := r }
      if r = 2 ∧ s.is R.DPHY_TEMP_CFG_MR4_EN then s.latch (eDRC c) 7 else s
    s.chooseRefRate (s.getI R.DPHY_TEMP_DEG)

end Sys2Proof.Machine
end

