-- ==== Sys2Proof/Machine/Dump.lean ====
section
/-! DEFINITION. The dump engine, master 0x41 (02_register_pages R67, R68): descriptors, refusal, copying, held and dirtying
writes. -/

namespace Sys2Proof.Machine

/-- Descriptor d of SNAP, if valid. -/
def State.dumpDesc (s : State) (d : Nat) : Option DumpDesc :=
  let b := 0x6100 + 16 * d
  if !bitOf (s.n (b + 12)) 31 then none
  else some ⟨d, s.n b + bits (s.n (b + 4)) 7 0 * 2 ^ 32, bits (s.n (b + 4)) 31 8,
    s.n (b + 8) + bits (s.n (b + 12)) 7 0 * 2 ^ 32⟩

/-- The valid descriptors in order. -/
def State.dumpDescs (s : State) : List DumpDesc := (List.range 16).filterMap s.dumpDesc

/-- A source region lies wholly inside the shared window or the populated part of one vat-local slot (R67). -/
def dumpSrcOk (a n : Nat) : Bool :=
  decide (a % 64 = 0) &&
  ((decide (0x10000000 ≤ a) && decide (a + n ≤ 0x11800000)) ||
   (decide (0x20000000 ≤ a) && decide (a + n ≤ 0x22000000) && decide (a % 0x100000 + n ≤ 0xC0000)))

/-- A destination lies wholly in populated DRAM (R67). -/
def State.dumpDstOk (s : State) (a n : Nat) : Bool :=
  decide (a % 64 = 0) && decide (dramBase ≤ a) && decide (a + n ≤ dramBase + s.dramN * s.dramU * 2 ^ 20)

/-- A descriptor obeys R67 and R73: 1 to 262,144 lines, aligned, inside its regions. -/
def State.dumpDescOk (s : State) (d : DumpDesc) : Bool :=
  decide (1 ≤ d.lines) && decide (d.lines ≤ 262144) && dumpSrcOk d.src (64 * d.lines) && s.dumpDstOk d.dst (64 * d.lines)

/-- The reason of R68 for which a dump is refused now; 0 for none. Where several conditions hold, the first of the table: the
manual names no order (DESIGN CHOICE, log entry 106). -/
def State.dumpReason (s : State) : Nat :=
  if s.dump.isSome then 1
  else if !s.dramUsable then 2
  else if (s.dumpDescs.any fun d => !s.dumpDescOk d) then 3
  else if 2 ^ 26 < 64 * (s.dumpDescs.map DumpDesc.lines).sum then 4
  else 0

/-- A snapshot starts the engine, or has it refused (R67, R68). -/
def State.dumpStart (s : State) : State :=
  if !s.is R.SNAP_DUMP_CTRL_EN then s
  else
    let r := s.dumpReason
    if r = 0 then
      let s := s.put R.SNAP_DUMP_STATUS_POISON 0
      let s := s.put R.SNAP_DUMP_DIRTY_DIRTY 0
      { s.putB R.SNAP_S_DUMP_BUSY true with dump := some ⟨s.get R.SNAP_SEQ_SEQ, s.dumpDescs, []⟩ }
    else (s.put R.SNAP_DUMP_STATUS_REASON r).latch eSNAP 4

/-! What a read of the SRAM shows (R343): words that a block keeps elsewhere, and a block's own area. -/

/-- A byte of OBJ's configuration banks and queues (06_objects_and_mould R211); a queue lists its records in queue order, and
what lies beyond them is open. -/
def State.objByte (s : State) (a : Nat) : Option Byte :=
  if 0x11700000 ≤ a ∧ a < 0x11710000 then
    let bank := (a - 0x11700000) / 0x8000
    let o := a % 0x8000 / 32
    some (nth (leBytes 4 (s.n (winKey 25 (if bank = s.get R.OBJ0_BANK_ACTIVE then 1 else 0) (8 * o + a % 32 / 4)))) (a % 4) 0)
  else if 0x11710000 ≤ a ∧ a < 0x11790000 then
    match (s.obj ((a - 0x11710000) / 512)).queue[a % 512 / 32]? with
    | some e => e.2[a % 32]?
    | none => none
  else none

/-- A block's own area, whose layout no chapter publishes. -/
def ownArea (a : Nat) : Bool :=
  (decide (0x10000000 ≤ a) && decide (a < 0x11790000)) || (decide (0x117A0000 ≤ a) && decide (a < 0x117C0000)) ||
    decide (0x20000000 ≤ a)

/-- The byte that a read shows, where `i` numbers the free values of the read: a block's own area holds what the block has
put there once a sheet has begun. -/
def State.shown (s : State) (i a : Nat) : Byte :=
  match (s.objByte a).orElse fun _ => s.convByte a with
  | some b => b
  | none => if ownArea a && s.slot != 0 then Config.freeByte i else s.byte a

/-- Draw the free values of one request. -/
def State.drawLine (s : State) : Nat × State := (s.freeCtr, { s with freeCtr := s.freeCtr + 64 })

/-- The engine stops at a line that the fabric or the channel refuses (12_dram R370): the dump ends as ABORT ends it, with the reason of
unusable DRAM (DESIGN CHOICE, log entry 150). -/
def State.dumpRefused (s : State) (r : Nat) : State :=
  let s := (s.put R.SNAP_DUMP_STATUS_REASON r).putB R.SNAP_S_DUMP_BUSY false
  { s.latch eSNAP 4 with dump := none }

/-- The engine can move a line now: no channel holds it back, and port 3 lets it pass (12_dram R374, R382). -/
def State.dumpMoves (s : State) : Bool := !s.chanWaits && s.portOpen 3

/-- A source line as the engine reads it: a poisoned word gives zeros (R67). -/
def State.dumpRead (s : State) (a : Nat) : List Byte × State :=
  let (k, s) := s.drawLine
  (List.range 64).foldl (fun (r : List Byte × State) i =>
    match sramWord (a + i) with
    | some w =>
      let q := r.2.readWord 0x41 w
      if q.1 then (r.1 ++ [q.2.shown (k + i) (a + i)], q.2)
      else (r.1 ++ [0], q.2.putB R.SNAP_DUMP_STATUS_POISON true)
    | none => (r.1 ++ [0], r.2)) ([], s)

/-- Copy one source line to its place in DRAM. -/
def State.dumpLine (s : State) (d : DumpDesc) (a : Nat) : State :=
  let (rd, s) := (s.arbVisit 0x41 a 64).permit 0x41 (targetOf a) a 64 false
  let t := d.dst + (a - d.src)
  let (wr, s) := if rd then s.permit 0x41 4 t 64 true else (false, s)
  let (shut, s) := if wr then s.imageGate t else (true, s)
  match s.dramMap t with
  | some (c, off) =>
    if shut || s.chanDo c != .serve then s.dumpRefused 2
    else
      let q := s.dumpRead a
      let s := ((q.2.portTake 3).dramStore c off 0x41 t q.1).2.imageDone t
      match s.dump with
      | some x => { s with dump := some { x with copied := (d.idx, a) :: x.copied } }
      | none => s
  | none => (s.errLog 0x41 t true 0 7).dumpRefused 2

/-- Whether a master's writes are held (R67). -/
def dumpHolds (m : Nat) : Bool := decide (m ≤ 3) || (decide (8 ≤ m) && decide (m ≤ 0x0B))

/-- A write of n bytes at address a reaches the SRAM during a dump: the line is copied first where the write is held, as far as the
engine can move, and otherwise marks its descriptors dirty (R67). -/
def State.dumpTouch (s : State) (m a n : Nat) : State :=
  s.each (((List.range n).map fun i => (a + i) / 64 * 64).eraseDups) fun s l =>
    s.each (s.dumpPending l) fun s d =>
      if !dumpHolds m then s.dumpMark d
      else if s.dumpMoves && (s.dumpPending l).contains d then s.dumpLine d l
      else s

/-- A write still waits for the engine (R67). -/
def State.dumpHeld (s : State) (m a n : Nat) : Bool :=
  dumpHolds m && (List.range n).any fun i => !(s.dumpPending ((a + i) / 64 * 64)).isEmpty

/-- The engine waits at target 2, whose lock another holds, for a line that is left (11_memory_fabric R358). -/
def State.dumpStalled (s : State) (x : DumpSt) : Bool :=
  s.lock.isSome && x.descs.any fun d =>
    (List.range d.lines).any fun i => targetOf (d.src + 64 * i) = 2 && (s.dumpPending (d.src + 64 * i)).contains d

/-- The engine copies up to n lines of those that are left, in order, as far as it can move. -/
def State.dumpRun (s : State) (n : Nat) : State :=
  match s.dump with
  | none => s
  | some x =>
    if s.dumpStalled x then s
    else
      (x.descs.foldl (fun (r : Nat × State) d =>
        (List.range d.lines).foldl (fun (r : Nat × State) i =>
          if r.1 ≠ 0 ∧ (r.2.dumpPending (d.src + 64 * i)).contains d ∧ r.2.dumpMoves then (r.1 - 1, r.2.dumpLine d (d.src + 64 * i))
          else r) r) (n, s)).2

/-- A microsecond of a regulated dump: 16 bytes in a fabric cycle (R67; 12_dram R374). -/
def State.dumpTick (s : State) : State := if s.get (R.DPHY_REG_RATE_RATE.ix 3) = 0 then s else s.dumpRun 153

/-- The engine copies every line that is left and ends the dump (R67), unless a line must still wait. -/
def State.dumpFinish (s : State) : State :=
  let s := s.dumpRun (2 ^ 26)
  match s.dump with
  | none => s
  | some x =>
    if x.descs.any fun d => (List.range d.lines).any fun i => (s.dumpPending (d.src + 64 * i)).contains d then s
    else
      let s := (s.put R.SNAP_DUMP_STATUS_DONE_SEQ x.seq).putB R.SNAP_S_DUMP_BUSY false
      { s.latch eSNAP 3 with dump := none }

/-- ABORT stops the engine at the next line and releases held writes (R68). -/
def State.dumpStop (s : State) : State := if s.dump.isSome then s.dumpRefused 1 else s

end Sys2Proof.Machine
end

