-- ==== Sys2Proof/Machine/RegView.lean ====
section
/-! DEFINITION. Where a register access lands: the word behind a register (a table window reaches the word that its selection
names) and the registers whose value is computed when they are read. -/

namespace Sys2Proof.Machine

/-- The word behind a register and the access masks in force there. -/
structure Loc where
  key : Nat
  spec : RegSpec
  deriving DecidableEq, Repr

/-- A read-only view of a register. -/
def RegSpec.ro (r : RegSpec) : RegSpec := { r with rw := 0, rwl := 0, w1c := 0, wo := 0 }

/-- A window word: RW bits, whether it belongs to a SHADOW location, whether it is a counter. -/
structure WinWord where
  key : Nat
  rw : Nat
  shadow : Bool
  frz : Bool
  deriving DecidableEq, Repr

/-- A word of the selection that does not exist: it reads zero and ignores writes. -/
def noWord (a : Nat) : WinWord := ⟨a, 0, false, false⟩

/-! Writable bits of the records (04_network R134, R144; 05 R180, R181; 06 R214, R217, R218; 08 R275, R278). -/

def full : Nat := 0xFFFFFFFF

def rxMask (w : Nat) : Nat :=
  if w = 0 then 0x3F3FF7FF else if w = 1 then 0xFFFF03FF else if w = 5 then 0xFFFFFF else if w = 7 then 0x8FFF8FFF
  else if w < 24 then full else 0

def txMask (w : Nat) : Nat :=
  if w = 0 then 0x3F3F07FF else if w = 1 then 0x7F1FF1 else if w = 5 then 0xFF else if w < 19 then full else 0

def objMask (w : Nat) : Nat :=
  if w = 0 then 0x07FF87FF else if w = 1 then 0x131FF else if w = 2 then 0xFFFFF else if w = 3 then 0xFFFF
  else if w = 4 then 0xBFBF else if w = 5 then full else 0

/-- Words per record of a kind of MOULD, its records, and the writable bits of a word. -/
def mouldWords (kind : Nat) : Nat := [4, 16, 16, 32, 512].getD kind 0
def mouldRecs (kind : Nat) : Nat := [576, 1024, 64, 1, 32].getD kind 0
def mouldMask (kind w : Nat) : Nat :=
  if kind = 0 then (if w = 3 then 0x1FFFF else full)
  else if kind = 1 then (if w = 0 then 0x3FFFFFFF else if w = 1 then 0x7FF07FF else if w = 2 then 0x7FF else if w < 12 then full else 0)
  else if kind = 2 then (if w % 2 = 0 then 0x81FF else full)
  else if kind = 3 then (if w = 0 then 0x7FF else if w = 1 then 0x3F else if w = 2 then full else if w = 3 then 0x3FFF else 0)
  else if w = 0 then 0x81FF01FF else if w = 1 then 0xFFFF else if w = 5 then 0x1FF else if w < 12 ∨ 32 ≤ w then full else 0

def outMask (w : Nat) : Nat :=
  if w = 0 then 0x7FFFF else if w = 1 then 0xFFFF1FFF else if w = 2 then 0x3F3F else if w = 4 then 0xFFFF
  else if w < 6 then full else 0

/-! Windows. -/

/-- Word w of the window of page src whose WIN_DATA register lies at a. -/
def State.window (s : State) (src w a : Nat) : WinWord :=
  if src = 13 then
    let c := s.get R.RXS0_WIN_SEL_CTX
    let k := s.get R.RXS0_WIN_SEL_KIND
    if k = 3 then noWord a
    else ⟨winKey 13 k (32 * c + w), if k = 0 then rxMask w else 0, k == 0, k == 2 && decide (1 ≤ w)⟩
  else if src = 17 then
    let c := s.get R.TXS0_WIN_SEL_CTX
    let k := s.get R.TXS0_WIN_SEL_KIND
    if k = 3 then noWord a
    else ⟨winKey 17 k (32 * c + w), if k = 0 then txMask w else 0, k == 0, k == 2 && decide (4 ≤ w)⟩
  else if src = 21 then
    let i := s.get R.ICB0_WIN_SEL_INDEX
    let k := s.get R.ICB0_WIN_SEL_KIND
    let n := 32 * s.get R.ICB0_WIN_SEL_BLOCK + w
    if k ≤ 1 then
      if n < 2 then ⟨winKey 21 k (2 * i + n), if k = 0 ∧ n = 0 then 0x3F011FFF else 0, k == 0, false⟩ else noWord a
    else if k ≤ 3 then
      if i < 64 ∧ n < 513 then
        ⟨winKey 21 k (513 * i + n), if k = 3 then 0 else if n = 0 then 0x1FF03FF else full, k == 2, false⟩
      else noWord a
    else if k = 4 ∧ i < 256 ∧ n < 32 then ⟨loopKey i n, 0, false, decide (3 ≤ n)⟩
    else noWord a
  else if src = 25 then
    let o := s.get R.OBJ0_WIN_SEL_INDEX
    let k := s.get R.OBJ0_WIN_SEL_KIND
    if k ≤ 1 ∧ w < 8 then ⟨winKey 25 k (8 * o + w), if k = 0 then objMask w else 0, k == 0, false⟩ else noWord a
  else if src = 29 then
    let i := s.get R.MOULD0_WIN_SEL_INDEX
    let k := s.get R.MOULD0_WIN_SEL_KIND
    let set := s.get R.MOULD0_WIN_SEL_SET
    let n := (if k = 4 then 32 * s.get R.MOULD0_WIN_SEL_BLOCK else 0) + w
    if i < mouldRecs k ∧ n < mouldWords k then
      ⟨mouldKey set k (mouldWords k * i + n), if set = s.mset then 0 else mouldMask k n, set != s.mset && set == s.n 0x68080 % 2, false⟩
    else noWord a
  else if src = 33 then
    let i := s.get R.MIX0_WIN_SEL_INDEX
    let k := s.get R.MIX0_WIN_SEL_KIND
    if k ≤ 1 then
      ⟨winKey 33 k (i / 16 * 32 + w), if k = 1 then 0 else if w % 2 = 0 then 0x83FFFFFF else full, k == 0, false⟩
    else if k ≤ 3 then
      if i < 64 then ⟨winKey 33 k (i / 8 * 32 + w), if k = 3 then 0 else if w % 4 = 3 then 0x8000001F else full, k == 2, false⟩
      else noWord a
    else if k = 4 ∧ i / 32 * 32 + w < 576 then ⟨winKey 33 4 (i / 32 * 32 + w), 0, false, true⟩
    else noWord a
  else if src = 37 then
    let i := s.get R.OUT0_WIN_SEL_INDEX
    let k := s.get R.OUT0_WIN_SEL_KIND
    let n := 32 * min 2 (s.get R.OUT0_WIN_SEL_BLOCK) + w
    if k ≤ 1 then
      if n < 8 then ⟨winKey 37 k (8 * i + n), if k = 0 then outMask n else 0, k == 0, false⟩ else noWord a
    else if k ≤ 3 then
      if n < 80 then ⟨winKey 37 k (96 * i + n), if k = 2 then full else 0, k == 2, false⟩ else noWord a
    else noWord a
  else noWord a

/-- ANCHOR_LO and ANCHOR_HI in the run state of a transmit context are a 64-bit pair (R160). -/
def State.anchorPair (s : State) (src w : Nat) : Bool := src == 17 && w == 2 && s.get R.TXS0_WIN_SEL_KIND == 2

/-- The pages whose offsets 0x100 to 0x17F are a window of 32 words. -/
def windowPage (src : Nat) : Bool := src = 13 || src = 17 || src = 21 || src = 25 || src = 29 || src = 33 || src = 37

/-- The MSI-X table entry words (PCI Express 4.0): address, upper address, data, vector control. -/
def msixMask (w : Nat) : Nat := if w = 0 then 0xFFFFFFFC else if w = 3 then 1 else full

/-- The location of the register at a register-space address, for master m: each function has an MSI-X table of its own
(15_power_and_bringup R454). -/
def State.locate (s : State) (m a : Nat) : Option Loc :=
  match srcOf a with
  | none => none
  | some src =>
    let off := a % 0x1000
    if src = 60 ∧ 0x800 ≤ off ∧ off < 0xA00 then
      let n := (off - 0x800) / 4
      some ⟨winKey 60 0 (b2n (m == 1) * 128 + n), hdrSpec off (msixMask (n % 4)) 0 0 (if n % 4 = 3 then 1 else 0) 0⟩
    else if src = 60 ∧ 0xC00 ≤ off ∧ off < 0xC08 then some ⟨a, hdrSpec off 0 0 0 0 0⟩
    else match regOf a with
      | none => none
      | some (r, i) =>
        if windowPage src ∧ 0x100 ≤ off ∧ off < 0x180 then
          let q := s.window src i a
          some ⟨q.key, { r with rw := q.rw, act := if q.shadow then q.key else 0, frz := q.frz, pairLow := s.anchorPair src i }⟩
        else if 9 ≤ src ∧ src ≤ 12 ∧ (off = 0x104 ∨ off = 0x108) then
          some ⟨winKey src 0 (2 * s.get (R.MAC_MCX_SEL_INDEX.pg (src - 9)) + (off - 0x104) / 4), r⟩
        else if src = 50 ∧ 0xC4 ≤ off ∧ off ≤ 0xD4 then
          let t := s.get R.FAB_AT_SEL_TARGET
          if t < 5 then some ⟨atKey t (s.get R.FAB_AT_SEL_REGION) ((off - 0xC4) / 4), r⟩
          else some ⟨a, { r.ro with guard := r.guard, tmr := 0 }⟩
        else if src = 51 ∧ 0x200 ≤ off ∧ off < 0x240 then some ⟨winKey 51 0 (16 * s.get R.SRAM_VCE_SEL_VAT + i), r⟩
        else some ⟨a, r⟩

/-! Values computed at the read. -/

/-- A ramp is in progress at t. -/
def Seg.moving (t : Int) (g : Seg) : Bool := decide (g.at0 ≤ t) && decide (t < g.at0 + (g.ramp : Int))

/-- Word w of object o's run state (06_objects_and_mould R215): at its latest knot, with the record that the knot was computed from. -/
def State.objRun (s : State) (o w : Nat) : Nat :=
  let e := (s.knots.filter fun e => decide (e.1 / 2 ^ 64 = o)).getLast?
  let k := e.map Prod.snd
  let t : Int := match e with
    | some e => 6 * s.renderSheet (e.1 % 2 ^ 64) + 5
    | none => 6 * s.frozenTo
  let x := s.obj o
  let p := pathAt x.pos t
  let sp := pathAt x.spread t
  if w = 0 then
    let moving := [x.pos, x.gain, x.spread].any fun l => (segAt l t).any (Seg.moving t)
    (match k with | some k => k.mode | none => stepAt x.mode t % 4) + bits (stepAt x.flags t) 1 0 * 4 + min 16 x.queue.length * 16 +
      (match k with | some k => (match k.tris.head? with | some (some n) => n | _ => 0x7FF) | none => 0x7FF) * 2 ^ 16 +
      b2n (k.any fun k => k.held) * 2 ^ 28 + b2n moving * 2 ^ 29
  else if w ≤ 3 then satTz 32 (p.getD (w - 1) 0)
  else if w = 4 then satTz 32 ((pathAt x.gain t).getD 0 0)
  else if w = 5 then satTz 16 (sp.getD 0 0) + satTz 16 (sp.getD 1 0) * 2 ^ 16
  else if w = 6 then stepAt x.zones t % 2 ^ 16 + satTz 16 (sp.getD 2 0) * 2 ^ 16
  else if w = 7 then (match e with | some e => satTz 20 (ddist (s.recIn o (e.1 % 2 ^ 64)) e.2) | none => 0)
  else 0

/-- Word w of block b of object o's queue (KIND 3). -/
def State.objQueue (s : State) (o b w : Nat) : Nat :=
  match ((s.obj o).queue)[4 * b + w / 8]? with
  | some e => leAt e.2 (4 * (w % 8)) 4
  | none => 0

/-- A window word that no store holds: filter coefficients, object run state and queues, compressor and output run state. -/
def State.liveWindow (s : State) (src w : Nat) : Option Nat :=
  if src = 21 then
    let i := s.get R.ICB0_WIN_SEL_INDEX
    let n := 32 * s.get R.ICB0_WIN_SEL_BLOCK + w
    match s.get R.ICB0_WIN_SEL_KIND with
    | 5 =>
      let kk := if i = 0 then 7 else 11
      if 2 ≤ i ∨ 2 * kk + 1 < n then some 0 else if n = 0 then some kk else some (tz 32 (halfBand i kk ((n : Int) - 1 - kk)))
    | 6 => some (if n < 2048 then satTz 32 (asrcProto ((n : Int) - 1024)) else 0)
    | _ => none
  else if src = 17 then
    let t := s.get R.TXS0_WIN_SEL_CTX
    if s.get R.TXS0_WIN_SEL_KIND = 2 ∧ w = 0 then some (s.n (txKey t 0) % 2 + 2 * b2n (s.sendingSilence t)) else none
  else if src = 25 then
    match s.get R.OBJ0_WIN_SEL_KIND with
    | 2 => some (s.objRun (s.get R.OBJ0_WIN_SEL_INDEX) w)
    | 3 => some (s.objQueue (s.get R.OBJ0_WIN_SEL_INDEX) (s.get R.OBJ0_WIN_SEL_BLOCK) w)
    | _ => none
  else if src = 33 then
    let a := s.get R.MIX0_WIN_SEL_INDEX / 32 * 32 + w
    if s.get R.MIX0_WIN_SEL_KIND = 5 then some (if a < 64 then satTz 16 (toFix 8 (tget zeroAt s.mix.comp a)) else 0) else none
  else if src = 37 then
    if s.get R.OUT0_WIN_SEL_KIND = 4 then
      some (if s.get R.OUT0_WIN_SEL_BLOCK = 0 then s.outRun (s.get R.OUT0_WIN_SEL_INDEX) w else 0) else none
  else none

/-- A digest register of WMK: half h of a value. -/
def half (x : BitVec 64) (h : Nat) : Nat := x.toNat / 2 ^ (32 * h) % 2 ^ 32

/-- Enabled crosspoints of the ACTIVE bank. -/
def State.xpCount (s : State) : Nat := (s.xpEnabled 1).length

/-- The value of a register that is computed when it is read; none where its word holds it. -/
def State.computed (s : State) (m src off : Nat) : Option Nat :=
  if src = 5 then
    if 0x80 ≤ off ∧ off < 0x90 then
      some ((List.range 32).foldl (fun x i => let n := 8 * (off - 0x80) + i
        if allSources.contains n && s.pend n then x + 2 ^ i else x) 0)
    else if off = 0xA0 then some s.vecActive else none
  else if src = 7 then
    let h := off / 4 % 2
    if 0x80 ≤ off ∧ off < 0x88 then some (half s.wAll h)
    else if 0x88 ≤ off ∧ off < 0x90 then some (half s.wRing h)
    else if 0x90 ≤ off ∧ off < 0x98 then some (half s.wGroup h)
    else if off = 0xC8 ∨ off = 0xCC then some (half (s.digestOf (s.get R.WMK_PAGE_SEL_SOURCE)) h)
    else if off = 0xD0 ∨ off = 0xD4 then some (half (tget zeroAt s.wmk.scan (s.get R.WMK_PAGE_SEL_SOURCE)) h)
    else none
  else if src = 8 then (if 0x100 ≤ off ∧ off < 0x180 then some (s.padW ((off - 0x100) / 4)) else none)
  else if 9 ≤ src ∧ src ≤ 12 then
    let p := src - 9
    if off = 0xC then some (s.n (pageBase src + off) &&& (2 ^ 32 - 33) ||| b2n (s.eeeBlocked p) * 32)
    else if off = R.MAC_PAUSE_LEFT_QUANTA.addr % 0x1000 then some (min (2 ^ 16 - 1) (s.pauseLeft p)) else none
  else if src = 13 ∧ off = 0xC then some (s.n 0x2000C / 2 * 2 + b2n s.lossActive)
  else if src = 33 ∧ off = 0xA0 then some s.xpCount
  else if windowPage src && decide (0x100 ≤ off) && decide (off < 0x180) then s.liveWindow src ((off - 0x100) / 4)
  else if src = 41 then
    if off = 0xC4 then some s.convMask
    else if 0x100 ≤ off ∧ off < 0x138 then some (s.convExp ((off - 0x100) / 4)) else none
  else if 42 ≤ src ∧ src ≤ 49 then
    let e := src - 42
    if off = 0x104 then some (s.ieDmData e).toNat else if off = 0x10C then some (s.iePmData e).toNat
    else if off = 0x114 then some (s.ieRegData e).toNat else none
  else if src = 60 then
    if off = 0xC00 then
      some ((List.range 32).foldl (fun x v => if tget zeroAt s.msix.pba (b2n (m == 1) * 32 + v) != 0 then x + 2 ^ v else x) 0)
    else none
  else if 64 ≤ src then
    let v := src - 64
    if off = 0xC then some (s.n (pageBase src + off) / 2 * 2 + b2n (s.wfMap v != 0))
    else if off = 0x84 then some (s.wfMap v)
    else if off = 0x88 then some (s.pairsActive v)
    else if 0x100 ≤ off ∧ off < 0x180 then some (s.objMap v ((off - 0x100) / 4))
    else if 0x200 ≤ off ∧ off < 0x280 then some (s.pairData v ((off - 0x200) / 4))
    else none
  else none

/-- The live value behind a location. -/
def State.live (s : State) (m a : Nat) (l : Loc) : Word :=
  match s.computed m ((srcOf a).getD 96) (a % 0x1000) with
  | some v => w32 v
  | none => s.w l.key

end Sys2Proof.Machine
end

