-- ==== Sys2Proof/Machine/RegHook.lean ====
section
/-! DEFINITION. What a register write or read does beyond storing or returning a word: the commands that software gives by a
register, each at the rule of its block. The hook of a 64-bit pair belongs to its high half. -/

namespace Sys2Proof.Machine

/-- The value that a write stores where the register limits it: DRAM_BASE while CONV runs (09_room_correction R292), GEOM
unless every channel is OFF (12_dram R366), the data port of an engine (10_insert_engines R336). -/
def State.adjust (s : State) (a : Nat) (old new : Word) : Word :=
  if a = 0x80084 then (if s.is R.CONV_C_EN then old else new)
  else if a = 0xB8080 then (if (List.range 4).any fun c => s.chanState c != chOff then old else new)
  else if 0x90000 ≤ a ∧ a < 0x98000 ∧ a % 0x1000 = 0x104 then old
  else if a = 0x109C then w32 (putBits new.toNat 7 0 (min (bits new.toNat 7 0) (s.get R.PWR_TJ_CFG_SHUT - 5)))
  else new

/-! The header (02_register_pages R47, R64). -/

/-- EVENT bits of a page. -/
def evBits (src : Nat) : Nat :=
  match pageOfSrc src with
  | some p => eventMask p.blk
  | none => 0

/-- SNAP_CTRL[THAW]: the page's counters read live again. -/
def State.thaw (s : State) (src : Nat) : State :=
  { s.clrW (pageBase src + 0x20) 8 with frozen := s.frozen.filter fun e => keySrc e.1 != src }

def State.headerHook (s : State) (src off v : Nat) : State :=
  if off = 0x18 then s.orW (evKey src) (v &&& evBits src)
  else if off = 0x20 ∧ bitOf v 2 then s.thaw src
  else s

/-! SNAP, EVT, HOST (02_register_pages R62, R63, R68). -/

/-- The match is written (R63): it can fire once, unless its value has passed. -/
def State.matchWritten (s : State) : State :=
  if s.get64 0x6090 ≤ s.hsiNow then { s with matchArmed := false }.latch eSNAP 2 else { s with matchArmed := true }

/-- The match is enabled, by its bit of TRIG_EN or by arming SNAP (R63; log entry 16). -/
def State.matchEnabled (s : State) : State :=
  if s.get64 0x6090 ≤ s.hsiNow then { s with matchArmed := false }.latch eSNAP 2 else s

/-- A vector's mask is written; unmasked, its pending message is sent (R62). -/
def State.vecMask (s : State) (fn v : Nat) (b : Bool) : State :=
  let i := fn * 32 + v
  let s := { s with msix := { s.msix with mask := tset (fun _ => 1) s.msix.mask i (b2n b) } }
  if b || !bitOf s.msix.en fn || bitOf s.msix.fmask fn || decide (tget zeroAt s.msix.pba i = 0) then s
  else { s with msix := { s.msix with pba := tset zeroAt s.msix.pba i 0 } }.emit (.msix fn v)

def State.hookSnap (s : State) (off old v : Nat) : State :=
  if off = 8 then (if bitOf v 1 && !bitOf old 1 && bitOf (s.get R.SNAP_TRIG_EN_EN) 2 then s.matchEnabled else s)
  else if off = 0x94 then s.matchWritten
  else if off = 0x80 ∧ bitOf v 2 ∧ !bitOf old 2 then s.matchEnabled
  else if off = 0xB0 ∧ bitOf v 1 then s.dumpStop
  else s

def State.hookEvt (s : State) (off v : Nat) : State :=
  if off = 0xA8 then
    s.upto 32 fun s i => if bitOf v i && bitOf s.vecActive i then s.msixRequest i else s
  else s

def State.hookHost (s : State) (m off v : Nat) : State :=
  if 0x800 ≤ off ∧ off < 0xA00 ∧ off % 16 = 12 then s.vecMask (b2n (m == 1)) ((off - 0x800) / 16) (bitOf v 0) else s

/-! PWR, CLK, TIME. -/

def State.hookPwr (s : State) (off v : Nat) : State :=
  if off = 0x80 ∧ bitOf v 31 then s.modeRequest (v % 8)
  else if off = 0x8C then s.domRst v
  else s

def State.hookClk (s : State) (off v : Nat) : State :=
  if off = 0x84 ∧ bitOf v 31 then s.pllbApplyOp
  else if off = 0xB0 then s.syncArmed
  else if 0x90 ≤ off ∧ off < 0xA0 then s.mclkSet ((off - 0x90) / 4)
  else if off = 0xB8 ∧ !bitOf v 0 then s.setLockF 400
  else s

def State.hookTime (s : State) (off old v : Nat) : State :=
  if off = 8 then
    let s := s.forceHoldWritten (bitOf old 0) (bitOf v 0)
    if bitOf v 1 then s.measFlushOp else s
  else if off = 0x80 then (if old % 8 = v % 8 then s.setTime fun t => { t with ignore := false } else s.srcWritten)
  else if off = 0xAC then s.reanchorOp (v % 4)
  else if off = 0xB8 then s.steer
  else if off = 0xC0 then (if bitOf v 0 then s.captureOp else s)
  else if off = 0xD8 then (if bitOf v 0 then s.hsiSetOp else s)
  else if off = 0x240 then (if bitOf v 0 then s.measPushOp else s)
  else s

/-! Network, conditioning, objects, buses, press, outputs. -/

def State.hookMac (s : State) (p off old v : Nat) : State :=
  if off = 0x80 then s.pcsWritten p old v
  else if 0x608 ≤ off ∧ off < 0x708 ∧ (off % 32 = 8 ∨ off % 32 = 12) then
    (if off % 32 = 8 then s.ringEnWritten p ((off - 0x608) / 32) old v else s).queuesFell (s.setN (0x10000 + 0x1000 * p + off) old) p
  else s

/-- DC_CLEAR (05_input_conditioning R178). -/
def State.dcClear (s : State) (x v : Nat) : State :=
  s.upto 32 fun s i => if bitOf v i then { s with dcClr := tset zeroAt s.dcClr (32 * x + i) 1 } else s

/-- A window write to a word that the block keeps in SRAM: the block makes it (02_register_pages R67). -/
def State.winDirty (s : State) (a off : Nat) : State :=
  if 0x100 ≤ off ∧ off < 0x180 ∧ s.dump.isSome then
    match s.locate 0 a with
    | some l => if l.spec.rw = 0 then s else s.wordDirty l.key
    | none => s
  else s

/-- Q_FLUSH. -/
def State.hookObj (s : State) (off v : Nat) : State :=
  if off = 0x8C ∧ bitOf v 31 then s.qFlush (v % 1024) else s

/-- A window write to the ACTIVE mould set (06_objects_and_mould R195). -/
def State.hookMould (s : State) (off : Nat) : State :=
  if 0x100 ≤ off ∧ off < 0x180 ∧ s.get R.MOULD0_WIN_SEL_SET = s.mset then s.latch eMOULD 0 else s

def State.hookMix (s : State) (off v : Nat) : State :=
  if off = 0x84 then s.testRestart
  else if off = 0x90 ∧ bitOf v 31 then s.fadePush (v % 8192)
  else s

/-! Room correction, engines, memory. -/

/-- A new DRAM_BASE empties both sets (09_room_correction R292). -/
def State.baseWritten (s : State) (old : Word) : State :=
  if s.w 0x80084 = old then s else (((s.convEmpty 0).convEmpty 1).lostUpdate).reImage (s.setW 0x80084 old)

def State.hookConv (s : State) (off : Nat) (old : Word) (v : Nat) : State :=
  if off = 8 then (if bitOf v 0 && !bitOf old.toNat 0 then s.convCold else if bitOf v 0 then s else s.convStop)
  else if off = 0x84 then s.baseWritten old
  else if off = 0x88 then
    let s := if bitOf v 6 then s.loadAbort else s
    if bitOf v 4 || bitOf v 5 then s.loadReq v else s
  else s

def State.hookIe (s : State) (e off : Nat) (v : Word) : State :=
  if off = 8 then
    let s := if bitOf v.toNat 0 then s.ieRestart e else s
    if bitOf v.toNat 1 then s.ieHalt e else s
  else if off = 0xC0 then (if bitOf v.toNat 0 then s.ieDoor e else s)
  else if off = 0x104 then (s.ieDmWrite e v).ieDmNext e
  else s

def State.hookDrc (s : State) (c off v : Nat) : State :=
  if off = 8 then (if bitOf v 0 then (s.retrain c).slotsUpdate else s)
  else if off = 0x80 then s.predictorReset c
  else if off = 0xD0 then s.dramInjectOp c v
  else s

def State.hookDphy (s : State) (off v : Nat) : State :=
  if off = 8 then (if bitOf v 0 then s.dramInitOp.slotsUpdate else s)
  else if off = 0x80 then s.popSize.usableUpdate
  else if 0x100 ≤ off ∧ off < 0x140 then s.portWritten ((off - 0x100) / 8)
  else s

/-! Ring, redundancy, boot. -/

def State.hookRing (s : State) (off v : Nat) : State :=
  if off = 8 then s.ringStatus
  else if off = 0xC8 then (if bitOf v 0 then s.ringSnapGo else s)
  else if off = 0xE8 then (if bitOf v 31 then s.rraGo (v % 8) else s)
  else if off = 0x104 then (if bitOf v 0 then s.bulkGo else s)
  else s

/-- The watchdog starts again (14_redundancy R429). -/
def State.wdogRestart (s : State) : State := s.modRed fun r => { r with kick := s.absCyc }

def State.hookRed (s : State) (off old v : Nat) : State :=
  if off = 8 then
    let s := if bitOf v 0 && !bitOf old 0 then s.wdogRestart else s
    let s := s.faultUpdate
    if bitOf v 1 && s.redOn then s.raiseCause 6 else s
  else if off = 0x80 then s.arbModeWritten old
  else if off = 0x98 ∨ off = 0x9C then s.slotsUpdate
  else if off = 0xAC then s.faultUpdate
  else if off = 0xB4 then s.wdogRestart
  else if off = 0xB8 then (if bitOf v 0 then s.wdogKick else s)
  else s

def State.hookBoot (s : State) (off v : Nat) : State :=
  if off = 8 then
    let s := if bitOf v 1 then s.bootAbort else s
    if bitOf v 0 then s.bootGo else s
  else s

/-- The effect of a write of v (guarded and absent bits already masked) to the register at a, after the word is stored. -/
def State.writeHook (s : State) (m a : Nat) (old : Word) (v : Word) : State :=
  let src := (srcOf a).getD 96
  let off := a % 0x1000
  let o := old.toNat
  let x := v.toNat
  let s := s.headerHook src off x
  if off < 0x80 ∧ off ≠ 8 then s
  else if src = 0 then (if off = 0xA0 ∧ bitOf x 0 then s.recognise 1 else s)
  else if src = 1 then s.hookPwr off x
  else if src = 2 then s.hookClk off x
  else if src = 3 then s.hookTime off o x
  else if src = 5 then s.hookEvt off x
  else if src = 6 then s.hookSnap off o x
  else if src = 7 then (if 0xE0 ≤ off ∧ off < 0xEC then s.wmkStatus else s)
  else if src = 8 then (if off = 0x90 then s.pressReq x else s)
  else if 9 ≤ src ∧ src ≤ 12 then s.hookMac (src - 9) off o x
  else if src = 22 then (if 0x100 ≤ off ∧ off < 0x180 then s.dcClear ((off - 0x100) / 4) x else s)
  else if src = 21 then s.winDirty a off
  else if src = 25 then (s.winDirty a off).hookObj off x
  else if src = 29 then (s.winDirty a off).hookMould off
  else if src = 33 then (s.winDirty a off).hookMix off x
  else if src = 41 then s.hookConv off old x
  else if 42 ≤ src ∧ src ≤ 49 then s.hookIe (src - 42) off v
  else if src = 51 then (if off = 0xA8 then s.sramInjectOp x else s)
  else if 52 ≤ src ∧ src ≤ 55 then s.hookDrc (src - 52) off x
  else if src = 56 then s.hookDphy off x
  else if src = 57 then (if off = 8 then s.portsWritten else s)
  else if src = 58 then s.hookRing off x
  else if src = 59 then s.hookRed off o x
  else if src = 60 then s.hookHost m off x
  else if src = 61 then s.hookBoot off x
  else s

/-- The effect of a read of the register at a, after its value is taken: the data ports of an engine step on
(10_insert_engines R336). -/
def State.readHook (s : State) (_m a : Nat) : State :=
  let src := (srcOf a).getD 96
  if 42 ≤ src ∧ src ≤ 49 then
    if a % 0x1000 = 0x104 then s.ieDmNext (src - 42)
    else if a % 0x1000 = 0x10C then s.iePmNext (src - 42)
    else s
  else s

end Sys2Proof.Machine
end

