-- ==== Sys2Proof/Machine/Access.lean ====
section
/-! DEFINITION. Register access (02_register_pages R49–R60): the access-rule table of R52 in its order, guards, the page lock, pair
latches, triplicated reads, frozen counter views, narrow and wide accesses. -/

namespace Sys2Proof.Machine

/-- R52 rules 1 to 4 for an access of `width` bytes: the response that ends it, if any, with what FAB logs. -/
def State.regCheck (s : State) (m a width : Nat) (write : Bool) : Option Resp × State :=
  if a % width ≠ 0 then (some .terr, s)
  else match srcOf a with
    | none => (some .derr, s.errLog m a write 0 7)
    | some src =>
      if !s.allowed m 0 a width write then (some .terr, s.errLog m a write 2 0)
      else if !s.pageOn src then (some .terr, s.errLog m a write 1 0)
      else if write && decide (width < 4) then (some .terr, s)
      else (none, s)

/-- Whether the page of a source is locked: the majority of its three lock copies (R49). -/
def State.locked (s : State) (src : Nat) : Bool := (s.majW (pageBase src + 0x1C)).toNat % 2 = 1

/-- The triplicated fields of a word, the runs of ones of its mask, that hold a bit of d. -/
def fieldsHit (mask d : Nat) : Nat :=
  ((List.range 32).foldl (fun (r : Nat × Bool) i =>
    if !bitOf mask i then (r.1, false) else if bitOf d i && !r.2 then (r.1 + 1, true) else r) (0, false)).1

/-- A read of a triplicated word corrects disagreeing copies; each field corrected is counted and latched (R58). -/
def State.tmrFix (s : State) (src off k mask : Nat) : State :=
  let da := tget zeroAt s.tmrA k
  let db := tget zeroAt s.tmrB k
  let n := fieldsHit mask (da ||| db).toNat
  if n = 0 then s
  else
    let v := s.majW k
    let s := ({ s with tmrA := tset zeroAt s.tmrA k 0, tmrB := tset zeroAt s.tmrB k 0 }).setW k v
    let s := s.addS R.SYS_TMR_FIX_CNT_COUNT n
    let s := (s.put R.SYS_TMR_FIX_LAST_SOURCE src).put R.SYS_TMR_FIX_LAST_OFFSET off
    s.latchN src 30 n

/-- Whether the counter view of a page is frozen (R64): SNAP_CTRL[FROZEN], bit 3. -/
def State.isFrozen (s : State) (src : Nat) : Bool := bitOf (s.n (pageBase src + 0x20)) 3

/-- The bits of a freezable word that are counters: RUNS alone in PROOF_STATUS (14_redundancy R442). -/
def frzBits (k : Nat) : Word := if k = 0xD00C0 then 0xFFFF0000 else 0xFFFFFFFF

/-- The full 32-bit value of the register at a for master m, with its counters live or as a frozen view shows them (R64). -/
def State.viewReg (s : State) (src m a : Nat) (frozen : Bool) : Word × State :=
  let off := a % 0x1000
  match pageOfSrc src with
  | none => (0, s)
  | some p =>
    if off = 0 then (w32 (p.typ * 2 ^ 16 + p.idInst * 2 ^ 8 + 1), s)
    else if off = 4 then (w32 p.caps, s)
    else if off = 0x1C then
      let s := s.tmrFix src off a 1
      (w32 ((s.w a).toNat % 2), s)
    else if off = 0x24 ∨ (0x40 ≤ off ∧ off < 0x80) then (s.w a, s)
    else match s.locate m a with
      | none => (0, s)
      | some l =>
        let s := s.tmrFix src off l.key l.spec.tmr
        let c := frzBits l.key
        (if l.spec.frz && frozen then (tget zeroAt s.frozen l.key &&& c) ||| (s.live m a l &&& ~~~ c) else s.live m a l, s)

/-- The full 32-bit value that a read of the register at a takes, before guards and pairs. -/
def State.readRaw (s : State) (src m a : Nat) : Word × State := s.viewReg src m a (s.isFrozen src)

/-- The guarded bits that an access by master m must not see. -/
def hidden (m : Nat) (l : Option Loc) : Nat :=
  match l with
  | some l => if isSecure m then 0 else l.spec.guard
  | none => 0

/-- The pair of which the register at a is a half: the address of the low half. -/
def State.pairLow (s : State) (a : Nat) : Option Nat :=
  match s.locate 0 a with
  | some l => if l.spec.pairLow then some a
    else if 4 ≤ a % 0x1000 then
      match s.locate 0 (a - 4) with
      | some l' => if l'.spec.pairLow then some (a - 4) else none
      | none => none
    else none
  | none => none

/-- The pair latch of a page. -/
def State.pairTag (s : State) (src : Nat) : Option PairTag := s.pairs.find? fun t => t.page == src

def State.clearTag (s : State) (src : Nat) : State := { s with pairs := s.pairs.filter fun t => t.page != src }

def State.setTag (s : State) (t : PairTag) : State := { s.clearTag t.page with pairs := s.pairs.filter (fun u => u.page != t.page) ++ [t] }

/-- A 32-bit read of a register, rules 5 to 8 of R52 with the pair latch of R55. -/
def State.readReg (s : State) (src m a : Nat) : Word × State :=
  let l := s.locate m a
  let h := hidden m l
  let (v, s1) := s.readRaw src m a
  let (v, s1) :=
    match s.pairLow a with
    | none => (v, s1)
    | some lo =>
      if a = lo then
        let (hv, s2) := s1.readRaw src m (a + 4)
        (v, s2.setTag ⟨src, m, lo, false, hv⟩)
      else match s.pairTag src with
        | some t =>
          if t.master = m ∧ t.low = lo ∧ t.write = false then (t.held, s1.clearTag src) else (v, s1)
        | none => (v, s1)
  let s1 := if h = 0 then s1 else s1.guardHit m a false
  (v &&& ~~~ w32 h, s1.readHook m a)

/-- The press is pending (R260). -/
def State.pressPending (s : State) : Bool := s.is R.PRESS_S_PENDING

/-- A write to a location would change an RWL bit of a locked page (R50). -/
def State.rwlRefused (s : State) (src : Nat) (l : Option Loc) (h : Nat) (v : Word) : Bool :=
  match l with
  | some l => s.locked src && ((s.majW l.key ^^^ v) &&& w32 l.spec.rwl &&& ~~~ w32 h) != 0
  | none => false

/-- A write to a SHADOW location while a press is pending is refused (R260). -/
def State.shadowRefused (s : State) (l : Option Loc) : Bool :=
  match l with
  | some l => decide (l.spec.act ≠ 0) && s.pressPending
  | none => false

/-- The word that a write of v leaves: RW and RWL bits take v, W1C bits clear where v is 1, the rest keeps. -/
def mergeWrite (old v : Word) (sp : RegSpec) (h : Nat) : Word :=
  let w := w32 (sp.rw ||| sp.rwl) &&& ~~~ w32 h
  let kept := (old &&& ~~~ w) ||| (v &&& w)
  kept &&& ~~~ (v &&& w32 sp.w1c &&& ~~~ w32 h)

/-- Store what a write leaves, set all three copies of triplicated bits (R58), then act. -/
def State.storeReg (s : State) (m a : Nat) (h : Nat) (v : Word) : State :=
  match s.locate m a with
  | none => s
  | some l =>
    let old := s.majW l.key
    let new := s.adjust a old (mergeWrite old v l.spec h)
    let s := if l.spec.tmr = 0 then s else
      { s with tmrA := tset zeroAt s.tmrA l.key 0, tmrB := tset zeroAt s.tmrB l.key 0 }
    (if new = s.w l.key then s else s.setW l.key new).writeHook m a old (v &&& ~~~ w32 h)

/-- A write to the page's LOCK (R49). -/
def State.writeLock (s : State) (src : Nat) (v : Word) : Resp × State :=
  let k := pageBase src + 0x1C
  if s.locked src then (.terr, s.latch src 31)
  else if v = 0x4C4F434B then
    (.ok, ({ s with tmrA := tset zeroAt s.tmrA k 0, tmrB := tset zeroAt s.tmrB k 0 }).setW k 1)
  else (.ok, s)

/-- A write that a block refuses with TERR: a load of the set that a pending commit brings into force (R260), a fader
command with the FIFO full (08_buses_and_outputs R252), a remote access while one is outstanding (13_apsal_systems R406). -/
def State.blockRefuses (s : State) (a h : Nat) (v : Word) : Option State :=
  let x := (v &&& ~~~ w32 h).toNat
  if a = 0x80088 ∧ (bitOf x 4 ∨ bitOf x 5) ∧ s.pressedSet (x % 2) then some (s.latch ePRESS 2)
  else if a = 0x70090 ∧ bitOf x 31 ∧ 256 ≤ s.mix.fifo.length then some (s.latch eMIX 2)
  else if a = 0xC20E8 ∧ bitOf x 31 ∧ s.is R.RING_RRA_STATUS_BUSY then some s
  else none

/-- A refused write (R50, R260): no effect but the latch. -/
def State.refuseWrite (s : State) (src : Nat) (rwl : Bool) : Resp × State :=
  (.terr, if rwl then s.latch src 31 else s.latch ePRESS 2)

/-- Both halves of a pair in one peripheral clock (R54, R55): R50 judges them together. -/
def State.writePair (s : State) (src m lo : Nat) (vl vh : Word) : Resp × State :=
  let ll := s.locate m lo
  let lh := s.locate m (lo + 4)
  let hl := hidden m ll
  let hh := hidden m lh
  let s := if hl = 0 ∧ hh = 0 then s else s.guardHit m lo true
  if s.rwlRefused src ll hl vl || s.rwlRefused src lh hh vh then s.refuseWrite src true
  else if s.shadowRefused ll || s.shadowRefused lh then s.refuseWrite src false
  else (.ok, (s.storeReg m lo hl vl).storeReg m (lo + 4) hh vh)

/-- A 32-bit write of a register, rules 5 to 8 of R52. A matching write of a high half clears the tag (R55) also where R50 refuses it
(DESIGN CHOICE, log entry 115). -/
def State.writeReg (s : State) (src m a : Nat) (v : Word) : Resp × State :=
  if a % 0x1000 = 0x1C then s.writeLock src v
  else
    let l := s.locate m a
    let h := hidden m l
    let plain (s : State) : Resp × State :=
      let s := if h = 0 then s else s.guardHit m a true
      if s.rwlRefused src l h v then s.refuseWrite src true
      else if s.shadowRefused l then s.refuseWrite src false
      else match s.blockRefuses a h v with
        | some s => (.terr, s)
        | none => (.ok, s.storeReg m a h v)
    match s.pairLow a with
    | none => plain s
    | some lo =>
      if a = lo then
        let s := if h = 0 then s else s.guardHit m a true
        if s.shadowRefused l then s.refuseWrite src false else (.ok, s.setTag ⟨src, m, lo, true, v⟩)
      else match s.pairTag src with
        | some t =>
          if t.master = m ∧ t.low = lo ∧ t.write = true then
            let r := s.writePair src m lo t.held v
            (r.1, r.2.clearTag src)
          else plain s
        | none => plain s

/-- The four lanes that a read of `width` bytes returns: those not addressed read zero (R53). -/
def lanes (v : Word) (a width : Nat) : List Byte :=
  (leBytes 4 v.toNat).zipIdx.map fun x => if a % 4 ≤ x.2 ∧ x.2 < a % 4 + width then x.1 else 0

/-- One register access of 1, 2 or 4 bytes (R52, R53): the response, the data read and the state. -/
def State.reg32 (s : State) (m a width : Nat) (write : Bool) (v : Word) : Resp × List Byte × State :=
  match s.regCheck m a width write with
  | (some r, s) => (r, if write then [] else [0, 0, 0, 0], s)
  | (none, s) =>
    let src := (srcOf a).getD 96
    if write then
      let q := s.writeReg src m a v
      (q.1, [], q.2)
    else
      let q := s.readReg src m (a / 4 * 4)
      (.ok, lanes q.1 a width, q.2)

/-- A 64-bit register access (R54). -/
def State.reg64 (s : State) (m a : Nat) (write : Bool) (v : Nat) : Resp × List Byte × State :=
  match s.regCheck m a 8 write with
  | (some r, s) => (r, if write then [] else List.replicate 8 0, s)
  | (none, s) =>
    let src := (srcOf a).getD 96
    if s.pairLow a = some a then
      if write then
        let q := s.writePair src m a (lo32 v) (hi32 v)
        (q.1, [], q.2)
      else
        let hl := hidden m (s.locate m a)
        let hh := hidden m (s.locate m (a + 4))
        let (x, s) := s.readRaw src m a
        let (y, s) := s.readRaw src m (a + 4)
        let s := if hl = 0 ∧ hh = 0 then s else s.guardHit m a false
        (.ok, leBytes 4 (x &&& ~~~ w32 hl).toNat ++ leBytes 4 (y &&& ~~~ w32 hh).toNat, (s.readHook m a).readHook m (a + 4))
    else
      match s.reg32 m a 4 write (lo32 v) with
      | (.ok, d, s) =>
        let q := s.reg32 m (a + 4) 4 write (hi32 v)
        (q.1, if q.1 = .ok then d ++ q.2.1 else List.replicate 8 0, q.2.2)
      | (r, _, s) => (r, List.replicate 8 0, s)

end Sys2Proof.Machine
end

