-- ==== Sys2Proof/Machine/Fabric.lean ====
section
/-! DEFINITION. The fabric (11_memory_fabric R351–R360): a request to its target, locked sequences, what makes a request wait and
what serves it; PCIe requests (15_power_and_bringup R486), remote access (13_apsal_systems R406) and block writes as master
0x03 (R397). -/

namespace Sys2Proof.Machine

/-- A plain request. -/
def MemReq.read (m a n : Nat) : MemReq := ⟨m, a, false, n, [], none, false, false, 0, none, false⟩
def MemReq.put (m a : Nat) (data : List Byte) : MemReq := ⟨m, a, true, data.length, data, none, false, false, 0, none, false⟩

/-- A piece of a posted PCIe write. -/
def MemReq.post (m a : Nat) (data : List Byte) : MemReq := ⟨m, a, true, data.length, data, none, false, true, 0, none, false⟩

/-- An answer. -/
abbrev Ans := Resp × List Byte

/-! SRAM (R341–R348). -/

/-- A master of the render path. -/
def renderMaster (m : Nat) : Bool := m = 0x0C || m = 0x0D || (decide (0x10 ≤ m) && decide (m ≤ 0x35)) || (decide (0x44 ≤ m) && decide (m ≤ 0x47))

/-- A block of the render path, whose writes cover whole ECC words (R344). -/
def renderBlock (m : Nat) : Bool := renderMaster m && m != 0x34

/-- An uncorrectable read by a render-path master raises RED's cause SRAM_UE (14_redundancy R429); o is the state before. -/
def State.ueCause (s o : State) (m : Nat) : State :=
  if renderMaster m && decide (s.n R.SRAM_UE_CNT_COUNT.addr ≠ o.n R.SRAM_UE_CNT_COUNT.addr) then s.raiseCause 3 else s

/-- A write to OBJ's SHADOW bank while a press is pending (08_buses_and_outputs R260). -/
def State.bankShut (s : State) (a : Nat) : Bool :=
  decide (0x11700000 ≤ a) && decide (a < 0x11710000) && s.pressPending &&
    decide ((a - 0x11700000) / 0x8000 ≠ s.get R.OBJ0_BANK_ACTIVE)

/-- The inbox slot that a write completes (06_objects_and_mould R188). -/
def inboxSlot (a n : Nat) : Option Nat :=
  (List.range n).findSome? fun i => let b := a + i
    if 0x11790000 ≤ b ∧ b < 0x11791000 ∧ b % 32 = 31 then some (b / 32 * 32) else none

/-- Slots that a write completes, in order, are pushed; a rejected push answers TERR (R188, R189). -/
def State.inboxWrite (s : State) (m a n : Nat) : Resp × State :=
  (List.range ((n + 31) / 32)).foldl (fun (r : Resp × State) j =>
    match inboxSlot (a + 32 * j) (min 32 (n - 32 * j)) with
    | none => r
    | some k =>
      let b := r.2.bytes k 32
      (if r.2.pushCode b = 0 then r.1 else .terr, r.2.inboxPush m b)) (.ok, s)

/-- A write meets the dump engine (02_register_pages R67): whether it must wait for lines that the engine has still to copy. -/
def State.dumpMeets (s : State) (r : MemReq) : Bool × State :=
  if s.dump.isNone || !r.write || (s.bankShut r.addr && !renderBlock r.master) then (false, s)
  else
    let s := s.dumpTouch r.master r.addr r.width
    (s.dumpHeld r.master r.addr r.width, s)

/-- An SRAM request that its target serves. -/
def State.sramServe (s : State) (r : MemReq) : Ans × State :=
  if r.write then
    if s.bankShut r.addr && !renderBlock r.master then ((.terr, []), s.latch ePRESS 2)
    else
      let q := s.sramStore r.master r.addr r.data
      if q.1 then
        let p := q.2.inboxWrite r.master r.addr r.width
        ((p.1, []), p.2)
      else ((.terr, []), q.2)
  else
    let q := s.sramLoad r.master r.addr r.width
    let s' := q.2.ueCause s r.master
    match q.1 with
    | some _ =>
      let (k, s') := s'.drawLine
      ((.ok, (List.range r.width).map fun i => s'.shown (k + i) (r.addr + i)), s')
    | none => ((.terr, List.replicate r.width 0), s')

/-! DRAM (12_dram R366–R382). -/

/-- A DRAM request served by its channel. -/
def State.dramServe (s : State) (r : MemReq) (c off : Nat) : Ans × State :=
  if r.write then
    let q := s.dramStore c off r.master r.addr r.data
    if q.1 then ((.ok, []), (q.2.imageDone r.addr).slotTouch r.addr) else ((.terr, []), q.2)
  else
    let q := s.dramLoad c off r.master r.addr r.width
    match q.1 with
    | some b => ((.ok, b), q.2)
    | none => ((.terr, List.replicate r.width 0), q.2)

/-- A DRAM request: refused, waiting (none) at its regulator port or its channel, or served. -/
def State.dramRequest (s : State) (r : MemReq) : Option Ans × State :=
  let no : List Byte := if r.write then [] else List.replicate r.width 0
  match s.dramMap r.addr with
  | none => (some (.derr, no), s.errLog r.master r.addr r.write 0 7)
  | some (c, off) =>
    if !s.domOn 13 then (some (.terr, no), s)
    else
      let (shut, s) := if r.write then s.imageGate r.addr else (false, s)
      if shut then (some (.terr, []), s)
      else match s.chanDo c with
        | .terr => (some (.terr, no), s)
        | .wait => (none, s)
        | .serve =>
          if r.passed then
            let q := s.dramServe r c off
            (some q.1, q.2)
          else (none, s)

/-! Locked sequences (R357, R358). -/

/-- The value that a locked sequence writes. -/
def AtomReq.result (q : AtomReq) (old : Nat) : Nat :=
  match q.op with
  | .fetchAdd => old + q.operand
  | .swap => q.operand
  | .cas => if old = q.compare then q.operand else old

/-- A locked read granted by target 2. -/
def State.lockRead (s : State) (r : MemReq) (q : AtomReq) : Option Ans × State :=
  let x := s.sramServe r
  if x.1.1 = .ok then
    let n := r.width
    let new := leBytes n (q.result (leAt x.1.2 0 n) % 2 ^ (8 * n))
    (some (.wait, x.1.2), ({ x.2 with lock := some ⟨r.master, r.addr, new, x.1.2⟩ }).putB R.FAB_S_LOCK_HELD true)
  else (some x.1, x.2)

/-- A locked read of another target (R357). -/
def State.lockRefused (s : State) (m : Nat) : State :=
  (s.setN 0xA00A0 (m % 128 + 256)).latch eFAB 5

/-- The lock ends. -/
def State.unlock (s : State) : State := { s with lock := none }.putB R.FAB_S_LOCK_HELD false

/-- The lock belongs to a master. -/
def State.lockedOut (s : State) (m : Nat) : Bool := s.lock.any fun l => l.master != m

/-- A request at the fabric: its answer, or none while it waits (R353, R355, R358, R374, R382). The answer `wait` is that of a
locked read whose closing write is still to come. -/
def State.request (s : State) (r : MemReq) : Option Ans × State :=
  let t := targetOf r.addr
  let no : List Byte := if r.write then [] else List.replicate r.width 0
  if t = 7 then (some (.derr, no), s.errLog r.master r.addr r.write 0 7)
  else if t = 0 then
    if r.atomic.isSome then (some (.terr, no), s.lockRefused r.master)
    else if r.width = 8 then
      let q := s.reg64 r.master r.addr r.write (leAt r.data 0 8)
      (some (q.1, q.2.1), q.2.2)
    else if r.width = 1 ∨ r.width = 2 ∨ r.width = 4 then
      let q := s.reg32 r.master r.addr r.width r.write (w32 (leAt r.data 0 4))
      (some (q.1, q.2.1), q.2.2)
    else (some (.terr, no), s)
  else if t = 4 ∧ (s.dramMap r.addr).isNone then (some (.derr, no), s.errLog r.master r.addr r.write 0 7)
  else if (t = 4 || !renderBlock r.master) && (!widthOk r.width || r.addr % r.width != 0) then (some (.terr, no), s)
  else
    let (ok, s) := s.permit r.master t r.addr r.width r.write
    if !ok then (some (.terr, no), s)
    else if r.atomic.isSome ∧ t ≠ 2 then (some (.terr, no), s.lockRefused r.master)
    else if t = 4 then s.dramRequest r
    else if !s.domOn (if t = 3 then 7 + (r.addr - 0x20000000) / 0x100000 / 8 else 5) then (some (.terr, no), s)
    else if t = 2 ∧ (s.lockedOut r.master ∨ (r.atomic.isSome ∧ s.lock.isSome)) then (none, s)
    else match r.atomic with
      | some q => s.lockRead r q
      | none =>
        let h := s.dumpMeets r
        if h.1 then (none, h.2)
        else
          let x := h.2.sramServe r
          (some x.1, x.2)

/-! Answers. -/

/-- RRA RESP codes (13_apsal_systems R420). -/
def rraCode : Resp → Nat
  | .ok => 0
  | .derr => 2
  | .lerr => 3
  | _ => 1

/-- The remote access that runs here ends: on the own request in the registers, otherwise in a message. -/
def State.rraEnd (s : State) (r : Resp) (data : List Byte) : State :=
  match s.ring.rraHere with
  | none => s
  | some q =>
    let s := s.modRing fun x => { x with rraHere := x.rraWait.head?, rraWait := x.rraWait.tail }
    let d := if r = .ok then leAt data 0 (min 8 data.length) else 0
    if q.op = opGone then s
    else if q.sent then s.modRing fun x => { x with rsps := x.rsps ++ [(q.tag, rraCode r, d)] }
    else s.rraFinish q.op (rraCode r) d

/-- A bulk segment stops at the first response that is not OK: its later writes are dropped (13_apsal_systems R397). -/
def State.bulkStop (s : State) (seg : Option Nat) : State :=
  { s with waiting := s.waiting.filter fun r => !r.write || r.part.isNone || r.part != seg }.latch eRING 12

/-- The n bytes at address a of a response, which a register gives in four lanes (R53). -/
def laneBytes (a n : Nat) (d : List Byte) : List Byte := if d.length = n then d else (d.drop (a % 4)).take n

/-- A piece of a PCIe read ends: its bytes, or a failure of the whole (15_power_and_bringup R486). -/
def ReadSt.take (q : ReadSt) (a n : Nat) (x : Ans) : ReadSt :=
  if x.1 = .ok then { q with left := q.left - 1, data := splice q.data (a - q.at0) (laneBytes a n x.2) }
  else { q with left := q.left - 1, bad := true }

/-- The completion of a PCIe read with no piece left. -/
def State.readEnd (s : State) (q : ReadSt) : State := s.answer (if q.bad then .abort else .ok) q.data

/-- A piece that waited has been answered: the read's completion follows the last of them. -/
def State.readPart (s : State) (id : Nat) (r : MemReq) (x : Ans) : State :=
  match s.reads.find? fun q => q.id == id with
  | none => s
  | some q =>
    let q := q.take r.addr r.width x
    let rest := s.reads.filter fun p => p.id != id
    if q.left = 0 then State.readEnd { s with reads := rest } q else { s with reads := rest ++ [q] }

/-- A request that waited has been answered. -/
def State.deliver (s : State) (r : MemReq) (x : Ans) : State :=
  if r.part.isSome && !r.write then s.readPart (r.part.getD 0) r x
  else if r.rra then (if x.1 = .wait then s else s.rraEnd x.1 x.2)
  else if r.posted then s
  else if r.master = 3 then (if x.1 = .ok ∨ r.atomic.isSome then s else s.bulkStop r.part)
  else if r.atomic.isSome && x.1 != .wait then s.answer .abort []
  else s.answer x.1 (if x.1 = .wait then [] else x.2)

/-- A request behind another of its master waits too (R354), and so does a read of a line that a waiting write will write (12_dram
R373). -/
def State.blocked (s : State) (r : MemReq) : Bool :=
  (s.waiting.any fun q => q.master == r.master) || (!r.write && targetOf r.addr = 4 && s.writeWaits r.addr)

def State.queueUp (s : State) (r : MemReq) : State :=
  { s with waiting := s.waiting ++ [{ r with since := if r.passed then r.since else s.absCyc }] }

/-- The place of a waiting request among those that its channel may serve next (12_dram R373), the least first: promoted requests by
age, then the classes, a row hit before a miss; the other targets serve in order. -/
def State.precedence (s : State) (r : MemReq) : Nat :=
  match s.dramMap r.addr with
  | none => 0
  | some (c, _) =>
    let cls := portClass (regPort r.master)
    if usCyc (s.ageLimit c cls) + r.since < s.absCyc then 0
    else 2 * cls + (if s.rowHit r.addr then 1 else 2)

/-- The waiting requests, by position, that may be served next: the oldest of each master, the reads not before an older write to their
line; `tried` are positions that must wait. -/
def State.mayServe (s : State) (tried : List Nat) : List (MemReq × Nat) :=
  s.waiting.zipIdx.filter fun x =>
    !tried.contains x.2 && !(s.waiting.take x.2).any fun q => q.master == x.1.master || (!x.1.write && q.write && q.addr / 64 == x.1.addr / 64)

/-- The oldest of the least precedence. -/
def State.nextServed (s : State) (tried : List Nat) : Option (MemReq × Nat) :=
  (s.mayServe tried).foldl (fun b x => match b with
    | none => some x
    | some y =>
      let px := s.precedence x.1
      let py := s.precedence y.1
      if px < py ∨ (px = py ∧ x.1.since < y.1.since) then some x else some y) none

/-- The requests of a master beyond its 32 outstanding ones stay at the master, behind what waits at the targets (R354). -/
def targetOrder (l : List MemReq) : List MemReq :=
  let out (x : MemReq × Nat) : Bool := decide (((l.take x.2).countP fun r => r.master == x.1.master) < 32)
  ((l.zipIdx.filter out) ++ (l.zipIdx.filter fun x => !out x)).map Prod.fst

/-- A request at the fabric, behind no other of its master (R354): answered, or none while it must wait, and the request as its port
leaves it. -/
def State.direct (s : State) (r : MemReq) : Option Ans × MemReq × State :=
  let q := s.arrive s.waiting r
  if q.2.blocked q.1 then (none, q)
  else match q.2.request q.1 with
    | (none, s) => (none, q.1, s)
    | (some x, s) => (some x, q.1, s.arbVisit r.master r.addr r.width)

/-- A request of an engine that asks again until it is answered: one that has passed its port passes it once. -/
def State.attempt (s : State) (r : MemReq) : Option Ans × State :=
  match s.direct { r with passed := s.passed.contains r.master } with
  | (none, q, s) => (none, { s with passed := if q.passed then s.passed.insert r.master else s.passed })
  | (some x, _, s) => (some x, { s with passed := s.passed.filter (· != r.master) })

/-- Serve the waiting requests that nothing holds any more, one after the other, once those that may have passed their ports; the first
argument bounds the attempts. A request that must still wait keeps its place. -/
def State.serveMore : Nat → List Nat → State → State
  | 0, _, s => s
  | k + 1, tried, s =>
    let s := s.arrivals
    match s.nextServed tried with
    | none => s
    | some (r, i) =>
      match State.request { s with waiting := s.waiting.eraseIdx i } r with
      | (none, t) => State.serveMore k (i :: tried) { t with waiting := s.waiting }
      | (some x, t) => State.serveMore k (tried.map fun j => if i < j then j - 1 else j) ((t.arbVisit r.master r.addr r.width).deliver r x)

def State.serveWaiting (s : State) : State := 
  State.serveMore (s.waiting.length * (s.waiting.length + 1)) [] { s with waiting := targetOrder s.waiting }

/-- Issue a request: answered now, or queued. -/
def State.issue (s : State) (r : MemReq) : Option Ans × State :=
  match s.direct r with
  | (none, r, s) => (none, s.queueUp r)
  | (some x, _, s) => (some x, s)

/-! Remote access at this device (13_apsal_systems R406). -/

/-- Execute the remote access that is at hand, as master 0x03. -/
def State.rraRun (s : State) : State :=
  match s.ring.rraHere with
  | none => s
  | some q =>
    if (s.waiting.any fun r => r.rra) || (s.lock.any fun l => l.master == 3) then s
    else if 6 ≤ q.op then s.rraEnd .terr []
    else
      let n := if q.op = 2 ∨ q.op = 3 then 8 else 4
      let w := q.op = 1 || q.op = 3
      let at0 : Option AtomReq :=
        if q.op = 4 then some ⟨.swap, false, q.data % 2 ^ 32, 0⟩ else if q.op = 5 then some ⟨.cas, false, q.data % 2 ^ 32, q.cmp⟩ else none
      match s.issue ⟨3, q.addr, w, n, if w then leBytes n q.data else [], at0, true, false, 0, none, false⟩ with
      | (none, s) => s
      | (some x, s) => if x.1 = .wait then s else s.rraEnd x.1 x.2

/-- The remote accesses that wait here, one after the other, n at most. -/
def State.rraRuns : Nat → State → State
  | 0, s => s
  | n + 1, s => if s.ring.rraHere.isNone then s else State.rraRuns n s.rraRun

/-! Boot records (15_power_and_bringup R457, R458). -/

/-- An access of a boot record as master 0x02: what is left of it while it waits, otherwise the address at which it fails, none for a
response OK. -/
def State.bootAccess (s : State) : BootOp → (BootOp ⊕ Option Nat) × State
  | .put a d =>
    match s.attempt (MemReq.put 2 a d) with
    | (none, s) => (.inl (.put a d), s)
    | (some x, s) => (.inr (if x.1 = .ok then none else some a), s)
  | .modify a m v =>
    match s.attempt (MemReq.read 2 a 4) with
    | (none, s) => (.inl (.modify a m v), s)
    | (some x, s) =>
      if x.1 = .ok then
        let d := leBytes 4 ((w32 (leAt x.2 0 4) &&& ~~~ m) ||| (v &&& m)).toNat
        match s.attempt (MemReq.put 2 a d) with
        | (none, s) => (.inl (.put a d), s)
        | (some y, s) => (.inr (if y.1 = .ok then none else some a), s)
      else (.inr (some a), s)

/-- The accesses of the record in progress, in order, until one waits; without CONT a response other than OK ends the boot. -/
def State.bootAccesses (cont : Bool) : List BootOp → State → State
  | [], s => s.recDone
  | op :: t, s =>
    match s.bootAccess op with
    | (.inl op, s) => s.modBoot fun b => { b with rest := some (cont, op :: t) }
    | (.inr (some a), s) => if cont then State.bootAccesses cont t s else s.bootFail 5 a
    | (.inr none, s) => State.bootAccesses cont t s

/-- The record in progress goes on where it waited. -/
def State.bootRest (s : State) : State :=
  match s.boot.rest with
  | none => s
  | some (cont, l) => State.bootAccesses cont l s

/-- After an access by a master: a remote access that it started here runs, waiting requests that it let go are served, and a boot
record that waited goes on. -/
def State.afterAccess (s : State) : State :=
  let s := if s.waiting.isEmpty then s else s.serveWaiting
  (if s.ring.rraHere.isSome then s.rraRuns (s.ring.rraWait.length + 1) else s).bootRest

/-- A fabric request of a master, answered now or later. -/
def State.ask (s : State) (r : MemReq) : State :=
  if s.noRequest r.master then s
  else
    let q := s.issue r
    (match q.1 with
      | some x => q.2.deliver r x
      | none => q.2.answer .wait []).afterAccess

/-- A 32-bit register write by master m. -/
def State.regWrite (s : State) (m a : Nat) (v : Word) : State := s.ask (MemReq.put m a (leBytes 4 v.toNat))

/-- A 32-bit register read by master m. -/
def State.regRead (s : State) (m a : Nat) : State := s.ask (MemReq.read m a 4)

/-! Long accesses. -/

/-- The pieces of a PCIe request: runs of enabled bytes, each split into aligned pieces (R486). -/
def pciePieces : Nat → Nat → List (Option Byte) → List (Nat × List Byte)
  | 0, _, _ => []
  | _, _, [] => []
  | k + 1, a, none :: t => pciePieces k (a + 1) t
  | k + 1, a, some b :: t =>
    let run := (some b :: t).takeWhile Option.isSome
    let n := pieceLen a run.length
    (a, (run.take n).filterMap id) :: pciePieces k (a + n) ((some b :: t).drop n)

/-- A PCIe read of n bytes from address a in pieces, each an address and a length (R56, R486): answered now, or once its last piece is. -/
def State.readParts (s : State) (m a n : Nat) (l : List (Nat × Nat)) : State :=
  let id := s.reads.foldl (fun k q => max k (q.id + 1)) 0
  let r := l.foldl (fun (r : ReadSt × State) p =>
    match r.2.issue { MemReq.read m p.1 p.2 with part := some id } with
    | (some x, s) => (r.1.take p.1 p.2 x, s)
    | (none, s) => (r.1, s)) (⟨id, false, l.length, a, List.replicate n 0⟩, s)
  if r.1.left = 0 then r.2.readEnd r.1 else State.answer { r.2 with reads := r.2.reads ++ [r.1] } .wait []

/-- Read a block in aligned pieces of up to 64 bytes: the bytes read, and the address of the first piece whose response is not OK, with
which it ends. None: a piece waits, which at its regulator port it does not where the read has had its time. -/
def State.readSome (s : State) (timed : Bool) (m a n : Nat) : Option (List Byte × Option Nat) × State :=
  (blockPieces n a (List.replicate n 0)).foldl (fun (r : Option (List Byte × Option Nat) × State) p =>
    match r.1 with
    | some (b, none) =>
      match (if timed then r.2.passTime (regPort m) else r.2).attempt (MemReq.read m p.1 p.2.length) with
      | (some (.ok, d), s) => (some (b ++ laneBytes p.1 p.2.length d, none), s)
      | (some _, s) => (some (b, some p.1), s)
      | (none, s) => (none, s)
    | _ => r) (some ([], none), s)

/-- The same where only the whole block is of use. -/
def State.readBlock (s : State) (timed : Bool) (m a n : Nat) : Option (Except Nat (List Byte)) × State :=
  let r := s.readSome timed m a n
  (r.1.map fun q => match q.2 with | some x => .error x | none => .ok q.1, r.2)

end Sys2Proof.Machine
end

