-- ==== Sys2Proof/Machine/Apsal.lean ====
section
/-! DEFINITION. Sheet frames (13_apsal_systems R391–R403): the header and the regions, the messages and the slice that a device
writes, the launch, the receipt and the forwarding of a frame. -/

namespace Sys2Proof.Machine

/-! The layout (R393, R394). -/

/-- A header without its HCRC, which follows. -/
def withHcrc (h : List Byte) : List Byte := h.take 0x5C ++ leBytes 4 (crc32 (h.take 0x5C))

/-- A header: FLAGS, MGR, SENDER, SHEET, MGR_TIME and TX_STAMP, PREV_RX, F, RC, MET_CNT, BLK_LEN; HOPS and CORR are 0. -/
def hdrBytes (flags mgr sender sheet : Nat) (time : Int) (prevRx : List Byte) (f rc met blk : Nat) : List Byte :=
  withHcrc (leBytes 2 0x5A4C ++ leBytes 1 1 ++ leBytes 1 flags ++ leBytes 1 mgr ++ leBytes 1 0 ++ leBytes 1 sender ++ leBytes 1 0 ++
    leBytes 8 (sheet % 2 ^ 48) ++ tsBytes time ++ leBytes 4 0 ++ leBytes 8 0 ++ tsBytes time ++ prevRx ++
    leBytes 4 (f + rc * 2 ^ 16) ++ leBytes 4 met ++ leBytes 4 blk ++ List.replicate 16 0)

def hFlags (h : List Byte) : Nat := leAt h 3 1
def hWrapped (h : List Byte) : Bool := bitOf (hFlags h) 1
def hProbe (h : List Byte) : Bool := bitOf (hFlags h) 2
def hMgr (h : List Byte) : Nat := leAt h 4 1
def hSheet (h : List Byte) : Nat := leAt h 8 8 % 2 ^ 48
def hF (h : List Byte) : Nat := leAt h 0x40 4 % 2 ^ 11
def hRc (h : List Byte) : Nat := bits (leAt h 0x40 4) 22 16
def hMet (h : List Byte) : Nat := leAt h 0x44 4 % 2 ^ 9

/-- The lengths of the four regions; those of a probe are empty (R394, R401). -/
def regionLens (h : List Byte) : List Nat :=
  [24 * (hF h + 32 * hRc h), 32 * hMet h, if hProbe h then 0 else 32768, leAt h 0x48 4]

/-- The regions of a frame, with whether the CRC of each is good. -/
def splitRegions : List Nat → List Byte → List (List Byte × Bool)
  | [], _ => []
  | n :: t, b =>
    let d := b.take n
    (d, decide (n + 4 ≤ b.length) && leAt b n 4 == crc32 d) :: splitRegions t (b.drop (n + 4))

/-- A region with its CRC, complemented where the region came in bad (R395). -/
def regionOut (r : List Byte × Bool) : List Byte := r.1 ++ leBytes 4 (if r.2 then crc32 r.1 else crc32 r.1 ^^^ 0xFFFFFFFF)

/-- Samples in house format (R394). -/
def houseBytes (l : List Int) : List Byte := l.flatMap fun v => leBytes 4 (tz 32 v)
def houseAt (b : List Byte) (o : Nat) : List Int := (List.range 6).map fun i => sx 32 (leAt b (o + 4 * i) 4)

/-! Messages (R396, R426). -/

/-- A message: type, destination (none for a broadcast), payload words. -/
def msgBytes (typ : Nat) (dst : Option Nat) (w : List Nat) : List Byte :=
  leBytes 4 (typ + dst.getD 0 * 2 ^ 8 + b2n dst.isNone * 2 ^ 13 + w.length * 2 ^ 16) ++ w.flatMap fun x => leBytes 4 x

/-- A value of 64 bits, low word first. -/
def lowHigh (v : Nat) : List Nat := [v % 2 ^ 32, v / 2 ^ 32 % 2 ^ 32]

/-- The first messages that fit a slot, padded. -/
def slotOf (ms : List (List Byte)) : List Byte :=
  let l := ms.foldl (fun (l : List Byte) m => if l.length + m.length ≤ 1024 then l ++ m else l) []
  l ++ List.replicate (1024 - l.length) 0

/-- How many messages of reserved types a device would act on, in a slot of k messages at most (R396). -/
def reservedIn (dev : Nat) : Nat → List Byte → Nat
  | 0, _ => 0
  | k + 1, b =>
    let w := leAt b 0 4
    let t := w % 256
    if b.length < 4 ∨ t = 0 then 0
    else
      let mine := (bitOf w 13 || bits w 12 8 == dev) && decide (0x0A < t) && (decide (t < 0x10) || decide (0x12 < t))
      b2n mine + reservedIn dev k (b.drop (4 + 4 * bits w 23 16))

/-- Messages that every device sends. -/
def State.ownMsgs (s : State) (mgr : Nat) : List (List Byte) × State :=
  let wrapping := s.wraps 0 || s.wraps 1
  let hb := msgBytes 1 none [s.mode + s.role * 8 + b2n (s.is R.TIME_S_LOCKED) * 32 + b2n wrapping * 64]
  let vec := s.vecActive
  let ev := if s.role != 0 && (vec != s.ring.evt || s.sheet % 64 == 0) then [msgBytes 2 (some mgr) [vec]] else []
  let rs := s.ring.rsps.map fun r => msgBytes 4 (some mgr) ([r.1 + r.2.1 * 2 ^ 8] ++ lowHigh r.2.2)
  let vt := match s.vote with | some v => [msgBytes 6 (some mgr) [v.1 % 2 ^ 8 + v.2.1 * 2 ^ 8 + v.2.2 * 2 ^ 16]] | none => []
  let wr := match s.ring.report with
    | some r =>
      if s.role != 0 && s.ring.reportDue then
        [msgBytes 10 (some mgr) ([r.k, r.tag + b2n r.settled * 2 ^ 16, r.epoch] ++ lowHigh r.wRing.toNat ++ lowHigh r.wGroup.toNat)]
      else []
    | none => []
  let ft := if s.red.shown ≠ 0 then [msgBytes 0x11 (some mgr) [s.get R.RED_FAULT_CAUSE_CAUSE]] else []
  let sw := s.standbyWords
  let st := if s.standby && (s.sheet % 64 == 0 || sw != s.red.standbySent) then [msgBytes 0x12 (some mgr) sw] else []
  let s := if s.standby then s.modRed fun r => { r with standbySent := sw } else s
  ([hb] ++ ev ++ rs ++ vt ++ wr ++ ft ++ st, { s with vote := none }.modRing fun r => { r with rsps := [], evt := vec, reportDue := false })

/-- Messages of the manager (R408–R411, R425). -/
def State.mgrMsgs (s : State) : List (List Byte) × State :=
  let rq := match s.ring.rra with
    | some q => if q.sent then [] else [msgBytes 3 (some q.dev) ([q.tag + q.op * 2 ^ 8] ++ lowHigh q.addr ++ lowHigh q.data ++ [q.cmp])]
    | none => []
  let pr := match s.askRing with | some a => [msgBytes 5 none ([a.2 % 2 ^ 8] ++ lowHigh a.1)] | none => []
  let pd := match s.verdict with
    | some d => if s.sheet < d.sheet then [msgBytes 7 none [d.id % 2 ^ 8 + b2n d.go * 2 ^ 8 + d.dev * 2 ^ 16 + d.reason * 2 ^ 24, d.node]] else []
    | none => []
  let step (d : Int) (b : Nat) : List Byte := msgBytes 8 none (lowHigh (tz 64 d) ++ lowHigh (b % 2 ^ 48))
  let sp := (s.time.steps.filter fun q => s.stepLead && q.why != .hsiSet && decide (s.slot < q.due)).map fun q =>
    step q.d (s.sheet + (q.due - s.slot))
  let sn := match s.ring.snap with | some h => [msgBytes 9 none (lowHigh h)] | none => []
  let gr := s.grantsNow.map fun g => msgBytes 0x10 none ([g.holder + g.partner * 2 ^ 8 + b2n g.none * 2 ^ 16] ++ lowHigh (g.sheet % 2 ^ 48))
  (rq ++ pr ++ pd ++ sp ++ sn ++ gr, s.modRing fun r => { r with rra := r.rra.map fun q => { q with sent := true } })

/-- The own message slot of this sheet, formed once. -/
def State.ownSlot (s : State) (mgr : Nat) : List Byte × State :=
  match s.ring.slot0 with
  | some (at0, b) => if at0 = s.slot then (b, s) else go s
  | none => go s
where
  go (s : State) : List Byte × State :=
    let (a, s) := s.ownMsgs mgr
    let (m, s) := if s.isManager then s.mgrMsgs else ([], s)
    let b := slotOf (a ++ m)
    (b, s.modRing fun r => { r with slot0 := some (s.slot, b) })

/-! Slices (R397, R433). -/

/-- A segment. -/
def segBytes (kind dst ofs : Nat) (d : List Byte) : List Byte :=
  leBytes 4 (kind + dst * 2 ^ 8) ++ leBytes 4 d.length ++ leBytes 8 ofs ++ pad16 d

/-- The payload of PRESS_TABLE (R408). -/
def State.tableBytes (s : State) (id : Nat) : List Byte :=
  leBytes 1 id ++ leBytes 1 0 ++ leBytes 2 (s.n 0x8080) ++ leBytes 1 (s.retCount 0) ++ List.replicate 3 0 ++
    ((List.range 32).flatMap fun x => leBytes 4 (s.n (0xC2400 + 4 * x))) ++
    (List.range 1024).flatMap fun c => leBytes 2 (if s.forwarded 0 c then (s.arrival15 0 c).1 else 0)

/-- The checkpoint's segments in a slice of n bytes with `room` left: the data comes from the staging buffer. While a channel holds
requests nothing is sent, and data that cannot be read ends the checkpoint (R382, R433). -/
def State.ckptSegs (s : State) (n room : Nat) : List Byte × State :=
  match s.red.ckpt with
  | some c =>
    let dst := s.get R.RED_PARTNER_DEVID
    let o := if c.opened then [] else segBytes 0x10 dst 0 (leBytes 4 c.seq ++ leBytes 4 c.image.length)
    if !c.ready || decide (room < o.length) || (s.dramUsable && s.ckptWaits) then ([], s)
    else match s.ckptGet (s.ckptBuf + c.sent) (min (c.image.length - c.sent) (min ((n - 80) / 16 * 16) ((room - o.length - 16) / 16 * 16))) with
    | (none, s) => ([], (s.putCkpt none).ckptBad)
    | (some d, s) =>
      let b := if d.isEmpty then o else o ++ segBytes 1 dst c.sent d
      let sent := c.sent + d.length
      if room < o.length then ([], s)
      else if c.image.length ≤ sent ∧ b.length + 32 ≤ room then
        let s := ((s.setN 0xD00C4 c.seq).setN 0xD00C8 (c.sheet % 2 ^ 32)).addW R.RED_CKPT_CNT_COUNT 1
        (b ++ segBytes 0x11 dst 0 (leBytes 4 c.seq ++ leBytes 8 (crc64 c.image)), (s.putCkpt none).latch eRED 3)
      else (b, s.putCkpt (some { c with opened := true, sent := sent }))
  | none => ([], s)

/-- The WRITE segment that fits `room` bytes; a source that cannot be read ends the transfer. -/
def State.bulkSeg (s : State) (room : Nat) : List Byte × State :=
  match s.ring.bulk with
  | some q =>
    let n := min (q.len - q.sent) ((room - 16) / 16 * 16)
    if n = 0 then ([], s)
    else match s.readBlock false 0x03 (q.src + q.sent) n with
      | (some (.ok b), s) => (segBytes 2 q.dev (q.dst + q.sent) b, s.modRing fun r => { r with bulk := some { q with sent := q.sent + n } })
      | (some (.error _), s) => ([], ((s.modRing fun r => { r with bulk := none }).putB R.RING_BLK_CTRL_BUSY false).latch eRING 12)
      | (none, s) => ([], s)
  | none => ([], s)

/-- The own slice of this sheet, n bytes long, formed once. -/
def State.ownSlice (s : State) (n : Nat) : List Byte × State :=
  match s.ring.slice0 with
  | some (at0, b) => if at0 = s.slot then (b, s) else go s
  | none => go s
where
  go (s : State) : List Byte × State :=
    let t := match s.askRing with
      | some a => if s.isManager then segBytes 3 0 0 (s.tableBytes a.2) else []
      | none => []
    let t := if 16 + t.length ≤ n then t else []
    let (c, s) := s.ckptSegs n (n - 16 - t.length)
    let (w, s) := s.bulkSeg (n - 16 - t.length - c.length)
    let b := t ++ c ++ w
    let b := leBytes 4 (s.devid + n * 2 ^ 8) ++ List.replicate 12 0 ++ b ++ List.replicate (n - 16 - b.length) 0
    (b, s.modRing fun r => { r with slice0 := some (s.slot, b) })

/-- The slices of the manager's BULK_ALLOC: position and length, up to the first that would not fit. -/
def State.sliceLens (s : State) : List (Nat × Nat) :=
  ((List.range 32).foldl (fun (r : List (Nat × Nat) × Nat × Bool) p =>
    let n := 16 * (s.n (0xC2580 + 4 * p) % 2 ^ 16)
    if n = 0 ∨ r.2.2 then r
    else if 589824 < r.2.1 + n then (r.1, r.2.1, true)
    else (r.1 ++ [(p, n)], r.2.1 + n, false)) ([], 0, false)).1

/-- The slice of a position in a bulk region: offset and length. -/
def findSlice (pos : Nat) : Nat → List Byte → Nat → Option (Nat × Nat)
  | 0, _, _ => none
  | k + 1, b, o =>
    let w := leAt b o 4
    let n := w / 2 ^ 8
    if b.length < o + 16 ∨ n < 16 ∨ b.length < o + n then none
    else if w % 2 ^ 8 = pos then some (o, n)
    else findSlice pos k b (o + n)

/-! Stamps of a port (R393, R398). -/

/-- A port keeps four stamps of each kind. -/
def keep4 {α : Type} (x : α) (l : List α) : List α := (x :: l).take 4

/-- A start block leaves on port q at time u, in a frame of a sheet. -/
def State.sentOn (s : State) (q sheet : Nat) (u : Int) : State := s.setPort q { s.port q with tx := keep4 (sheet, u) (s.port q).tx }

def prevSheet (n : Nat) : Nat := (n + (2 ^ 48 - 1)) % 2 ^ 48

/-- PREV_RX of a frame of a sheet that leaves on port q. -/
def State.prevRx (s : State) (q sheet : Nat) : List Byte :=
  match (s.port q).rx.find? fun r => r.1 == prevSheet sheet with
  | some r => tsBytes r.2.2
  | none => List.replicate 12 0

/-! The launch at a boundary (R392, R401). -/

/-- Forwarded channels of the ACTIVE map, ascending. -/
def State.fwdChans (s : State) : List Nat := (List.range 1024).filter fun c => s.forwarded 1 c

/-- A probe on port q. -/
def State.probeOn (s : State) (q : Nat) : State :=
  let mgr := if s.role = 0 then s.devid else s.ring.mgr.getD s.devid
  let u := devTimeU s.hsi 0
  let h := hdrBytes (q + 4) mgr s.devid s.sheet u (s.prevRx q (s.sheet % 2 ^ 48)) 0 0 0 0
  s.emit (.apsal q (h ++ regionOut ([], true) ++ regionOut ([], true) ++ regionOut ([], true) ++ regionOut ([], true)))

/-- The sheet frame of this boundary: its four regions. -/
def State.sheetRegions (s : State) : List (List Byte) × State :=
  let audio := (s.fwdChans.flatMap fun c => houseBytes (s.sheetOf aInput c (s.slot - 1))) ++ List.replicate (768 * s.retCount 1) 0
  let met := (s.ring.fifo.take 256).flatMap fun b => (b ++ List.replicate (32 - b.length) 0).take 32
  let (slice, s) := match (s.sliceLens.find? fun e => e.1 == s.devid) with
    | some e => s.ownSlice e.2
    | none => ([], s)
  let (slot, s) := s.ownSlot s.devid
  let msg := splice (List.replicate 32768 0) (1024 * s.devid) slot
  let bulk := s.sliceLens.flatMap fun e =>
    if e.1 = s.devid then slice else leBytes 4 (e.1 + e.2 * 2 ^ 8) ++ List.replicate (e.2 - 4) 0
  ([audio, met, msg, bulk], { s with askRing := none }.modRing fun r => { r with fifo := r.fifo.drop 256 })

/-- The manager launches on each port that is UP and probes the others, so that with no port UP nothing leaves the queues; a wrapping
device probes its failed port. -/
def State.frameLaunch (s : State) : State :=
  if !s.ringOn || !s.pageOn eAPL then s
  else if s.role ≠ 0 then s.upto 2 fun s q => if s.portEn q && s.wraps q then s.probeOn q else s
  else if s.portState 0 ≠ 2 ∧ s.portState 1 ≠ 2 then s.upto 2 fun s q => if s.portEn q then s.probeOn q else s
  else
    let met := min 256 s.ring.fifo.length
    let (r, s) := s.sheetRegions
    let n := s.sheet % 2 ^ 48
    let u := devTimeU s.hsi 0
    s.upto 2 fun s q =>
      if !s.portEn q then s
      else if s.portState q = 2 then
        let h := hdrBytes q s.devid s.devid n u (s.prevRx q n) s.fwdChans.length (s.retCount 1) met ((r.getD 3 []).length)
        (s.emit (.apsal q (h ++ r.flatMap fun d => regionOut (d, true)))).sentOn q n u
      else s.probeOn q

/-! The receipt (R390, R391, R395, R398–R403). -/

/-- A header that R395 accepts, the manager aside. -/
def hdrOk (h : List Byte) : Bool :=
  decide (h.length = 96) && leAt h 0 2 == 0x5A4C && leAt h 2 1 == 1 && leAt h 0x5C 4 == crc32 (h.take 0x5C) && decide (leAt h 5 1 ≤ 63)

/-- MGR is accepted (R391): the own DEVID on a manager; elsewhere the one that the device is locked to, or the first. -/
def State.mgrOk (s : State) (mgr : Nat) : Bool := if s.role = 0 then mgr == s.devid else s.ring.mgr.all fun m => m == mgr

/-- The highest DEVID of SEEN that satisfies p. -/
def State.topSeen (s : State) (p : Nat → Bool) : Option Nat :=
  ((List.range 32).filter fun i => bitOf (s.get R.RING_SEEN_P) i && p i).getLast?

/-- The sender that WEST expects (R391). -/
def State.westSender (s : State) : Option Nat :=
  match s.topSeen fun i => decide (i < s.devid) with
  | some d => some d
  | none => s.topSeen fun _ => true

/-- A frame that is not valid breaks the run of its port. -/
def State.frameBad (s : State) (q : Nat) : State :=
  ((s.setPort q { s.port q with run := 0, up := 0 }).addW ((R.APL_HDR_ERR_COUNT).ix q) 1).ringStatus

/-- A valid frame on port q: counters, the sender, the port's state. -/
def State.frameGood (s : State) (q : Nat) (h : List Byte) : State :=
  let s := if s.role = 0 then s else s.modRing fun r => { r with mgr := some (hMgr h) }
  let sender := leAt h 6 1 % 32
  let s := (s.addW ((R.APL_FRAMES_COUNT).ix q) 1).setN (0xC008C + 0x20 * q) (sender + 256)
  let late := match s.westSender with | some d => d != sender | none => false
  let s := if q = 1 && late then s.latch eAPL 7 else s
  let x := s.port q
  let s := s.setPort q { x with run := x.run + 1, up := if s.portState q = 2 then x.up + 1 else 0, last := some s.slot }
  (if s.portState q = 1 ∧ 8 ≤ (s.port q).run then s.putPortState q 2 else s).ringStatus

/-- The path sample that a frame completes, for the sheet before its own (R398). -/
def State.pathOn (s : State) (q : Nat) (h : List Byte) (rx : Int) : State :=
  let n := hSheet h
  let x := s.port q
  let s := s.setPort q { x with rx := keep4 (n, (tsAt h 0x28).toU, rx) x.rx }
  let prev := (tsAt h 0x34).toU
  match x.rx.find? fun r => r.1 == prevSheet n, x.tx.find? fun r => r.1 == prevSheet n with
  | some a, some b =>
    if prev = 0 then s
    else
      let d := rndDiv ((a.2.2 - a.2.1) + (prev - b.2)) 2 + s.getI (R.APL_ASYM_A.ix q)
      let v := match x.dIn with
        | none => d
        | some o => o + rndShr (d - o) (min 8 (s.get (R.APL_DLY_CFG_DLY_AVG.ix q)))
      let s := (s.setPort q { s.port q with dIn := some v }).setN (0xC0080 + 0x20 * q) (clampI 0 (2 ^ 32 - 1) v).toNat
      if 65536000 < v then s.latch eAPL 6 else s
  | _, _ => s

/-- Timing from the direct leg: the eastward frame, or the westward one where no eastward frame comes (R399, R401). -/
def State.timingOn (s : State) (q : Nat) (h : List Byte) (rx : Int) : State :=
  let east := !bitOf (hFlags h) 0
  let use := east || s.ring.east.all fun e => decide (e + 1 < s.slot)
  let s := if east then s.modRing fun r => { r with east := some s.slot } else s
  match (s.port q).dIn with
  | some d =>
    if use && s.role != 0 && s.src = 4 then
      s.apsFrame ((rx - d) - ((tsAt h 0x10).toU + sx 64 (leAt h 0x20 8))) (decide (8 ≤ (s.port q).run))
    else s
  | none => s

/-- The forwarded sheets of a good audio region go to the delay pool of a worker, once a slot (R402). -/
def State.sceneIn (s : State) (h audio : List Byte) : State :=
  if s.ring.fwd = some s.slot then s
  else
    let fade := s.ring.fwdRun
    let s := (s.areaTouch 0x34 [poolWrite]).each s.fwdChans.zipIdx fun s c =>
      let x := if c.2 < hF h then houseAt audio (24 * c.2) else padTo 6 []
      s.putSheet aInput c.1 (s.slot + 1) (if fade then x.zipIdx.map fun v => byW v.1 (w6 v.2) else x)
    s.modRing fun r => { r with fwd := some s.slot, fwdRun := false }

/-- Whether position p has written its slot. -/
def slotWritten (msg : List Byte) (p : Nat) : Bool := leAt msg (1024 * p) 1 != 0

/-- The return blocks at the manager, and on a standby those of its own RET_MAP (14_redundancy R435), each once a slot (R403). -/
def State.returnsIn (s : State) (h audio msg : List Byte) : State :=
  s.upto 32 fun s p =>
    if !bitOf (s.retMap 1 p) 15 || bitOf s.ring.ret p || !slotWritten msg p then s
    else
      let fade := bitOf s.ring.retRun p
      let s := (List.range (s.retCount 1)).foldl (fun (s : State) i =>
        let x := if i < hRc h then houseAt audio (24 * (hF h + p * hRc h + i)) else padTo 6 []
        s.putSheet aInput ((s.retMap 1 p % 1024 + i) % 1024) (s.slot + 1) (if fade then x.zipIdx.map fun v => byW v.1 (w6 v.2) else x))
        (s.areaTouch 0x34 [poolWrite])
      s.modRing fun r => { r with ret := r.ret ||| 2 ^ p, retRun := r.retRun &&& (2 ^ 32 - 1 - 2 ^ p) }

/-- The metadata of the frame of a sheet (R404, R435). -/
def State.recordsIn (s : State) (h met : List Byte) : State :=
  let l := (List.range (hMet h)).map fun i => (met.drop (32 * i)).take 32
  let s := if s.ring.recsAt = some s.slot then s else s.modRing fun r => { r with recs := l, recsAt := some s.slot }
  if !s.standby ∨ s.ring.logAt = some s.slot then s
  else (s.each l fun s b => s.logPush (hSheet h) b).modRing fun r => { r with logAt := some s.slot }

/-- Reserved messages for this device: skipped, counted, latched (R396). -/
def State.unknownIn (s : State) (msg : List Byte) : State :=
  let n := ((List.range 32).map fun p => reservedIn s.devid 256 ((msg.drop (1024 * p)).take 1024)).sum
  (s.modRing fun r => { r with unknown := r.unknown + n }).latchN eRING 8 n

/-- What a device takes from the regions of a valid frame. -/
def State.regionsIn (s : State) (q : Nat) (h : List Byte) (r : List (List Byte × Bool)) : State :=
  let s := s.each r fun s d => if d.2 then s else (s.addW ((R.APL_REGION_ERR_COUNT).ix q) 1).latch eAPL 5
  let reg (i : Nat) : List Byte × Bool := r.getD i ([], false)
  if hProbe h then s
  else if s.role = 0 then
    let s := if (reg 0).2 && (reg 2).2 then s.returnsIn h (reg 0).1 (reg 2).1 else s
    if (reg 2).2 then s.unknownIn (reg 2).1 else s
  else if hWrapped h then s
  else
    let s := if (reg 0).2 then s.sceneIn h (reg 0).1 else s
    let s := if (reg 0).2 && (reg 2).2 && s.standby then s.returnsIn h (reg 0).1 (reg 2).1 else s
    let s := if (reg 1).2 then s.recordsIn h (reg 1).1 else s
    if (reg 2).2 then s.unknownIn (reg 2).1 else s

/-- The own writes into the regions (R394, R401): return block, message slot, slice. -/
def State.writeRegions (s : State) (h : List Byte) (r : List (List Byte × Bool)) : List (List Byte × Bool) × State :=
  match r with
  | [a, m, g, b] =>
    if hProbe h then (r, s)
    else
      let mgr := hMgr h
      let ret := (List.range (hRc h)).flatMap fun i => houseBytes (s.sheetOf aAux i (s.slot - 1))
      let ret := if s.isWorker then ret else []
      let (slot, s) := s.ownSlot mgr
      let (b', s) := match findSlice s.devid 32 b.1 0 with
        | some e => let (x, s) := s.ownSlice e.2; (splice b.1 e.1 ((x ++ List.replicate e.2 0).take e.2), s)
        | none => (b.1, s)
      ([(splice a.1 (24 * (hF h + s.devid * hRc h)) ret, a.2), m, (splice g.1 (1024 * s.devid) slot, g.2), (b', b.2)], s)
  | _ => (r, s)

/-- The port on which a frame from port q leaves, and whether it wraps there (R392, R401). -/
def State.outPort (s : State) (q : Nat) : Nat × Bool := if s.wraps (1 - q) then (q, true) else (1 - q, false)

/-- Forward a valid frame. -/
def State.forward (s : State) (q : Nat) (h : List Byte) (r : List (List Byte × Bool)) (rx tx : Int) : State :=
  let (o, wrap) := s.outPort q
  let (r, s) := if hWrapped h then (r, s) else s.writeRegions h r
  let n := hSheet h
  let corr := sx 64 (leAt h 0x20 8) + (s.port q).dIn.getD 0 + (tx - rx)
  let h := splice h 3 (leBytes 1 (if wrap then hFlags h ||| 2 else hFlags h))
  let h := splice (splice h 5 (leBytes 1 (leAt h 5 1 + 1))) 6 (leBytes 1 s.devid)
  let h := splice (splice h 0x20 (leBytes 8 (tz 64 corr))) 0x28 (tsBytes tx)
  let h := withHcrc (splice h 0x34 (s.prevRx o n))
  if !s.portEn o then s
  else
    let s := s.emit (.apsal o (h ++ r.flatMap regionOut))
    if hProbe h then s else s.sentOn o n tx

/-- Forward an invalid frame unchanged. -/
def State.forwardRaw (s : State) (q : Nat) (frame : List Byte) : State :=
  let (o, _) := s.outPort q
  if s.portEn o then s.emit (.apsal o frame) else s

/-- A frame on port q with its receive stamp and, where it is forwarded, the stamp of its departure. -/
def State.apsalFrame (s : State) (q : Nat) (frame : List Byte) (rx tx : Int) : State :=
  let h := frame.take 96
  if !s.portEn q || s.portState q = 0 then s
  else if !hdrOk h then
    let s := s.frameBad q
    if s.ringOn && s.role != 0 then s.forwardRaw q frame else s
  else if !s.mgrOk (hMgr h) then (s.frameBad q).latch eAPL 8
  else
    let s := s.frameGood q h
    let s := if hProbe h then s else s.pathOn q h rx
    if !s.ringOn then s
    else
      let r := splitRegions (regionLens h) (frame.drop 96)
      let s := if hWrapped h || hProbe h || !s.pageOn eTIME then s else s.timingOn q h rx
      let s := s.regionsIn q h r
      if s.role = 0 then s else s.forward q h r rx tx

/-! Losses at a boundary (R402, R403). -/

/-- The slot that ends has brought no forwarded audio, or no block of a mapped position. -/
def State.ringLosses (s : State) (slot : Nat) : State :=
  if !s.ringOn then s
  else
    let s := if s.isWorker && s.ring.fwd != some slot && !s.fwdChans.isEmpty then
      ((s.addW R.RING_FWD_LOSS_CNT_COUNT 1).latch eRING 9).modRing fun r => { r with fwdRun := true } else s
    let s := if s.role ≠ 0 ∨ s.retCount 1 = 0 then s
      else s.upto 32 fun s p =>
        if !bitOf (s.retMap 1 p) 15 || bitOf s.ring.ret p then s
        else ((s.addW R.RING_RET_LOSS_CNT_COUNT 1).latch eRING 10).modRing fun r => { r with retRun := r.retRun ||| 2 ^ p }
    s.modRing fun r => { r with ret := 0 }

end Sys2Proof.Machine
end

