-- ==== Sys2Proof/Machine/Stage.lean ====
section
/-! DEFINITION. Stages with their queues (01_signal_path R27–R30), the sheet boundary (R5, R11) and a step of the HSI over all
blocks (03_timebase R99–R101). -/

namespace Sys2Proof.Machine

/-! Stages (R27–R30). A stage computes its sheet when it starts; completion hands it on. -/

/-- Stage numbers. -/
def stGeom (c : Nat) : Nat := 1 + c
def stVat (v : Nat) : Nat := 8 + v
def stTree : Nat := 40
def stConv : Nat := 43

def stageId : Stage → Nat
  | .icb => 0
  | .geometry c => stGeom c
  | .vat v => stVat v
  | .tree => stTree
  | .mix => stMix
  | .out => stOut
  | .conv => stConv

def State.setStage (s : State) (k : Nat) (x : StageSt) : State := { s with stages := tset (fun _ => ⟨0, false⟩) s.stages k x }

/-- The power of a stage's block. -/
def State.stageOn (s : State) : Stage → Bool
  | .icb => s.blockRuns eICB
  | .geometry c => s.pageOn eOBJ && s.blockRuns (eVAT (8 * c))
  | .vat v => s.blockRuns (eVAT v)
  | .tree => s.blockRuns eMIX
  | .mix => s.blockRuns eMIX
  | .out => s.blockRuns eOUT
  | .conv => s.blockRuns eCONV

/-- A producer has finished with slot n, or is without power. -/
def State.stageHas (s : State) (x : Stage) (n : Nat) : Bool := !s.stageOn x || s.stageDone (stageId x) n

/-- A producer has finished with the slot before n. -/
def State.stageHadPrev (s : State) (x : Stage) (n : Nat) : Bool := n == 0 || s.stageHas x (n - 1)

/-- The insert outputs of the slot before n have been taken at their exchange (R31). -/
def State.exchHad (s : State) (n : Nat) : Bool := !s.pageOn eMIX || decide (n ≤ s.exchCut)

/-- A queue of `slots` sheets toward a consumer that takes the sheet of slot m next has a free slot for slot n (R29). -/
def credit (n slots m : Nat) : Bool := decide (n + 1 ≤ m + slots)

/-- The same toward a stage; one without power takes nothing and holds nothing. -/
def State.creditTo (s : State) (n slots : Nat) (x : Stage) : Bool := !s.stageOn x || credit n slots (s.stage (stageId x)).next

/-- OBJ has handed on the positions of slot n: it works as early as it may (R30), with a credit toward every geometry unit (R27, R29). -/
def State.positionsAt (s : State) (n : Nat) : Bool := (List.finRange 4).all fun c => s.creditTo n 4 (.geometry c)

/-- The inputs of slot n exist: the receive cut-off for ICB, OBJ's positions for geometry, the stages before the others, ICB's sheet of
the slot before for the vats and MIX (λ = 1, R28), and for a vat with an insert output as a source the exchange of the slot before. -/
def State.stageInputs (s : State) (n : Nat) : Stage → Bool
  | .icb => decide ((s.sheet : Int) + ((n : Int) - s.slot) ≤ s.rxCut)
  | .geometry _ => s.positionsAt n && ((s.bankAhead n).isNone || decide (s.renderSheet n < s.frozenTo))
  | .vat v => s.stageHas (.geometry ⟨v.val / 8, by omega⟩) n && s.stageHadPrev .icb n &&
    (s.exchHad n || !(s.vatObjs v.val n).any fun o => oKind (s.recIn o n) == 1)
  | .tree => (List.finRange 32).all fun v => s.stageHas (.vat v) n
  | .mix => s.stageHas .tree n && s.stageHadPrev .icb n
  | .out => s.stageHas .mix n
  | .conv => s.stageHas .out n

/-- The sheet that TXS takes next is that of the slot before its next send cut-off (R12); a cut-off of a past slot lies behind. -/
def State.creditTxs (s : State) (n : Nat) : Bool := !s.pageOn eTXS || credit n 2 (max s.sendCut s.slot - 1)

/-- The insert mailboxes of a slot are handed over at its exchange (R31). -/
def State.creditIe (n : Nat) (s : State) : Bool := !s.pageOn eMIX || credit n 2 (max s.exchCut s.slot)

/-- Vat v has or awaits a pair table for slot m: an object of it is in WAVEFRONT mode at the knot. -/
def State.pairSheet (s : State) (v m : Nat) : Bool :=
  (s.vatObjs v m).any fun o => match s.knot o m with
    | some k => k.mode == 2
    | none => s.modeAt o m (6 * s.renderSheet m + 5) == 2

/-- The pair tables toward vat v: two sheets, so that a slot with pairs is at most one ahead of the vat (R29, R30, R237). -/
def State.creditPairs (s : State) (n : Nat) (v : Fin 32) : Bool := !s.pairSheet v.val n || s.creditTo n 2 (.vat v)

/-- Credits toward every consumer (R29). -/
def State.stageCredits (s : State) (n : Nat) : Stage → Bool
  | .geometry c => (List.finRange 8).all fun i =>
      s.creditTo n 4 (.vat ⟨8 * c.val + i.val, by omega⟩) && s.creditPairs n ⟨8 * c.val + i.val, by omega⟩
  | .vat _ => s.creditTo n 2 .tree
  | .tree => s.creditTo n 2 .mix
  | .mix => s.creditTo n 2 .out && s.creditTxs n && State.creditIe n s
  | .out => s.creditTxs n
  | _ => true

/-- The stage may start: its next slot is at hand (R28; geometry up to four slots early, R30). -/
def State.stageReady (s : State) (x : Stage) : Bool :=
  let q := s.stage (stageId x)
  let lead := match x with | .geometry _ => 4 | _ => 0
  s.stageOn x && !q.busy && decide (q.next ≤ s.slot + lead) && s.stageInputs q.next x && s.stageCredits q.next x

/-- The work of a stage on slot n. -/
def State.stageWork (s : State) (n : Nat) : Stage → State
  | .icb => s.icbSheet n ((s.sheet : Int) + ((n : Int) - s.slot))
  | .geometry c => s.clusterKnots c.val n
  | .vat v => s.vatSheet v.val n
  | .tree => s.treeSheet n
  | .mix => s.mixStart n ((s.sheet : Int) + ((n : Int) - s.slot))
  | .out => s.outSheet n
  | .conv => s

/-- The areas of SRAM in which a stage works (R39, R40; 11_memory_fabric R343). CONV's own reads are those of 09_room_correction. -/
def stageAreas : Stage → List Area
  | .icb => [⟨0x10C00000, 0x180000, true, true⟩, ⟨0x11600000, 0x80000, true, true⟩]
  | .geometry c => ⟨0x11680000, 0x40000, true, false⟩ :: (List.range 8).map fun i => ⟨0x20000000 + 0x100000 * (8 * c.val + i), 0xC0000, true, true⟩
  | .vat v => [⟨0x10C00000, 0x180000, true, false⟩, ⟨0x20000000 + 0x100000 * v.val, 0xC0000, true, true⟩]
  | .tree => (List.range 32).map fun v => ⟨0x20000000 + 0x100000 * v, 0xC0000, true, false⟩
  | .mix => [⟨0x10C00000, 0x180000, true, true⟩, ⟨0x116C0000, 0x40000, true, true⟩]
  | .out => [⟨0x10D80000, 0x800000, true, true⟩]
  | .conv => []

/-- CONV reads words of its area (09_room_correction R290): a correctable error is corrected, a poisoned word reads as zero and is
counted. -/
def State.convErrors (s : State) (reads : ConvItem → Bool) : State :=
  if !s.is R.CONV_C_EN then s
  else
    let r := (s.badWords.filter fun w => decide (24 * w < cvEnd) && State.convReadsWord reads w).foldl (fun (q : Nat × State) w =>
      let r := q.2.readWord 0x30 w
      (q.1 + b2n !r.1, r.2.ueCause q.2 0x30)) (0, s)
    r.2.convPoison r.1

/-- OUT and MIX do no work while their EN is 0 (08_buses_and_outputs R274, R277). -/
def State.stageOff (s : State) : Stage → Bool
  | .out => !s.pageOn eOUT || !s.is R.OUT0_C_EN
  | .mix => !s.pageOn eMIX || !s.is R.MIX0_C_EN
  | _ => false

/-- A stage at work in the SRAM; OUT's sheet takes CONV's reads with it. -/
def State.stageSram (s : State) (x : Stage) : State :=
  let m := stageMaster (stageId x)
  if s.stageOff x then s
  else
    let s := if x = .out then s.convErrors s.sheetReads else s
    (s.areaWork m (stageAreas x)).ueCause s m

/-- OBJ reads the records of the enabled objects in its ACTIVE bank and the heads of its queues for a sheet (06_objects_and_mould R190,
R211), at the addresses of R211. -/
def State.objReads (s : State) : State :=
  let at0 := ((s.objEnabled 1).filterMap fun o => s.bankAddr (winKey 25 1 (8 * o))) ++
    (s.objs.filter fun e => !e.2.queue.isEmpty).map fun e => 0x11710000 + 512 * e.1
  let s' := s.each at0 fun s a =>
    let s := s.arbVisit 0x34 a 32
    if s.badWords.isEmpty then s else s.each (wordsOf a 32) fun s w => (s.readWord 0x34 w).2
  s'.ueCause s 0x34

/-- A stage starts on its next slot. -/
def State.stageBegin (s : State) (x : Stage) : State :=
  let q := s.stage (stageId x)
  if s.stageReady x then ((s.setStage (stageId x) ⟨q.next, true⟩).stageSram x).stageWork q.next x else s

/-- A stage finishes; MIX after the insert exchange of the slot (R12). -/
def State.stageEnd (s : State) (x : Stage) : State :=
  let q := s.stage (stageId x)
  if !q.busy || (x = .mix && decide (s.exchCut ≤ q.next)) then s
  else
    let s := match x with
      | .mix => s.mixEnd q.next
      | .conv => s.convEnd
      | _ => s
    s.setStage (stageId x) ⟨q.next + 1, false⟩

/-- Every stage, by number. -/
def stageIds : List Nat := [0, 1, 2, 3, 4] ++ (List.range 32).map stVat ++ [stTree, stMix, stOut, stConv]

/-- The largest pad of an edge out of the node classes for which p holds; channel edges (R23) have pads of their own. -/
def State.padReach (s : State) (p : Nat → Bool) : Nat :=
  (s.pads.filter fun e => decide (eRoute 0 0 0 0 ≤ e.1) && p ((e.1 - eRoute 0 0 0 0) / 2 ^ 24)).foldl (fun m e => max m e.2) 0

/-- How many slots later a consumer takes what a stage made, at most (R21, R23): input sheets after the pads of channel and edge and a
slot, buses and MIX's own nodes after the pad of the edge. OUT's results and CONV's returns are due in their slot. -/
def State.stageReach (s : State) (k : Nat) : Nat :=
  if k = 0 then
    ((s.pads.filter fun e => decide (e.1 < 1024)).foldl (fun m e => max m e.2) 0) + s.padReach (fun c => c == aInput) + 1
  else if k ≤ stTree then s.padReach fun c => c == aSpk
  else if k = stMix then s.padReach fun c => c == aAux || c == aAuxIn || c == aTest
  else 0

/-- A consumer that is not late still takes the sheet of slot n from a stage: one that reads it in the current slot or later (R34). -/
def State.stillWanted (s : State) (k n : Nat) : Bool := decide (s.slot ≤ n + s.stageReach k)

/-- A vat drops the sheet of slot n, which only late consumers would take; the lines that later sheets read go on (R34). -/
def State.vatSkip (s : State) (v n : Nat) : State :=
  if !s.pageOn (eVAT v) then s
  else s.each (s.vatObjs v n) fun s o => s.writeLine (s.recIn o n) n (s.knotBefore o n) (s.knotBefore o (n + 1))

/-- A stage before TXS drops the slots before the current one that only late consumers would take (R34). A vat at work has written its
lines already. -/
def State.stageDrop (s : State) (k : Nat) : State :=
  let q := s.stage k
  let n := ((List.range (s.slot - q.next)).filter fun i => !s.stillWanted k (q.next + i)).length
  if n = 0 then s
  else
    let skip := b2n q.busy
    let s := if stVat 0 ≤ k ∧ k < stTree then s.upto (n - skip) fun s i => s.vatSkip (k - stVat 0) (q.next + skip + i) else s
    s.setStage k ⟨q.next + n, false⟩

/-- A stream has no finished sheet at the send cut-off: TXS declares it late. -/
def State.anyLate (s : State) : Bool :=
  s.pageOn eTXS && s.is R.TXS0_C_EN && (s.tx.any fun e => match e.2.cur with | some l => !(s.sheetsLate e.1 l.rcd).isEmpty | none => false)

/-- The send cut-off: TXS takes or declares late, RED counts the late sheets, and the stages before it resume with the next sheet they can
deliver (R32, R34, R429). -/
def State.cutOffSend (s : State) : State :=
  if s.slot < s.sendCut then s
  else
    let t := if s.pageOn eTXS then s.sendCutOff.lateRuns else s.sendCutOff
    if s.anyLate then t.each stageIds State.stageDrop else t

/-- At a boundary with no stage at work, every stage takes the new slot next. -/
def State.stageSync (s : State) : State :=
  if stageIds.any fun k => (s.stage k).busy then s
  else s.each stageIds fun s k => if 1 ≤ k ∧ k ≤ 4 ∧ s.slot ≤ (s.stage k).next then s else s.setStage k ⟨s.slot, false⟩

/-! The boundary. -/

/-- The device runs: powered, and in no reset sequence. -/
def State.awake (s : State) : Bool := !s.pwr.off && s.pwr.inReset != some true

/-- A MEMBER without a decision at sheet N (R409). -/
def State.decisionLost (s : State) : State :=
  match s.press with
  | some p => if p.ring && !s.isManager && p.decided.isNone then s.pressCommit else s
  | none => s

/-- A decision is announced up to boundary N − 1 (R408). -/
def State.verdictEnd (s : State) : State :=
  match s.verdict with
  | some d => if d.sheet ≤ s.sheet then { s with verdict := none } else s
  | none => s

/-- Slot s begins. The HSI goes on past 2^64 − 1, of which R5 says nothing (DESIGN CHOICE, log entry 114). -/
def State.boundary (s : State) : State :=
  if !s.awake then s
  else
    let s := s.ringLosses s.slot
    let s := { s with slot := s.slot + 1, hsi := s.hsi + 6, cyc := 0 }
    let s := s.domsTick.stageSync.timeBoundary
    let s := (((if s.pageOn eCONV then s.convErrors s.blockReads else s).convBoundary.ueCause s 0x30).objReads.freeze).gateBoundary
    let s := ((s.seenBoundary.ckptResume.grantBoundary).pairBoundary).arbHeart
    (s.wmkCapture.decisionLost.verdictEnd).frameLaunch

/-! A step (R100). -/

/-- Receive contexts: the buffers are empty, and each waits for its next packet (R174). -/
def State.rxStep (s : State) (h : Int) : State :=
  { s.each (s.rx.map fun e => e.1) fun s c => s.setRx c fun x => { x with
      started := false, buf := [], run := 0, lost := 0, fade := 6, due := true, tb := x.tb + h, live := false, zeros := 0 } with
    rxCut := s.rxCut + h / 6 }

/-- Classes of samples that a step keeps: filter histories and delay lines. -/
def stepKeeps (cls : Nat) : Bool := cls = aDc || cls = aLine || cls = aSend || cls = aTrim || cls = aPre

/-- TIME steps by D sheets, and every block with it; false where no step is made. -/
def State.stepAll (s : State) (d : Int) : Bool × State :=
  let a := s.sheet
  match s.stepTime d with
  | (false, s) => (false, s)
  | (true, s) =>
    let s := s.each stageIds fun s k => s.setStage k ⟨s.slot, false⟩
    let s := (s.dropAudio fun k => !stepKeeps k).rxStep (6 * d)
    (true, (s.txStep (6 * d)).pressStep a s.sheet)

/-- The step that HSI_STEP makes: the first scheduled one that is due, but for that of the mute sheet and for an HSI_SET that waits
to be announced. -/
def State.dueStep (s : State) : Option StepReq :=
  s.time.steps.find? fun q => decide (q.due ≤ s.slot) && q.why != .mute && !(s.stepLead && q.why == .hsiSet)

/-- The step that was requested is due, at a sheet boundary; the residual is slewed at ACQ_SLEW after first lock, at SLEW_LIM after
the others of the servo (R99). A source lost meanwhile sends the servo to HOLDOVER (R93). -/
def State.stepNow (s : State) : State :=
  match s.dueStep with
  | some q =>
    if s.cyc ≠ 0 then s
    else
      let s := s.setTime fun t => { t with steps := t.steps.erase q }
      let d := if q.why = .hsiSet then s.hsiSetD else q.d
      let present := s.is R.TIME_S_REF_PRESENT
      match s.stepAll d with
      | (false, s) => if q.why = .reanchor && s.servo = tStepPending then s.startSlew false else s
      | (true, s) =>
        match q.why with
        | .firstLock =>
          let s := (s.putB R.TIME_SERVO_STATE_ANCHORED true).slewResidual d true
          if present then s else s.holdover 1
        | .reanchor => s.slewResidual d false
        | _ => s
  | none => s

/-- D of the step at the armed mute sheet: by θ, or as a manager with active workers announced it (R97, R101). -/
def State.muteD (s : State) : Option Int :=
  if s.stepLead then (s.time.steps.find? fun q => q.why == .mute && decide (q.due ≤ s.slot)).map fun q => q.d
  else some (stepD s.time.theta)

/-- The boundary "at sheet N" of the armed mute sheet (R97). With D = 0 ARMED clears and the whole θ is slewed (DEDUCED, log entry
120). -/
def State.muteStep (s : State) : State :=
  if s.servo ≠ tStepPending ∨ !s.is R.TIME_MUTE_SHEET_HI_ARMED ∨ s.sheet ≠ s.muteSheet ∨ s.cyc ≠ 0 then s
  else match s.muteD with
    | some d =>
      let s := s.putB R.TIME_MUTE_SHEET_HI_ARMED false
      match s.stepAll d with
      | (made, s) => if made || decide (d = 0) then s.slewResidual d false else s
    | none => s

/-! Time between commands. -/

/-- One fabric cycle passes (log entry 1): the slot ends only at a SHEET_BOUNDARY, so the last cycle of it stays. -/
def State.tick (s : State) : State := if s.awake then { s with cyc := min (s.cyc + 1) (sheetCycles - 1) } else s

end Sys2Proof.Machine
end

