-- ==== Sys2Proof/Machine/ApsalCmd.lean ====
section
/-! DEFINITION. Commands of the Apsal link and of the watermark (13_apsal_systems). A message in a frame is a command of its own. -/

namespace Sys2Proof.Machine

def effApsalFrameReceive (q : Fin 2) (frame : List Byte) (rxStamp txStamp : Int) (s : State) : State := s.apsalFrame q.val frame rxStamp txStamp

/-- R390–R403: `rxStamp` and `txStamp` are the device times at which the start block came in and, where the frame is forwarded,
left. -/
def execApsalFrameReceive (q : Fin 2) (frame : List Byte) (rxStamp txStamp : Int) (s : State) : Host.Outcome State Fault Refusal := done (effApsalFrameReceive q frame rxStamp txStamp s)

def effApsalPortDown (q : Fin 2) (s : State) : State := if s.portState q.val = 0 then s else s.portDown q.val

/-- R390, R401. -/
def execApsalPortDown (q : Fin 2) (s : State) : Host.Outcome State Fault Refusal := done (effApsalPortDown q s)

def effApsalPortAligned (q : Fin 2) (s : State) : State := s.portAligned q.val

/-- R390. -/
def execApsalPortAligned (q : Fin 2) (s : State) : Host.Outcome State Fault Refusal := done (effApsalPortAligned q s)

def effWrapEnd (q : Fin 2) (s : State) : State := s.wrapEnd q.val

/-- R401. -/
def execWrapEnd (q : Fin 2) (s : State) : Host.Outcome State Fault Refusal := done (effWrapEnd q s)

def effHeartbeat (pos : Fin 32) (w0 : Word) (s : State) : State := s.heartbeat pos.val w0.toNat

/-- R396, R405. -/
def execHeartbeat (pos : Fin 32) (w0 : Word) (s : State) : Host.Outcome State Fault Refusal := done (effHeartbeat pos w0 s)

def effEvtSum (pos : Fin 32) (w0 : Word) (s : State) : State := s.evtSum pos.val w0.toNat

/-- R407. -/
def execEvtSum (pos : Fin 32) (w0 : Word) (s : State) : Host.Outcome State Fault Refusal := done (effEvtSum pos w0 s)

def effRraRsp (tag : BitVec 8) (resp : Fin 8) (data : BitVec 64) (s : State) : State := s.rraRsp tag.toNat resp.val data.toNat

/-- R406. -/
def execRraRsp (tag : BitVec 8) (resp : Fin 8) (data : BitVec 64) (s : State) : Host.Outcome State Fault Refusal := done (effRraRsp tag resp data s)

def effRraTimeout (s : State) : State := s.rraTimeout

/-- R406. -/
def execRraTimeout (s : State) : Host.Outcome State Fault Refusal := done (effRraTimeout s)

def effPressReq (id : BitVec 8) (sheet : BitVec 48) (s : State) : State := if s.ringOn then s.pressAsked id.toNat sheet.toNat else s

/-- R408. -/
def execPressReq (id : BitVec 8) (sheet : BitVec 48) (s : State) : Host.Outcome State Fault Refusal := done (effPressReq id sheet s)

def effPressTable (payload : List Byte) (s : State) : State := if s.ringOn then s.pressTable payload else s

/-- R408. -/
def execPressTable (payload : List Byte) (s : State) : Host.Outcome State Fault Refusal := done (effPressTable payload s)

def effPressVote (pos : Fin 32) (id : BitVec 8) (reason : Fin 16) (node : BitVec 16) (s : State) : State := if s.ringOn then s.pressVoted pos.val id.toNat reason.val node.toNat else s

/-- R408. -/
def execPressVote (pos : Fin 32) (id : BitVec 8) (reason : Fin 16) (node : BitVec 16) (s : State) : Host.Outcome State Fault Refusal := done (effPressVote pos id reason node s)

def effPressDecision (s : State) : State := s.pressDecision

/-- R408. -/
def execPressDecision (s : State) : Host.Outcome State Fault Refusal := done (effPressDecision s)

def effPressDecide (id : BitVec 8) (go : Bool) (_dev : Fin 32) (_reason : Fin 16) (_node : BitVec 16) (s : State) : State := if s.ringOn then s.pressDecided id.toNat go else s

/-- R409: the device that the message names is for the reader of PRESS_FAULT at the manager only. -/
def execPressDecide (id : BitVec 8) (go : Bool) (dev : Fin 32) (reason : Fin 16) (node : BitVec 16) (s : State) : Host.Outcome State Fault Refusal := done (effPressDecide id go dev reason node s)

def effRingStep (sheets : BitVec 64) (boundary : BitVec 48) (s : State) : State := s.stepMsg (sx 64 sheets.toNat) boundary.toNat

/-- R410. -/
def execRingStep (sheets : BitVec 64) (boundary : BitVec 48) (s : State) : Host.Outcome State Fault Refusal := done (effRingStep sheets boundary s)

def effRingSnap (hsi : BitVec 64) (s : State) : State := s.snapMsg hsi.toNat

/-- R411. -/
def execRingSnap (hsi : BitVec 64) (s : State) : Host.Outcome State Fault Refusal := done (effRingSnap hsi s)

def effRingSnapGo (m : Master) (s : State) : State := s.regWrite m.toNat 0xC20C8 1

/-- R411: the write of 1 to SNAP_CMD[GO]. -/
def execRingSnapGo (m : Master) (s : State) : Host.Outcome State Fault Refusal := done (effRingSnapGo m s)

def effRingSnapTrigger (s : State) : State := s.ringTrigger

/-- R63, R411. -/
def execRingSnapTrigger (s : State) : Host.Outcome State Fault Refusal := done (effRingSnapTrigger s)

def effWmkReport (pos : Fin 32) (k : Word) (tag : BitVec 16) (settled : Bool) (epochSheet : Word) (wRing wGroup : BitVec 64) (s : State) : State := s.wmkReport ⟨pos.val, k.toNat, tag.toNat, settled, epochSheet.toNat, wRing, wGroup⟩

/-- R416. -/
def execWmkReport (pos : Fin 32) (k : Word) (tag : BitVec 16) (settled : Bool) (epochSheet : Word) (wRing wGroup : BitVec 64) (s : State) : Host.Outcome State Fault Refusal := done (effWmkReport pos k tag settled epochSheet wRing wGroup s)

def effWmkRescanRead (s : State) : State := s.rescan

/-- R415. -/
def execWmkRescanRead (s : State) : Host.Outcome State Fault Refusal := done (effWmkRescanRead s)

def effWmkSettled (s : State) : State := s.wmkSettle

/-- R414. -/
def execWmkSettled (s : State) : Host.Outcome State Fault Refusal := done (effWmkSettled s)

def effRingMetadataPush (s : State) : State := s.ringMeta

/-- R404. -/
def execRingMetadataPush (s : State) : Host.Outcome State Fault Refusal := done (effRingMetadataPush s)

def effBulkGo (m : Master) (value : Word) (s : State) : State := s.regWrite m.toNat 0xC2104 value

/-- R397. -/
def execBulkGo (m : Master) (value : Word) (s : State) : Host.Outcome State Fault Refusal := done (effBulkGo m value s)

def effBulkDone (s : State) : State := s.bulkDone

/-- R397. -/
def execBulkDone (s : State) : Host.Outcome State Fault Refusal := done (effBulkDone s)

end Sys2Proof.Machine
end

