-- ==== Sys2Proof/Machine/AudioCmd.lean ====
section
/-! DEFINITION. Commands of the slot, its stages, the press, and the audio blocks (01_signal_path, 06, 08 and 09). -/

namespace Sys2Proof.Machine

def effSheetBoundary (s : State) : State := s.boundary

/-- R11. -/
def execSheetBoundary (s : State) : Host.Outcome State Fault Refusal := done (effSheetBoundary s)

def effStageStart (stage : Stage) (s : State) : State := s.stageBegin stage

/-- R27, R28. -/
def execStageStart (stage : Stage) (s : State) : Host.Outcome State Fault Refusal := done (effStageStart stage s)

def effStageComplete (stage : Stage) (s : State) : State := s.stageEnd stage

/-- R27. -/
def execStageComplete (stage : Stage) (s : State) : Host.Outcome State Fault Refusal := done (effStageComplete stage s)

def effQFlush (m : Master) (value : Word) (s : State) : State := s.regWrite m.toNat 0x6008C value

/-- R190. -/
def execQFlush (m : Master) (value : Word) (s : State) : Host.Outcome State Fault Refusal := done (effQFlush m value s)

def effFadeCmd (m : Master) (value : Word) (s : State) : State := s.regWrite m.toNat 0x70090 value

/-- R252. -/
def execFadeCmd (m : Master) (value : Word) (s : State) : Host.Outcome State Fault Refusal := done (effFadeCmd m value s)

def effTestCfgWrite (m : Master) (value : Word) (s : State) : State := s.regWrite m.toNat 0x70084 value

/-- R249. -/
def execTestCfgWrite (m : Master) (value : Word) (s : State) : Host.Outcome State Fault Refusal := done (effTestCfgWrite m value s)

def effMute (m : Master) (x : Option (Fin 16)) (value : Word) (s : State) : State := s.regWrite m.toNat (match x with | some i => 0x79080 + 4 * i.val | none => 0x78008) value

/-- R271: a write to MUTE_x, or to OUT0.CTRL. -/
def execMute (m : Master) (x : Option (Fin 16)) (value : Word) (s : State) : Host.Outcome State Fault Refusal := done (effMute m x value s)

def effPressGo (m : Master) (value : Word) (s : State) : State := s.regWrite m.toNat 0x8090 value

/-- R258: a write to REQ. -/
def execPressGo (m : Master) (value : Word) (s : State) : Host.Outcome State Fault Refusal := done (effPressGo m value s)

def effPressRingGo (m : Master) (value : Word) (s : State) : State := s.regWrite m.toNat 0x8090 value

/-- R262, R408. -/
def execPressRingGo (m : Master) (value : Word) (s : State) : Host.Outcome State Fault Refusal := done (effPressRingGo m value s)

def effPressAbort (m : Master) (value : Word) (s : State) : State := s.regWrite m.toNat 0x8090 value

/-- R259. -/
def execPressAbort (m : Master) (value : Word) (s : State) : Host.Outcome State Fault Refusal := done (effPressAbort m value s)

def effPressChecksDone (s : State) : State := s.pressChecked

/-- R258, R259. -/
def execPressChecksDone (s : State) : Host.Outcome State Fault Refusal := done (effPressChecksDone s)

def effPressCommit (s : State) : State := s.pressCommit

/-- R257. -/
def execPressCommit (s : State) : Host.Outcome State Fault Refusal := done (effPressCommit s)

def effConvEnable (m : Master) (value : Word) (s : State) : State := s.regWrite m.toNat 0x80008 value

/-- R301. -/
def execConvEnable (m : Master) (value : Word) (s : State) : Host.Outcome State Fault Refusal := done (effConvEnable m value s)

def effConvDramBaseWrite (m : Master) (value : Word) (s : State) : State := s.regWrite m.toNat 0x80084 value

/-- R304. -/
def execConvDramBaseWrite (m : Master) (value : Word) (s : State) : Host.Outcome State Fault Refusal := done (effConvDramBaseWrite m value s)

def effConvLoad (m : Master) (value : Word) (s : State) : State := s.regWrite m.toNat 0x80088 value

/-- R294. -/
def execConvLoad (m : Master) (value : Word) (s : State) : Host.Outcome State Fault Refusal := done (effConvLoad m value s)

def effConvReload (m : Master) (value : Word) (s : State) : State := s.regWrite m.toNat 0x80088 value

/-- R300. -/
def execConvReload (m : Master) (value : Word) (s : State) : Host.Outcome State Fault Refusal := done (effConvReload m value s)

def effConvLoadAbort (m : Master) (value : Word) (s : State) : State := s.regWrite m.toNat 0x80088 value

/-- R294. -/
def execConvLoadAbort (m : Master) (value : Word) (s : State) : Host.Outcome State Fault Refusal := done (effConvLoadAbort m value s)

def effConvLoadDone (s : State) : State := s.loadDone.ueCause s 0x30

/-- R294. -/
def execConvLoadDone (s : State) : Host.Outcome State Fault Refusal := done (effConvLoadDone s)

def effConvLoadFail (reason : Fin 16) (s : State) : State := s.loadFail reason.val

/-- R294. -/
def execConvLoadFail (reason : Fin 16) (s : State) : Host.Outcome State Fault Refusal := done (effConvLoadFail reason s)

def effTailFetchDeadline (out : Fin 512) (missing : List (Fin 28)) (s : State) : State := s.tailDeadline out.val (missing.map Fin.val)

/-- R289: the partitions of output `out` that had not arrived, 14·set + p with set A 0 and set B 1. -/
def execTailFetchDeadline (out : Fin 512) (missing : List (Fin 28)) (s : State) : Host.Outcome State Fault Refusal := done (effTailFetchDeadline out missing s)

def effConvVerifyDone (s : State) : State := s.verifyDone

/-- R295, R300. -/
def execConvVerifyDone (s : State) : Host.Outcome State Fault Refusal := done (effConvVerifyDone s)

end Sys2Proof.Machine
end

