-- ==== Sys2Proof/Machine/BootCmd.lean ====
section
/-! DEFINITION. Boot commands (15_power_and_bringup R455–R458). The sender supplies what the flash or the PCIe read delivers, and
each record of the image in its turn. -/

namespace Sys2Proof.Machine

/-! Sources (R455, R456). -/

/-- The basic flash parameter table of the SFDP bytes, none without a valid signature (R456; the layout of JESD216 stands in log entry
153). -/
def sfdpTable (b : List Byte) : Option (List Byte) := if leAt b 0 4 = 0x50444653 then some (b.drop (leAt b 12 3)) else none

/-- The density in bytes; a table that gives it as a power of two gives its exponent, of which those beyond 2^64 bytes count as that. -/
def sfdpBytes (t : List Byte) : Nat :=
  let d := leAt t 4 4
  if d < 2 ^ 31 then (d + 1) / 8 else 2 ^ min 64 (d % 2 ^ 31 - 3)

/-- Its log2, rounded down (log entry 153). -/
def sfdpDensity (t : List Byte) : Nat := (sfdpBytes t).log2

/-- The fastest read: 1-4-4 (2), 1-1-4 (1) or 1-1-1 (0). -/
def sfdpMode (t : List Byte) : Nat := if (leAt t 0 4).testBit 21 then 2 else if (leAt t 0 4).testBit 22 then 1 else 0

/-- QSPI_INFO and the offset of copy 1: half the density, or 8 MiB where the density is unknown. -/
def State.putFlash (s : State) (sfdp : List Byte) : State :=
  match sfdpTable sfdp with
  | some t =>
    let d := sfdpBytes t
    (s.setN 0xE80AC (sfdpMode t + b2n (decide (2 ^ 24 < d)) * 16 + 32 + sfdpDensity t * 256)).modBoot fun b => { b with copy1 := d / 2 }
  | none => (s.setN 0xE80AC 0).modBoot fun b => { b with copy1 := 0x800000 }

/-- A QSPI boot starts with copy 0; without a response there is no device. -/
def State.bootQspi (s : State) (sfdp : Option (List Byte)) : State :=
  match sfdp with
  | some f => (s.bootBegin 0 0).putFlash f
  | none =>
    let s' := (s.bootBegin 0 0).bootFail 1 0
    s'.modBoot fun b => { b with waits := s.bootStrap == 2 }

def effBootStart (sfdp : Option (List Byte)) (s : State) : State :=
  if !s.pageOn eBOOT ∨ s.mode ≠ mStandby ∨ s.n 0xE800C ≠ 0 ∨ s.boot.waits then s
  else if s.bootStrap = 1 then s.modBoot fun b => { b with waits := true }
  else if s.bootStrap = 3 then ((s.setN 0xE800C 2).setN 0xE808C 3).latch eBOOT 0
  else s.bootQspi sfdp

/-- R455, R456: with the bytes that the flash gives to SFDP reads, none without a response. -/
def execBootStart (sfdp : Option (List Byte)) (s : State) : Host.Outcome State Fault Refusal := done (effBootStart sfdp s)

def effBootGo (m : Master) (v : Word) (s : State) : State := s.regWrite m.toNat 0xE8008 v

/-- CTRL[GO] (R455). -/
def execBootGo (m : Master) (value : Word) (s : State) : Host.Outcome State Fault Refusal := done (effBootGo m value s)

def effBootAbort (m : Master) (v : Word) (s : State) : State := s.regWrite m.toNat 0xE8008 v

/-- CTRL[ABORT] (R458). -/
def execBootAbort (m : Master) (value : Word) (s : State) : Host.Outcome State Fault Refusal := done (effBootAbort m value s)

/-! The verify pass (R457, R458). -/

/-- The least RLEN of a record at position p; none for an unknown TYPE. -/
def recordMin (b : List Byte) (p : Nat) : Option Nat :=
  match leAt b p 1 with
  | 0 => some 8
  | 1 => some 24
  | 2 => some 24
  | 3 => some (24 + leAt b (p + 16) 4)
  | 4 => some 24
  | 5 => some 32
  | 6 => some 16
  | 7 => some 16
  | _ => none

/-- Walk the records from position p to the trailer at `stop`, of which n are left to come: the index of the first that is not
sound, counted from i; none when all are sound and END is the last. The first argument bounds the records. -/
def recordBad : Nat → List Byte → Nat → Nat → Nat → Nat → Option Nat
  | 0, _, _, _, _, i => some i
  | k + 1, b, p, stop, n, i =>
    let len := leAt b (p + 4) 4
    match recordMin b p with
    | none => some i
    | some low =>
      if stop < p + 8 ∨ len < low ∨ len % 8 ≠ 0 ∨ stop < p + len ∨ n = 0 then some i
      else if leAt b p 1 = 0 then (if p + len = stop ∧ n = 1 then none else some i)
      else recordBad k b (p + len) stop (n - 1) (i + 1)

/-- The record at fault in an image. -/
def imageBad (b : List Byte) : Option Nat := recordBad (leAt b 8 4 / 8) b 32 (leAt b 8 4 - 8) (leAt b 12 4) 0

/-- A header of a sound form (R457). -/
def headerOk (b : List Byte) : Bool :=
  let len := leAt b 8 4
  decide (32 ≤ b.length ∧ leAt b 0 4 = 0x31544F42 ∧ leAt b 4 2 = 1 ∧ 48 ≤ len ∧ len ≤ 2 ^ 27 ∧ len % 8 = 0 ∧
    crc32 (b.take 28) = leAt b 28 4)

/-- The reason for which an image fails verification, 0 for none. -/
def imageReason (b : List Byte) : Nat :=
  let len := leAt b 8 4
  if !headerOk b then 2
  else if b.length < len ∨ crc64 (b.take (len - 8)) ≠ leAt b (len - 8) 8 then 3
  else if imageBad b = none then 0
  else 4

/-- The record index that a failed verification shows (R458, R462). -/
def imageIndex (b : List Byte) : Nat := if imageReason b = 4 then (imageBad b).getD 0 else 0

/-- The bytes of an image that a pass reads: the header, and the rest where the header is sound. -/
def imageNeed (b : List Byte) : Nat := if headerOk b then leAt b 8 4 else 32

/-- The image that a source delivers: its bytes, or the address of a read that fails; none while a read waits at its target. -/
abbrev Delivered := Option (Except Nat (List Byte))

/-- The image as the fabric source holds it, read as master 0x02 over the time of a pass (R455). -/
def State.fabricImage (s : State) : Delivered × State :=
  let a := s.get64 0xE8080 % 2 ^ 40
  match s.readBlock true 2 a 32 with
  | (some (.ok h), s) =>
    if headerOk h then
      match s.readBlock true 2 (a + 32) (leAt h 8 4 - 32) with
      | (some (.ok t), s) => (some (.ok (h ++ t)), s)
      | r => r
    else (some (.ok h), s)
  | r => r

/-- The image of the source in use. What the sender gives are the bytes of the flash from offset 0 (R456), of which the copy in use is
taken; or the bytes that PCIe reads from SRC_ADDR on have returned, after which a read of the pass fails if it needs more (R458). -/
def State.bootImage (s : State) (data : List Byte) : Delivered × State :=
  match s.get R.BOOT_RESULT_SOURCE with
  | 2 => s.fabricImage
  | 1 => (some (if data.length < imageNeed data then .error (s.get64 0xE8080 + data.length) else .ok data), s)
  | _ => (some (.ok (data.drop (if s.is R.BOOT_RESULT_COPY then s.boot.copy1 else 0))), s)

/-- A verify pass has found reason r at an address and a record. -/
def State.verifyFail (s : State) (r a i : Nat) : State :=
  if s.boot.qspi ∧ !s.is R.BOOT_RESULT_COPY then s.bootBegin 0 1
  else
    let two := s.boot.qspi && s.bootStrap == 2
    ((s.setN 0xE8090 i).bootFail r a).modBoot fun x => { x with waits := two }

def effVerifyPassDone (image : List Byte) (s : State) : State :=
  if !s.boot.verify then s
  else match s.bootImage image with
    | (none, _) => s
    | (some (.error a), s) => s.verifyFail 8 a 0
    | (some (.ok b), s) =>
      let r := imageReason b
      if r = 0 then
        let s := (s.set64 0xE80A0 (leAt b 16 8)).setN 0xE80A8 (leAt b 8 4)
        (s.setN 0xE800C 9).modBoot fun x => { x with verify := false, image := b.take (leAt b 8 4), pos := 32 }
      else s.verifyFail r 0 (imageIndex b)

/-- R457, R458: the first copy of a QSPI image that fails gives way to the second. -/
def execVerifyPassDone (image : List Byte) (s : State) : Host.Outcome State Fault Refusal :=
  done (effVerifyPassDone image s)

/-! The execute pass (R458). -/

/-- The command that a record spells (R457), END excepted. -/
def recordCmd (b : List Byte) : Option Instr :=
  let cont := (leAt b 1 1).testBit 0
  let a : Addr := BitVec.ofNat 40 (leAt b 8 8)
  let v (o : Nat) : Word := w32 (leAt b o 4)
  match leAt b 0 1 with
  | 1 => some (.bootWrite cont a (v 16))
  | 2 => some (.bootModify cont a (v 16) (v 20))
  | 3 => some (.bootLoad cont a ((b.drop 24).take (leAt b 16 4)))
  | 4 => some (.bootFill cont a (leAt b 16 4) (v 20))
  | 5 => some (.bootPoll cont a (v 16) (v 20) (v 24))
  | 6 => some (.bootDelay (v 8))
  | 7 => some (.bootMode (BitVec.ofNat 8 (leAt b 8 1)))
  | _ => none

/-- RECS of the image in use. -/
def State.bootRecs (s : State) : Nat := leAt s.boot.image 12 4

/-- The record at hand, as the execute pass reads it again: from the fabric, or from a source that gives what it gave before (log entry
154). -/
def State.recordNow (s : State) : Delivered × State :=
  let n := leAt s.boot.image (s.boot.pos + 4) 4
  if s.get R.BOOT_RESULT_SOURCE = 2 then s.readBlock true 2 ((s.get64 0xE8080 + s.boot.pos) % 2 ^ 40) n
  else (some (.ok ((s.boot.image.drop s.boot.pos).take n)), s)

/-- One read of a POLL: none while it waits at its target. -/
def State.pollOnce (s : State) (p : Nat × Nat × Nat) : Option (Except Nat Bool) × State :=
  match s.attempt (MemReq.read 2 p.1 4) with
  | (none, s) => (none, s)
  | (some x, s) => (some (if x.1 = .ok then .ok (decide (leAt x.2 0 4 &&& p.2.1 = p.2.2)) else .error p.1), s)

/-- The POLL in progress reads once more. -/
def State.pollAgain (s : State) : State :=
  match s.boot.poll with
  | none => s
  | some p => match s.pollOnce p with
    | (none, s) => s
    | (some (.ok true), s) => s.recDone
    | (some (.ok false), s) => s
    | (some (.error a), s) => if s.boot.pollCont then s.recDone else s.bootFail 5 a

/-- No record is in progress in the execute pass. -/
def State.recIdle (s : State) : Bool := s.is R.BOOT_S_EXECUTING && s.boot.poll.isNone && !s.boot.modeWait && s.boot.rest.isNone

/-- Run record i after a last look at a POLL in progress: without its turn it has no effect, and its turn it has where the image spells
it next. A failed read of the image ends the boot. -/
def State.record (s : State) (i : Instr) (f : State → State) : State :=
  let t := s.pollAgain
  if t.recIdle && decide (t.get R.BOOT_REC_INDEX_INDEX + 1 < t.bootRecs) then
    match t.recordNow with
    | (none, _) => t
    | (some (.error a), u) => u.bootFail 8 a
    | (some (.ok b), u) => if recordCmd b = some i then (f u).afterAccess else t
  else t

def effBootWrite (cont : Bool) (addr : Addr) (v : Word) (s : State) : State :=
  s.record (.bootWrite cont addr v) (State.bootAccesses cont [.put addr.toNat (leBytes 4 v.toNat)])

/-- WRITE. -/
def execBootWrite (cont : Bool) (addr : Addr) (value : Word) (s : State) : Host.Outcome State Fault Refusal :=
  done (effBootWrite cont addr value s)

def effBootModify (cont : Bool) (addr : Addr) (mask v : Word) (s : State) : State :=
  s.record (.bootModify cont addr mask v) (State.bootAccesses cont [.modify addr.toNat mask v])

/-- MODIFY. -/
def execBootModify (cont : Bool) (addr : Addr) (mask value : Word) (s : State) : Host.Outcome State Fault Refusal :=
  done (effBootModify cont addr mask value s)

def effBootLoad (cont : Bool) (addr : Addr) (data : List Byte) (s : State) : State :=
  s.record (.bootLoad cont addr data)
    (State.bootAccesses cont ((blockPieces data.length addr.toNat data).map fun p => .put p.1 p.2))

/-- LOAD. -/
def execBootLoad (cont : Bool) (addr : Addr) (data : List Byte) (s : State) : Host.Outcome State Fault Refusal :=
  done (effBootLoad cont addr data s)

def effBootFill (cont : Bool) (addr : Addr) (len : Nat) (v : Word) (s : State) : State :=
  s.record (.bootFill cont addr len v)
    (State.bootAccesses cont ((List.range (len / 4)).map fun i => .put (addr.toNat + 4 * i) (leBytes 4 v.toNat)))

/-- FILL. -/
def execBootFill (cont : Bool) (addr : Addr) (len : Nat) (value : Word) (s : State) : Host.Outcome State Fault Refusal :=
  done (effBootFill cont addr len value s)

def effBootPoll (cont : Bool) (addr : Addr) (mask v timeout : Word) (s : State) : State :=
  s.record (.bootPoll cont addr mask v timeout) fun s =>
    (s.modBoot fun b => { b with poll := some (addr.toNat, mask.toNat, v.toNat), pollCont := cont }).pollAgain

/-- POLL: it reads now, at each later record command and at its timeout, whose moment POLL_TIMEOUT brings. -/
def execBootPoll (cont : Bool) (addr : Addr) (mask value timeout : Word) (s : State) : Host.Outcome State Fault Refusal :=
  done (effBootPoll cont addr mask value timeout s)

def effPollTimeout (s : State) : State :=
  let t := s.pollAgain
  match t.boot.poll with
  | some p => t.bootFail 6 p.1
  | none => t

/-- R458. -/
def execPollTimeout (s : State) : Host.Outcome State Fault Refusal := done (effPollTimeout s)

def effBootDelay (time : Word) (s : State) : State := s.record (.bootDelay time) State.recDone

/-- DELAY: the command comes when the time has passed. -/
def execBootDelay (time : Word) (s : State) : Host.Outcome State Fault Refusal := done (effBootDelay time s)

def effBootMode (target : BitVec 8) (s : State) : State :=
  s.record (.bootMode target) fun s =>
    let t := target.toNat
    if s.modeReason t = 0 then (s.modeRequest t).modBoot fun b => { b with modeWait := true }
    else (s.modeRequest t).bootFail 7 0

/-- MODE. -/
def execBootMode (target : BitVec 8) (s : State) : Host.Outcome State Fault Refusal := done (effBootMode target s)

/-- The image read whole in the execute pass. -/
def State.bootReread (s : State) (data : List Byte) : Delivered × State :=
  if s.get R.BOOT_RESULT_SOURCE = 1 ∧ data.length < s.get R.BOOT_IMG_LEN_LEN then (some (.error (s.get64 0xE8080 + data.length)), s)
  else s.bootImage data

def effBootEnd (image : List Byte) (s : State) : State :=
  let s := s.pollAgain
  if !s.recIdle ∨ s.get R.BOOT_REC_INDEX_INDEX + 1 ≠ s.bootRecs then s
  else
    match s.bootReread image with
    | (none, _) => s
    | (some (.error a), s) => s.bootFail 8 a
    | (some (.ok b), s) =>
      let n := s.get R.BOOT_IMG_LEN_LEN - 8
      if crc64 (b.take n) = leAt s.boot.image n 8 then s.bootOk else s.bootFail 10 0

/-- END: the CRC-64 of what the execute pass read, against the trailer. -/
def execBootEnd (image : List Byte) (s : State) : Host.Outcome State Fault Refusal := done (effBootEnd image s)

end Sys2Proof.Machine
end

