-- ==== Sys2Proof/Machine/FabricCmd.lean ====
section
/-! DEFINITION. Commands at the memories: 11_memory_fabric (R341–R364), 12_dram (R366–R387), PCIe memory requests
(15_power_and_bringup R486), metadata pushes (06_objects_and_mould R188), remote access (13_apsal_systems R406) and bulk writes
(R397). -/

namespace Sys2Proof.Machine

def effSramRead (m : Master) (addr : Addr) (width : Nat) (s : State) : State := s.ask (MemReq.read m.toNat addr.toNat width)

/-- R347, R348. -/
def execSramRead (m : Master) (addr : Addr) (width : Nat) (s : State) : Host.Outcome State Fault Refusal :=
  done (effSramRead m addr width s)

/-- A block of the render path writes whole ECC words, each with new check bytes (R344, R346); it makes no other write. -/
def State.blockWrite (s : State) (m a : Nat) (data : List Byte) : State :=
  let w := (wordsOf a data.length)
  if w.isEmpty ∨ data.length ≠ 24 * w.length ∨ sramBase (w.getD 0 0) ≠ a ∨
      !s.domOn (if 0x20000000 ≤ a then 7 + (a - 0x20000000) / 0x100000 / 8 else 5) then s
  else s.ask (MemReq.put m a data)

def effSramWrite (m : Master) (addr : Addr) (data : List Byte) (s : State) : State :=
  if renderBlock m.toNat then s.blockWrite m.toNat addr.toNat data else s.ask (MemReq.put m.toNat addr.toNat data)

/-- R346. -/
def execSramWrite (m : Master) (addr : Addr) (data : List Byte) (s : State) : Host.Outcome State Fault Refusal :=
  done (effSramWrite m addr data s)

/-- R350. -/
def execScrubVisit (s : State) : Host.Outcome State Fault Refusal := done s.scrub

def effSramInject (m : Master) (v : Word) (s : State) : State := s.regWrite m.toNat 0xA80A8 v

/-- R364. -/
def execSramInject (m : Master) (value : Word) (s : State) : Host.Outcome State Fault Refusal := done (effSramInject m value s)

/-! Locked sequences (R357, R358). -/

def effAtomicOp (m : Master) (op : AtomicOp) (addr : Addr) (wide : Bool) (operand compare : BitVec 64) (s : State) : State :=
  let n := if wide then 8 else 4
  if m.toNat = 0 ∨ m.toNat = 1 ∨ m.toNat = 3 then
    s.ask ⟨m.toNat, addr.toNat, false, n, [],
      some ⟨op, wide, operand.toNat % 2 ^ (8 * n), compare.toNat % 2 ^ (8 * n)⟩, false, false, 0, none, false⟩
  else s

/-- R357: the locked read; the answer waits for the closing write. -/
def execAtomicOp (m : Master) (op : AtomicOp) (addr : Addr) (wide : Bool) (operand compare : BitVec 64) (s : State) :
    Host.Outcome State Fault Refusal :=
  done (effAtomicOp m op addr wide operand compare s)

/-- The closing write of the lock that is held. -/
def State.closeLock (s : State) (l : LockSt) : State :=
  let q := s.request (MemReq.put l.master l.addr l.closing)
  let r : Resp := match q.1 with | some x => x.1 | none => .terr
  let s := (q.2.arbVisit l.master l.addr l.closing.length).unlock
  let s := if l.master = 3 then s.rraEnd r l.old else s.answer r (if r = .ok then l.old else [])
  s.afterAccess

def effClosingWrite (m : Master) (addr : Addr) (data : List Byte) (s : State) : State :=
  if s.noRequest m.toNat then s
  else match s.lock with
    | some l =>
      if l.master = m.toNat ∧ l.addr = addr.toNat then
        (if data = l.closing ∧ (s.dumpPending (l.addr / 64 * 64)).isEmpty then s.closeLock l else s)
      else s.answer .lerr []
    | none => s.answer .lerr []

/-- R357, R358: a write that is not the one the sequence computed is none of its writes; without the lock, LERR. A write that the dump
engine holds does not reach the target, where the engine itself waits for the lock: the lock then breaks (R67; log entry 111). -/
def execClosingWrite (m : Master) (addr : Addr) (data : List Byte) (s : State) : Host.Outcome State Fault Refusal :=
  done (effClosingWrite m addr data s)

def effLockBreak (s : State) : State :=
  match s.lock with
  | none => s
  | some l =>
    let s := (s.unlock.addS R.FAB_LOCK_BREAK_CNT_COUNT 1).setN 0xA00A0 (l.master % 128)
    let s := s.latch eFAB 4
    let s := if l.master = 3 then s.rraEnd .lerr [] else s.answer .abort []
    s.afterAccess

/-- R358: the sequence has failed, and the endpoint completes its AtomicOp with Completer Abort. -/
def execLockBreak (s : State) : Host.Outcome State Fault Refusal := done (effLockBreak s)

/-! PCIe memory requests (R486). -/

def effPcieMemoryRequest (fn : Fin 2) (addr : Addr) (write : Bool) (bytes : List (Option Byte)) (s : State) : State :=
  let m := fn.val
  if s.noRequest m then s
  else
    let l := pciePieces bytes.length addr.toNat bytes
    if write then (s.each l fun s p => (s.issue (MemReq.post m p.1 p.2)).2).afterAccess
    else (s.readParts m addr.toNat bytes.length (l.map fun p => (p.1, p.2.length))).afterAccess

/-- R486: a posted write has no completion. -/
def execPcieMemoryRequest (fn : Fin 2) (addr : Addr) (write : Bool) (bytes : List (Option Byte)) (s : State) :
    Host.Outcome State Fault Refusal :=
  done (effPcieMemoryRequest fn addr write bytes s)

/-! DRAM. -/

def effDramRead (m : Master) (addr : Addr) (width : Nat) (s : State) : State := s.ask (MemReq.read m.toNat addr.toNat width)

/-- R369, R370. -/
def execDramRead (m : Master) (addr : Addr) (width : Nat) (s : State) : Host.Outcome State Fault Refusal :=
  done (effDramRead m addr width s)

def effDramWrite (m : Master) (addr : Addr) (data : List Byte) (s : State) : State := s.ask (MemReq.put m.toNat addr.toNat data)

/-- R369, R370. -/
def execDramWrite (m : Master) (addr : Addr) (data : List Byte) (s : State) : Host.Outcome State Fault Refusal :=
  done (effDramWrite m addr data s)

def effRegulatorRefill (s : State) : State :=
  let s := s.domsTick
  if s.pageOn eDPHY then ((s.refill.winPass id).dumpTick).afterAccess else s

/-- R374. -/
def execRegulatorRefill (s : State) : Host.Outcome State Fault Refusal := done (effRegulatorRefill s)

def effRefreshOwed (c : Fin 4) (s : State) : State := if s.pageOn (eDRC c.val) then s.owe c.val else s

/-- R377, R378. -/
def execRefreshOwed (c : Fin 4) (s : State) : Host.Outcome State Fault Refusal := done (effRefreshOwed c s)

def effRefreshIssue (c : Fin 4) (s : State) : State := if s.pageOn (eDRC c.val) then s.issueRefresh c.val else s

/-- R377. -/
def execRefreshIssue (c : Fin 4) (s : State) : Host.Outcome State Fault Refusal := done (effRefreshIssue c s)

def effMr4Read (r0 r1 r2 r3 : Fin 3) (s : State) : State := s.mr4Op [r0.val, r1.val, r2.val, r3.val]

/-- R379. -/
def execMr4Read (rate0 rate1 rate2 rate3 : Fin 3) (s : State) : Host.Outcome State Fault Refusal :=
  done (effMr4Read rate0 rate1 rate2 rate3 s)

def effPageCfgWrite (m : Master) (c : Fin 4) (v : Word) (s : State) : State := s.regWrite m.toNat (0xB0080 + 0x1000 * c.val) v

/-- R376. -/
def execPageCfgWrite (m : Master) (c : Fin 4) (value : Word) (s : State) : Host.Outcome State Fault Refusal :=
  done (effPageCfgWrite m c value s)

def effDramInit (m : Master) (v : Word) (s : State) : State := s.regWrite m.toNat 0xB8008 v

/-- R383. -/
def execDramInit (m : Master) (value : Word) (s : State) : Host.Outcome State Fault Refusal := done (effDramInit m value s)

def effDramInitDone (rs : List TrainResult) (s : State) : State := if s.pageOn eDPHY then (s.dramInitEnd rs).afterAccess else s

/-- R383, R384. -/
def execDramInitDone (results : List TrainResult) (s : State) : Host.Outcome State Fault Refusal := done (effDramInitDone results s)

def effTrainTurn (c : Fin 4) (p : Bool) (s : State) : State := if s.pageOn (eDRC c.val) then (s.trainTurnOp c.val p).afterAccess else s

/-- R383, R384. -/
def execTrainTurn (c : Fin 4) (passing : Bool) (s : State) : Host.Outcome State Fault Refusal := done (effTrainTurn c passing s)

def effDrcRetrain (m : Master) (c : Fin 4) (v : Word) (s : State) : State := s.regWrite m.toNat (0xB0008 + 0x1000 * c.val) v

/-- R384. -/
def execDrcRetrain (m : Master) (c : Fin 4) (value : Word) (s : State) : Host.Outcome State Fault Refusal :=
  done (effDrcRetrain m c value s)

def effTrainingDone (c : Fin 4) (r : TrainResult) (s : State) : State :=
  if s.pageOn (eDRC c.val) then (s.trainingEnd c.val r).afterAccess else s

/-- R384. -/
def execTrainingDone (c : Fin 4) (result : TrainResult) (s : State) : Host.Outcome State Fault Refusal :=
  done (effTrainingDone c result s)

def effSelfRefreshEntry (c : Fin 4) (s : State) : State := if s.pageOn (eDRC c.val) then s.selfRefreshOp c.val else s

/-- R385. -/
def execSelfRefreshEntry (c : Fin 4) (s : State) : Host.Outcome State Fault Refusal := done (effSelfRefreshEntry c s)

def effDramInject (m : Master) (c : Fin 4) (v : Word) (s : State) : State := s.regWrite m.toNat (0xB00D0 + 0x1000 * c.val) v

/-- R387. -/
def execDramInject (m : Master) (c : Fin 4) (value : Word) (s : State) : Host.Outcome State Fault Refusal :=
  done (effDramInject m c value s)

/-! Metadata, remote access, bulk writes. -/

def effMetadataPush (m : Master) (slot : Fin 128) (ofs : Fin 32) (data : List Byte) (s : State) : State :=
  s.ask (MemReq.put m.toNat (0x11790000 + 32 * slot.val + ofs.val) data)

/-- R188, R189. -/
def execMetadataPush (m : Master) (slot : Fin 128) (ofs : Fin 32) (data : List Byte) (s : State) : Host.Outcome State Fault Refusal :=
  done (effMetadataPush m slot ofs data s)

def effRraReq (tag : BitVec 8) (op : Fin 8) (addr : Addr) (data : BitVec 64) (cmp : Word) (s : State) : State :=
  if !s.ringOn then s
  else
    let q : Rra := ⟨tag.toNat, s.devid, op.val, addr.toNat, data.toNat, cmp.toNat, s.slot, true⟩
    let s := s.rraPut q
    s.rraRuns (s.ring.rraWait.length + 1)

/-- R406: the request is executed as master 0x03. -/
def execRraReq (tag : BitVec 8) (op : Fin 8) (addr : Addr) (data : BitVec 64) (cmp : Word) (s : State) :
    Host.Outcome State Fault Refusal :=
  done (effRraReq tag op addr data cmp s)

def effRraGo (m : Master) (v : Word) (s : State) : State := s.regWrite m.toNat 0xC20E8 v

/-- R406. -/
def execRraGo (m : Master) (value : Word) (s : State) : Host.Outcome State Fault Refusal := done (effRraGo m value s)

/-- The pieces of WRITE segment k, in order, up to the first response that is not OK. -/
def State.bulkPieces (s : State) (k : Nat) : List (Nat × List Byte) → State
  | [] => s
  | p :: t =>
    match s.issue { MemReq.put 3 p.1 p.2 with part := some k } with
    | (some x, s) => if x.1 = .ok then s.bulkPieces k t else s.bulkStop (some k)
    | (none, s) => s.bulkPieces k t

/-- A number that no WRITE segment with waiting pieces has. -/
def State.newSegment (s : State) : Nat := s.waiting.foldl (fun k r => max k (r.part.getD 0 + 1)) 0

def effBulkWrite (addr : Addr) (data : List Byte) (s : State) : State :=
  if !s.ringOn then s else (s.bulkPieces s.newSegment (blockPieces data.length addr.toNat data)).afterAccess

/-- R397: a WRITE segment, as master 0x03. -/
def execBulkWrite (addr : Addr) (data : List Byte) (s : State) : Host.Outcome State Fault Refusal := done (effBulkWrite addr data s)

end Sys2Proof.Machine
end

