-- ==== Sys2Proof/Machine/IeBus.lean ====
section
/-! DEFINITION. The insert engines on the fabric: bulk transfers (10_insert_engines R331), program loads (R333, R334), and what
masters write to their pages (R320, R336). -/

namespace Sys2Proof.Machine

/-! Bulk transfers (R331). -/

/-- The words of data memory from a local address, as bytes. -/
def IeSt.dmBytes (i : IeSt) (a n : Nat) : List Byte := (List.range n).flatMap fun k => leBytes 4 (tget zeroAt i.dm (a + k)).toNat

/-- Put bytes into data memory as words. -/
def IeSt.putDm (i : IeSt) (a : Nat) (b : List Byte) : IeSt :=
  { i with dm := (List.range (b.length / 4)).foldl (fun t k => tset zeroAt t (a + k) (w32 (leAt b (4 * k) 4))) i.dm }

/-- The transfer has moved n more bytes. -/
def IeSt.bulkMoved (i : IeSt) (b : BulkRun) (n : Nat) : IeSt :=
  { i with run := some { b with addr := b.addr + n, local0 := b.local0 + n / 4, len := b.len - n / 4 } }

/-- One piece of a transfer: moved (true), waiting (none), or failed (false). -/
def State.bulkPiece (s : State) (e : Nat) (b : BulkRun) (n : Nat) : Option Bool × State :=
  let m := 0x38 + e
  if b.toFabric then
    match s.attempt (MemReq.put m b.addr ((s.ie e).dmBytes b.local0 (n / 4))) with
    | (none, s) => (none, s)
    | (some x, s) => if x.1 = .ok then (some true, s.setIe e fun i => i.bulkMoved b n) else (some false, s)
  else
    match s.attempt (MemReq.read m b.addr n) with
    | (none, s) => (none, s)
    | (some x, s) => if x.1 = .ok then (some true, s.setIe e fun i => (i.putDm b.local0 x.2).bulkMoved b n) else (some false, s)

/-- The transfer ends: DONE or ERR, BUSY clear, IPEND bit 1. -/
def State.bulkEnd (s : State) (e : Nat) (ok : Bool) : State :=
  let s := s.setIe e fun i =>
    { (i.setBulk 4 ((tget zeroAt i.bulk 4) / 8 * 8 + if ok then 2 else 4)).setSpec spIPEND (i.spec spIPEND ||| 2) with run := none }
  let s := s.putB (R.IE_S_BULK_BUSY.pg e) false
  if ok then s else s.latch (eIE e) 6

/-- Move words in ascending order until the transfer has ended or a piece waits; the first argument bounds the pieces. -/
def State.bulkMove : Nat → Nat → State → State
  | 0, _, s => s
  | k + 1, e, s =>
    match (s.ie e).run with
    | none => s
    | some b =>
      if b.len = 0 then s.bulkEnd e true
      else match s.bulkPiece e b (pieceLen b.addr (4 * b.len)) with
        | (none, s) => s
        | (some true, s) => State.bulkMove k e s
        | (some false, s) => s.bulkEnd e false

def effBulkTransferDone (e : Fin 8) (s : State) : State :=
  match (s.ie e.val).run with
  | none => s
  | some b => if s.pageOn (eIE e.val) then State.bulkMove (b.len + 1) e.val s else s

/-- R331: the transfer moves every word that nothing holds back, and ends with the last word or the first error. -/
def execBulkTransferDone (e : Fin 8) (s : State) : Host.Outcome State Fault Refusal := done (effBulkTransferDone e s)

/-! Loads (R333, R334). -/

/-- The header counts are in range. -/
def imageCounts (h : List Byte) : Option (Nat × Nat × Nat) :=
  let p := leAt h 0 4
  let x := leAt h 4 4
  let y := leAt h 8 4
  if 1 ≤ p ∧ p ≤ 16384 ∧ x ≤ 32768 ∧ y ≤ 32768 then some (p, x, y) else none

/-- An engine's memories and registers from an image: NOPs and zeros fill the rest. -/
def IeSt.loaded (i : IeSt) (b : List Byte) (p x y : Nat) : IeSt :=
  let word (k : Nat) : Word := w32 (leAt b (16 + 4 * k) 4)
  let pm := (List.range p).foldl (fun t k => tset zeroAt t k (word k)) []
  let dm := (List.range x).foldl (fun t k => tset zeroAt t k (word (p + k))) []
  let dm := (List.range y).foldl (fun t k => tset zeroAt t (0x8000 + k) (word (p + x + k))) dm
  { IeSt.reset with pm := pm, dm := dm, cfg := i.cfg }.setFl flFS true

/-- The load ends without a program. -/
def State.ieLoadFail (s : State) (e r : Nat) : State :=
  ((s.put (R.IE_LOAD_STATUS_REASON.pg e) r).putIeState e ieStopped).latch (eIE e) 3

/-- The load ends with bytes of the image and the reason found by then, 0 for none (R334): what was read is placed, the rest of the
memories is NOP and zero, and the registers are clear with FS set; the check value decides. -/
def State.ieLoadEnd (s : State) (e : Nat) (b : List Byte) (p x y reason : Nat) : State :=
  let s := s.setIe e fun i => i.loaded b p x y
  let crc := crc64 b
  if reason ≠ 0 then s.ieLoadFail e reason
  else if crc = s.activeCrc e then
    ((s.set64 (0x900B8 + 0x1000 * e) crc).putIeState e ieStopped).latch (eIE e) 2
  else s.ieLoadFail e 3

/-- A load reads the header and the sections (R334). -/
def State.ieLoad (s : State) (e : Nat) : State :=
  let m := 0x38 + e
  let a := s.get64 (0x900A8 + 0x1000 * e) % 2 ^ 40
  match s.readSome true m a 16 with
  | (none, _) => s
  | (some (_, some _), s) => s.ieLoadEnd e [] 0 0 0 2
  | (some (h, none), s') =>
    match imageCounts h with
    | none => s'.ieLoadEnd e h 0 0 0 1
    | some (p, x, y) =>
      match s'.readSome true m (a + 16) (4 * (p + x + y)) with
      | (none, _) => s
      | (some (b, bad), s) => s.ieLoadEnd e (h ++ b) p x y (if bad.isSome then 2 else 0)

def effIeLoadDone (e : Fin 8) (s : State) : State :=
  if s.pageOn (eIE e.val) ∧ s.ieState e.val = ieLoading then s.ieLoad e.val else s

/-- R334; while a piece of the image waits at its target the load has not ended. -/
def execIeLoadDone (e : Fin 8) (s : State) : Host.Outcome State Fault Refusal := done (effIeLoadDone e s)

/-! Registers (R320, R336). -/

def ieAddr (e off : Nat) : Nat := 0x90000 + 0x1000 * e + off

def effDoorbell (m : Master) (e : Fin 8) (v : Word) (s : State) : State := s.regWrite m.toNat (ieAddr e.val 0xC0) v

/-- DOORBELL (R320). -/
def execDoorbell (m : Master) (e : Fin 8) (value : Word) (s : State) : Host.Outcome State Fault Refusal := done (effDoorbell m e value s)

def effHalt (m : Master) (e : Fin 8) (v : Word) (s : State) : State := s.regWrite m.toNat (ieAddr e.val 8) v

/-- CTRL[HALT] (R336). -/
def execHalt (m : Master) (e : Fin 8) (value : Word) (s : State) : Host.Outcome State Fault Refusal := done (effHalt m e value s)

def effRestart (m : Master) (e : Fin 8) (v : Word) (s : State) : State := s.regWrite m.toNat (ieAddr e.val 8) v

/-- CTRL[RESTART] (R336). -/
def execRestart (m : Master) (e : Fin 8) (value : Word) (s : State) : Host.Outcome State Fault Refusal := done (effRestart m e value s)

def effDmDataAccess (m : Master) (e : Fin 8) (write : Bool) (v : Word) (s : State) : State :=
  if write then s.regWrite m.toNat (ieAddr e.val 0x104) v else s.regRead m.toNat (ieAddr e.val 0x104)

/-- DM_DATA (R340). -/
def execDmDataAccess (m : Master) (e : Fin 8) (write : Bool) (value : Word) (s : State) : Host.Outcome State Fault Refusal :=
  done (effDmDataAccess m e write value s)

def effPmDataRead (m : Master) (e : Fin 8) (s : State) : State := s.regRead m.toNat (ieAddr e.val 0x10C)

/-- PM_DATA (R340). -/
def execPmDataRead (m : Master) (e : Fin 8) (s : State) : Host.Outcome State Fault Refusal := done (effPmDataRead m e s)

end Sys2Proof.Machine
end

