-- ==== Sys2Proof/Machine/IeCmd.lean ====
section
/-! DEFINITION. The commands of the insert engines (10_insert_engines R309–R340): each instruction as the engine issues it (R328), the
events of its program, and the host's halt, restart, doorbell and windows. The sender supplies the instruction that stands
at the engine's PC. -/

namespace Sys2Proof.Machine

/-! Operands as numbers. -/

def ieS (op : IeSt → IeSt → IeSt) : IeOp := { run := op }
/-- An accumulator writer (R316). -/
def ieA (op : IeSt → IeSt → IeSt) : IeOp := { run := op, hazard := true }

/-- The word address of an X or a Y operand (R322). -/
def xAddr (a : Nat) : Nat := a % 2 ^ 15
def yAddr (a : Nat) : Nat := 2 ^ 15 + a % 2 ^ 15

/-- A product, negated by NEG. -/
def signed (neg : Bool) (x : Int) : Int := if neg then -x else x

/-- The addend of MAC, DMAC, MXY and DMXY. -/
def IeSt.addend (i : IeSt) (clr : Bool) (k : Nat) : Int := if clr then 0 else i.accD k

/-- The pointers of MXY and DMXY after their post-modify. -/
def IeSt.post2 (pre post : IeSt) (ai mi aj mj : Nat) : IeSt :=
  if ai = aj ∧ mi ≠ 0 ∧ mj ≠ 0 then (post.setSpec (spA ai) (Config.samePtr (pre.spec (spA ai)) mi mj % 2 ^ 17)).wrapPtr ai
  else
    let p := if mi = 0 then post else post.setSpec (spA ai) (pre.postMod ai mi)
    if mj = 0 then p else p.setSpec (spA aj) (pre.postMod aj mj)

/-- acc / 2^sh of SAC (R326). -/
def sacValue (x : Int) (sh : Nat) (rnd : Bool) : Int :=
  if 71 < sh then Config.shiftOut 0x34 sh x else if rnd then rndShr x sh else x / 2 ^ sh

/-- acc × 2^sh of SHA, sh signed (R326). -/
def shaValue (x : Int) (sh : Int) : Int :=
  if sh < -72 ∨ 71 < sh then Config.shiftOut 0x38 (tz 8 sh) x
  else if sh < 0 then x / 2 ^ (-sh).toNat else x * 2 ^ sh.toNat

/-- NOP. -/
def effIeNop (e : Fin 8) (s : State) : State :=
  s.ieIssue e (ieS fun _ j => j)
def execIeNop (e : Fin 8) (s : State) : Host.Outcome State Fault Refusal :=
  done (effIeNop e s)

/-- DONE (R311). -/
def effIeDone (e : Fin 8) (s : State) : State :=
  s.ieBranch e fun i => .inr (i, 2, .done)
def execIeDone (e : Fin 8) (s : State) : Host.Outcome State Fault Refusal :=
  done (effIeDone e s)

/-- Completion (R311). -/
def effCompletion (e : Fin 8) (s : State) : State :=
  s.ieComplete e
def execCompletion (e : Fin 8) (s : State) : Host.Outcome State Fault Refusal :=
  done (effCompletion e s)

/-- BR (R317). -/
def effIeBr (e : Fin 8) (cond : Fin 16) (target : BitVec 14) (s : State) : State :=
  s.ieBranch e fun i => .inr (i, 2, if i.cond cond then .jump target.toNat true else .seq)
def execIeBr (e : Fin 8) (cond : Fin 16) (target : BitVec 14) (s : State) : Host.Outcome State Fault Refusal :=
  done (effIeBr e cond target s)

/-- CALL (R317). -/
def effIeCall (e : Fin 8) (cond : Fin 16) (target : BitVec 14) (s : State) : State :=
  s.ieBranch e fun i =>
    if i.cond cond then .inr (i.setSpec spRA ((i.pc + 3) % 2 ^ 14), 2, .jump target.toNat false) else .inr (i, 2, .seq)
def execIeCall (e : Fin 8) (cond : Fin 16) (target : BitVec 14) (s : State) : Host.Outcome State Fault Refusal :=
  done (effIeCall e cond target s)

/-- RET (R317). -/
def effIeRet (e : Fin 8) (cond : Fin 16) (s : State) : State :=
  s.ieBranch e fun i => .inr (i, 2, if i.cond cond then .jump (i.spec spRA) false else .seq)
def execIeRet (e : Fin 8) (cond : Fin 16) (s : State) : Host.Outcome State Fault Refusal :=
  done (effIeRet e cond s)

/-- RETI (R320). -/
def effIeReti (e : Fin 8) (s : State) : State :=
  s.ieBranch e fun i => .inr (i, 2, .reti)
def execIeReti (e : Fin 8) (s : State) : Host.Outcome State Fault Refusal :=
  done (effIeReti e s)

/-- REP (R318). -/
def effIeRep (e : Fin 8) (n : BitVec 12) (s : State) : State :=
  s.ieBranch e fun i => .inr ({ i with rep := count12 n.toNat }, 0, .seq)
def execIeRep (e : Fin 8) (n : BitVec 12) (s : State) : Host.Outcome State Fault Refusal :=
  done (effIeRep e n s)

/-- REPR (R318). -/
def effIeRepr (e : Fin 8) (rs : Fin 16) (s : State) : State :=
  s.ieBranch e fun i => .inr ({ i with rep := count12 (i.reg rs).toNat }, 0, .seq)
def execIeRepr (e : Fin 8) (rs : Fin 16) (s : State) : Host.Outcome State Fault Refusal :=
  done (effIeRepr e rs s)

/-- LOOP (R319). -/
def effIeLoop (e : Fin 8) (n : BitVec 12) (last : BitVec 14) (s : State) : State :=
  s.ieBranch e fun i => i.loop n.toNat last.toNat
def execIeLoop (e : Fin 8) (n : BitVec 12) (last : BitVec 14) (s : State) : Host.Outcome State Fault Refusal :=
  done (effIeLoop e n last s)

/-- LOOPR (R319). -/
def effIeLoopr (e : Fin 8) (rs : Fin 16) (last : BitVec 14) (s : State) : State :=
  s.ieBranch e fun i => i.loop (i.reg rs).toNat last.toNat
def execIeLoopr (e : Fin 8) (rs : Fin 16) (last : BitVec 14) (s : State) : Host.Outcome State Fault Refusal :=
  done (effIeLoopr e rs last s)

/-- FLAG (R328). -/
def effIeFlag (e : Fin 8) (sig : Bool) (set clr : BitVec 5) (s : State) : State :=
  s.ieIssue e { run := fun _ j => j.setSpec spFL (j.spec spFL / 32 * 32 + ((j.spec spFL % 32 &&& (31 - clr.toNat)) ||| set.toNat)), sig := sig }
def execIeFlag (e : Fin 8) (sig : Bool) (set clr : BitVec 5) (s : State) : Host.Outcome State Fault Refusal :=
  done (effIeFlag e sig set clr s)

/-- ADD. -/
def effIeAdd (e : Fin 8) (sat : Bool) (rd rs rt : Fin 16) (s : State) : State :=
  s.ieIssue e (ieS fun i j => j.result sat rd (i.val rs + i.val rt))
def execIeAdd (e : Fin 8) (sat : Bool) (rd rs rt : Fin 16) (s : State) : Host.Outcome State Fault Refusal :=
  done (effIeAdd e sat rd rs rt s)

/-- SUB. -/
def effIeSub (e : Fin 8) (sat : Bool) (rd rs rt : Fin 16) (s : State) : State :=
  s.ieIssue e (ieS fun i j => j.result sat rd (i.val rs - i.val rt))
def execIeSub (e : Fin 8) (sat : Bool) (rd rs rt : Fin 16) (s : State) : Host.Outcome State Fault Refusal :=
  done (effIeSub e sat rd rs rt s)

/-- ADDI. -/
def effIeAddi (e : Fin 8) (sat : Bool) (rd rs : Fin 16) (imm : BitVec 17) (s : State) : State :=
  s.ieIssue e (ieS fun i j => j.result sat rd (i.val rs + imm.toInt))
def execIeAddi (e : Fin 8) (sat : Bool) (rd rs : Fin 16) (imm : BitVec 17) (s : State) : Host.Outcome State Fault Refusal :=
  done (effIeAddi e sat rd rs imm s)

/-- NEG. -/
def effIeNeg (e : Fin 8) (sat : Bool) (rd rs : Fin 16) (s : State) : State :=
  s.ieIssue e (ieS fun i j => j.result sat rd (-i.val rs))
def execIeNeg (e : Fin 8) (sat : Bool) (rd rs : Fin 16) (s : State) : Host.Outcome State Fault Refusal :=
  done (effIeNeg e sat rd rs s)

/-- ABS. -/
def effIeAbs (e : Fin 8) (sat : Bool) (rd rs : Fin 16) (s : State) : State :=
  s.ieIssue e (ieS fun i j => j.result sat rd |i.val rs|)
def execIeAbs (e : Fin 8) (sat : Bool) (rd rs : Fin 16) (s : State) : Host.Outcome State Fault Refusal :=
  done (effIeAbs e sat rd rs s)

/-- MULQ (R324). -/
def effIeMulq (e : Fin 8) (sat : Bool) (rd rs rt : Fin 16) (s : State) : State :=
  s.ieIssue e (ieS fun i j => j.result sat rd (rndShr (i.val rs * i.val rt) 30))
def execIeMulq (e : Fin 8) (sat : Bool) (rd rs rt : Fin 16) (s : State) : Host.Outcome State Fault Refusal :=
  done (effIeMulq e sat rd rs rt s)

/-- SHLI. -/
def effIeShli (e : Fin 8) (sat : Bool) (rd rs : Fin 16) (sh : BitVec 5) (s : State) : State :=
  s.ieIssue e (ieS fun i j => j.result sat rd (i.val rs * 2 ^ sh.toNat))
def execIeShli (e : Fin 8) (sat : Bool) (rd rs : Fin 16) (sh : BitVec 5) (s : State) : Host.Outcome State Fault Refusal :=
  done (effIeShli e sat rd rs sh s)

/-- SRAI. -/
def effIeSrai (e : Fin 8) (rd rs : Fin 16) (sh : BitVec 5) (rnd : Bool) (s : State) : State :=
  s.ieIssue e (ieS fun i j => j.result false rd (if rnd then rndShr (i.val rs) sh.toNat else i.val rs / 2 ^ sh.toNat))
def execIeSrai (e : Fin 8) (rd rs : Fin 16) (sh : BitVec 5) (rnd : Bool) (s : State) : Host.Outcome State Fault Refusal :=
  done (effIeSrai e rd rs sh rnd s)

/-- MIN. -/
def effIeMin (e : Fin 8) (rd rs rt : Fin 16) (s : State) : State :=
  s.ieIssue e (ieS fun i j => j.result false rd (min (i.val rs) (i.val rt)))
def execIeMin (e : Fin 8) (rd rs rt : Fin 16) (s : State) : Host.Outcome State Fault Refusal :=
  done (effIeMin e rd rs rt s)

/-- MAX. -/
def effIeMax (e : Fin 8) (rd rs rt : Fin 16) (s : State) : State :=
  s.ieIssue e (ieS fun i j => j.result false rd (max (i.val rs) (i.val rt)))
def execIeMax (e : Fin 8) (rd rs rt : Fin 16) (s : State) : Host.Outcome State Fault Refusal :=
  done (effIeMax e rd rs rt s)

/-- CMP. -/
def effIeCmp (e : Fin 8) (rs rt : Fin 16) (s : State) : State :=
  s.ieIssue e (ieS fun i j => j.zn (i.val rs - i.val rt))
def execIeCmp (e : Fin 8) (rs rt : Fin 16) (s : State) : Host.Outcome State Fault Refusal :=
  done (effIeCmp e rs rt s)

/-- CMPI. -/
def effIeCmpi (e : Fin 8) (rs : Fin 16) (imm : BitVec 17) (s : State) : State :=
  s.ieIssue e (ieS fun i j => j.zn (i.val rs - imm.toInt))
def execIeCmpi (e : Fin 8) (rs : Fin 16) (imm : BitVec 17) (s : State) : Host.Outcome State Fault Refusal :=
  done (effIeCmpi e rs imm s)

/-- AND. -/
def effIeAnd (e : Fin 8) (rd rs rt : Fin 16) (s : State) : State :=
  s.ieIssue e (ieS fun i j => j.result false rd (i.reg rs &&& i.reg rt).toInt)
def execIeAnd (e : Fin 8) (rd rs rt : Fin 16) (s : State) : Host.Outcome State Fault Refusal :=
  done (effIeAnd e rd rs rt s)

/-- OR. -/
def effIeOr (e : Fin 8) (rd rs rt : Fin 16) (s : State) : State :=
  s.ieIssue e (ieS fun i j => j.result false rd (i.reg rs ||| i.reg rt).toInt)
def execIeOr (e : Fin 8) (rd rs rt : Fin 16) (s : State) : Host.Outcome State Fault Refusal :=
  done (effIeOr e rd rs rt s)

/-- XOR. -/
def effIeXor (e : Fin 8) (rd rs rt : Fin 16) (s : State) : State :=
  s.ieIssue e (ieS fun i j => j.result false rd (i.reg rs ^^^ i.reg rt).toInt)
def execIeXor (e : Fin 8) (rd rs rt : Fin 16) (s : State) : Host.Outcome State Fault Refusal :=
  done (effIeXor e rd rs rt s)

/-- ORI. -/
def effIeOri (e : Fin 8) (rd rs : Fin 16) (imm : BitVec 16) (s : State) : State :=
  s.ieIssue e (ieS fun i j => j.result false rd (i.reg rs ||| imm.setWidth 32).toInt)
def execIeOri (e : Fin 8) (rd rs : Fin 16) (imm : BitVec 16) (s : State) : Host.Outcome State Fault Refusal :=
  done (effIeOri e rd rs imm s)

/-- SHR. -/
def effIeShr (e : Fin 8) (rd rs : Fin 16) (sh : BitVec 5) (s : State) : State :=
  s.ieIssue e (ieS fun i j => j.result false rd (i.reg rs >>> sh.toNat).toInt)
def execIeShr (e : Fin 8) (rd rs : Fin 16) (sh : BitVec 5) (s : State) : Host.Outcome State Fault Refusal :=
  done (effIeShr e rd rs sh s)

/-- MOV. -/
def effIeMov (e : Fin 8) (rd rs : Fin 16) (s : State) : State :=
  s.ieIssue e (ieS fun i j => j.result false rd (i.reg rs).toInt)
def execIeMov (e : Fin 8) (rd rs : Fin 16) (s : State) : Host.Outcome State Fault Refusal :=
  done (effIeMov e rd rs s)

/-- LDI. -/
def effIeLdi (e : Fin 8) (rd : Fin 16) (imm : BitVec 21) (s : State) : State :=
  s.ieIssue e (ieS fun _ j => j.setReg rd (imm.signExtend 32))
def execIeLdi (e : Fin 8) (rd : Fin 16) (imm : BitVec 21) (s : State) : Host.Outcome State Fault Refusal :=
  done (effIeLdi e rd imm s)

/-- LUI. -/
def effIeLui (e : Fin 8) (rd : Fin 16) (imm : BitVec 16) (s : State) : State :=
  s.ieIssue e (ieS fun _ j => j.setReg rd (w32 (imm.toNat * 2 ^ 16)))
def execIeLui (e : Fin 8) (rd : Fin 16) (imm : BitVec 16) (s : State) : Host.Outcome State Fault Refusal :=
  done (effIeLui e rd imm s)

/-- LD (R322). -/
def effIeLd (e : Fin 8) (rd : Fin 16) (ai : Fin 8) (md : Fin 4) (disp : BitVec 16) (s : State) : State :=
  s.ieIssue e {
    run := fun i j =>
      let j := { j with ld := some (rd.val, i.load (i.addr ai disp.toInt)) }
      if md.val = 0 then j else j.setSpec (spA ai) (i.postMod ai md)
    bad := fun i => let a := i.addr ai disp.toInt; if badLoad a then some a else none
    hazard := true }
def execIeLd (e : Fin 8) (rd : Fin 16) (ai : Fin 8) (md : Fin 4) (disp : BitVec 16) (s : State) : Host.Outcome State Fault Refusal :=
  done (effIeLd e rd ai md disp s)

/-- ST (R322). -/
def effIeSt (e : Fin 8) (rs : Fin 16) (ai : Fin 8) (md : Fin 4) (disp : BitVec 16) (s : State) : State :=
  s.ieIssue e {
    run := fun i j =>
      let j := j.store (i.addr ai disp.toInt) (i.reg rs)
      if md.val = 0 then j else j.setSpec (spA ai) (i.postMod ai md)
    bad := fun i => let a := i.addr ai disp.toInt; if badStore a then some a else none }
def execIeSt (e : Fin 8) (rs : Fin 16) (ai : Fin 8) (md : Fin 4) (disp : BitVec 16) (s : State) : Host.Outcome State Fault Refusal :=
  done (effIeSt e rs ai md disp s)

/-- MVTA (R329). -/
def effIeMvta (e : Fin 8) (spec : Fin 64) (rs : Fin 16) (s : State) : State :=
  s.ieIssue e (ieS fun i j => j.writeSpec spec (i.reg rs).toNat)
def execIeMvta (e : Fin 8) (spec : Fin 64) (rs : Fin 16) (s : State) : Host.Outcome State Fault Refusal :=
  done (effIeMvta e spec rs s)

/-- MVFA (R329). -/
def effIeMvfa (e : Fin 8) (rd : Fin 16) (spec : Fin 64) (s : State) : State :=
  s.ieIssue e (ieS fun i j => j.setReg rd (i.readSpec e spec))
def execIeMvfa (e : Fin 8) (rd : Fin 16) (spec : Fin 64) (s : State) : Host.Outcome State Fault Refusal :=
  done (effIeMvfa e rd spec s)

/-- MODA (R322). -/
def effIeModa (e : Fin 8) (ai : Fin 8) (md : Fin 4) (s : State) : State :=
  s.ieIssue e (ieS fun i j => if md.val = 0 then j else j.setSpec (spA ai) (i.postMod ai md))
def execIeModa (e : Fin 8) (ai : Fin 8) (md : Fin 4) (s : State) : Host.Outcome State Fault Refusal :=
  done (effIeModa e ai md s)

/-- MAC (R325). -/
def effIeMac (e : Fin 8) (sat : Bool) (k : Fin 8) (rs rt : Fin 16) (neg clr : Bool) (s : State) : State :=
  s.ieIssue e (ieA fun i j => j.accPut sat k (i.addend clr k + signed neg (i.val rs * i.val rt)))
def execIeMac (e : Fin 8) (sat : Bool) (k : Fin 8) (rs rt : Fin 16) (neg clr : Bool) (s : State) : Host.Outcome State Fault Refusal :=
  done (effIeMac e sat k rs rt neg clr s)

/-- DMAC (R325). -/
def effIeDmac (e : Fin 8) (sat : Bool) (k : Fin 8) (rs rt ru rv : Fin 16) (neg clr : Bool) (s : State) : State :=
  s.ieIssue e (ieA fun i j =>
    let k0 := k.val / 2 * 2
    (j.accPut sat k0 (i.addend clr k0 + signed neg (i.val rs * i.val rt))).accPut sat (k0 + 1)
      (i.addend clr (k0 + 1) + signed neg (i.val ru * i.val rv)))
def execIeDmac (e : Fin 8) (sat : Bool) (k : Fin 8) (rs rt ru rv : Fin 16) (neg clr : Bool) (s : State) : Host.Outcome State Fault Refusal :=
  done (effIeDmac e sat k rs rt ru rv neg clr s)

/-- MXY (R322, R325). -/
def effIeMxy (e : Fin 8) (sat : Bool) (k : Fin 8) (ai : Fin 8) (mi : Fin 4) (aj : Fin 8) (mj : Fin 4) (neg clr : Bool) (s : State) : State :=
  s.ieIssue e (ieA fun i j =>
    let x := tget zeroAt i.dm (xAddr (i.spec (spA ai)))
    let y := tget zeroAt i.dm (yAddr (i.spec (spA aj)))
    let j := j.accPut sat k (i.addend clr k + signed neg (x.toInt * y.toInt))
    (i.post2 j ai mi aj mj).setSpec spXL x.toNat)
def execIeMxy (e : Fin 8) (sat : Bool) (k : Fin 8) (ai : Fin 8) (mi : Fin 4) (aj : Fin 8) (mj : Fin 4) (neg clr : Bool) (s : State) : Host.Outcome State Fault Refusal :=
  done (effIeMxy e sat k ai mi aj mj neg clr s)

/-- DMXY (R322, R325, R328). -/
def effIeDmxy (e : Fin 8) (sat : Bool) (k : Fin 8) (ai : Fin 8) (mi : Fin 4) (aj : Fin 8) (mj : Fin 4) (neg clr : Bool) (s : State) : State :=
  s.ieIssue e (ieA fun i j =>
    let x := tget zeroAt i.dm (xAddr (i.spec (spA ai)))
    let y := tget zeroAt i.dm (yAddr (i.spec (spA aj)))
    let k0 := k.val / 2 * 2
    let j := j.accPut sat k0 (i.addend clr k0 + signed neg (x.toInt * y.toInt))
    let j := j.accPut sat (k0 + 1) (i.addend clr (k0 + 1) + signed neg (sx 32 (i.spec spXL) * y.toInt))
    (i.post2 j ai mi aj mj).setSpec spXL x.toNat)
def execIeDmxy (e : Fin 8) (sat : Bool) (k : Fin 8) (ai : Fin 8) (mi : Fin 4) (aj : Fin 8) (mj : Fin 4) (neg clr : Bool) (s : State) : Host.Outcome State Fault Refusal :=
  done (effIeDmxy e sat k ai mi aj mj neg clr s)

/-- SAC (R326). -/
def effIeSac (e : Fin 8) (sat : Bool) (rd : Fin 16) (k : Fin 8) (sh : BitVec 8) (rnd : Bool) (s : State) : State :=
  s.ieIssue e (ieS fun i j => j.result sat rd (sacValue (i.accS k) sh.toNat rnd))
def execIeSac (e : Fin 8) (sat : Bool) (rd : Fin 16) (k : Fin 8) (sh : BitVec 8) (rnd : Bool) (s : State) : Host.Outcome State Fault Refusal :=
  done (effIeSac e sat rd k sh rnd s)

/-- LAC (R326). -/
def effIeLac (e : Fin 8) (k : Fin 8) (rs : Fin 16) (sh : BitVec 8) (s : State) : State :=
  s.ieIssue e (ieA fun i j =>
    j.accPut false k (if 39 < sh.toNat then Config.shiftOut 0x35 sh.toNat (i.val rs) else i.val rs * 2 ^ sh.toNat))
def execIeLac (e : Fin 8) (k : Fin 8) (rs : Fin 16) (sh : BitVec 8) (s : State) : Host.Outcome State Fault Refusal :=
  done (effIeLac e k rs sh s)

/-- ADDA. -/
def effIeAdda (e : Fin 8) (sat : Bool) (k jx : Fin 8) (s : State) : State :=
  s.ieIssue e (ieA fun i j => j.accPut sat k (i.accD k + i.accS jx))
def execIeAdda (e : Fin 8) (sat : Bool) (k jx : Fin 8) (s : State) : Host.Outcome State Fault Refusal :=
  done (effIeAdda e sat k jx s)

/-- SUBA. -/
def effIeSuba (e : Fin 8) (sat : Bool) (k jx : Fin 8) (s : State) : State :=
  s.ieIssue e (ieA fun i j => j.accPut sat k (i.accD k - i.accS jx))
def execIeSuba (e : Fin 8) (sat : Bool) (k jx : Fin 8) (s : State) : Host.Outcome State Fault Refusal :=
  done (effIeSuba e sat k jx s)

/-- SHA (R326). -/
def effIeSha (e : Fin 8) (sat : Bool) (k : Fin 8) (sh : BitVec 8) (s : State) : State :=
  s.ieIssue e (ieA fun i j => j.accPut sat k (shaValue (i.accD k) sh.toInt))
def execIeSha (e : Fin 8) (sat : Bool) (k : Fin 8) (sh : BitVec 8) (s : State) : Host.Outcome State Fault Refusal :=
  done (effIeSha e sat k sh s)

/-- CLRA. -/
def effIeClra (e : Fin 8) (mask : BitVec 8) (s : State) : State :=
  s.ieIssue e (ieA fun _ j =>
    (List.range 8).foldl (fun j k => if bitOf mask.toNat k then j.accPut false k 0 else j) j)
def execIeClra (e : Fin 8) (mask : BitVec 8) (s : State) : Host.Outcome State Fault Refusal :=
  done (effIeClra e mask s)

/-- A reserved opcode (R328): FAULT cause ILLEGAL. -/
def effIllegalOpcode (e : Fin 8) (word : Word) (s : State) : State :=
  if s.ieIssues e ∧ decodeIe e word = none then (s.pcShow e).ieFaults e 1 else s
def execIllegalOpcode (e : Fin 8) (word : Word) (s : State) : Host.Outcome State Fault Refusal :=
  done (effIllegalOpcode e word s)

/-- The engine accepts an interrupt (R320). -/
def effInterruptAccept (e : Fin 8) (s : State) : State :=
  s.ieInterrupt e
def execInterruptAccept (e : Fin 8) (s : State) : Host.Outcome State Fault Refusal :=
  done (effInterruptAccept e s)

/-- The insert exchange point (R31, R310–R312, R335). -/
def effInsertExchange (s : State) : State :=
  s.exchange
def execInsertExchange (s : State) : Host.Outcome State Fault Refusal :=
  done (effInsertExchange s)
end Sys2Proof.Machine
end

