-- ==== Sys2Proof/Machine/Net.lean ====
section
/-! DEFINITION. The commands of the network chapter and of the streams (01_signal_path R12, R32; 04_network). -/

namespace Sys2Proof.Machine

def effReceiveCutOff (s : State) : State := s.cutOff.ueCause s 0x0C
def execReceiveCutOff (s : State) : Host.Outcome State Fault Refusal := done (effReceiveCutOff s)

def effSendCutOff (s : State) : State := s.cutOffSend
def execSendCutOff (s : State) : Host.Outcome State Fault Refusal := done (effSendCutOff s)

def effPacketLaunch (s : State) : State := s.launch.ueCause s 0x0D
def execPacketLaunch (s : State) : Host.Outcome State Fault Refusal := done (effPacketLaunch s)

/-- The base address of port p. -/
def macBase (p : Nat) : Nat := 0x10000 + 0x1000 * p

def effPcsRestart (m : Master) (p : Fin 4) (v : Word) (s : State) : State := s.regWrite m.toNat (macBase p + 0x80) v
def execPcsRestart (m : Master) (p : Fin 4) (v : Word) (s : State) : Host.Outcome State Fault Refusal :=
  done (effPcsRestart m p v s)

def effLinkUp (p : Fin 4) (s : State) : State := s.linkUpOp p
def execLinkUp (p : Fin 4) (s : State) : Host.Outcome State Fault Refusal := done (effLinkUp p s)

def effLinkDown (p : Fin 4) (s : State) : State := s.linkDownOp p
def execLinkDown (p : Fin 4) (s : State) : Host.Outcome State Fault Refusal := done (effLinkDown p s)

def effFrameReceive (p : Fin 4) (f : List Byte) (e : Bool) (s : State) : State := s.frameIn p f e
def execFrameReceive (p : Fin 4) (f : List Byte) (e : Bool) (s : State) : Host.Outcome State Fault Refusal :=
  done (effFrameReceive p f e s)

def effLegTimeout (c : Fin 256) (l : Fin 2) (s : State) : State := s.legTimeoutOp c l
def execLegTimeout (c : Fin 256) (l : Fin 2) (s : State) : Host.Outcome State Fault Refusal := done (effLegTimeout c l s)

def effPauseFrameReceive (p : Fin 4) (q : BitVec 16) (s : State) : State := s.frameIn p (pauseFrame q.toNat) false
def execPauseFrameReceive (p : Fin 4) (q : BitVec 16) (s : State) : Host.Outcome State Fault Refusal :=
  done (effPauseFrameReceive p q s)

def effPauseExpire (p : Fin 4) (s : State) : State := s.pauseExpireOp p
def execPauseExpire (p : Fin 4) (s : State) : Host.Outcome State Fault Refusal := done (effPauseExpire p s)

def effRingEnable (m : Master) (p : Fin 4) (r : Fin 8) (v : Word) (s : State) : State :=
  s.regWrite m.toNat (macBase p + 0x608 + 32 * r) v
def execRingEnable (m : Master) (p : Fin 4) (r : Fin 8) (v : Word) (s : State) : Host.Outcome State Fault Refusal :=
  done (effRingEnable m p r v s)

/-- The host has filled descriptors and buffers (`bytes`) before it advances TAIL. -/
def effRingTailWrite (m : Master) (p : Fin 4) (r : Fin 8) (v : Word) (bytes : List (Nat × Byte)) (s : State) : State :=
  let s := { s with hostMem := tsetAll Config.hostByte s.hostMem (bytes.map fun (e : Nat × Byte) => (e.1 % 2 ^ 64, e.2)) }
  s.regWrite m.toNat (macBase p + 0x60C + 32 * r) v
def execRingTailWrite (m : Master) (p : Fin 4) (r : Fin 8) (v : Word) (bytes : List (Nat × Byte)) (s : State) :
    Host.Outcome State Fault Refusal := done (effRingTailWrite m p r v bytes s)

def effFrameTransmit (p : Fin 4) (s : State) : State := s.frameOut p
def execFrameTransmit (p : Fin 4) (s : State) : Host.Outcome State Fault Refusal := done (effFrameTransmit p s)

def effTxDescriptorComplete (p : Fin 4) (r : Fin 8) (s : State) : State := s.txComplete p r
def execTxDescriptorComplete (p : Fin 4) (r : Fin 8) (s : State) : Host.Outcome State Fault Refusal :=
  done (effTxDescriptorComplete p r s)

def effLpiEntry (p : Fin 4) (s : State) : State := s.lpiEntryOp p
def execLpiEntry (p : Fin 4) (s : State) : Host.Outcome State Fault Refusal := done (effLpiEntry p s)

def effLpiWake (p : Fin 4) (s : State) : State := s.lpiWakeOp p
def execLpiWake (p : Fin 4) (s : State) : Host.Outcome State Fault Refusal := done (effLpiWake p s)

def effRxLpiEntry (p : Fin 4) (s : State) : State := s.rxLpiOp p true
def execRxLpiEntry (p : Fin 4) (s : State) : Host.Outcome State Fault Refusal := done (effRxLpiEntry p s)

def effRxLpiExit (p : Fin 4) (s : State) : State := s.rxLpiOp p false
def execRxLpiExit (p : Fin 4) (s : State) : Host.Outcome State Fault Refusal := done (effRxLpiExit p s)

/-- An errored block counts in RX_PCS_ERR of its port, or in PCS_ERR_q of its Apsal port (R127, R418). -/
def effPcsBlockError (l : Lane) (s : State) : State :=
  match l with
  | .mac p => if s.portOn p && s.is (R.MAC_C_RX_EN.pg p) then s.cnt p 13 1 else s
  | .apsal q => if s.pageOn eAPL then s.addW (R.APL_PCS_ERR_COUNT.ix q) 1 else s
def execPcsBlockError (l : Lane) (s : State) : Host.Outcome State Fault Refusal := done (effPcsBlockError l s)

/-- An RS-FEC codeword was corrected or could not be (R127, R152); with RX_EN 0 the MAC counts nothing. -/
def effFecCodewordError (p : Fin 4) (corrected : Bool) (s : State) : State :=
  if !s.portOn p || !s.is (R.MAC_S_FEC_ACTIVE.pg p) then s
  else
    let on := s.is (R.MAC_C_RX_EN.pg p)
    if corrected then s.cnt p 16 (b2n on) else (s.cnt p 17 (b2n on)).latch (eMAC p) 15
def execFecCodewordError (p : Fin 4) (c : Bool) (s : State) : Host.Outcome State Fault Refusal :=
  done (effFecCodewordError p c s)

/-- DC_FREEZE_x and DC_CLEAR_x (R165): the registers' hooks act. -/
def effDcFreeze (m : Master) (x : Fin 32) (v : Word) (s : State) : State := s.regWrite m.toNat (0x31080 + 4 * x) v
def execDcFreeze (m : Master) (x : Fin 32) (v : Word) (s : State) : Host.Outcome State Fault Refusal := done (effDcFreeze m x v s)

def effDcClear (m : Master) (x : Fin 32) (v : Word) (s : State) : State := s.regWrite m.toNat (0x31100 + 4 * x) v
def execDcClear (m : Master) (x : Fin 32) (v : Word) (s : State) : Host.Outcome State Fault Refusal := done (effDcClear m x v s)

end Sys2Proof.Machine
end

