-- ==== Sys2Proof/Machine/Tap.lean ====
section
/-! DEFINITION. The JTAG port (16_electrical R482): its TAP controller, instruction and data registers as IEEE 1149.1 gives them, and
what its boundary cells drive. The table has no row for an edge of TCK, and no command runs these operations (log entry 103). -/

namespace Sys2Proof.Machine

def State.setTap (s : State) (f : TapSt → TapSt) : State := { s with tap := f s.tap }

/-- What the instruction register selects. -/
inductive TapInstr where
  | extest | idcode | sample | extestPulse | extestTrain | highz | clamp | bypass
  deriving DecidableEq, Repr

/-- The instruction of an opcode: every opcode that R482 does not list acts as BYPASS. -/
def tapInstr (op : BitVec 8) : TapInstr :=
  match op.toNat with
  | 0 => .extest
  | 1 => .idcode
  | 2 => .sample
  | 5 => .extestPulse
  | 6 => .extestTrain
  | 7 => .highz
  | 8 => .clamp
  | _ => .bypass

/-- The word that IDCODE gives. -/
def State.tapIdcode (s : State) : Word := w32 (bits (s.n 0x80) 11 8 * 2 ^ 28 + 0x1024 * 2 ^ 12 + 0x543 * 2 + 1)

/-- An instruction that puts the boundary-scan register between TDI and TDO. -/
def TapInstr.scans : TapInstr → Bool
  | .extest => true
  | .sample => true
  | .extestPulse => true
  | .extestTrain => true
  | _ => false

/-- The controller after a rising edge of TCK. -/
def TapCtl.next (c : TapCtl) (tms : Bool) : TapCtl :=
  match c with
  | .reset => if tms then .reset else .idle
  | .idle => if tms then .selDr else .idle
  | .selDr => if tms then .selIr else .capDr
  | .capDr => if tms then .ex1Dr else .shDr
  | .shDr => if tms then .ex1Dr else .shDr
  | .ex1Dr => if tms then .updDr else .pauseDr
  | .pauseDr => if tms then .ex2Dr else .pauseDr
  | .ex2Dr => if tms then .updDr else .shDr
  | .updDr => if tms then .selDr else .idle
  | .selIr => if tms then .reset else .capIr
  | .capIr => if tms then .ex1Ir else .shIr
  | .shIr => if tms then .ex1Ir else .shIr
  | .ex1Ir => if tms then .updIr else .pauseIr
  | .pauseIr => if tms then .ex2Ir else .pauseIr
  | .ex2Ir => if tms then .updIr else .shIr
  | .updIr => if tms then .selDr else .idle

/-- The port works while VDD_AON and VDDIO are in tolerance. -/
def State.tapWorks (s : State) : Bool := s.pwr.io && !s.pwr.off

/-- The level of TRST_N: low holds the TAP in reset. -/
def State.tapReset (s : State) (low : Bool) : State :=
  if low then s.setTap fun t => { t with trst := true, ctl := .reset, ir := 1, ac := false } else s.setTap fun t => { t with trst := false }

/-- An instruction of IEEE 1149.6. -/
def TapInstr.pulsed (i : TapInstr) : Bool := i == .extestPulse || i == .extestTrain

/-- What boundary cell i captures: the level of its ball while its domain is on, or under an instruction of IEEE 1149.6 the memory of
its test receiver; otherwise it keeps its bit. -/
def State.scanCapture (s : State) (pins : List Bool) (i : Nat) : Bool :=
  if !s.domOn (Config.scanDomain i) then nth s.tap.scan i false
  else if (tapInstr s.tap.ir).pulsed && decide (Config.scanLeg i < 24) then nth s.tap.legs (Config.scanLeg i) false
  else nth pins i false

/-- The test receivers over a period of TCK, with the last valid edge at each leg (rising or not): their memories take the bits of their
cells as a shift ends, and the edges otherwise. -/
def State.tapLegs (s : State) (edges : List (Option Bool)) : State :=
  if !(tapInstr s.tap.ir).pulsed then s
  else
    let init := s.tap.ctl == .ex1Dr || s.tap.ctl == .ex2Dr
    s.setTap fun t => { t with legs := (List.range 24).map fun l =>
      match (if init then (List.range Config.scanLen).find? fun i => Config.scanLeg i == l else none) with
      | some i => nth t.scan i false
      | none => (nth edges l none).getD (nth t.legs l false) }

/-- The level of the pulsed drivers after a falling edge of TCK: EXTEST_PULSE inverts them while the controller is in Run-Test/Idle,
EXTEST_TRAIN once more with each period there. -/
def TapSt.pulse (t : TapSt) : Bool :=
  match tapInstr t.ir with
  | .extestPulse => t.ctl == .idle
  | .extestTrain => t.ctl == .idle && !t.ac
  | _ => false

/-- The shift stage of a list of cells, the first of which drives TDO. -/
def shiftCells (l : List Bool) (tdi : Bool) : List Bool := l.tail ++ [tdi]

/-- The registers at a rising edge of TCK, in the state that it ends: captures and shifts, the least significant bit first. -/
def State.tapEdge (s : State) (pins : List Bool) (tdi : Bool) : State :=
  let i := tapInstr s.tap.ir
  match s.tap.ctl with
  | .capIr => s.setTap fun t => { t with irSh := 1 }
  | .shIr => s.setTap fun t => { t with irSh := BitVec.ofBool tdi ++ t.irSh.extractLsb' 1 7 }
  | .capDr =>
    if i.scans then s.setTap fun t => { t with scan := (List.range Config.scanLen).map (s.scanCapture pins) }
    else if i = .idcode then s.setTap fun t => { t with idSh := s.tapIdcode }
    else s.setTap fun t => { t with byp := false }
  | .shDr =>
    if i.scans then s.setTap fun t => { t with scan := shiftCells t.scan tdi }
    else if i = .idcode then s.setTap fun t => { t with idSh := BitVec.ofBool tdi ++ t.idSh.extractLsb' 1 31 }
    else s.setTap fun t => { t with byp := tdi }
  | _ => s

/-- The falling edge of TCK that follows: the update states load the instruction or the cells' update stage. -/
def State.tapUpdate (s : State) : State :=
  match s.tap.ctl with
  | .reset => s.setTap fun t => { t with ir := 1 }
  | .updIr => s.setTap fun t => { t with ir := t.irSh }
  | .updDr => if (tapInstr s.tap.ir).scans then s.setTap fun t => { t with upd := t.scan } else s
  | _ => s

/-- One period of TCK, with the levels of TMS and TDI at its rising edge, those of the balls by boundary cell and the edges at the
test receivers. -/
def State.tapClock (s : State) (pins : List Bool) (edges : List (Option Bool)) (tms tdi : Bool) : State :=
  if !s.tapWorks || s.tap.trst then s
  else
    let s := (((s.tapLegs edges).tapEdge pins tdi).setTap fun t => { t with ctl := t.ctl.next tms }).tapUpdate
    s.setTap fun t => { t with ac := t.pulse }

/-- TDO: driven in the shift states, otherwise high impedance. -/
def State.tapTdo (s : State) : PinLevel :=
  let lev (b : Bool) : PinLevel := if b then .high else .low
  if !s.tapWorks then .highZ
  else match s.tap.ctl with
    | .shIr => lev (s.tap.irSh.getLsbD 0)
    | .shDr =>
      let i := tapInstr s.tap.ir
      lev (if i.scans then nth s.tap.scan 0 false else if i = .idcode then s.tap.idSh.getLsbD 0 else s.tap.byp)
    | _ => .highZ

/-- What the TAP puts on the ball of boundary cell i in place of the device's own level: none where the device drives it, as it does
while the cell's domain is off. -/
def State.scanDrives (s : State) (i : Nat) : Option PinLevel :=
  if !s.tapWorks || !s.domOn (Config.scanDomain i) then none
  else match tapInstr s.tap.ir with
    | .highz => some .highZ
    | .idcode => none
    | .sample => none
    | .bypass => none
    | .extestPulse => some (pulsedLevel i)
    | .extestTrain => some (pulsedLevel i)
    | .extest => some (level (nth s.tap.upd i false))
    | .clamp => some (level (nth s.tap.upd i false))
where
  level (b : Bool) : PinLevel := if b then .high else .low
  pulsedLevel (i : Nat) : PinLevel := level ((nth s.tap.upd i false) != (s.tap.ac && Config.scanAc i))

/-- The QSPI balls between two reads of the flash (R472): QSPI_CLK low, QSPI_CS_N high, the data balls inputs. -/
def qspiIdle : PinLevel × PinLevel × List PinLevel := (.low, .high, List.replicate 4 .highZ)

end Sys2Proof.Machine
end

