-- ==== Sys2Proof/Machine/PowerCmd.lean ====
section
/-! DEFINITION. Commands of power, modes and resets (15_power_and_bringup R444–R453). -/

namespace Sys2Proof.Machine

def effModeRequest (m : Master) (v : Word) (s : State) : State := s.regWrite m.toNat 0x1080 v

/-- R446, R447. -/
def execModeRequest (m : Master) (value : Word) (s : State) : Host.Outcome State Fault Refusal := done (effModeRequest m value s)

def effModeDone (micros : BitVec 16) (s : State) : State :=
  match s.pwr.trans with
  | none => s
  | some (f, t, forced) =>
    if f = mSpare ∧ t = mRun ∨ s.cyc ≠ 0 then s
    else
      let s := (s.modeEnd f t micros.toNat forced).grantWaited
      (if s.boot.modeWait then s.recDone else s).afterAccess

/-- R446: the boundary after the last domain change; a takeover ends at RESTORE_DONE. -/
def execModeDone (micros : BitVec 16) (s : State) : Host.Outcome State Fault Refusal := done (effModeDone micros s)

def effDomRst (m : Master) (v : Word) (s : State) : State := s.regWrite m.toNat 0x108C v

/-- R453. -/
def execDomRst (m : Master) (value : Word) (s : State) : Host.Outcome State Fault Refusal := done (effDomRst m value s)

/-- R453. -/
def execDomRstRelease (d : Fin 14) (s : State) : Host.Outcome State Fault Refusal := done (s.domRelease d.val)

def effPor (cause : PorCause) (straps : BitVec 9) (test : Bool) (s : State) : State :=
  match cause with
  | .powerOn => s.porOp 0 true straps.toNat test
  | .pin => if s.pwr.off then s else s.porOp 1 false straps.toNat test

/-- R449. -/
def execPor (cause : PorCause) (straps : BitVec 9) (testEn : Bool) (s : State) : Host.Outcome State Fault Refusal :=
  done (effPor cause straps testEn s)

/-- R449. -/
def execResetN (s : State) : Host.Outcome State Fault Refusal := done (s.resetNOp 2)

def effWdogReset (s : State) : State :=
  match s.pwr.wdogAt with
  | some t => if t + 16 ≤ s.slot then s.resetNOp 4 else s
  | none => s

/-- R452. -/
def execWdogReset (s : State) : Host.Outcome State Fault Refusal := done (effWdogReset s)

/-- R449, R450. -/
def execResetRelease (firstTemp : BitVec 12) (s : State) : Host.Outcome State Fault Refusal := done (s.resetRelease firstTemp.toInt)

/-- R473. -/
def execPciePerst (s : State) : Host.Outcome State Fault Refusal := done s.perst

/-- The link comes out of reset: its lanes restart (R459), and frames that waited for it are delivered. -/
def effPciePerstRelease (s : State) : State :=
  let s := s.modPwr fun p => { p with perst := false }
  (if s.domOn 1 then s.lanesStart (lanesOf 1) else s).upto 4 State.ringDrain

/-- R473. -/
def execPciePerstRelease (s : State) : Host.Outcome State Fault Refusal := done (effPciePerstRelease s)

/-- R448. -/
def execVddioUp (s : State) : Host.Outcome State Fault Refusal := done s.vddioUp

/-- R451. -/
def execBrownoutWarn (rail : Fin 5) (s : State) : Host.Outcome State Fault Refusal := done (s.rail rail.val true)

def effBrownout (straps : BitVec 9) (test : Bool) (s : State) : State :=
  if s.pwr.off then s else s.porOp 3 false straps.toNat test

/-- R451. -/
def execBrownout (straps : BitVec 9) (testEn : Bool) (s : State) : Host.Outcome State Fault Refusal :=
  done (effBrownout straps testEn s)

/-- R451. -/
def execSupplyReturn (rail : Fin 5) (s : State) : Host.Outcome State Fault Refusal := done (s.rail rail.val false)

/-- R446. -/
def execSupplyRemoval (s : State) : Host.Outcome State Fault Refusal := done s.supplyOff

def effTempSample (deg : BitVec 12) (s : State) : State :=
  if s.pwr.off ∨ s.pwr.inReset.isSome then s else (s.tempSample deg.toInt).afterAccess

/-- R450, R379. -/
def execTempSample (deg : BitVec 12) (s : State) : Host.Outcome State Fault Refusal := done (effTempSample deg s)

end Sys2Proof.Machine
end

