-- ==== Sys2Proof/Machine/RedCmd.lean ====
section
/-! DEFINITION. The commands of 14_redundancy; hooks act for those that a master writes. -/

namespace Sys2Proof.Machine

def effCheckpointCapture (s : State) : State := s.ckptCapture
def execCheckpointCapture (s : State) : Host.Outcome State Fault Refusal := done (effCheckpointCapture s)

def effCheckpointCaptureDone (s : State) : State := s.ckptCaptured
def execCheckpointCaptureDone (s : State) : Host.Outcome State Fault Refusal := done (effCheckpointCaptureDone s)

def effCheckpointOpen (seq len : Word) (s : State) : State := s.ckptOpen seq.toNat len.toNat
def execCheckpointOpen (seq len : Word) (s : State) : Host.Outcome State Fault Refusal := done (effCheckpointOpen seq len s)

def effCheckpointData (ofs : Nat) (data : List Byte) (s : State) : State := s.ckptData ofs data
def execCheckpointData (ofs : Nat) (data : List Byte) (s : State) : Host.Outcome State Fault Refusal := done (effCheckpointData ofs data s)

def effCheckpointClose (seq : Word) (crc : BitVec 64) (s : State) : State := s.ckptClose seq.toNat crc.toNat
def execCheckpointClose (seq : Word) (crc : BitVec 64) (s : State) : Host.Outcome State Fault Refusal := done (effCheckpointClose seq crc s)

def effTakeover (s : State) : State := s.takeover
def execTakeover (s : State) : Host.Outcome State Fault Refusal := done (effTakeover s)

def effRestoreDone (s : State) : State := s.restored
def execRestoreDone (s : State) : Host.Outcome State Fault Refusal := done (effRestoreDone s)

def effAudioOn (s : State) : State := s.audioOn
def execAudioOn (s : State) : Host.Outcome State Fault Refusal := done (effAudioOn s)

def effProofRun (s : State) : State := s.proofRun
def execProofRun (s : State) : Host.Outcome State Fault Refusal := done (effProofRun s)

def effProofRunDone (pass : Bool) (s : State) : State := s.proofDone pass
def execProofRunDone (pass : Bool) (s : State) : Host.Outcome State Fault Refusal := done (effProofRunDone pass s)

def effHeartbeatCheck (s : State) : State := s.heartbeatCheck
def execHeartbeatCheck (s : State) : Host.Outcome State Fault Refusal := done (effHeartbeatCheck s)

def effGrant (h p : Fin 32) (nobody : Bool) (g : BitVec 48) (s : State) : State := s.grantMsg h p nobody g.toNat
def execGrant (h p : Fin 32) (nobody : Bool) (g : BitVec 48) (s : State) : Host.Outcome State Fault Refusal := done (effGrant h p nobody g s)

def effRedFault (pos : Fin 32) (_cause : BitVec 8) (s : State) : State := s.faultMsg pos
def execRedFault (pos : Fin 32) (cause : BitVec 8) (s : State) : Host.Outcome State Fault Refusal := done (effRedFault pos cause s)

def effStandbyState (pos : Fin 32) (flags : BitVec 4) (seq sheet : Word) (s : State) : State :=
  s.standbyMsg pos flags.toNat seq.toNat sheet.toNat
def execStandbyState (pos : Fin 32) (flags : BitVec 4) (seq sheet : Word) (s : State) : Host.Outcome State Fault Refusal :=
  done (effStandbyState pos flags seq sheet s)

def effManagerHeartbeatCheck (s : State) : State := s.managerCheck
def execManagerHeartbeatCheck (s : State) : Host.Outcome State Fault Refusal := done (effManagerHeartbeatCheck s)

def effArbGrantAssert (s : State) : State := s.arbAssert
def execArbGrantAssert (s : State) : Host.Outcome State Fault Refusal := done (effArbGrantAssert s)

def effArbGrantDeassert (s : State) : State := s.arbDeassert
def execArbGrantDeassert (s : State) : Host.Outcome State Fault Refusal := done (effArbGrantDeassert s)

def effRedYield (m : Master) (v : Word) (s : State) : State := s.regWrite m.toNat 0xD0008 v
def execRedYield (m : Master) (v : Word) (s : State) : Host.Outcome State Fault Refusal := done (effRedYield m v s)

def effWdogKick (m : Master) (v : Word) (s : State) : State := s.regWrite m.toNat 0xD00B8 v
def execWdogKick (m : Master) (v : Word) (s : State) : Host.Outcome State Fault Refusal := done (effWdogKick m v s)

def effWatchdogExpire (s : State) : State := s.wdogExpire
def execWatchdogExpire (s : State) : Host.Outcome State Fault Refusal := done (effWatchdogExpire s)

end Sys2Proof.Machine
end

