-- ==== Sys2Proof/Machine/RegCmd.lean ====
section
/-! DEFINITION. Commands of the register pages (02_register_pages R47–R68): accesses, pairs, events, locks, triplicated bits, interrupts,
snapshots and dumps. -/

namespace Sys2Proof.Machine

/-! Accesses (R52–R56). -/

def effRegisterWrite (m : Master) (addr : Addr) (width : Nat) (v : Word) (s : State) : State :=
  s.ask (MemReq.put m.toNat addr.toNat (leBytes width v.toNat))

/-- R52. -/
def execRegisterWrite (m : Master) (addr : Addr) (width : Nat) (value : Word) (s : State) : Host.Outcome State Fault Refusal :=
  done (effRegisterWrite m addr width value s)

def effAccess64 (m : Master) (addr : Addr) (write : Bool) (v : BitVec 64) (s : State) : State :=
  s.ask (if write then MemReq.put m.toNat addr.toNat (leBytes 8 v.toNat) else MemReq.read m.toNat addr.toNat 8)

/-- R54. -/
def execAccess64 (m : Master) (addr : Addr) (write : Bool) (value : BitVec 64) (s : State) : Host.Outcome State Fault Refusal :=
  done (effAccess64 m addr write value s)

def effPairLowRead (m : Master) (addr : Addr) (s : State) : State := s.regRead m.toNat addr.toNat

/-- R55. -/
def execPairLowRead (m : Master) (addr : Addr) (s : State) : Host.Outcome State Fault Refusal := done (effPairLowRead m addr s)

def effPairHighRead (m : Master) (addr : Addr) (s : State) : State := s.regRead m.toNat addr.toNat

/-- R55. -/
def execPairHighRead (m : Master) (addr : Addr) (s : State) : Host.Outcome State Fault Refusal := done (effPairHighRead m addr s)

def effPairLowWrite (m : Master) (addr : Addr) (v : Word) (s : State) : State := s.regWrite m.toNat addr.toNat v

/-- R55. -/
def execPairLowWrite (m : Master) (addr : Addr) (value : Word) (s : State) : Host.Outcome State Fault Refusal :=
  done (effPairLowWrite m addr value s)

def effPairHighWrite (m : Master) (addr : Addr) (v : Word) (s : State) : State := s.regWrite m.toNat addr.toNat v

/-- R55. -/
def execPairHighWrite (m : Master) (addr : Addr) (value : Word) (s : State) : Host.Outcome State Fault Refusal :=
  done (effPairHighWrite m addr value s)

def effPcieRegisterBurst (fn : Fin 2) (addr : Addr) (write : Bool) (words : List Word) (s : State) : State :=
  let m := fn.val
  let a := addr.toNat
  if s.noRequest m then s
  else if write then
    (s.each words.zipIdx fun s x => (s.issue (MemReq.post m (a + 4 * x.2) (leBytes 4 x.1.toNat))).2).afterAccess
  else (s.readParts m a (4 * words.length) ((List.range words.length).map fun i => (a + 4 * i, 4))).afterAccess

/-- R56: parts in ascending order; a posted write has no completion. -/
def execPcieRegisterBurst (fn : Fin 2) (addr : Addr) (write : Bool) (words : List Word) (s : State) :
    Host.Outcome State Fault Refusal :=
  done (effPcieRegisterBurst fn addr write words s)

/-! The header (R47, R49). -/

/-- The address of an offset in a page of register space. -/
def pageAddr (page off : Nat) : Nat := page * 0x1000 + off

def effEventClear (m : Master) (page : Fin 4096) (mask same : Word) (s : State) : State :=
  s.regWrite m.toNat (pageAddr page.val 0x10) (mask &&& ~~~ same)

/-- R47: a bit whose cause occurs in the same fabric cycle stays set. -/
def execEventClear (m : Master) (page : Fin 4096) (mask sameCycle : Word) (s : State) : Host.Outcome State Fault Refusal :=
  done (effEventClear m page mask sameCycle s)

def effEventSet (m : Master) (page : Fin 4096) (mask : Word) (s : State) : State := s.regWrite m.toNat (pageAddr page.val 0x18) mask

/-- R47. -/
def execEventSet (m : Master) (page : Fin 4096) (mask : Word) (s : State) : Host.Outcome State Fault Refusal :=
  done (effEventSet m page mask s)

def effLockWrite (m : Master) (page : Fin 4096) (v : Word) (s : State) : State := s.regWrite m.toNat (pageAddr page.val 0x1C) v

/-- R49. -/
def execLockWrite (m : Master) (page : Fin 4096) (value : Word) (s : State) : Host.Outcome State Fault Refusal :=
  done (effLockWrite m page value s)

/-! Triplicated bits (R58). -/

def effTmrRead (m : Master) (addr : Addr) (width : Nat) (s : State) : State := s.ask (MemReq.read m.toNat addr.toNat width)

/-- R58. -/
def execTmrRead (m : Master) (addr : Addr) (width : Nat) (s : State) : Host.Outcome State Fault Refusal :=
  done (effTmrRead m addr width s)

/-- The triplicated bits of word w of an access-table entry. -/
def tableTmr (w : Nat) : Nat := match regOf (0xA00C4 + 4 * w) with | some (r, _) => r.tmr | none => 0

/-- The walk visits the word of a register, or an entry of the access tables by its key. -/
def State.tmrVisit (s : State) (a : Nat) : State :=
  if 0x8000000000 ≤ a then
    if keySrc a = eFAB ∧ keyWord a < 400 ∧ s.pageOn eFAB then s.tmrFix eFAB (0xC4 + 4 * (keyWord a % 5)) a (tableTmr (keyWord a % 5)) else s
  else match srcOf a with
    | none => s
    | some src =>
      if !s.pageOn src then s
      else if a % 0x1000 = 0x1C then s.tmrFix src 0x1C a 1
      else match s.locate 0 a with
        | some l => s.tmrFix src (a % 0x1000) l.key l.spec.tmr
        | none => s

/-- R58. -/
def execTmrWalk (addr : Addr) (s : State) : Host.Outcome State Fault Refusal := done (s.tmrVisit addr.toNat)

/-! Interrupts (R62). -/

def effVecAck (m : Master) (mask : Word) (s : State) : State := s.regWrite m.toNat 0x50A8 mask

/-- R62. -/
def execVecAck (m : Master) (mask : Word) (s : State) : Host.Outcome State Fault Refusal := done (effVecAck m mask s)

/-- The host leaves a vector unmasked: MSI-X enabled, the function not masked, the vector's mask clear. -/
def effMsixUnmask (fn : Fin 2) (v : Fin 32) (s : State) : State :=
  if s.noRequest fn.val then s
  else
    let x := s.msix
    let s := { s with msix := { x with en := x.en ||| 2 ^ fn.val, fmask := x.fmask &&& (3 - 2 ^ fn.val) } }
    (s.clrW (winKey 60 0 (fn.val * 128 + 4 * v.val + 3)) 1).vecMask fn.val v.val false

/-- R62. -/
def execMsixUnmask (fn : Fin 2) (vector : Fin 32) (s : State) : Host.Outcome State Fault Refusal := done (effMsixUnmask fn vector s)

/-! Snapshot triggers (R63). -/

/-- A rising edge on SNAP_IN: trigger 0 is recognised 2 or 3 fabric cycles later, as the synchroniser resolves (free; log
entry 107). -/
def effSnapInEdge (s : State) : State :=
  let (k, s) := s.draw
  s.recogniseN 0 1 (2 + (Config.freeWord k).toNat % 2)

/-- R63; the row is the edge, the recognition follows (DESIGN CHOICE, log entry 107). -/
def execSnapInEdge (s : State) : Host.Outcome State Fault Refusal := done (effSnapInEdge s)

def effSnapCmdTrig (m : Master) (s : State) : State := s.regWrite m.toNat 0xA0 1

/-- R63. -/
def execSnapCmdTrig (m : Master) (s : State) : Host.Outcome State Fault Refusal := done (effSnapCmdTrig m s)

def effHsiMatch (s : State) : State :=
  if s.matchArmed && bitOf (s.get R.SNAP_TRIG_EN_EN) 2 && decide (s.get64 0x6090 ≤ s.hsiNow) then
    { s with matchArmed := false }.recognise 2
  else s

/-- R63. -/
def execHsiMatch (s : State) : Host.Outcome State Fault Refusal := done (effHsiMatch s)

def effMatchHsiWrite (m : Master) (v : BitVec 64) (s : State) : State := s.ask (MemReq.put m.toNat 0x6090 (leBytes 8 v.toNat))

/-- R63. -/
def execMatchHsiWrite (m : Master) (value : BitVec 64) (s : State) : Host.Outcome State Fault Refusal :=
  done (effMatchHsiWrite m value s)

/-! The snapshot (R64, R65). -/

/-- A word of a page as a snapshot takes it: live, whatever the page's counter view shows. -/
def State.pageWord (s : State) (src off : Nat) : Nat := (s.viewReg src 0 (pageBase src + off) false).1.toNat

/-- The sum over the records of a window kind of one word. -/
def State.sumWords (s : State) (n : Nat) (key : Nat → Nat) : Nat := (List.range n).foldl (fun x i => x + s.n (key i)) 0

/-- The values that a page latches into SNAP_0 and on; the rest read zero. -/
def State.snapVals (s : State) (src : Nat) : List Nat :=
  let o (l : List Nat) : List Nat := l.map (s.pageWord src)
  if src = 1 then o [0xC, 0x88, 0x98]
  else if src = 2 then o [0x80, 0xB4, 0xC]
  else if src = 3 then
    let h := s.hsiNow
    [h, h / 2 ^ 32, s.ph + s.gen * 2 ^ 24] ++ o [0xE0, 0xE4, 0xEC, 0xF4, 0xE8]
  else if src = 4 then o [0xC]
  else if src = 7 then o [0x80, 0x84, 0x88, 0x8C, 0x90, 0x94, 0xC]
  else if src = 8 then o [0xC, 0xA8, 0xB0]
  else if 9 ≤ src ∧ src ≤ 12 then
    o ([0xC, 0x400, 0x404, 0x480, 0x484, 0x454, 0x464, 0x4C0] ++ (List.range 8).map fun r => 0x610 + 32 * r)
  else if src = 13 then
    o [0xC] ++ [s.sumWords 256 fun c => rxKey c 5, s.sumWords 256 fun c => rxKey c 7, s.sumWords 256 fun c => rxKey c 6]
  else if src = 17 then
    o [0xC] ++ [s.sumWords 128 fun t => txKey t 6, s.sumWords 128 fun t => txKey t 7, s.sumWords 128 fun t => txKey t 8]
  else if src = 21 then
    o [0xC, 0x84] ++ [s.sumWords 256 fun c => loopKey c 4, ((List.range 256).filter fun c => s.loopState c = 2).length]
  else if src = 25 then o [0xC, 0x94, 0xA4, 0xA8, 0xB8]
  else if src = 29 then o [0x80]
  else if 64 ≤ src then o [0xC, 0x8C, 0x98, 0x88, 0x84]
  else if src = 33 then o [0xC, 0x98, 0xA0]
  else if src = 37 then o [0xC, 0x84, 0x88, 0x8C]
  else if src = 41 then o [0xC, 0x98, 0x9C, 0x80, 0x90]
  else if 42 ≤ src ∧ src ≤ 49 then o [0xC, 0xDC, 0xD0, 0xD4, 0xD8] ++ [(s.ie (src - 42)).spec spFL]
  else if src = 50 then o [0xC, 0x8C, 0x98, 0x9C]
  else if src = 51 then
    o [0xC, 0x8C, 0x9C, 0x88] ++
      [(s.sumWords 48 fun b => 0xA8100 + 4 * b) + s.sumWords 512 fun i => winKey 51 0 i]
  else if 52 ≤ src ∧ src ≤ 55 then o [0xC, 0xA0, 0xA4, 0xA8, 0x8C]
  else if src = 56 then o [0xC, 0x8C]
  else if src = 57 then o [0xC, 0x80, 0xA0, 0x94, 0xB4]
  else if src = 58 then o [0xC, 0x80, 0x84, 0x88]
  else if src = 59 then o [0xC, 0xC4, 0xE8]
  else if src = 61 then o [0xC, 0x8C]
  else []

/-- A snapshot-freezable word. -/
def freezable (src k : Nat) : Bool :=
  if k < 2 ^ 24 then (match regOf k with | some (r, _) => r.frz | none => false)
  else
    let w := keyWord k
    if src = 13 then decide (keyKind k = 2) && decide (1 ≤ w % 32)
    else if src = 17 then decide (keyKind k = 2) && decide (4 ≤ w % 32)
    else if src = 21 then decide (keyKind k = 4) && decide (3 ≤ w % 32)
    else if src = 33 then decide (keyKind k = 4)
    else if src = 51 then (match regOf 0xA8200 with | some (r, _) => r.frz | none => false)
    else false

/-- The counter view of a page freezes, or a frozen one takes the new values (R64). -/
def State.freezePage (s : State) (src : Nat) : State :=
  let new := s.words.filter fun e => keySrc e.1 = src && freezable src e.1
  { s.orW (pageBase src + 0x20) 8 with
    frozen := new.foldl (fun t e => tset zeroAt t e.1 e.2) (s.frozen.filter fun e => keySrc e.1 != src) }

/-- A page takes part in a snapshot; o is the state of the snapshot cycle. -/
def State.snapPage (s o : State) (seq src : Nat) : State :=
  let b := pageBase src
  let ctl := o.n (b + 0x20)
  if !o.pageOn src then s
  else
    let s := if bitOf ctl 0 then
        let v := o.snapVals src
        (s.upto 16 fun s i => s.setN (b + 0x40 + 4 * i) (v.getD i 0)).setN (b + 0x24) seq
      else s
    if bitOf ctl 1 then s.freezePage src else s

/-- The snapshot cycle of a recognised trigger, 32 fabric cycles later: its slot, the HSI of that slot's start as it is where the
slot has begun (a step counts), and the phase. -/
def State.snapCycle (s : State) (q : SnapReq) : Nat × Nat × Nat :=
  let c := q.cyc + 32
  let late := sheetCycles ≤ c
  let slot := if late then q.slot + 1 else q.slot
  (slot, if s.slot = slot then s.hsi else if late then q.hsi + 6 else q.hsi, c % sheetCycles)

def effSnapshot (s : State) : State :=
  match s.snapQ with
  | [] => s
  | q :: t =>
    let (slot, hsi, phase) := s.snapCycle q
    let s := s.addW R.SNAP_SEQ_SEQ 1
    let seq := s.get R.SNAP_SEQ_SEQ
    let s := (s.set64 0x6098 (hsi + phase / sampleCycles)).put R.SNAP_LAST_PHASE_PHASE phase
    let s := s.put R.SNAP_LAST_SRC_SRC q.mask
    let s := { s with snapQ := t, lastSnap := some (slot, phase) }
    let o := { s with slot := slot, hsi := hsi, cyc := phase }
    let s := s.each allSources fun s' src => s'.snapPage o seq src
    let s := if s.is R.SNAP_C_MODE then s else s.putB R.SNAP_C_ARMED false
    (s.latch eSNAP 0).dumpStart

/-- R64, R65, R67. -/
def execSnapshot (s : State) : Host.Outcome State Fault Refusal := done (effSnapshot s)

def effSnapThaw (m : Master) (page : Fin 4096) (v : Word) (s : State) : State := s.regWrite m.toNat (pageAddr page.val 0x20) v

/-- R64. -/
def execSnapThaw (m : Master) (page : Fin 4096) (value : Word) (s : State) : Host.Outcome State Fault Refusal :=
  done (effSnapThaw m page value s)

/-! Dumps (R67, R68). -/

/-- R67. -/
def execDumpDone (s : State) : Host.Outcome State Fault Refusal := done s.dumpFinish.afterAccess

def effDumpAbort (m : Master) (v : Word) (s : State) : State := s.regWrite m.toNat 0x60B0 v

/-- R68. -/
def execDumpAbort (m : Master) (value : Word) (s : State) : Host.Outcome State Fault Refusal := done (effDumpAbort m value s)

end Sys2Proof.Machine
end

