-- ==== Sys2Proof/Machine/TimeCmd.lean ====
section
/-! DEFINITION. Commands of CLK and TIME (03_timebase). -/

namespace Sys2Proof.Machine

def effRefLoss (s : State) : State := s.refLossOp

/-- R75. -/
def execRefLoss (s : State) : Host.Outcome State Fault Refusal := done (effRefLoss s)

def effRefReturn (s : State) : State := s.refReturnOp

/-- R75. -/
def execRefReturn (s : State) : Host.Outcome State Fault Refusal := done (effRefReturn s)

def effPllLock (pll : Pll) (s : State) : State := (s.pllLockOp pll).faultUpdate

/-- R78, R429. -/
def execPllLock (pll : Pll) (s : State) : Host.Outcome State Fault Refusal := done (effPllLock pll s)

def effPllUnlock (pll : Pll) (s : State) : State := (s.pllUnlockOp pll).faultUpdate

/-- R78, R429. -/
def execPllUnlock (pll : Pll) (s : State) : Host.Outcome State Fault Refusal := done (effPllUnlock pll s)

def effPllbApply (m : Master) (value : Word) (s : State) : State := s.regWrite m.toNat 0x2084 value

/-- R81: a write to PLLB_CFG. -/
def execPllbApply (m : Master) (value : Word) (s : State) : Host.Outcome State Fault Refusal := done (effPllbApply m value s)

def effPllbChangeLock (s : State) : State := s.pllbLockedOp.convDram.afterAccess

/-- R81, R385. -/
def execPllbChangeLock (s : State) : Host.Outcome State Fault Refusal := done (effPllbChangeLock s)

def effPllbFail (s : State) : State := s.pllbFailOp.convDram.afterAccess

/-- R81, R299, R382. -/
def execPllbFail (s : State) : Host.Outcome State Fault Refusal := done (effPllbFail s)

def effRefSelWrite (m : Master) (value : Word) (s : State) : State := s.regWrite m.toNat 0x3080 value

/-- R87. -/
def execRefSelWrite (m : Master) (value : Word) (s : State) : Host.Outcome State Fault Refusal := done (effRefSelWrite m value s)

def effForceHold (m : Master) (value : Word) (s : State) : State := s.regWrite m.toNat 0x3008 value

/-- R93: a write to TIME.CTRL. -/
def execForceHold (m : Master) (value : Word) (s : State) : Host.Outcome State Fault Refusal := done (effForceHold m value s)

def effMeasPush (m : Master) (s : State) : State := s.regWrite m.toNat 0x3240 1

/-- R90. -/
def execMeasPush (m : Master) (s : State) : Host.Outcome State Fault Refusal := done (effMeasPush m s)

def effMeasFlush (m : Master) (value : Word) (s : State) : State := s.regWrite m.toNat 0x3008 value

/-- R109: a write to TIME.CTRL. -/
def execMeasFlush (m : Master) (value : Word) (s : State) : Host.Outcome State Fault Refusal := done (effMeasFlush m value s)

def effSourceLoss (s : State) : State := s.sourceLossOp

/-- R93, R400. -/
def execSourceLoss (s : State) : Host.Outcome State Fault Refusal := done (effSourceLoss s)

def effSourceReturn (s : State) : State := s.sourceReturnOp

/-- R93. -/
def execSourceReturn (s : State) : Host.Outcome State Fault Refusal := done (effSourceReturn s)

def effWclkAcquireComplete (freqErr theta : Int) (s : State) : State := s.wclkAcquireOp freqErr theta

/-- R94: the frequency error in ppb and the phase, as measured over the 64 sheets. -/
def execWclkAcquireComplete (freqErr theta : Int) (s : State) : Host.Outcome State Fault Refusal := done (effWclkAcquireComplete freqErr theta s)

def effSlewEnd (s : State) : State := s.slewEndOp

/-- R96. -/
def execSlewEnd (s : State) : Host.Outcome State Fault Refusal := done (effSlewEnd s)

def effMuteSheetStep (s : State) : State := s.muteStep

/-- R97. -/
def execMuteSheetStep (s : State) : Host.Outcome State Fault Refusal := done (effMuteSheetStep s)

def effReanchorSlew (m : Master) (s : State) : State := s.regWrite m.toNat 0x30AC 1

/-- R98. -/
def execReanchorSlew (m : Master) (s : State) : Host.Outcome State Fault Refusal := done (effReanchorSlew m s)

def effReanchorStep (m : Master) (s : State) : State := s.regWrite m.toNat 0x30AC 2

/-- R98. -/
def execReanchorStep (m : Master) (s : State) : Host.Outcome State Fault Refusal := done (effReanchorStep m s)

def effReanchorStay (m : Master) (s : State) : State := s.regWrite m.toNat 0x30AC 3

/-- R98. -/
def execReanchorStay (m : Master) (s : State) : Host.Outcome State Fault Refusal := done (effReanchorStay m s)

def effHsiStep (s : State) : State := s.stepNow

/-- R99–R102: the step that is due. -/
def execHsiStep (s : State) : Host.Outcome State Fault Refusal := done (effHsiStep s)

def effHsiSetCmd (m : Master) (s : State) : State := s.regWrite m.toNat 0x30D8 1

/-- R102. -/
def execHsiSetCmd (m : Master) (s : State) : Host.Outcome State Fault Refusal := done (effHsiSetCmd m s)

def effCapture (m : Master) (s : State) : State := s.regWrite m.toNat 0x30C0 1

/-- R110. -/
def execCapture (m : Master) (s : State) : Host.Outcome State Fault Refusal := done (effCapture m s)

def effClockOutputEnable (o : ClockOut) (s : State) : State := s.clkEnableOp o

/-- R106. -/
def execClockOutputEnable (o : ClockOut) (s : State) : Host.Outcome State Fault Refusal := done (effClockOutputEnable o s)

def effClockOutputDisable (o : ClockOut) (s : State) : State := s.clkDisableOp o

/-- R106. -/
def execClockOutputDisable (o : ClockOut) (s : State) : Host.Outcome State Fault Refusal := done (effClockOutputDisable o s)

def effSyncInEdge (place : Fin 6) (s : State) : State := s.syncInOp place.val

/-- R107: the place of the new edges, from one PLL-A cycle before the fabric cycle 16 after the edge's to one after it. -/
def execSyncInEdge (place : Fin 6) (s : State) : Host.Outcome State Fault Refusal := done (effSyncInEdge place s)

def effSyncPtpSecond (s : State) : State := s.syncSecondOp

/-- R107. -/
def execSyncPtpSecond (s : State) : Host.Outcome State Fault Refusal := done (effSyncPtpSecond s)

def effLockFWindow (err : BitVec 16) (s : State) : State := s.lockFOp err

/-- R108. -/
def execLockFWindow (err : BitVec 16) (s : State) : Host.Outcome State Fault Refusal := done (effLockFWindow err s)

end Sys2Proof.Machine
end

