-- ==== Sys2Proof/Machine/Dispatch.lean ====
section
/-! DEFINITION. One arm per command: its meaning. -/

namespace Sys2Proof.Machine

/-- The effect of a command on everything but the queue. -/
def exec (i : Instr) (s : State) : Host.Outcome State Fault Refusal :=
  match i with
  | .registerWrite m addr width value => Sys2Proof.Machine.execRegisterWrite m addr width value s
  | .access64 m addr write value => Sys2Proof.Machine.execAccess64 m addr write value s
  | .pairLowRead m addr => Sys2Proof.Machine.execPairLowRead m addr s
  | .pairHighRead m addr => Sys2Proof.Machine.execPairHighRead m addr s
  | .pairLowWrite m addr value => Sys2Proof.Machine.execPairLowWrite m addr value s
  | .pairHighWrite m addr value => Sys2Proof.Machine.execPairHighWrite m addr value s
  | .pcieRegisterBurst fn addr write words => Sys2Proof.Machine.execPcieRegisterBurst fn addr write words s
  | .eventClear m page mask sameCycle => Sys2Proof.Machine.execEventClear m page mask sameCycle s
  | .eventSet m page mask => Sys2Proof.Machine.execEventSet m page mask s
  | .lockWrite m page value => Sys2Proof.Machine.execLockWrite m page value s
  | .tmrRead m addr width => Sys2Proof.Machine.execTmrRead m addr width s
  | .tmrWalk addr => Sys2Proof.Machine.execTmrWalk addr s
  | .vecAck m mask => Sys2Proof.Machine.execVecAck m mask s
  | .msixUnmask fn vector => Sys2Proof.Machine.execMsixUnmask fn vector s
  | .snapInEdge => Sys2Proof.Machine.execSnapInEdge s
  | .snapCmdTrig m => Sys2Proof.Machine.execSnapCmdTrig m s
  | .hsiMatch => Sys2Proof.Machine.execHsiMatch s
  | .matchHsiWrite m value => Sys2Proof.Machine.execMatchHsiWrite m value s
  | .snapshot => Sys2Proof.Machine.execSnapshot s
  | .snapThaw m page value => Sys2Proof.Machine.execSnapThaw m page value s
  | .dumpDone => Sys2Proof.Machine.execDumpDone s
  | .dumpAbort m value => Sys2Proof.Machine.execDumpAbort m value s
  | .sheetBoundary => Sys2Proof.Machine.execSheetBoundary s
  | .stageStart stage => Sys2Proof.Machine.execStageStart stage s
  | .stageComplete stage => Sys2Proof.Machine.execStageComplete stage s
  | .receiveCutOff => Sys2Proof.Machine.execReceiveCutOff s
  | .insertExchange => Sys2Proof.Machine.execInsertExchange s
  | .sendCutOff => Sys2Proof.Machine.execSendCutOff s
  | .packetLaunch => Sys2Proof.Machine.execPacketLaunch s
  | .refLoss => Sys2Proof.Machine.execRefLoss s
  | .refReturn => Sys2Proof.Machine.execRefReturn s
  | .pllLock pll => Sys2Proof.Machine.execPllLock pll s
  | .pllUnlock pll => Sys2Proof.Machine.execPllUnlock pll s
  | .pllbApply m value => Sys2Proof.Machine.execPllbApply m value s
  | .pllbChangeLock => Sys2Proof.Machine.execPllbChangeLock s
  | .pllbFail => Sys2Proof.Machine.execPllbFail s
  | .refSelWrite m value => Sys2Proof.Machine.execRefSelWrite m value s
  | .forceHold m value => Sys2Proof.Machine.execForceHold m value s
  | .measPush m => Sys2Proof.Machine.execMeasPush m s
  | .measFlush m value => Sys2Proof.Machine.execMeasFlush m value s
  | .sourceLoss => Sys2Proof.Machine.execSourceLoss s
  | .wclkAcquireComplete freqErr theta => Sys2Proof.Machine.execWclkAcquireComplete freqErr theta s
  | .slewEnd => Sys2Proof.Machine.execSlewEnd s
  | .muteSheetStep => Sys2Proof.Machine.execMuteSheetStep s
  | .reanchorSlew m => Sys2Proof.Machine.execReanchorSlew m s
  | .reanchorStep m => Sys2Proof.Machine.execReanchorStep m s
  | .reanchorStay m => Sys2Proof.Machine.execReanchorStay m s
  | .hsiStep => Sys2Proof.Machine.execHsiStep s
  | .hsiSetCmd m => Sys2Proof.Machine.execHsiSetCmd m s
  | .capture m => Sys2Proof.Machine.execCapture m s
  | .clockOutputEnable o => Sys2Proof.Machine.execClockOutputEnable o s
  | .clockOutputDisable o => Sys2Proof.Machine.execClockOutputDisable o s
  | .syncInEdge place => Sys2Proof.Machine.execSyncInEdge place s
  | .syncPtpSecond => Sys2Proof.Machine.execSyncPtpSecond s
  | .lockFWindow err => Sys2Proof.Machine.execLockFWindow err s
  | .pcsRestart m p value => Sys2Proof.Machine.execPcsRestart m p value s
  | .linkUp p => Sys2Proof.Machine.execLinkUp p s
  | .linkDown p => Sys2Proof.Machine.execLinkDown p s
  | .frameReceive p frame pcsError => Sys2Proof.Machine.execFrameReceive p frame pcsError s
  | .legTimeout ctx leg => Sys2Proof.Machine.execLegTimeout ctx leg s
  | .pauseFrameReceive p quanta => Sys2Proof.Machine.execPauseFrameReceive p quanta s
  | .pauseExpire p => Sys2Proof.Machine.execPauseExpire p s
  | .ringEnable m p r value => Sys2Proof.Machine.execRingEnable m p r value s
  | .ringTailWrite m p r value hostBytes => Sys2Proof.Machine.execRingTailWrite m p r value hostBytes s
  | .frameTransmit p => Sys2Proof.Machine.execFrameTransmit p s
  | .txDescriptorComplete p r => Sys2Proof.Machine.execTxDescriptorComplete p r s
  | .lpiEntry p => Sys2Proof.Machine.execLpiEntry p s
  | .lpiWake p => Sys2Proof.Machine.execLpiWake p s
  | .rxLpiEntry p => Sys2Proof.Machine.execRxLpiEntry p s
  | .dcFreeze m x value => Sys2Proof.Machine.execDcFreeze m x value s
  | .dcClear m x value => Sys2Proof.Machine.execDcClear m x value s
  | .metadataPush m slot ofs data => Sys2Proof.Machine.execMetadataPush m slot ofs data s
  | .qFlush m value => Sys2Proof.Machine.execQFlush m value s
  | .fadeCmd m value => Sys2Proof.Machine.execFadeCmd m value s
  | .testCfgWrite m value => Sys2Proof.Machine.execTestCfgWrite m value s
  | .mute m x value => Sys2Proof.Machine.execMute m x value s
  | .pressGo m value => Sys2Proof.Machine.execPressGo m value s
  | .pressRingGo m value => Sys2Proof.Machine.execPressRingGo m value s
  | .pressAbort m value => Sys2Proof.Machine.execPressAbort m value s
  | .pressChecksDone => Sys2Proof.Machine.execPressChecksDone s
  | .pressCommit => Sys2Proof.Machine.execPressCommit s
  | .convEnable m value => Sys2Proof.Machine.execConvEnable m value s
  | .convDramBaseWrite m value => Sys2Proof.Machine.execConvDramBaseWrite m value s
  | .convLoad m value => Sys2Proof.Machine.execConvLoad m value s
  | .convReload m value => Sys2Proof.Machine.execConvReload m value s
  | .convLoadAbort m value => Sys2Proof.Machine.execConvLoadAbort m value s
  | .convLoadDone => Sys2Proof.Machine.execConvLoadDone s
  | .convLoadFail reason => Sys2Proof.Machine.execConvLoadFail reason s
  | .tailFetchDeadline out missing => Sys2Proof.Machine.execTailFetchDeadline out missing s
  | .convVerifyDone => Sys2Proof.Machine.execConvVerifyDone s
  | .ieNop e => Sys2Proof.Machine.execIeNop e s
  | .ieDone e => Sys2Proof.Machine.execIeDone e s
  | .completion e => Sys2Proof.Machine.execCompletion e s
  | .ieBr e cond target => Sys2Proof.Machine.execIeBr e cond target s
  | .ieCall e cond target => Sys2Proof.Machine.execIeCall e cond target s
  | .ieRet e cond => Sys2Proof.Machine.execIeRet e cond s
  | .ieReti e => Sys2Proof.Machine.execIeReti e s
  | .ieRep e n => Sys2Proof.Machine.execIeRep e n s
  | .ieRepr e rs => Sys2Proof.Machine.execIeRepr e rs s
  | .ieLoop e n last => Sys2Proof.Machine.execIeLoop e n last s
  | .ieLoopr e rs last => Sys2Proof.Machine.execIeLoopr e rs last s
  | .ieFlag e sig setBits clrBits => Sys2Proof.Machine.execIeFlag e sig setBits clrBits s
  | .ieAdd e st rd rs rt => Sys2Proof.Machine.execIeAdd e st rd rs rt s
  | .ieSub e st rd rs rt => Sys2Proof.Machine.execIeSub e st rd rs rt s
  | .ieAddi e st rd rs imm => Sys2Proof.Machine.execIeAddi e st rd rs imm s
  | .ieNeg e st rd rs => Sys2Proof.Machine.execIeNeg e st rd rs s
  | .ieAbs e st rd rs => Sys2Proof.Machine.execIeAbs e st rd rs s
  | .ieMulq e st rd rs rt => Sys2Proof.Machine.execIeMulq e st rd rs rt s
  | .ieShli e st rd rs sh => Sys2Proof.Machine.execIeShli e st rd rs sh s
  | .ieSrai e rd rs sh rnd => Sys2Proof.Machine.execIeSrai e rd rs sh rnd s
  | .ieMin e rd rs rt => Sys2Proof.Machine.execIeMin e rd rs rt s
  | .ieMax e rd rs rt => Sys2Proof.Machine.execIeMax e rd rs rt s
  | .ieCmp e rs rt => Sys2Proof.Machine.execIeCmp e rs rt s
  | .ieCmpi e rs imm => Sys2Proof.Machine.execIeCmpi e rs imm s
  | .ieAnd e rd rs rt => Sys2Proof.Machine.execIeAnd e rd rs rt s
  | .ieOr e rd rs rt => Sys2Proof.Machine.execIeOr e rd rs rt s
  | .ieXor e rd rs rt => Sys2Proof.Machine.execIeXor e rd rs rt s
  | .ieOri e rd rs imm => Sys2Proof.Machine.execIeOri e rd rs imm s
  | .ieShr e rd rs sh => Sys2Proof.Machine.execIeShr e rd rs sh s
  | .ieMov e rd rs => Sys2Proof.Machine.execIeMov e rd rs s
  | .ieLdi e rd imm => Sys2Proof.Machine.execIeLdi e rd imm s
  | .ieLui e rd imm => Sys2Proof.Machine.execIeLui e rd imm s
  | .ieLd e rd ai md disp => Sys2Proof.Machine.execIeLd e rd ai md disp s
  | .ieSt e rs ai md disp => Sys2Proof.Machine.execIeSt e rs ai md disp s
  | .ieMvta e spec rs => Sys2Proof.Machine.execIeMvta e spec rs s
  | .ieMvfa e rd spec => Sys2Proof.Machine.execIeMvfa e rd spec s
  | .ieModa e ai md => Sys2Proof.Machine.execIeModa e ai md s
  | .ieMac e st k rs rt neg clrBits => Sys2Proof.Machine.execIeMac e st k rs rt neg clrBits s
  | .ieDmac e st k rs rt ru rv neg clrBits => Sys2Proof.Machine.execIeDmac e st k rs rt ru rv neg clrBits s
  | .ieMxy e st k ai mi aj mj neg clrBits => Sys2Proof.Machine.execIeMxy e st k ai mi aj mj neg clrBits s
  | .ieDmxy e st k ai mi aj mj neg clrBits => Sys2Proof.Machine.execIeDmxy e st k ai mi aj mj neg clrBits s
  | .ieSac e st rd k sh rnd => Sys2Proof.Machine.execIeSac e st rd k sh rnd s
  | .ieLac e k rs sh => Sys2Proof.Machine.execIeLac e k rs sh s
  | .ieAdda e st k j => Sys2Proof.Machine.execIeAdda e st k j s
  | .ieSuba e st k j => Sys2Proof.Machine.execIeSuba e st k j s
  | .ieSha e st k sh => Sys2Proof.Machine.execIeSha e st k sh s
  | .ieClra e mask => Sys2Proof.Machine.execIeClra e mask s
  | .illegalOpcode e word => Sys2Proof.Machine.execIllegalOpcode e word s
  | .interruptAccept e => Sys2Proof.Machine.execInterruptAccept e s
  | .doorbell m e value => Sys2Proof.Machine.execDoorbell m e value s
  | .bulkTransferDone e => Sys2Proof.Machine.execBulkTransferDone e s
  | .ieLoadDone e => Sys2Proof.Machine.execIeLoadDone e s
  | .halt m e value => Sys2Proof.Machine.execHalt m e value s
  | .restart m e value => Sys2Proof.Machine.execRestart m e value s
  | .dmDataAccess m e write value => Sys2Proof.Machine.execDmDataAccess m e write value s
  | .pmDataRead m e => Sys2Proof.Machine.execPmDataRead m e s
  | .sramRead m addr width => Sys2Proof.Machine.execSramRead m addr width s
  | .sramWrite m addr data => Sys2Proof.Machine.execSramWrite m addr data s
  | .scrubVisit => Sys2Proof.Machine.execScrubVisit s
  | .sramInject m value => Sys2Proof.Machine.execSramInject m value s
  | .atomicOp m op addr wide operand compare => Sys2Proof.Machine.execAtomicOp m op addr wide operand compare s
  | .closingWrite m addr data => Sys2Proof.Machine.execClosingWrite m addr data s
  | .lockBreak => Sys2Proof.Machine.execLockBreak s
  | .pcieMemoryRequest fn addr write bytes => Sys2Proof.Machine.execPcieMemoryRequest fn addr write bytes s
  | .dramRead m addr width => Sys2Proof.Machine.execDramRead m addr width s
  | .dramWrite m addr data => Sys2Proof.Machine.execDramWrite m addr data s
  | .regulatorRefill => Sys2Proof.Machine.execRegulatorRefill s
  | .refreshOwed c => Sys2Proof.Machine.execRefreshOwed c s
  | .refreshIssue c => Sys2Proof.Machine.execRefreshIssue c s
  | .tempSample deg => Sys2Proof.Machine.execTempSample deg s
  | .mr4Read rate0 rate1 rate2 rate3 => Sys2Proof.Machine.execMr4Read rate0 rate1 rate2 rate3 s
  | .pageCfgWrite m c value => Sys2Proof.Machine.execPageCfgWrite m c value s
  | .dramInit m value => Sys2Proof.Machine.execDramInit m value s
  | .dramInitDone results => Sys2Proof.Machine.execDramInitDone results s
  | .trainTurn c passing => Sys2Proof.Machine.execTrainTurn c passing s
  | .drcRetrain m c value => Sys2Proof.Machine.execDrcRetrain m c value s
  | .trainingDone c result => Sys2Proof.Machine.execTrainingDone c result s
  | .selfRefreshEntry c => Sys2Proof.Machine.execSelfRefreshEntry c s
  | .dramInject m c value => Sys2Proof.Machine.execDramInject m c value s
  | .apsalFrameReceive q frame rxStamp txStamp => Sys2Proof.Machine.execApsalFrameReceive q frame rxStamp txStamp s
  | .apsalPortDown q => Sys2Proof.Machine.execApsalPortDown q s
  | .wrapEnd q => Sys2Proof.Machine.execWrapEnd q s
  | .heartbeat pos w0 => Sys2Proof.Machine.execHeartbeat pos w0 s
  | .evtSum pos w0 => Sys2Proof.Machine.execEvtSum pos w0 s
  | .rraReq tag op addr data cmp => Sys2Proof.Machine.execRraReq tag op addr data cmp s
  | .rraRsp tag resp data => Sys2Proof.Machine.execRraRsp tag resp data s
  | .rraGo m value => Sys2Proof.Machine.execRraGo m value s
  | .rraTimeout => Sys2Proof.Machine.execRraTimeout s
  | .pressReq id sheet => Sys2Proof.Machine.execPressReq id sheet s
  | .pressTable payload => Sys2Proof.Machine.execPressTable payload s
  | .pressVote pos id reason node => Sys2Proof.Machine.execPressVote pos id reason node s
  | .pressDecision => Sys2Proof.Machine.execPressDecision s
  | .pressDecide id go dev reason node => Sys2Proof.Machine.execPressDecide id go dev reason node s
  | .ringStep sheets boundary => Sys2Proof.Machine.execRingStep sheets boundary s
  | .ringSnap hsi => Sys2Proof.Machine.execRingSnap hsi s
  | .ringSnapGo m => Sys2Proof.Machine.execRingSnapGo m s
  | .ringSnapTrigger => Sys2Proof.Machine.execRingSnapTrigger s
  | .wmkReport pos k tag settled epochSheet wRing wGroup => Sys2Proof.Machine.execWmkReport pos k tag settled epochSheet wRing wGroup s
  | .wmkRescanRead => Sys2Proof.Machine.execWmkRescanRead s
  | .ringMetadataPush => Sys2Proof.Machine.execRingMetadataPush s
  | .bulkGo m value => Sys2Proof.Machine.execBulkGo m value s
  | .bulkDone => Sys2Proof.Machine.execBulkDone s
  | .bulkWrite addr data => Sys2Proof.Machine.execBulkWrite addr data s
  | .heartbeatCheck => Sys2Proof.Machine.execHeartbeatCheck s
  | .grant holder partner nobody sheet => Sys2Proof.Machine.execGrant holder partner nobody sheet s
  | .redFault pos cause => Sys2Proof.Machine.execRedFault pos cause s
  | .standbyState pos flags seq sheet => Sys2Proof.Machine.execStandbyState pos flags seq sheet s
  | .managerHeartbeatCheck => Sys2Proof.Machine.execManagerHeartbeatCheck s
  | .arbGrantAssert => Sys2Proof.Machine.execArbGrantAssert s
  | .arbGrantDeassert => Sys2Proof.Machine.execArbGrantDeassert s
  | .redYield m value => Sys2Proof.Machine.execRedYield m value s
  | .wdogKick m value => Sys2Proof.Machine.execWdogKick m value s
  | .watchdogExpire => Sys2Proof.Machine.execWatchdogExpire s
  | .checkpointCapture => Sys2Proof.Machine.execCheckpointCapture s
  | .checkpointCaptureDone => Sys2Proof.Machine.execCheckpointCaptureDone s
  | .checkpointOpen seq len => Sys2Proof.Machine.execCheckpointOpen seq len s
  | .checkpointData ofs data => Sys2Proof.Machine.execCheckpointData ofs data s
  | .checkpointClose seq crc => Sys2Proof.Machine.execCheckpointClose seq crc s
  | .takeover => Sys2Proof.Machine.execTakeover s
  | .restoreDone => Sys2Proof.Machine.execRestoreDone s
  | .audioOn => Sys2Proof.Machine.execAudioOn s
  | .proofRun => Sys2Proof.Machine.execProofRun s
  | .proofRunDone pass => Sys2Proof.Machine.execProofRunDone pass s
  | .modeRequest m value => Sys2Proof.Machine.execModeRequest m value s
  | .modeDone micros => Sys2Proof.Machine.execModeDone micros s
  | .domRst m value => Sys2Proof.Machine.execDomRst m value s
  | .por cause straps testEn => Sys2Proof.Machine.execPor cause straps testEn s
  | .resetN => Sys2Proof.Machine.execResetN s
  | .wdogReset => Sys2Proof.Machine.execWdogReset s
  | .resetRelease firstTemp => Sys2Proof.Machine.execResetRelease firstTemp s
  | .pciePerst => Sys2Proof.Machine.execPciePerst s
  | .vddioUp => Sys2Proof.Machine.execVddioUp s
  | .brownoutWarn rail => Sys2Proof.Machine.execBrownoutWarn rail s
  | .brownout straps testEn => Sys2Proof.Machine.execBrownout straps testEn s
  | .bootStart sfdp => Sys2Proof.Machine.execBootStart sfdp s
  | .bootGo m value => Sys2Proof.Machine.execBootGo m value s
  | .bootAbort m value => Sys2Proof.Machine.execBootAbort m value s
  | .verifyPassDone image => Sys2Proof.Machine.execVerifyPassDone image s
  | .bootWrite cont addr value => Sys2Proof.Machine.execBootWrite cont addr value s
  | .bootModify cont addr mask value => Sys2Proof.Machine.execBootModify cont addr mask value s
  | .bootLoad cont addr data => Sys2Proof.Machine.execBootLoad cont addr data s
  | .bootFill cont addr len value => Sys2Proof.Machine.execBootFill cont addr len value s
  | .bootPoll cont addr mask value timeout => Sys2Proof.Machine.execBootPoll cont addr mask value timeout s
  | .pollTimeout => Sys2Proof.Machine.execPollTimeout s
  | .bootDelay time => Sys2Proof.Machine.execBootDelay time s
  | .bootMode target => Sys2Proof.Machine.execBootMode target s
  | .bootEnd image => Sys2Proof.Machine.execBootEnd image s
  | .sourceReturn => Sys2Proof.Machine.execSourceReturn s
  | .supplyReturn rail => Sys2Proof.Machine.execSupplyReturn rail s
  | .supplyRemoval => Sys2Proof.Machine.execSupplyRemoval s
  | .apsalPortAligned q => Sys2Proof.Machine.execApsalPortAligned q s
  | .rxLpiExit p => Sys2Proof.Machine.execRxLpiExit p s
  | .pciePerstRelease => Sys2Proof.Machine.execPciePerstRelease s
  | .wmkSettled => Sys2Proof.Machine.execWmkSettled s
  | .domRstRelease dom => Sys2Proof.Machine.execDomRstRelease dom s
  | .pcsBlockError lane => Sys2Proof.Machine.execPcsBlockError lane s
  | .fecCodewordError p corrected => Sys2Proof.Machine.execFecCodewordError p corrected s

end Sys2Proof.Machine
end

