-- ==== Sys2Proof/WellFormed.lean ====
section
/-! DEFINITION. Commands that can be sent: the master exists (11_memory_fabric R351), a register access is of a width that R52 knows, and
a list that a command carries has a length that its chapter allows. The meanings do not rest on it. -/

namespace Sys2Proof

/-- The masters of R351. -/
def masterIds : List Nat :=
  [0x00, 0x01, 0x02, 0x03] ++ (List.range 6).map (0x08 + ·) ++ (List.range 38).map (0x10 + ·) ++ (List.range 11).map (0x38 + ·) ++
    (List.range 4).map (0x44 + ·)

/-- The ID is that of a master. -/
def masterOk (m : Master) : Bool := masterIds.contains m.toNat

/-- Bytes, halfwords and words; R54 has a row of its own. -/
def widthOk (w : Nat) : Bool := w == 1 || w == 2 || w == 4

/-- The command is well formed. -/
def Instr.wf : Instr → Bool
  | .registerWrite m _ width _ => masterOk m && widthOk width
  | .access64 m _ _ _ => masterOk m
  | .pairLowRead m _ => masterOk m
  | .pairHighRead m _ => masterOk m
  | .pairLowWrite m _ _ => masterOk m
  | .pairHighWrite m _ _ => masterOk m
  | .pcieRegisterBurst _ _ _ words => decide (words.length ≤ 1024)
  | .eventClear m _ _ _ => masterOk m
  | .eventSet m _ _ => masterOk m
  | .lockWrite m _ _ => masterOk m
  | .tmrRead m _ width => masterOk m && widthOk width
  | .tmrWalk _ => true
  | .vecAck m _ => masterOk m
  | .msixUnmask _ _ => true
  | .snapInEdge => true
  | .snapCmdTrig m => masterOk m
  | .hsiMatch => true
  | .matchHsiWrite m _ => masterOk m
  | .snapshot => true
  | .snapThaw m _ _ => masterOk m
  | .dumpDone => true
  | .dumpAbort m _ => masterOk m
  | .sheetBoundary => true
  | .stageStart _ => true
  | .stageComplete _ => true
  | .receiveCutOff => true
  | .insertExchange => true
  | .sendCutOff => true
  | .packetLaunch => true
  | .refLoss => true
  | .refReturn => true
  | .pllLock _ => true
  | .pllUnlock _ => true
  | .pllbApply m _ => masterOk m
  | .pllbChangeLock => true
  | .pllbFail => true
  | .refSelWrite m _ => masterOk m
  | .forceHold m _ => masterOk m
  | .measPush m => masterOk m
  | .measFlush m _ => masterOk m
  | .sourceLoss => true
  | .wclkAcquireComplete _ _ => true
  | .slewEnd => true
  | .muteSheetStep => true
  | .reanchorSlew m => masterOk m
  | .reanchorStep m => masterOk m
  | .reanchorStay m => masterOk m
  | .hsiStep => true
  | .hsiSetCmd m => masterOk m
  | .capture m => masterOk m
  | .clockOutputEnable _ => true
  | .clockOutputDisable _ => true
  | .syncInEdge _ => true
  | .syncPtpSecond => true
  | .lockFWindow _ => true
  | .pcsRestart m _ _ => masterOk m
  | .linkUp _ => true
  | .linkDown _ => true
  | .frameReceive _ frame _ => decide (frame.length ≤ 16384)
  | .legTimeout _ _ => true
  | .pauseFrameReceive _ _ => true
  | .pauseExpire _ => true
  | .ringEnable m _ _ _ => masterOk m
  | .ringTailWrite m _ _ _ hostBytes => masterOk m && (hostBytes.map Prod.fst).Nodup
  | .frameTransmit _ => true
  | .txDescriptorComplete _ _ => true
  | .lpiEntry _ => true
  | .lpiWake _ => true
  | .rxLpiEntry _ => true
  | .dcFreeze m _ _ => masterOk m
  | .dcClear m _ _ => masterOk m
  | .metadataPush m _ ofs data => masterOk m && decide (ofs.val + data.length ≤ 32)
  | .qFlush m _ => masterOk m
  | .fadeCmd m _ => masterOk m
  | .testCfgWrite m _ => masterOk m
  | .mute m _ _ => masterOk m
  | .pressGo m _ => masterOk m
  | .pressRingGo m _ => masterOk m
  | .pressAbort m _ => masterOk m
  | .pressChecksDone => true
  | .pressCommit => true
  | .convEnable m _ => masterOk m
  | .convDramBaseWrite m _ => masterOk m
  | .convLoad m _ => masterOk m
  | .convReload m _ => masterOk m
  | .convLoadAbort m _ => masterOk m
  | .convLoadDone => true
  | .convLoadFail _ => true
  | .tailFetchDeadline _ missing => missing.Nodup
  | .convVerifyDone => true
  | .ieNop _ => true
  | .ieDone _ => true
  | .completion _ => true
  | .ieBr _ _ _ => true
  | .ieCall _ _ _ => true
  | .ieRet _ _ => true
  | .ieReti _ => true
  | .ieRep _ _ => true
  | .ieRepr _ _ => true
  | .ieLoop _ _ _ => true
  | .ieLoopr _ _ _ => true
  | .ieFlag _ _ _ _ => true
  | .ieAdd _ _ _ _ _ => true
  | .ieSub _ _ _ _ _ => true
  | .ieAddi _ _ _ _ _ => true
  | .ieNeg _ _ _ _ => true
  | .ieAbs _ _ _ _ => true
  | .ieMulq _ _ _ _ _ => true
  | .ieShli _ _ _ _ _ => true
  | .ieSrai _ _ _ _ _ => true
  | .ieMin _ _ _ _ => true
  | .ieMax _ _ _ _ => true
  | .ieCmp _ _ _ => true
  | .ieCmpi _ _ _ => true
  | .ieAnd _ _ _ _ => true
  | .ieOr _ _ _ _ => true
  | .ieXor _ _ _ _ => true
  | .ieOri _ _ _ _ => true
  | .ieShr _ _ _ _ => true
  | .ieMov _ _ _ => true
  | .ieLdi _ _ _ => true
  | .ieLui _ _ _ => true
  | .ieLd _ _ _ _ _ => true
  | .ieSt _ _ _ _ _ => true
  | .ieMvta _ _ _ => true
  | .ieMvfa _ _ _ => true
  | .ieModa _ _ _ => true
  | .ieMac _ _ _ _ _ _ _ => true
  | .ieDmac _ _ _ _ _ _ _ _ _ => true
  | .ieMxy _ _ _ _ _ _ _ _ _ => true
  | .ieDmxy _ _ _ _ _ _ _ _ _ => true
  | .ieSac _ _ _ _ _ _ => true
  | .ieLac _ _ _ _ => true
  | .ieAdda _ _ _ _ => true
  | .ieSuba _ _ _ _ => true
  | .ieSha _ _ _ _ => true
  | .ieClra _ _ => true
  | .illegalOpcode _ _ => true
  | .interruptAccept _ => true
  | .doorbell m _ _ => masterOk m
  | .bulkTransferDone _ => true
  | .ieLoadDone _ => true
  | .halt m _ _ => masterOk m
  | .restart m _ _ => masterOk m
  | .dmDataAccess m _ _ _ => masterOk m
  | .pmDataRead m _ => masterOk m
  | .sramRead m _ width => masterOk m && decide (width ≤ 64)
  | .sramWrite m _ data => masterOk m && decide (data.length ≤ 64)
  | .scrubVisit => true
  | .sramInject m _ => masterOk m
  | .atomicOp m _ _ _ _ _ => masterOk m
  | .closingWrite m _ data => masterOk m && decide (data.length ≤ 64)
  | .lockBreak => true
  | .pcieMemoryRequest _ _ _ bytes => decide (bytes.length ≤ 4096)
  | .dramRead m _ width => masterOk m && decide (width ≤ 64)
  | .dramWrite m _ data => masterOk m && decide (data.length ≤ 64)
  | .regulatorRefill => true
  | .refreshOwed _ => true
  | .refreshIssue _ => true
  | .tempSample _ => true
  | .mr4Read _ _ _ _ => true
  | .pageCfgWrite m _ _ => masterOk m
  | .dramInit m _ => masterOk m
  | .dramInitDone results => decide (results.length ≤ 4)
  | .trainTurn _ _ => true
  | .drcRetrain m _ _ => masterOk m
  | .trainingDone _ _ => true
  | .selfRefreshEntry _ => true
  | .dramInject m _ _ => masterOk m
  | .apsalFrameReceive _ frame rxStamp txStamp => (decide (frame.length ≤ 720896) && decide (rxStamp ≤ txStamp))
  | .apsalPortDown _ => true
  | .wrapEnd _ => true
  | .heartbeat _ _ => true
  | .evtSum _ _ => true
  | .rraReq _ _ _ _ _ => true
  | .rraRsp _ _ _ => true
  | .rraGo m _ => masterOk m
  | .rraTimeout => true
  | .pressReq _ _ => true
  | .pressTable payload => decide (payload.length = 0x888)
  | .pressVote _ _ _ _ => true
  | .pressDecision => true
  | .pressDecide _ _ _ _ _ => true
  | .ringStep _ _ => true
  | .ringSnap _ => true
  | .ringSnapGo m => masterOk m
  | .ringSnapTrigger => true
  | .wmkReport _ _ _ _ _ _ _ => true
  | .wmkRescanRead => true
  | .ringMetadataPush => true
  | .bulkGo m _ => masterOk m
  | .bulkDone => true
  | .bulkWrite _ data => decide (data.length % 16 = 0)
  | .heartbeatCheck => true
  | .grant _ _ _ _ => true
  | .redFault _ _ => true
  | .standbyState _ _ _ _ => true
  | .managerHeartbeatCheck => true
  | .arbGrantAssert => true
  | .arbGrantDeassert => true
  | .redYield m _ => masterOk m
  | .wdogKick m _ => masterOk m
  | .watchdogExpire => true
  | .checkpointCapture => true
  | .checkpointCaptureDone => true
  | .checkpointOpen _ _ => true
  | .checkpointData _ _ => true
  | .checkpointClose _ _ => true
  | .takeover => true
  | .restoreDone => true
  | .audioOn => true
  | .proofRun => true
  | .proofRunDone _ => true
  | .modeRequest m _ => masterOk m
  | .modeDone _ => true
  | .domRst m _ => masterOk m
  | .por _ _ _ => true
  | .resetN => true
  | .wdogReset => true
  | .resetRelease _ => true
  | .pciePerst => true
  | .vddioUp => true
  | .brownoutWarn _ => true
  | .brownout _ _ => true
  | .bootStart _ => true
  | .bootGo m _ => masterOk m
  | .bootAbort m _ => masterOk m
  | .verifyPassDone _ => true
  | .bootWrite _ _ _ => true
  | .bootModify _ _ _ _ => true
  | .bootLoad _ _ _ => true
  | .bootFill _ _ len _ => decide (len < 2 ^ 32)
  | .bootPoll _ _ _ _ _ => true
  | .pollTimeout => true
  | .bootDelay _ => true
  | .bootMode _ => true
  | .bootEnd _ => true
  | .sourceReturn => true
  | .supplyReturn _ => true
  | .supplyRemoval => true
  | .apsalPortAligned _ => true
  | .rxLpiExit _ => true
  | .pciePerstRelease => true
  | .wmkSettled => true
  | .domRstRelease _ => true
  | .pcsBlockError _ => true
  | .fecCodewordError _ _ => true

end Sys2Proof
end

