-- ==== Sys2Proof/Safety.lean ====
section
/-! DEFINITION. The terms in which statements about the block are made: when a register write is taken, the interrupt invariant, and
the canonical form of memory. -/

namespace Sys2Proof.Machine

/-- The canonical form of the addressed memory, SRAM and DRAM: addresses strictly rising, no byte listed that reads as an unlisted
one. -/
abbrev Memory.wf (m : Tab Byte) : Prop := tabWf (zeroAt : Nat → Byte) m = true

/-- Nothing waits in the fabric, so nothing else follows from an access: no request, no remote access and no boot record. -/
def State.fabricIdle (s : State) : Bool := s.waiting.isEmpty && s.ring.rraHere.isNone && s.boot.rest.isNone

/-- An access of n bytes at a by master m comes to the register space: the master can make it and nothing waits in the fabric. -/
def State.comes (s : State) (m a n : Nat) : Bool :=
  !s.noRequest m && s.fabricIdle && targetOf a == 0 && (n == 1 || n == 2 || n == 4)

/-- The same, and it reaches the register at a under rules 1 to 3 of R52: it is aligned, the tables allow it and the page is powered. -/
def State.reaches (s : State) (m a n : Nat) (write : Bool) : Bool :=
  s.comes m a n && a % n == 0 &&
  (match srcOf a with
    | some src => s.allowed m 0 a n write && s.pageOn src
    | none => false)

/-- A 32-bit access reaches the register. -/
def State.sees (s : State) (m a : Nat) (write : Bool) : Bool := s.reaches m a 4 write

/-- The registers whose write does more than store a word: those that are commands to a block or that a block follows at once, by page
and offset. -/
def acts (src off : Nat) : Bool :=
  off == 0x18 || off == 0x20 ||
  (match src with
    | 0 => [0xA0]
    | 1 => [0x80, 0x8C, 0x9C]
    | 2 => [0x84, 0x90, 0x94, 0x98, 0x9C, 0xB0, 0xB8]
    | 3 => [8, 0x80, 0xAC, 0xB8, 0xC0, 0xD8, 0x240]
    | 5 => [0xA8]
    | 6 => [8, 0x80, 0x94, 0xB0]
    | 7 => [0xE0, 0xE4, 0xE8]
    | 8 => [0x90]
    | 41 => [8, 0x84, 0x88]
    | 51 => [0xA8]
    | 57 => [8]
    | 58 => [8, 0xC8, 0xE8, 0x104]
    | 59 => [8, 0x80, 0x98, 0x9C, 0xAC, 0xB4, 0xB8]
    | 61 => [8]
    | _ => []).contains off ||
  (decide (9 ≤ src) && decide (src ≤ 12) && (off == 0x80 || (decide (0x608 ≤ off) && decide (off < 0x708) && (off % 32 == 8 || off % 32 == 12)))) ||
  ([21, 22, 25, 29, 33].contains src && decide (0x100 ≤ off) && decide (off < 0x180)) ||
  (src == 25 && off == 0x8C) || (src == 33 && (off == 0x84 || off == 0x90)) ||
  (decide (42 ≤ src) && decide (src ≤ 49) && [8, 0xC0, 0x104].contains off) ||
  (decide (52 ≤ src) && decide (src ≤ 55) && [8, 0x80, 0xD0].contains off) ||
  (src == 56 && (off == 8 || off == 0x80 || (decide (0x100 ≤ off) && decide (off < 0x140)))) ||
  (src == 60 && decide (0x800 ≤ off) && decide (off < 0xA00))

/-- A 32-bit write of v to the register at a stores what its rules leave of it and does nothing else: it reaches the register (R52), which
is neither LOCK nor half of a pair, changes no locked bit (R50), is no SHADOW location of a pending press (R260), and is no
command. -/
def State.stores (s : State) (m a : Nat) (l : Loc) (v : Word) : Bool :=
  s.sees m a true && a % 0x1000 != 0x1C && (s.pairLow a).isNone && decide (s.locate m a = some l) && !s.shadowRefused (some l) &&
  (match srcOf a with
    | some src => !s.rwlRefused src (some l) (hidden m (some l)) v && !acts src (a % 0x1000)
    | none => false)

/-- A write of v to the low half at lo of a pair and w to its high half, both at once, stores what the rules leave of it and does nothing
else: the halves are words of their own, no locked bit changes (R50, R54), the pair is no SHADOW location of a pending press and no
command. -/
def State.pairStores (s : State) (m src lo : Nat) (l h : Loc) (v w : Word) : Bool :=
  s.pairLow lo == some lo && decide (s.locate m lo = some l) && decide (s.locate m (lo + 4) = some h) && l.key != h.key &&
  !s.rwlRefused src (some l) (hidden m (some l)) v && !s.rwlRefused src (some h) (hidden m (some h)) w &&
  !s.shadowRefused (some l) && !s.shadowRefused (some h) && !acts src (lo % 0x1000) && !acts src ((lo + 4) % 0x1000)

/-- The register at an offset of a page selects what another address stands for, or whom the tables allow what. -/
def selects (src off : Nat) : Bool :=
  src == eFAB || (windowPage src && decide (off < 0x100)) || (decide (9 ≤ src) && decide (src ≤ 12) && off == 0x100) ||
  (src == eSRAM && off == 0x1C0)

/-- The same as `stores` for a part of a longer access: no bit is guarded from the master, and the write selects nothing for the parts
after it. -/
def State.storesPart (s : State) (m a : Nat) (l : Loc) (v : Word) : Bool :=
  s.stores m a l v && hidden m (some l) == 0 && (srcOf a).any fun src => !selects src (a % 0x1000)

/-- The copies of a word disagree in a triplicated field (R58). -/
def State.disagrees (s : State) (l : Loc) : Bool :=
  fieldsHit l.spec.tmr (tget zeroAt s.tmrA l.key ||| tget zeroAt s.tmrB l.key).toNat != 0

/-- A read of n bytes at a shows the stored word of its location to master m: it reaches the register, which is no half of a pair, no
header word that the block composes, no value computed at the read, no data port, not frozen and not guarded from the master. -/
def State.shows (s : State) (m a n : Nat) (l : Loc) : Bool :=
  s.reaches m a n false && decide (0x80 ≤ a % 0x1000) && (s.pairLow (a / 4 * 4)).isNone &&
  decide (s.locate m (a / 4 * 4) = some l) && hidden m (some l) == 0 &&
  (match srcOf a with
    | some src => (s.computed m src (a / 4 * 4 % 0x1000)).isNone && !(l.spec.frz && s.isFrozen src) && !(decide (42 ≤ src) && decide (src ≤ 49))
    | none => false)

/-- A 32-bit write by master m takes effect on the register at a under R50, R52, R55 and R260: the page is not locked, no bit is
guarded from the master, the register is no half of a pair, and it is no SHADOW location of a pending press. -/
def State.takes (s : State) (m a : Nat) : Bool :=
  s.sees m a true && a % 0x1000 != 0x1C &&
  (match srcOf a with
    | some src => !s.locked src
    | none => false) &&
  (s.pairLow a).isNone && hidden m (s.locate m a) == 0 && !s.shadowRefused (s.locate m a)

/-- The bit of an EVENT register is set. -/
def State.hasEvent (s : State) (src bit : Nat) : Bool := bitOf (s.n (evKey src)) bit

/-- No EVENT bit is selected as snapshot trigger 3, so that an event has no further effect (R63). -/
def State.quiet (s : State) : Bool := !bitOf (s.get R.SNAP_TRIG_EN_EN) 3

/-- Every word but those listed reads as before. -/
def State.keeps (s t : State) (ks : List Nat) : Prop := ∀ k, k ∉ ks → t.w k = s.w k

/-- The state with the register words, digests, interrupt state and outputs of another: `t = { s.regsOf t with … }` says that a
command changes nothing else but the parts named there. -/
def State.regsOf (s t : State) : State := { s with words := t.words, wmk := t.wmk, msix := t.msix, out := t.out }

/-- The answer that a requester finds after an access: what the ring's own master 0x03 is answered stays in RING. -/
def State.told (s : State) (m : Nat) (r : Resp) (d : List Byte) : BusOut := if m = 3 then s.bus else ⟨r, d⟩

/-- A request of n bytes at a by master m is served by the on-chip SRAM at once: the master can make it, the tables allow it, the
memory is powered, nothing else waits and neither a lock nor a dump stands in its way (R341, R353–R358, R67). -/
def State.servesSram (s : State) (m a n : Nat) (write : Bool) : Bool :=
  !s.noRequest m && s.fabricIdle && s.lock.isNone && s.dump.isNone && widthOk n && a % n == 0 &&
  [1, 2, 3].contains (targetOf a) && s.allowed m (targetOf a) a n write &&
  s.domOn (if targetOf a = 3 then 7 + (a - 0x20000000) / 0x100000 / 8 else 5)

/-- The SRAM words of a request hold no error and no poison (R347, R348). -/
def State.clean (s : State) (a n : Nat) : Bool := (wordsOf a n).all fun w => !s.poisoned w && tget zeroAt s.sramErr w == 0

/-- Bytes that are neither in OBJ's configuration banks nor in its inbox (R343). -/
def plainArea (a n : Nat) : Bool := (List.range n).all fun i => decide (a + i < 0x11700000) || decide (0x11710000 ≤ a + i)

/-- A request of n bytes at a by master m is served by its DRAM channel at once: the tables allow it, the memory is powered, the
address is populated, the channel runs and the master's port is open (R355, R366, R374, R382). -/
def State.servesDram (s : State) (m a n : Nat) (write : Bool) : Bool :=
  !s.noRequest m && s.fabricIdle && targetOf a == 4 && widthOk n && a % n == 0 &&
  s.allowed m 4 a n write && s.domOn 13 && s.portOpen (regPort m) &&
  (match s.dramMap a with
    | some p => s.chanDo p.1 == .serve
    | none => false)

/-- The packet that a line launches at the boundary that began the current slot: the line at its packet whose last sample lies in the
sheet before, where the packet is whole (R148). -/
def State.launches (s : State) (l : TxLine) : Option TxLine :=
  let l := l.skip (l.ended (s.hsi - 6))
  if tQ l.rcd ≤ l.buf.length ∧ l.at0 + tQ l.rcd ≤ s.hsi then some l else none

/-- A line after that boundary: behind the packet that it launched. -/
def State.launched (s : State) (l : TxLine) : TxLine :=
  match s.launches l with
  | some l => l.skip 1
  | none => l.skip (l.ended (s.hsi - 6))

/-- The packets that a context launches: of the lines that end, then of the one in force. -/
def State.packets (s : State) (x : TxCtx) : List TxLine := (x.olds ++ x.cur.toList).filterMap s.launches

/-- The frames that TXS hands to port p at that boundary, in order: each packet with its sequence number, the timestamp of its first
sample and its samples as the network carries them (R145, R146, R148). -/
def State.frames (s : State) (p : Nat) : List MediaFrame :=
  s.tx.flatMap fun e => (s.packets e.2).flatMap fun l => ([0, 1].filter fun leg => tPort l.rcd leg == some p).map fun leg =>
    ⟨e.1, s.txFrame l.rcd leg p ((l.seqBase + l.idx) % 65536) (tz 32 (tM l.rcd * l.at0 + l.rcd.getD 2 0))
      ((l.buf.take (tQ l.rcd)).flatMap fun x => x.flatMap (netBytes (tBytes l.rcd)))⟩

/-- The register words that a domain reset leaves at their reset values: those of every page of the domains that DOM_RST may reset, but
for CONV's status, its event and what it shows of its sets, which follow at once (R300, R304, R453). -/
def clearedBy (v k : Nat) : Bool :=
  bitOf (v &&& 0x3FDC) (domainOf (keySrc k)) && decide (keySrc k < 96) &&
    !([0x8000C, 0x80010, 0x8008C, 0x80090, 0x80094, 0x800B0, 0x800B4, 0x800B8, 0x800BC].contains k)

/-- A boot record has its turn: the execute pass runs, no record is in progress, and the image, which does not lie in the fabric, spells
it next (R457, R458). -/
def State.spells (s : State) (i : Instr) : Bool :=
  s.recIdle && !s.boot.abort && s.get R.BOOT_RESULT_SOURCE != 2 && decide (s.get R.BOOT_REC_INDEX_INDEX + 1 < s.bootRecs) &&
  decide (recordCmd ((s.boot.image.drop s.boot.pos).take (leAt s.boot.image (s.boot.pos + 4) 4)) = some i)

/-- Engine e issues an instruction in sequence: no delay slot, repetition or loop stands there (R316–R319). -/
def State.plainIssue (s : State) (e : Nat) : Bool :=
  s.ieIssues e && (s.ie e).slots == 0 && (s.ie e).rep == 0 && (s.ie e).loops.isEmpty

/-- Engine state j follows i after an instruction in sequence whose results make l of the state in which the earlier results have
landed: the PC, the clock count and the hazard mark go on, nothing else changes (R316). -/
def IeSt.follows (i j l : IeSt) (hazard : Bool) : Prop :=
  j = { l with sp := j.sp, hazard := hazard, rep := 0, pc := (i.pc + 1) % 2 ^ 14 } ∧
  (∀ k, k ≠ spCYC → j.spec k = l.spec k) ∧ j.spec spCYC = (i.land.spec spCYC + 1) % 2 ^ 18

/-- The same where the results are one data register and the flags Z, N and V. -/
def IeSt.dataNext (i j : IeSt) (rd : Nat) : Prop :=
  j = { i.land with d := j.d, sp := j.sp, hazard := false, rep := 0, pc := (i.pc + 1) % 2 ^ 14 } ∧
  (∀ r, r ≠ rd → j.reg r = i.land.reg r) ∧ (∀ k, k ≠ spFL → k ≠ spCYC → j.spec k = i.land.spec k) ∧
  j.spec spFL / 8 = i.land.spec spFL / 8 ∧ j.spec spCYC = (i.land.spec spCYC + 1) % 2 ^ 18

/-- The same after an instruction of the branch class: delay slots, what follows them, the repetition, the loops and the return
address (R317–R320). -/
def IeSt.branched (i j : IeSt) (slots : Nat) (act : IeAct) (rep : Nat) (loops : List (Nat × Nat × Nat)) (ra : Nat) : Prop :=
  j = { i.land with sp := j.sp, hazard := false, slots := slots, act := act, rep := rep, loops := loops, pc := (i.pc + 1) % 2 ^ 14 } ∧
  (∀ k, k ≠ spRA → k ≠ spCYC → j.spec k = i.land.spec k) ∧ j.spec spRA = ra ∧ j.spec spCYC = (i.spec spCYC + 1) % 2 ^ 18

/-- Only engine e and the PC and STATUS registers of its page change, and it keeps its state. -/
def State.ieOnly (s t : State) (e : Nat) : Prop :=
  t = { s.regsOf t with ies := t.ies } ∧ (∀ f, f ≠ e → t.ie f = s.ie f) ∧
  s.keeps t [(R.IE_PC_PC.pg e).addr, (R.IE_S_STATE.pg e).addr] ∧ t.ieState e = s.ieState e

/-- The command completes, in a state for which P holds. -/
def Gives (c : Instr) (s : State) (P : State → Prop) : Prop := ∃ t, exec c s = .next t ∧ P t

/-- What EVT keeps over every step (R61, R62): it has seen each vector as it is now, and no message of an inactive vector is
pending. -/
def State.Inv (s : State) : Prop :=
  s.msix.active = s.vecActive ∧ ∀ e ∈ s.msix.pba, bitOf s.vecActive (e.1 % 32) = true

end Sys2Proof.Machine
end

