-- ==== Sys2Proof/Certificates/Slice0/Obligations.lean ====
section
/-! DEFINITION. The statements for the provers. -/

open Sys2Proof Sys2Proof.Machine

/-- A sheet boundary begins the next slot: the slot number, the HSI by six house samples and the phase; the measurement FIFO is taken. A stage that is ready starts on its next slot, any other does not, and a stage at work completes it and turns to the one after. The tree publishes every loudspeaker bus as the saturated sum of what the vats made for the slot, counting what saturates, and every auxiliary bus exact; a vat with no object makes nothing; ICB publishes the conditioned sheet of every channel of a synchronous context without FIR; OUT publishes zeros for an output whose mute has been carried out, and with EN 0 publishes nothing and counts a slot; these change no other sample. The receive cut-off closes the current sheet once; the send cut-off passes once in a slot; at the launch every context, in ascending order, turns to its next packet where the one in preparation is whole and its last sample has passed; with the gate open each such packet, with its sequence number and timestamp, is handed to the transmit buffer of its ports and counted for its legs, with the gate closed it is discarded and counted; packets of silence are counted; with EN 0 packets that have begun are passed over. Where the manual is silent it rests on the model's own choice or reading: log entries 2, 47 and 114. -/
def Obligations.SheetTiming : Prop :=
  (∀ (s : State), (s.awake) → Gives (.sheetBoundary) s fun t => t.slot = s.slot + 1 ∧ t.hsi = s.hsi + 6 ∧ t.cyc = 0 ∧ t.time.fifo = [] ∧ t.pending = s.pending) ∧
  (∀ (s : State), (!s.awake) → Gives (.sheetBoundary) s fun t => s.keeps t [] ∧ t = s.regsOf t) ∧
  (∀ (s : State) (x : Stage), (s.stageReady x) → Gives (.stageStart x) s fun t => t.stage (stageId x) = ⟨(s.stage (stageId x)).next, true⟩ ∧ t.slot = s.slot) ∧
  (∀ (s : State) (x : Stage), (!s.stageReady x) → Gives (.stageStart x) s fun t => s.keeps t [] ∧ t = s.regsOf t) ∧
  (∀ (s : State) (x : Stage), ((s.stage (stageId x)).busy) → (x ≠ .mix ∨ (s.stage (stageId x)).next < s.exchCut) → Gives (.stageComplete x) s fun t => t.stage (stageId x) = ⟨(s.stage (stageId x)).next + 1, false⟩ ∧ t.slot = s.slot) ∧
  (∀ (s : State) (x : Stage), (!(s.stage (stageId x)).busy || (x == .mix && decide (s.exchCut ≤ (s.stage (stageId x)).next))) → Gives (.stageComplete x) s fun t => s.keeps t [] ∧ t = s.regsOf t) ∧
  (∀ (s : State), (s.stageReady .tree) → (s.badWords = []) → (s.quiet) → Gives (.stageStart .tree) s fun t => ((List.range 512).all fun b => t.sheetOf aSpk b (s.stage (stageId .tree)).next == (s.busSum b (s.stage (stageId .tree)).next).map (satI 32)) ∧ ((List.range 64).all fun a => t.sheetOf aAuxSum a (s.stage (stageId .tree)).next == s.busSum (512 + a) (s.stage (stageId .tree)).next) ∧ (∀ k, k ∉ ((List.range 512).map (fun b => aKey aSpk b (s.stage (stageId .tree)).next) ++ (List.range 64).map fun a => aKey aAuxSum a (s.stage (stageId .tree)).next) → tget silence t.audio k = tget silence s.audio k) ∧ ((List.range 512).all fun b => t.n (winKey 33 4 b) == (s.n (winKey 33 4 b) + ((s.busSum b (s.stage (stageId .tree)).next).filter (ovfI 32)).length) % 2 ^ 32) ∧ t.stage (stageId .tree) = ⟨(s.stage (stageId .tree)).next, true⟩ ∧ t = { s.regsOf t with audio := t.audio, stages := t.stages }) ∧
  (∀ (s : State) (v : Fin 32), (s.stageReady (.vat v)) → (s.badWords = []) → (s.vatObjs v.val (s.stage (stageId (.vat v))).next = []) → (s.objsGone (s.stage (stageId (.vat v))).next = []) → Gives (.stageStart (.vat v)) s fun t => tget (fun _ => []) t.partials ((s.stage (stageId (.vat v))).next * 32 + v.val) = [] ∧ (∀ k, k ≠ (s.stage (stageId (.vat v))).next * 32 + v.val → (s.stage (stageId (.vat v))).next ≤ k / 32 + 2 → tget (fun _ => []) t.partials k = tget (fun _ => []) s.partials k) ∧ t.audio = s.audio ∧ t.stage (stageId (.vat v)) = ⟨(s.stage (stageId (.vat v))).next, true⟩) ∧
  (∀ (s : State) (k : Nat) (r cs : List Nat), (s.stageReady .icb) → (s.badWords = []) → (s.is R.ICB0_C_EN) → (s.icbSources = [(k, r, cs)]) → (rSync r) → (cs.Nodup) → (cs.all fun c => (chFir (s.icbCh 1 c)).isNone) → (s.icbIdle cs = []) → ((s.stage (stageId .icb)).next < 2 ^ 64) → (s.icbN + 1 < 2 ^ 64) → Gives (.stageStart .icb) s fun t => (cs.all fun c => t.sheetOf aInput c (s.stage (stageId .icb)).next == padTo 6 (s.dcBlock c (s.rateSync c (rEcond r) (s.stage (stageId .icb)).next).1).1) ∧ (∀ k, k ∉ (cs.flatMap fun c => [aKey aInput c (s.stage (stageId .icb)).next, aKey aDc c (s.icbN + 1)]) → tget silence t.audio k = tget silence s.audio k) ∧ t.icbN = s.icbN + 1 ∧ t.stage (stageId .icb) = ⟨(s.stage (stageId .icb)).next, true⟩) ∧
  (∀ (s : State), (s.stageReady .out) → (s.badWords = []) → (s.is R.OUT0_C_EN) → (s.quiet) → Gives (.stageStart .out) s fun t => ((List.range 512).all fun o => t.mapBit 0x790C0 o == (s.is R.OUT0_C_MUTE_ALL || s.mapBit 0x79080 o)) ∧ ((List.range 512).all fun o => !((s.is R.OUT0_C_MUTE_ALL || s.mapBit 0x79080 o) && s.mapBit 0x790C0 o) || t.sheetOf aResult o (s.stage (stageId .out)).next == padTo 6 []) ∧ t.stage (stageId .out) = ⟨(s.stage (stageId .out)).next, true⟩) ∧
  (∀ (s : State), (s.stageReady .out) → (!s.is R.OUT0_C_EN) → Gives (.stageStart .out) s fun t => t.stage (stageId .out) = ⟨(s.stage (stageId .out)).next, true⟩ ∧ t.outs = { s.outs with skipped := s.outs.skipped + 1 } ∧ s.keeps t [] ∧ t = { s.regsOf t with outs := t.outs, stages := t.stages }) ∧
  (∀ (s : State), (s.rxCut < (s.sheet : Int)) → Gives (.receiveCutOff) s fun t => t.rxCut = (s.sheet : Int) ∧ t.mem = s.mem ∧ t.slot = s.slot ∧ ((!s.pageOn eRXS) = true → s.keeps t [] ∧ t = { s.regsOf t with rxCut := t.rxCut })) ∧
  (∀ (s : State), (s.sendCut ≤ s.slot) → Gives (.sendCutOff) s fun t => t.sendCut = s.slot + 1 ∧ t.mem = s.mem ∧ ((!s.pageOn eTXS) = true → s.keeps t [] ∧ t = { s.regsOf t with sendCut := t.sendCut })) ∧
  (∀ (s : State), (s.pageOn eTXS) → (s.is R.TXS0_C_EN) → (!s.is R.TXS0_S_GATE_OPEN) → ((s.tx.map Prod.fst).Nodup) → (!s.badWords.any packetRead.holds) → Gives (.packetLaunch) s fun t => (∀ e ∈ s.tx, t.txCtx e.1 = { e.2 with cur := e.2.cur.map s.launched, olds := (e.2.olds.map s.launched).filter fun l => !l.over }) ∧ (s.tx.all fun e => t.n (txKey e.1 7) == (s.n (txKey e.1 7) + (s.packets e.2).length) % 2 ^ 32) ∧ (s.tx.all fun e => t.n (txKey e.1 8) == (s.n (txKey e.1 8) + (s.packets e.2).countP fun l => (l.sil.take (tQ l.rcd)).any id) % 2 ^ 32) ∧ s.keeps t (s.tx.flatMap fun e => [txKey e.1 7, txKey e.1 8] ++ [0xA00AC, 0xA00B0]) ∧ t = { s.regsOf t with tx := t.tx }) ∧
  (∀ (s : State), (s.pageOn eTXS) → (s.is R.TXS0_C_EN) → (s.is R.TXS0_S_GATE_OPEN) → ((s.tx.map Prod.fst).Nodup) → (!s.badWords.any packetRead.holds) → (s.macs.length = 4) → ((List.range 4).all fun p => s.portOn p && decide (s.txBuffered p + ((s.frames p).map fun f => f.bytes.length + 4).sum ≤ 98304)) → Gives (.packetLaunch) s fun t => (∀ e ∈ s.tx, t.txCtx e.1 = { e.2 with cur := e.2.cur.map s.launched, olds := (e.2.olds.map s.launched).filter fun l => !l.over }) ∧ ((List.range 4).all fun p => (t.mac p).media == (s.mac p).media ++ s.frames p) ∧ ((List.range 4).all fun p => { t.mac p with media := [] } == { s.mac p with media := [] }) ∧ (s.tx.all fun e => [0, 1].all fun leg => t.n (txKey e.1 (4 + leg)) == (s.n (txKey e.1 (4 + leg)) + (s.packets e.2).countP fun l => (tPort l.rcd leg).isSome) % 2 ^ 32) ∧ (s.tx.all fun e => t.n (txKey e.1 7) == (s.n (txKey e.1 7) + 0) % 2 ^ 32) ∧ (s.tx.all fun e => t.n (txKey e.1 8) == (s.n (txKey e.1 8) + (s.packets e.2).countP fun l => (l.sil.take (tQ l.rcd)).any id) % 2 ^ 32) ∧ s.keeps t (s.tx.flatMap fun e => [txKey e.1 4, txKey e.1 5, txKey e.1 8] ++ [0xA00AC, 0xA00B0]) ∧ t = { s.regsOf t with tx := t.tx, macs := t.macs }) ∧
  (∀ (s : State), (s.pageOn eTXS) → (!s.is R.TXS0_C_EN) → ((s.tx.map Prod.fst).Nodup) → Gives (.packetLaunch) s fun t => (∀ e ∈ s.tx, t.txCtx e.1 = { e.2 with cur := e.2.cur.map fun l => l.skip (l.before s.hsi), olds := (e.2.olds.map fun l => l.skip (l.before s.hsi)).filter fun l => !l.over }) ∧ s.keeps t [] ∧ t = { s.regsOf t with tx := t.tx }) ∧
  (∀ (s : State), (!s.pageOn eTXS) → Gives (.packetLaunch) s fun t => s.keeps t [] ∧ t = s.regsOf t)

/-- A step runs the command at the front of the queue; what an empty queue does is the model's choice (log entry 1). -/
def Obligations.StepRunsTheFrontCommand : Prop :=
  (∀ (s : State) (c : Instr) (rest : List Instr), s.pending = c :: rest → step s = exec c { s with pending := rest }) ∧
  (∀ s : State, s.pending = [] → step s = .next s.tick)

/-- A 32-bit write to a register that is no command, no half of a pair and no LOCK leaves the merge of the written word with the old one in all its copies, changes no other word and answers OK; guarded bits stay for a non-secure master, and the write is logged as GUARD_HIT. Refused without effect: a write that would change an RWL bit of a locked page, with TERR and LOCK_VIOLATION; an access to a page whose domain is off, with TERR, and one where no page is, with DERR, both logged; a misaligned access and a narrow write, with TERR. A read of 8, 16 or 32 bits returns the addressed lanes of the stored word. Where the manual is silent it rests on the model's own choice or reading: log entry 14. -/
def Obligations.RegisterWriteMerges : Prop :=
  (∀ (s : State) (m : Master) (a : Addr) (v : Word) (l : Loc), (s.stores m.toNat a.toNat l v) → (hidden m.toNat (some l) = 0) → Gives (.registerWrite m a 4 v) s fun t => t.w l.key = mergeWrite (s.majW l.key) v l.spec 0 ∧ (l.spec.tmr ≠ 0 → tget zeroAt t.tmrA l.key = 0 ∧ tget zeroAt t.tmrB l.key = 0) ∧ (l.spec.tmr = 0 → t.tmrA = s.tmrA ∧ t.tmrB = s.tmrB) ∧ (∀ k, k ≠ l.key → tget zeroAt t.tmrA k = tget zeroAt s.tmrA k ∧ tget zeroAt t.tmrB k = tget zeroAt s.tmrB k) ∧ t.bus = s.told m.toNat .ok [] ∧ s.keeps t [l.key] ∧ t = { s.regsOf t with bus := t.bus, tmrA := t.tmrA, tmrB := t.tmrB }) ∧
  (∀ (s : State) (m : Master) (a : Addr) (v : Word) (l : Loc), (s.stores m.toNat a.toNat l v) → (hidden m.toNat (some l) ≠ 0) → (s.quiet) → (s.pageOn eFAB) → (srcOf a.toNat ≠ some eFAB) → Gives (.registerWrite m a 4 v) s fun t => t.w l.key = mergeWrite (s.majW l.key) v l.spec (hidden m.toNat (some l)) ∧ t.hasEvent eFAB 3 = true ∧ t.n 0xA0090 = a.toNat % 2 ^ 24 ∧ (l.spec.tmr ≠ 0 → tget zeroAt t.tmrA l.key = 0 ∧ tget zeroAt t.tmrB l.key = 0) ∧ (l.spec.tmr = 0 → t.tmrA = s.tmrA ∧ t.tmrB = s.tmrB) ∧ (∀ k, k ≠ l.key → tget zeroAt t.tmrA k = tget zeroAt s.tmrA k ∧ tget zeroAt t.tmrB k = tget zeroAt s.tmrB k) ∧ t.bus = s.told m.toNat .ok [] ∧ s.keeps t [l.key, 0xA0090, 0xA0094, R.FAB_GUARD_CNT_COUNT.addr, evKey eFAB] ∧ t = { s.regsOf t with bus := t.bus, tmrA := t.tmrA, tmrB := t.tmrB }) ∧
  (∀ (s : State) (m : Master) (a : Addr) (src : Nat) (v : Word) (l : Loc), (s.sees m.toNat a.toNat true) → (srcOf a.toNat = some src) → (s.locate m.toNat a.toNat = some l) → ((s.pairLow a.toNat).isNone) → (a.toNat % 0x1000 ≠ 0x1C) → (hidden m.toNat (some l) = 0) → (s.rwlRefused src (some l) 0 v) → (s.quiet) → Gives (.registerWrite m a 4 v) s fun t => t.hasEvent src 31 = true ∧ t.bus = s.told m.toNat .terr [] ∧ s.keeps t [evKey src] ∧ t = { s.regsOf t with bus := t.bus }) ∧
  (∀ (s : State) (m : Master) (a : Addr) (src : Nat) (v : Word), (s.comes m.toNat a.toNat 4) → (a.toNat % 4 = 0) → (srcOf a.toNat = some src) → (s.allowed m.toNat 0 a.toNat 4 true) → (!s.pageOn src) → (s.quiet) → Gives (.registerWrite m a 4 v) s fun t => t.bus = s.told m.toNat .terr [] ∧ (s.pageOn eFAB → t.hasEvent eFAB 1 = true ∧ t.n 0xA0088 = m.toNat % 128 + 1 * 2 ^ 8 + 1 * 2 ^ 9 + 0 * 2 ^ 12) ∧ s.keeps t [0xA0080, 0xA0084, 0xA0088, R.FAB_ERR_CNT_COUNT.addr, evKey eFAB] ∧ t = { s.regsOf t with bus := t.bus }) ∧
  (∀ (s : State) (m : Master) (a : Addr) (n src : Nat), (s.comes m.toNat a.toNat n) → (a.toNat % n = 0) → (srcOf a.toNat = some src) → (s.allowed m.toNat 0 a.toNat n false) → (!s.pageOn src) → (s.quiet) → Gives (.tmrRead m a n) s fun t => t.bus = s.told m.toNat .terr [0, 0, 0, 0] ∧ (s.pageOn eFAB → t.hasEvent eFAB 1 = true ∧ t.n 0xA0088 = m.toNat % 128 + 0 * 2 ^ 8 + 1 * 2 ^ 9 + 0 * 2 ^ 12) ∧ s.keeps t [0xA0080, 0xA0084, 0xA0088, R.FAB_ERR_CNT_COUNT.addr, evKey eFAB] ∧ t = { s.regsOf t with bus := t.bus }) ∧
  (∀ (s : State) (m : Master) (a : Addr) (v : Word), (s.comes m.toNat a.toNat 4) → (a.toNat % 4 = 0) → (srcOf a.toNat = none) → (s.quiet) → Gives (.registerWrite m a 4 v) s fun t => t.bus = s.told m.toNat .derr [] ∧ (s.pageOn eFAB → t.hasEvent eFAB 0 = true ∧ t.n 0xA0088 = m.toNat % 128 + 1 * 2 ^ 8 + 0 * 2 ^ 9 + 7 * 2 ^ 12) ∧ s.keeps t [0xA0080, 0xA0084, 0xA0088, R.FAB_ERR_CNT_COUNT.addr, evKey eFAB] ∧ t = { s.regsOf t with bus := t.bus }) ∧
  (∀ (s : State) (m : Master) (a : Addr) (n : Nat), (s.comes m.toNat a.toNat n) → (a.toNat % n = 0) → (srcOf a.toNat = none) → (s.quiet) → Gives (.tmrRead m a n) s fun t => t.bus = s.told m.toNat .derr [0, 0, 0, 0] ∧ (s.pageOn eFAB → t.hasEvent eFAB 0 = true ∧ t.n 0xA0088 = m.toNat % 128 + 0 * 2 ^ 8 + 0 * 2 ^ 9 + 7 * 2 ^ 12) ∧ s.keeps t [0xA0080, 0xA0084, 0xA0088, R.FAB_ERR_CNT_COUNT.addr, evKey eFAB] ∧ t = { s.regsOf t with bus := t.bus }) ∧
  (∀ (s : State) (m : Master) (a : Addr) (n : Nat) (v : Word), (s.comes m.toNat a.toNat n) → (a.toNat % n ≠ 0) → Gives (.registerWrite m a n v) s fun t => t.bus = s.told m.toNat .terr [] ∧ s.keeps t [] ∧ t = { s.regsOf t with bus := t.bus }) ∧
  (∀ (s : State) (m : Master) (a : Addr) (n : Nat) (v : Word), (s.reaches m.toNat a.toNat n true) → (n < 4) → Gives (.registerWrite m a n v) s fun t => t.bus = s.told m.toNat .terr [] ∧ s.keeps t [] ∧ t = { s.regsOf t with bus := t.bus }) ∧
  (∀ (s : State) (m : Master) (a : Addr) (n : Nat) (l : Loc), (s.shows m.toNat a.toNat n l) → (tget zeroAt s.tmrA l.key = 0) → (tget zeroAt s.tmrB l.key = 0) → Gives (.tmrRead m a n) s fun t => t.bus = s.told m.toNat .ok (lanes (s.w l.key) a.toNat n) ∧ s.keeps t [] ∧ t = { s.regsOf t with bus := t.bus })

/-- The low read captures the high half and tags the latch, a matching high read returns the captured half and clears the tag, a low write is held and changes no word, a matching high write commits what the rules leave of both halves, of any pair that is no command, and clears the tag, and a 64-bit write commits both at once; bits that are guarded from the master stay, and the access is logged as GUARD_HIT once. A 64-bit read of a pair answers both halves and leaves the latch; a 64-bit access to two registers that are no pair is one to each. A posted PCIe write of any number of words to registers that are no commands, no halves of a pair and no selectors writes each word at its address and nothing else; a PCIe read of registers is answered with their words in order. Where the manual is silent it rests on the model's own choice or reading: log entry 115. -/
def Obligations.PairAndBurstAccesses : Prop :=
  (∀ (s : State) (m : Master) (a : Addr) (src : Nat), (s.sees m.toNat a.toNat false) → (srcOf a.toNat = some src) → (s.pairLow a.toNat = some a.toNat) → (hidden m.toNat (s.locate m.toNat a.toNat) = 0) → (a.toNat % 8 = 0) → Gives (.pairLowRead m a) s fun t => t.pairTag src = some ⟨src, m.toNat, a.toNat, false, ((s.readRaw src m.toNat a.toNat).2.readRaw src m.toNat (a.toNat + 4)).1⟩ ∧ t.bus = s.told m.toNat .ok (leBytes 4 (s.readRaw src m.toNat a.toNat).1.toNat) ∧ t.mem = s.mem) ∧
  (∀ (s : State) (m : Master) (a : Addr) (src lo : Nat) (h : Word), (s.sees m.toNat a.toNat false) → (srcOf a.toNat = some src) → (s.pairLow a.toNat = some lo) → (a.toNat = lo + 4) → (lo % 8 = 0) → (hidden m.toNat (s.locate m.toNat a.toNat) = 0) → (s.pairTag src = some ⟨src, m.toNat, lo, false, h⟩) → Gives (.pairHighRead m a) s fun t => t.pairTag src = none ∧ t.bus = s.told m.toNat .ok (leBytes 4 h.toNat) ∧ t.mem = s.mem) ∧
  (∀ (s : State) (m : Master) (a : Addr) (src : Nat) (v : Word), (s.sees m.toNat a.toNat true) → (srcOf a.toNat = some src) → (s.pairLow a.toNat = some a.toNat) → (a.toNat % 0x1000 ≠ 0x1C) → (hidden m.toNat (s.locate m.toNat a.toNat) = 0) → Gives (.pairLowWrite m a v) s fun t => t.pairTag src = some ⟨src, m.toNat, a.toNat, true, v⟩ ∧ t.words = s.words ∧ t.bus = s.told m.toNat .ok [] ∧ s.keeps t [] ∧ t = { s.regsOf t with bus := t.bus, pairs := t.pairs }) ∧
  (∀ (s : State) (m : Master) (a lo : Addr) (src : Nat) (v w : Word) (l h : Loc), (s.sees m.toNat a.toNat true) → (a.toNat = lo.toNat + 4) → (srcOf a.toNat = some src) → (s.pairStores m.toNat src lo.toNat l h v w) → (s.pairTag src = some ⟨src, m.toNat, lo.toNat, true, v⟩) → ((hidden m.toNat (some l)) = 0) → ((hidden m.toNat (some h)) = 0) → Gives (.pairHighWrite m a w) s fun t => t.w l.key = mergeWrite (s.majW l.key) v l.spec (hidden m.toNat (some l)) ∧ t.w h.key = mergeWrite (s.majW h.key) w h.spec (hidden m.toNat (some h)) ∧ t.pairTag src = none ∧ (t.pairs = s.pairs.filter fun x => x.page != src) ∧ (l.spec.tmr ≠ 0 → tget zeroAt t.tmrA l.key = 0 ∧ tget zeroAt t.tmrB l.key = 0) ∧ (h.spec.tmr ≠ 0 → tget zeroAt t.tmrA h.key = 0 ∧ tget zeroAt t.tmrB h.key = 0) ∧ (l.spec.tmr = 0 → tget zeroAt t.tmrA l.key = tget zeroAt s.tmrA l.key ∧ tget zeroAt t.tmrB l.key = tget zeroAt s.tmrB l.key) ∧ (h.spec.tmr = 0 → tget zeroAt t.tmrA h.key = tget zeroAt s.tmrA h.key ∧ tget zeroAt t.tmrB h.key = tget zeroAt s.tmrB h.key) ∧ (∀ k, k ≠ l.key → k ≠ h.key → tget zeroAt t.tmrA k = tget zeroAt s.tmrA k ∧ tget zeroAt t.tmrB k = tget zeroAt s.tmrB k) ∧ t.bus = s.told m.toNat .ok [] ∧ s.keeps t [l.key, h.key] ∧ t = { s.regsOf t with bus := t.bus, pairs := t.pairs, tmrA := t.tmrA, tmrB := t.tmrB }) ∧
  (∀ (s : State) (m : Master) (lo : Addr) (src : Nat) (v : BitVec 64) (l h : Loc), (s.sees m.toNat lo.toNat true) → (s.allowed m.toNat 0 lo.toNat 8 true) → (lo.toNat % 8 = 0) → (srcOf lo.toNat = some src) → (s.pairStores m.toNat src lo.toNat l h (lo32 v.toNat) (hi32 v.toNat)) → ((hidden m.toNat (some l)) = 0) → ((hidden m.toNat (some h)) = 0) → Gives (.access64 m lo true v) s fun t => t.w l.key = mergeWrite (s.majW l.key) (lo32 v.toNat) l.spec (hidden m.toNat (some l)) ∧ t.w h.key = mergeWrite (s.majW h.key) (hi32 v.toNat) h.spec (hidden m.toNat (some h)) ∧ (l.spec.tmr ≠ 0 → tget zeroAt t.tmrA l.key = 0 ∧ tget zeroAt t.tmrB l.key = 0) ∧ (h.spec.tmr ≠ 0 → tget zeroAt t.tmrA h.key = 0 ∧ tget zeroAt t.tmrB h.key = 0) ∧ (l.spec.tmr = 0 → tget zeroAt t.tmrA l.key = tget zeroAt s.tmrA l.key ∧ tget zeroAt t.tmrB l.key = tget zeroAt s.tmrB l.key) ∧ (h.spec.tmr = 0 → tget zeroAt t.tmrA h.key = tget zeroAt s.tmrA h.key ∧ tget zeroAt t.tmrB h.key = tget zeroAt s.tmrB h.key) ∧ (∀ k, k ≠ l.key → k ≠ h.key → tget zeroAt t.tmrA k = tget zeroAt s.tmrA k ∧ tget zeroAt t.tmrB k = tget zeroAt s.tmrB k) ∧ t.bus = s.told m.toNat .ok [] ∧ s.keeps t [l.key, h.key] ∧ t = { s.regsOf t with bus := t.bus, tmrA := t.tmrA, tmrB := t.tmrB }) ∧
  (∀ (s : State) (m : Master) (a lo : Addr) (src : Nat) (v w : Word) (l h : Loc), (s.sees m.toNat a.toNat true) → (a.toNat = lo.toNat + 4) → (srcOf a.toNat = some src) → (s.pairStores m.toNat src lo.toNat l h v w) → (s.pairTag src = some ⟨src, m.toNat, lo.toNat, true, v⟩) → ((hidden m.toNat (some l)) ≠ 0 ∨ (hidden m.toNat (some h)) ≠ 0) → (s.quiet) → (s.pageOn eFAB) → ([l.key, h.key].all fun k => [0xA0090, 0xA0094, R.FAB_GUARD_CNT_COUNT.addr, evKey eFAB].contains k == false) → Gives (.pairHighWrite m a w) s fun t => t.w l.key = mergeWrite (s.majW l.key) v l.spec (hidden m.toNat (some l)) ∧ t.w h.key = mergeWrite (s.majW h.key) w h.spec (hidden m.toNat (some h)) ∧ t.pairTag src = none ∧ (t.pairs = s.pairs.filter fun x => x.page != src) ∧ (l.spec.tmr ≠ 0 → tget zeroAt t.tmrA l.key = 0 ∧ tget zeroAt t.tmrB l.key = 0) ∧ (h.spec.tmr ≠ 0 → tget zeroAt t.tmrA h.key = 0 ∧ tget zeroAt t.tmrB h.key = 0) ∧ (l.spec.tmr = 0 → tget zeroAt t.tmrA l.key = tget zeroAt s.tmrA l.key ∧ tget zeroAt t.tmrB l.key = tget zeroAt s.tmrB l.key) ∧ (h.spec.tmr = 0 → tget zeroAt t.tmrA h.key = tget zeroAt s.tmrA h.key ∧ tget zeroAt t.tmrB h.key = tget zeroAt s.tmrB h.key) ∧ (∀ k, k ≠ l.key → k ≠ h.key → tget zeroAt t.tmrA k = tget zeroAt s.tmrA k ∧ tget zeroAt t.tmrB k = tget zeroAt s.tmrB k) ∧ t.hasEvent eFAB 3 = true ∧ t.n 0xA0090 = lo.toNat % 2 ^ 24 ∧ t.bus = s.told m.toNat .ok [] ∧ s.keeps t [l.key, h.key, 0xA0090, 0xA0094, R.FAB_GUARD_CNT_COUNT.addr, evKey eFAB] ∧ t = { s.regsOf t with bus := t.bus, pairs := t.pairs, tmrA := t.tmrA, tmrB := t.tmrB }) ∧
  (∀ (s : State) (m : Master) (lo : Addr) (src : Nat) (v : BitVec 64) (l h : Loc), (s.sees m.toNat lo.toNat true) → (s.allowed m.toNat 0 lo.toNat 8 true) → (lo.toNat % 8 = 0) → (srcOf lo.toNat = some src) → (s.pairStores m.toNat src lo.toNat l h (lo32 v.toNat) (hi32 v.toNat)) → ((hidden m.toNat (some l)) ≠ 0 ∨ (hidden m.toNat (some h)) ≠ 0) → (s.quiet) → (s.pageOn eFAB) → ([l.key, h.key].all fun k => [0xA0090, 0xA0094, R.FAB_GUARD_CNT_COUNT.addr, evKey eFAB].contains k == false) → Gives (.access64 m lo true v) s fun t => t.w l.key = mergeWrite (s.majW l.key) (lo32 v.toNat) l.spec (hidden m.toNat (some l)) ∧ t.w h.key = mergeWrite (s.majW h.key) (hi32 v.toNat) h.spec (hidden m.toNat (some h)) ∧ (l.spec.tmr ≠ 0 → tget zeroAt t.tmrA l.key = 0 ∧ tget zeroAt t.tmrB l.key = 0) ∧ (h.spec.tmr ≠ 0 → tget zeroAt t.tmrA h.key = 0 ∧ tget zeroAt t.tmrB h.key = 0) ∧ (l.spec.tmr = 0 → tget zeroAt t.tmrA l.key = tget zeroAt s.tmrA l.key ∧ tget zeroAt t.tmrB l.key = tget zeroAt s.tmrB l.key) ∧ (h.spec.tmr = 0 → tget zeroAt t.tmrA h.key = tget zeroAt s.tmrA h.key ∧ tget zeroAt t.tmrB h.key = tget zeroAt s.tmrB h.key) ∧ (∀ k, k ≠ l.key → k ≠ h.key → tget zeroAt t.tmrA k = tget zeroAt s.tmrA k ∧ tget zeroAt t.tmrB k = tget zeroAt s.tmrB k) ∧ t.hasEvent eFAB 3 = true ∧ t.n 0xA0090 = lo.toNat % 2 ^ 24 ∧ t.bus = s.told m.toNat .ok [] ∧ s.keeps t [l.key, h.key, 0xA0090, 0xA0094, R.FAB_GUARD_CNT_COUNT.addr, evKey eFAB] ∧ t = { s.regsOf t with bus := t.bus, tmrA := t.tmrA, tmrB := t.tmrB }) ∧
  (∀ (s : State) (m : Master) (a : Addr) (src : Nat), (s.sees m.toNat a.toNat false) → (s.allowed m.toNat 0 a.toNat 8 false) → (a.toNat % 8 = 0) → (srcOf a.toNat = some src) → (s.pairLow a.toNat = some a.toNat) → (hidden m.toNat (s.locate m.toNat a.toNat) = 0) → (hidden m.toNat (s.locate m.toNat (a.toNat + 4)) = 0) → (¬ (42 ≤ src ∧ src ≤ 49)) → Gives (.access64 m a false 0) s fun t => t.bus = s.told m.toNat .ok (leBytes 4 (s.readRaw src m.toNat a.toNat).1.toNat ++ leBytes 4 ((s.readRaw src m.toNat a.toNat).2.readRaw src m.toNat (a.toNat + 4)).1.toNat) ∧ t.pairs = s.pairs ∧ t.mem = s.mem) ∧
  (∀ (s : State) (m : Master) (a : Addr) (v : BitVec 64) (l h : Loc), (s.storesPart m.toNat a.toNat l (lo32 v.toNat)) → (s.storesPart m.toNat (a.toNat + 4) h (hi32 v.toNat)) → (s.allowed m.toNat 0 a.toNat 8 true) → (a.toNat % 8 = 0) → (l.key ≠ h.key) → Gives (.access64 m a true v) s fun t => t.w l.key = mergeWrite (s.majW l.key) (lo32 v.toNat) l.spec 0 ∧ t.w h.key = mergeWrite (s.majW h.key) (hi32 v.toNat) h.spec 0 ∧ (l.spec.tmr ≠ 0 → tget zeroAt t.tmrA l.key = 0 ∧ tget zeroAt t.tmrB l.key = 0) ∧ (h.spec.tmr ≠ 0 → tget zeroAt t.tmrA h.key = 0 ∧ tget zeroAt t.tmrB h.key = 0) ∧ (l.spec.tmr = 0 → tget zeroAt t.tmrA l.key = tget zeroAt s.tmrA l.key ∧ tget zeroAt t.tmrB l.key = tget zeroAt s.tmrB l.key) ∧ (h.spec.tmr = 0 → tget zeroAt t.tmrA h.key = tget zeroAt s.tmrA h.key ∧ tget zeroAt t.tmrB h.key = tget zeroAt s.tmrB h.key) ∧ (∀ k, k ≠ l.key → k ≠ h.key → tget zeroAt t.tmrA k = tget zeroAt s.tmrA k ∧ tget zeroAt t.tmrB k = tget zeroAt s.tmrB k) ∧ t.bus = s.told m.toNat .ok [] ∧ s.keeps t [l.key, h.key] ∧ t = { s.regsOf t with bus := t.bus, tmrA := t.tmrA, tmrB := t.tmrB }) ∧
  (∀ (s : State) (m : Master) (a : Addr) (l h : Loc), (s.shows m.toNat a.toNat 4 l) → (s.shows m.toNat (a.toNat + 4) 4 h) → (s.allowed m.toNat 0 a.toNat 8 false) → (a.toNat % 8 = 0) → (!s.disagrees l) → (!s.disagrees h) → Gives (.access64 m a false 0) s fun t => t.bus = s.told m.toNat .ok (leBytes 4 (s.w l.key).toNat ++ leBytes 4 (s.w h.key).toNat) ∧ s.keeps t [] ∧ t = { s.regsOf t with bus := t.bus }) ∧
  (∀ (s : State) (fn : Fin 2) (a : Addr) (vs : List Word) (ls : List Loc), (vs ≠ []) → (ls.length = vs.length) → ((ls.map Loc.key).Nodup) → ((vs.zip ls).zipIdx.all fun x => s.storesPart fn.val (a.toNat + 4 * x.2) x.1.2 x.1.1) → Gives (.pcieRegisterBurst fn a true vs) s fun t => ((vs.zip ls).all fun x => t.w x.2.key == mergeWrite (s.majW x.2.key) x.1 x.2.spec 0) ∧ (ls.all fun l => l.spec.tmr == 0 || (tget zeroAt t.tmrA l.key == 0 && tget zeroAt t.tmrB l.key == 0)) ∧ (∀ k, (∀ l ∈ ls, l.key = k → l.spec.tmr = 0) → tget zeroAt t.tmrA k = tget zeroAt s.tmrA k ∧ tget zeroAt t.tmrB k = tget zeroAt s.tmrB k) ∧ s.keeps t (ls.map Loc.key) ∧ t = { s.regsOf t with tmrA := t.tmrA, tmrB := t.tmrB }) ∧
  (∀ (s : State) (fn : Fin 2) (a : Addr) (n : Nat) (ls : List Loc), (n ≠ 0) → (ls.length = n) → (ls.zipIdx.all fun x => s.shows fn.val (a.toNat + 4 * x.2) 4 x.1 && !s.disagrees x.1) → Gives (.pcieRegisterBurst fn a false (List.replicate n 0)) s fun t => t.bus = ⟨.ok, ls.flatMap fun l => leBytes 4 (s.w l.key).toNat⟩ ∧ s.keeps t [] ∧ t = { s.regsOf t with bus := t.bus })

/-- EVENT_CLEAR clears the bits written but those whose cause occurs in the same cycle; EVENT_SET sets the page's bits; the key locks a page; THAW returns the page's counter view to live values; no other word changes. A read of a triplicated register whose copies disagree answers the majority, and it and the background walk over it leave all three copies at the majority; either adds the fields corrected to SYS.TMR_FIX_CNT, shows the source and offset of the register in TMR_FIX_LAST and latches TMR_FIX of its page, and changes no other word. Where the manual is silent it rests on the model's own choice or reading: log entry 15. -/
def Obligations.EventAndTriplicatedRegisters : Prop :=
  (∀ (s : State) (m : Master) (page : Fin 4096) (src : Nat) (mask same : Word), (src ∈ allSources) → (pageBase src = page.val * 0x1000) → (s.takes m.toNat (evKey src)) → (tget zeroAt s.tmrA (evKey src) = 0) → Gives (.eventClear m page mask same) s fun t => t.w (evKey src) = s.w (evKey src) &&& ~~~(mask &&& ~~~same &&& w32 (evBits src)) ∧ t.bus = s.told m.toNat .ok [] ∧ s.keeps t [evKey src] ∧ t = { s.regsOf t with bus := t.bus }) ∧
  (∀ (s : State) (m : Master) (page : Fin 4096) (src : Nat) (mask : Word), (src ∈ allSources) → (pageBase src = page.val * 0x1000) → (s.takes m.toNat (pageBase src + 0x18)) → (s.majW (pageBase src + 0x18) = s.w (pageBase src + 0x18)) → Gives (.eventSet m page mask) s fun t => t.w (evKey src) = s.w (evKey src) ||| (mask &&& w32 (evBits src)) ∧ t.bus = s.told m.toNat .ok [] ∧ s.keeps t [evKey src] ∧ t = { s.regsOf t with bus := t.bus }) ∧
  (∀ (s : State) (m : Master) (page : Fin 4096) (src : Nat), (src ∈ allSources) → (pageBase src = page.val * 0x1000) → (s.sees m.toNat (pageBase src + 0x1C) true) → (!s.locked src) → Gives (.lockWrite m page 0x4C4F434B) s fun t => t.locked src = true ∧ t.bus = s.told m.toNat .ok [] ∧ s.keeps t [pageBase src + 0x1C] ∧ t = { s.regsOf t with bus := t.bus, tmrA := t.tmrA, tmrB := t.tmrB }) ∧
  (∀ (s : State) (m : Master) (page : Fin 4096) (src : Nat) (v : Word), (src ∈ allSources) → (pageBase src = page.val * 0x1000) → (s.takes m.toNat (pageBase src + 0x20)) → (bitOf v.toNat 2) → Gives (.snapThaw m page v) s fun t => t.isFrozen src = false ∧ (t.frozen.all fun e => keySrc e.1 != src) ∧ t.bus = s.told m.toNat .ok [] ∧ s.keeps t [pageBase src + 0x20] ∧ t = { s.regsOf t with bus := t.bus, frozen := t.frozen }) ∧
  (∀ (s : State) (m : Master) (a : Addr) (src : Nat) (l : Loc), (srcOf a.toNat = some src) → (l.key ≠ evKey src) → (s.shows m.toNat a.toNat 4 l) → (s.disagrees l) → (s.quiet) → (l.key ≠ R.SYS_TMR_FIX_CNT_COUNT.addr) → (l.key ≠ R.SYS_TMR_FIX_LAST_SOURCE.addr) → (l.key ≠ R.SNAP_TRIG_EN_EN.addr) → Gives (.tmrRead m a 4) s fun t => t.bus = s.told m.toNat .ok (leBytes 4 (s.majW l.key).toNat) ∧ t.w l.key = s.majW l.key ∧ tget zeroAt t.tmrA l.key = 0 ∧ tget zeroAt t.tmrB l.key = 0 ∧ t.get R.SYS_TMR_FIX_CNT_COUNT = min (s.get R.SYS_TMR_FIX_CNT_COUNT + fieldsHit l.spec.tmr (tget zeroAt s.tmrA l.key ||| tget zeroAt s.tmrB l.key).toNat) (2 ^ 32 - 1) ∧ t.get R.SYS_TMR_FIX_LAST_SOURCE = src % 128 ∧ t.get R.SYS_TMR_FIX_LAST_OFFSET = a.toNat % 0x1000 ∧ t.hasEvent src 30 = true ∧ s.keeps t [l.key, R.SYS_TMR_FIX_CNT_COUNT.addr, R.SYS_TMR_FIX_LAST_SOURCE.addr, evKey src] ∧ t = { s.regsOf t with bus := t.bus, tmrA := t.tmrA, tmrB := t.tmrB }) ∧
  (∀ (s : State) (a : Addr) (src : Nat) (l : Loc), (srcOf a.toNat = some src) → (s.pageOn src) → (s.locate 0 a.toNat = some l) → (s.disagrees l) → (0x80 ≤ a.toNat % 0x1000) → (s.quiet) → (l.key ≠ R.SYS_TMR_FIX_CNT_COUNT.addr) → (l.key ≠ R.SYS_TMR_FIX_LAST_SOURCE.addr) → (l.key ≠ evKey src) → (l.key ≠ R.SNAP_TRIG_EN_EN.addr) → Gives (.tmrWalk a) s fun t => tget zeroAt t.tmrA l.key = 0 ∧ tget zeroAt t.tmrB l.key = 0 ∧ t.w l.key = s.majW l.key ∧ t.get R.SYS_TMR_FIX_CNT_COUNT = min (s.get R.SYS_TMR_FIX_CNT_COUNT + fieldsHit l.spec.tmr (tget zeroAt s.tmrA l.key ||| tget zeroAt s.tmrB l.key).toNat) (2 ^ 32 - 1) ∧ t.get R.SYS_TMR_FIX_LAST_SOURCE = src % 128 ∧ t.get R.SYS_TMR_FIX_LAST_OFFSET = a.toNat % 0x1000 ∧ t.hasEvent src 30 = true ∧ s.keeps t [l.key, R.SYS_TMR_FIX_CNT_COUNT.addr, R.SYS_TMR_FIX_LAST_SOURCE.addr, evKey src] ∧ t = { s.regsOf t with tmrA := t.tmrA, tmrB := t.tmrB })

/-- With EVT settled, writing 1 to VEC_ACK for an active vector sends its message again, and unmasking a vector with its pending bit set sends the pending message. Where the manual is silent it rests on the model's own choice or reading: log entries 17 and 98. -/
def Obligations.MsixMessages : Prop :=
  (∀ (s : State) (m : Master) (v : Fin 32), (s.msix.active = s.vecActive) → (s.msix.pba = []) → (s.takes m.toNat 0x50A8) → (bitOf s.vecActive v.val) → (bitOf s.msix.en (b2n (bitOf (s.n 0x50AC) v.val))) → (!bitOf s.msix.fmask (b2n (bitOf (s.n 0x50AC) v.val))) → (tget (fun _ => 1) s.msix.mask (b2n (bitOf (s.n 0x50AC) v.val) * 32 + v.val) = 0) → Gives (.vecAck m (w32 (2 ^ v.val))) s fun t => t.out = s.out ++ [.msix (b2n (bitOf (s.n 0x50AC) v.val)) v.val] ∧ s.keeps t [0x50A8] ∧ t = { s.regsOf t with bus := t.bus }) ∧
  (∀ (s : State) (fn : Fin 2) (v : Fin 32), (s.msix.active = s.vecActive) → (!s.noRequest fn.val) → (s.msix.pba = [(fn.val * 32 + v.val, 1)]) → (bitOf s.vecActive v.val) → (b2n (bitOf (s.n 0x50AC) v.val) = fn.val) → Gives (.msixUnmask fn v) s fun t => t.out = s.out ++ [.msix fn.val v.val] ∧ t.msix.pba = [] ∧ bitOf t.msix.en fn.val = true ∧ s.keeps t [winKey 60 0 (fn.val * 128 + 4 * v.val + 3)] ∧ t = s.regsOf t)

/-- A trigger that is enabled in an armed SNAP joins the snapshots on their way: the edge of SNAP_IN in the fabric cycle 2 or 3 after it, the command and the HSI match in their own cycle. Within the holdoff it is counted in MISSED and sets SNAP_MISSED instead; disabled or not armed, it has no effect (the HSI match without its bit stays armed; with it, it has fired). A match value greater than the HSI arms the match; any other sets MATCH_PAST and leaves it disarmed. A snapshot, 32 cycles after its trigger and here in the same sheet, is recorded in SEQ, LAST_HSI, LAST_PHASE and LAST_SRC and in SNAP_SEQ of every powered page that takes part; pages with FREEZE set freeze; in one-shot mode SNAP is disarmed; where dumps are enabled it starts the dump of the valid descriptors, or refuses it with the reason. DUMP_DONE copies the line left of a dump of one line from the free area of the shared SRAM to DRAM and ends the dump; so does it where no line is left. ABORT ends the dump with reason 1 and DUMP_REFUSED. Where the manual is silent it rests on the model's own choice or reading: log entries 2, 16, 19, 20, 106 and 107. -/
def Obligations.Snapshots : Prop :=
  (∀ (s : State), (s.is R.SNAP_C_ARMED) → (bitOf (s.get R.SNAP_TRIG_EN_EN) 0) → (!s.inHoldoff) → Gives (.snapInEdge) s fun t => (t.snapQ = joinSnap s.snapQ (s.snapReq 0 2) ∨ t.snapQ = joinSnap s.snapQ (s.snapReq 0 3)) ∧ s.keeps t [] ∧ t = { s.regsOf t with snapQ := t.snapQ, freeCtr := t.freeCtr }) ∧
  (∀ (s : State), (s.is R.SNAP_C_ARMED) → (bitOf (s.get R.SNAP_TRIG_EN_EN) 0) → (s.inHoldoff) → Gives (.snapInEdge) s fun t => t.get R.SNAP_MISSED_COUNT = min (s.get R.SNAP_MISSED_COUNT + 1) (2 ^ 32 - 1) ∧ t.hasEvent eSNAP 1 = true ∧ s.keeps t [R.SNAP_MISSED_COUNT.addr, evKey eSNAP] ∧ t = { s.regsOf t with freeCtr := t.freeCtr }) ∧
  (∀ (s : State), (!bitOf (s.get R.SNAP_TRIG_EN_EN) 0 || !s.is R.SNAP_C_ARMED) → Gives (.snapInEdge) s fun t => s.keeps t [] ∧ t = { s.regsOf t with freeCtr := t.freeCtr }) ∧
  (∀ (s : State) (m : Master), (s.is R.SNAP_C_ARMED) → (bitOf (s.get R.SNAP_TRIG_EN_EN) 1) → (!s.inHoldoff) → (s.takes m.toNat 0xA0) → Gives (.snapCmdTrig m) s fun t => t.snapQ = joinSnap s.snapQ ⟨s.slot, s.hsi, s.cyc, 2⟩ ∧ t.bus = s.told m.toNat .ok [] ∧ s.keeps t [0xA0] ∧ t = { s.regsOf t with bus := t.bus, snapQ := t.snapQ }) ∧
  (∀ (s : State) (m : Master), (s.is R.SNAP_C_ARMED) → (bitOf (s.get R.SNAP_TRIG_EN_EN) 1) → (s.inHoldoff) → (s.takes m.toNat 0xA0) → Gives (.snapCmdTrig m) s fun t => t.get R.SNAP_MISSED_COUNT = min (s.get R.SNAP_MISSED_COUNT + 1) (2 ^ 32 - 1) ∧ t.hasEvent eSNAP 1 = true ∧ t.bus = s.told m.toNat .ok [] ∧ s.keeps t [0xA0, R.SNAP_MISSED_COUNT.addr, evKey eSNAP] ∧ t = { s.regsOf t with bus := t.bus }) ∧
  (∀ (s : State) (m : Master), (!bitOf (s.get R.SNAP_TRIG_EN_EN) 1 || !s.is R.SNAP_C_ARMED) → (s.takes m.toNat 0xA0) → Gives (.snapCmdTrig m) s fun t => t.bus = s.told m.toNat .ok [] ∧ s.keeps t [0xA0] ∧ t = { s.regsOf t with bus := t.bus }) ∧
  (∀ (s : State), (s.is R.SNAP_C_ARMED) → (bitOf (s.get R.SNAP_TRIG_EN_EN) 2) → (!s.inHoldoff) → (s.matchArmed) → (s.get64 0x6090 ≤ s.hsiNow) → Gives (.hsiMatch) s fun t => t.snapQ = joinSnap s.snapQ ⟨s.slot, s.hsi, s.cyc, 4⟩ ∧ t.matchArmed = false ∧ s.keeps t [] ∧ t = { s.regsOf t with snapQ := t.snapQ, matchArmed := t.matchArmed }) ∧
  (∀ (s : State), (s.is R.SNAP_C_ARMED) → (bitOf (s.get R.SNAP_TRIG_EN_EN) 2) → (s.inHoldoff) → (s.matchArmed) → (s.get64 0x6090 ≤ s.hsiNow) → Gives (.hsiMatch) s fun t => t.get R.SNAP_MISSED_COUNT = min (s.get R.SNAP_MISSED_COUNT + 1) (2 ^ 32 - 1) ∧ t.hasEvent eSNAP 1 = true ∧ s.keeps t [R.SNAP_MISSED_COUNT.addr, evKey eSNAP] ∧ t = { s.regsOf t with matchArmed := t.matchArmed }) ∧
  (∀ (s : State), (s.matchArmed) → (s.get64 0x6090 ≤ s.hsiNow) → (bitOf (s.get R.SNAP_TRIG_EN_EN) 2) → (!s.is R.SNAP_C_ARMED) → Gives (.hsiMatch) s fun t => t.matchArmed = false ∧ s.keeps t [] ∧ t = { s.regsOf t with matchArmed := t.matchArmed }) ∧
  (∀ (s : State), (!s.matchArmed || !bitOf (s.get R.SNAP_TRIG_EN_EN) 2 || decide (s.hsiNow < s.get64 0x6090)) → Gives (.hsiMatch) s fun t => s.keeps t [] ∧ t = s.regsOf t) ∧
  (∀ (s : State) (m : Master) (v : BitVec 64), (s.sees m.toNat 0x6090 true) → (s.allowed m.toNat 0 0x6090 8 true) → (!s.locked eSNAP) → (s.hsiNow < v.toNat) → Gives (.matchHsiWrite m v) s fun t => t.matchArmed = true ∧ t.get64 0x6090 = v.toNat ∧ t.bus = s.told m.toNat .ok [] ∧ s.keeps t [0x6090, 0x6094] ∧ t = { s.regsOf t with bus := t.bus, matchArmed := t.matchArmed }) ∧
  (∀ (s : State) (m : Master) (v : BitVec 64), (s.sees m.toNat 0x6090 true) → (s.allowed m.toNat 0 0x6090 8 true) → (!s.locked eSNAP) → (v.toNat ≤ s.hsiNow) → (s.quiet) → Gives (.matchHsiWrite m v) s fun t => t.matchArmed = false ∧ t.hasEvent eSNAP 2 = true ∧ t.get64 0x6090 = v.toNat ∧ t.bus = s.told m.toNat .ok [] ∧ s.keeps t [0x6090, 0x6094, evKey eSNAP] ∧ t = { s.regsOf t with bus := t.bus, matchArmed := t.matchArmed }) ∧
  (∀ (s : State) (q : SnapReq) (rest : List SnapReq), (s.snapQ = q :: rest) → (s.quiet) → (q.cyc + 32 < sheetCycles) → (s.slot = q.slot ∧ s.hsi = q.hsi) → (!s.is R.SNAP_DUMP_CTRL_EN) → Gives (.snapshot) s fun t => t.snapQ = rest ∧ t.lastSnap = some (q.slot, q.cyc + 32) ∧ t.get R.SNAP_SEQ_SEQ = (s.get R.SNAP_SEQ_SEQ + 1) % 2 ^ 16 ∧ t.get R.SNAP_LAST_PHASE_PHASE = q.cyc + 32 ∧ t.get R.SNAP_LAST_SRC_SRC = q.mask % 32 ∧ t.get64 0x6098 = (q.hsi + (q.cyc + 32) / 12800) % 2 ^ 64 ∧ (allSources.all fun src => !(s.pageOn src && bitOf (s.n (pageBase src + 0x20)) 0) || t.n (pageBase src + 0x24) == t.get R.SNAP_SEQ_SEQ) ∧ (allSources.all fun src => !(s.pageOn src && bitOf (s.n (pageBase src + 0x20)) 1) || t.isFrozen src) ∧ t.is R.SNAP_C_ARMED = (s.is R.SNAP_C_ARMED && s.is R.SNAP_C_MODE) ∧ t.hasEvent eSNAP 0 = true ∧ t.mem = s.mem ∧ t.slot = s.slot ∧ t.hsi = s.hsi ∧ t.dump = s.dump) ∧
  (∀ (s : State) (q : SnapReq) (rest : List SnapReq), (s.snapQ = q :: rest) → (s.quiet) → (q.cyc + 32 < sheetCycles) → (s.slot = q.slot ∧ s.hsi = q.hsi) → (s.is R.SNAP_DUMP_CTRL_EN) → (s.dumpReason = 0) → Gives (.snapshot) s fun t => t.snapQ = rest ∧ t.lastSnap = some (q.slot, q.cyc + 32) ∧ t.get R.SNAP_SEQ_SEQ = (s.get R.SNAP_SEQ_SEQ + 1) % 2 ^ 16 ∧ t.get R.SNAP_LAST_PHASE_PHASE = q.cyc + 32 ∧ t.get R.SNAP_LAST_SRC_SRC = q.mask % 32 ∧ t.get64 0x6098 = (q.hsi + (q.cyc + 32) / 12800) % 2 ^ 64 ∧ (allSources.all fun src => !(s.pageOn src && bitOf (s.n (pageBase src + 0x20)) 0) || t.n (pageBase src + 0x24) == t.get R.SNAP_SEQ_SEQ) ∧ (allSources.all fun src => !(s.pageOn src && bitOf (s.n (pageBase src + 0x20)) 1) || t.isFrozen src) ∧ t.is R.SNAP_C_ARMED = (s.is R.SNAP_C_ARMED && s.is R.SNAP_C_MODE) ∧ t.hasEvent eSNAP 0 = true ∧ t.mem = s.mem ∧ t.slot = s.slot ∧ t.hsi = s.hsi ∧ t.dump = some ⟨t.get R.SNAP_SEQ_SEQ, s.dumpDescs, []⟩ ∧ t.is R.SNAP_S_DUMP_BUSY = true ∧ t.is R.SNAP_DUMP_STATUS_POISON = false ∧ t.get R.SNAP_DUMP_DIRTY_DIRTY = 0) ∧
  (∀ (s : State) (q : SnapReq) (rest : List SnapReq), (s.snapQ = q :: rest) → (s.quiet) → (q.cyc + 32 < sheetCycles) → (s.slot = q.slot ∧ s.hsi = q.hsi) → (s.is R.SNAP_DUMP_CTRL_EN) → (s.dumpReason ≠ 0) → Gives (.snapshot) s fun t => t.snapQ = rest ∧ t.lastSnap = some (q.slot, q.cyc + 32) ∧ t.get R.SNAP_SEQ_SEQ = (s.get R.SNAP_SEQ_SEQ + 1) % 2 ^ 16 ∧ t.get R.SNAP_LAST_PHASE_PHASE = q.cyc + 32 ∧ t.get R.SNAP_LAST_SRC_SRC = q.mask % 32 ∧ t.get64 0x6098 = (q.hsi + (q.cyc + 32) / 12800) % 2 ^ 64 ∧ (allSources.all fun src => !(s.pageOn src && bitOf (s.n (pageBase src + 0x20)) 0) || t.n (pageBase src + 0x24) == t.get R.SNAP_SEQ_SEQ) ∧ (allSources.all fun src => !(s.pageOn src && bitOf (s.n (pageBase src + 0x20)) 1) || t.isFrozen src) ∧ t.is R.SNAP_C_ARMED = (s.is R.SNAP_C_ARMED && s.is R.SNAP_C_MODE) ∧ t.hasEvent eSNAP 0 = true ∧ t.mem = s.mem ∧ t.slot = s.slot ∧ t.hsi = s.hsi ∧ t.dump = s.dump ∧ t.get R.SNAP_DUMP_STATUS_REASON = s.dumpReason ∧ t.hasEvent eSNAP 4 = true) ∧
  (∀ (s : State) (q i a b : Nat) (p : Nat × Nat), (s.dump = some ⟨q, [⟨i, a, 1, b⟩], []⟩) → (s.quiet) → (s.lock = none) → (a % 64 = 0) → (0x117E0000 ≤ a) → (a < 0x11800000) → (!atBank0 a 64) → (s.clean a 64) → (s.allowed 0x41 (targetOf a) a 64 false) → (b % 64 = 0) → (s.allowed 0x41 4 b 64 true) → (s.imageOf b = none) → (s.dramMap b = some p) → (s.chanDo p.1 = .serve) → (!s.chanWaits) → (s.portOpen 3) → (s.fabricIdle) → Gives (.dumpDone) s fun t => t.dump = none ∧ t.get R.SNAP_DUMP_STATUS_DONE_SEQ = q % 2 ^ 16 ∧ t.is R.SNAP_S_DUMP_BUSY = false ∧ t.hasEvent eSNAP 3 = true ∧ t.mem = (s.putBytes b (s.bytes a 64)).mem ∧ t.snapQ = s.snapQ) ∧
  (∀ (s : State) (x : DumpSt), (s.dump = some x) → (x.descs.all fun d => (List.range d.lines).all fun i => (s.dumpPending (d.src + 64 * i)).isEmpty) → (s.quiet) → (s.fabricIdle) → Gives (.dumpDone) s fun t => t.dump = none ∧ t.get R.SNAP_DUMP_STATUS_DONE_SEQ = x.seq % 2 ^ 16 ∧ t.is R.SNAP_S_DUMP_BUSY = false ∧ t.hasEvent eSNAP 3 = true ∧ s.keeps t [R.SNAP_DUMP_STATUS_DONE_SEQ.addr, R.SNAP_S_DUMP_BUSY.addr, evKey eSNAP] ∧ t = { s.regsOf t with dump := t.dump }) ∧
  (∀ (s : State) (m : Master) (v : Word), (s.takes m.toNat 0x60B0) → (s.dump.isSome) → (bitOf v.toNat 1) → (s.quiet) → Gives (.dumpAbort m v) s fun t => t.dump = none ∧ t.is R.SNAP_S_DUMP_BUSY = false ∧ t.hasEvent eSNAP 4 = true ∧ t.get R.SNAP_DUMP_STATUS_REASON = 1 ∧ t.bus = s.told m.toNat .ok [] ∧ s.keeps t [0x60B0, R.SNAP_DUMP_STATUS_REASON.addr, R.SNAP_S_DUMP_BUSY.addr, evKey eSNAP] ∧ t = { s.regsOf t with bus := t.bus, dump := t.dump })

/-- Loss of the reference clock sets REF_LOSS, latches EVENT[4] when REF_LOSS was 0, and sends TIME to HOLDOVER with reason REF_CLOCK (5), or HOST (3) while FORCE_HOLD is 1. Its return ends REF_LOSS; where the clock alone held a servo whose source is FREE and PLL-A is locked, the servo goes to FREERUN, otherwise it stays as it is. A write that changes SRC, without FORCE_HOLD, sends the servo to HOLDOVER with reason REF_SWITCH (4) from a steering state, else to FREERUN for source FREE and to ACQUIRE for another; with FORCE_HOLD the servo stays. A rise of FORCE_HOLD sends it to HOLDOVER with reason HOST (3), a fall to FREERUN for source FREE, else to ACQUIRE. Where the manual is silent it rests on the model's own choice or reading: log entries 2, 116, 122, 140, 142 and 178. -/
def Obligations.References : Prop :=
  (∀ (s : State), (s.quiet) → Gives (.refLoss) s fun t => t.is R.CLK_S_REF_LOSS = true ∧ t.servo = tHoldover ∧ t.get R.TIME_SERVO_STATE_HOLD_REASON = (if s.is R.TIME_C_FORCE_HOLD then 3 else 5) ∧ (!s.is R.CLK_S_REF_LOSS → t.hasEvent eCLK 4 = true) ∧ s.keeps t [R.TIME_FREQ_HOLD_Y.addr, R.TIME_SERVO_STATE_STATE.addr, R.TIME_S_LOCKED.addr, evKey eTIME, R.CLK_S_PLLA_LOCK.addr, evKey eCLK] ∧ t = { s.regsOf t with time := t.time }) ∧
  (∀ (s : State), (s.quiet) → (s.servo = tHoldover) → (s.time.reason = 5) → (s.src = 0) → (s.is R.TIME_C_FORCE_HOLD = false) → (s.is R.CLK_S_PLLA_LOCK) → Gives (.refReturn) s fun t => t.is R.CLK_S_REF_LOSS = false ∧ t.servo = tFreerun ∧ t.get R.TIME_SERVO_STATE_HOLD_REASON = 0 ∧ s.keeps t [R.TIME_FREQ_HOLD_Y.addr, R.TIME_SERVO_STATE_STATE.addr, R.TIME_S_LOCKED.addr, evKey eTIME, R.CLK_S_PLLA_LOCK.addr] ∧ t = { s.regsOf t with time := t.time }) ∧
  (∀ (s : State), (s.servo ≠ tHoldover ∨ s.time.reason ≠ 5 ∨ s.src ≠ 0 ∨ s.is R.TIME_C_FORCE_HOLD = true ∨ s.is R.CLK_S_PLLA_LOCK = false) → Gives (.refReturn) s fun t => t.is R.CLK_S_REF_LOSS = false ∧ t.servo = s.servo ∧ s.keeps t [R.CLK_S_PLLA_LOCK.addr] ∧ t = s.regsOf t) ∧
  (∀ (s : State) (m : Master) (v : Word), (s.takes m.toNat 0x3080) → (s.quiet) → ((s.majW 0x3080).toNat % 8 ≠ v.toNat % 8) → (s.is R.TIME_C_FORCE_HOLD = false) → Gives (.refSelWrite m v) s fun t => t.src = (if 5 ≤ v.toNat % 8 then 0 else v.toNat % 8) ∧ t.servo = (if steering s.servo then tHoldover else if t.src = 0 then tFreerun else tAcquire) ∧ (steering s.servo → t.get R.TIME_SERVO_STATE_HOLD_REASON = 4) ∧ t.is R.TIME_S_REF_PRESENT = false ∧ t.bus = s.told m.toNat .ok [] ∧ s.keeps t [0x3080, R.TIME_FREQ_HOLD_Y.addr, R.TIME_SERVO_STATE_STATE.addr, R.TIME_S_LOCKED.addr, evKey eTIME] ∧ t = { s.regsOf t with bus := t.bus, time := t.time, tmrA := t.tmrA, tmrB := t.tmrB }) ∧
  (∀ (s : State) (m : Master) (v : Word), (s.takes m.toNat 0x3080) → (s.quiet) → ((s.majW 0x3080).toNat % 8 ≠ v.toNat % 8) → (s.is R.TIME_C_FORCE_HOLD) → Gives (.refSelWrite m v) s fun t => t.src = (if 5 ≤ v.toNat % 8 then 0 else v.toNat % 8) ∧ t.servo = s.servo ∧ t.is R.TIME_S_REF_PRESENT = false ∧ t.bus = s.told m.toNat .ok [] ∧ s.keeps t [0x3080, R.TIME_S_LOCKED.addr] ∧ t = { s.regsOf t with bus := t.bus, time := t.time, tmrA := t.tmrA, tmrB := t.tmrB }) ∧
  (∀ (s : State) (m : Master) (v : Word), (s.takes m.toNat 0x3008) → (s.quiet) → (bitOf v.toNat 0) → (!bitOf v.toNat 1) → (!bitOf (s.majW 0x3008).toNat 0) → Gives (.forceHold m v) s fun t => t.is R.TIME_C_FORCE_HOLD = true ∧ t.servo = tHoldover ∧ t.get R.TIME_SERVO_STATE_HOLD_REASON = 3 ∧ t.bus = s.told m.toNat .ok [] ∧ s.keeps t [0x3008, R.TIME_FREQ_HOLD_Y.addr, R.TIME_SERVO_STATE_STATE.addr, R.TIME_S_LOCKED.addr, evKey eTIME] ∧ t = { s.regsOf t with bus := t.bus, time := t.time, tmrA := t.tmrA, tmrB := t.tmrB }) ∧
  (∀ (s : State) (m : Master) (v : Word), (s.takes m.toNat 0x3008) → (s.quiet) → (!bitOf v.toNat 0) → (!bitOf v.toNat 1) → (bitOf (s.majW 0x3008).toNat 0) → Gives (.forceHold m v) s fun t => t.is R.TIME_C_FORCE_HOLD = false ∧ t.servo = (if s.src = 0 then tFreerun else tAcquire) ∧ t.bus = s.told m.toNat .ok [] ∧ s.keeps t [0x3008, R.TIME_FREQ_HOLD_Y.addr, R.TIME_SERVO_STATE_STATE.addr, R.TIME_S_LOCKED.addr, evKey eTIME] ∧ t = { s.regsOf t with bus := t.bus, time := t.time, tmrA := t.tmrA, tmrB := t.tmrB })

/-- PLL-A's lock shows in STATUS; its unlock ends LOCK_F, latches EVENT[0] when it was locked, and with the reference present sends TIME to HOLDOVER with reason REF_CLOCK (HOST while FORCE_HOLD is 1), without it leaves the servo. PLL-B, with its domain powered and outside a change, locks, and leaves its bypass unless a change had failed; with its domain off, or during a change, this lock is none; each takes its effective band as it locks; its unlock outside a change latches EVENT[1] when it was locked, and during a change latches nothing. While RED is disabled nothing else changes but FAULT_CAUSE, which follows the causes. APPLY with the DRAM domain on starts a change: PLL-B unlocked and bypassed with the written settings in PLLB_ACTIVE; while a channel retrains it waits; during a change, while one waits, or with the domain off it only writes PLLB_CFG. A lock with the new settings ends the change, latches PLLB_DONE and starts a retrain of each channel at work or in self-refresh; 8 sheets without lock end it with PLLB_FAIL and those channels in self-refresh, and before that nothing ends it. Where the manual is silent it rests on the model's own choice or reading: log entries 2, 117, 118, 129, 139, 140, 156 and 169. -/
def Obligations.PllB : Prop :=
  (∀ (s : State), Gives (.pllLock .a) s fun t => t.is R.CLK_S_PLLA_LOCK = true ∧ t.clk = { s.clk with bandA := s.pllBand .a } ∧ ((!s.redOn) = true → s.keeps t [R.CLK_S_PLLA_LOCK.addr, R.RED_FAULT_CAUSE_CAUSE.addr] ∧ t = { s.regsOf t with red := t.red, clk := t.clk })) ∧
  (∀ (s : State), (s.domOn 13) → (s.clk.change.isNone) → (!s.pllbFail) → Gives (.pllLock .b) s fun t => t.is R.CLK_S_PLLB_LOCK = true ∧ t.is R.CLK_S_PLLB_BYPASS = false ∧ t.clk = { s.clk with bandB := s.pllBand .b } ∧ ((!s.redOn) = true → s.keeps t [R.CLK_S_PLLA_LOCK.addr, R.RED_FAULT_CAUSE_CAUSE.addr] ∧ t = { s.regsOf t with red := t.red, clk := t.clk })) ∧
  (∀ (s : State), (s.domOn 13) → (s.clk.change.isNone) → (s.pllbFail) → Gives (.pllLock .b) s fun t => t.is R.CLK_S_PLLB_LOCK = true ∧ t.is R.CLK_S_PLLB_BYPASS = s.is R.CLK_S_PLLB_BYPASS ∧ t.pllbFail = true ∧ t.clk = { s.clk with bandB := s.pllBand .b } ∧ ((!s.redOn) = true → s.keeps t [R.CLK_S_PLLA_LOCK.addr, R.RED_FAULT_CAUSE_CAUSE.addr] ∧ t = { s.regsOf t with red := t.red, clk := t.clk })) ∧
  (∀ (s : State), (!s.domOn 13 || s.clk.change.isSome) → Gives (.pllLock .b) s fun t => t.is R.CLK_S_PLLB_LOCK = s.is R.CLK_S_PLLB_LOCK ∧ t.is R.CLK_S_PLLB_BYPASS = s.is R.CLK_S_PLLB_BYPASS ∧ ((!s.redOn) = true → s.keeps t [R.RED_FAULT_CAUSE_CAUSE.addr] ∧ t = { s.regsOf t with red := t.red })) ∧
  (∀ (s : State), (s.quiet) → (!s.is R.CLK_S_REF_LOSS) → Gives (.pllUnlock .a) s fun t => t.is R.CLK_S_PLLA_LOCK = false ∧ t.servo = tHoldover ∧ t.get R.TIME_SERVO_STATE_HOLD_REASON = (if s.is R.TIME_C_FORCE_HOLD then 3 else 5) ∧ t.clk.lockF = (if s.pwr.io then 400 else 0) ∧ (s.is R.CLK_S_PLLA_LOCK → t.hasEvent eCLK 0 = true) ∧ ((!s.redOn) = true → s.keeps t [R.TIME_FREQ_HOLD_Y.addr, R.TIME_SERVO_STATE_STATE.addr, R.TIME_S_LOCKED.addr, evKey eTIME, R.CLK_S_PLLA_LOCK.addr, evKey eCLK, R.RED_FAULT_CAUSE_CAUSE.addr] ∧ t = { s.regsOf t with red := t.red, time := t.time, clk := t.clk })) ∧
  (∀ (s : State), (s.quiet) → (s.is R.CLK_S_REF_LOSS) → Gives (.pllUnlock .a) s fun t => t.is R.CLK_S_PLLA_LOCK = false ∧ t.servo = s.servo ∧ t.clk.lockF = (if s.pwr.io then 400 else 0) ∧ (s.is R.CLK_S_PLLA_LOCK → t.hasEvent eCLK 0 = true) ∧ ((!s.redOn) = true → s.keeps t [R.CLK_S_PLLA_LOCK.addr, evKey eCLK, R.RED_FAULT_CAUSE_CAUSE.addr] ∧ t = { s.regsOf t with red := t.red, clk := t.clk })) ∧
  (∀ (s : State), (s.quiet) → (s.is R.CLK_S_PLLB_LOCK) → (s.clk.change.isNone) → Gives (.pllUnlock .b) s fun t => t.is R.CLK_S_PLLB_LOCK = false ∧ t.hasEvent eCLK 1 = true ∧ ((!s.redOn) = true → s.keeps t [R.CLK_S_PLLA_LOCK.addr, evKey eCLK, R.RED_FAULT_CAUSE_CAUSE.addr] ∧ t = { s.regsOf t with red := t.red })) ∧
  (∀ (s : State), (s.clk.change.isSome) → Gives (.pllUnlock .b) s fun t => t.is R.CLK_S_PLLB_LOCK = false ∧ ((!s.redOn) = true → s.keeps t [R.CLK_S_PLLA_LOCK.addr, R.RED_FAULT_CAUSE_CAUSE.addr] ∧ t = { s.regsOf t with red := t.red })) ∧
  (∀ (s : State) (m : Master) (v : Word), (s.takes m.toNat 0x2084) → (bitOf v.toNat 31) → (s.clk.change.isNone) → (!s.clk.waiting) → (s.domOn 13) → (!(List.range s.dramN).any fun c => s.chanState c = chRetrain) → Gives (.pllbApply m v) s fun t => t.clk.change = some s.slot ∧ t.is R.CLK_S_PLLB_BYPASS = true ∧ t.is R.CLK_S_PLLB_LOCK = false ∧ t.get R.CLK_PLLB_ACTIVE_CFG = t.n 0x2084 % 4096 ∧ t.is R.CLK_PLLB_CFG_RATE = bitOf v.toNat 0 ∧ t.bus = s.told m.toNat .ok [] ∧ s.keeps t [0x2084, R.CLK_S_PLLA_LOCK.addr, R.CLK_PLLB_ACTIVE_CFG.addr] ∧ t = { s.regsOf t with bus := t.bus, clk := t.clk }) ∧
  (∀ (s : State) (m : Master) (v : Word), (s.takes m.toNat 0x2084) → (bitOf v.toNat 31) → (s.clk.change.isNone) → (!s.clk.waiting) → (s.domOn 13) → ((List.range s.dramN).any fun c => s.chanState c = chRetrain) → Gives (.pllbApply m v) s fun t => t.clk = { s.clk with waiting := true } ∧ t.is R.CLK_PLLB_CFG_RATE = bitOf v.toNat 0 ∧ t.bus = s.told m.toNat .ok [] ∧ s.keeps t [0x2084] ∧ t = { s.regsOf t with bus := t.bus, clk := t.clk }) ∧
  (∀ (s : State) (m : Master) (v : Word), (s.takes m.toNat 0x2084) → (!bitOf v.toNat 31 || s.clk.change.isSome || s.clk.waiting || !s.domOn 13) → Gives (.pllbApply m v) s fun t => t.is R.CLK_PLLB_CFG_RATE = bitOf v.toNat 0 ∧ t.bus = s.told m.toNat .ok [] ∧ s.keeps t [0x2084] ∧ t = { s.regsOf t with bus := t.bus }) ∧
  (∀ (s : State), (s.quiet) → (s.clk.change.isSome) → (s.dramN ≤ s.chans.length) → (s.fabricIdle) → Gives (.pllbChangeLock) s fun t => t.clk.change = none ∧ t.pllbFail = false ∧ t.is R.CLK_S_PLLB_LOCK = true ∧ t.is R.CLK_S_PLLB_BYPASS = false ∧ t.hasEvent eCLK 2 = true ∧ (∀ c < s.dramN, (s.chanState c = chOnline ∨ s.chanState c = chDegraded ∨ s.chanState c = chSelfRefresh) → t.chanState c = chRetrain) ∧ (s.pageOn eCONV → t.is R.CONV_BYPASS_WHY_PLLB_FAIL = false) ∧ s.keeps t [(R.DRC_S_STATE.pg 0).addr, (R.DRC_REF_STATE_OWED.pg 0).addr, (R.DRC_FORCED_CNT_COUNT.pg 0).addr, evKey (eDRC 0), (R.DRC_S_STATE.pg 1).addr, (R.DRC_REF_STATE_OWED.pg 1).addr, (R.DRC_FORCED_CNT_COUNT.pg 1).addr, evKey (eDRC 1), (R.DRC_S_STATE.pg 2).addr, (R.DRC_REF_STATE_OWED.pg 2).addr, (R.DRC_FORCED_CNT_COUNT.pg 2).addr, evKey (eDRC 2), (R.DRC_S_STATE.pg 3).addr, (R.DRC_REF_STATE_OWED.pg 3).addr, (R.DRC_FORCED_CNT_COUNT.pg 3).addr, evKey (eDRC 3), R.CLK_S_PLLA_LOCK.addr, evKey eCLK, R.DPHY_S_USABLE.addr, evKey eDPHY, R.CONV_S_BYPASS.addr, R.CONV_BYPASS_WHY_DRAM_OFF.addr, R.CONV_LOAD_STATUS_REASON.addr, R.CONV_SET_STATE_STATE_A.addr, evKey eCONV] ∧ t = { s.regsOf t with clk := t.clk, pllbFail := t.pllbFail, chans := t.chans, conv := t.conv }) ∧
  (∀ (s : State) (t0 : Nat), (s.quiet) → (s.clk.change = some t0) → (t0 + 8 ≤ s.slot) → (s.dramN ≤ s.chans.length) → (s.fabricIdle) → Gives (.pllbFail) s fun t => t.clk.change = none ∧ t.pllbFail = true ∧ t.hasEvent eCLK 3 = true ∧ (∀ c < s.dramN, (s.chanState c = chOnline ∨ s.chanState c = chDegraded ∨ s.chanState c = chSelfRefresh) → t.chanState c = chSelfRefresh) ∧ ((!s.pageOn eCONV) = true → s.keeps t [(R.DRC_S_STATE.pg 0).addr, (R.DRC_REF_STATE_OWED.pg 0).addr, (R.DRC_FORCED_CNT_COUNT.pg 0).addr, evKey (eDRC 0), (R.DRC_S_STATE.pg 1).addr, (R.DRC_REF_STATE_OWED.pg 1).addr, (R.DRC_FORCED_CNT_COUNT.pg 1).addr, evKey (eDRC 1), (R.DRC_S_STATE.pg 2).addr, (R.DRC_REF_STATE_OWED.pg 2).addr, (R.DRC_FORCED_CNT_COUNT.pg 2).addr, evKey (eDRC 2), (R.DRC_S_STATE.pg 3).addr, (R.DRC_REF_STATE_OWED.pg 3).addr, (R.DRC_FORCED_CNT_COUNT.pg 3).addr, evKey (eDRC 3), evKey eCLK, R.DPHY_S_USABLE.addr, evKey eDPHY] ∧ t = { s.regsOf t with clk := t.clk, pllbFail := t.pllbFail, chans := t.chans })) ∧
  (∀ (s : State), (s.clk.change.all fun t0 => decide (s.slot < t0 + 8)) → (s.fabricIdle) → (!s.pageOn eCONV) → Gives (.pllbFail) s fun t => s.keeps t [] ∧ t = s.regsOf t)

/-- MEAS_PUSH queues the record window behind the others while the FIFO holds fewer than 8 records, and otherwise counts an overflow, latches EVENT[5] and queues nothing; MEAS_FLUSH empties the FIFO; MEAS_LEVEL follows. PTP lost for its timeout sends a steering servo to HOLDOVER with reason LOSS (1), and a loss in ACQUIRE starts the acquisition over; before the timeout nothing is lost. A WCLK_IN or TENM_IN that returns is present, and sends HOLDOVER to ACQUIRE unless held or ignored. After 64 sheets with it present in ACQUIRE, and not ignored after STAY, the acquisition completes: the device is anchored with the measured frequency error and, with no phase to remove, tracks, or slews. A slew that has reached its end turns to TRACK with no phase left; before that it goes on. Where the manual is silent it rests on the model's own choice or reading: log entries 2, 21, 122 and 170. -/
def Obligations.RecordsAndSources : Prop :=
  (∀ (s : State) (m : Master), (s.takes m.toNat 0x3240) → (s.time.fifo.length < 8) → Gives (.measPush m) s fun t => t.time = { s.time with fifo := s.time.fifo ++ [s.measRecord] } ∧ t.get R.TIME_MEAS_LEVEL_LEVEL = s.time.fifo.length + 1 ∧ t.bus = s.told m.toNat .ok [] ∧ s.keeps t [0x3240, R.TIME_MEAS_LEVEL_LEVEL.addr] ∧ t = { s.regsOf t with bus := t.bus, time := t.time }) ∧
  (∀ (s : State) (m : Master), (s.takes m.toNat 0x3240) → (8 ≤ s.time.fifo.length) → (s.quiet) → Gives (.measPush m) s fun t => t.get R.TIME_MEAS_OVF_COUNT = (s.get R.TIME_MEAS_OVF_COUNT + 1) % 2 ^ 32 ∧ t.hasEvent eTIME 5 = true ∧ t.bus = s.told m.toNat .ok [] ∧ s.keeps t [0x3240, R.TIME_MEAS_OVF_COUNT.addr, evKey eTIME] ∧ t = { s.regsOf t with bus := t.bus }) ∧
  (∀ (s : State) (m : Master) (v : Word), (s.takes m.toNat 0x3008) → (bitOf v.toNat 1) → (!bitOf v.toNat 0) → (!bitOf (s.majW 0x3008).toNat 0) → Gives (.measFlush m v) s fun t => t.time = { s.time with fifo := [] } ∧ t.get R.TIME_MEAS_LEVEL_LEVEL = 0 ∧ t.bus = s.told m.toNat .ok [] ∧ s.keeps t [0x3008, R.TIME_MEAS_LEVEL_LEVEL.addr] ∧ t = { s.regsOf t with bus := t.bus, time := t.time, tmrA := t.tmrA, tmrB := t.tmrB }) ∧
  (∀ (s : State), (s.quiet) → (s.src = 1) → (s.time.lastSync + 8 * max 1 (s.get R.TIME_LOSS_TIMEOUT_MS) ≤ s.slot) → (steering s.servo) → (s.is R.TIME_C_FORCE_HOLD = false) → Gives (.sourceLoss) s fun t => t.is R.TIME_S_REF_PRESENT = false ∧ t.servo = tHoldover ∧ t.get R.TIME_SERVO_STATE_HOLD_REASON = 1 ∧ s.keeps t [R.TIME_FREQ_HOLD_Y.addr, R.TIME_SERVO_STATE_STATE.addr, R.TIME_S_LOCKED.addr, evKey eTIME] ∧ t = { s.regsOf t with time := t.time }) ∧
  (∀ (s : State), (s.src = 2 ∨ s.src = 3) → (s.servo = tAcquire) → Gives (.sourceLoss) s fun t => t.is R.TIME_S_REF_PRESENT = false ∧ t.time = { s.time with acq := [] } ∧ s.keeps t [R.TIME_S_REF_PRESENT.addr] ∧ t = { s.regsOf t with time := t.time }) ∧
  (∀ (s : State), (s.src = 0 ∨ s.src = 1 ∧ s.slot < s.time.lastSync + 8 * max 1 (s.get R.TIME_LOSS_TIMEOUT_MS)) → Gives (.sourceLoss) s fun t => s.keeps t [] ∧ t = s.regsOf t) ∧
  (∀ (s : State), (s.quiet) → (s.src = 2 ∨ s.src = 3) → (s.servo = tHoldover) → (s.is R.TIME_C_FORCE_HOLD = false) → (s.time.ignore = false) → Gives (.sourceReturn) s fun t => t.is R.TIME_S_REF_PRESENT = true ∧ t.servo = tAcquire ∧ t.time.acq = [] ∧ t.time.acqSince = s.slot ∧ s.keeps t [R.TIME_FREQ_HOLD_Y.addr, R.TIME_SERVO_STATE_STATE.addr, R.TIME_S_LOCKED.addr, evKey eTIME] ∧ t = { s.regsOf t with time := t.time }) ∧
  (∀ (s : State), (s.src = 2 ∨ s.src = 3) → (s.servo ≠ tHoldover ∨ s.is R.TIME_C_FORCE_HOLD = true ∨ s.time.ignore = true) → Gives (.sourceReturn) s fun t => t.is R.TIME_S_REF_PRESENT = true ∧ t.servo = s.servo ∧ t.time = { s.time with acqSince := if s.is R.TIME_S_REF_PRESENT then s.time.acqSince else s.slot } ∧ s.keeps t [R.TIME_S_REF_PRESENT.addr] ∧ t = { s.regsOf t with time := t.time }) ∧
  (∀ (s : State) (f th : Int), (s.quiet) → (s.src = 2 ∨ s.src = 3) → (s.servo = tAcquire) → (s.is R.TIME_S_REF_PRESENT) → (s.time.acqSince + 64 ≤ s.slot) → (s.edgeTheta th = 0) → (s.is R.TIME_C_FORCE_HOLD = false) → (s.time.ignore = false) → Gives (.wclkAcquireComplete f th) s fun t => t.anchored = true ∧ t.servo = tTrack ∧ t.time.integ = f ∧ t.time.yLoop = -f ∧ t.get64 0x30E0 = 0 ∧ s.keeps t [R.TIME_FREQ_HOLD_Y.addr, R.TIME_SERVO_STATE_STATE.addr, R.TIME_S_LOCKED.addr, evKey eTIME, 0x30E0, 0x30E4] ∧ t = { s.regsOf t with time := t.time }) ∧
  (∀ (s : State) (th : Int), (s.quiet) → (s.src = 2 ∨ s.src = 3) → (s.servo = tAcquire) → (s.is R.TIME_S_REF_PRESENT) → (s.time.acqSince + 64 ≤ s.slot) → (0 < s.edgeTheta th) → (s.is R.TIME_C_FORCE_HOLD = false) → (s.time.ignore = false) → Gives (.wclkAcquireComplete 0 th) s fun t => t.anchored = true ∧ t.servo = tSlewing ∧ t.time.theta = s.edgeTheta th ∧ s.slot < t.time.slewEnd ∧ s.keeps t [R.TIME_FREQ_HOLD_Y.addr, R.TIME_SERVO_STATE_STATE.addr, R.TIME_S_LOCKED.addr, evKey eTIME, 0x30E0, 0x30E4] ∧ t = { s.regsOf t with time := t.time }) ∧
  (∀ (s : State) (f th : Int), (s.servo ≠ tAcquire ∨ (s.src ≠ 2 ∧ s.src ≠ 3) ∨ s.is R.TIME_S_REF_PRESENT = false ∨ s.slot < s.time.acqSince + 64 ∨ s.time.ignore = true) → Gives (.wclkAcquireComplete f th) s fun t => s.keeps t [] ∧ t = s.regsOf t) ∧
  (∀ (s : State), (s.quiet) → (s.servo = tSlewing) → (s.time.slewEnd ≤ s.slot) → (s.is R.TIME_C_FORCE_HOLD = false) → Gives (.slewEnd) s fun t => t.servo = tTrack ∧ t.time.theta = 0 ∧ t.time.yLoop = -s.time.integ ∧ s.keeps t [R.TIME_FREQ_HOLD_Y.addr, R.TIME_SERVO_STATE_STATE.addr, R.TIME_S_LOCKED.addr, evKey eTIME] ∧ t = { s.regsOf t with time := t.time }) ∧
  (∀ (s : State), (s.servo ≠ tSlewing ∨ s.slot < s.time.slewEnd) → Gives (.slewEnd) s fun t => s.keeps t [] ∧ t = s.regsOf t)

/-- In REANCHOR_WAIT, SLEW slews the phase, or tracks at once where there is none; STEP makes a step pending that removes the phase, scheduled at the first sheet boundary at least 16 sheets away where no mute sheet is armed, and left to the mute sheet otherwise; STAY returns to HOLDOVER, with the reason kept, and the source ignored. In any other state the write has no effect. A step that is due moves the HSI by 6D samples at a sheet boundary, raises GEN by 1 and latches STEPPED; in no other cycle. The pending step is made at the armed mute sheet and clears ARMED. HSI_SET_CMD in a state that allows it schedules a step, and does nothing while a step of HSI_SET, or on a manager one announced to the ring, is pending; in another state it latches EVENT[9]. A capture records HSI, phase and GEN. Where the manual is silent it rests on the model's own choice or reading: log entries 2, 22, 24, 25, 28, 29, 120 and 176. -/
def Obligations.ReanchorAndSteps : Prop :=
  (∀ (s : State) (m : Master), (s.takes m.toNat 0x30AC) → (s.quiet) → (s.servo = tReanchor) → (s.is R.TIME_C_FORCE_HOLD = false) → (s.time.theta = 0) → Gives (.reanchorSlew m) s fun t => t.servo = tTrack ∧ t.bus = s.told m.toNat .ok [] ∧ s.keeps t [0x30AC, R.TIME_FREQ_HOLD_Y.addr, R.TIME_SERVO_STATE_STATE.addr, R.TIME_S_LOCKED.addr, evKey eTIME] ∧ t = { s.regsOf t with bus := t.bus, time := t.time }) ∧
  (∀ (s : State) (m : Master), (s.takes m.toNat 0x30AC) → (s.quiet) → (s.servo = tReanchor) → (s.is R.TIME_C_FORCE_HOLD = false) → (s.time.integ = 0) → (0 < s.time.theta) → Gives (.reanchorSlew m) s fun t => t.servo = tSlewing ∧ t.time.theta = s.time.theta ∧ s.slot < t.time.slewEnd ∧ t.bus = s.told m.toNat .ok [] ∧ s.keeps t [0x30AC, R.TIME_FREQ_HOLD_Y.addr, R.TIME_SERVO_STATE_STATE.addr, R.TIME_S_LOCKED.addr, evKey eTIME] ∧ t = { s.regsOf t with bus := t.bus, time := t.time }) ∧
  (∀ (s : State) (m : Master), (s.takes m.toNat 0x30AC) → (s.quiet) → (s.servo = tReanchor) → (s.is R.TIME_C_FORCE_HOLD = false) → (!s.is R.TIME_MUTE_SHEET_HI_ARMED) → Gives (.reanchorStep m) s fun t => t.servo = tStepPending ∧ t.is R.TIME_S_STEP_PENDING = true ∧ ⟨s.slot16, stepD s.time.theta, .reanchor⟩ ∈ t.time.steps ∧ t.time.thetaHold = s.time.theta ∧ t.bus = s.told m.toNat .ok [] ∧ s.keeps t [0x30AC, R.TIME_FREQ_HOLD_Y.addr, R.TIME_SERVO_STATE_STATE.addr, R.TIME_S_LOCKED.addr, evKey eTIME] ∧ t = { s.regsOf t with bus := t.bus, time := t.time }) ∧
  (∀ (s : State) (m : Master), (s.takes m.toNat 0x30AC) → (s.quiet) → (s.servo = tReanchor) → (s.is R.TIME_C_FORCE_HOLD = false) → (s.is R.TIME_MUTE_SHEET_HI_ARMED) → Gives (.reanchorStep m) s fun t => t.servo = tStepPending ∧ t.is R.TIME_S_STEP_PENDING = true ∧ (t.time.steps = s.time.steps.filter fun q => q.keptIn tStepPending) ∧ t.time.thetaHold = s.time.theta ∧ t.bus = s.told m.toNat .ok [] ∧ s.keeps t [0x30AC, R.TIME_FREQ_HOLD_Y.addr, R.TIME_SERVO_STATE_STATE.addr, R.TIME_S_LOCKED.addr, evKey eTIME] ∧ t = { s.regsOf t with bus := t.bus, time := t.time }) ∧
  (∀ (s : State) (m : Master), (s.takes m.toNat 0x30AC) → (s.quiet) → (s.servo = tReanchor) → (s.is R.TIME_C_FORCE_HOLD = false) → Gives (.reanchorStay m) s fun t => t.servo = tHoldover ∧ t.get R.TIME_SERVO_STATE_HOLD_REASON = s.time.reason % 8 ∧ t.time.ignore = true ∧ t.bus = s.told m.toNat .ok [] ∧ s.keeps t [0x30AC, R.TIME_FREQ_HOLD_Y.addr, R.TIME_SERVO_STATE_STATE.addr, R.TIME_S_LOCKED.addr, evKey eTIME] ∧ t = { s.regsOf t with bus := t.bus, time := t.time }) ∧
  (∀ (s : State) (m : Master), (s.takes m.toNat 0x30AC) → (s.servo ≠ tReanchor) → Gives (.reanchorStay m) s fun t => t.servo = s.servo ∧ t.bus = s.told m.toNat .ok [] ∧ s.keeps t [0x30AC] ∧ t = { s.regsOf t with bus := t.bus }) ∧
  (∀ (s : State) (q : StepReq), (s.quiet) → (s.dueStep = some q) → (s.cyc = 0) → (q.why = .ring) → (q.d ≠ 0) → (0 ≤ (s.hsi : Int) + 6 * q.d) → Gives (.hsiStep) s fun t => (t.hsi : Int) = (s.hsi : Int) + 6 * q.d ∧ t.gen = (s.gen + 1) % 16 ∧ t.time.steps = s.time.steps.erase q ∧ t.hasEvent eTIME 4 = true ∧ t.slot = s.slot ∧ t.mem = s.mem) ∧
  (∀ (s : State), (s.cyc ≠ 0 ∨ s.dueStep = none) → Gives (.hsiStep) s fun t => s.keeps t [] ∧ t = s.regsOf t) ∧
  (∀ (s : State), (s.quiet) → (s.servo = tStepPending) → (s.is R.TIME_MUTE_SHEET_HI_ARMED) → (s.sheet = s.muteSheet) → (s.cyc = 0) → (s.stepLead = false) → (stepD s.time.theta ≠ 0) → (0 ≤ (s.hsi : Int) + 6 * stepD s.time.theta) → Gives (.muteSheetStep) s fun t => t.is R.TIME_MUTE_SHEET_HI_ARMED = false ∧ (t.hsi : Int) = (s.hsi : Int) + 6 * stepD s.time.theta ∧ t.gen = (s.gen + 1) % 16 ∧ t.slot = s.slot ∧ t.mem = s.mem) ∧
  (∀ (s : State), (s.servo ≠ tStepPending ∨ s.is R.TIME_MUTE_SHEET_HI_ARMED = false ∨ s.sheet ≠ s.muteSheet ∨ s.cyc ≠ 0) → Gives (.muteSheetStep) s fun t => s.keeps t [] ∧ t = s.regsOf t) ∧
  (∀ (s : State) (m : Master), (s.takes m.toNat 0x30D8) → (s.servo = tFreerun ∨ s.servo = tAcquire ∨ s.servo = tHoldover ∨ s.servo = tReanchor) → (s.src ≠ 4) → (!s.stepFor fun w => w == .hsiSet || (w == .ring && s.role == 0)) → Gives (.hsiSetCmd m) s fun t => t.time = { s.time with steps := s.time.steps ++ [⟨s.slot + 1, 0, .hsiSet⟩] } ∧ t.bus = s.told m.toNat .ok [] ∧ s.keeps t [0x30D8] ∧ t = { s.regsOf t with bus := t.bus, time := t.time }) ∧
  (∀ (s : State) (m : Master), (s.takes m.toNat 0x30D8) → (s.servo = tFreerun ∨ s.servo = tAcquire ∨ s.servo = tHoldover ∨ s.servo = tReanchor) → (s.src ≠ 4) → (s.stepFor fun w => w == .hsiSet || (w == .ring && s.role == 0)) → Gives (.hsiSetCmd m) s fun t => t.time = s.time ∧ t.bus = s.told m.toNat .ok [] ∧ s.keeps t [0x30D8] ∧ t = { s.regsOf t with bus := t.bus }) ∧
  (∀ (s : State) (m : Master), (s.takes m.toNat 0x30D8) → (s.quiet) → (steering s.servo ∨ s.src = 4) → Gives (.hsiSetCmd m) s fun t => t.hasEvent eTIME 9 = true ∧ t.bus = s.told m.toNat .ok [] ∧ s.keeps t [0x30D8, evKey eTIME] ∧ t = { s.regsOf t with bus := t.bus }) ∧
  (∀ (s : State) (m : Master), (s.takes m.toNat 0x30C0) → Gives (.capture m) s fun t => t.get R.TIME_CAP_PHASE_PH = s.ph ∧ t.get R.TIME_CAP_PHASE_GEN = s.gen ∧ t.get64 0x30C8 = s.hsiNow % 2 ^ 64 ∧ t.bus = s.told m.toNat .ok [] ∧ s.keeps t [0x30C0, R.TIME_CAP_PHASE_PH.addr, 0x30C8, 0x30CC] ∧ t = { s.regsOf t with bus := t.bus })

/-- An enabled output with a frequency and a format that suits its supply starts with its configuration, its first full rising edge on the grid of SYNC_OFS after the next low phase; a disabled one finishes its high phase and stops; otherwise neither command changes it. With SYNC_IN armed or continuous in mode 1 an edge at least 2 sheets after the last accepted one re-phases every output to new edges 16 fabric cycles later and clears ARM; an earlier edge is ignored; a PTP second in mode 2 re-phases them to the house grid; in other modes neither has an effect. LOCK_F is low for a time that follows the mean phase error, and for the whole window while it is disabled, PLL-A is not locked or the device has no supplies; it does not pull low while VDDIO is out of tolerance. Where the manual is silent it rests on the model's own choice or reading: log entries 2, 123, 134, 141 and 177. -/
def Obligations.ClockOutputs : Prop :=
  (∀ (s : State) (o : ClockOut), (bitOf (s.n (outCfg o)) 0) → (bits (s.n (outCfg o)) 2 1 ≠ 3) → (fmtOk o (bits (s.n (outCfg o)) 5 4)) → (!(s.clkOut o).run) → (outIndex o < s.clk.outs.length) → Gives (.clockOutputEnable o) s fun t => (t.clkOut o).run = true ∧ (t.clkOut o).freq = bits (s.n (outCfg o)) 2 1 ∧ (t.clkOut o).fmt = bits (s.n (outCfg o)) 5 4 ∧ (t.clkOut o).shift = s.get R.CLK_SYNC_OFS_OFS ∧ s.pllaNow ≤ (t.clkOut o).low ∧ (t.clkOut o).low ≤ (t.clkOut o).start ∧ (∀ p, p ≠ o → t.clkOut p = s.clkOut p) ∧ t.words = s.words ∧ s.keeps t [] ∧ t = { s.regsOf t with clk := t.clk }) ∧
  (∀ (s : State) (o : ClockOut), (!bitOf (s.n (outCfg o)) 0 || bits (s.n (outCfg o)) 2 1 == 3 || !fmtOk o (bits (s.n (outCfg o)) 5 4) || (s.clkOut o).run) → Gives (.clockOutputEnable o) s fun t => s.keeps t [] ∧ t = s.regsOf t) ∧
  (∀ (s : State) (o : ClockOut), (!bitOf (s.n (outCfg o)) 0 || bits (s.n (outCfg o)) 2 1 != (s.clkOut o).freq) → ((s.clkOut o).run) → (outIndex o < s.clk.outs.length) → Gives (.clockOutputDisable o) s fun t => t.clkOut o = { s.clkOut o with run := false, high := (s.clkOut o).highEnd o s.pllaNow } ∧ (∀ p, p ≠ o → t.clkOut p = s.clkOut p) ∧ t.words = s.words ∧ s.keeps t [] ∧ t = { s.regsOf t with clk := t.clk }) ∧
  (∀ (s : State) (o : ClockOut), (!(s.clkOut o).run || bitOf (s.n (outCfg o)) 0 && bits (s.n (outCfg o)) 2 1 == (s.clkOut o).freq) → Gives (.clockOutputDisable o) s fun t => s.keeps t [] ∧ t = s.regsOf t) ∧
  (∀ (s : State) (x : Fin 6), (s.quiet) → (s.get R.CLK_SYNC_CTRL_MODE = 1) → (s.is R.CLK_SYNC_CTRL_ARM ∨ s.is R.CLK_SYNC_CTRL_CONT) → (s.clk.syncAt.all fun u => decide (u + usCyc 250 ≤ s.absCyc)) → (s.clk.outs.length = 8) → Gives (.syncInEdge x) s fun t => t.clk.syncAt = some s.absCyc ∧ t.get R.CLK_SYNC_OFS_OFS = (s.pllaNow + 63 + x.val) % 51200 ∧ t.is R.CLK_SYNC_CTRL_ARM = false ∧ t.is R.CLK_S_SYNC_ARMED = s.is R.CLK_SYNC_CTRL_CONT ∧ (clockOuts.all fun o => t.clkOut o == (s.clkOut o).rephased o s.pllaNow (s.pllaNow + 63 + x.val) (t.get R.CLK_SYNC_OFS_OFS)) ∧ t.hasEvent eCLK 5 = true ∧ s.keeps t [R.CLK_S_PLLA_LOCK.addr, evKey eCLK, R.CLK_SYNC_OFS_OFS.addr, R.CLK_SYNC_CTRL_ARM.addr] ∧ t = { s.regsOf t with clk := t.clk }) ∧
  (∀ (s : State) (x : Fin 6), (s.get R.CLK_SYNC_CTRL_MODE ≠ 1 ∨ s.is R.CLK_SYNC_CTRL_ARM = false ∧ s.is R.CLK_SYNC_CTRL_CONT = false ∨ (s.clk.syncAt.any fun u => decide (s.absCyc < u + usCyc 250)) = true) → Gives (.syncInEdge x) s fun t => s.keeps t [] ∧ t = s.regsOf t) ∧
  (∀ (s : State), (s.quiet) → (s.get R.CLK_SYNC_CTRL_MODE = 2) → (s.hsiNow % 48000 = 0) → (s.clk.outs.length = 8) → Gives (.syncPtpSecond) s fun t => t.get R.CLK_SYNC_OFS_OFS = 0 ∧ (clockOuts.all fun o => t.clkOut o == (s.clkOut o).rephased o s.pllaNow s.pllaNow 0) ∧ t.hasEvent eCLK 5 = true ∧ s.keeps t [R.CLK_S_PLLA_LOCK.addr, evKey eCLK, R.CLK_SYNC_OFS_OFS.addr, R.CLK_SYNC_CTRL_ARM.addr] ∧ t = { s.regsOf t with clk := t.clk }) ∧
  (∀ (s : State), (s.get R.CLK_SYNC_CTRL_MODE ≠ 2 ∨ s.hsiNow % 48000 ≠ 0) → Gives (.syncPtpSecond) s fun t => s.keeps t [] ∧ t = s.regsOf t) ∧
  (∀ (s : State) (e : BitVec 16), (s.get R.CLK_LOCKF_CFG_FS = 0) → Gives (.lockFWindow e) s fun t => t.n 0x2080 = e.toNat ∧ t.clk = { s.clk with lockF := if s.pwr.io then (if s.is R.CLK_LOCKF_CFG_EN && s.is R.CLK_S_PLLA_LOCK && !s.pwr.off then min 400 (rndDiv (400 * e.toInt.natAbs) 250).toNat else 400) else 0 } ∧ s.keeps t [0x2080] ∧ t = { s.regsOf t with clk := t.clk })

/-- A write that changes SPEED or FEC takes the link down and restarts the PCS; the link comes up no earlier than 1 ms after, with FEC where it is configured at 25 Gb/s, and latches LINK_UP; a link that falls latches LINK_DOWN. Where the manual is silent it rests on the model's own choice or reading: log entries 2 and 36. -/
def Obligations.PortLink : Prop :=
  (∀ (s : State) (m : Master) (v : Word) (p : Fin 4), (s.takes m.toNat (macBase p + 0x80)) → ((s.majW (macBase p + 0x80)).toNat % 4 ≠ v.toNat % 4) → (p.val < s.macs.length) → Gives (.pcsRestart m p v) s fun t => t.is (R.MAC_S_LINK.pg p.val) = false ∧ t.is (R.MAC_S_FEC_ACTIVE.pg p.val) = false ∧ (t.mac p).pcs = s.absCyc ∧ ((!s.is (R.MAC_S_LINK.pg p.val)) = true → s.keeps t [macBase p + 0x80, (R.MAC_S_LINK.pg p.val).addr] ∧ t = { s.regsOf t with bus := t.bus, macs := t.macs }) ∧ (s.is (R.MAC_S_LINK.pg p.val) = true → t.hasEvent (eMAC p.val) 12 = true) ∧ t.bus = s.told m.toNat .ok []) ∧
  (∀ (s : State) (p : Fin 4), (s.quiet) → (s.portOn p.val) → (!s.is (R.MAC_S_LINK.pg p.val)) → ((s.mac p).pcs + usCyc 1000 ≤ s.absCyc) → Gives (.linkUp p) s fun t => t.is (R.MAC_S_LINK.pg p.val) = true ∧ t.is (R.MAC_S_FEC_ACTIVE.pg p.val) = (s.is (R.MAC_PCS_CFG_SPEED.pg p.val) && s.is (R.MAC_PCS_CFG_FEC.pg p.val)) ∧ t.hasEvent (eMAC p.val) 13 = true ∧ s.keeps t [(R.MAC_S_LINK.pg p.val).addr, evKey (eMAC p.val)] ∧ t = s.regsOf t) ∧
  (∀ (s : State) (p : Fin 4), (!s.portOn p.val || s.is (R.MAC_S_LINK.pg p.val) || decide (s.absCyc < (s.mac p).pcs + usCyc 1000)) → Gives (.linkUp p) s fun t => s.keeps t [] ∧ t = s.regsOf t) ∧
  (∀ (s : State) (p : Fin 4), (s.portOn p.val) → (s.is (R.MAC_S_LINK.pg p.val)) → Gives (.linkDown p) s fun t => t.is (R.MAC_S_LINK.pg p.val) = false ∧ t.is (R.MAC_S_FEC_ACTIVE.pg p.val) = false ∧ t.hasEvent (eMAC p.val) 12 = true ∧ t.mem = s.mem ∧ t.macs = s.macs)

/-- A good frame within MAX_LEN that passes the filters and matches no stream and no rule is counted and goes, with its flags and time, to the default rule's ring, whose HEAD advances by one descriptor; a short frame with a good FCS, and a frame of legal length with a bad one, are each counted alone; an errored frame, and any frame while the receiver is off or the link is down, leaves no trace. Where the manual is silent it rests on the model's own choice or reading: log entries 34, 36 and 112. -/
def Obligations.FrameReception : Prop :=
  (∀ (s : State) (p : Fin 4) (frame : List Byte), (s.portOn p.val) → (s.is (R.MAC_C_RX_EN.pg p.val)) → (s.is (R.MAC_S_LINK.pg p.val)) → (s.quiet) → (!s.hostStalled) → (!s.rxFull p frame.length) → (64 ≤ frame.length) → (frame.length ≤ s.maxLen p) → (fcsOk frame) → ((parseFrame (frame.take (frame.length - 4))).etype ≠ 0x8808) → (s.addrOk p (parseFrame (frame.take (frame.length - 4))).dst) → (s.vlanOk p (parseFrame (frame.take (frame.length - 4)))) → (s.rxMatch p (parseFrame (frame.take (frame.length - 4))) = none) → (!(List.range 16).any fun i => s.ruleHit p (parseFrame (frame.take (frame.length - 4))) i) → (!s.is (R.MAC_DEF_RULE_DROP.pg p.val)) → (!s.is (R.MAC_RX_CFG_STRIP.pg p.val)) → (s.is ((R.MAC_RING_SIZE_EN.ix (s.get (R.MAC_DEF_RULE_RING.pg p.val))).pg p.val)) → (s.ringHead p (s.get (R.MAC_DEF_RULE_RING.pg p.val)) ≠ s.ringTail p (s.get (R.MAC_DEF_RULE_RING.pg p.val))) → Gives (.frameReceive p frame false) s fun t => t.ringHead p (s.get (R.MAC_DEF_RULE_RING.pg p.val)) = (s.ringHead p (s.get (R.MAC_DEF_RULE_RING.pg p.val)) + 1) % s.ringLen p (s.get (R.MAC_DEF_RULE_RING.pg p.val)) ∧ t.hasEvent (eMAC p.val) (s.get (R.MAC_DEF_RULE_RING.pg p.val)) = true ∧ t.w (0x10400 + 0x1000 * p.val + 4 * 0) = s.w (0x10400 + 0x1000 * p.val + 4 * 0) + 1 ∧ t.w (0x10400 + 0x1000 * p.val + 4 * (28 + (s.get (R.MAC_DEF_RULE_RING.pg p.val)))) = s.w (0x10400 + 0x1000 * p.val + 4 * (28 + (s.get (R.MAC_DEF_RULE_RING.pg p.val)))) + 1 ∧ t.hostMem = (s.ringWrite p ⟨frame.length, (s.get (R.MAC_DEF_RULE_RING.pg p.val)), (frame.take (frame.length - 4)), b2n ((parseFrame (frame.take (frame.length - 4))).ipErr || (parseFrame (frame.take (frame.length - 4))).udpErr) * 8 + b2n ((parseFrame (frame.take (frame.length - 4))).ver = 6) * 32 + b2n (parseFrame (frame.take (frame.length - 4))).udp * 64 + b2n (parseFrame (frame.take (frame.length - 4))).isMcast * 128 + b2n (parseFrame (frame.take (frame.length - 4))).isBcast * 256 + 16 * 512 + s.gen * 2 ^ 16, 0, s.rxTime p⟩).hostMem ∧ s.keeps t [0x10400 + 0x1000 * p.val + 4 * 0, 0x10500 + 0x1000 * p.val + 4 * (0 / 32), evKey (eMAC p.val), 0x10400 + 0x1000 * p.val + 4 * 1, 0x10500 + 0x1000 * p.val + 4 * (1 / 32), 0x10400 + 0x1000 * p.val + 4 * (2 + dstType (frame.take 6)), 0x10500 + 0x1000 * p.val + 4 * ((2 + dstType (frame.take 6)) / 32), 0x10400 + 0x1000 * p.val + 4 * (5 + sizeBin frame.length), 0x10500 + 0x1000 * p.val + 4 * ((5 + sizeBin frame.length) / 32), 0x10400 + 0x1000 * p.val + 4 * 18, 0x10500 + 0x1000 * p.val + 4 * (18 / 32), 0x10400 + 0x1000 * p.val + 4 * 19, 0x10500 + 0x1000 * p.val + 4 * (19 / 32), 0x10400 + 0x1000 * p.val + 4 * (28 + (s.get (R.MAC_DEF_RULE_RING.pg p.val))), 0x10500 + 0x1000 * p.val + 4 * ((28 + (s.get (R.MAC_DEF_RULE_RING.pg p.val))) / 32), ((R.MAC_RING_HEAD_HEAD.ix (s.get (R.MAC_DEF_RULE_RING.pg p.val))).pg p.val).addr] ∧ t = { s.regsOf t with hostMem := t.hostMem }) ∧
  (∀ (s : State) (p : Fin 4) (frame : List Byte), (s.portOn p.val) → (s.is (R.MAC_C_RX_EN.pg p.val)) → (s.is (R.MAC_S_LINK.pg p.val)) → (s.quiet) → (!s.rxFull p frame.length) → (frame.length < 64) → (fcsOk frame) → Gives (.frameReceive p frame false) s fun t => t.w (0x10400 + 0x1000 * p.val + 4 * 14) = s.w (0x10400 + 0x1000 * p.val + 4 * 14) + 1 ∧ s.keeps t [0x10400 + 0x1000 * p.val + 4 * 14, 0x10500 + 0x1000 * p.val + 4 * (14 / 32), evKey (eMAC p.val)] ∧ t = s.regsOf t) ∧
  (∀ (s : State) (p : Fin 4) (frame : List Byte), (s.portOn p.val) → (s.is (R.MAC_C_RX_EN.pg p.val)) → (s.is (R.MAC_S_LINK.pg p.val)) → (s.quiet) → (!s.rxFull p frame.length) → (64 ≤ frame.length) → (frame.length ≤ s.maxLen p) → (fcsOk frame = false) → Gives (.frameReceive p frame false) s fun t => t.w (0x10400 + 0x1000 * p.val + 4 * 12) = s.w (0x10400 + 0x1000 * p.val + 4 * 12) + 1 ∧ s.keeps t [0x10400 + 0x1000 * p.val + 4 * 12, 0x10500 + 0x1000 * p.val + 4 * (12 / 32), evKey (eMAC p.val)] ∧ t = s.regsOf t) ∧
  (∀ (s : State) (p : Fin 4) (frame : List Byte), Gives (.frameReceive p frame true) s fun t => s.keeps t [] ∧ t = s.regsOf t) ∧
  (∀ (s : State) (p : Fin 4) (frame : List Byte), (!s.portOn p.val || !s.is (R.MAC_C_RX_EN.pg p.val) || !s.is (R.MAC_S_LINK.pg p.val)) → Gives (.frameReceive p frame false) s fun t => s.keeps t [] ∧ t = s.regsOf t)

/-- A pause frame with a time counts, latches PAUSED and sets the timer, and one with time 0 ends the pause; while paused, a frame boundary with nothing in the PTP and media queues sends nothing; PAUSE_EXPIRE ends the pause once the quanta have elapsed and not before. Low-power idle is entered when the queues are empty, no enabled media context uses the port and LPI_IDLE has passed since the last host frame, and not before; it is left with the queues held for TW_SYS. The partner's idle shows in STATUS and counts while the receiver is on. Where the manual is silent it rests on the model's own choice or reading: log entries 2, 35 and 42. -/
def Obligations.PauseAndIdle : Prop :=
  (∀ (s : State) (p : Fin 4) (q : BitVec 16), (s.portOn p.val) → (s.is (R.MAC_C_RX_EN.pg p.val)) → (s.is (R.MAC_S_LINK.pg p.val)) → (s.quiet) → (s.is (R.MAC_PAUSE_CFG_RX_EN.pg p.val)) → (!s.rxFull p 64) → (q ≠ 0) → (p.val < s.macs.length) → Gives (.pauseFrameReceive p q) s fun t => t.is (R.MAC_S_PAUSED.pg p.val) = true ∧ (t.mac p).pauseQ = q.toNat ∧ (t.mac p).pauseAt = s.absCyc ∧ t.hasEvent (eMAC p.val) 16 = true ∧ t.w (0x10400 + 0x1000 * p.val + 4 * 49) = s.w (0x10400 + 0x1000 * p.val + 4 * 49) + 1 ∧ t.mem = s.mem ∧ t.rx = s.rx) ∧
  (∀ (s : State) (p : Fin 4), (s.portOn p.val) → (s.is (R.MAC_C_RX_EN.pg p.val)) → (s.is (R.MAC_S_LINK.pg p.val)) → (s.quiet) → (s.is (R.MAC_PAUSE_CFG_RX_EN.pg p.val)) → (!s.rxFull p 64) → (p.val < s.macs.length) → Gives (.pauseFrameReceive p 0) s fun t => t.is (R.MAC_S_PAUSED.pg p.val) = false ∧ (t.mac p).pauseQ = 0 ∧ t.mem = s.mem ∧ t.rx = s.rx) ∧
  (∀ (s : State) (p : Fin 4), (s.is (R.MAC_S_PAUSED.pg p.val)) → (s.nextRing p 0 = none) → ((s.mac p).media = []) → Gives (.frameTransmit p) s fun t => s.keeps t [] ∧ t = s.regsOf t) ∧
  (∀ (s : State) (p : Fin 4), (s.portOn p.val) → (s.pauseLeft p = 0) → Gives (.pauseExpire p) s fun t => t.is (R.MAC_S_PAUSED.pg p.val) = false ∧ (t.mac p).pauseQ = 0 ∧ s.keeps t [(R.MAC_S_LINK.pg p.val).addr] ∧ t = { s.regsOf t with macs := t.macs }) ∧
  (∀ (s : State) (p : Fin 4), (!s.portOn p.val || s.pauseLeft p != 0) → Gives (.pauseExpire p) s fun t => s.keeps t [] ∧ t = s.regsOf t) ∧
  (∀ (s : State) (p : Fin 4), (s.quiet) → (s.portOn p.val) → (s.is (R.MAC_EEE_CFG_EN.pg p.val)) → (!s.is (R.MAC_S_TX_LPI.pg p.val)) → (!s.eeeBlocked p) → (s.queuesEmpty p) → ((s.mac p).sentAt + usCyc (s.get (R.MAC_EEE_CFG_LPI_IDLE.pg p.val)) ≤ s.absCyc) → Gives (.lpiEntry p) s fun t => t.is (R.MAC_S_TX_LPI.pg p.val) = true ∧ t.w (0x10400 + 0x1000 * p.val + 4 * 50) = s.w (0x10400 + 0x1000 * p.val + 4 * 50) + 1 ∧ s.keeps t [(R.MAC_S_LINK.pg p.val).addr, 0x10400 + 0x1000 * p.val + 4 * 50, 0x10500 + 0x1000 * p.val + 4 * (50 / 32), evKey (eMAC p.val)] ∧ t = s.regsOf t) ∧
  (∀ (s : State) (p : Fin 4), (!s.portOn p.val || !s.is (R.MAC_EEE_CFG_EN.pg p.val) || s.is (R.MAC_S_TX_LPI.pg p.val) || s.eeeBlocked p || !s.queuesEmpty p || decide (s.absCyc < (s.mac p).sentAt + usCyc (s.get (R.MAC_EEE_CFG_LPI_IDLE.pg p.val)))) → Gives (.lpiEntry p) s fun t => s.keeps t [] ∧ t = s.regsOf t) ∧
  (∀ (s : State) (p : Fin 4), (s.is (R.MAC_S_TX_LPI.pg p.val)) → (p.val < s.macs.length) → Gives (.lpiWake p) s fun t => t.is (R.MAC_S_TX_LPI.pg p.val) = false ∧ (t.mac p).hold = s.absCyc + usCyc (s.get (R.MAC_EEE_CFG_TW_SYS.pg p.val)) ∧ s.keeps t [(R.MAC_S_LINK.pg p.val).addr] ∧ t = { s.regsOf t with macs := t.macs }) ∧
  (∀ (s : State) (p : Fin 4), (s.quiet) → (s.portOn p.val) → (!s.is (R.MAC_S_RX_LPI.pg p.val)) → (s.is (R.MAC_C_RX_EN.pg p.val)) → Gives (.rxLpiEntry p) s fun t => t.is (R.MAC_S_RX_LPI.pg p.val) = true ∧ t.w (0x10400 + 0x1000 * p.val + 4 * 51) = s.w (0x10400 + 0x1000 * p.val + 4 * 51) + 1 ∧ s.keeps t [(R.MAC_S_LINK.pg p.val).addr, 0x10400 + 0x1000 * p.val + 4 * 51, 0x10500 + 0x1000 * p.val + 4 * (51 / 32), evKey (eMAC p.val)] ∧ t = s.regsOf t) ∧
  (∀ (s : State) (p : Fin 4), (s.portOn p.val) → (s.is (R.MAC_C_RX_EN.pg p.val) = false) → Gives (.rxLpiEntry p) s fun t => t.is (R.MAC_S_RX_LPI.pg p.val) = true ∧ s.keeps t [(R.MAC_S_LINK.pg p.val).addr] ∧ t = s.regsOf t) ∧
  (∀ (s : State) (p : Fin 4), (s.portOn p.val) → Gives (.rxLpiExit p) s fun t => t.is (R.MAC_S_RX_LPI.pg p.val) = false ∧ s.keeps t [(R.MAC_S_LINK.pg p.val).addr] ∧ t = s.regsOf t)

/-- A leg without a packet for its timeout (8 sheets where the record gives 0) goes down and latches LEG_DOWN, and before that stays; an errored block counts in RX_PCS_ERR of its port, whose receiver is on, or in PCS_ERR of its Apsal port; with RS-FEC in force and the receiver on, a codeword counts as corrected, or as uncorrectable and latches FEC_UNCORR; with the receiver off nothing is counted. Where the manual is silent it rests on the model's own choice or reading: log entries 2 and 12. -/
def Obligations.LegsAndLineErrors : Prop :=
  (∀ (s : State) (n : Fin 256) (l : Fin 2), (s.quiet) → (s.pageOn eRXS) → (s.mapBit (legMap l) n) → ((s.rxCtx n).legLast.getD l 0 + (if bits (s.n (winKey 13 1 (32 * n.val + 5))) 23 16 = 0 then 8 else bits (s.n (winKey 13 1 (32 * n.val + 5))) 23 16) ≤ s.slot) → Gives (.legTimeout n l) s fun t => t.mapBit (legMap l) n = false ∧ t.hasEvent eRXS 1 = true ∧ bitOf (t.n (rxKey n 0)) l = false ∧ s.keeps t [legMap l + 4 * (n.val / 32), rxKey n 0, evKey eRXS] ∧ t = s.regsOf t) ∧
  (∀ (s : State) (n : Fin 256) (l : Fin 2), (s.pageOn eRXS = false ∨ s.mapBit (legMap l) n = false ∨ ¬ (s.rxCtx n).legLast.getD l 0 + (if bits (s.n (winKey 13 1 (32 * n.val + 5))) 23 16 = 0 then 8 else bits (s.n (winKey 13 1 (32 * n.val + 5))) 23 16) ≤ s.slot) → Gives (.legTimeout n l) s fun t => s.keeps t [] ∧ t = s.regsOf t) ∧
  (∀ (s : State) (p : Fin 4), (s.quiet) → (s.portOn p.val) → (s.is (R.MAC_C_RX_EN.pg p.val)) → Gives (.pcsBlockError (.mac p)) s fun t => t.w (0x10400 + 0x1000 * p.val + 4 * 13) = s.w (0x10400 + 0x1000 * p.val + 4 * 13) + 1 ∧ s.keeps t [0x10400 + 0x1000 * p.val + 4 * 13, 0x10500 + 0x1000 * p.val + 4 * (13 / 32), evKey (eMAC p.val)] ∧ t = s.regsOf t) ∧
  (∀ (s : State) (p : Fin 4), (!s.portOn p.val || !s.is (R.MAC_C_RX_EN.pg p.val)) → Gives (.pcsBlockError (.mac p)) s fun t => s.keeps t [] ∧ t = s.regsOf t) ∧
  (∀ (s : State) (q : Fin 2), (s.pageOn eAPL) → Gives (.pcsBlockError (.apsal q)) s fun t => t.get (R.APL_PCS_ERR_COUNT.ix q) = (s.get (R.APL_PCS_ERR_COUNT.ix q) + 1) % 2 ^ 32 ∧ s.keeps t [(R.APL_PCS_ERR_COUNT.ix q).addr] ∧ t = s.regsOf t) ∧
  (∀ (s : State) (p : Fin 4), (s.quiet) → (s.portOn p.val) → (s.is (R.MAC_S_FEC_ACTIVE.pg p.val)) → (s.is (R.MAC_C_RX_EN.pg p.val)) → Gives (.fecCodewordError p false) s fun t => t.w (0x10400 + 0x1000 * p.val + 4 * 17) = s.w (0x10400 + 0x1000 * p.val + 4 * 17) + 1 ∧ t.hasEvent (eMAC p.val) 15 = true ∧ s.keeps t [0x10400 + 0x1000 * p.val + 4 * 17, 0x10500 + 0x1000 * p.val + 4 * (17 / 32), evKey (eMAC p.val)] ∧ t = s.regsOf t) ∧
  (∀ (s : State) (p : Fin 4), (s.quiet) → (s.portOn p.val) → (s.is (R.MAC_S_FEC_ACTIVE.pg p.val)) → (s.is (R.MAC_C_RX_EN.pg p.val)) → Gives (.fecCodewordError p true) s fun t => t.w (0x10400 + 0x1000 * p.val + 4 * 16) = s.w (0x10400 + 0x1000 * p.val + 4 * 16) + 1 ∧ s.keeps t [0x10400 + 0x1000 * p.val + 4 * 16, 0x10500 + 0x1000 * p.val + 4 * (16 / 32), evKey (eMAC p.val)] ∧ t = s.regsOf t) ∧
  (∀ (s : State) (p : Fin 4) (k : Bool), (s.quiet) → (!s.portOn p.val || !s.is (R.MAC_S_FEC_ACTIVE.pg p.val) || !s.is (R.MAC_C_RX_EN.pg p.val)) → Gives (.fecCodewordError p k) s fun t => s.keeps t [evKey (eMAC p.val)] ∧ t = s.regsOf t)

/-- A rise of RING_SIZE[EN] enables a ring with HEAD 0; a TAIL write gives descriptors to the device after the host has filled its memory; at a frame boundary with no PTP frame ready a waiting media frame goes out, whatever waits in control and bulk, or in loopback to the port itself; while the PCIe link is up the oldest sent descriptor is written back, free, with its error flag and GEN, and HEAD advances. Where the manual is silent it rests on the model's own choice or reading: log entries 8, 39 and 104. -/
def Obligations.ControlRings : Prop :=
  (∀ (s : State) (m : Master) (v : Word) (p : Fin 4) (r : Fin 8), (s.takes m.toNat (macBase p + 0x608 + 32 * r.val)) → (bitOf v.toNat 8) → (!bitOf (s.majW (macBase p + 0x608 + 32 * r.val)).toNat 8) → Gives (.ringEnable m p r v) s fun t => t.ringHead p r = 0 ∧ t.is ((R.MAC_RING_SIZE_EN.ix r).pg p.val) = true ∧ t.bus = s.told m.toNat .ok [] ∧ s.keeps t [(macBase p + 0x608 + 32 * r.val), ((R.MAC_RING_HEAD_HEAD.ix r).pg p.val).addr] ∧ t = { s.regsOf t with bus := t.bus, macs := t.macs }) ∧
  (∀ (s : State) (m : Master) (v : Word) (p : Fin 4) (r : Fin 8) (bytes : List (Nat × Byte)), (s.takes m.toNat (macBase p + 0x60C + 32 * r.val)) → Gives (.ringTailWrite m p r v bytes) s fun t => t.ringTail p r = v.toNat % s.ringLen p r ∧ t.hostMem = tsetAll Config.hostByte s.hostMem (bytes.map fun (e : Nat × Byte) => (e.1 % 2 ^ 64, e.2)) ∧ t.bus = s.told m.toNat .ok [] ∧ s.keeps t [(macBase p + 0x60C + 32 * r.val)] ∧ t = { s.regsOf t with bus := t.bus, hostMem := t.hostMem }) ∧
  (∀ (s : State) (p : Fin 4) (f : MediaFrame) (rest : List MediaFrame), (s.portOn p.val) → (s.is (R.MAC_C_TX_EN.pg p.val)) → (!s.is (R.MAC_S_TX_LPI.pg p.val)) → ((s.mac p).hold ≤ s.absCyc) → (s.nextRing p 0 = none) → ((s.mac p).media = f :: rest) → (s.is (R.MAC_S_LINK.pg p.val)) → (!s.looped p) → Gives (.frameTransmit p) s fun t => (t.mac p).media = rest ∧ t.w (0x10400 + 0x1000 * p.val + 4 * 32) = s.w (0x10400 + 0x1000 * p.val + 4 * 32) + 1 ∧ (s.out ++ [Output.frame p.val (withFcs (f.bytes ++ List.replicate (60 - f.bytes.length) 0))]) <+: t.out ∧ t.mem = s.mem ∧ t.hostMem = s.hostMem) ∧
  (∀ (s : State) (p : Fin 4) (f : MediaFrame) (rest : List MediaFrame), (s.portOn p.val) → (s.is (R.MAC_C_TX_EN.pg p.val)) → (!s.is (R.MAC_S_TX_LPI.pg p.val)) → ((s.mac p).hold ≤ s.absCyc) → (s.nextRing p 0 = none) → ((s.mac p).media = f :: rest) → (s.is (R.MAC_S_LINK.pg p.val)) → (s.looped p) → Gives (.frameTransmit p) s fun t => (t.mac p).media = rest ∧ t.w (0x10400 + 0x1000 * p.val + 4 * 32) = s.w (0x10400 + 0x1000 * p.val + 4 * 32) + 1 ∧ t.mem = s.mem) ∧
  (∀ (s : State) (p : Fin 4) (r : Fin 8) (x : TxDone) (rest : List TxDone), (s.quiet) → (s.portOn p.val) → (!s.hostStalled) → (4 ≤ r.val) → (((s.mac p).ring r).done = x :: rest) → Gives (.txDescriptorComplete p r) s fun t => leAt (t.hostBytes (s.descAt p r (s.ringHead p r) + 12) 4) 0 4 = putBits (putBits (putBits (leAt (s.hostBytes (s.descAt p r (s.ringHead p r) + 12) 4) 0 4) 0 0 0) 5 5 (b2n x.err)) 19 16 x.gen ∧ ((t.mac p).ring r).done = rest ∧ t.ringHead p r = (s.ringHead p r + 1) % s.ringLen p r ∧ t.hasEvent (eMAC p.val) r = true ∧ s.keeps t [((R.MAC_RING_HEAD_HEAD.ix r).pg p.val).addr, evKey (eMAC p.val)] ∧ t = { s.regsOf t with macs := t.macs, hostMem := t.hostMem })

/-- DC_FREEZE holds what is written for its 32 channels; DC_CLEAR owes a clear to every channel whose bit is 1 and keeps the others. FADE_CMD with GO queues the crosspoint and the gain and shows it in both banks while fewer than 256 wait, and with 256 waiting it only latches FADE_OVF; a write of TEST_CFG restarts the generator; MUTE_x and MUTE_ALL hold what is written. -/
def Obligations.AudioControls : Prop :=
  (∀ (s : State) (m : Master) (v : Word) (x : Fin 32), (s.takes m.toNat (0x31080 + 4 * x.val)) → Gives (.dcFreeze m x v) s fun t => t.w (0x31080 + 4 * x.val) = v ∧ t.bus = s.told m.toNat .ok [] ∧ s.keeps t [(0x31080 + 4 * x.val)] ∧ t = { s.regsOf t with bus := t.bus }) ∧
  (∀ (s : State) (m : Master) (v : Word) (x : Fin 32), (s.takes m.toNat (0x31100 + 4 * x.val)) → Gives (.dcClear m x v) s fun t => ((List.range 32).all fun i => tget zeroAt t.dcClr (32 * x.val + i) == if bitOf v.toNat i then 1 else tget zeroAt s.dcClr (32 * x.val + i)) ∧ t.bus = s.told m.toNat .ok [] ∧ s.keeps t [(0x31100 + 4 * x.val)] ∧ t = { s.regsOf t with bus := t.bus, dcClr := t.dcClr }) ∧
  (∀ (s : State) (m : Master) (v : Word), (s.takes m.toNat 0x70090) → (bitOf v.toNat 31) → (s.mix.fifo.length < 256) → Gives (.fadeCmd m v) s fun t => t.mix.fifo = s.mix.fifo ++ [(v.toNat % 8192, s.get R.MIX0_FADE_GAIN_GAIN)] ∧ bits (t.n (winKey 33 0 (2 * (v.toNat % 8192) + 1))) 23 0 = s.get R.MIX0_FADE_GAIN_GAIN ∧ t.is R.MIX0_S_FADE_QUEUED = true ∧ t.bus = s.told m.toNat .ok [] ∧ s.keeps t [0x70090, winKey 33 0 (2 * (v.toNat % 8192) + 1), winKey 33 1 (2 * (v.toNat % 8192) + 1), R.MIX0_FADE_LEVEL_LEVEL.addr, R.MIX0_S_FADE_QUEUED.addr] ∧ t = { s.regsOf t with bus := t.bus, mix := t.mix }) ∧
  (∀ (s : State) (m : Master) (v : Word), (s.takes m.toNat 0x70090) → (s.quiet) → (bitOf v.toNat 31) → (256 ≤ s.mix.fifo.length) → Gives (.fadeCmd m v) s fun t => t.hasEvent eMIX 2 = true ∧ t.mix = s.mix ∧ s.keeps t [evKey eMIX] ∧ t = { s.regsOf t with bus := t.bus }) ∧
  (∀ (s : State) (m : Master) (v : Word), (s.takes m.toNat 0x70084) → Gives (.testCfgWrite m v) s fun t => t.mix = { s.mix with phase := 0 } ∧ t.get R.MIX0_TEST_CFG_WAVE = v.toNat % 4 ∧ t.get R.MIX0_TEST_CFG_LEVEL = v.toNat / 2 ^ 16 ∧ t.bus = s.told m.toNat .ok [] ∧ s.keeps t [0x70084] ∧ t = { s.regsOf t with bus := t.bus, mix := t.mix }) ∧
  (∀ (s : State) (m : Master) (v : Word) (x : Fin 16), (s.takes m.toNat (0x79080 + 4 * x.val)) → Gives (.mute m (some x) v) s fun t => t.w (0x79080 + 4 * x.val) = v ∧ t.bus = s.told m.toNat .ok [] ∧ s.keeps t [(0x79080 + 4 * x.val)] ∧ t = { s.regsOf t with bus := t.bus }) ∧
  (∀ (s : State) (m : Master) (v : Word), (s.takes m.toNat 0x78008) → Gives (.mute m none v) s fun t => t.is R.OUT0_C_MUTE_ALL = bitOf v.toNat 1 ∧ t.bus = s.told m.toNat .ok [] ∧ s.keeps t [0x78008] ∧ t = { s.regsOf t with bus := t.bus })

/-- A record pushed whole into an inbox slot joins its object's queue with its extended apply time when nothing rejects it; one that a rule rejects is stored, answered TERR, counted, shown in REJ_LAST and queued nowhere; a part of a slot without its last byte is stored alone; Q_FLUSH discards every queued record of its object and of no other. A worker pushes the record of its frame into its inbox; GO starts a bulk transfer from the registers and its last segment ends it; a WRITE segment is written as master 0x03. Where the manual is silent it rests on the model's own choice or reading: log entries 31, 88 and 102. -/
def Obligations.MetadataAndBulk : Prop :=
  (∀ (s : State) (m : Master) (slot : Fin 128) (ofs : Fin 32) (d : List Byte), (s.servesSram m.toNat (0x11790000 + 32 * slot.val + ofs.val) d.length true) → (s.clean (0x11790000 + 32 * slot.val + ofs.val) d.length) → (ofs.val + d.length = 32) → (s.pushCode (s.bytes (0x11790000 + 32 * slot.val) ofs.val ++ d) = 0) → Gives (.metadataPush m slot ofs d) s fun t => (t.obj (leAt (s.bytes (0x11790000 + 32 * slot.val) ofs.val ++ d) 0 2 % 1024)).queue = (s.obj (leAt (s.bytes (0x11790000 + 32 * slot.val) ofs.val ++ d) 0 2 % 1024)).queue ++ [(s.applyTime (s.bytes (0x11790000 + 32 * slot.val) ofs.val ++ d), (s.bytes (0x11790000 + 32 * slot.val) ofs.val ++ d))] ∧ t.bytes (0x11790000 + 32 * slot.val) 32 = (s.bytes (0x11790000 + 32 * slot.val) ofs.val ++ d) ∧ t.is R.OBJ0_S_QUEUED = true ∧ t.bus = s.told m.toNat .ok [] ∧ s.keeps t [0xA00AC, 0xA00B0, R.OBJ0_QUEUED_COUNT.addr, R.OBJ0_S_QUEUED.addr] ∧ t = { s.regsOf t with mem := t.mem, sramErr := t.sramErr, poison := t.poison, objs := t.objs, ring := t.ring, bus := t.bus }) ∧
  (∀ (s : State) (m : Master) (slot : Fin 128) (ofs : Fin 32) (d : List Byte), (s.servesSram m.toNat (0x11790000 + 32 * slot.val + ofs.val) d.length true) → (s.clean (0x11790000 + 32 * slot.val + ofs.val) d.length) → (ofs.val + d.length = 32) → (s.pushReason (s.bytes (0x11790000 + 32 * slot.val) ofs.val ++ d) ≠ 0) → (s.quiet) → Gives (.metadataPush m slot ofs d) s fun t => t.bus = s.told m.toNat .terr [] ∧ t.n 0x60090 = leAt (s.bytes (0x11790000 + 32 * slot.val) ofs.val ++ d) 0 2 % 1024 + s.pushReason (s.bytes (0x11790000 + 32 * slot.val) ofs.val ++ d) * 2 ^ 12 + m.toNat % 128 * 2 ^ 16 ∧ t.hasEvent eOBJ 1 = true ∧ t.objs = s.objs ∧ t.bytes (0x11790000 + 32 * slot.val) 32 = (s.bytes (0x11790000 + 32 * slot.val) ofs.val ++ d) ∧ s.keeps t [0xA00AC, 0xA00B0, 0x60090, (if s.pushReason (s.bytes (0x11790000 + 32 * slot.val) ofs.val ++ d) = 1 then R.OBJ0_REJ_FULL_CNT_COUNT else if s.pushReason (s.bytes (0x11790000 + 32 * slot.val) ofs.val ++ d) = 2 then R.OBJ0_REJ_ORDER_CNT_COUNT else R.OBJ0_REJ_FIELD_CNT_COUNT).addr, evKey eOBJ] ∧ t = { s.regsOf t with mem := t.mem, sramErr := t.sramErr, poison := t.poison, bus := t.bus }) ∧
  (∀ (s : State) (m : Master) (slot : Fin 128) (ofs : Fin 32) (d : List Byte), (s.servesSram m.toNat (0x11790000 + 32 * slot.val + ofs.val) d.length true) → (s.clean (0x11790000 + 32 * slot.val + ofs.val) d.length) → (ofs.val + d.length < 32) → Gives (.metadataPush m slot ofs d) s fun t => t.mem = (s.putBytes (0x11790000 + 32 * slot.val + ofs.val) d).mem ∧ t.objs = s.objs ∧ t.bus = s.told m.toNat .ok [] ∧ s.keeps t [0xA00AC, 0xA00B0] ∧ t = { s.regsOf t with mem := t.mem, sramErr := t.sramErr, poison := t.poison, bus := t.bus }) ∧
  (∀ (s : State) (m : Master) (v : Word), (s.takes m.toNat 0x6008C) → (bitOf v.toNat 31) → Gives (.qFlush m v) s fun t => (t.obj (v.toNat % 1024)).queue = [] ∧ (∀ o, o ≠ v.toNat % 1024 → t.obj o = s.obj o) ∧ t.bus = s.told m.toNat .ok [] ∧ s.keeps t [0x6008C, R.OBJ0_QUEUED_COUNT.addr, R.OBJ0_S_QUEUED.addr] ∧ t = { s.regsOf t with bus := t.bus, objs := t.objs }) ∧
  (∀ (s : State) (b : List Byte), (s.ringOn) → (s.pageOn eOBJ) → (s.role = 1) → (!s.spareNow) → (s.ring.recs = [b]) → (s.pushCode b = 0) → Gives (.ringMetadataPush) s fun t => t.ring = { s.ring with recs := [] } ∧ (t.obj (leAt b 0 2 % 1024)).queue = (s.obj (leAt b 0 2 % 1024)).queue ++ [(s.applyTime b, b)] ∧ t.is R.OBJ0_S_QUEUED = true ∧ s.keeps t [R.OBJ0_QUEUED_COUNT.addr, R.OBJ0_S_QUEUED.addr] ∧ t = { s.regsOf t with ring := t.ring, objs := t.objs }) ∧
  (∀ (s : State) (m : Master) (v : Word), (s.takes m.toNat 0xC2104) → (bitOf v.toNat 0) → (s.ring.bulk = none) → Gives (.bulkGo m v) s fun t => t.ring = { s.ring with bulk := some ⟨s.get64 0xC20F0 % 2 ^ 40 / 16 * 16, s.get64 0xC20F8 % 2 ^ 40, s.get R.RING_BLK_DST_HI_DEV, s.get R.RING_BLK_LEN_LEN / 16 * 16, 0⟩ } ∧ t.is R.RING_BLK_CTRL_BUSY = true ∧ t.bus = s.told m.toNat .ok [] ∧ s.keeps t [0xC2104] ∧ t = { s.regsOf t with bus := t.bus, ring := t.ring }) ∧
  (∀ (s : State) (q : BulkOut), (s.quiet) → (s.ring.bulk = some q) → (q.len ≤ q.sent) → Gives (.bulkDone) s fun t => t.ring = { s.ring with bulk := none } ∧ t.is R.RING_BLK_CTRL_BUSY = false ∧ t.hasEvent eRING 11 = true ∧ s.keeps t [0xC2104, evKey eRING] ∧ t = { s.regsOf t with ring := t.ring }) ∧
  (∀ (s : State) (a : Addr) (d : List Byte), (s.ringOn) → (blockPieces d.length a.toNat d = [(a.toNat, d)]) → (s.servesSram 3 a.toNat d.length true) → (s.clean a.toNat d.length) → (plainArea a.toNat d.length) → (inboxSlot a.toNat d.length = none) → Gives (.bulkWrite a d) s fun t => t.mem = (s.putBytes a.toNat d).mem ∧ s.keeps t [0xA00AC, 0xA00B0] ∧ t = { s.regsOf t with mem := t.mem, sramErr := t.sramErr, poison := t.poison })

/-- GO in CONFIG or RUN, with no press pending and nothing that forbids it, makes one pending for sheet N; with RING on a manager and N at least 16 sheets ahead it is announced to the ring too; otherwise GO is refused with its reason (MODE, BUSY, LOCAL, TOO_LATE) and its tag, and the pending press stays; ABORT before slot N − 1 refuses it with ABORTED; when the checks end, a local press that passed them waits for N with the plan of the bank to come, and what was computed ahead for slots from its own on is given up and done again for that bank (as it is when such a press ends), one that passed after slot N − 1 began is refused with TOO_LATE, and one that failed is refused with the reason of the check. At the boundary of sheet N a checked local press commits: PENDING ends, the presentation latency of SHADOW is in force, the sheet and the tag are recorded with reason 0, COMMITTED latches and the watermark is unsettled. Where the manual is silent it rests on the model's own choice or reading: log entries 2 and 186. -/
def Obligations.LocalPress : Prop :=
  (∀ (s : State) (m : Master) (v : Word), (s.takes m.toNat 0x8090) → (bitOf v.toNat 0) → (!bitOf v.toNat 1) → (!bitOf v.toNat 2) → (s.pressMode) → (s.press = none) → (!s.pressForbidden false) → Gives (.pressGo m v) s fun t => t.press = some ⟨((if bitOf v.toNat 3 then s.sheet else 0) + s.get64 0x8088 % 2 ^ 48), bits v.toNat 15 8, false, s.sheet, false, none, [], none, none⟩ ∧ t.is R.PRESS_S_PENDING = true ∧ t.bus = s.told m.toNat .ok [] ∧ s.keeps t [0x8090, R.PRESS_S_PENDING.addr] ∧ t = { s.regsOf t with bus := t.bus, press := t.press }) ∧
  (∀ (s : State) (m : Master) (v : Word), (s.takes m.toNat 0x8090) → (bitOf v.toNat 0) → (!bitOf v.toNat 1) → (bitOf v.toNat 2) → (s.isManager) → (s.pressMode) → (s.press = none) → (!s.pressForbidden true) → (s.sheet + 16 ≤ ((if bitOf v.toNat 3 then s.sheet else 0) + s.get64 0x8088 % 2 ^ 48)) → Gives (.pressRingGo m v) s fun t => t.press = some ⟨((if bitOf v.toNat 3 then s.sheet else 0) + s.get64 0x8088 % 2 ^ 48), bits v.toNat 15 8, true, s.sheet, false, none, [], none, none⟩ ∧ t.askRing = some (((if bitOf v.toNat 3 then s.sheet else 0) + s.get64 0x8088 % 2 ^ 48), bits v.toNat 15 8) ∧ t.is R.PRESS_S_PENDING = true ∧ t.bus = s.told m.toNat .ok [] ∧ s.keeps t [0x8090, R.PRESS_S_PENDING.addr] ∧ t = { s.regsOf t with bus := t.bus, press := t.press, askRing := t.askRing }) ∧
  (∀ (s : State) (m : Master) (v : Word), (s.takes m.toNat 0x8090) → (s.quiet) → (bitOf v.toNat 0) → (!bitOf v.toNat 1) → (!s.pressMode || s.press.isSome || s.pressForbidden (bitOf v.toNat 2 && s.isManager) || (bitOf v.toNat 2 && s.isManager && decide (((if bitOf v.toNat 3 then s.sheet else 0) + s.get64 0x8088 % 2 ^ 48) < s.sheet + 16))) → Gives (.pressGo m v) s fun t => t.get R.PRESS_RESULT_REASON = (if !s.pressMode then rMode else if s.press.isSome then rBusy else if s.pressForbidden (bitOf v.toNat 2 && s.isManager) then rLocal else rTooLate) ∧ t.get R.PRESS_RESULT_ID = bits v.toNat 15 8 ∧ t.get R.PRESS_REFUSE_CNT_COUNT = (s.get R.PRESS_REFUSE_CNT_COUNT + 1) % 2 ^ 32 ∧ t.hasEvent ePRESS 1 = true ∧ t.press = s.press ∧ t.bus = s.told m.toNat .ok [] ∧ s.keeps t [0x8090, 0x8094, 0x8098, R.PRESS_REFUSE_CNT_COUNT.addr, evKey ePRESS] ∧ t = { s.regsOf t with bus := t.bus }) ∧
  (∀ (s : State) (m : Master) (v : Word) (p : PressSt), (s.takes m.toNat 0x8090) → (s.quiet) → (bitOf v.toNat 1) → (!bitOf v.toNat 0) → (s.press = some p) → (!p.ring) → (s.sheet + 1 < p.sheet) → Gives (.pressAbort m v) s fun t => t.press = none ∧ t.is R.PRESS_S_PENDING = false ∧ t.get R.PRESS_RESULT_REASON = rAborted ∧ t.get R.PRESS_RESULT_ID = p.id % 256 ∧ t.hasEvent ePRESS 1 = true ∧ t.knots = (if p.scheduled then s.knots.filter fun e => decide (e.1 % 2 ^ 64 < s.pressSlot p) else s.knots) ∧ ([1, 2, 3, 4].all fun g => (t.stage g).next == (if p.scheduled then min (s.stage g).next (s.pressSlot p) else (s.stage g).next)) ∧ ((List.range 64).all fun g => decide (1 ≤ g ∧ g ≤ 4) || t.stage g == s.stage g) ∧ t.bus = s.told m.toNat .ok [] ∧ s.keeps t [0x8090, 0x8094, 0x8098, R.PRESS_REFUSE_CNT_COUNT.addr, evKey ePRESS, R.PRESS_S_PENDING.addr] ∧ t = { s.regsOf t with bus := t.bus, press := t.press, knots := t.knots, stages := t.stages }) ∧
  (∀ (s : State) (p : PressSt), (s.quiet) → (s.press = some p) → (s.pageOn ePRESS) → (p.own = none) → (!p.ring) → Gives (.pressChecksDone) s fun t => t.press = (if (s.pressJudge p).1.1 = 0 then some { p with own := some (0, (s.pressJudge p).1.2), ahead := some (s.pressJudge p).2.objPlan } else none) ∧ (s.pressChecks = none → (s.pressJudge p).1 = (if s.pressLate p then (rTooLate, 0xF000, 0) else (0, 0, 0))) ∧ (∀ r, s.pressChecks = some r → (s.pressJudge p).1 = (r.reason, r.node, r.detail)) ∧ ((s.pressJudge p).1.1 ≠ 0 → t.get R.PRESS_RESULT_REASON = (s.pressJudge p).1.1 % 16 ∧ t.get R.PRESS_RESULT_ID = p.id % 256 ∧ t.is R.PRESS_S_PENDING = false ∧ t.hasEvent ePRESS 1 = true) ∧ t.knots = (if decide ((s.pressJudge p).1.1 = 0) != p.scheduled then s.knots.filter fun e => decide (e.1 % 2 ^ 64 < s.pressSlot p) else s.knots) ∧ ([1, 2, 3, 4].all fun g => (t.stage g).next == (if decide ((s.pressJudge p).1.1 = 0) != p.scheduled then min (s.stage g).next (s.pressSlot p) else (s.stage g).next)) ∧ ((List.range 64).all fun g => decide (1 ≤ g ∧ g ≤ 4) || t.stage g == s.stage g) ∧ s.keeps t [0x8094, 0x8098, R.PRESS_REFUSE_CNT_COUNT.addr, evKey ePRESS, R.PRESS_S_PENDING.addr, R.MOULD0_CHECK_FAULT.addr, evKey eMOULD] ∧ t = { s.regsOf t with press := t.press, knots := t.knots, stages := t.stages }) ∧
  (∀ (s : State) (p : PressSt), (s.quiet) → (s.press = some p) → (s.pageOn ePRESS) → (p.own = some (0, 0, 0)) → (!p.ring) → (s.cyc = 0) → (p.sheet ≤ s.sheet) → Gives (.pressCommit) s fun t => t.press = none ∧ t.is R.PRESS_S_PENDING = false ∧ t.w 0x8084 = s.w 0x8080 ∧ t.get R.PRESS_RESULT_REASON = 0 ∧ t.get R.PRESS_RESULT_ID = p.id % 256 ∧ t.get64 0x80A0 = s.sheet % 2 ^ 48 ∧ t.is R.WMK_S_SETTLED = false ∧ t.hasEvent ePRESS 0 = true ∧ t.slot = s.slot ∧ t.mem = s.mem)

/-- A rise of EN cold-starts CONV: no history, building up; a fall with no crossfade running leaves it without history. A new DRAM_BASE while EN is 0 leaves both sets EMPTY with no filter. At the fetch deadline of a window the partitions of an output that had not arrived are dropped from what was fetched, set by set, and counted; what was fetched for other outputs stays; with no window at its deadline nothing happens. A verification with both sets EMPTY and no cause left ends the bypass; a set in force whose stored spectra do not match its digest is LOST and bypassed; without a verification, or while a channel holds its reads back, nothing happens. Where the manual is silent it rests on the model's own choice or reading: log entries 2, 65 and 163. -/
def Obligations.ConvControlAndTail : Prop :=
  (∀ (s : State) (m : Master) (v : Word), (s.takes m.toNat 0x80008) → (bitOf v.toNat 0) → (!bitOf (s.majW 0x80008).toNat 0) → Gives (.convEnable m v) s fun t => t.is R.CONV_C_EN = true ∧ t.conv = { s.conv with n := 0, blocks1 := 0, blocks := 0, dlFrom := 0, build := 0, wins := [], x1 := [], y1 := [], y2 := [] } ∧ t.is R.CONV_S_BUILDING = true ∧ t.bus = s.told m.toNat .ok [] ∧ s.keeps t [0x80008, R.CONV_S_BYPASS.addr] ∧ t = { s.regsOf t with bus := t.bus, conv := t.conv, audio := t.audio }) ∧
  (∀ (s : State) (m : Master) (v : Word), (s.takes m.toNat 0x80008) → (!bitOf v.toNat 0) → (!s.is R.CONV_S_XFADE) → Gives (.convEnable m v) s fun t => t.is R.CONV_C_EN = false ∧ t.conv = { s.conv with n := 0, blocks1 := 0, blocks := 0, dlFrom := 0, build := 0, wins := [], x1 := [], y1 := [], y2 := [] } ∧ t.is R.CONV_S_BUILDING = false ∧ t.bus = s.told m.toNat .ok [] ∧ s.keeps t [0x80008, R.CONV_S_BYPASS.addr] ∧ t = { s.regsOf t with bus := t.bus, conv := t.conv, audio := t.audio }) ∧
  (∀ (s : State) (m : Master) (v : Word), (s.takes m.toNat 0x80084) → (!s.is R.CONV_C_EN) → ((s.majW 0x80084).toNat % 8192 ≠ v.toNat % 8192) → Gives (.convDramBaseWrite m v) s fun t => t.setState 0 = csEmpty ∧ t.setState 1 = csEmpty ∧ t.conv = { s.conv with setA := [], setB := [] } ∧ t.get R.CONV_DRAM_BASE_BASE = v.toNat % 8192 ∧ t.bus = s.told m.toNat .ok [] ∧ s.keeps t [0x80084, R.CONV_SET_STATE_STATE_A.addr] ∧ t = { s.regsOf t with bus := t.bus, conv := t.conv }) ∧
  (∀ (s : State) (o : Fin 512) (ms : List (Fin 28)) (w : Win) (rest : List Win), (s.quiet) → (s.conv.wins = w :: rest) → (w.closed) → (w.sets = [0] ∨ w.sets = [1] ∨ w.sets = [0, 1]) → (!rest.any fun x => x.m == w.m) → Gives (.tailFetchDeadline o ms) s fun t => (w.sets.all fun q => ((t.conv.wins.head?.map fun x => tget (fun _ => []) x.got (512 * q + o.val)) == some ((tget (fun _ => []) w.got (512 * q + o.val)).filter fun f => !(ms.map Fin.val).contains (14 * q + f.part)))) ∧ ((List.range 512).all fun p => p == o.val || w.sets.all fun q => ((t.conv.wins.head?.map fun x => tget (fun _ => []) x.got (512 * q + p)) == some (tget (fun _ => []) w.got (512 * q + p)))) ∧ t.conv.wins.tail = rest ∧ t.get R.CONV_TAIL_DROP_CNT_COUNT = (s.get R.CONV_TAIL_DROP_CNT_COUNT + (w.sets.map fun q => ((tget (fun _ => []) w.got (512 * q + o.val)).filter fun f => (ms.map Fin.val).contains (14 * q + f.part)).length).sum) % 2 ^ 32 ∧ s.keeps t [R.CONV_TAIL_DROP_CNT_COUNT.addr, 0x80180 + 4 * (o.val / 32), evKey eCONV] ∧ t = { s.regsOf t with conv := t.conv }) ∧
  (∀ (s : State) (o : Fin 512) (ms : List (Fin 28)), (!s.conv.wins.any fun w => w.closed) → Gives (.tailFetchDeadline o ms) s fun t => s.keeps t [] ∧ t = s.regsOf t) ∧
  (∀ (s : State), (s.quiet) → (s.is R.CONV_S_VERIFYING) → (!s.chanWaits) → (s.setState 0 = csEmpty) → (s.setState 1 = csEmpty) → (!s.bypassCause) → Gives (.convVerifyDone) s fun t => t.is R.CONV_S_VERIFYING = false ∧ t.is R.CONV_S_BYPASS = false ∧ s.keeps t [R.CONV_S_BYPASS.addr, evKey eCONV] ∧ t = { s.regsOf t with conv := t.conv }) ∧
  (∀ (s : State), (s.quiet) → (s.is R.CONV_S_VERIFYING) → (!s.chanWaits) → (s.setState s.convActive = csReady) → (s.setState (1 - s.convActive) = csEmpty) → ((s.specDigest s.convActive).1 ≠ some (s.digest s.convActive)) → Gives (.convVerifyDone) s fun t => t.is R.CONV_S_VERIFYING = false ∧ t.setState s.convActive = csLost ∧ t.is R.CONV_BYPASS_WHY_SET_LOST = true ∧ t.is R.CONV_S_BYPASS = true ∧ t.hasEvent eCONV 11 = true) ∧
  (∀ (s : State), (!s.is R.CONV_S_VERIFYING || s.chanWaits) → Gives (.convVerifyDone) s fun t => s.keeps t [] ∧ t = s.regsOf t)

/-- LOAD with GO, where nothing refuses it, starts the load of its set from output 0 and leaves it LOADING; RELOAD starts the reload of a LOST set and leaves it LOST; a request that a rule refuses leaves the load that runs and shows the reason with LOAD_FAILED. ABORT marks the load to end after the output in progress. A failing load ends with its reason and LOAD_FAILED, a set that was being loaded FAILED and one being reloaded as it is; without a load nothing happens. Where the manual is silent it rests on the model's own choice or reading: log entries 2 and 128. -/
def Obligations.ConvLoads : Prop :=
  (∀ (s : State) (m : Master) (v : Word), (s.takes m.toNat 0x80088) → (bitOf v.toNat 4) → (!bitOf v.toNat 6) → (s.loadRefusal (v.toNat % 2) false = 0) → Gives (.convLoad m v) s fun t => t.is R.CONV_S_LOADING = true ∧ t.setState (v.toNat % 2) = csLoading ∧ t.get R.CONV_LOAD_STATUS_SET = (v.toNat % 2) ∧ t.get R.CONV_LOAD_STATUS_PROGRESS = 0 ∧ t.conv = { s.conv with load := some ⟨(v.toNat % 2), false, 0, 2 ^ 64 - 1, true, false⟩ } ∧ t.bus = s.told m.toNat .ok [] ∧ s.keeps t [0x80088, R.CONV_S_BYPASS.addr, R.CONV_LOAD_STATUS_REASON.addr, R.CONV_SET_STATE_STATE_A.addr] ∧ t = { s.regsOf t with bus := t.bus, conv := t.conv }) ∧
  (∀ (s : State) (m : Master) (v : Word), (s.takes m.toNat 0x80088) → (bitOf v.toNat 5) → (!bitOf v.toNat 4) → (!bitOf v.toNat 6) → (s.loadRefusal (v.toNat % 2) true = 0) → Gives (.convReload m v) s fun t => t.is R.CONV_S_LOADING = true ∧ t.setState (v.toNat % 2) = csLost ∧ t.get R.CONV_LOAD_STATUS_SET = (v.toNat % 2) ∧ t.get R.CONV_LOAD_STATUS_PROGRESS = 0 ∧ t.conv = { s.conv with load := some ⟨(v.toNat % 2), true, 0, 2 ^ 64 - 1, true, false⟩ } ∧ t.bus = s.told m.toNat .ok [] ∧ s.keeps t [0x80088, R.CONV_S_BYPASS.addr, R.CONV_LOAD_STATUS_REASON.addr] ∧ t = { s.regsOf t with bus := t.bus, conv := t.conv }) ∧
  (∀ (s : State) (m : Master) (v : Word), (s.takes m.toNat 0x80088) → (s.quiet) → (bitOf v.toNat 4 || bitOf v.toNat 5) → (!bitOf v.toNat 6) → (s.loadRefusal (v.toNat % 2) (!bitOf v.toNat 4) ≠ 0) → Gives (.convLoad m v) s fun t => t.get R.CONV_LOAD_STATUS_REASON = s.loadRefusal (v.toNat % 2) (!bitOf v.toNat 4) ∧ t.hasEvent eCONV 4 = true ∧ t.conv = s.conv ∧ t.is R.CONV_S_LOADING = s.is R.CONV_S_LOADING ∧ t.bus = s.told m.toNat .ok [] ∧ s.keeps t [0x80088, R.CONV_LOAD_STATUS_REASON.addr, evKey eCONV] ∧ t = { s.regsOf t with bus := t.bus }) ∧
  (∀ (s : State) (m : Master) (v : Word), (s.takes m.toNat 0x80088) → (bitOf v.toNat 6) → (!bitOf v.toNat 4) → (!bitOf v.toNat 5) → Gives (.convLoadAbort m v) s fun t => t.conv = { s.conv with load := s.conv.load.map fun l => { l with abort := true } } ∧ t.bus = s.told m.toNat .ok [] ∧ s.keeps t [0x80088] ∧ t = { s.regsOf t with bus := t.bus, conv := t.conv }) ∧
  (∀ (s : State) (r : Fin 16) (l : LoadSt), (s.quiet) → (s.conv.load = some l) → (l.set < 2) → Gives (.convLoadFail r) s fun t => t.is R.CONV_S_LOADING = false ∧ t.setState l.set = (if l.reload then s.setState l.set else csFailed) ∧ t.setState (1 - l.set) = s.setState (1 - l.set) ∧ t.get R.CONV_LOAD_STATUS_REASON = r.val ∧ t.hasEvent eCONV 4 = true ∧ t.conv = { s.conv with load := none } ∧ s.keeps t [R.CONV_S_BYPASS.addr, R.CONV_LOAD_STATUS_REASON.addr, R.CONV_SET_STATE_STATE_A.addr, evKey eCONV] ∧ t = { s.regsOf t with conv := t.conv }) ∧
  (∀ (s : State) (r : Fin 16), (s.conv.load = none) → Gives (.convLoadFail r) s fun t => s.keeps t [] ∧ t = s.regsOf t)

/-- A load whose image lies in populated DRAM without an error, behind channels that serve, leaves its set READY, shows progress 512 and latches LOAD_DONE, and no load is left. A load that an ABORT has marked ends with LOAD_FAILED, its set FAILED; without a load, or while a channel holds its accesses back, nothing happens. Where the manual is silent it rests on the model's own choice or reading: log entries 2, 66 and 163. -/
def Obligations.ConvLoadCompletes : Prop :=
  (∀ (s : State) (l : LoadSt), (s.quiet) → (s.conv.load = some l) → (!s.chanWaits) → (l.set < 2) → (!l.abort) → (!l.reload) → (l.done ≤ 512) → (s.convPopulated) → (s.dramErr = []) → Gives (.convLoadDone) s fun t => t.is R.CONV_S_LOADING = false ∧ t.setState l.set = csReady ∧ t.get R.CONV_LOAD_STATUS_PROGRESS = 512 ∧ t.hasEvent eCONV 3 = true ∧ t.conv.load = none ∧ t.dramErr = [] ∧ t.slot = s.slot) ∧
  (∀ (s : State) (l : LoadSt), (s.quiet) → (s.conv.load = some l) → (!s.chanWaits) → (l.set < 2) → (l.abort) → (!l.reload) → Gives (.convLoadDone) s fun t => t.is R.CONV_S_LOADING = false ∧ t.setState l.set = csFailed ∧ t.hasEvent eCONV 4 = true ∧ t.conv.load = none ∧ t.slot = s.slot) ∧
  (∀ (s : State), (s.conv.load = none ∨ s.chanWaits = true) → Gives (.convLoadDone) s fun t => s.keeps t [] ∧ t = s.regsOf t)

/-- ADD, SUB, ADDI, NEG, ABS, MULQ and SHLI in sequence: rd takes the result under the S rule, Z and N follow it, V is set by a saturation and kept otherwise, and no other register, flag, memory or engine changes. SRAI, MIN, MAX, AND, OR, XOR, ORI, SHR and MOV in sequence: rd takes the result, Z and N follow it, V and everything else is kept. Where the manual is silent it rests on the model's own choice or reading: log entry 67. -/
def Obligations.IeArithmeticAndLogic : Prop :=
  (∀ (s : State) (e : Fin 8) (i : IeSt) (st : Bool) (rd rs rt : Fin 16), (s.ie e.val = i) → (s.plainIssue e.val) → Gives (.ieAdd e st rd rs rt) s fun t => (t.ie e.val).val rd = (if st then satI 32 (i.val rs + i.val rt) else sx 32 (tz 32 (i.val rs + i.val rt))) ∧ (t.ie e.val).fl flZ = decide ((t.ie e.val).val rd = 0) ∧ (t.ie e.val).fl flN = decide ((t.ie e.val).val rd < 0) ∧ (t.ie e.val).fl flV = (i.land.fl flV || (st && ovfI 32 (i.val rs + i.val rt))) ∧ i.dataNext (t.ie e.val) rd.val ∧ (st = false → (t.ie e.val).reg rd = i.reg rs + i.reg rt) ∧ s.ieOnly t e.val) ∧
  (∀ (s : State) (e : Fin 8) (i : IeSt) (st : Bool) (rd rs rt : Fin 16), (s.ie e.val = i) → (s.plainIssue e.val) → Gives (.ieSub e st rd rs rt) s fun t => (t.ie e.val).val rd = (if st then satI 32 (i.val rs - i.val rt) else sx 32 (tz 32 (i.val rs - i.val rt))) ∧ (t.ie e.val).fl flZ = decide ((t.ie e.val).val rd = 0) ∧ (t.ie e.val).fl flN = decide ((t.ie e.val).val rd < 0) ∧ (t.ie e.val).fl flV = (i.land.fl flV || (st && ovfI 32 (i.val rs - i.val rt))) ∧ i.dataNext (t.ie e.val) rd.val ∧ (st = false → (t.ie e.val).reg rd = i.reg rs - i.reg rt) ∧ s.ieOnly t e.val) ∧
  (∀ (s : State) (e : Fin 8) (i : IeSt) (st : Bool) (rd rs : Fin 16) (imm : BitVec 17), (s.ie e.val = i) → (s.plainIssue e.val) → Gives (.ieAddi e st rd rs imm) s fun t => (t.ie e.val).val rd = (if st then satI 32 (i.val rs + imm.toInt) else sx 32 (tz 32 (i.val rs + imm.toInt))) ∧ (t.ie e.val).fl flZ = decide ((t.ie e.val).val rd = 0) ∧ (t.ie e.val).fl flN = decide ((t.ie e.val).val rd < 0) ∧ (t.ie e.val).fl flV = (i.land.fl flV || (st && ovfI 32 (i.val rs + imm.toInt))) ∧ i.dataNext (t.ie e.val) rd.val ∧ (st = false → (t.ie e.val).reg rd = i.reg rs + imm.signExtend 32) ∧ s.ieOnly t e.val) ∧
  (∀ (s : State) (e : Fin 8) (i : IeSt) (st : Bool) (rd rs : Fin 16), (s.ie e.val = i) → (s.plainIssue e.val) → Gives (.ieNeg e st rd rs) s fun t => (t.ie e.val).val rd = (if st then satI 32 (-i.val rs) else sx 32 (tz 32 (-i.val rs))) ∧ (t.ie e.val).fl flZ = decide ((t.ie e.val).val rd = 0) ∧ (t.ie e.val).fl flN = decide ((t.ie e.val).val rd < 0) ∧ (t.ie e.val).fl flV = (i.land.fl flV || (st && ovfI 32 (-i.val rs))) ∧ i.dataNext (t.ie e.val) rd.val ∧ (st = false → (t.ie e.val).reg rd = -i.reg rs) ∧ s.ieOnly t e.val) ∧
  (∀ (s : State) (e : Fin 8) (i : IeSt) (st : Bool) (rd rs : Fin 16), (s.ie e.val = i) → (s.plainIssue e.val) → Gives (.ieAbs e st rd rs) s fun t => (t.ie e.val).val rd = (if st then satI 32 (|i.val rs|) else sx 32 (tz 32 (|i.val rs|))) ∧ (t.ie e.val).fl flZ = decide ((t.ie e.val).val rd = 0) ∧ (t.ie e.val).fl flN = decide ((t.ie e.val).val rd < 0) ∧ (t.ie e.val).fl flV = (i.land.fl flV || (st && ovfI 32 (|i.val rs|))) ∧ i.dataNext (t.ie e.val) rd.val ∧ s.ieOnly t e.val) ∧
  (∀ (s : State) (e : Fin 8) (i : IeSt) (st : Bool) (rd rs rt : Fin 16), (s.ie e.val = i) → (s.plainIssue e.val) → Gives (.ieMulq e st rd rs rt) s fun t => (t.ie e.val).val rd = (if st then satI 32 (rndShr (i.val rs * i.val rt) 30) else sx 32 (tz 32 (rndShr (i.val rs * i.val rt) 30))) ∧ (t.ie e.val).fl flZ = decide ((t.ie e.val).val rd = 0) ∧ (t.ie e.val).fl flN = decide ((t.ie e.val).val rd < 0) ∧ (t.ie e.val).fl flV = (i.land.fl flV || (st && ovfI 32 (rndShr (i.val rs * i.val rt) 30))) ∧ i.dataNext (t.ie e.val) rd.val ∧ s.ieOnly t e.val) ∧
  (∀ (s : State) (e : Fin 8) (i : IeSt) (st : Bool) (rd rs : Fin 16) (sh : BitVec 5), (s.ie e.val = i) → (s.plainIssue e.val) → Gives (.ieShli e st rd rs sh) s fun t => (t.ie e.val).val rd = (if st then satI 32 (i.val rs * 2 ^ sh.toNat) else sx 32 (tz 32 (i.val rs * 2 ^ sh.toNat))) ∧ (t.ie e.val).fl flZ = decide ((t.ie e.val).val rd = 0) ∧ (t.ie e.val).fl flN = decide ((t.ie e.val).val rd < 0) ∧ (t.ie e.val).fl flV = (i.land.fl flV || (st && ovfI 32 (i.val rs * 2 ^ sh.toNat))) ∧ i.dataNext (t.ie e.val) rd.val ∧ (st = false → (t.ie e.val).reg rd = i.reg rs <<< sh.toNat) ∧ s.ieOnly t e.val) ∧
  (∀ (s : State) (e : Fin 8) (i : IeSt) (rd rs : Fin 16) (sh : BitVec 5) (rnd : Bool), (s.ie e.val = i) → (s.plainIssue e.val) → Gives (.ieSrai e rd rs sh rnd) s fun t => (t.ie e.val).val rd = (sx 32 (tz 32 (if rnd then rndShr (i.val rs) sh.toNat else i.val rs / 2 ^ sh.toNat))) ∧ (t.ie e.val).fl flZ = decide ((t.ie e.val).val rd = 0) ∧ (t.ie e.val).fl flN = decide ((t.ie e.val).val rd < 0) ∧ (t.ie e.val).fl flV = i.land.fl flV ∧ i.dataNext (t.ie e.val) rd.val ∧ s.ieOnly t e.val) ∧
  (∀ (s : State) (e : Fin 8) (i : IeSt) (rd rs rt : Fin 16), (s.ie e.val = i) → (s.plainIssue e.val) → Gives (.ieMin e rd rs rt) s fun t => (t.ie e.val).val rd = (sx 32 (tz 32 (min (i.val rs) (i.val rt)))) ∧ (t.ie e.val).fl flZ = decide ((t.ie e.val).val rd = 0) ∧ (t.ie e.val).fl flN = decide ((t.ie e.val).val rd < 0) ∧ (t.ie e.val).fl flV = i.land.fl flV ∧ i.dataNext (t.ie e.val) rd.val ∧ s.ieOnly t e.val) ∧
  (∀ (s : State) (e : Fin 8) (i : IeSt) (rd rs rt : Fin 16), (s.ie e.val = i) → (s.plainIssue e.val) → Gives (.ieMax e rd rs rt) s fun t => (t.ie e.val).val rd = (sx 32 (tz 32 (max (i.val rs) (i.val rt)))) ∧ (t.ie e.val).fl flZ = decide ((t.ie e.val).val rd = 0) ∧ (t.ie e.val).fl flN = decide ((t.ie e.val).val rd < 0) ∧ (t.ie e.val).fl flV = i.land.fl flV ∧ i.dataNext (t.ie e.val) rd.val ∧ s.ieOnly t e.val) ∧
  (∀ (s : State) (e : Fin 8) (i : IeSt) (rd rs rt : Fin 16), (s.ie e.val = i) → (s.plainIssue e.val) → Gives (.ieAnd e rd rs rt) s fun t => (t.ie e.val).val rd = (sx 32 (tz 32 ((i.reg rs &&& i.reg rt).toInt))) ∧ (t.ie e.val).fl flZ = decide ((t.ie e.val).val rd = 0) ∧ (t.ie e.val).fl flN = decide ((t.ie e.val).val rd < 0) ∧ (t.ie e.val).fl flV = i.land.fl flV ∧ i.dataNext (t.ie e.val) rd.val ∧ (t.ie e.val).reg rd = i.reg rs &&& i.reg rt ∧ s.ieOnly t e.val) ∧
  (∀ (s : State) (e : Fin 8) (i : IeSt) (rd rs rt : Fin 16), (s.ie e.val = i) → (s.plainIssue e.val) → Gives (.ieOr e rd rs rt) s fun t => (t.ie e.val).val rd = (sx 32 (tz 32 ((i.reg rs ||| i.reg rt).toInt))) ∧ (t.ie e.val).fl flZ = decide ((t.ie e.val).val rd = 0) ∧ (t.ie e.val).fl flN = decide ((t.ie e.val).val rd < 0) ∧ (t.ie e.val).fl flV = i.land.fl flV ∧ i.dataNext (t.ie e.val) rd.val ∧ (t.ie e.val).reg rd = i.reg rs ||| i.reg rt ∧ s.ieOnly t e.val) ∧
  (∀ (s : State) (e : Fin 8) (i : IeSt) (rd rs rt : Fin 16), (s.ie e.val = i) → (s.plainIssue e.val) → Gives (.ieXor e rd rs rt) s fun t => (t.ie e.val).val rd = (sx 32 (tz 32 ((i.reg rs ^^^ i.reg rt).toInt))) ∧ (t.ie e.val).fl flZ = decide ((t.ie e.val).val rd = 0) ∧ (t.ie e.val).fl flN = decide ((t.ie e.val).val rd < 0) ∧ (t.ie e.val).fl flV = i.land.fl flV ∧ i.dataNext (t.ie e.val) rd.val ∧ (t.ie e.val).reg rd = i.reg rs ^^^ i.reg rt ∧ s.ieOnly t e.val) ∧
  (∀ (s : State) (e : Fin 8) (i : IeSt) (rd rs : Fin 16) (imm : BitVec 16), (s.ie e.val = i) → (s.plainIssue e.val) → Gives (.ieOri e rd rs imm) s fun t => (t.ie e.val).val rd = (sx 32 (tz 32 ((i.reg rs ||| imm.setWidth 32).toInt))) ∧ (t.ie e.val).fl flZ = decide ((t.ie e.val).val rd = 0) ∧ (t.ie e.val).fl flN = decide ((t.ie e.val).val rd < 0) ∧ (t.ie e.val).fl flV = i.land.fl flV ∧ i.dataNext (t.ie e.val) rd.val ∧ (t.ie e.val).reg rd = i.reg rs ||| imm.setWidth 32 ∧ s.ieOnly t e.val) ∧
  (∀ (s : State) (e : Fin 8) (i : IeSt) (rd rs : Fin 16) (sh : BitVec 5), (s.ie e.val = i) → (s.plainIssue e.val) → Gives (.ieShr e rd rs sh) s fun t => (t.ie e.val).val rd = (sx 32 (tz 32 ((i.reg rs >>> sh.toNat).toInt))) ∧ (t.ie e.val).fl flZ = decide ((t.ie e.val).val rd = 0) ∧ (t.ie e.val).fl flN = decide ((t.ie e.val).val rd < 0) ∧ (t.ie e.val).fl flV = i.land.fl flV ∧ i.dataNext (t.ie e.val) rd.val ∧ (t.ie e.val).reg rd = i.reg rs >>> sh.toNat ∧ s.ieOnly t e.val) ∧
  (∀ (s : State) (e : Fin 8) (i : IeSt) (rd rs : Fin 16), (s.ie e.val = i) → (s.plainIssue e.val) → Gives (.ieMov e rd rs) s fun t => (t.ie e.val).val rd = (sx 32 (tz 32 ((i.reg rs).toInt))) ∧ (t.ie e.val).fl flZ = decide ((t.ie e.val).val rd = 0) ∧ (t.ie e.val).fl flN = decide ((t.ie e.val).val rd < 0) ∧ (t.ie e.val).fl flV = i.land.fl flV ∧ i.dataNext (t.ie e.val) rd.val ∧ (t.ie e.val).reg rd = i.reg rs ∧ s.ieOnly t e.val)

/-- CMP and CMPI set Z and N from the exact difference and write no register; LDI and LUI load constants without flags; MODA steps a pointer; MVTA and MVFA reach the special registers; FLAG clears and sets flag bits, and with SIG latches SIGNAL; NOP does nothing more. Where the manual is silent it rests on the model's own choice or reading: log entries 67 and 69. -/
def Obligations.IeComparesAndMoves : Prop :=
  (∀ (s : State) (e : Fin 8) (i : IeSt) (rs rt : Fin 16), (s.ie e.val = i) → (s.plainIssue e.val) → Gives (.ieCmp e rs rt) s fun t => (t.ie e.val).fl flZ = decide (i.val rs - i.val rt = 0) ∧ (t.ie e.val).fl flN = decide (i.val rs - i.val rt < 0) ∧ (t.ie e.val).fl flV = i.land.fl flV ∧ i.dataNext (t.ie e.val) 16 ∧ s.ieOnly t e.val) ∧
  (∀ (s : State) (e : Fin 8) (i : IeSt) (rs : Fin 16) (imm : BitVec 17), (s.ie e.val = i) → (s.plainIssue e.val) → Gives (.ieCmpi e rs imm) s fun t => (t.ie e.val).fl flZ = decide (i.val rs - imm.toInt = 0) ∧ (t.ie e.val).fl flN = decide (i.val rs - imm.toInt < 0) ∧ (t.ie e.val).fl flV = i.land.fl flV ∧ i.dataNext (t.ie e.val) 16 ∧ s.ieOnly t e.val) ∧
  (∀ (s : State) (e : Fin 8) (i : IeSt) (rd : Fin 16) (imm : BitVec 21), (s.ie e.val = i) → (s.plainIssue e.val) → Gives (.ieLdi e rd imm) s fun t => i.follows (t.ie e.val) (i.land.setReg rd (imm.signExtend 32)) false ∧ s.ieOnly t e.val) ∧
  (∀ (s : State) (e : Fin 8) (i : IeSt) (rd : Fin 16) (imm : BitVec 16), (s.ie e.val = i) → (s.plainIssue e.val) → Gives (.ieLui e rd imm) s fun t => i.follows (t.ie e.val) (i.land.setReg rd (imm.zeroExtend 32 <<< 16)) false ∧ s.ieOnly t e.val) ∧
  (∀ (s : State) (e : Fin 8) (i : IeSt) (ai : Fin 8) (md : Fin 4), (s.ie e.val = i) → (s.plainIssue e.val) → Gives (.ieModa e ai md) s fun t => i.follows (t.ie e.val) (if md.val = 0 then i.land else i.land.setSpec (spA ai) (i.addr ai (i.modStep ai md))) false ∧ s.ieOnly t e.val) ∧
  (∀ (s : State) (e : Fin 8) (i : IeSt) (k : Fin 64) (rs : Fin 16), (s.ie e.val = i) → (s.plainIssue e.val) → Gives (.ieMvta e k rs) s fun t => i.follows (t.ie e.val) (i.land.writeSpec k (i.reg rs).toNat) false ∧ s.ieOnly t e.val) ∧
  (∀ (s : State) (e : Fin 8) (i : IeSt) (rd : Fin 16) (k : Fin 64), (s.ie e.val = i) → (s.plainIssue e.val) → Gives (.ieMvfa e rd k) s fun t => i.follows (t.ie e.val) (i.land.setReg rd (i.readSpec e k)) false ∧ s.ieOnly t e.val) ∧
  (∀ (s : State) (e : Fin 8) (i : IeSt) (st cl : BitVec 5), (s.ie e.val = i) → (s.plainIssue e.val) → Gives (.ieFlag e false st cl) s fun t => i.follows (t.ie e.val) (i.land.setSpec spFL (i.land.spec spFL / 32 * 32 + ((i.land.spec spFL % 32 &&& (31 - cl.toNat)) ||| st.toNat))) false ∧ s.ieOnly t e.val) ∧
  (∀ (s : State) (e : Fin 8) (i : IeSt) (st cl : BitVec 5), (s.quiet) → (s.ie e.val = i) → (s.plainIssue e.val) → Gives (.ieFlag e true st cl) s fun t => t.hasEvent (eIE e.val) 4 = true ∧ i.follows (t.ie e.val) (i.land.setSpec spFL (i.land.spec spFL / 32 * 32 + ((i.land.spec spFL % 32 &&& (31 - cl.toNat)) ||| st.toNat))) false ∧ s.keeps t [(R.IE_S_STATE.pg e.val).addr, (R.IE_PC_PC.pg e.val).addr, evKey (eIE e.val)] ∧ t = { s.regsOf t with ies := t.ies }) ∧
  (∀ (s : State) (e : Fin 8) (i : IeSt), (s.ie e.val = i) → (s.plainIssue e.val) → Gives (.ieNop e) s fun t => i.follows (t.ie e.val) i.land false ∧ s.ieOnly t e.val)

/-- LD puts the addressed word on its way to rd, ST stores rs at the computed address and nowhere else, and both post-modify their pointer; at an address outside the data space LD brings 0 and ST stores nothing, and the address and the PC are recorded and BAD_ADDR latched. Where the manual is silent it rests on the model's own choice or reading: log entry 67. -/
def Obligations.IeLoadsAndStores : Prop :=
  (∀ (s : State) (e : Fin 8) (i : IeSt) (rd : Fin 16) (ai : Fin 8) (md : Fin 4) (disp : BitVec 16), (s.ie e.val = i) → (s.plainIssue e.val) → (!badLoad (i.addr ai disp.toInt)) → Gives (.ieLd e rd ai md disp) s fun t => i.follows (t.ie e.val) (if md.val = 0 then { i.land with ld := some (rd.val, i.load (i.addr ai disp.toInt)) } else { i.land with ld := some (rd.val, i.load (i.addr ai disp.toInt)) }.setSpec (spA ai) (i.postMod ai md)) true ∧ s.ieOnly t e.val) ∧
  (∀ (s : State) (e : Fin 8) (i : IeSt) (rs : Fin 16) (ai : Fin 8) (md : Fin 4) (disp : BitVec 16), (s.ie e.val = i) → (s.plainIssue e.val) → (!badStore (i.addr ai disp.toInt)) → Gives (.ieSt e rs ai md disp) s fun t => ((i.addr ai disp.toInt) < 0x10000 → (t.ie e.val).load (i.addr ai disp.toInt) = i.reg rs) ∧ (∀ a, a ≠ (i.addr ai disp.toInt) → a < 0x10000 → (t.ie e.val).load a = i.load a) ∧ i.follows (t.ie e.val) (if md.val = 0 then (i.land.store (i.addr ai disp.toInt) (i.reg rs)) else (i.land.store (i.addr ai disp.toInt) (i.reg rs)).setSpec (spA ai) (i.postMod ai md)) false ∧ s.ieOnly t e.val) ∧
  (∀ (s : State) (e : Fin 8) (i : IeSt) (rd : Fin 16) (ai : Fin 8) (disp : BitVec 16), (s.quiet) → (s.ie e.val = i) → (s.plainIssue e.val) → (badLoad (i.addr ai disp.toInt)) → Gives (.ieLd e rd ai 0 disp) s fun t => t.hasEvent (eIE e.val) 5 = true ∧ t.get (R.IE_BAD_ADDR_ADDR.pg e.val) = (i.addr ai disp.toInt) % 2 ^ 17 ∧ t.get (R.IE_BAD_ADDR_PC.pg e.val) = i.pc % 2 ^ 14 ∧ i.follows (t.ie e.val) { i.land with ld := some (rd.val, 0) } true ∧ s.keeps t [(R.IE_S_STATE.pg e.val).addr, (R.IE_PC_PC.pg e.val).addr, evKey (eIE e.val), (R.IE_BAD_ADDR_ADDR.pg e.val).addr] ∧ t = { s.regsOf t with ies := t.ies }) ∧
  (∀ (s : State) (e : Fin 8) (i : IeSt) (rs : Fin 16) (ai : Fin 8) (disp : BitVec 16), (s.quiet) → (s.ie e.val = i) → (s.plainIssue e.val) → (badStore (i.addr ai disp.toInt)) → Gives (.ieSt e rs ai 0 disp) s fun t => t.hasEvent (eIE e.val) 5 = true ∧ t.get (R.IE_BAD_ADDR_ADDR.pg e.val) = (i.addr ai disp.toInt) % 2 ^ 17 ∧ t.get (R.IE_BAD_ADDR_PC.pg e.val) = i.pc % 2 ^ 14 ∧ i.follows (t.ie e.val) i.land false ∧ s.keeps t [(R.IE_S_STATE.pg e.val).addr, (R.IE_PC_PC.pg e.val).addr, evKey (eIE e.val), (R.IE_BAD_ADDR_ADDR.pg e.val).addr] ∧ t = { s.regsOf t with ies := t.ies })

/-- MAC, DMAC, MXY and DMXY: each accumulator takes the addend plus or minus the exact product under the S rule, AV is on its way exactly on an overflow, the operands of MXY and DMXY come from X and Y memory with their pointers post-modified (one pointer named twice by the one modification there is; with two its value is free) and XL loaded, the clock count goes on, and every other special register, accumulator, register and word of memory is kept. SAC brings a shifted accumulator to a register under the S rule; LAC loads a shifted register; ADDA and SUBA combine two accumulators; SHA shifts one; CLRA clears those named in its mask; shift amounts outside the range that the spec states give a free value and the instruction still completes. Where the manual is silent it rests on the model's own choice or reading: log entries 67, 68 and 69. -/
def Obligations.IeAccumulation : Prop :=
  (∀ (s : State) (e : Fin 8) (i : IeSt) (st : Bool) (k : Fin 8) (rs rt : Fin 16) (neg clr : Bool), (s.ie e.val = i) → (s.plainIssue e.val) → Gives (.ieMac e st k rs rt neg clr) s fun t => (t.ie e.val).accD k.val = (if st then satI 72 (i.addend clr k.val + signed neg (i.val rs * i.val rt)) else sx 72 (tz 72 (i.addend clr k.val + signed neg (i.val rs * i.val rt)))) ∧ (t.ie e.val).av = ovfI 72 (i.addend clr k.val + signed neg (i.val rs * i.val rt)) ∧ i.follows (t.ie e.val) { i.land with acc := tset zeroAt i.acc (k.val % 8) ((t.ie e.val).accD k.val), av := (t.ie e.val).av } true ∧ s.ieOnly t e.val) ∧
  (∀ (s : State) (e : Fin 8) (i : IeSt) (st : Bool) (k : Fin 8) (rs rt ru rv : Fin 16) (neg clr : Bool), (s.ie e.val = i) → (s.plainIssue e.val) → Gives (.ieDmac e st k rs rt ru rv neg clr) s fun t => (t.ie e.val).accD (k.val / 2 * 2) = (if st then satI 72 (i.addend clr (k.val / 2 * 2) + signed neg (i.val rs * i.val rt)) else sx 72 (tz 72 (i.addend clr (k.val / 2 * 2) + signed neg (i.val rs * i.val rt)))) ∧ (t.ie e.val).accD ((k.val / 2 * 2) + 1) = (if st then satI 72 (i.addend clr ((k.val / 2 * 2) + 1) + signed neg (i.val ru * i.val rv)) else sx 72 (tz 72 (i.addend clr ((k.val / 2 * 2) + 1) + signed neg (i.val ru * i.val rv)))) ∧ (t.ie e.val).av = (ovfI 72 (i.addend clr (k.val / 2 * 2) + signed neg (i.val rs * i.val rt)) || ovfI 72 (i.addend clr ((k.val / 2 * 2) + 1) + signed neg (i.val ru * i.val rv))) ∧ ((List.range 8).all fun q => q == (k.val / 2 * 2) || q == (k.val / 2 * 2) + 1 || (t.ie e.val).accD q == i.accD q) ∧ (t.ie e.val) = { i.land with sp := (t.ie e.val).sp, acc := (t.ie e.val).acc, av := (t.ie e.val).av, hazard := true, rep := 0, pc := (i.pc + 1) % 2 ^ 14 } ∧ (t.ie e.val).spec spCYC = (i.land.spec spCYC + 1) % 2 ^ 18 ∧ (∀ q, q ≠ spCYC → (t.ie e.val).spec q = i.land.spec q) ∧ s.ieOnly t e.val) ∧
  (∀ (s : State) (e : Fin 8) (i : IeSt) (st : Bool) (k ai : Fin 8) (mi : Fin 4) (aj : Fin 8) (mj : Fin 4) (neg clr : Bool), (s.ie e.val = i) → (s.plainIssue e.val) → Gives (.ieMxy e st k ai mi aj mj neg clr) s fun t => (t.ie e.val).accD k.val = (if st then satI 72 (i.addend clr k.val + signed neg ((tget zeroAt i.dm (xAddr (i.spec (spA ai)))).toInt * (tget zeroAt i.dm (yAddr (i.spec (spA aj)))).toInt)) else sx 72 (tz 72 (i.addend clr k.val + signed neg ((tget zeroAt i.dm (xAddr (i.spec (spA ai)))).toInt * (tget zeroAt i.dm (yAddr (i.spec (spA aj)))).toInt)))) ∧ (t.ie e.val).av = ovfI 72 (i.addend clr k.val + signed neg ((tget zeroAt i.dm (xAddr (i.spec (spA ai)))).toInt * (tget zeroAt i.dm (yAddr (i.spec (spA aj)))).toInt)) ∧ (∀ q, q ≠ spXL → q ≠ spCYC → q ≠ spA ai → q ≠ spA aj → (t.ie e.val).spec q = i.land.spec q) ∧ (t.ie e.val).spec spCYC = (i.land.spec spCYC + 1) % 2 ^ 18 ∧ (ai = aj → mi.val = 0 ∨ mj.val = 0 → (t.ie e.val).spec (spA ai) = (if mi.val ≠ 0 then i.postMod ai mi else if mj.val ≠ 0 then i.postMod aj mj else i.land.spec (spA ai))) ∧ (t.ie e.val).spec spXL = (tget zeroAt i.dm (xAddr (i.spec (spA ai)))).toNat ∧ (ai ≠ aj → (t.ie e.val).spec (spA ai) = (if mi = 0 then i.land.spec (spA ai) else i.postMod ai mi) ∧ (t.ie e.val).spec (spA aj) = (if mj = 0 then i.land.spec (spA aj) else i.postMod aj mj)) ∧ (t.ie e.val) = { i.land with sp := (t.ie e.val).sp, acc := (t.ie e.val).acc, av := (t.ie e.val).av, hazard := true, rep := 0, pc := (i.pc + 1) % 2 ^ 14 } ∧ ((List.range 8).all fun q => q == k.val || (t.ie e.val).accD q == i.accD q) ∧ s.ieOnly t e.val) ∧
  (∀ (s : State) (e : Fin 8) (i : IeSt) (st : Bool) (k ai : Fin 8) (mi : Fin 4) (aj : Fin 8) (mj : Fin 4) (neg clr : Bool), (s.ie e.val = i) → (s.plainIssue e.val) → Gives (.ieDmxy e st k ai mi aj mj neg clr) s fun t => (t.ie e.val).accD (k.val / 2 * 2) = (if st then satI 72 (i.addend clr (k.val / 2 * 2) + signed neg ((tget zeroAt i.dm (xAddr (i.spec (spA ai)))).toInt * (tget zeroAt i.dm (yAddr (i.spec (spA aj)))).toInt)) else sx 72 (tz 72 (i.addend clr (k.val / 2 * 2) + signed neg ((tget zeroAt i.dm (xAddr (i.spec (spA ai)))).toInt * (tget zeroAt i.dm (yAddr (i.spec (spA aj)))).toInt)))) ∧ (t.ie e.val).accD ((k.val / 2 * 2) + 1) = (if st then satI 72 (i.addend clr ((k.val / 2 * 2) + 1) + signed neg (sx 32 (i.spec spXL) * (tget zeroAt i.dm (yAddr (i.spec (spA aj)))).toInt)) else sx 72 (tz 72 (i.addend clr ((k.val / 2 * 2) + 1) + signed neg (sx 32 (i.spec spXL) * (tget zeroAt i.dm (yAddr (i.spec (spA aj)))).toInt)))) ∧ (t.ie e.val).av = (ovfI 72 (i.addend clr (k.val / 2 * 2) + signed neg ((tget zeroAt i.dm (xAddr (i.spec (spA ai)))).toInt * (tget zeroAt i.dm (yAddr (i.spec (spA aj)))).toInt)) || ovfI 72 (i.addend clr ((k.val / 2 * 2) + 1) + signed neg (sx 32 (i.spec spXL) * (tget zeroAt i.dm (yAddr (i.spec (spA aj)))).toInt))) ∧ (∀ q, q ≠ spXL → q ≠ spCYC → q ≠ spA ai → q ≠ spA aj → (t.ie e.val).spec q = i.land.spec q) ∧ (t.ie e.val).spec spCYC = (i.land.spec spCYC + 1) % 2 ^ 18 ∧ (ai = aj → mi.val = 0 ∨ mj.val = 0 → (t.ie e.val).spec (spA ai) = (if mi.val ≠ 0 then i.postMod ai mi else if mj.val ≠ 0 then i.postMod aj mj else i.land.spec (spA ai))) ∧ (t.ie e.val).spec spXL = (tget zeroAt i.dm (xAddr (i.spec (spA ai)))).toNat ∧ (ai ≠ aj → (t.ie e.val).spec (spA ai) = (if mi = 0 then i.land.spec (spA ai) else i.postMod ai mi) ∧ (t.ie e.val).spec (spA aj) = (if mj = 0 then i.land.spec (spA aj) else i.postMod aj mj)) ∧ ((List.range 8).all fun q => q == (k.val / 2 * 2) || q == (k.val / 2 * 2) + 1 || (t.ie e.val).accD q == i.accD q) ∧ (t.ie e.val) = { i.land with sp := (t.ie e.val).sp, acc := (t.ie e.val).acc, av := (t.ie e.val).av, hazard := true, rep := 0, pc := (i.pc + 1) % 2 ^ 14 } ∧ s.ieOnly t e.val) ∧
  (∀ (s : State) (e : Fin 8) (i : IeSt) (st : Bool) (rd : Fin 16) (k : Fin 8) (sh : BitVec 8) (rnd : Bool), (s.ie e.val = i) → (s.plainIssue e.val) → Gives (.ieSac e st rd k sh rnd) s fun t => (t.ie e.val).val rd = (if st then satI 32 (sacValue (i.accS k.val) sh.toNat rnd) else sx 32 (tz 32 (sacValue (i.accS k.val) sh.toNat rnd))) ∧ (t.ie e.val).fl flZ = decide ((t.ie e.val).val rd = 0) ∧ (t.ie e.val).fl flN = decide ((t.ie e.val).val rd < 0) ∧ (t.ie e.val).fl flV = (i.land.fl flV || (st && ovfI 32 (sacValue (i.accS k.val) sh.toNat rnd))) ∧ i.dataNext (t.ie e.val) rd.val ∧ s.ieOnly t e.val) ∧
  (∀ (s : State) (e : Fin 8) (i : IeSt) (k : Fin 8) (rs : Fin 16) (sh : BitVec 8), (s.ie e.val = i) → (s.plainIssue e.val) → Gives (.ieLac e k rs sh) s fun t => (t.ie e.val).accD k.val = sx 72 (tz 72 (if 39 < sh.toNat then Config.shiftOut 0x35 sh.toNat (i.val rs) else i.val rs * 2 ^ sh.toNat)) ∧ (t.ie e.val).av = ovfI 72 (if 39 < sh.toNat then Config.shiftOut 0x35 sh.toNat (i.val rs) else i.val rs * 2 ^ sh.toNat) ∧ i.follows (t.ie e.val) { i.land with acc := tset zeroAt i.acc (k.val % 8) ((t.ie e.val).accD k.val), av := (t.ie e.val).av } true ∧ s.ieOnly t e.val) ∧
  (∀ (s : State) (e : Fin 8) (i : IeSt) (st : Bool) (k j : Fin 8), (s.ie e.val = i) → (s.plainIssue e.val) → Gives (.ieAdda e st k j) s fun t => (t.ie e.val).accD k.val = (if st then satI 72 (i.accD k.val + i.accS j.val) else sx 72 (tz 72 (i.accD k.val + i.accS j.val))) ∧ (t.ie e.val).av = ovfI 72 (i.accD k.val + i.accS j.val) ∧ i.follows (t.ie e.val) { i.land with acc := tset zeroAt i.acc (k.val % 8) ((t.ie e.val).accD k.val), av := (t.ie e.val).av } true ∧ s.ieOnly t e.val) ∧
  (∀ (s : State) (e : Fin 8) (i : IeSt) (st : Bool) (k j : Fin 8), (s.ie e.val = i) → (s.plainIssue e.val) → Gives (.ieSuba e st k j) s fun t => (t.ie e.val).accD k.val = (if st then satI 72 (i.accD k.val - i.accS j.val) else sx 72 (tz 72 (i.accD k.val - i.accS j.val))) ∧ (t.ie e.val).av = ovfI 72 (i.accD k.val - i.accS j.val) ∧ i.follows (t.ie e.val) { i.land with acc := tset zeroAt i.acc (k.val % 8) ((t.ie e.val).accD k.val), av := (t.ie e.val).av } true ∧ s.ieOnly t e.val) ∧
  (∀ (s : State) (e : Fin 8) (i : IeSt) (st : Bool) (k : Fin 8) (sh : BitVec 8), (s.ie e.val = i) → (s.plainIssue e.val) → Gives (.ieSha e st k sh) s fun t => (t.ie e.val).accD k.val = (if st then satI 72 (shaValue (i.accD k.val) sh.toInt) else sx 72 (tz 72 (shaValue (i.accD k.val) sh.toInt))) ∧ (t.ie e.val).av = ovfI 72 (shaValue (i.accD k.val) sh.toInt) ∧ i.follows (t.ie e.val) { i.land with acc := tset zeroAt i.acc (k.val % 8) ((t.ie e.val).accD k.val), av := (t.ie e.val).av } true ∧ s.ieOnly t e.val) ∧
  (∀ (s : State) (e : Fin 8) (i : IeSt) (mask : BitVec 8), (s.ie e.val = i) → (s.plainIssue e.val) → Gives (.ieClra e mask) s fun t => ((List.range 8).all fun q => (t.ie e.val).accD q == if bitOf mask.toNat q then 0 else i.accD q) ∧ (t.ie e.val).av = false ∧ (t.ie e.val) = { i.land with sp := (t.ie e.val).sp, acc := (t.ie e.val).acc, av := (t.ie e.val).av, hazard := true, rep := 0, pc := (i.pc + 1) % 2 ^ 14 } ∧ (∀ q, q ≠ spCYC → (t.ie e.val).spec q = i.land.spec q) ∧ s.ieOnly t e.val)

/-- BR, CALL, RET, RETI and DONE leave two delay slots and what follows them; CALL saves the address after the slots; REP and REPR repeat the next instruction; LOOP and LOOPR open a loop from the next instruction to their last one. A repeated instruction leaves the PC until its last repetition; the last instruction of a loop goes back while repetitions are left and otherwise on; the second delay slot of a taken branch lands at its target. A branch in a delay slot is a fault. Where the manual is silent it rests on the model's own choice or reading: log entry 67. -/
def Obligations.IeBranches : Prop :=
  (∀ (s : State) (e : Fin 8) (i : IeSt) (cc : Fin 16) (tg : BitVec 14), (s.ie e.val = i) → (s.plainIssue e.val) → Gives (.ieBr e cc tg) s fun t => i.branched (t.ie e.val) 2 (if i.cond cc then .jump tg.toNat true else .seq) (0) ([]) (i.land.spec spRA) ∧ s.ieOnly t e.val) ∧
  (∀ (s : State) (e : Fin 8) (i : IeSt) (cc : Fin 16) (tg : BitVec 14), (s.ie e.val = i) → (s.plainIssue e.val) → Gives (.ieCall e cc tg) s fun t => i.branched (t.ie e.val) 2 (if i.cond cc then .jump tg.toNat false else .seq) (0) ([]) (if i.cond cc then (i.pc + 3) % 2 ^ 14 else i.spec spRA) ∧ s.ieOnly t e.val) ∧
  (∀ (s : State) (e : Fin 8) (i : IeSt) (cc : Fin 16), (s.ie e.val = i) → (s.plainIssue e.val) → Gives (.ieRet e cc) s fun t => i.branched (t.ie e.val) 2 (if i.cond cc then .jump (i.spec spRA) false else .seq) (0) ([]) (i.land.spec spRA) ∧ s.ieOnly t e.val) ∧
  (∀ (s : State) (e : Fin 8) (i : IeSt), (s.ie e.val = i) → (s.plainIssue e.val) → Gives (.ieReti e) s fun t => i.branched (t.ie e.val) 2 (.reti) (0) ([]) (i.land.spec spRA) ∧ s.ieOnly t e.val) ∧
  (∀ (s : State) (e : Fin 8) (i : IeSt), (s.ie e.val = i) → (s.plainIssue e.val) → Gives (.ieDone e) s fun t => i.branched (t.ie e.val) 2 (.done) (0) ([]) (i.land.spec spRA) ∧ s.ieOnly t e.val) ∧
  (∀ (s : State) (e : Fin 8) (i : IeSt) (n : BitVec 12), (s.ie e.val = i) → (s.plainIssue e.val) → Gives (.ieRep e n) s fun t => i.branched (t.ie e.val) 0 (.seq) (if n = 0 then 4096 else n.toNat) ([]) (i.land.spec spRA) ∧ s.ieOnly t e.val) ∧
  (∀ (s : State) (e : Fin 8) (i : IeSt) (rs : Fin 16), (s.ie e.val = i) → (s.plainIssue e.val) → Gives (.ieRepr e rs) s fun t => i.branched (t.ie e.val) 0 (.seq) (count12 (i.reg rs).toNat) ([]) (i.land.spec spRA) ∧ s.ieOnly t e.val) ∧
  (∀ (s : State) (e : Fin 8) (i : IeSt) (n : BitVec 12) (last : BitVec 14), (s.ie e.val = i) → (s.plainIssue e.val) → ((i.pc + 1) % 2 ^ 14 ≤ last.toNat) → Gives (.ieLoop e n last) s fun t => i.branched (t.ie e.val) 0 (.seq) (0) ([((i.pc + 1) % 2 ^ 14, last.toNat, count12 n.toNat)]) (i.land.spec spRA) ∧ s.ieOnly t e.val) ∧
  (∀ (s : State) (e : Fin 8) (i : IeSt) (rs : Fin 16) (last : BitVec 14), (s.ie e.val = i) → (s.plainIssue e.val) → ((i.pc + 1) % 2 ^ 14 ≤ last.toNat) → Gives (.ieLoopr e rs last) s fun t => i.branched (t.ie e.val) 0 (.seq) (0) ([((i.pc + 1) % 2 ^ 14, last.toNat, count12 (i.reg rs).toNat)]) (i.land.spec spRA) ∧ s.ieOnly t e.val) ∧
  (∀ (s : State) (e : Fin 8) (i : IeSt), (s.ie e.val = i) → (s.ieIssues e.val) → (i.slots = 0) → (1 < i.rep) → Gives (.ieNop e) s fun t => (t.ie e.val).rep = i.rep - 1 ∧ (t.ie e.val).pc = i.pc ∧ s.ieOnly t e.val) ∧
  (∀ (s : State) (e : Fin 8) (i : IeSt) (a b n : Nat), (s.ie e.val = i) → (s.ieIssues e.val) → (i.slots = 0) → (i.rep = 0) → (i.loops = [(a, b, n)]) → (i.pc = b) → (1 < n) → Gives (.ieNop e) s fun t => (t.ie e.val).pc = a ∧ (t.ie e.val).loops = [(a, b, n - 1)] ∧ s.ieOnly t e.val) ∧
  (∀ (s : State) (e : Fin 8) (i : IeSt) (a b : Nat), (s.ie e.val = i) → (s.ieIssues e.val) → (i.slots = 0) → (i.rep = 0) → (i.loops = [(a, b, 1)]) → (i.pc = b) → Gives (.ieNop e) s fun t => (t.ie e.val).pc = (i.pc + 1) % 2 ^ 14 ∧ (t.ie e.val).loops = [] ∧ s.ieOnly t e.val) ∧
  (∀ (s : State) (e : Fin 8) (i : IeSt) (p : Nat) (r : Bool), (s.ie e.val = i) → (s.ieIssues e.val) → (i.slots = 1) → (i.rep = 0) → (i.loops = []) → (i.act = .jump p r) → Gives (.ieNop e) s fun t => (t.ie e.val).pc = p ∧ (t.ie e.val).slots = 0 ∧ s.ieOnly t e.val) ∧
  (∀ (s : State) (e : Fin 8) (cc : Fin 16) (tg : BitVec 14), (s.quiet) → (s.ieIssues e.val) → ((s.ie e.val).slots ≠ 0) → Gives (.ieBr e cc tg) s fun t => t.ieState e.val = ieFault ∧ t.get (R.IE_FAULT_INFO_CAUSE.pg e.val) = 2 ∧ t.hasEvent (eIE e.val) 1 = true)

/-- A completion records CYC_LAST and the largest CYC and enters WAIT with FS clear; a reserved opcode stops the engine with cause ILLEGAL; an accepted interrupt saves PC and FL, clears IEN and goes to IVEC; at the exchange a waiting engine with its program in place starts it. DOORBELL raises the interrupt DOOR; HALT stops the engine and marks it HALTED; RESTART clears the mark and a FAULT and owes FS to a loaded program that is to run; DM_DATA reaches the selected data word and PM_DATA the selected program word, and each steps its address. Where the manual is silent it rests on the model's own choice or reading: log entries 67 and 69. -/
def Obligations.IeEventsAndHost : Prop :=
  (∀ (s : State) (e : Fin 8), (s.pageOn (eIE e.val)) → (s.ieState e.val = ieRun) → ((s.ie e.val).doneWait) → Gives (.completion e) s fun t => t.ieState e.val = ieWait ∧ t.get (R.IE_CYC_LAST_CYC.pg e.val) = (s.ie e.val).spec spCYC % 2 ^ 18 ∧ t.get (R.IE_CYC_MAX_CYC.pg e.val) = max ((s.ie e.val).spec spCYC) (s.get (R.IE_CYC_MAX_CYC.pg e.val)) % 2 ^ 18 ∧ (t.ie e.val).fl flFS = false ∧ (t.ie e.val).doneWait = false ∧ s.keeps t [(R.IE_S_STATE.pg e.val).addr, (R.IE_CYC_LAST_CYC.pg e.val).addr, (R.IE_CYC_MAX_CYC.pg e.val).addr] ∧ t = { s.regsOf t with ies := t.ies }) ∧
  (∀ (s : State) (e : Fin 8) (w : Word), (s.quiet) → (s.ieIssues e.val) → (decodeIe e w = none) → Gives (.illegalOpcode e w) s fun t => t.ieState e.val = ieFault ∧ t.get (R.IE_FAULT_INFO_CAUSE.pg e.val) = 1 ∧ t.get (R.IE_FAULT_INFO_PC.pg e.val) = (s.ie e.val).pc % 2 ^ 14 ∧ t.hasEvent (eIE e.val) 1 = true ∧ s.keeps t [(R.IE_S_STATE.pg e.val).addr, (R.IE_FAULT_INFO_PC.pg e.val).addr, evKey (eIE e.val), (R.IE_PC_PC.pg e.val).addr] ∧ t = { s.regsOf t with ies := t.ies }) ∧
  (∀ (s : State) (e : Fin 8), (s.ieAccepts e.val) → Gives (.interruptAccept e) s fun t => (t.ie e.val).spec spIPC = (s.ie e.val).pc ∧ (t.ie e.val).spec spIFL = (s.ie e.val).spec spFL ∧ (t.ie e.val).fl flIEN = false ∧ (t.ie e.val).pc = bits (s.ie e.val).cfg 29 16 ∧ t.is (R.IE_S_HANDLER.pg e.val) = true ∧ t.ieState e.val = s.ieState e.val ∧ s.keeps t [(R.IE_S_STATE.pg e.val).addr] ∧ t = { s.regsOf t with ies := t.ies }) ∧
  (∀ (s : State) (e : Fin 8), (s.exchCut ≤ s.slot) → (s.pageOn eMIX) → (s.pageOn (eIE e.val)) → (s.ieState e.val = ieWait) → ((s.ie e.val).handlers = []) → (!(s.ie e.val).startPending) → (!(s.ie e.val).reload) → (bitOf (s.n (0x900A0 + 0x1000 * e.val)) 31) → (!s.is (R.IE_S_HALTED.pg e.val)) → (s.loadedCrc e.val = s.activeCrc e.val) → Gives (.insertExchange) s fun t => t.exchCut = s.slot + 1 ∧ t.ieState e.val = ieRun ∧ (t.ie e.val).pc = s.n (0x900A0 + 0x1000 * e.val) % 2 ^ 14 ∧ (t.ie e.val).outBox = [] ∧ (t.ie e.val).spec spSHEET = s.sheet % 2 ^ 32) ∧
  (∀ (s : State) (m : Master) (v : Word) (e : Fin 8), (s.takes m.toNat (ieAddr e.val 0xC0)) → (bitOf v.toNat 0) → Gives (.doorbell m e v) s fun t => t.ie e.val = (s.ie e.val).setSpec spIPEND ((s.ie e.val).spec spIPEND ||| 1) ∧ t.bus = s.told m.toNat .ok [] ∧ s.keeps t [(ieAddr e.val 0xC0)] ∧ t = { s.regsOf t with bus := t.bus, ies := t.ies }) ∧
  (∀ (s : State) (m : Master) (v : Word) (e : Fin 8), (s.takes m.toNat (ieAddr e.val 8)) → (bitOf v.toNat 1) → (!bitOf v.toNat 0) → Gives (.halt m e v) s fun t => t.ieState e.val = ieStopped ∧ t.is (R.IE_S_HALTED.pg e.val) = true ∧ (t.ie e.val).handlers = [] ∧ (t.ie e.val).slots = 0 ∧ t.bus = s.told m.toNat .ok [] ∧ s.keeps t [(ieAddr e.val 8), (R.IE_S_STATE.pg e.val).addr] ∧ t = { s.regsOf t with bus := t.bus, ies := t.ies }) ∧
  (∀ (s : State) (m : Master) (v : Word) (e : Fin 8), (s.takes m.toNat (ieAddr e.val 8)) → (bitOf v.toNat 0) → (!bitOf v.toNat 1) → Gives (.restart m e v) s fun t => t.is (R.IE_S_HALTED.pg e.val) = false ∧ t.ieState e.val = (if s.ieState e.val = ieFault then ieStopped else s.ieState e.val) ∧ t.ie e.val = { s.ie e.val with fsNext := true } ∧ t.bus = s.told m.toNat .ok [] ∧ s.keeps t [(ieAddr e.val 8), (R.IE_S_STATE.pg e.val).addr] ∧ t = { s.regsOf t with bus := t.bus, ies := t.ies }) ∧
  (∀ (s : State) (m : Master) (v : Word) (e : Fin 8), (s.takes m.toNat (ieAddr e.val 0x104)) → (s.get (R.IE_DM_ADDR_ADDR.pg e.val) < 0x10000) → Gives (.dmDataAccess m e true v) s fun t => t.ie e.val = { s.ie e.val with dm := tset zeroAt (s.ie e.val).dm (s.get (R.IE_DM_ADDR_ADDR.pg e.val)) v } ∧ t.get (R.IE_DM_ADDR_ADDR.pg e.val) = (s.get (R.IE_DM_ADDR_ADDR.pg e.val) + 1) % 2 ^ 17 ∧ t.bus = s.told m.toNat .ok [] ∧ s.keeps t [(ieAddr e.val 0x104), (R.IE_DM_ADDR_ADDR.pg e.val).addr] ∧ t = { s.regsOf t with bus := t.bus, ies := t.ies }) ∧
  (∀ (s : State) (m : Master) (e : Fin 8) (v : Word), (s.sees m.toNat (ieAddr e.val 0x104) false) → (s.get (R.IE_DM_ADDR_ADDR.pg e.val) < 0x10000) → Gives (.dmDataAccess m e false v) s fun t => t.bus = s.told m.toNat .ok (leBytes 4 (tget zeroAt (s.ie e.val).dm (s.get (R.IE_DM_ADDR_ADDR.pg e.val))).toNat) ∧ t.get (R.IE_DM_ADDR_ADDR.pg e.val) = (s.get (R.IE_DM_ADDR_ADDR.pg e.val) + 1) % 2 ^ 17 ∧ s.keeps t [(R.IE_DM_ADDR_ADDR.pg e.val).addr] ∧ t = { s.regsOf t with bus := t.bus }) ∧
  (∀ (s : State) (m : Master) (e : Fin 8), (s.sees m.toNat (ieAddr e.val 0x10C) false) → Gives (.pmDataRead m e) s fun t => t.bus = s.told m.toNat .ok (leBytes 4 (tget zeroAt (s.ie e.val).pm (s.get (R.IE_PM_ADDR_ADDR.pg e.val))).toNat) ∧ t.get (R.IE_PM_ADDR_ADDR.pg e.val) = (s.get (R.IE_PM_ADDR_ADDR.pg e.val) + 1) % 2 ^ 14 ∧ s.keeps t [(R.IE_PM_ADDR_ADDR.pg e.val).addr] ∧ t = { s.regsOf t with bus := t.bus })

/-- A bulk transfer of one word from the SRAM brings it to data memory, ends with DONE and raises the interrupt BULK; a load whose image is read whole with the CRC that ACTIVE names leaves the engine STOPPED with the program in place, FS set and LOAD_DONE latched. Where the manual is silent it rests on the model's own choice or reading: log entry 78. -/
def Obligations.IeTransfers : Prop :=
  (∀ (s : State) (e : Fin 8) (b : BulkRun), (s.pageOn (eIE e.val)) → ((s.ie e.val).run = some b) → (b.len = 1) → (!b.toFabric) → (s.servesSram (0x38 + e.val) b.addr 4 false) → (s.clean b.addr 4) → (!ownArea b.addr) → (!ownArea (b.addr + 3)) → Gives (.bulkTransferDone e) s fun t => (t.ie e.val).run = none ∧ tget zeroAt (t.ie e.val).dm b.local0 = w32 (leAt (s.bytes b.addr 4) 0 4) ∧ bitOf (tget zeroAt (t.ie e.val).bulk 4) 1 = true ∧ bitOf ((t.ie e.val).spec spIPEND) 1 = true ∧ t.is (R.IE_S_BULK_BUSY.pg e.val) = false ∧ t.mem = s.mem) ∧
  (∀ (s : State) (e : Fin 8) (h b : List Byte) (p x y : Nat), (s.quiet) → (s.pageOn (eIE e.val)) → (s.ieState e.val = ieLoading) → ((s.readSome true (0x38 + e.val) (s.get64 (0x900A8 + 0x1000 * e.val) % 2 ^ 40) 16).1 = some (h, none)) → (imageCounts h = some (p, x, y)) → (((s.readSome true (0x38 + e.val) (s.get64 (0x900A8 + 0x1000 * e.val) % 2 ^ 40) 16).2.readSome true (0x38 + e.val) (s.get64 (0x900A8 + 0x1000 * e.val) % 2 ^ 40 + 16) (4 * (p + x + y))).1 = some (b, none)) → (crc64 (h ++ b) = s.activeCrc e.val) → Gives (.ieLoadDone e) s fun t => t.ieState e.val = ieStopped ∧ t.loadedCrc e.val = crc64 (h ++ b) ∧ t.hasEvent (eIE e.val) 2 = true ∧ (t.ie e.val).fl flFS = true ∧ (∀ k < p, tget zeroAt (t.ie e.val).pm k = w32 (leAt (h ++ b) (16 + 4 * k) 4)))

/-- A request that nothing stops reads the bytes that its addresses show, or writes its bytes and no other, answers OK and leaves the error and poison marks of its words as they were, none; bytes written to OBJ's bank are its record words; a write to a bank that a pending press holds is answered TERR, latches SHADOW_BUSY and writes nothing; a posted PCIe write writes the same bytes and is not answered, a PCIe read is answered with the bytes. Where the manual is silent it rests on the model's own choice or reading: log entries 55, 56 and 109. -/
def Obligations.SramAccesses : Prop :=
  (∀ (s : State) (m : Master) (a : Addr) (n : Nat), (s.servesSram m.toNat a.toNat n false) → (s.clean a.toNat n) → Gives (.sramRead m a n) s fun t => t.bus = s.told m.toNat .ok ((List.range n).map fun i => s.shown (s.freeCtr + i) (a.toNat + i)) ∧ t.mem = s.mem ∧ s.keeps t [0xA00AC, 0xA00B0] ∧ t = { s.regsOf t with bus := t.bus, freeCtr := t.freeCtr }) ∧
  (∀ (s : State) (m : Master) (a : Addr) (d : List Byte), (s.servesSram m.toNat a.toNat d.length true) → (s.clean a.toNat d.length) → (plainArea a.toNat d.length) → (inboxSlot a.toNat d.length = none) → Gives (.sramWrite m a d) s fun t => t.bus = s.told m.toNat .ok [] ∧ t.mem = (s.putBytes a.toNat d).mem ∧ (∀ w, tget zeroAt t.sramErr w = tget zeroAt s.sramErr w ∧ tget zeroAt t.poison w = tget zeroAt s.poison w) ∧ s.keeps t [0xA00AC, 0xA00B0] ∧ t = { s.regsOf t with bus := t.bus, mem := t.mem, sramErr := t.sramErr, poison := t.poison }) ∧
  (∀ (s : State) (m : Master) (a : Addr) (v : Word), (s.servesSram m.toNat a.toNat 4 true) → (s.clean a.toNat 4) → (0x11700000 ≤ a.toNat ∧ a.toNat < 0x11710000) → (!s.pressPending) → Gives (.sramWrite m a (leBytes 4 v.toNat)) s fun t => t.bus = s.told m.toNat .ok [] ∧ t.w (winKey 25 (if (a.toNat - 0x11700000) / 0x8000 = s.get R.OBJ0_BANK_ACTIVE then 1 else 0) (a.toNat % 0x8000 / 4)) = v ∧ t.mem = (s.putBytes a.toNat (leBytes 4 v.toNat)).mem ∧ s.keeps t [0xA00AC, 0xA00B0, winKey 25 (if (a.toNat - 0x11700000) / 0x8000 = s.get R.OBJ0_BANK_ACTIVE then 1 else 0) (a.toNat % 0x8000 / 4)] ∧ t = { s.regsOf t with bus := t.bus, mem := t.mem, sramErr := t.sramErr, poison := t.poison }) ∧
  (∀ (s : State) (m : Master) (a : Addr) (d : List Byte), (s.quiet) → (s.servesSram m.toNat a.toNat d.length true) → (s.bankShut a.toNat) → (s.clean a.toNat d.length) → Gives (.sramWrite m a d) s fun t => t.bus = s.told m.toNat .terr [] ∧ t.hasEvent ePRESS 2 = true ∧ s.keeps t [0xA00AC, 0xA00B0, evKey ePRESS] ∧ t = { s.regsOf t with bus := t.bus }) ∧
  (∀ (s : State) (fn : Fin 2) (a : Addr) (d : List Byte), (s.servesSram fn.val a.toNat d.length true) → (s.clean a.toNat d.length) → (plainArea a.toNat d.length) → (inboxSlot a.toNat d.length = none) → (pciePieces (d.map some).length a.toNat (d.map some) = [(a.toNat, d)]) → Gives (.pcieMemoryRequest fn a true (d.map some)) s fun t => t.mem = (s.putBytes a.toNat d).mem ∧ (∀ w, tget zeroAt t.sramErr w = tget zeroAt s.sramErr w ∧ tget zeroAt t.poison w = tget zeroAt s.poison w) ∧ s.keeps t [0xA00AC, 0xA00B0] ∧ t = { s.regsOf t with mem := t.mem, sramErr := t.sramErr, poison := t.poison }) ∧
  (∀ (s : State) (fn : Fin 2) (a : Addr) (bs : List (Option Byte)) (d : List Byte), (pciePieces bs.length a.toNat bs = [(a.toNat, d)]) → (d.length = bs.length) → (s.servesSram fn.val a.toNat bs.length false) → (s.clean a.toNat bs.length) → Gives (.pcieMemoryRequest fn a false bs) s fun t => t.bus = ⟨.ok, (List.range bs.length).map fun i => s.shown (s.freeCtr + i) (a.toNat + i)⟩ ∧ t.mem = s.mem ∧ s.keeps t [0xA00AC, 0xA00B0] ∧ t = { s.regsOf t with bus := t.bus, freeCtr := t.freeCtr })

/-- A visit to a good word moves the scrubber to the next word that is powered, or ends the pass, which is counted and latched; with SCRUB_EN 0 a visit does nothing; a visit corrects a byte in error, counts it for its bank and latches CORRECTED, and no byte of memory changes; an injection by a secure master inverts the bytes of the stored word and no data. Where the manual is silent it rests on the model's own choice or reading: log entries 2 and 105. -/
def Obligations.ScrubberAndInjection : Prop :=
  (∀ (s : State), (s.is R.SRAM_C_SCRUB_EN) → (s.pageOn eSRAM) → (s.nextScrub (s.get R.SRAM_SCRUB_POS_WORD) < sharedWords + 32 * vatWords) → (!s.poisoned (s.nextScrub (s.get R.SRAM_SCRUB_POS_WORD))) → (tget zeroAt s.sramErr (s.nextScrub (s.get R.SRAM_SCRUB_POS_WORD)) = 0) → (s.nextScrub (s.nextScrub (s.get R.SRAM_SCRUB_POS_WORD) + 1) < sharedWords + 32 * vatWords) → Gives (.scrubVisit) s fun t => t.get R.SRAM_SCRUB_POS_WORD = s.nextScrub (s.nextScrub (s.get R.SRAM_SCRUB_POS_WORD) + 1) ∧ s.keeps t [R.SRAM_SCRUB_POS_WORD.addr] ∧ t = s.regsOf t) ∧
  (∀ (s : State), (!s.is R.SRAM_C_SCRUB_EN || !s.pageOn eSRAM) → Gives (.scrubVisit) s fun t => s.keeps t [] ∧ t = s.regsOf t) ∧
  (∀ (s : State), (s.quiet) → (s.is R.SRAM_C_SCRUB_EN) → (s.pageOn eSRAM) → (s.nextScrub (s.get R.SRAM_SCRUB_POS_WORD) < sharedWords + 32 * vatWords) → (!s.poisoned (s.nextScrub (s.get R.SRAM_SCRUB_POS_WORD))) → (tget zeroAt s.sramErr (s.nextScrub (s.get R.SRAM_SCRUB_POS_WORD)) = 0) → (sharedWords + 32 * vatWords ≤ s.nextScrub (s.nextScrub (s.get R.SRAM_SCRUB_POS_WORD) + 1)) → Gives (.scrubVisit) s fun t => t.get R.SRAM_SCRUB_POS_WORD = 0 ∧ t.get R.SRAM_SCRUB_PASSES_COUNT = (s.get R.SRAM_SCRUB_PASSES_COUNT + 1) % 2 ^ 32 ∧ t.hasEvent eSRAM 2 = true ∧ s.keeps t [R.SRAM_SCRUB_POS_WORD.addr, R.SRAM_SCRUB_PASSES_COUNT.addr, evKey eSRAM] ∧ t = s.regsOf t) ∧
  (∀ (s : State) (w : Nat) (i : Fin 28) (v : Nat), (s.quiet) → (s.is R.SRAM_C_SCRUB_EN) → (s.pageOn eSRAM) → (s.nextScrub (s.get R.SRAM_SCRUB_POS_WORD) = w) → (w < sharedWords) → (!s.poisoned w) → (0 < v ∧ v < 256) → (tget zeroAt s.sramErr w = oneErr i v) → Gives (.scrubVisit) s fun t => tget zeroAt t.sramErr w = 0 ∧ t.n (0xA8100 + 4 * wordBank w) = (s.n (0xA8100 + 4 * wordBank w) + 1) % 2 ^ 32 ∧ (∀ a, t.byte a = s.byte a) ∧ t.hasEvent eSRAM 0 = true) ∧
  (∀ (s : State) (m : Master) (v : Word) (w : Nat), (s.takes m.toNat 0xA80A8) → (bitOf v.toNat 31) → (v.toNat % 4 ≠ 0) → (sramWord (s.get64 0xA80A0 % 2 ^ 40) = some w) → Gives (.sramInject m v) s fun t => tget zeroAt t.sramErr w = tget zeroAt s.sramErr w ^^^ invPattern (v.toNat % 4) ∧ (∀ x, x ≠ w → tget zeroAt t.sramErr x = tget zeroAt s.sramErr x) ∧ t.bus = s.told m.toNat .ok [] ∧ s.keeps t [0xA80A8] ∧ t = { s.regsOf t with bus := t.bus, sramErr := t.sramErr })

/-- The locked read of an AtomicOp takes the lock with the value that it will write; the closing write stores it, answers the old value and ends the lock; a closing write without the lock is answered LERR; a break ends a lock that a PCIe function holds, completes its AtomicOp with Completer Abort, counts it, records its master and latches LOCK_BREAK; an AtomicOp to the shared SRAM outside target 2 is answered with Completer Abort, recorded as refused and latches LOCK_REFUSED. Where the manual is silent it rests on the model's own choice or reading: log entries 2, 73, 74 and 111. -/
def Obligations.LockedSequences : Prop :=
  (∀ (s : State) (m : Master) (op : AtomicOp) (a : Addr) (wide : Bool) (x y : BitVec 64) (n : Nat), (n = (if wide then 8 else 4)) → (m.toNat = 0 ∨ m.toNat = 1 ∨ m.toNat = 3) → (targetOf a.toNat = 2) → (s.servesSram m.toNat a.toNat n false) → (s.clean a.toNat n) → Gives (.atomicOp m op a wide x y) s fun t => t.lock = some ⟨m.toNat, a.toNat, leBytes n (AtomReq.result ⟨op, wide, x.toNat % 2 ^ (8 * n), y.toNat % 2 ^ (8 * n)⟩ (leAt (s.bytes a.toNat n) 0 n) % 2 ^ (8 * n)), s.bytes a.toNat n⟩ ∧ t.is R.FAB_S_LOCK_HELD = true ∧ t.bus = s.told m.toNat .wait [] ∧ s.keeps t [0xA00AC, 0xA00B0, R.FAB_S_LOCK_HELD.addr] ∧ t = { s.regsOf t with lock := t.lock, bus := t.bus, freeCtr := t.freeCtr }) ∧
  (∀ (s : State) (m : Master) (a : Addr) (d o : List Byte), (s.lock = some ⟨m.toNat, a.toNat, d, o⟩) → (targetOf a.toNat = 2) → (State.servesSram { s with lock := none } m.toNat a.toNat d.length true) → (s.clean a.toNat d.length) → Gives (.closingWrite m a d) s fun t => t.lock = none ∧ t.mem = (s.putBytes a.toNat d).mem ∧ t.bus = s.told m.toNat .ok o ∧ t.is R.FAB_S_LOCK_HELD = false ∧ s.keeps t [0xA00AC, 0xA00B0, R.FAB_S_LOCK_HELD.addr] ∧ t = { s.regsOf t with lock := t.lock, bus := t.bus, mem := t.mem, sramErr := t.sramErr, poison := t.poison }) ∧
  (∀ (s : State) (m : Master) (a : Addr) (d : List Byte), (!s.noRequest m.toNat) → (s.lock = none) → Gives (.closingWrite m a d) s fun t => t.bus = ⟨.lerr, []⟩ ∧ s.keeps t [] ∧ t = { s.regsOf t with bus := t.bus }) ∧
  (∀ (s : State) (l : LockSt), (s.quiet) → (s.lock = some l) → (l.master ≠ 3) → (s.fabricIdle) → Gives (.lockBreak) s fun t => t.lock = none ∧ t.bus = ⟨.abort, []⟩ ∧ t.get R.FAB_LOCK_BREAK_CNT_COUNT = min (s.get R.FAB_LOCK_BREAK_CNT_COUNT + 1) (2 ^ 32 - 1) ∧ t.get R.FAB_LOCK_INFO_MASTER = l.master % 128 ∧ t.is R.FAB_S_LOCK_HELD = false ∧ t.hasEvent eFAB 4 = true ∧ s.keeps t [R.FAB_S_LOCK_HELD.addr, R.FAB_LOCK_BREAK_CNT_COUNT.addr, 0xA00A0, evKey eFAB] ∧ t = { s.regsOf t with lock := t.lock, bus := t.bus }) ∧
  (∀ (s : State), (s.lock = none) → Gives (.lockBreak) s fun t => s.keeps t [] ∧ t = s.regsOf t) ∧
  (∀ (s : State) (m : Master) (op : AtomicOp) (x y : BitVec 64) (a : Addr), (s.quiet) → (m.toNat = 0 ∨ m.toNat = 1) → (targetOf a.toNat = 1) → (a.toNat % 4 = 0) → (!s.noRequest m.toNat) → (s.fabricIdle) → (s.allowed m.toNat 1 a.toNat 4 false) → Gives (.atomicOp m op a false x y) s fun t => t.bus = ⟨.abort, []⟩ ∧ t.get R.FAB_LOCK_INFO_MASTER = m.toNat % 128 ∧ t.is R.FAB_LOCK_INFO_REFUSED = true ∧ t.hasEvent eFAB 5 = true ∧ s.keeps t [0xA00AC, 0xA00B0, 0xA00A0, evKey eFAB] ∧ t = { s.regsOf t with bus := t.bus })

/-- A request that its channel serves reads the bytes of memory, or writes its bytes and no other, answers OK, and counts one line read or written on its channel alone; a request to a channel at work waits, having taken the tokens of its line where its regulator port lets it pass; one that its port does not let pass waits there and takes none. Where the manual is silent it rests on the model's own choice or reading: log entries 71, 72 and 164. -/
def Obligations.DramAccesses : Prop :=
  (∀ (s : State) (m : Master) (a : Addr) (n : Nat) (p : Nat × Nat), (s.servesDram m.toNat a.toNat n false) → (s.dramMap a.toNat = some p) → (tget zeroAt s.dramErr (a.toNat / 64) = 0) → Gives (.dramRead m a n) s fun t => t.bus = s.told m.toNat .ok (s.bytes a.toNat n) ∧ t.get (R.DRC_RD_CNT_COUNT.pg p.1) = (s.get (R.DRC_RD_CNT_COUNT.pg p.1) + 1) % 2 ^ 32 ∧ t.mem = s.mem ∧ s.keeps t [(R.DRC_S_ROW_OPEN.pg p.1).addr, (R.DRC_HIT_CNT_COUNT.pg p.1).addr, (R.DRC_MISS_CNT_COUNT.pg p.1).addr, (R.DRC_RD_CNT_COUNT.pg p.1).addr] ∧ t = { s.regsOf t with bus := t.bus, chans := t.chans, buckets := t.buckets }) ∧
  (∀ (s : State) (m : Master) (a : Addr) (d : List Byte) (p : Nat × Nat), (s.servesDram m.toNat a.toNat d.length true) → (d.length = 64) → (s.dramMap a.toNat = some p) → (s.imageOf a.toNat = none) → Gives (.dramWrite m a d) s fun t => t.bus = s.told m.toNat .ok [] ∧ t.mem = (s.putBytes a.toNat d).mem ∧ t.get (R.DRC_WR_CNT_COUNT.pg p.1) = (s.get (R.DRC_WR_CNT_COUNT.pg p.1) + 1) % 2 ^ 32 ∧ tget zeroAt t.dramErr (a.toNat / 64) = 0 ∧ s.keeps t [(R.DRC_S_ROW_OPEN.pg p.1).addr, (R.DRC_HIT_CNT_COUNT.pg p.1).addr, (R.DRC_MISS_CNT_COUNT.pg p.1).addr, (R.DRC_WR_CNT_COUNT.pg p.1).addr] ∧ t = { s.regsOf t with bus := t.bus, chans := t.chans, buckets := t.buckets, mem := t.mem, dramErr := t.dramErr }) ∧
  (∀ (s : State) (m : Master) (a : Addr) (d : List Byte) (p : Nat × Nat), (s.servesDram m.toNat a.toNat d.length true) → (d.length ≠ 64) → (s.imageOf a.toNat = none) → (s.dramMap a.toNat = some p) → (tget zeroAt s.dramErr (a.toNat / 64) = 0) → Gives (.dramWrite m a d) s fun t => t.bus = s.told m.toNat .ok [] ∧ t.mem = (s.putBytes a.toNat d).mem ∧ t.get (R.DRC_WR_CNT_COUNT.pg p.1) = (s.get (R.DRC_WR_CNT_COUNT.pg p.1) + 1) % 2 ^ 32 ∧ t.get (R.DRC_RD_CNT_COUNT.pg p.1) = (s.get (R.DRC_RD_CNT_COUNT.pg p.1) + 1) % 2 ^ 32 ∧ s.keeps t [(R.DRC_S_ROW_OPEN.pg p.1).addr, (R.DRC_HIT_CNT_COUNT.pg p.1).addr, (R.DRC_MISS_CNT_COUNT.pg p.1).addr, (R.DRC_WR_CNT_COUNT.pg p.1).addr, (R.DRC_RD_CNT_COUNT.pg p.1).addr] ∧ t = { s.regsOf t with bus := t.bus, chans := t.chans, buckets := t.buckets, mem := t.mem }) ∧
  (∀ (s : State) (m : Master) (a : Addr) (n : Nat) (p : Nat × Nat), (!s.noRequest m.toNat) → (s.fabricIdle) → (targetOf a.toNat = 4) → (Machine.widthOk n) → (a.toNat % n = 0) → (s.allowed m.toNat 4 a.toNat n false) → (s.domOn 13) → (s.dramMap a.toNat = some p) → (s.chanState p.1 = chInit ∨ s.chanState p.1 = chRetrain ∨ s.chanDo p.1 = .serve ∧ s.portOpen (regPort m.toNat) = false) → Gives (.dramRead m a n) s fun t => t.waiting = [{ MemReq.read m.toNat a.toNat n with since := s.absCyc, passed := s.portOpen (regPort m.toNat) }] ∧ t.bus = ⟨.wait, []⟩ ∧ ((List.range 8).all fun i => t.bucket i == s.bucket i - (if i = regPort m.toNat ∧ s.get (R.DPHY_REG_RATE_RATE.ix i) ≠ 0 ∧ s.portOpen i then 64 else 0)) ∧ s.keeps t [] ∧ t = { s.regsOf t with bus := t.bus, waiting := t.waiting, buckets := t.buckets })

/-- Each microsecond fills every bucket by its rate up to its ceiling; an owed refresh is issued to the next bank, whose row closes. MR4 is read for every populated channel; a value above 2x latches DRAM_HOT of the channel and one above 1x selects the 2x rate, both with MR4_EN alone. A write of PAGE_CFG sets the policy and the predictor of every bank of its channel to weak open. During a PLL-B change a working channel issues what it owes, closes its rows and enters self-refresh; an injection by a secure master inverts bytes of the stored line of its channel and no data. Where the manual is silent it rests on the model's own choice or reading: log entry 77. -/
def Obligations.DramUpkeep : Prop :=
  (∀ (s : State), (s.pageOn eDPHY) → (s.fabricIdle) → Gives (.regulatorRefill) s fun t => ((List.range 8).all fun p => t.bucket p == min (s.bucketMax p) (s.bucket p + 16 * s.get (R.DPHY_REG_RATE_RATE.ix p))) ∧ s.keeps t [] ∧ t = { s.regsOf t with buckets := t.buckets }) ∧
  (∀ (s : State) (c : Fin 4), (c.val < s.chans.length) → ((s.chan c.val).nextBank < (s.chan c.val).banks.length) → (s.pageOn (eDRC c.val)) → (s.refreshes c.val) → (s.owed c.val ≠ 0) → Gives (.refreshIssue c) s fun t => t.owed c.val = s.owed c.val - 1 ∧ (t.chan c.val).nextBank = ((s.chan c.val).nextBank + 1) % 16 ∧ (nth (t.chan c.val).banks (s.chan c.val).nextBank BankSt.reset).row = none ∧ s.keeps t [(R.DRC_S_ROW_OPEN.pg c.val).addr, (R.DRC_REF_STATE_OWED.pg c.val).addr] ∧ t = { s.regsOf t with chans := t.chans }) ∧
  (∀ (s : State) (r0 r1 r2 r3 : Fin 3), (s.domOn 13) → (s.chans.length = 4) → Gives (.mr4Read r0 r1 r2 r3) s fun t => (∀ c < s.dramN, (t.chan c).mr4 = [r0.val, r1.val, r2.val, r3.val].getD c 0) ∧ ((List.range s.dramN).all fun c => !(s.is R.DPHY_TEMP_CFG_MR4_EN && [r0.val, r1.val, r2.val, r3.val].getD c 0 == 2) || t.hasEvent (eDRC c) 7) ∧ (s.is R.DPHY_TEMP_CFG_MR4_EN = true → ([r0, r1, r2, r3].take s.dramN).any (fun r => r != 0) = true → t.is R.DPHY_S_REFX2 = true) ∧ t.mem = s.mem ∧ t.dramErr = s.dramErr) ∧
  (∀ (s : State) (m : Master) (v : Word) (c : Fin 4), (s.takes m.toNat (0xB0080 + 0x1000 * c.val)) → (c.val < s.chans.length) → Gives (.pageCfgWrite m c v) s fun t => t.get (R.DRC_PAGE_CFG_POLICY.pg c.val) = v.toNat % 2 ∧ ((t.chan c.val).banks.all fun b => b.ctr == 2) ∧ ((t.chan c.val).banks.map BankSt.row) = ((s.chan c.val).banks.map BankSt.row) ∧ t.bus = s.told m.toNat .ok [] ∧ s.keeps t [(0xB0080 + 0x1000 * c.val)] ∧ t = { s.regsOf t with bus := t.bus, chans := t.chans }) ∧
  (∀ (s : State) (c : Fin 4), (s.quiet) → (s.pageOn (eDRC c.val)) → (c.val < s.chans.length) → (s.clk.change.isSome) → (s.chanState c.val = chOnline ∨ s.chanState c.val = chDegraded) → Gives (.selfRefreshEntry c) s fun t => t.chanState c.val = chSelfRefresh ∧ t.owed c.val = 0 ∧ t.get (R.DRC_FORCED_CNT_COUNT.pg c.val) = (s.get (R.DRC_FORCED_CNT_COUNT.pg c.val) + s.owed c.val) % 2 ^ 32 ∧ ((t.chan c.val).banks.all fun b => b.row.isNone) ∧ t.is (R.DRC_S_ROW_OPEN.pg c.val) = false ∧ t.mem = s.mem) ∧
  (∀ (s : State) (m : Master) (v : Word) (c : Fin 4), (s.takes m.toNat (0xB00D0 + 0x1000 * c.val)) → (bitOf v.toNat 31) → (v.toNat % 4 ≠ 0) → ((s.dramMap (s.get64 (0xB00C8 + 0x1000 * c.val) % 2 ^ 40)).any fun p => p.1 == c.val) → Gives (.dramInject m c v) s fun t => tget zeroAt t.dramErr (s.get64 (0xB00C8 + 0x1000 * c.val) % 2 ^ 40 / 64) = tget zeroAt s.dramErr (s.get64 (0xB00C8 + 0x1000 * c.val) % 2 ^ 40 / 64) ^^^ invPattern (v.toNat % 4) ∧ t.bus = s.told m.toNat .ok [] ∧ s.keeps t [(0xB00D0 + 0x1000 * c.val)] ∧ t = { s.regsOf t with bus := t.bus, dramErr := t.dramErr })

/-- Below 8 owed refreshes at the 1x rate and 4 at the 2x rate, a refresh that becomes owed adds 1 to the owed count; at the limit the same step issues a forced refresh to the next bank, whose row closes, counts it, and latches FORCED_REF, while the owed count and the requests of the channel stay. -/
def Obligations.RefreshLimit : Prop :=
  (∀ (s : State) (c : Fin 4), (s.pageOn (eDRC c.val)) → (s.refreshes c.val) → (s.owed c.val < (if s.is R.DPHY_S_REFX2 then 4 else 8)) → Gives (.refreshOwed c) s fun t => t.owed c.val = s.owed c.val + 1 ∧ s.keeps t [(R.DRC_REF_STATE_OWED.pg c.val).addr] ∧ t = s.regsOf t) ∧
  (∀ (s : State) (c : Fin 4), (s.quiet) → (c.val < s.chans.length) → ((s.chan c.val).nextBank < (s.chan c.val).banks.length) → (s.pageOn (eDRC c.val)) → (s.refreshes c.val) → ((if s.is R.DPHY_S_REFX2 then 4 else 8) ≤ s.owed c.val) → Gives (.refreshOwed c) s fun t => t.get (R.DRC_FORCED_CNT_COUNT.pg c.val) = (s.get (R.DRC_FORCED_CNT_COUNT.pg c.val) + 1) % 2 ^ 32 ∧ (t.chan c.val).nextBank = ((s.chan c.val).nextBank + 1) % 16 ∧ (nth (t.chan c.val).banks (s.chan c.val).nextBank BankSt.reset).row = none ∧ t.hasEvent (eDRC c.val) 6 = true ∧ s.keeps t [(R.DRC_S_ROW_OPEN.pg c.val).addr, (R.DRC_FORCED_CNT_COUNT.pg c.val).addr, evKey (eDRC c.val)] ∧ t = { s.regsOf t with chans := t.chans })

/-- INIT brings every populated channel from OFF to INIT with its contents zero; a bring-up that passes leaves every channel ONLINE; the turn of a channel keeps it at work or starts a retrain; RETRAIN leaves a working channel; a retrain ends ONLINE, DEGRADED or OFFLINE. Where the manual is silent it rests on the model's own choice or reading: log entries 12, 75 and 77. -/
def Obligations.Training : Prop :=
  (∀ (s : State) (m : Master) (v : Word), (s.takes m.toNat 0xB8008) → (bitOf v.toNat 0) → (s.dramN ≠ 0) → (s.chans.length = 4) → (!s.clk.waiting) → ((List.range s.dramN).all fun c => s.chanState c == chOff) → Gives (.dramInit m v) s fun t => (∀ c < s.dramN, t.chanState c = chInit ∧ t.bringing c = true) ∧ (∀ a, (s.dramMap a).isSome = true → t.byte a = 0) ∧ (∀ a, s.dramMap a = none → t.byte a = s.byte a) ∧ t.bus = s.told m.toNat .ok []) ∧
  (∀ (s : State) (rs : List TrainResult), (s.pageOn eDPHY) → (s.fabricIdle) → (s.dramN ≠ 0) → (s.chans.length = 4) → (!s.clk.waiting) → ((List.range s.dramN).all fun c => s.chanState c == chInit && s.bringing c) → ((List.range s.dramN).all fun c => rs.getD c .fail != .fail) → Gives (.dramInitDone rs) s fun t => (∀ c < s.dramN, t.chanState c = chOnline ∧ t.bringing c = false) ∧ t.is R.DPHY_S_USABLE = true ∧ t.hasEvent eDPHY 0 = true ∧ t.mem = s.mem) ∧
  (∀ (s : State) (c : Fin 4), (s.pageOn (eDRC c.val)) → (s.fabricIdle) → (s.is (R.DRC_TRAIN_PERIOD_MS.pg c.val)) → (s.chanState c.val = chOnline) → Gives (.trainTurn c true) s fun t => t.is (s.goodFld c.val) = true ∧ t.chanState c.val = chOnline ∧ s.keeps t [(R.DRC_TRAIN_RESULT_GOOD_FULL.pg c.val).addr] ∧ t = s.regsOf t) ∧
  (∀ (s : State) (c : Fin 4), (s.pageOn (eDRC c.val)) → (s.fabricIdle) → (!s.clk.waiting) → (s.is (R.DRC_TRAIN_PERIOD_MS.pg c.val)) → (s.chanState c.val = chOnline ∨ s.chanState c.val = chDegraded) → Gives (.trainTurn c false) s fun t => t.chanState c.val = chRetrain ∧ t.mem = s.mem) ∧
  (∀ (s : State) (m : Master) (v : Word) (c : Fin 4), (s.takes m.toNat (0xB0008 + 0x1000 * c.val)) → (bitOf v.toNat 0) → (!s.clk.waiting) → (s.chanState c.val = chOnline ∨ s.chanState c.val = chDegraded) → Gives (.drcRetrain m c v) s fun t => t.chanState c.val = chRetrain ∧ t.mem = s.mem ∧ t.bus = s.told m.toNat .ok []) ∧
  (∀ (s : State) (c : Fin 4) (r : TrainResult), (s.pageOn (eDRC c.val)) → (s.fabricIdle) → (!s.clk.waiting) → (s.chanState c.val = chRetrain) → Gives (.trainingDone c r) s fun t => (match r with | .pass rd wr => t.chanState c.val = chOnline ∧ t.get (R.DRC_TRAIN_RESULT_WIN_RD.pg c.val) = rd.toNat ∧ t.get (R.DRC_TRAIN_RESULT_WIN_WR.pg c.val) = wr.toNat ∧ t.is (s.goodFld c.val) = true | .fail => t.chanState c.val = (if s.is (s.goodFld c.val) then chDegraded else chOffline)) ∧ t.mem = s.mem)

/-- On an enabled port that is not DOWN, a frame with a bad header, or of another manager, is counted and breaks the run of its port, and a device of a running ring that is no manager forwards one with a bad header unchanged; on any other port a frame does nothing; a valid one, on a running ring or not, is counted, names its sender, locks the manager of a device that is none and lengthens the run, and the eighth in a row brings an ALIGNED port UP; a worker takes the forwarded sheets of a good audio region once a slot, and nothing from a second copy; at a device that is no manager and does not wrap, a probe leaves on the other port as a probe, one hop older and with this device as its sender. Where the manual is silent it rests on the model's own choice or reading: log entries 2, 31, 79, 81 and 83. -/
def Obligations.ApsalFrames : Prop :=
  (∀ (s : State) (q : Fin 2) (frame : List Byte) (r x : Int), (s.portEn q.val) → (s.portState q.val ≠ 0) → (!hdrOk (frame.take 96)) → (!s.ringOn ∨ s.role = 0) → Gives (.apsalFrameReceive q frame r x) s fun t => t.get (R.APL_HDR_ERR_COUNT.ix q.val) = (s.get (R.APL_HDR_ERR_COUNT.ix q.val) + 1) % 2 ^ 32 ∧ (t.port q.val).run = 0 ∧ t.mem = s.mem ∧ s.keeps t [(R.APL_HDR_ERR_COUNT.ix q.val).addr, R.RING_S_RING_UP.addr] ∧ t = { s.regsOf t with ring := t.ring }) ∧
  (∀ (s : State) (q : Fin 2) (frame : List Byte) (r x : Int), (!s.portEn q.val || s.portState q.val == 0) → Gives (.apsalFrameReceive q frame r x) s fun t => s.keeps t [] ∧ t = s.regsOf t) ∧
  (∀ (s : State) (q : Fin 2) (frame : List Byte) (r x : Int), (!s.ringOn) → (s.portEn q.val) → (s.portState q.val ≠ 0) → (hdrOk (frame.take 96)) → (s.mgrOk (hMgr (frame.take 96))) → (hProbe (frame.take 96)) → Gives (.apsalFrameReceive q frame r x) s fun t => t.get (R.APL_FRAMES_COUNT.ix q.val) = (s.get (R.APL_FRAMES_COUNT.ix q.val) + 1) % 2 ^ 32 ∧ t.n (0xC008C + 0x20 * q.val) = leAt (frame.take 96) 6 1 % 32 + 256 ∧ (t.port q.val).run = (s.port q.val).run + 1 ∧ t.portState q.val = (if s.portState q.val = 1 ∧ 8 ≤ (s.port q.val).run + 1 then 2 else s.portState q.val) ∧ (t.port q.val).last = some s.slot ∧ t.mem = s.mem) ∧
  (∀ (s : State) (q : Fin 2) (frame : List Byte) (r x : Int), (s.ringOn) → (s.portEn q.val) → (s.portState q.val ≠ 0) → (hdrOk (frame.take 96)) → (s.mgrOk (hMgr (frame.take 96))) → (!hProbe (frame.take 96)) → (!hWrapped (frame.take 96)) → (s.role = 1) → (((splitRegions (regionLens (frame.take 96)) (frame.drop 96)).getD 0 ([], false)).2) → (s.ring.fwd ≠ some s.slot) → (!s.ring.fwdRun) → Gives (.apsalFrameReceive q frame r x) s fun t => (s.fwdChans.zipIdx.all fun e => decide (hF (frame.take 96) ≤ e.2) || t.sheetOf aInput e.1 (s.slot + 1) == houseAt ((splitRegions (regionLens (frame.take 96)) (frame.drop 96)).getD 0 ([], false)).1 (24 * e.2)) ∧ t.get (R.APL_FRAMES_COUNT.ix q.val) = (s.get (R.APL_FRAMES_COUNT.ix q.val) + 1) % 2 ^ 32 ∧ t.ring.fwd = some s.slot ∧ t.slot = s.slot) ∧
  (∀ (s : State) (q : Fin 2) (frame : List Byte) (r x : Int), (s.ringOn) → (s.portEn q.val) → (s.portState q.val ≠ 0) → (hdrOk (frame.take 96)) → (s.mgrOk (hMgr (frame.take 96))) → (!hProbe (frame.take 96)) → Gives (.apsalFrameReceive q frame r x) s fun t => t.get (R.APL_FRAMES_COUNT.ix q.val) = (s.get (R.APL_FRAMES_COUNT.ix q.val) + 1) % 2 ^ 32 ∧ t.n (0xC008C + 0x20 * q.val) = leAt (frame.take 96) 6 1 % 32 + 256 ∧ (t.port q.val).run = (s.port q.val).run + 1 ∧ t.portState q.val = (if s.portState q.val = 1 ∧ 8 ≤ (s.port q.val).run + 1 then 2 else s.portState q.val) ∧ (t.port q.val).last = some s.slot ∧ (s.role ≠ 0 → t.ring.mgr = some (hMgr (frame.take 96))) ∧ t.slot = s.slot) ∧
  (∀ (s : State) (q : Fin 2) (frame : List Byte) (r x : Int), (s.ringOn) → (s.portEn q.val) → (s.portState q.val ≠ 0) → (hdrOk (frame.take 96)) → (s.mgrOk (hMgr (frame.take 96))) → (!hProbe (frame.take 96)) → (!hWrapped (frame.take 96)) → (s.role = 1) → (((splitRegions (regionLens (frame.take 96)) (frame.drop 96)).getD 0 ([], false)).2) → (s.ring.fwd = some s.slot) → (!s.standby) → Gives (.apsalFrameReceive q frame r x) s fun t => t.audio = s.audio ∧ t.get (R.APL_FRAMES_COUNT.ix q.val) = (s.get (R.APL_FRAMES_COUNT.ix q.val) + 1) % 2 ^ 32 ∧ t.ring.fwd = some s.slot ∧ t.ring.fwdRun = s.ring.fwdRun) ∧
  (∀ (s : State) (q : Fin 2) (frame : List Byte) (r x : Int), (s.portEn q.val) → (s.portState q.val ≠ 0) → (!hdrOk (frame.take 96)) → (s.ringOn) → (s.role ≠ 0) → Gives (.apsalFrameReceive q frame r x) s fun t => t.get (R.APL_HDR_ERR_COUNT.ix q.val) = (s.get (R.APL_HDR_ERR_COUNT.ix q.val) + 1) % 2 ^ 32 ∧ (t.port q.val).run = 0 ∧ (s.portEn (s.outPort q.val).1 = true → t.out[s.out.length]? = some (.apsal (s.outPort q.val).1 frame)) ∧ s.keeps t [(R.APL_HDR_ERR_COUNT.ix q.val).addr, R.RING_S_RING_UP.addr] ∧ t = { s.regsOf t with ring := t.ring }) ∧
  (∀ (s : State) (q : Fin 2) (frame : List Byte) (r x : Int), (s.quiet) → (s.portEn q.val) → (s.portState q.val ≠ 0) → (hdrOk (frame.take 96)) → (!s.mgrOk (hMgr (frame.take 96))) → Gives (.apsalFrameReceive q frame r x) s fun t => t.get (R.APL_HDR_ERR_COUNT.ix q.val) = (s.get (R.APL_HDR_ERR_COUNT.ix q.val) + 1) % 2 ^ 32 ∧ (t.port q.val).run = 0 ∧ t.hasEvent eAPL 8 = true ∧ s.keeps t [(R.APL_HDR_ERR_COUNT.ix q.val).addr, R.RING_S_RING_UP.addr, evKey eAPL] ∧ t = { s.regsOf t with ring := t.ring }) ∧
  (∀ (s : State) (q : Fin 2) (frame : List Byte) (r x : Int), (s.ringOn) → (s.portEn q.val) → (s.portState q.val ≠ 0) → (hdrOk (frame.take 96)) → (s.mgrOk (hMgr (frame.take 96))) → (hProbe (frame.take 96)) → (s.role ≠ 0) → (s.portEn (1 - q.val)) → (!s.wraps (1 - q.val)) → Gives (.apsalFrameReceive q frame r x) s fun t => (t.out[s.out.length]?.any fun o => match o with | .apsal p b => p == 1 - q.val && leAt b 5 1 == (leAt frame 5 1 + 1) % 256 && leAt b 6 1 == s.devid && hProbe (b.take 96) | _ => false) ∧ t.get (R.APL_FRAMES_COUNT.ix q.val) = (s.get (R.APL_FRAMES_COUNT.ix q.val) + 1) % 2 ^ 32 ∧ t.mem = s.mem)

/-- A port that loses its link is DOWN with no run; an aligned port that is enabled leaves DOWN; a wrap ends at the boundary once its port has been UP for 64 frames, and not before. A heartbeat puts its position into SEEN, and into MEMBERS exactly when it shows a voting role in CONFIG or RUN. Where the manual is silent it rests on the model's own choice or reading: log entries 2 and 31. -/
def Obligations.PortsAndMembership : Prop :=
  (∀ (s : State) (q : Fin 2), (s.quiet) → (s.portState q.val ≠ 0) → Gives (.apsalPortDown q) s fun t => t.portState q.val = 0 ∧ t.portState (1 - q.val) = s.portState (1 - q.val) ∧ (t.port q.val).run = 0 ∧ (s.portState q.val = 2 → t.hasEvent eAPL (2 * q.val) = true) ∧ (s.portState (1 - q.val) = 0 → t.ring.mgr = none) ∧ s.keeps t [0xC000C, 0xC200C, evKey eAPL] ∧ t = { s.regsOf t with ring := t.ring }) ∧
  (∀ (s : State) (q : Fin 2), (s.quiet) → (s.portEn q.val) → (s.portState q.val = 0) → Gives (.apsalPortAligned q) s fun t => t.portState q.val = 1 ∧ t.portState (1 - q.val) = s.portState (1 - q.val) ∧ (t.port q.val).run = 0 ∧ s.keeps t [0xC000C, 0xC200C, evKey eAPL] ∧ t = { s.regsOf t with ring := t.ring }) ∧
  (∀ (s : State) (q : Fin 2), (s.quiet) → (s.wraps q.val) → (s.portState q.val = 2) → (64 ≤ (s.port q.val).up) → Gives (.wrapEnd q) s fun t => t.wraps q.val = false ∧ t.hasEvent eAPL 4 = true ∧ s.keeps t [0xC000C, evKey eAPL] ∧ t = s.regsOf t) ∧
  (∀ (s : State) (q : Fin 2), (s.wraps q.val = false ∨ s.portState q.val ≠ 2 ∨ (s.port q.val).up < 64) → Gives (.wrapEnd q) s fun t => s.keeps t [] ∧ t = s.regsOf t) ∧
  (∀ (s : State) (p : Fin 32) (w : Word), (s.quiet) → (s.ringOn) → Gives (.heartbeat p w) s fun t => t.mapBit 0xC2084 p.val = true ∧ bitOf (t.get R.RING_MEMBERS_P) p.val = isMember w.toNat ∧ tget zeroAt t.ring.hbw p.val = w.toNat ∧ (t.get R.RING_MEMBERS_P ≠ s.get R.RING_MEMBERS_P → t.hasEvent eRING 7 = true) ∧ s.keeps t [0xC2080, 0xC2084, 0xC200C, evKey eRING] ∧ t = { s.regsOf t with ring := t.ring })

/-- On the manager the latest EVT_SUM of a position is in its REM_EVT, the REM_PEND bit of the position is 1 exactly while that value is not zero, and REMOTE_EVENT latches exactly when REM_EVT gains a bit; nothing else changes. -/
def Obligations.EventSummaries : Prop :=
  (∀ (s : State) (p : Fin 32) (w : Word), (s.quiet) → (s.ringOn) → (s.isManager) → Gives (.evtSum p w) s fun t => t.get (R.RING_REM_EVT_VEC.ix p.val) = w.toNat ∧ t.mapBit 0xC2088 p.val = decide (w ≠ 0) ∧ (w.toNat ||| s.get (R.RING_REM_EVT_VEC.ix p.val) ≠ s.get (R.RING_REM_EVT_VEC.ix p.val) → t.hasEvent eRING 0 = true) ∧ (w.toNat ||| s.get (R.RING_REM_EVT_VEC.ix p.val) = s.get (R.RING_REM_EVT_VEC.ix p.val) → t.hasEvent eRING 0 = s.hasEvent eRING 0) ∧ s.keeps t [(R.RING_REM_EVT_VEC.ix p.val).addr, 0xC2088, evKey eRING] ∧ t = s.regsOf t)

/-- A request to a position that is seen is left for the next frame with BUSY set, and completes at once with NO_MEMBER otherwise; at its target a read or a write is done as master 0x03 and its response awaits the next frame; the response or the end of 16 sheets completes it, and nothing earlier. Where the manual is silent it rests on the model's own choice or reading: log entries 2, 89 and 133. -/
def Obligations.RemoteAccess : Prop :=
  (∀ (s : State) (m : Master) (v : Word), (s.takes m.toNat 0xC20E8) → (bitOf v.toNat 31) → (!s.is R.RING_RRA_STATUS_BUSY) → (s.get R.RING_RRA_DEV_DEVID ≠ s.devid) → (bitOf (s.get R.RING_SEEN_P) (s.get R.RING_RRA_DEV_DEVID)) → Gives (.rraGo m v) s fun t => t.ring.rra = some ⟨s.ring.tag, s.get R.RING_RRA_DEV_DEVID, v.toNat % 8, s.get64 0xC20D4 % 2 ^ 40, s.get64 0xC20DC, s.n 0xC20E4, s.slot, false⟩ ∧ t.is R.RING_RRA_STATUS_BUSY = true ∧ t.bus = s.told m.toNat .ok [] ∧ s.keeps t [0xC20E8, R.RING_RRA_STATUS_BUSY.addr] ∧ t = { s.regsOf t with bus := t.bus, ring := t.ring }) ∧
  (∀ (s : State) (m : Master) (v : Word), (s.takes m.toNat 0xC20E8) → (s.quiet) → (bitOf v.toNat 31) → (!s.is R.RING_RRA_STATUS_BUSY) → (s.get R.RING_RRA_DEV_DEVID ≠ s.devid) → (!bitOf (s.get R.RING_SEEN_P) (s.get R.RING_RRA_DEV_DEVID)) → Gives (.rraGo m v) s fun t => t.is R.RING_RRA_STATUS_BUSY = false ∧ t.get R.RING_RRA_STATUS_RESP = 5 ∧ t.hasEvent eRING 3 = true ∧ t.bus = s.told m.toNat .ok [] ∧ s.keeps t [0xC20E8, R.RING_RRA_STATUS_BUSY.addr, evKey eRING] ∧ t = { s.regsOf t with bus := t.bus, ring := t.ring }) ∧
  (∀ (s : State) (m : Master) (v : Word), (s.takes m.toNat 0xC20E8) → (s.quiet) → (bitOf v.toNat 31) → (v.toNat % 8 = 1) → (!s.is R.RING_RRA_STATUS_BUSY) → (s.lock = none) → (s.ring.rra = none) → (s.ring.rraWait = []) → (s.get R.RING_RRA_DEV_DEVID = s.devid) → (s.servesSram 3 (s.get64 0xC20D4 % 2 ^ 40) 4 true) → (s.clean (s.get64 0xC20D4 % 2 ^ 40) 4) → (plainArea (s.get64 0xC20D4 % 2 ^ 40) 4) → (inboxSlot (s.get64 0xC20D4 % 2 ^ 40) 4 = none) → Gives (.rraGo m v) s fun t => t.mem = (s.putBytes (s.get64 0xC20D4 % 2 ^ 40) (leBytes 4 (s.get64 0xC20DC))).mem ∧ t.is R.RING_RRA_STATUS_BUSY = false ∧ t.get R.RING_RRA_STATUS_RESP = 0 ∧ t.ring = s.ring ∧ t.hasEvent eRING 3 = true ∧ t.bus = s.told m.toNat .ok [] ∧ s.keeps t [0xC20E8, R.RING_RRA_STATUS_BUSY.addr, evKey eRING, 0xA00AC, 0xA00B0] ∧ t = { s.regsOf t with bus := t.bus, ring := t.ring, mem := t.mem, sramErr := t.sramErr, poison := t.poison }) ∧
  (∀ (s : State) (tag : BitVec 8) (a : Addr) (d : BitVec 64) (x : Word), (s.ringOn) → (s.ring.rraHere = none) → (s.ring.rraWait = []) → (s.lock = none) → (s.servesSram 3 a.toNat 4 true) → (s.clean a.toNat 4) → (plainArea a.toNat 4) → (inboxSlot a.toNat 4 = none) → Gives (.rraReq tag 1 a d x) s fun t => t.mem = (s.putBytes a.toNat (leBytes 4 d.toNat)).mem ∧ t.ring = { s.ring with rsps := s.ring.rsps ++ [(tag.toNat, 0, 0)] } ∧ s.keeps t [0xA00AC, 0xA00B0] ∧ t = { s.regsOf t with mem := t.mem, sramErr := t.sramErr, poison := t.poison, ring := t.ring }) ∧
  (∀ (s : State) (tag : BitVec 8) (a : Addr) (d : BitVec 64) (x : Word), (s.ringOn) → (s.ring.rraHere = none) → (s.ring.rraWait = []) → (s.lock = none) → (s.servesSram 3 a.toNat 4 false) → (s.clean a.toNat 4) → Gives (.rraReq tag 0 a d x) s fun t => t.mem = s.mem ∧ t.ring = { s.ring with rsps := s.ring.rsps ++ [(tag.toNat, 0, leAt ((List.range 4).map fun i => s.shown (s.freeCtr + i) (a.toNat + i)) 0 4)] } ∧ s.keeps t [0xA00AC, 0xA00B0] ∧ t = { s.regsOf t with freeCtr := t.freeCtr, ring := t.ring }) ∧
  (∀ (s : State) (tag : BitVec 8) (r : Fin 8) (d : BitVec 64) (q : Rra), (s.quiet) → (s.ringOn) → (s.ring.rra = some q) → (q.tag = tag.toNat) → Gives (.rraRsp tag r d) s fun t => t.ring.rra = none ∧ t.is R.RING_RRA_STATUS_BUSY = false ∧ t.get R.RING_RRA_STATUS_RESP = r.val ∧ t.get64 0xC20DC = (if rraReads q.op ∧ r.val = 0 then d.toNat else s.get64 0xC20DC) ∧ t.hasEvent eRING 3 = true ∧ s.keeps t [0xC20DC, 0xC20E0, R.RING_RRA_STATUS_BUSY.addr, evKey eRING] ∧ t = { s.regsOf t with ring := t.ring }) ∧
  (∀ (s : State) (q : Rra), (s.quiet) → (s.ring.rra = some q) → (q.at0 + 16 ≤ s.slot) → Gives (.rraTimeout) s fun t => t.ring.rra = none ∧ t.is R.RING_RRA_STATUS_BUSY = false ∧ t.get R.RING_RRA_STATUS_RESP = 4 ∧ t.hasEvent eRING 3 = true ∧ s.keeps t [R.RING_RRA_STATUS_BUSY.addr, evKey eRING] ∧ t = { s.regsOf t with ring := t.ring }) ∧
  (∀ (s : State), (s.ring.rra.all fun q => decide (s.slot < q.at0 + 16)) → Gives (.rraTimeout) s fun t => s.keeps t [] ∧ t = s.regsOf t)

/-- A worker asked for a press makes it pending and takes the manager's table into SHADOW; the manager records each member's first vote and decides GO on all of them or ABORT on a refusal; a member holds GO and drops the press on ABORT; with GO on both sides what was computed ahead for the slots from N on is done again for the bank to come. Where the manual is silent it rests on the model's own choice or reading: log entries 63 and 186. -/
def Obligations.DistributedPress : Prop :=
  (∀ (s : State) (i : BitVec 8) (n : BitVec 48), (s.ringOn) → (s.role = 1) → (s.pressMode) → (s.pageOn ePRESS) → (s.press = none) → Gives (.pressReq i n) s fun t => t.press = some ⟨n.toNat, i.toNat, true, s.sheet, false, none, [], none, none⟩ ∧ t.is R.PRESS_S_PENDING = true ∧ s.keeps t [R.PRESS_S_PENDING.addr] ∧ t = { s.regsOf t with press := t.press }) ∧
  (∀ (s : State) (p : PressSt) (b : List Byte), (s.ringOn) → (s.press = some p) → (p.ring) → (!s.isManager) → (p.own = none) → (leAt b 0 1 = p.id) → Gives (.pressTable b) s fun t => t.get R.PRESS_PRES_LAT_L = leAt b 2 2 % 2 ^ 13 ∧ t.get R.RING_RET_CFG_RC = leAt b 4 1 % 2 ^ 7 ∧ ((List.range 32).all fun x => t.n (0xC2400 + 4 * x) == leAt b (8 + 4 * x) 4) ∧ ((List.range 1024).all fun c => tget zeroAt t.fwdTerm c == leAt b (0x88 + 2 * c) 2) ∧ s.keeps t ([0x8080, 0xC2090] ++ (List.range 32).map fun x => 0xC2400 + 4 * x) ∧ t = { s.regsOf t with fwdTerm := t.fwdTerm }) ∧
  (∀ (s : State) (p : PressSt) (pos : Fin 32) (i : BitVec 8) (r : Fin 16) (n : BitVec 16), (s.ringOn) → (s.press = some p) → (p.ring) → (s.isManager) → (p.id = i.toNat) → (bitOf (s.get R.RING_MEMBERS_P) pos.val) → (!(p.votes.any fun v => v.1 == pos.val)) → Gives (.pressVote pos i r n) s fun t => t.press = some { p with votes := p.votes ++ [(pos.val, r.val, n.toNat)] } ∧ s.keeps t [] ∧ t = { s.regsOf t with press := t.press }) ∧
  (∀ (s : State) (p : PressSt), (s.press = some p) → (p.ring) → (s.isManager) → (p.decided = none) → (p.votes.all fun v => v.2.1 == 0) → (p.votes.any fun v => v.1 == s.devid) → (s.voteless p = []) → Gives (.pressDecision) s fun t => t.press = some { p with decided := some true } ∧ t.verdict = some ⟨p.id, true, 0, 0, 0, p.sheet⟩ ∧ t.knots = (if p.ahead.isSome then s.knots.filter fun e => decide (e.1 % 2 ^ 64 < s.pressSlot p) else s.knots) ∧ ([1, 2, 3, 4].all fun g => (t.stage g).next == (if p.ahead.isSome then min (s.stage g).next (s.pressSlot p) else (s.stage g).next)) ∧ ((List.range 64).all fun g => decide (1 ≤ g ∧ g ≤ 4) || t.stage g == s.stage g) ∧ s.keeps t [] ∧ t = { s.regsOf t with verdict := t.verdict, press := t.press, knots := t.knots, stages := t.stages }) ∧
  (∀ (s : State) (p : PressSt) (v : Nat × Nat × Nat), (s.quiet) → (s.press = some p) → (p.ring) → (s.isManager) → (p.decided = none) → (p.own = none) → ((p.votes.find? fun v => v.2.1 != 0) = some v) → Gives (.pressDecision) s fun t => t.press = none ∧ t.verdict = some ⟨p.id, false, v.1, v.2.1, v.2.2, p.sheet⟩ ∧ t.get R.RING_PRESS_FAULT_DEVID = v.1 % 32 ∧ t.get R.RING_PRESS_FAULT_REASON = v.2.1 % 16 ∧ t.get R.RING_PRESS_FAULT_NODE = v.2.2 % 2 ^ 16 ∧ t.get R.PRESS_RESULT_REASON = rRingAbort ∧ t.hasEvent ePRESS 1 = true ∧ s.keeps t [0x8094, 0x8098, R.PRESS_REFUSE_CNT_COUNT.addr, evKey ePRESS, R.PRESS_S_PENDING.addr, 0xC2098] ∧ t = { s.regsOf t with press := t.press, verdict := t.verdict }) ∧
  (∀ (s : State) (p : PressSt) (i : BitVec 8) (d : Fin 32) (r : Fin 16) (n : BitVec 16), (s.ringOn) → (s.press = some p) → (p.ring) → (!s.isManager) → (p.id = i.toNat) → Gives (.pressDecide i true d r n) s fun t => t.press = some { p with decided := some true } ∧ t.knots = (if p.ahead.isSome && p.decided != some true then s.knots.filter fun e => decide (e.1 % 2 ^ 64 < s.pressSlot p) else s.knots) ∧ ([1, 2, 3, 4].all fun g => (t.stage g).next == (if p.ahead.isSome && p.decided != some true then min (s.stage g).next (s.pressSlot p) else (s.stage g).next)) ∧ ((List.range 64).all fun g => decide (1 ≤ g ∧ g ≤ 4) || t.stage g == s.stage g) ∧ s.keeps t [] ∧ t = { s.regsOf t with press := t.press, knots := t.knots, stages := t.stages }) ∧
  (∀ (s : State) (p : PressSt) (i : BitVec 8) (d : Fin 32) (r : Fin 16) (n : BitVec 16), (s.quiet) → (s.ringOn) → (s.press = some p) → (p.ring) → (!s.isManager) → (p.id = i.toNat) → (p.own = none) → Gives (.pressDecide i false d r n) s fun t => t.press = none ∧ t.get R.PRESS_RESULT_REASON = rRingAbort ∧ t.get R.PRESS_RESULT_ID = p.id % 256 ∧ t.is R.PRESS_S_PENDING = false ∧ t.hasEvent ePRESS 1 = true ∧ t.knots = (if p.scheduled then s.knots.filter fun e => decide (e.1 % 2 ^ 64 < s.pressSlot p) else s.knots) ∧ ([1, 2, 3, 4].all fun g => (t.stage g).next == (if p.scheduled then min (s.stage g).next (s.pressSlot p) else (s.stage g).next)) ∧ ((List.range 64).all fun g => decide (1 ≤ g ∧ g ≤ 4) || t.stage g == s.stage g) ∧ s.keeps t [0x8094, 0x8098, R.PRESS_REFUSE_CNT_COUNT.addr, evKey ePRESS, R.PRESS_S_PENDING.addr] ∧ t = { s.regsOf t with press := t.press, knots := t.knots, stages := t.stages })

/-- STEP schedules its displacement at its boundary on a worker whose source is the ring, and elsewhere or too late does nothing; SNAP schedules the ring snapshot, or latches SNAP_LATE when its HSI has passed; GO on the manager schedules it with 48 samples to spare; at its HSI, and not before, an enabled trigger 4 joins the snapshots on their way, or is counted as missed within the holdoff. Where the manual is silent it rests on the model's own choice or reading: log entry 2. -/
def Obligations.RingStepsAndSnapshots : Prop :=
  (∀ (s : State) (d : BitVec 64) (b : BitVec 48), (s.ringOn) → (!s.isManager) → (s.src = 4) → (s.sheet < b.toNat) → Gives (.ringStep d b) s fun t => ⟨s.slot + (b.toNat - s.sheet), sx 64 d.toNat, .ring⟩ ∈ t.time.steps ∧ t.time = { s.time with steps := t.time.steps } ∧ (s.time.steps.all fun x => x.why == .ring || t.time.steps.contains x) ∧ s.keeps t [] ∧ t = { s.regsOf t with time := t.time }) ∧
  (∀ (s : State) (d : BitVec 64) (b : BitVec 48), (!s.ringOn || s.isManager || s.src != 4 || decide (b.toNat ≤ s.sheet)) → Gives (.ringStep d b) s fun t => s.keeps t [] ∧ t = s.regsOf t) ∧
  (∀ (s : State) (h : BitVec 64), (s.ringOn) → (s.ring.snap ≠ some h.toNat) → (s.ring.snapDone ≠ some h.toNat) → (s.hsiNow ≤ h.toNat) → Gives (.ringSnap h) s fun t => t.ring = { s.ring with snap := some h.toNat } ∧ s.keeps t [] ∧ t = { s.regsOf t with ring := t.ring }) ∧
  (∀ (s : State) (h : BitVec 64), (s.quiet) → (s.ringOn) → (s.ring.snap ≠ some h.toNat) → (s.ring.snapDone ≠ some h.toNat) → (h.toNat < s.hsiNow) → Gives (.ringSnap h) s fun t => t.hasEvent eRING 5 = true ∧ s.keeps t [evKey eRING] ∧ t = s.regsOf t) ∧
  (∀ (s : State) (m : Master), (s.takes m.toNat 0xC20C8) → (s.ringOn) → (s.isManager) → (s.hsiNow + 48 ≤ s.get64 0xC20C0) → Gives (.ringSnapGo m) s fun t => t.ring = { s.ring with snap := some (s.get64 0xC20C0) } ∧ t.bus = s.told m.toNat .ok [] ∧ s.keeps t [0xC20C8] ∧ t = { s.regsOf t with bus := t.bus, ring := t.ring }) ∧
  (∀ (s : State) (h : Nat), (s.is R.SNAP_C_ARMED) → (bitOf (s.get R.SNAP_TRIG_EN_EN) 4) → (!s.inHoldoff) → (s.ring.snap = some h) → (h ≤ s.hsiNow) → Gives (.ringSnapTrigger) s fun t => t.snapQ = joinSnap s.snapQ ⟨s.slot, s.hsi, s.cyc, 16⟩ ∧ t.ring = { s.ring with snap := none, snapDone := some h } ∧ s.keeps t [] ∧ t = { s.regsOf t with snapQ := t.snapQ, ring := t.ring }) ∧
  (∀ (s : State) (h : Nat), (s.is R.SNAP_C_ARMED) → (bitOf (s.get R.SNAP_TRIG_EN_EN) 4) → (s.inHoldoff) → (s.ring.snap = some h) → (h ≤ s.hsiNow) → Gives (.ringSnapTrigger) s fun t => t.get R.SNAP_MISSED_COUNT = min (s.get R.SNAP_MISSED_COUNT + 1) (2 ^ 32 - 1) ∧ t.hasEvent eSNAP 1 = true ∧ t.ring = { s.ring with snap := none, snapDone := some h } ∧ s.keeps t [R.SNAP_MISSED_COUNT.addr, evKey eSNAP] ∧ t = { s.regsOf t with ring := t.ring }) ∧
  (∀ (s : State), (s.ring.snap.all fun h => decide (s.hsiNow < h)) → Gives (.ringSnapTrigger) s fun t => s.keeps t [] ∧ t = s.regsOf t)

/-- The manager keeps a comparable report; equal digests clear the position's mismatch bit and PERSIST differing ones set it; the rescan adds the next words of a page, and ends a page that agrees with its digest; settling sets SETTLED. Where the manual is silent it rests on the model's own choice or reading: log entries 64 and 100. -/
def Obligations.WatermarkChecks : Prop :=
  (∀ (s : State) (p : Fin 32) (k e : Word) (g : BitVec 16) (a b : BitVec 64) (o : Report), (s.quiet) → (s.ring.report = some o) → (s.ringOn) → (s.isManager) → (o.settled) → (k.toNat = o.k) → (g.toNat = o.tag) → (e.toNat = o.epoch) → (!(s.ring.reports.any fun x => x.pos == p.val)) → (s.wmkGroup p.val = 0) → (s.mapBit 0xC2080 p.val) → (a = o.wRing) → Gives (.wmkReport p k g true e a b) s fun t => t.ring.reports = s.ring.reports ++ [(⟨p.val, k.toNat, g.toNat, true, e.toNat, a, b⟩ : Report)] ∧ t.mapBit 0xC20A0 p.val = false ∧ tget zeroAt t.ring.diffs p.val = 0 ∧ s.keeps t [0xC20A0] ∧ t = { s.regsOf t with ring := t.ring }) ∧
  (∀ (s : State) (p : Fin 32) (k e : Word) (g : BitVec 16) (a b : BitVec 64) (o : Report), (s.quiet) → (s.ring.report = some o) → (s.ringOn) → (s.isManager) → (o.settled) → (k.toNat = o.k) → (g.toNat = o.tag) → (e.toNat = o.epoch) → (!(s.ring.reports.any fun x => x.pos == p.val)) → (s.wmkGroup p.val = 0) → (s.mapBit 0xC2080 p.val) → (a ≠ o.wRing) → Gives (.wmkReport p k g true e a b) s fun t => t.ring.reports = s.ring.reports ++ [(⟨p.val, k.toNat, g.toNat, true, e.toNat, a, b⟩ : Report)] ∧ tget zeroAt t.ring.diffs p.val = tget zeroAt s.ring.diffs p.val + 1 ∧ t.mapBit 0xC20A0 p.val = (s.mapBit 0xC20A0 p.val || decide (clampN 1 15 (s.get R.RING_WMK_CFG_PERSIST) ≤ tget zeroAt s.ring.diffs p.val + 1)) ∧ s.keeps t [0xC20A0, evKey eRING] ∧ t = { s.regsOf t with ring := t.ring }) ∧
  (∀ (s : State) (k : Nat) (l : List Nat), (s.is R.WMK_C_RESCAN_EN) → (s.pageOn eWMK) → ((pageOfSrc s.wmk.page).isSome) → (s.pageOn s.wmk.page) → (s.wmk.page ≠ eCONV) → (s.scanWords (2 ^ 64) = l ++ [k]) → Gives (.wmkRescanRead) s fun t => t.wmk.run = (l ++ [k]).foldl (fun x j => x + s.scanTerm j) s.wmk.run ∧ t.wmk = { s.wmk with run := t.wmk.run, pos := k + 4 } ∧ s.keeps t [] ∧ t = s.regsOf t) ∧
  (∀ (s : State), (s.is R.WMK_C_RESCAN_EN) → (s.pageOn eWMK) → ((pageOfSrc s.wmk.page).isSome) → (s.pageOn s.wmk.page) → (s.wmk.page ≠ eCONV) → (s.scanWords (2 ^ 64) = []) → (!s.wmk.skip) → (!s.wmk.bad) → (s.wmk.run = s.digestOf s.wmk.page) → (s.wmk.page < 95) → Gives (.wmkRescanRead) s fun t => t.wmk = { s.wmk with scan := tset zeroAt s.wmk.scan s.wmk.page s.wmk.run, run := 0, page := s.wmk.page + 1, pos := 0 } ∧ s.keeps t [] ∧ t = s.regsOf t) ∧
  (∀ (s : State), (s.pageOn eWMK) → Gives (.wmkSettled) s fun t => t.is R.WMK_S_SETTLED = true ∧ s.keeps t [0x700C] ∧ t = s.regsOf t)

/-- A heartbeat of the holder clears its misses, a missing one counts, and the fourth in a row or a FAULT declares it failed: the standby is granted three sheets on when it may be, otherwise nobody is; the first grant follows the strapped worker's first heartbeat in RUN; a standby's state is recorded. Where the manual is silent it rests on the model's own choice or reading: log entry 90. -/
def Obligations.GrantsOfAPair : Prop :=
  (∀ (s : State) (p : Fin 32) (g : Grant), (s.redOn) → (s.ringOn) → (s.isManager) → (s.pairOn p.val) → (s.grantOf p.val = some g) → (!g.none) → (g.sheet ≤ s.sheet) → (bitOf s.ring.heard g.holder) → Gives (.heartbeatCheck) s fun t => tget zeroAt t.red.miss p.val = 0 ∧ t.grantOf p.val = some g ∧ t.mem = s.mem) ∧
  (∀ (s : State) (p : Fin 32) (g : Grant), (s.redOn) → (s.ringOn) → (s.isManager) → (s.pairOn p.val) → (s.grantOf p.val = some g) → (!g.none) → (g.sheet ≤ s.sheet) → (!bitOf s.ring.heard g.holder) → (tget zeroAt s.red.miss p.val < 3) → Gives (.heartbeatCheck) s fun t => tget zeroAt t.red.miss p.val = tget zeroAt s.red.miss p.val + 1 ∧ t.grantOf p.val = some g ∧ t.mem = s.mem) ∧
  (∀ (s : State) (p : Fin 32) (g : Grant), (s.redOn) → (s.ringOn) → (s.isManager) → (s.pairOn p.val) → (s.grantOf p.val = some g) → (!g.none) → (g.sheet ≤ s.sheet) → (!bitOf s.ring.heard g.holder) → (tget zeroAt s.red.miss p.val = 3) → Gives (.heartbeatCheck) s fun t => t.grantOf p.val = some (if s.standbyOk (if g.holder = p.val then s.pairPartner p.val else p.val) then ⟨(if g.holder = p.val then s.pairPartner p.val else p.val), g.holder, false, s.sheet + 3, s.slot⟩ else ⟨g.holder, (if g.holder = p.val then s.pairPartner p.val else p.val), true, s.sheet + 3, s.slot⟩) ∧ t.get (R.RED_PAIR_STATE.ix p.val) = (if s.standbyOk (if g.holder = p.val then s.pairPartner p.val else p.val) then 1 else 3) ∧ t.hasEvent eRED 12 = true ∧ (s.standbyOk (if g.holder = p.val then s.pairPartner p.val else p.val) = false → t.hasEvent eRED 13 = true) ∧ tget zeroAt t.red.miss p.val = 0 ∧ t.mem = s.mem) ∧
  (∀ (s : State) (p : Fin 32), (s.redOn) → (s.ringOn) → (s.isManager) → (s.pairOn p.val) → (s.grantOf p.val = none) → (bitOf s.ring.heard p.val) → (tget zeroAt s.ring.hbw p.val % 8 = mRun) → Gives (.heartbeatCheck) s fun t => t.grantOf p.val = some ⟨p.val, s.pairPartner p.val, false, s.sheet + 3, s.slot⟩ ∧ t.get (R.RED_PAIR_HOLDER.ix p.val) = p.val ∧ t.get (R.RED_PAIR_STATE.ix p.val) = 0 ∧ t.mem = s.mem) ∧
  (∀ (s : State) (p : Fin 32) (g : Grant) (x : BitVec 8) (h : Fin 32), (s.redOn) → (s.ringOn) → (s.isManager) → (s.pairOn p.val) → (s.grantOf p.val = some g) → (!g.none) → (g.sheet ≤ s.sheet) → (g.holder = h.val) → Gives (.redFault h x) s fun t => t.grantOf p.val = some (if s.standbyOk (if g.holder = p.val then s.pairPartner p.val else p.val) then ⟨(if g.holder = p.val then s.pairPartner p.val else p.val), g.holder, false, s.sheet + 3, s.slot⟩ else ⟨g.holder, (if g.holder = p.val then s.pairPartner p.val else p.val), true, s.sheet + 3, s.slot⟩) ∧ t.get (R.RED_PAIR_STATE.ix p.val) = (if s.standbyOk (if g.holder = p.val then s.pairPartner p.val else p.val) then 1 else 3) ∧ t.hasEvent eRED 12 = true ∧ (s.standbyOk (if g.holder = p.val then s.pairPartner p.val else p.val) = false → t.hasEvent eRED 13 = true) ∧ tget zeroAt t.red.miss p.val = 0 ∧ t.mem = s.mem) ∧
  (∀ (s : State) (p : Fin 32) (f : BitVec 4) (q h : Word), (s.redOn) → (s.ringOn) → (s.isManager) → Gives (.standbyState p f q h) s fun t => tget (fun _ => none) t.red.standbys p.val = some ⟨f.toNat, q.toNat, h.toNat, s.slot⟩ ∧ t.red = { s.red with standbys := t.red.standbys } ∧ s.keeps t [] ∧ t = { s.regsOf t with red := t.red })

/-- A GRANT to this device waits for its sheet, one that names its pair and nobody fences it at once; a missing manager heartbeat counts, and the sixth fences the holder; ARB_GRANT_N gives the right from the next boundary and takes it at once. Where the manual is silent it rests on the model's own choice or reading: log entries 90 and 135. -/
def Obligations.TheRightToTransmit : Prop :=
  (∀ (s : State) (p : Fin 32) (h : Fin 32) (g : BitVec 48), (s.redOn) → (s.arbMode = 1) → (h.val = s.devid) → (!s.is R.RED_S_GRANT) → (s.red.lastG ≠ some g.toNat) → (s.red.grantAt = none) → Gives (.grant h p false g) s fun t => t.red = { s.red with grantAt := some g.toNat } ∧ s.keeps t [] ∧ t = { s.regsOf t with red := t.red }) ∧
  (∀ (s : State) (p h : Fin 32) (g : BitVec 48), (s.quiet) → (s.redOn) → (s.arbMode = 1) → (h.val = s.devid ∨ p.val = s.devid) → (s.is R.RED_S_GRANT) → Gives (.grant h p true g) s fun t => t.is R.RED_S_GRANT = false ∧ t.is R.RED_S_FENCED = true ∧ t.is R.TXS0_S_GATE_OPEN = false ∧ t.gateNext = false ∧ t.red.grantAt = none ∧ s.keeps t [R.RED_S_GRANT.addr, evKey eRED, R.TXS0_S_GATE_OPEN.addr, evKey eTXS] ∧ t = { s.regsOf t with red := t.red, gateNext := t.gateNext }) ∧
  (∀ (s : State), (s.redOn) → (s.is R.RED_S_GRANT) → (s.arbMode = 1) → (s.ring.mgr.any fun m => bitOf s.ring.heard m) → Gives (.managerHeartbeatCheck) s fun t => t.get R.RED_MISS_CNT_MISSES = 0 ∧ s.keeps t [R.RED_MISS_CNT_MISSES.addr] ∧ t = s.regsOf t) ∧
  (∀ (s : State), (s.redOn) → (s.is R.RED_S_GRANT) → (s.arbMode = 1) → (!(s.ring.mgr.any fun m => bitOf s.ring.heard m)) → (s.get R.RED_MISS_CNT_MISSES < 5) → Gives (.managerHeartbeatCheck) s fun t => t.get R.RED_MISS_CNT_MISSES = s.get R.RED_MISS_CNT_MISSES + 1 ∧ s.keeps t [R.RED_MISS_CNT_MISSES.addr] ∧ t = s.regsOf t) ∧
  (∀ (s : State), (s.quiet) → (s.redOn) → (s.is R.RED_S_GRANT) → (s.arbMode = 1) → (!(s.ring.mgr.any fun m => bitOf s.ring.heard m)) → (s.get R.RED_MISS_CNT_MISSES = 5) → Gives (.managerHeartbeatCheck) s fun t => t.get R.RED_MISS_CNT_MISSES = 6 ∧ t.is R.RED_S_GRANT = false ∧ t.is R.RED_S_FENCED = true ∧ t.is R.TXS0_S_GATE_OPEN = false ∧ t.gateNext = false ∧ s.keeps t [R.RED_MISS_CNT_MISSES.addr, R.RED_S_GRANT.addr, evKey eRED, R.TXS0_S_GATE_OPEN.addr, evKey eTXS] ∧ t = { s.regsOf t with red := t.red, gateNext := t.gateNext }) ∧
  (∀ (s : State), Gives (.arbGrantAssert) s fun t => t.red = { s.red with arb := true, grantAt := if s.arbMode = 2 ∧ s.is R.RED_S_GRANT = false then some (s.sheet + 1) else s.red.grantAt } ∧ s.keeps t [] ∧ t = { s.regsOf t with red := t.red }) ∧
  (∀ (s : State), (s.quiet) → (s.arbMode = 2) → Gives (.arbGrantDeassert) s fun t => t.red = { s.red with arb := false, grantAt := none } ∧ t.is R.RED_S_GRANT = false ∧ t.is R.TXS0_S_GATE_OPEN = false ∧ t.gateNext = false ∧ s.keeps t [R.RED_S_GRANT.addr, evKey eRED, R.TXS0_S_GATE_OPEN.addr, evKey eTXS] ∧ t = { s.regsOf t with red := t.red, gateNext := t.gateNext }) ∧
  (∀ (s : State), (s.arbMode ≠ 2) → Gives (.arbGrantDeassert) s fun t => t.red = { s.red with arb := false } ∧ s.keeps t [] ∧ t = { s.regsOf t with red := t.red })

/-- YIELD raises cause HOST; a kick starts the watchdog again and ends cause WDOG; a watchdog that is not kicked for its time raises WDOG, and arms a reset where WDOG_RST is set. -/
def Obligations.FaultCausesAndWatchdog : Prop :=
  (∀ (s : State) (m : Master) (v : Word), (s.takes m.toNat 0xD0008) → (bitOf v.toNat 1) → (bitOf v.toNat 0) → Gives (.redYield m v) s fun t => bitOf (t.get R.RED_FAULT_CAUSE_CAUSE) 6 = true ∧ t.mem = s.mem ∧ t.bus = s.told m.toNat .ok []) ∧
  (∀ (s : State) (m : Master) (v : Word), (s.takes m.toNat 0xD00B8) → (bitOf v.toNat 0) → Gives (.wdogKick m v) s fun t => t.red.kick = s.absCyc ∧ bitOf (t.get R.RED_FAULT_CAUSE_CAUSE) 0 = false ∧ t.mem = s.mem ∧ t.bus = s.told m.toNat .ok []) ∧
  (∀ (s : State), (s.redOn) → (s.get R.RED_WDOG_CFG_MS ≠ 0) → (s.red.kick + s.get R.RED_WDOG_CFG_MS * 8 * sheetCycles ≤ s.absCyc) → (!bitOf (s.get R.RED_FAULT_CAUSE_CAUSE) 0) → Gives (.watchdogExpire) s fun t => bitOf (t.get R.RED_FAULT_CAUSE_CAUSE) 0 = true ∧ t.pwr.wdogAt = (if s.is R.PWR_RST_CFG_WDOG_RST then some s.slot else s.pwr.wdogAt) ∧ t.mem = s.mem ∧ t.slot = s.slot)

/-- At a checkpoint sheet the holder captures its image under the next SEQ, or skips and counts while one is being sent; the end of the capture makes it ready; a standby opens its free slot, stores data there, and at the close holds a checkpoint that matches or counts a bad one, as does a close without an opening; while a channel makes it wait the close waits too. Where the manual is silent it rests on the model's own choice or reading: log entries 2, 70, 151 and 165. -/
def Obligations.Checkpoints : Prop :=
  (∀ (s : State), (s.ckptDue) → (s.red.ckpt = none) → (s.dramUsable) → Gives (.checkpointCapture) s fun t => t.red = { s.red with seq := (s.red.seq + 1) % 2 ^ 32, ckpt := some ⟨(s.red.seq + 1) % 2 ^ 32, s.sheet, s.image ((s.red.seq + 1) % 2 ^ 32) s.sheet, false, false, 0⟩ } ∧ t.is R.RED_S_CKPT_BUSY = true ∧ s.keeps t [R.RED_S_CKPT_BUSY.addr, 0xD00CC] ∧ t = { s.regsOf t with red := t.red }) ∧
  (∀ (s : State), (s.quiet) → (s.ckptDue) → (s.red.ckpt.isSome) → Gives (.checkpointCapture) s fun t => t.get R.RED_SKIP_CNT_COUNT = (s.get R.RED_SKIP_CNT_COUNT + 1) % 2 ^ 32 ∧ t.hasEvent eRED 6 = true ∧ s.keeps t [R.RED_SKIP_CNT_COUNT.addr, evKey eRED] ∧ t = s.regsOf t) ∧
  (∀ (s : State) (c : Ckpt), (s.red.ckpt = some c) → (!c.ready) → (s.dramUsable) → (!s.ckptWaits) → Gives (.checkpointCaptureDone) s fun t => t.red.ckpt = some { c with ready := true } ∧ t.slot = s.slot) ∧
  (∀ (s : State) (q l : Word), (s.standby) → (s.dramUsable) → (s.red.slots.length = 2) → Gives (.checkpointOpen q l) s fun t => t.red.ckptIn = some ⟨if s.newestSlot = some 0 then 1 else 0, q.toNat, l.toNat, none⟩ ∧ t.slotSeq (if s.newestSlot = some 0 then 1 else 0) = none ∧ t.slotSeq (if s.newestSlot = some 0 then 0 else 1) = s.slotSeq (if s.newestSlot = some 0 then 0 else 1)) ∧
  (∀ (s : State) (o : Nat) (d : List Byte) (c : CkptIn) (p : Nat × Nat), (s.red.ckptIn = some c) → (c.close = none) → (s.standby) → (s.dramUsable) → (s.waiting = []) → (s.chanDo p.1 = .serve) → (s.portOpen 2) → (d.length = 64) → (o % 64 = 0) → (o + 64 ≤ 0x400000) → (s.dramMap (s.slotAt c.slot + o) = some p) → (s.allowed 0x40 4 (s.slotAt c.slot + o) 64 true) → (s.imageOf (s.slotAt c.slot + o) = none) → Gives (.checkpointData o d) s fun t => t.mem = (s.putBytes (s.slotAt c.slot + o) d).mem ∧ t.red = s.red) ∧
  (∀ (s : State) (q : Word) (x : BitVec 64) (c : CkptIn) (b : List Byte), (s.red.ckptIn = some c) → (c.slot < s.red.slots.length) → (s.standby) → (s.dramUsable) → (!s.ckptWaits) → (c.len ≤ 0x400000) → ((s.slotImage c.slot c.len).1 = some b) → (c.seq = q.toNat) → (leAt b 4 4 = q.toNat) → (crc64 b = x.toNat) → Gives (.checkpointClose q x) s fun t => t.red.ckptIn = none ∧ t.red.slots.getD c.slot none = some ⟨q.toNat, leAt b 8 8, c.len⟩ ∧ t.is R.RED_S_SLOT_OK = true ∧ t.hasEvent eRED 4 = true) ∧
  (∀ (s : State) (q : Word) (x : BitVec 64) (c : CkptIn), (s.red.ckptIn = some c) → (s.standby) → (s.dramUsable) → (!s.ckptWaits) → (c.seq ≠ q.toNat) → Gives (.checkpointClose q x) s fun t => t.red.ckptIn = none ∧ t.red.slots = s.red.slots ∧ t.get R.RED_BAD_CNT_COUNT = (s.get R.RED_BAD_CNT_COUNT + 1) % 2 ^ 32 ∧ t.hasEvent eRED 5 = true) ∧
  (∀ (s : State) (q : Word) (x : BitVec 64) (c : CkptIn), (s.red.ckptIn = some c) → (s.standby) → (s.dramUsable) → (s.ckptWaits) → Gives (.checkpointClose q x) s fun t => t.red = { s.red with ckptIn := some { c with close := some (q.toNat, x.toNat) } } ∧ s.keeps t [] ∧ t = { s.regsOf t with red := t.red }) ∧
  (∀ (s : State) (q : Word) (x : BitVec 64), (s.quiet) → (s.red.ckptIn = none) → (s.standby) → (s.dramUsable) → Gives (.checkpointClose q x) s fun t => t.get R.RED_BAD_CNT_COUNT = (s.get R.RED_BAD_CNT_COUNT + 1) % 2 ^ 32 ∧ t.hasEvent eRED 5 = true ∧ s.keeps t [R.RED_BAD_CNT_COUNT.addr, evKey eRED] ∧ t = s.regsOf t)

/-- A standby with the right starts the takeover in silence; when the restore is done at a boundary RUN is in force and silence ends after the pipeline has filled; then the fade starts; a proof run that is due starts the transition to SERVICE, with its end there the result stands and the transition back to SPARE starts. Where the manual is silent it rests on the model's own choice or reading: log entries 92, 94 and 152. -/
def Obligations.TakeoverAndProof : Prop :=
  (∀ (s : State), (s.redOn) → (s.is R.RED_S_GRANT) → (s.red.take = none) → (s.mode = mSpare) → (!s.modeBusy) → Gives (.takeover) s fun t => t.red.take = some s.slot ∧ t.is R.RED_S_SILENCE = true ∧ t.is R.RED_S_RESTORING = true ∧ t.is R.TXS0_S_SILENCE = true ∧ t.pwr.trans = some (mSpare, mRun, false) ∧ t.is R.PWR_S_BUSY = true ∧ (s.newestSlot = none → t.hasEvent eRED 8 = true)) ∧
  (∀ (s : State) (g : Nat) (f : Bool), (s.red.take = some g) → (s.pwr.trans = some (mSpare, mRun, f)) → (s.cyc = 0) → (s.is R.RED_S_RESTORING) → (!(s.dramUsable && s.ckptWaits)) → Gives (.restoreDone) s fun t => t.mode = mRun ∧ t.pwr.trans = none ∧ t.is R.RED_S_RESTORING = false ∧ t.get R.RED_RESTORE_TIME_SHEETS = (s.slot - g) % 2 ^ 16 ∧ t.red.silenceEnd = some (s.slot + t.latS) ∧ t.hasEvent eRED 7 = true) ∧
  (∀ (s : State) (e : Nat), (s.quiet) → (s.red.silenceEnd = some e) → (e ≤ s.slot) → Gives (.audioOn) s fun t => t.is R.RED_S_SILENCE = false ∧ t.is R.TXS0_S_SILENCE = false ∧ t.red = { s.red with take := none, silenceEnd := none, fade := some (s.slot, clampN 6 4800 (s.get R.RED_TAKE_CFG_FADE)) } ∧ t.hasEvent eRED 9 = true ∧ s.keeps t [R.RED_S_SILENCE.addr, evKey eRED, R.TXS0_S_SILENCE.addr, evKey eTXS] ∧ t = { s.regsOf t with red := t.red }) ∧
  (∀ (s : State), (s.proofDue) → Gives (.proofRun) s fun t => t.is R.RED_S_PROOF_RUNNING = true ∧ t.mode = mSpare ∧ t.pwr.trans = some (mSpare, mService, false) ∧ t.is R.PWR_S_BUSY = true ∧ t.red.proofAt = s.slot ∧ t.mem = s.mem) ∧
  (∀ (s : State) (b : Bool), (s.is R.RED_S_PROOF_RUNNING) → (s.mode = mService) → (s.pwr.trans = none) → Gives (.proofRunDone b) s fun t => t.is R.RED_S_PROOF_RUNNING = false ∧ t.mode = mService ∧ t.pwr.trans = some (mService, mSpare, false) ∧ t.is R.PWR_S_BUSY = true ∧ t.is R.RED_PROOF_STATUS_PASS = b ∧ t.get R.RED_PROOF_STATUS_RUNS = (s.get R.RED_PROOF_STATUS_RUNS + 1) % 2 ^ 16 ∧ t.red.proofOk = b ∧ t.hasEvent eRED (if b then 10 else 11) = true)

/-- A request that R447 allows starts its transition, another is refused with its reason; domains power up and down one at a time as their times come; at the boundary that ends the transition the last of them have changed and the new mode is in force, MODE_RESULT shows the two modes with reason 0 and whether the transition was forced, and MODE_TIME its time; a temperature at the limit shows FORCED and forces STANDBY. Where the manual is silent it rests on the model's own choice or reading: log entries 33 and 95. -/
def Obligations.Modes : Prop :=
  (∀ (s : State) (m : Master) (v : Word), (s.takes m.toNat 0x1080) → (bitOf v.toNat 31) → (s.modeReason (v.toNat % 8) = 0) → Gives (.modeRequest m v) s fun t => t.pwr.trans = some (s.mode, v.toNat % 8, false) ∧ t.is R.PWR_S_BUSY = true ∧ t.mode = s.mode ∧ t.bus = s.told m.toNat .ok []) ∧
  (∀ (s : State) (m : Master) (v : Word), (s.takes m.toNat 0x1080) → (s.quiet) → (bitOf v.toNat 31) → (s.modeReason (v.toNat % 8) ≠ 0) → Gives (.modeRequest m v) s fun t => t.get R.PWR_MODE_RESULT_REASON = s.modeReason (v.toNat % 8) ∧ t.get R.PWR_MODE_RESULT_FROM = s.mode ∧ t.get R.PWR_MODE_RESULT_TO = v.toNat % 8 ∧ t.hasEvent ePWR 1 = true ∧ t.bus = s.told m.toNat .ok [] ∧ s.keeps t [0x1080, 0x1084, evKey ePWR] ∧ t = { s.regsOf t with bus := t.bus }) ∧
  (∀ (s : State) (u : BitVec 16) (f g : Nat) (b : Bool), (s.pwr.trans = some (f, g, b)) → (¬(f = mSpare ∧ g = mRun)) → (g < 8) → (s.cyc = 0) → (f < 8) → (s.pwr.doms.all fun q => decide (q.dom < 14)) → (!s.redOn) → (!s.boot.modeWait) → (s.fabricIdle) → Gives (.modeDone u) s fun t => t.mode = g ∧ t.pwr.trans = none ∧ t.is R.PWR_S_BUSY = false ∧ t.get R.PWR_MODE_TIME_US = u.toNat ∧ t.hasEvent ePWR 0 = true ∧ t.get R.PWR_MODE_RESULT_FROM = f ∧ t.get R.PWR_MODE_RESULT_TO = g ∧ t.get R.PWR_MODE_RESULT_REASON = 0 ∧ t.is R.PWR_MODE_RESULT_FORCED = b ∧ t.get R.PWR_DOM_ON_ON = s.pwr.doms.foldl (fun n q => if q.up then n ||| 2 ^ q.dom else n &&& (allDoms - 2 ^ q.dom)) (s.get R.PWR_DOM_ON_ON) ∧ t.pwr.doms = []) ∧
  (∀ (s : State) (d : BitVec 12), (!s.pwr.off) → (s.pwr.inReset = none) → (s.fabricIdle) → (satI 12 (d.toInt + s.tempOffset) < s.warnAt) → (satI 12 (d.toInt + s.tempOffset) < s.shutAt) → Gives (.tempSample d) s fun t => t.getI R.PWR_TEMP_DEG = satI 12 (d.toInt + s.tempOffset) ∧ t.is R.PWR_S_HOT = false ∧ t.pwr.above = false ∧ (s.domOn 13 = true → t.getI R.DPHY_TEMP_DEG = satI 12 (d.toInt + s.tempOffset)) ∧ t.mem = s.mem ∧ t.mode = s.mode) ∧
  (∀ (s : State) (d : BitVec 12), (!s.pwr.off) → (s.pwr.inReset = none) → (s.fabricIdle) → (s.shutAt ≤ satI 12 (d.toInt + s.tempOffset)) → (s.mode ≠ mStandby) → (s.mode ≠ mOff) → (s.pwr.trans = none) → Gives (.tempSample d) s fun t => t.getI R.PWR_TEMP_DEG = satI 12 (d.toInt + s.tempOffset) ∧ t.is R.PWR_S_HOT = true ∧ t.is R.PWR_MODE_RESULT_FORCED = true ∧ t.pwr.trans = some (s.mode, mStandby, true)) ∧
  (∀ (s : State) (d : BitVec 12), (!s.pwr.off) → (s.pwr.inReset = none) → (s.fabricIdle) → (s.shutAt ≤ satI 12 (d.toInt + s.tempOffset)) → (s.mode = mStandby) → (s.pwr.trans = none) → Gives (.tempSample d) s fun t => t.getI R.PWR_TEMP_DEG = satI 12 (d.toInt + s.tempOffset) ∧ t.is R.PWR_S_HOT = true ∧ t.is R.PWR_MODE_RESULT_FORCED = true ∧ t.pwr.trans = none ∧ t.mode = mStandby) ∧
  (∀ (s : State), (s.pageOn eDPHY = false) → (s.pwr.doms.any fun q => decide (q.at0 ≤ s.absCyc)) → (s.pwr.doms.all fun q => decide (q.dom < 14) && q.dom != 13) → Gives (.regulatorRefill) s fun t => (t.pwr.doms = s.pwr.doms.dropWhile fun q => decide (q.at0 ≤ s.absCyc)) ∧ t.get R.PWR_DOM_ON_ON = (s.pwr.doms.takeWhile fun q => decide (q.at0 ≤ s.absCyc)).foldl (fun n q => if q.up then n ||| 2 ^ q.dom else n &&& (allDoms - 2 ^ q.dom)) (s.get R.PWR_DOM_ON_ON))

/-- A domain reset holds the domains that it may reset and clears their registers; a POR starts the reset sequence of the whole device with the straps as sampled; RESET_N and the watchdog keep time, straps, the servo generation and the JTAG port; at the release the device is in STANDBY; PERST resets the link alone, and its release gives the lanes of the link the cursors of their fuse and user values; the end of a domain's hold lets it run with its registers as they are; VDDIO in tolerance puts the clock outputs, LOCK_F and ARB_HB in their reset state, LOCK_F low. The bit of a rail and LOW_SUPPLY clear when the rails have returned; without supplies the device is OFF with every domain off. Where the manual is silent it rests on the model's own choice or reading: log entries 3, 75, 95, 103 and 156. -/
def Obligations.ResetsAndSupplies : Prop :=
  (∀ (s : State) (m : Master) (v : Word), (s.takes m.toNat 0x108C) → (s.mode = mConfig ∨ s.mode = mService) → Gives (.domRst m v) s fun t => t.held = s.held ||| (v.toNat &&& 0x3FDC) ∧ ((s.words ++ t.words).all (fun e => !clearedBy v.toNat e.1 || t.w e.1 == resetWord e.1) = true) ∧ (v.toNat &&& 0x0023 ≠ 0 → t.hasEvent ePWR 2 = true) ∧ t.bus = s.told m.toNat .ok []) ∧
  (∀ (s : State) (d : Fin 14), (s.pwr.inReset = none) → (!s.pwr.off) → (!s.pwr.test) → Gives (.domRstRelease d) s fun t => t.held = s.held &&& (allDoms - 2 ^ d.val) ∧ t.words = s.words ∧ t.mem = s.mem ∧ s.keeps t [] ∧ t = { s.regsOf t with held := t.held, macs := t.macs, pwr := t.pwr }) ∧
  (∀ (s : State) (x : BitVec 9) (b : Bool), Gives (.por .powerOn x b) s fun t => t.held = allDoms ∧ t.mode = mOff ∧ t.mem = [] ∧ t.pwr.inReset = some true ∧ t.n 0x1090 = 1 ∧ t.devid = bits x.toNat 4 0 ∧ t.hsi = 0 ∧ t.tap = { TapSt.reset with trst := s.tap.trst } ∧ t.pending = s.pending ∧ t.hostMem = s.hostMem ∧ t.freeCtr = s.freeCtr) ∧
  (∀ (s : State) (x : BitVec 9) (b : Bool), (!s.pwr.off) → Gives (.por .pin x b) s fun t => t.held = allDoms ∧ t.mode = mOff ∧ t.mem = [] ∧ t.pwr.inReset = some true ∧ t.n 0x1090 = s.n 0x1090 ||| 2 ∧ t.devid = bits x.toNat 4 0 ∧ t.hsi = 0 ∧ t.tap = { TapSt.reset with trst := s.tap.trst } ∧ t.pending = s.pending ∧ t.hostMem = s.hostMem ∧ t.freeCtr = s.freeCtr) ∧
  (∀ (s : State), (!s.pwr.off) → (s.pwr.inReset ≠ some true) → Gives (.resetN) s fun t => t.held = allDoms ∧ t.mode = mOff ∧ t.mem = [] ∧ t.pwr.inReset = some false ∧ t.n 0x1090 = s.n 0x1090 ||| 4 ∧ t.devid = s.devid ∧ t.hsi = s.hsi ∧ t.slot = s.slot ∧ t.gen = s.gen ∧ t.tap = s.tap ∧ t.pending = s.pending ∧ t.hostMem = s.hostMem ∧ t.freeCtr = s.freeCtr) ∧
  (∀ (s : State) (k : Nat), (s.pwr.wdogAt = some k) → (k + 16 ≤ s.slot) → (!s.pwr.off) → (s.pwr.inReset ≠ some true) → Gives (.wdogReset) s fun t => t.held = allDoms ∧ t.mode = mOff ∧ t.mem = [] ∧ t.pwr.inReset = some false ∧ t.n 0x1090 = s.n 0x1090 ||| 16 ∧ t.devid = s.devid ∧ t.hsi = s.hsi ∧ t.slot = s.slot ∧ t.gen = s.gen ∧ t.tap = s.tap ∧ t.pending = s.pending ∧ t.hostMem = s.hostMem ∧ t.freeCtr = s.freeCtr) ∧
  (∀ (s : State) (d : BitVec 12) (b : Bool), (s.pwr.inReset = some b) → Gives (.resetRelease d) s fun t => t.mode = mStandby ∧ t.pwr.inReset = none ∧ t.held = (if s.pwr.test then allDoms - 1 else 0) ∧ (b = true → t.is R.CLK_S_PLLA_LOCK = true) ∧ t.getI R.PWR_TEMP_DEG = satI 12 (d.toInt + s.tempOffset)) ∧
  (∀ (s : State), (!s.pwr.off) → Gives (.pciePerst) s fun t => t.pwr = { s.pwr with perst := true } ∧ t.msix.en = 0 ∧ t.msix.pba = [] ∧ t.noRequest 0 = true ∧ t.out = s.out ∧ t = { s.regsOf t with pwr := t.pwr }) ∧
  (∀ (s : State), (s.macs.all fun m => m.held.isEmpty) → (s.macs.length = 4) → (s.domOn 1) → Gives (.pciePerstRelease) s fun t => t.pwr = { s.pwr with perst := false, lanes := t.pwr.lanes } ∧ ((List.range 4).all fun i => tget (fun _ => 0) t.pwr.lanes (8 + i) == s.laneCursors (8 + i)) ∧ s.keeps t [] ∧ t = { s.regsOf t with pwr := t.pwr }) ∧
  (∀ (s : State), Gives (.vddioUp) s fun t => t.clk.outs = ClkSt.reset.outs ∧ t.clk.lockF = 400 ∧ t.red = { s.red with arbHb := false } ∧ t.pwr = { s.pwr with io := true } ∧ s.keeps t [] ∧ t = { s.regsOf t with clk := t.clk, red := t.red, pwr := t.pwr }) ∧
  (∀ (s : State) (r : Fin 5), (!s.pwr.off) → Gives (.supplyReturn r) s fun t => t.get R.PWR_SUPPLY_LOW = s.get R.PWR_SUPPLY_LOW &&& (2 ^ 5 - 1 - 2 ^ r.val) ∧ t.is R.PWR_S_LOW_SUPPLY = decide (s.get R.PWR_SUPPLY_LOW &&& (2 ^ 5 - 1 - 2 ^ r.val) ≠ 0) ∧ t.mem = s.mem) ∧
  (∀ (s : State), Gives (.supplyRemoval) s fun t => t.held = allDoms ∧ t.mode = mOff ∧ t.mem = [] ∧ t.get R.PWR_DOM_ON_ON = 0 ∧ t.pwr.off = true ∧ t.pending = s.pending ∧ t.hostMem = s.hostMem ∧ t.freeCtr = s.freeCtr)

/-- A rail more than 5 % low sets its bit of SUPPLY, latches BROWNOUT_WARN and activates cause SUPPLY; a rail more than 10 % low is a POR with cause BROWNOUT added to the causes shown. Where the manual is silent it rests on the model's own choice or reading: log entries 7 and 75. -/
def Obligations.SupplyMonitors : Prop :=
  (∀ (s : State) (r : Fin 5), (!s.pwr.off) → Gives (.brownoutWarn r) s fun t => t.get R.PWR_SUPPLY_LOW = s.get R.PWR_SUPPLY_LOW ||| 2 ^ r.val ∧ t.is R.PWR_S_LOW_SUPPLY = true ∧ t.hasEvent ePWR 3 = true ∧ bitOf (t.get R.RED_FAULT_CAUSE_CAUSE) 4 = true ∧ t.mem = s.mem) ∧
  (∀ (s : State) (x : BitVec 9) (b : Bool), (!s.pwr.off) → Gives (.brownout x b) s fun t => t.held = allDoms ∧ t.mode = mOff ∧ t.mem = [] ∧ t.pwr.inReset = some true ∧ t.n 0x1090 = s.n 0x1090 ||| 8 ∧ t.devid = bits x.toNat 4 0 ∧ t.pending = s.pending ∧ t.hostMem = s.hostMem ∧ t.freeCtr = s.freeCtr)

/-- After STANDBY the strap starts a QSPI boot with what the flash parameters say, fails it without a response, waits for the host or shows DONE; GO starts a host-driven boot; a sound image enters the execute pass with its build number and its length; an unsound one fails with its reason, but for copy 0 of a QSPI image, after which copy 1 is read at its offset; a PCIe read that fails ends the boot at its address; ABORT fails the boot. Where the manual is silent it rests on the model's own choice or reading: log entries 12, 97, 153 and 154. -/
def Obligations.BootStartsAndVerifies : Prop :=
  (∀ (s : State) (f d : List Byte), (s.pageOn eBOOT) → (s.mode = mStandby) → (s.n 0xE800C = 0) → (!s.boot.waits) → (s.bootStrap = 0 ∨ s.bootStrap = 2) → (sfdpTable f = some d) → (sfdpDensity d < 64) → Gives (.bootStart (some f)) s fun t => t.boot = { BootSt.reset with verify := true, qspi := true, copy1 := 2 ^ sfdpDensity d / 2 } ∧ t.get R.BOOT_QSPI_INFO_MODE = sfdpMode d ∧ t.get R.BOOT_QSPI_INFO_DENSITY = sfdpDensity d ∧ t.is R.BOOT_QSPI_INFO_SFDP = true ∧ t.is R.BOOT_QSPI_INFO_ADDR4 = decide (24 < sfdpDensity d) ∧ t.is R.BOOT_S_BUSY = true ∧ t.get R.BOOT_RESULT_SOURCE = 0 ∧ !t.is R.BOOT_RESULT_COPY ∧ s.keeps t [0xE800C, 0xE808C, 0xE8090, 0xE8094, 0xE8098, 0xE80AC] ∧ t = { s.regsOf t with boot := t.boot }) ∧
  (∀ (s : State) (f : List Byte), (s.pageOn eBOOT) → (s.mode = mStandby) → (s.n 0xE800C = 0) → (!s.boot.waits) → (s.bootStrap = 0 ∨ s.bootStrap = 2) → (sfdpTable f = none) → Gives (.bootStart (some f)) s fun t => t.boot = { BootSt.reset with verify := true, qspi := true, copy1 := 0x800000 } ∧ t.n 0xE80AC = 0 ∧ t.is R.BOOT_S_BUSY = true ∧ t.get R.BOOT_RESULT_SOURCE = 0 ∧ !t.is R.BOOT_RESULT_COPY ∧ s.keeps t [0xE800C, 0xE808C, 0xE8090, 0xE8094, 0xE8098, 0xE80AC] ∧ t = { s.regsOf t with boot := t.boot }) ∧
  (∀ (s : State), (s.quiet) → (s.pageOn eBOOT) → (s.mode = mStandby) → (s.n 0xE800C = 0) → (!s.boot.waits) → (s.bootStrap = 0 ∨ s.bootStrap = 2) → Gives (.bootStart none) s fun t => t.boot = { BootSt.reset with waits := s.bootStrap == 2 } ∧ t.is R.BOOT_S_FAILED = true ∧ t.get R.BOOT_RESULT_REASON = 1 ∧ t.hasEvent eBOOT 1 = true ∧ s.keeps t [0xE800C, 0xE808C, 0xE8094, 0xE8098, evKey eBOOT, 0xE8090] ∧ t = { s.regsOf t with boot := t.boot }) ∧
  (∀ (s : State) (f : Option (List Byte)), (s.pageOn eBOOT) → (s.mode = mStandby) → (s.n 0xE800C = 0) → (!s.boot.waits) → (s.bootStrap = 1) → Gives (.bootStart f) s fun t => t.boot = { s.boot with waits := true } ∧ s.keeps t [] ∧ t = { s.regsOf t with boot := t.boot }) ∧
  (∀ (s : State) (f : Option (List Byte)), (s.quiet) → (s.pageOn eBOOT) → (s.mode = mStandby) → (s.n 0xE800C = 0) → (!s.boot.waits) → (s.bootStrap = 3) → Gives (.bootStart f) s fun t => t.is R.BOOT_S_DONE = true ∧ t.is R.BOOT_S_BUSY = false ∧ t.get R.BOOT_RESULT_SOURCE = 3 ∧ t.hasEvent eBOOT 0 = true ∧ s.keeps t [0xE800C, 0xE808C, evKey eBOOT] ∧ t = s.regsOf t) ∧
  (∀ (s : State) (m : Master) (v : Word), (s.takes m.toNat 0xE8008) → (!s.is R.BOOT_S_BUSY) → (s.mode = mStandby ∨ s.mode = mConfig) → (bitOf v.toNat 0) → (!bitOf v.toNat 1) → (s.bootStrap ≠ 1 ∨ s.get64 0xE8080 ≠ 0) → Gives (.bootGo m v) s fun t => t.boot = { BootSt.reset with verify := true, copy1 := s.boot.copy1 } ∧ t.is R.BOOT_S_BUSY = true ∧ t.get R.BOOT_RESULT_SOURCE = (if s.is R.BOOT_SRC_CFG_FABRIC then 2 else 1) ∧ t.bus = s.told m.toNat .ok [] ∧ s.keeps t [0xE8008, 0xE800C, 0xE808C, 0xE8090, 0xE8094, 0xE8098] ∧ t = { s.regsOf t with bus := t.bus, boot := t.boot }) ∧
  (∀ (s : State) (m : Master) (v : Word), (s.takes m.toNat 0xE8008) → (s.quiet) → (!s.is R.BOOT_S_BUSY) → (s.mode = mStandby ∨ s.mode = mConfig) → (bitOf v.toNat 0) → (!bitOf v.toNat 1) → (s.bootStrap = 1) → (s.get64 0xE8080 = 0) → Gives (.bootGo m v) s fun t => t.boot = BootSt.reset ∧ t.is R.BOOT_S_FAILED = true ∧ t.is R.BOOT_S_BUSY = false ∧ t.hasEvent eBOOT 1 = true ∧ t.get R.BOOT_RESULT_REASON = 1 ∧ t.bus = s.told m.toNat .ok [] ∧ s.keeps t [0xE8008, 0xE800C, 0xE808C, 0xE8090, 0xE8094, 0xE8098, evKey eBOOT] ∧ t = { s.regsOf t with bus := t.bus, boot := t.boot }) ∧
  (∀ (s : State) (m : Master) (v : Word), (s.takes m.toNat 0xE8008) → (s.quiet) → (bitOf v.toNat 1) → (!bitOf v.toNat 0) → (s.is R.BOOT_S_BUSY) → (s.boot.poll = none) → (!s.boot.modeWait) → (s.mode ≠ mRun) → Gives (.bootAbort m v) s fun t => t.boot = BootSt.reset ∧ t.is R.BOOT_S_FAILED = true ∧ t.is R.BOOT_S_BUSY = false ∧ t.hasEvent eBOOT 1 = true ∧ t.get R.BOOT_RESULT_REASON = 9 ∧ t.bus = s.told m.toNat .ok [] ∧ s.keeps t [0xE8008, 0xE800C, 0xE808C, 0xE8094, 0xE8098, evKey eBOOT] ∧ t = { s.regsOf t with bus := t.bus, boot := t.boot }) ∧
  (∀ (s : State) (b d : List Byte), (s.boot.verify) → (s.bootImage b = (some (.ok d), s)) → (imageReason d = 0) → Gives (.verifyPassDone b) s fun t => t.boot = { s.boot with verify := false, image := d.take (leAt d 8 4), pos := 32 } ∧ t.is R.BOOT_S_EXECUTING = true ∧ t.is R.BOOT_S_BUSY = true ∧ t.get64 0xE80A0 = leAt d 16 8 ∧ t.get R.BOOT_IMG_LEN_LEN = leAt d 8 4 ∧ s.keeps t [0xE800C, 0xE80A0, 0xE80A4, 0xE80A8] ∧ t = { s.regsOf t with boot := t.boot }) ∧
  (∀ (s : State) (b d : List Byte), (s.quiet) → (s.boot.verify) → (!s.boot.qspi) → (!s.is R.BOOT_S_EXECUTING) → (s.bootImage b = (some (.ok d), s)) → (imageReason d ≠ 0) → Gives (.verifyPassDone b) s fun t => t.boot = BootSt.reset ∧ t.is R.BOOT_S_FAILED = true ∧ t.is R.BOOT_S_BUSY = false ∧ t.hasEvent eBOOT 1 = true ∧ t.get R.BOOT_RESULT_REASON = imageReason d ∧ t.get R.BOOT_REC_INDEX_INDEX = imageIndex d % 2 ^ 32 ∧ s.keeps t [0xE800C, 0xE808C, 0xE8094, 0xE8098, evKey eBOOT, 0xE8090] ∧ t = { s.regsOf t with boot := t.boot }) ∧
  (∀ (s : State) (b d : List Byte), (s.boot.verify) → (s.boot.qspi) → (!s.is R.BOOT_RESULT_COPY) → (s.bootImage b = (some (.ok d), s)) → (imageReason d ≠ 0) → Gives (.verifyPassDone b) s fun t => t.boot = { BootSt.reset with verify := true, qspi := true, copy1 := s.boot.copy1 } ∧ t.is R.BOOT_S_BUSY = true ∧ t.is R.BOOT_RESULT_COPY = true ∧ t.get R.BOOT_RESULT_SOURCE = 0 ∧ (t.bootImage b).1 = some (.ok (b.drop s.boot.copy1)) ∧ s.keeps t [0xE800C, 0xE808C, 0xE8090, 0xE8094, 0xE8098] ∧ t = { s.regsOf t with boot := t.boot }) ∧
  (∀ (s : State) (b : List Byte), (s.quiet) → (s.boot.verify) → (!s.boot.qspi) → (!s.is R.BOOT_S_EXECUTING) → (s.get R.BOOT_RESULT_SOURCE = 1) → (b.length < imageNeed b) → Gives (.verifyPassDone b) s fun t => t.boot = BootSt.reset ∧ t.is R.BOOT_S_FAILED = true ∧ t.is R.BOOT_S_BUSY = false ∧ t.hasEvent eBOOT 1 = true ∧ t.get R.BOOT_RESULT_REASON = 8 ∧ t.get64 0xE8094 = (s.get64 0xE8080 + b.length) % 2 ^ 40 ∧ s.keeps t [0xE800C, 0xE808C, 0xE8094, 0xE8098, evKey eBOOT, 0xE8090] ∧ t = { s.regsOf t with boot := t.boot })

/-- A record of the image runs in its turn, and the record index and the place in the image go on: WRITE and FILL store words, LOAD a block, MODIFY the masked bits of a register; a WRITE answered with an error ends the boot at its address; a record whose access waits stays in progress; POLL goes on when the masked word equals its value, else waits, and fails at its timeout; DELAY goes on; MODE requests its mode and waits, or fails the boot where it is refused; a command that the image does not spell next does nothing; END finishes the boot when the CRC agrees, and fails it as unstable otherwise or where its read fails. Where the manual is silent it rests on the model's own choice or reading: log entries 96, 97, 154 and 155. -/
def Obligations.BootRecords : Prop :=
  (∀ (s : State) (k : Bool) (a : Addr) (v : Word), (s.spells (.bootWrite k a v)) → (s.servesSram 2 a.toNat 4 true) → (s.clean a.toNat 4) → (plainArea a.toNat 4) → (inboxSlot a.toNat 4 = none) → Gives (.bootWrite k a v) s fun t => t.mem = (s.putBytes a.toNat (leBytes 4 v.toNat)).mem ∧ t.get R.BOOT_REC_INDEX_INDEX = s.get R.BOOT_REC_INDEX_INDEX + 1 ∧ t.boot = { s.boot with pos := s.boot.pos + leAt s.boot.image (s.boot.pos + 4) 4 } ∧ s.keeps t [0xA00AC, 0xA00B0, 0xE8090] ∧ t = { s.regsOf t with mem := t.mem, sramErr := t.sramErr, poison := t.poison, boot := t.boot, passed := t.passed }) ∧
  (∀ (s : State) (k : Bool) (a : Addr) (v : Word) (l : Loc), (s.spells (.bootWrite k a v)) → (s.stores 2 a.toNat l v) → (hidden 2 (some l) = 0) → (l.key ≠ 0xE8090) → Gives (.bootWrite k a v) s fun t => t.w l.key = mergeWrite (s.majW l.key) v l.spec 0 ∧ t.get R.BOOT_REC_INDEX_INDEX = s.get R.BOOT_REC_INDEX_INDEX + 1 ∧ t.boot = { s.boot with pos := s.boot.pos + leAt s.boot.image (s.boot.pos + 4) 4 } ∧ (l.spec.tmr ≠ 0 → tget zeroAt t.tmrA l.key = 0 ∧ tget zeroAt t.tmrB l.key = 0) ∧ (∀ k, k ≠ l.key ∨ l.spec.tmr = 0 → tget zeroAt t.tmrA k = tget zeroAt s.tmrA k ∧ tget zeroAt t.tmrB k = tget zeroAt s.tmrB k) ∧ s.keeps t [l.key, 0xE8090] ∧ t = { s.regsOf t with boot := t.boot, tmrA := t.tmrA, tmrB := t.tmrB, passed := t.passed }) ∧
  (∀ (s : State) (a : Addr) (v : Word), (s.spells (.bootWrite false a v)) → (s.quiet) → (s.fabricIdle) → (s.mode ≠ mRun) → (targetOf a.toNat = 7 ∨ targetOf a.toNat = 0 ∧ a.toNat % 4 ≠ 0) → Gives (.bootWrite false a v) s fun t => t.boot = BootSt.reset ∧ t.is R.BOOT_S_FAILED = true ∧ t.is R.BOOT_S_BUSY = false ∧ t.hasEvent eBOOT 1 = true ∧ t.get R.BOOT_RESULT_REASON = 5 ∧ t.get64 0xE8094 = a.toNat ∧ t.get R.BOOT_REC_INDEX_INDEX = s.get R.BOOT_REC_INDEX_INDEX ∧ t.mem = s.mem) ∧
  (∀ (s : State) (k : Bool) (a : Addr) (v : Word), (s.spells (.bootWrite k a v)) → (s.waiting = []) → (s.ring.rraHere = none) → (targetOf a.toNat = 2) → (a.toNat % 4 = 0) → (s.lockedOut 2) → (s.allowed 2 2 a.toNat 4 true) → (s.domOn 5) → Gives (.bootWrite k a v) s fun t => t.boot = { s.boot with rest := some (k, [.put a.toNat (leBytes 4 v.toNat)]) } ∧ s.keeps t [] ∧ t = { s.regsOf t with boot := t.boot }) ∧
  (∀ (s : State) (k : Bool) (a : Addr) (v : Word) (p : Nat × Nat), (s.spells (.bootWrite k a v)) → (s.waiting = []) → (s.ring.rraHere = none) → (targetOf a.toNat = 4) → (a.toNat % 4 = 0) → (s.allowed 2 4 a.toNat 4 true) → (s.domOn 13) → (s.dramMap a.toNat = some p) → (s.chanDo p.1 = .wait) → (!s.imageShut a.toNat) → Gives (.bootWrite k a v) s fun t => t.boot = { s.boot with rest := some (k, [.put a.toNat (leBytes 4 v.toNat)]) } ∧ t.passed.contains 2 = (s.passed.contains 2 || s.portOpen (regPort 2)) ∧ (s.passed.contains 2 = true ∨ s.portOpen (regPort 2) = false → t.buckets = s.buckets) ∧ s.keeps t [] ∧ t = { s.regsOf t with boot := t.boot, passed := t.passed, buckets := t.buckets }) ∧
  (∀ (s : State) (k : Bool) (a : Addr) (q v w : Word) (l : Loc), (s.spells (.bootModify k a q v)) → (s.shows 2 a.toNat 4 l) → (!s.disagrees l) → (w = (s.w l.key &&& ~~~q) ||| (v &&& q)) → (s.stores 2 a.toNat l w) → (hidden 2 (some l) = 0) → (l.key ≠ 0xE8090) → Gives (.bootModify k a q v) s fun t => t.w l.key = mergeWrite (s.majW l.key) w l.spec 0 ∧ t.get R.BOOT_REC_INDEX_INDEX = s.get R.BOOT_REC_INDEX_INDEX + 1 ∧ t.boot = { s.boot with pos := s.boot.pos + leAt s.boot.image (s.boot.pos + 4) 4 } ∧ (l.spec.tmr ≠ 0 → tget zeroAt t.tmrA l.key = 0 ∧ tget zeroAt t.tmrB l.key = 0) ∧ (∀ k, k ≠ l.key ∨ l.spec.tmr = 0 → tget zeroAt t.tmrA k = tget zeroAt s.tmrA k ∧ tget zeroAt t.tmrB k = tget zeroAt s.tmrB k) ∧ s.keeps t [l.key, 0xE8090] ∧ t = { s.regsOf t with boot := t.boot, tmrA := t.tmrA, tmrB := t.tmrB, passed := t.passed }) ∧
  (∀ (s : State) (k : Bool) (a : Addr) (d : List Byte), (blockPieces d.length a.toNat d = [(a.toNat, d)]) → (s.spells (.bootLoad k a d)) → (s.servesSram 2 a.toNat d.length true) → (s.clean a.toNat d.length) → (plainArea a.toNat d.length) → (inboxSlot a.toNat d.length = none) → Gives (.bootLoad k a d) s fun t => t.mem = (s.putBytes a.toNat d).mem ∧ t.get R.BOOT_REC_INDEX_INDEX = s.get R.BOOT_REC_INDEX_INDEX + 1 ∧ t.boot = { s.boot with pos := s.boot.pos + leAt s.boot.image (s.boot.pos + 4) 4 } ∧ s.keeps t [0xA00AC, 0xA00B0, 0xE8090] ∧ t = { s.regsOf t with mem := t.mem, sramErr := t.sramErr, poison := t.poison, boot := t.boot, passed := t.passed }) ∧
  (∀ (s : State) (k : Bool) (a : Addr) (n : Nat) (v : Word), (s.spells (.bootFill k a n v)) → (n % 4 = 0) → (s.fabricIdle) → ((List.range (n / 4)).all fun i => s.servesSram 2 (a.toNat + 4 * i) 4 true && s.clean (a.toNat + 4 * i) 4 && plainArea (a.toNat + 4 * i) 4 && (inboxSlot (a.toNat + 4 * i) 4).isNone) → Gives (.bootFill k a n v) s fun t => ((List.range (n / 4)).all fun i => t.bytes (a.toNat + 4 * i) 4 == leBytes 4 v.toNat) ∧ (∀ x, x < a.toNat ∨ a.toNat + n ≤ x → t.byte x = s.byte x) ∧ t.get R.BOOT_REC_INDEX_INDEX = s.get R.BOOT_REC_INDEX_INDEX + 1 ∧ t.boot = { s.boot with pos := s.boot.pos + leAt s.boot.image (s.boot.pos + 4) 4 } ∧ s.keeps t [0xA00AC, 0xA00B0, 0xE8090] ∧ t = { s.regsOf t with mem := t.mem, sramErr := t.sramErr, poison := t.poison, boot := t.boot, passed := t.passed }) ∧
  (∀ (s : State) (k : Bool) (a : Addr) (q v x : Word) (l : Loc), (s.spells (.bootPoll k a q v x)) → (s.shows 2 a.toNat 4 l) → (!s.disagrees l) → Gives (.bootPoll k a q v x) s fun t => (s.w l.key &&& q = v → t.boot.pos = s.boot.pos + leAt s.boot.image (s.boot.pos + 4) 4 ∧ t.boot.poll = none ∧ t.get R.BOOT_REC_INDEX_INDEX = s.get R.BOOT_REC_INDEX_INDEX + 1) ∧ (s.w l.key &&& q ≠ v → t.boot = { s.boot with poll := some (a.toNat, q.toNat, v.toNat), pollCont := k } ∧ t.get R.BOOT_REC_INDEX_INDEX = s.get R.BOOT_REC_INDEX_INDEX) ∧ s.keeps t [0xE8090] ∧ t = { s.regsOf t with boot := t.boot, passed := t.passed }) ∧
  (∀ (s : State) (a : Addr) (q v : Word) (l : Loc), (s.quiet) → (s.boot.poll = some (a.toNat, q.toNat, v.toNat)) → (s.shows 2 a.toNat 4 l) → (!s.disagrees l) → (s.w l.key &&& q ≠ v) → (s.mode ≠ mRun) → Gives (.pollTimeout) s fun t => t.boot = BootSt.reset ∧ t.is R.BOOT_S_FAILED = true ∧ t.is R.BOOT_S_BUSY = false ∧ t.hasEvent eBOOT 1 = true ∧ t.get R.BOOT_RESULT_REASON = 6 ∧ t.get64 0xE8094 = a.toNat ∧ s.keeps t [0xE800C, 0xE808C, 0xE8094, 0xE8098, evKey eBOOT] ∧ t = { s.regsOf t with boot := t.boot, passed := t.passed }) ∧
  (∀ (s : State) (u : Word), (s.spells (.bootDelay u)) → (s.fabricIdle) → Gives (.bootDelay u) s fun t => t.get R.BOOT_REC_INDEX_INDEX = s.get R.BOOT_REC_INDEX_INDEX + 1 ∧ t.boot = { s.boot with pos := s.boot.pos + leAt s.boot.image (s.boot.pos + 4) 4 } ∧ s.keeps t [0xE8090] ∧ t = { s.regsOf t with boot := t.boot }) ∧
  (∀ (s : State) (u : Word), (s.boot.poll = none) → (s.get R.BOOT_RESULT_SOURCE ≠ 2) → (!s.spells (.bootDelay u)) → (!s.boot.abort) → Gives (.bootDelay u) s fun t => s.keeps t [] ∧ t = s.regsOf t) ∧
  (∀ (s : State) (g : BitVec 8), (s.spells (.bootMode g)) → (s.fabricIdle) → (s.modeReason g.toNat = 0) → Gives (.bootMode g) s fun t => t.boot = { s.boot with modeWait := true } ∧ t.pwr.trans = some (s.mode, g.toNat, false) ∧ t.is R.PWR_S_BUSY = true) ∧
  (∀ (s : State) (g : BitVec 8), (s.spells (.bootMode g)) → (s.quiet) → (s.fabricIdle) → (s.mode ≠ mRun) → (s.modeReason g.toNat ≠ 0) → Gives (.bootMode g) s fun t => t.boot = BootSt.reset ∧ t.is R.BOOT_S_FAILED = true ∧ t.is R.BOOT_S_BUSY = false ∧ t.hasEvent eBOOT 1 = true ∧ t.get R.BOOT_RESULT_REASON = 7 ∧ t.get R.PWR_MODE_RESULT_REASON = s.modeReason g.toNat ∧ t.get R.PWR_MODE_RESULT_TO = g.toNat % 8 ∧ t.hasEvent ePWR 1 = true ∧ s.keeps t [0xE800C, 0xE808C, 0xE8094, 0xE8098, evKey eBOOT, 0x1084, evKey ePWR] ∧ t = { s.regsOf t with boot := t.boot }) ∧
  (∀ (s : State) (b d : List Byte), (s.quiet) → (s.is R.BOOT_S_EXECUTING) → (s.recIdle) → (s.get R.BOOT_REC_INDEX_INDEX + 1 = s.bootRecs) → (s.bootReread b = (some (.ok d), s)) → (crc64 (d.take (s.get R.BOOT_IMG_LEN_LEN - 8)) = leAt s.boot.image (s.get R.BOOT_IMG_LEN_LEN - 8) 8) → Gives (.bootEnd b) s fun t => t.boot = BootSt.reset ∧ t.is R.BOOT_S_DONE = true ∧ t.is R.BOOT_S_BUSY = false ∧ t.hasEvent eBOOT 0 = true ∧ s.keeps t [0xE800C, evKey eBOOT] ∧ t = { s.regsOf t with boot := t.boot }) ∧
  (∀ (s : State) (b d : List Byte), (s.quiet) → (s.mode ≠ mRun) → (s.is R.BOOT_S_EXECUTING) → (s.recIdle) → (s.get R.BOOT_REC_INDEX_INDEX + 1 = s.bootRecs) → (s.bootReread b = (some (.ok d), s)) → (crc64 (d.take (s.get R.BOOT_IMG_LEN_LEN - 8)) ≠ leAt s.boot.image (s.get R.BOOT_IMG_LEN_LEN - 8) 8) → Gives (.bootEnd b) s fun t => t.boot = BootSt.reset ∧ t.is R.BOOT_S_FAILED = true ∧ t.is R.BOOT_S_BUSY = false ∧ t.hasEvent eBOOT 1 = true ∧ t.get R.BOOT_RESULT_REASON = 10 ∧ s.keeps t [0xE800C, 0xE808C, 0xE8094, 0xE8098, evKey eBOOT] ∧ t = { s.regsOf t with boot := t.boot }) ∧
  (∀ (s : State) (b : List Byte), (s.quiet) → (s.mode ≠ mRun) → (s.is R.BOOT_S_EXECUTING) → (s.recIdle) → (s.get R.BOOT_REC_INDEX_INDEX + 1 = s.bootRecs) → (s.get R.BOOT_RESULT_SOURCE = 1) → (b.length < s.get R.BOOT_IMG_LEN_LEN) → Gives (.bootEnd b) s fun t => t.boot = BootSt.reset ∧ t.is R.BOOT_S_FAILED = true ∧ t.is R.BOOT_S_BUSY = false ∧ t.hasEvent eBOOT 1 = true ∧ t.get R.BOOT_RESULT_REASON = 8 ∧ t.get64 0xE8094 = (s.get64 0xE8080 + b.length) % 2 ^ 40 ∧ s.keeps t [0xE800C, 0xE808C, 0xE8094, 0xE8098, evKey eBOOT] ∧ t = { s.regsOf t with boot := t.boot })

/-- Right after reset the queue is empty, the device is in STANDBY with the always-on domains, the HSI is 0, the memory is canonical and lists nothing, and the interrupt invariant holds. Where the manual is silent it rests on the model's own choice or reading: log entries 3, 6 and 7. -/
def Obligations.ResetState : Prop :=
  State.reset.pending = [] ∧ State.reset.mode = mStandby ∧ State.reset.get R.PWR_DOM_ON_ON = 3 ∧ State.reset.hsi = 0 ∧
  State.reset.mem = [] ∧ Memory.wf State.reset.mem ∧ State.reset.Inv

/-- In every state in which EVT has seen each vector as it is and no message of an inactive vector is pending, a step of any command leaves a state of which the same is true. -/
def Obligations.StepKeepsTheInterruptInvariant : Prop :=
  ∀ s t : State, s.Inv → step s = .next t → t.Inv

/-- In every state whose memory lists its bytes at strictly rising addresses and none that reads as an unlisted byte does, a step of any command, and a step on an empty queue, leaves memory in that form. The form, and that an unlisted byte reads as 0, are the model's choice. Where the manual is silent it rests on the model's own choice or reading: log entry 7. -/
def Obligations.StepKeepsTheMemoryCanonical : Prop :=
  ∀ s t : State, Memory.wf s.mem → step s = .next t → Memory.wf t.mem

/-- No command faults and none is refused, in any state. Where the manual is silent it rests on the model's own choice or reading: log entries 2, 12 and 13. -/
def Obligations.EveryCommandAnswers : Prop :=
  ∀ (c : Instr) (s : State), ∃ t, exec c s = .next t

/-- The word of every insert-engine instruction of an engine, with every operand at every value, decodes to that instruction. -/
def Obligations.IeWordsRoundTrip : Prop :=
  ∀ (i : Instr) (w : Word), encodeIe i = some w → ∃ e, decodeIe e w = some i

/-- A few words written out from R327 and R328 decode to their instructions, and a word with a reserved opcode to none. -/
def Obligations.IeWordsDecode : Prop :=
  decodeIe 0 0x42A44000#32 = some (.ieAdd 0 true 5 2 2) ∧ decodeIe 1 0x0840004D#32 = some (.ieBr 1 1 77) ∧
  decodeIe 2 0x98800005#32 = some (.ieLdi 2 4 5) ∧ decodeIe 3 0xFC000000#32 = none
end

