-- ==== Sys2Proof/Laws/State.lean ====
section
/-! SUPPORT. Each field under each update of the state: the updates that write one word, one byte, one answer or one output leave
every other field as it is. Derived updates (putB, addW, orW and the like) rewrite to setW or put. -/

namespace Sys2Proof.Machine

/-! Updates that are a setW or a put. -/

@[simp] theorem State.setN_eq (s : State) (k v : Nat) : s.setN k v = s.setW k (w32 v) := rfl
@[simp] theorem State.putB_eq (s : State) (f : Fld) (b : Bool) : s.putB f b = s.put f (b2n b) := rfl
@[simp] theorem State.putI_eq (s : State) (f : Fld) (v : Int) : s.putI f v = s.put f (satTz (f.hi + 1 - f.lo) v) := rfl
@[simp] theorem State.addW_eq (s : State) (f : Fld) (n : Nat) : s.addW f n = s.put f (s.get f + n) := rfl
@[simp] theorem State.orW_eq (s : State) (k mask : Nat) : s.orW k mask = s.setW k (w32 (s.n k ||| mask)) := rfl
@[simp] theorem State.clrW_eq (s : State) (k mask : Nat) : s.clrW k mask = s.setW k (s.w k &&& ~~~ w32 mask) := rfl
theorem State.addS_eq (s : State) (f : Fld) (n : Nat) :
    s.addS f n = s.put f (min (s.get f + n) (2 ^ (f.hi + 1 - f.lo) - 1)) := rfl
theorem State.set64_eq (s : State) (lo v : Nat) : s.set64 lo v = (s.setW lo (w32 v)).setW (lo + 4) (w32 (v / 2 ^ 32)) := rfl

/-! Each field under each update. -/

@[simp] theorem State.setW_pending (s : State) (k : Nat) (v : Word) : (s.setW k v).pending = s.pending := rfl
@[simp] theorem State.setW_slot (s : State) (k : Nat) (v : Word) : (s.setW k v).slot = s.slot := rfl
@[simp] theorem State.setW_hsi (s : State) (k : Nat) (v : Word) : (s.setW k v).hsi = s.hsi := rfl
@[simp] theorem State.setW_cyc (s : State) (k : Nat) (v : Word) : (s.setW k v).cyc = s.cyc := rfl
@[simp] theorem State.setW_tmrA (s : State) (k : Nat) (v : Word) : (s.setW k v).tmrA = s.tmrA := rfl
@[simp] theorem State.setW_tmrB (s : State) (k : Nat) (v : Word) : (s.setW k v).tmrB = s.tmrB := rfl
@[simp] theorem State.setW_frozen (s : State) (k : Nat) (v : Word) : (s.setW k v).frozen = s.frozen := rfl
@[simp] theorem State.setW_pairs (s : State) (k : Nat) (v : Word) : (s.setW k v).pairs = s.pairs := rfl
@[simp] theorem State.setW_bus (s : State) (k : Nat) (v : Word) : (s.setW k v).bus = s.bus := rfl
@[simp] theorem State.setW_msix (s : State) (k : Nat) (v : Word) : (s.setW k v).msix = s.msix := rfl
@[simp] theorem State.setW_snapQ (s : State) (k : Nat) (v : Word) : (s.setW k v).snapQ = s.snapQ := rfl
@[simp] theorem State.setW_lastSnap (s : State) (k : Nat) (v : Word) : (s.setW k v).lastSnap = s.lastSnap := rfl
@[simp] theorem State.setW_matchArmed (s : State) (k : Nat) (v : Word) : (s.setW k v).matchArmed = s.matchArmed := rfl
@[simp] theorem State.setW_dump (s : State) (k : Nat) (v : Word) : (s.setW k v).dump = s.dump := rfl
@[simp] theorem State.setW_mem (s : State) (k : Nat) (v : Word) : (s.setW k v).mem = s.mem := rfl
@[simp] theorem State.setW_sramErr (s : State) (k : Nat) (v : Word) : (s.setW k v).sramErr = s.sramErr := rfl
@[simp] theorem State.setW_dramErr (s : State) (k : Nat) (v : Word) : (s.setW k v).dramErr = s.dramErr := rfl
@[simp] theorem State.setW_poison (s : State) (k : Nat) (v : Word) : (s.setW k v).poison = s.poison := rfl
@[simp] theorem State.setW_lock (s : State) (k : Nat) (v : Word) : (s.setW k v).lock = s.lock := rfl
@[simp] theorem State.setW_waiting (s : State) (k : Nat) (v : Word) : (s.setW k v).waiting = s.waiting := rfl
@[simp] theorem State.setW_passed (s : State) (k : Nat) (v : Word) : (s.setW k v).passed = s.passed := rfl
@[simp] theorem State.setW_reads (s : State) (k : Nat) (v : Word) : (s.setW k v).reads = s.reads := rfl
@[simp] theorem State.setW_buckets (s : State) (k : Nat) (v : Word) : (s.setW k v).buckets = s.buckets := rfl
@[simp] theorem State.setW_chans (s : State) (k : Nat) (v : Word) : (s.setW k v).chans = s.chans := rfl
@[simp] theorem State.setW_pllbFail (s : State) (k : Nat) (v : Word) : (s.setW k v).pllbFail = s.pllbFail := rfl
@[simp] theorem State.setW_held (s : State) (k : Nat) (v : Word) : (s.setW k v).held = s.held := rfl
@[simp] theorem State.setW_time (s : State) (k : Nat) (v : Word) : (s.setW k v).time = s.time := rfl
@[simp] theorem State.setW_clk (s : State) (k : Nat) (v : Word) : (s.setW k v).clk = s.clk := rfl
@[simp] theorem State.setW_hostMem (s : State) (k : Nat) (v : Word) : (s.setW k v).hostMem = s.hostMem := rfl
@[simp] theorem State.setW_macs (s : State) (k : Nat) (v : Word) : (s.setW k v).macs = s.macs := rfl
@[simp] theorem State.setW_audio (s : State) (k : Nat) (v : Word) : (s.setW k v).audio = s.audio := rfl
@[simp] theorem State.setW_pads (s : State) (k : Nat) (v : Word) : (s.setW k v).pads = s.pads := rfl
@[simp] theorem State.setW_padHist (s : State) (k : Nat) (v : Word) : (s.setW k v).padHist = s.padHist := rfl
@[simp] theorem State.setW_padSlot (s : State) (k : Nat) (v : Word) : (s.setW k v).padSlot = s.padSlot := rfl
@[simp] theorem State.setW_rx (s : State) (k : Nat) (v : Word) : (s.setW k v).rx = s.rx := rfl
@[simp] theorem State.setW_rxCut (s : State) (k : Nat) (v : Word) : (s.setW k v).rxCut = s.rxCut := rfl
@[simp] theorem State.setW_dc (s : State) (k : Nat) (v : Word) : (s.setW k v).dc = s.dc := rfl
@[simp] theorem State.setW_dcClr (s : State) (k : Nat) (v : Word) : (s.setW k v).dcClr = s.dcClr := rfl
@[simp] theorem State.setW_icbN (s : State) (k : Nat) (v : Word) : (s.setW k v).icbN = s.icbN := rfl
@[simp] theorem State.setW_firFrom (s : State) (k : Nat) (v : Word) : (s.setW k v).firFrom = s.firFrom := rfl
@[simp] theorem State.setW_firXf (s : State) (k : Nat) (v : Word) : (s.setW k v).firXf = s.firXf := rfl
@[simp] theorem State.setW_tx (s : State) (k : Nat) (v : Word) : (s.setW k v).tx = s.tx := rfl
@[simp] theorem State.setW_gateNext (s : State) (k : Nat) (v : Word) : (s.setW k v).gateNext = s.gateNext := rfl
@[simp] theorem State.setW_txZero (s : State) (k : Nat) (v : Word) : (s.setW k v).txZero = s.txZero := rfl
@[simp] theorem State.setW_stages (s : State) (k : Nat) (v : Word) : (s.setW k v).stages = s.stages := rfl
@[simp] theorem State.setW_sendCut (s : State) (k : Nat) (v : Word) : (s.setW k v).sendCut = s.sendCut := rfl
@[simp] theorem State.setW_exchCut (s : State) (k : Nat) (v : Word) : (s.setW k v).exchCut = s.exchCut := rfl
@[simp] theorem State.setW_objs (s : State) (k : Nat) (v : Word) : (s.setW k v).objs = s.objs := rfl
@[simp] theorem State.setW_knots (s : State) (k : Nat) (v : Word) : (s.setW k v).knots = s.knots := rfl
@[simp] theorem State.setW_frozenTo (s : State) (k : Nat) (v : Word) : (s.setW k v).frozenTo = s.frozenTo := rfl
@[simp] theorem State.setW_lineHist (s : State) (k : Nat) (v : Word) : (s.setW k v).lineHist = s.lineHist := rfl
@[simp] theorem State.setW_objMoved (s : State) (k : Nat) (v : Word) : (s.setW k v).objMoved = s.objMoved := rfl
@[simp] theorem State.setW_objEras (s : State) (k : Nat) (v : Word) : (s.setW k v).objEras = s.objEras := rfl
@[simp] theorem State.setW_swapSlot (s : State) (k : Nat) (v : Word) : (s.setW k v).swapSlot = s.swapSlot := rfl
@[simp] theorem State.setW_lineFrom (s : State) (k : Nat) (v : Word) : (s.setW k v).lineFrom = s.lineFrom := rfl
@[simp] theorem State.setW_pfSt (s : State) (k : Nat) (v : Word) : (s.setW k v).pfSt = s.pfSt := rfl
@[simp] theorem State.setW_airW (s : State) (k : Nat) (v : Word) : (s.setW k v).airW = s.airW := rfl
@[simp] theorem State.setW_airR (s : State) (k : Nat) (v : Word) : (s.setW k v).airR = s.airR := rfl
@[simp] theorem State.setW_partials (s : State) (k : Nat) (v : Word) : (s.setW k v).partials = s.partials := rfl
@[simp] theorem State.setW_mix (s : State) (k : Nat) (v : Word) : (s.setW k v).mix = s.mix := rfl
@[simp] theorem State.setW_outs (s : State) (k : Nat) (v : Word) : (s.setW k v).outs = s.outs := rfl
@[simp] theorem State.setW_conv (s : State) (k : Nat) (v : Word) : (s.setW k v).conv = s.conv := rfl
@[simp] theorem State.setW_ies (s : State) (k : Nat) (v : Word) : (s.setW k v).ies = s.ies := rfl
@[simp] theorem State.setW_press (s : State) (k : Nat) (v : Word) : (s.setW k v).press = s.press := rfl
@[simp] theorem State.setW_askRing (s : State) (k : Nat) (v : Word) : (s.setW k v).askRing = s.askRing := rfl
@[simp] theorem State.setW_vote (s : State) (k : Nat) (v : Word) : (s.setW k v).vote = s.vote := rfl
@[simp] theorem State.setW_verdict (s : State) (k : Nat) (v : Word) : (s.setW k v).verdict = s.verdict := rfl
@[simp] theorem State.setW_fwdTerm (s : State) (k : Nat) (v : Word) : (s.setW k v).fwdTerm = s.fwdTerm := rfl
@[simp] theorem State.setW_fwdTermAct (s : State) (k : Nat) (v : Word) : (s.setW k v).fwdTermAct = s.fwdTermAct := rfl
@[simp] theorem State.setW_ring (s : State) (k : Nat) (v : Word) : (s.setW k v).ring = s.ring := rfl
@[simp] theorem State.setW_red (s : State) (k : Nat) (v : Word) : (s.setW k v).red = s.red := rfl
@[simp] theorem State.setW_pwr (s : State) (k : Nat) (v : Word) : (s.setW k v).pwr = s.pwr := rfl
@[simp] theorem State.setW_boot (s : State) (k : Nat) (v : Word) : (s.setW k v).boot = s.boot := rfl
@[simp] theorem State.setW_tap (s : State) (k : Nat) (v : Word) : (s.setW k v).tap = s.tap := rfl
@[simp] theorem State.setW_freeCtr (s : State) (k : Nat) (v : Word) : (s.setW k v).freeCtr = s.freeCtr := rfl
@[simp] theorem State.setW_out (s : State) (k : Nat) (v : Word) : (s.setW k v).out = s.out := rfl

@[simp] theorem State.put_pending (s : State) (f : Fld) (v : Nat) : (s.put f v).pending = s.pending := rfl
@[simp] theorem State.put_slot (s : State) (f : Fld) (v : Nat) : (s.put f v).slot = s.slot := rfl
@[simp] theorem State.put_hsi (s : State) (f : Fld) (v : Nat) : (s.put f v).hsi = s.hsi := rfl
@[simp] theorem State.put_cyc (s : State) (f : Fld) (v : Nat) : (s.put f v).cyc = s.cyc := rfl
@[simp] theorem State.put_tmrA (s : State) (f : Fld) (v : Nat) : (s.put f v).tmrA = s.tmrA := rfl
@[simp] theorem State.put_tmrB (s : State) (f : Fld) (v : Nat) : (s.put f v).tmrB = s.tmrB := rfl
@[simp] theorem State.put_frozen (s : State) (f : Fld) (v : Nat) : (s.put f v).frozen = s.frozen := rfl
@[simp] theorem State.put_pairs (s : State) (f : Fld) (v : Nat) : (s.put f v).pairs = s.pairs := rfl
@[simp] theorem State.put_bus (s : State) (f : Fld) (v : Nat) : (s.put f v).bus = s.bus := rfl
@[simp] theorem State.put_msix (s : State) (f : Fld) (v : Nat) : (s.put f v).msix = s.msix := rfl
@[simp] theorem State.put_snapQ (s : State) (f : Fld) (v : Nat) : (s.put f v).snapQ = s.snapQ := rfl
@[simp] theorem State.put_lastSnap (s : State) (f : Fld) (v : Nat) : (s.put f v).lastSnap = s.lastSnap := rfl
@[simp] theorem State.put_matchArmed (s : State) (f : Fld) (v : Nat) : (s.put f v).matchArmed = s.matchArmed := rfl
@[simp] theorem State.put_dump (s : State) (f : Fld) (v : Nat) : (s.put f v).dump = s.dump := rfl
@[simp] theorem State.put_mem (s : State) (f : Fld) (v : Nat) : (s.put f v).mem = s.mem := rfl
@[simp] theorem State.put_sramErr (s : State) (f : Fld) (v : Nat) : (s.put f v).sramErr = s.sramErr := rfl
@[simp] theorem State.put_dramErr (s : State) (f : Fld) (v : Nat) : (s.put f v).dramErr = s.dramErr := rfl
@[simp] theorem State.put_poison (s : State) (f : Fld) (v : Nat) : (s.put f v).poison = s.poison := rfl
@[simp] theorem State.put_lock (s : State) (f : Fld) (v : Nat) : (s.put f v).lock = s.lock := rfl
@[simp] theorem State.put_waiting (s : State) (f : Fld) (v : Nat) : (s.put f v).waiting = s.waiting := rfl
@[simp] theorem State.put_passed (s : State) (f : Fld) (v : Nat) : (s.put f v).passed = s.passed := rfl
@[simp] theorem State.put_reads (s : State) (f : Fld) (v : Nat) : (s.put f v).reads = s.reads := rfl
@[simp] theorem State.put_buckets (s : State) (f : Fld) (v : Nat) : (s.put f v).buckets = s.buckets := rfl
@[simp] theorem State.put_chans (s : State) (f : Fld) (v : Nat) : (s.put f v).chans = s.chans := rfl
@[simp] theorem State.put_pllbFail (s : State) (f : Fld) (v : Nat) : (s.put f v).pllbFail = s.pllbFail := rfl
@[simp] theorem State.put_held (s : State) (f : Fld) (v : Nat) : (s.put f v).held = s.held := rfl
@[simp] theorem State.put_time (s : State) (f : Fld) (v : Nat) : (s.put f v).time = s.time := rfl
@[simp] theorem State.put_clk (s : State) (f : Fld) (v : Nat) : (s.put f v).clk = s.clk := rfl
@[simp] theorem State.put_hostMem (s : State) (f : Fld) (v : Nat) : (s.put f v).hostMem = s.hostMem := rfl
@[simp] theorem State.put_macs (s : State) (f : Fld) (v : Nat) : (s.put f v).macs = s.macs := rfl
@[simp] theorem State.put_audio (s : State) (f : Fld) (v : Nat) : (s.put f v).audio = s.audio := rfl
@[simp] theorem State.put_pads (s : State) (f : Fld) (v : Nat) : (s.put f v).pads = s.pads := rfl
@[simp] theorem State.put_padHist (s : State) (f : Fld) (v : Nat) : (s.put f v).padHist = s.padHist := rfl
@[simp] theorem State.put_padSlot (s : State) (f : Fld) (v : Nat) : (s.put f v).padSlot = s.padSlot := rfl
@[simp] theorem State.put_rx (s : State) (f : Fld) (v : Nat) : (s.put f v).rx = s.rx := rfl
@[simp] theorem State.put_rxCut (s : State) (f : Fld) (v : Nat) : (s.put f v).rxCut = s.rxCut := rfl
@[simp] theorem State.put_dc (s : State) (f : Fld) (v : Nat) : (s.put f v).dc = s.dc := rfl
@[simp] theorem State.put_dcClr (s : State) (f : Fld) (v : Nat) : (s.put f v).dcClr = s.dcClr := rfl
@[simp] theorem State.put_icbN (s : State) (f : Fld) (v : Nat) : (s.put f v).icbN = s.icbN := rfl
@[simp] theorem State.put_firFrom (s : State) (f : Fld) (v : Nat) : (s.put f v).firFrom = s.firFrom := rfl
@[simp] theorem State.put_firXf (s : State) (f : Fld) (v : Nat) : (s.put f v).firXf = s.firXf := rfl
@[simp] theorem State.put_tx (s : State) (f : Fld) (v : Nat) : (s.put f v).tx = s.tx := rfl
@[simp] theorem State.put_gateNext (s : State) (f : Fld) (v : Nat) : (s.put f v).gateNext = s.gateNext := rfl
@[simp] theorem State.put_txZero (s : State) (f : Fld) (v : Nat) : (s.put f v).txZero = s.txZero := rfl
@[simp] theorem State.put_stages (s : State) (f : Fld) (v : Nat) : (s.put f v).stages = s.stages := rfl
@[simp] theorem State.put_sendCut (s : State) (f : Fld) (v : Nat) : (s.put f v).sendCut = s.sendCut := rfl
@[simp] theorem State.put_exchCut (s : State) (f : Fld) (v : Nat) : (s.put f v).exchCut = s.exchCut := rfl
@[simp] theorem State.put_objs (s : State) (f : Fld) (v : Nat) : (s.put f v).objs = s.objs := rfl
@[simp] theorem State.put_knots (s : State) (f : Fld) (v : Nat) : (s.put f v).knots = s.knots := rfl
@[simp] theorem State.put_frozenTo (s : State) (f : Fld) (v : Nat) : (s.put f v).frozenTo = s.frozenTo := rfl
@[simp] theorem State.put_lineHist (s : State) (f : Fld) (v : Nat) : (s.put f v).lineHist = s.lineHist := rfl
@[simp] theorem State.put_objMoved (s : State) (f : Fld) (v : Nat) : (s.put f v).objMoved = s.objMoved := rfl
@[simp] theorem State.put_objEras (s : State) (f : Fld) (v : Nat) : (s.put f v).objEras = s.objEras := rfl
@[simp] theorem State.put_swapSlot (s : State) (f : Fld) (v : Nat) : (s.put f v).swapSlot = s.swapSlot := rfl
@[simp] theorem State.put_lineFrom (s : State) (f : Fld) (v : Nat) : (s.put f v).lineFrom = s.lineFrom := rfl
@[simp] theorem State.put_pfSt (s : State) (f : Fld) (v : Nat) : (s.put f v).pfSt = s.pfSt := rfl
@[simp] theorem State.put_airW (s : State) (f : Fld) (v : Nat) : (s.put f v).airW = s.airW := rfl
@[simp] theorem State.put_airR (s : State) (f : Fld) (v : Nat) : (s.put f v).airR = s.airR := rfl
@[simp] theorem State.put_partials (s : State) (f : Fld) (v : Nat) : (s.put f v).partials = s.partials := rfl
@[simp] theorem State.put_mix (s : State) (f : Fld) (v : Nat) : (s.put f v).mix = s.mix := rfl
@[simp] theorem State.put_outs (s : State) (f : Fld) (v : Nat) : (s.put f v).outs = s.outs := rfl
@[simp] theorem State.put_conv (s : State) (f : Fld) (v : Nat) : (s.put f v).conv = s.conv := rfl
@[simp] theorem State.put_ies (s : State) (f : Fld) (v : Nat) : (s.put f v).ies = s.ies := rfl
@[simp] theorem State.put_press (s : State) (f : Fld) (v : Nat) : (s.put f v).press = s.press := rfl
@[simp] theorem State.put_askRing (s : State) (f : Fld) (v : Nat) : (s.put f v).askRing = s.askRing := rfl
@[simp] theorem State.put_vote (s : State) (f : Fld) (v : Nat) : (s.put f v).vote = s.vote := rfl
@[simp] theorem State.put_verdict (s : State) (f : Fld) (v : Nat) : (s.put f v).verdict = s.verdict := rfl
@[simp] theorem State.put_fwdTerm (s : State) (f : Fld) (v : Nat) : (s.put f v).fwdTerm = s.fwdTerm := rfl
@[simp] theorem State.put_fwdTermAct (s : State) (f : Fld) (v : Nat) : (s.put f v).fwdTermAct = s.fwdTermAct := rfl
@[simp] theorem State.put_ring (s : State) (f : Fld) (v : Nat) : (s.put f v).ring = s.ring := rfl
@[simp] theorem State.put_red (s : State) (f : Fld) (v : Nat) : (s.put f v).red = s.red := rfl
@[simp] theorem State.put_pwr (s : State) (f : Fld) (v : Nat) : (s.put f v).pwr = s.pwr := rfl
@[simp] theorem State.put_boot (s : State) (f : Fld) (v : Nat) : (s.put f v).boot = s.boot := rfl
@[simp] theorem State.put_tap (s : State) (f : Fld) (v : Nat) : (s.put f v).tap = s.tap := rfl
@[simp] theorem State.put_freeCtr (s : State) (f : Fld) (v : Nat) : (s.put f v).freeCtr = s.freeCtr := rfl
@[simp] theorem State.put_out (s : State) (f : Fld) (v : Nat) : (s.put f v).out = s.out := rfl

@[simp] theorem State.setByte_pending (s : State) (a : Nat) (b : Byte) : (s.setByte a b).pending = s.pending := rfl
@[simp] theorem State.setByte_slot (s : State) (a : Nat) (b : Byte) : (s.setByte a b).slot = s.slot := rfl
@[simp] theorem State.setByte_hsi (s : State) (a : Nat) (b : Byte) : (s.setByte a b).hsi = s.hsi := rfl
@[simp] theorem State.setByte_cyc (s : State) (a : Nat) (b : Byte) : (s.setByte a b).cyc = s.cyc := rfl
@[simp] theorem State.setByte_words (s : State) (a : Nat) (b : Byte) : (s.setByte a b).words = s.words := rfl
@[simp] theorem State.setByte_tmrA (s : State) (a : Nat) (b : Byte) : (s.setByte a b).tmrA = s.tmrA := rfl
@[simp] theorem State.setByte_tmrB (s : State) (a : Nat) (b : Byte) : (s.setByte a b).tmrB = s.tmrB := rfl
@[simp] theorem State.setByte_frozen (s : State) (a : Nat) (b : Byte) : (s.setByte a b).frozen = s.frozen := rfl
@[simp] theorem State.setByte_pairs (s : State) (a : Nat) (b : Byte) : (s.setByte a b).pairs = s.pairs := rfl
@[simp] theorem State.setByte_bus (s : State) (a : Nat) (b : Byte) : (s.setByte a b).bus = s.bus := rfl
@[simp] theorem State.setByte_wmk (s : State) (a : Nat) (b : Byte) : (s.setByte a b).wmk = s.wmk := rfl
@[simp] theorem State.setByte_msix (s : State) (a : Nat) (b : Byte) : (s.setByte a b).msix = s.msix := rfl
@[simp] theorem State.setByte_snapQ (s : State) (a : Nat) (b : Byte) : (s.setByte a b).snapQ = s.snapQ := rfl
@[simp] theorem State.setByte_lastSnap (s : State) (a : Nat) (b : Byte) : (s.setByte a b).lastSnap = s.lastSnap := rfl
@[simp] theorem State.setByte_matchArmed (s : State) (a : Nat) (b : Byte) : (s.setByte a b).matchArmed = s.matchArmed := rfl
@[simp] theorem State.setByte_dump (s : State) (a : Nat) (b : Byte) : (s.setByte a b).dump = s.dump := rfl
@[simp] theorem State.setByte_sramErr (s : State) (a : Nat) (b : Byte) : (s.setByte a b).sramErr = s.sramErr := rfl
@[simp] theorem State.setByte_dramErr (s : State) (a : Nat) (b : Byte) : (s.setByte a b).dramErr = s.dramErr := rfl
@[simp] theorem State.setByte_poison (s : State) (a : Nat) (b : Byte) : (s.setByte a b).poison = s.poison := rfl
@[simp] theorem State.setByte_lock (s : State) (a : Nat) (b : Byte) : (s.setByte a b).lock = s.lock := rfl
@[simp] theorem State.setByte_waiting (s : State) (a : Nat) (b : Byte) : (s.setByte a b).waiting = s.waiting := rfl
@[simp] theorem State.setByte_passed (s : State) (a : Nat) (b : Byte) : (s.setByte a b).passed = s.passed := rfl
@[simp] theorem State.setByte_reads (s : State) (a : Nat) (b : Byte) : (s.setByte a b).reads = s.reads := rfl
@[simp] theorem State.setByte_buckets (s : State) (a : Nat) (b : Byte) : (s.setByte a b).buckets = s.buckets := rfl
@[simp] theorem State.setByte_chans (s : State) (a : Nat) (b : Byte) : (s.setByte a b).chans = s.chans := rfl
@[simp] theorem State.setByte_pllbFail (s : State) (a : Nat) (b : Byte) : (s.setByte a b).pllbFail = s.pllbFail := rfl
@[simp] theorem State.setByte_held (s : State) (a : Nat) (b : Byte) : (s.setByte a b).held = s.held := rfl
@[simp] theorem State.setByte_time (s : State) (a : Nat) (b : Byte) : (s.setByte a b).time = s.time := rfl
@[simp] theorem State.setByte_clk (s : State) (a : Nat) (b : Byte) : (s.setByte a b).clk = s.clk := rfl
@[simp] theorem State.setByte_hostMem (s : State) (a : Nat) (b : Byte) : (s.setByte a b).hostMem = s.hostMem := rfl
@[simp] theorem State.setByte_macs (s : State) (a : Nat) (b : Byte) : (s.setByte a b).macs = s.macs := rfl
@[simp] theorem State.setByte_audio (s : State) (a : Nat) (b : Byte) : (s.setByte a b).audio = s.audio := rfl
@[simp] theorem State.setByte_pads (s : State) (a : Nat) (b : Byte) : (s.setByte a b).pads = s.pads := rfl
@[simp] theorem State.setByte_padHist (s : State) (a : Nat) (b : Byte) : (s.setByte a b).padHist = s.padHist := rfl
@[simp] theorem State.setByte_padSlot (s : State) (a : Nat) (b : Byte) : (s.setByte a b).padSlot = s.padSlot := rfl
@[simp] theorem State.setByte_rx (s : State) (a : Nat) (b : Byte) : (s.setByte a b).rx = s.rx := rfl
@[simp] theorem State.setByte_rxCut (s : State) (a : Nat) (b : Byte) : (s.setByte a b).rxCut = s.rxCut := rfl
@[simp] theorem State.setByte_dc (s : State) (a : Nat) (b : Byte) : (s.setByte a b).dc = s.dc := rfl
@[simp] theorem State.setByte_dcClr (s : State) (a : Nat) (b : Byte) : (s.setByte a b).dcClr = s.dcClr := rfl
@[simp] theorem State.setByte_icbN (s : State) (a : Nat) (b : Byte) : (s.setByte a b).icbN = s.icbN := rfl
@[simp] theorem State.setByte_firFrom (s : State) (a : Nat) (b : Byte) : (s.setByte a b).firFrom = s.firFrom := rfl
@[simp] theorem State.setByte_firXf (s : State) (a : Nat) (b : Byte) : (s.setByte a b).firXf = s.firXf := rfl
@[simp] theorem State.setByte_tx (s : State) (a : Nat) (b : Byte) : (s.setByte a b).tx = s.tx := rfl
@[simp] theorem State.setByte_gateNext (s : State) (a : Nat) (b : Byte) : (s.setByte a b).gateNext = s.gateNext := rfl
@[simp] theorem State.setByte_txZero (s : State) (a : Nat) (b : Byte) : (s.setByte a b).txZero = s.txZero := rfl
@[simp] theorem State.setByte_stages (s : State) (a : Nat) (b : Byte) : (s.setByte a b).stages = s.stages := rfl
@[simp] theorem State.setByte_sendCut (s : State) (a : Nat) (b : Byte) : (s.setByte a b).sendCut = s.sendCut := rfl
@[simp] theorem State.setByte_exchCut (s : State) (a : Nat) (b : Byte) : (s.setByte a b).exchCut = s.exchCut := rfl
@[simp] theorem State.setByte_objs (s : State) (a : Nat) (b : Byte) : (s.setByte a b).objs = s.objs := rfl
@[simp] theorem State.setByte_knots (s : State) (a : Nat) (b : Byte) : (s.setByte a b).knots = s.knots := rfl
@[simp] theorem State.setByte_frozenTo (s : State) (a : Nat) (b : Byte) : (s.setByte a b).frozenTo = s.frozenTo := rfl
@[simp] theorem State.setByte_lineHist (s : State) (a : Nat) (b : Byte) : (s.setByte a b).lineHist = s.lineHist := rfl
@[simp] theorem State.setByte_objMoved (s : State) (a : Nat) (b : Byte) : (s.setByte a b).objMoved = s.objMoved := rfl
@[simp] theorem State.setByte_objEras (s : State) (a : Nat) (b : Byte) : (s.setByte a b).objEras = s.objEras := rfl
@[simp] theorem State.setByte_swapSlot (s : State) (a : Nat) (b : Byte) : (s.setByte a b).swapSlot = s.swapSlot := rfl
@[simp] theorem State.setByte_lineFrom (s : State) (a : Nat) (b : Byte) : (s.setByte a b).lineFrom = s.lineFrom := rfl
@[simp] theorem State.setByte_pfSt (s : State) (a : Nat) (b : Byte) : (s.setByte a b).pfSt = s.pfSt := rfl
@[simp] theorem State.setByte_airW (s : State) (a : Nat) (b : Byte) : (s.setByte a b).airW = s.airW := rfl
@[simp] theorem State.setByte_airR (s : State) (a : Nat) (b : Byte) : (s.setByte a b).airR = s.airR := rfl
@[simp] theorem State.setByte_partials (s : State) (a : Nat) (b : Byte) : (s.setByte a b).partials = s.partials := rfl
@[simp] theorem State.setByte_mix (s : State) (a : Nat) (b : Byte) : (s.setByte a b).mix = s.mix := rfl
@[simp] theorem State.setByte_outs (s : State) (a : Nat) (b : Byte) : (s.setByte a b).outs = s.outs := rfl
@[simp] theorem State.setByte_conv (s : State) (a : Nat) (b : Byte) : (s.setByte a b).conv = s.conv := rfl
@[simp] theorem State.setByte_ies (s : State) (a : Nat) (b : Byte) : (s.setByte a b).ies = s.ies := rfl
@[simp] theorem State.setByte_press (s : State) (a : Nat) (b : Byte) : (s.setByte a b).press = s.press := rfl
@[simp] theorem State.setByte_askRing (s : State) (a : Nat) (b : Byte) : (s.setByte a b).askRing = s.askRing := rfl
@[simp] theorem State.setByte_vote (s : State) (a : Nat) (b : Byte) : (s.setByte a b).vote = s.vote := rfl
@[simp] theorem State.setByte_verdict (s : State) (a : Nat) (b : Byte) : (s.setByte a b).verdict = s.verdict := rfl
@[simp] theorem State.setByte_fwdTerm (s : State) (a : Nat) (b : Byte) : (s.setByte a b).fwdTerm = s.fwdTerm := rfl
@[simp] theorem State.setByte_fwdTermAct (s : State) (a : Nat) (b : Byte) : (s.setByte a b).fwdTermAct = s.fwdTermAct := rfl
@[simp] theorem State.setByte_ring (s : State) (a : Nat) (b : Byte) : (s.setByte a b).ring = s.ring := rfl
@[simp] theorem State.setByte_red (s : State) (a : Nat) (b : Byte) : (s.setByte a b).red = s.red := rfl
@[simp] theorem State.setByte_pwr (s : State) (a : Nat) (b : Byte) : (s.setByte a b).pwr = s.pwr := rfl
@[simp] theorem State.setByte_boot (s : State) (a : Nat) (b : Byte) : (s.setByte a b).boot = s.boot := rfl
@[simp] theorem State.setByte_tap (s : State) (a : Nat) (b : Byte) : (s.setByte a b).tap = s.tap := rfl
@[simp] theorem State.setByte_freeCtr (s : State) (a : Nat) (b : Byte) : (s.setByte a b).freeCtr = s.freeCtr := rfl
@[simp] theorem State.setByte_out (s : State) (a : Nat) (b : Byte) : (s.setByte a b).out = s.out := rfl

@[simp] theorem State.setSramErr_pending (s : State) (w e : Nat) : (s.setSramErr w e).pending = s.pending := rfl
@[simp] theorem State.setSramErr_slot (s : State) (w e : Nat) : (s.setSramErr w e).slot = s.slot := rfl
@[simp] theorem State.setSramErr_hsi (s : State) (w e : Nat) : (s.setSramErr w e).hsi = s.hsi := rfl
@[simp] theorem State.setSramErr_cyc (s : State) (w e : Nat) : (s.setSramErr w e).cyc = s.cyc := rfl
@[simp] theorem State.setSramErr_words (s : State) (w e : Nat) : (s.setSramErr w e).words = s.words := rfl
@[simp] theorem State.setSramErr_tmrA (s : State) (w e : Nat) : (s.setSramErr w e).tmrA = s.tmrA := rfl
@[simp] theorem State.setSramErr_tmrB (s : State) (w e : Nat) : (s.setSramErr w e).tmrB = s.tmrB := rfl
@[simp] theorem State.setSramErr_frozen (s : State) (w e : Nat) : (s.setSramErr w e).frozen = s.frozen := rfl
@[simp] theorem State.setSramErr_pairs (s : State) (w e : Nat) : (s.setSramErr w e).pairs = s.pairs := rfl
@[simp] theorem State.setSramErr_bus (s : State) (w e : Nat) : (s.setSramErr w e).bus = s.bus := rfl
@[simp] theorem State.setSramErr_wmk (s : State) (w e : Nat) : (s.setSramErr w e).wmk = s.wmk := rfl
@[simp] theorem State.setSramErr_msix (s : State) (w e : Nat) : (s.setSramErr w e).msix = s.msix := rfl
@[simp] theorem State.setSramErr_snapQ (s : State) (w e : Nat) : (s.setSramErr w e).snapQ = s.snapQ := rfl
@[simp] theorem State.setSramErr_lastSnap (s : State) (w e : Nat) : (s.setSramErr w e).lastSnap = s.lastSnap := rfl
@[simp] theorem State.setSramErr_matchArmed (s : State) (w e : Nat) : (s.setSramErr w e).matchArmed = s.matchArmed := rfl
@[simp] theorem State.setSramErr_dump (s : State) (w e : Nat) : (s.setSramErr w e).dump = s.dump := rfl
@[simp] theorem State.setSramErr_mem (s : State) (w e : Nat) : (s.setSramErr w e).mem = s.mem := rfl
@[simp] theorem State.setSramErr_dramErr (s : State) (w e : Nat) : (s.setSramErr w e).dramErr = s.dramErr := rfl
@[simp] theorem State.setSramErr_poison (s : State) (w e : Nat) : (s.setSramErr w e).poison = s.poison := rfl
@[simp] theorem State.setSramErr_lock (s : State) (w e : Nat) : (s.setSramErr w e).lock = s.lock := rfl
@[simp] theorem State.setSramErr_waiting (s : State) (w e : Nat) : (s.setSramErr w e).waiting = s.waiting := rfl
@[simp] theorem State.setSramErr_passed (s : State) (w e : Nat) : (s.setSramErr w e).passed = s.passed := rfl
@[simp] theorem State.setSramErr_reads (s : State) (w e : Nat) : (s.setSramErr w e).reads = s.reads := rfl
@[simp] theorem State.setSramErr_buckets (s : State) (w e : Nat) : (s.setSramErr w e).buckets = s.buckets := rfl
@[simp] theorem State.setSramErr_chans (s : State) (w e : Nat) : (s.setSramErr w e).chans = s.chans := rfl
@[simp] theorem State.setSramErr_pllbFail (s : State) (w e : Nat) : (s.setSramErr w e).pllbFail = s.pllbFail := rfl
@[simp] theorem State.setSramErr_held (s : State) (w e : Nat) : (s.setSramErr w e).held = s.held := rfl
@[simp] theorem State.setSramErr_time (s : State) (w e : Nat) : (s.setSramErr w e).time = s.time := rfl
@[simp] theorem State.setSramErr_clk (s : State) (w e : Nat) : (s.setSramErr w e).clk = s.clk := rfl
@[simp] theorem State.setSramErr_hostMem (s : State) (w e : Nat) : (s.setSramErr w e).hostMem = s.hostMem := rfl
@[simp] theorem State.setSramErr_macs (s : State) (w e : Nat) : (s.setSramErr w e).macs = s.macs := rfl
@[simp] theorem State.setSramErr_audio (s : State) (w e : Nat) : (s.setSramErr w e).audio = s.audio := rfl
@[simp] theorem State.setSramErr_pads (s : State) (w e : Nat) : (s.setSramErr w e).pads = s.pads := rfl
@[simp] theorem State.setSramErr_padHist (s : State) (w e : Nat) : (s.setSramErr w e).padHist = s.padHist := rfl
@[simp] theorem State.setSramErr_padSlot (s : State) (w e : Nat) : (s.setSramErr w e).padSlot = s.padSlot := rfl
@[simp] theorem State.setSramErr_rx (s : State) (w e : Nat) : (s.setSramErr w e).rx = s.rx := rfl
@[simp] theorem State.setSramErr_rxCut (s : State) (w e : Nat) : (s.setSramErr w e).rxCut = s.rxCut := rfl
@[simp] theorem State.setSramErr_dc (s : State) (w e : Nat) : (s.setSramErr w e).dc = s.dc := rfl
@[simp] theorem State.setSramErr_dcClr (s : State) (w e : Nat) : (s.setSramErr w e).dcClr = s.dcClr := rfl
@[simp] theorem State.setSramErr_icbN (s : State) (w e : Nat) : (s.setSramErr w e).icbN = s.icbN := rfl
@[simp] theorem State.setSramErr_firFrom (s : State) (w e : Nat) : (s.setSramErr w e).firFrom = s.firFrom := rfl
@[simp] theorem State.setSramErr_firXf (s : State) (w e : Nat) : (s.setSramErr w e).firXf = s.firXf := rfl
@[simp] theorem State.setSramErr_tx (s : State) (w e : Nat) : (s.setSramErr w e).tx = s.tx := rfl
@[simp] theorem State.setSramErr_gateNext (s : State) (w e : Nat) : (s.setSramErr w e).gateNext = s.gateNext := rfl
@[simp] theorem State.setSramErr_txZero (s : State) (w e : Nat) : (s.setSramErr w e).txZero = s.txZero := rfl
@[simp] theorem State.setSramErr_stages (s : State) (w e : Nat) : (s.setSramErr w e).stages = s.stages := rfl
@[simp] theorem State.setSramErr_sendCut (s : State) (w e : Nat) : (s.setSramErr w e).sendCut = s.sendCut := rfl
@[simp] theorem State.setSramErr_exchCut (s : State) (w e : Nat) : (s.setSramErr w e).exchCut = s.exchCut := rfl
@[simp] theorem State.setSramErr_objs (s : State) (w e : Nat) : (s.setSramErr w e).objs = s.objs := rfl
@[simp] theorem State.setSramErr_knots (s : State) (w e : Nat) : (s.setSramErr w e).knots = s.knots := rfl
@[simp] theorem State.setSramErr_frozenTo (s : State) (w e : Nat) : (s.setSramErr w e).frozenTo = s.frozenTo := rfl
@[simp] theorem State.setSramErr_lineHist (s : State) (w e : Nat) : (s.setSramErr w e).lineHist = s.lineHist := rfl
@[simp] theorem State.setSramErr_objMoved (s : State) (w e : Nat) : (s.setSramErr w e).objMoved = s.objMoved := rfl
@[simp] theorem State.setSramErr_objEras (s : State) (w e : Nat) : (s.setSramErr w e).objEras = s.objEras := rfl
@[simp] theorem State.setSramErr_swapSlot (s : State) (w e : Nat) : (s.setSramErr w e).swapSlot = s.swapSlot := rfl
@[simp] theorem State.setSramErr_lineFrom (s : State) (w e : Nat) : (s.setSramErr w e).lineFrom = s.lineFrom := rfl
@[simp] theorem State.setSramErr_pfSt (s : State) (w e : Nat) : (s.setSramErr w e).pfSt = s.pfSt := rfl
@[simp] theorem State.setSramErr_airW (s : State) (w e : Nat) : (s.setSramErr w e).airW = s.airW := rfl
@[simp] theorem State.setSramErr_airR (s : State) (w e : Nat) : (s.setSramErr w e).airR = s.airR := rfl
@[simp] theorem State.setSramErr_partials (s : State) (w e : Nat) : (s.setSramErr w e).partials = s.partials := rfl
@[simp] theorem State.setSramErr_mix (s : State) (w e : Nat) : (s.setSramErr w e).mix = s.mix := rfl
@[simp] theorem State.setSramErr_outs (s : State) (w e : Nat) : (s.setSramErr w e).outs = s.outs := rfl
@[simp] theorem State.setSramErr_conv (s : State) (w e : Nat) : (s.setSramErr w e).conv = s.conv := rfl
@[simp] theorem State.setSramErr_ies (s : State) (w e : Nat) : (s.setSramErr w e).ies = s.ies := rfl
@[simp] theorem State.setSramErr_press (s : State) (w e : Nat) : (s.setSramErr w e).press = s.press := rfl
@[simp] theorem State.setSramErr_askRing (s : State) (w e : Nat) : (s.setSramErr w e).askRing = s.askRing := rfl
@[simp] theorem State.setSramErr_vote (s : State) (w e : Nat) : (s.setSramErr w e).vote = s.vote := rfl
@[simp] theorem State.setSramErr_verdict (s : State) (w e : Nat) : (s.setSramErr w e).verdict = s.verdict := rfl
@[simp] theorem State.setSramErr_fwdTerm (s : State) (w e : Nat) : (s.setSramErr w e).fwdTerm = s.fwdTerm := rfl
@[simp] theorem State.setSramErr_fwdTermAct (s : State) (w e : Nat) : (s.setSramErr w e).fwdTermAct = s.fwdTermAct := rfl
@[simp] theorem State.setSramErr_ring (s : State) (w e : Nat) : (s.setSramErr w e).ring = s.ring := rfl
@[simp] theorem State.setSramErr_red (s : State) (w e : Nat) : (s.setSramErr w e).red = s.red := rfl
@[simp] theorem State.setSramErr_pwr (s : State) (w e : Nat) : (s.setSramErr w e).pwr = s.pwr := rfl
@[simp] theorem State.setSramErr_boot (s : State) (w e : Nat) : (s.setSramErr w e).boot = s.boot := rfl
@[simp] theorem State.setSramErr_tap (s : State) (w e : Nat) : (s.setSramErr w e).tap = s.tap := rfl
@[simp] theorem State.setSramErr_freeCtr (s : State) (w e : Nat) : (s.setSramErr w e).freeCtr = s.freeCtr := rfl
@[simp] theorem State.setSramErr_out (s : State) (w e : Nat) : (s.setSramErr w e).out = s.out := rfl

@[simp] theorem State.setDramErr_pending (s : State) (l e : Nat) : (s.setDramErr l e).pending = s.pending := rfl
@[simp] theorem State.setDramErr_slot (s : State) (l e : Nat) : (s.setDramErr l e).slot = s.slot := rfl
@[simp] theorem State.setDramErr_hsi (s : State) (l e : Nat) : (s.setDramErr l e).hsi = s.hsi := rfl
@[simp] theorem State.setDramErr_cyc (s : State) (l e : Nat) : (s.setDramErr l e).cyc = s.cyc := rfl
@[simp] theorem State.setDramErr_words (s : State) (l e : Nat) : (s.setDramErr l e).words = s.words := rfl
@[simp] theorem State.setDramErr_tmrA (s : State) (l e : Nat) : (s.setDramErr l e).tmrA = s.tmrA := rfl
@[simp] theorem State.setDramErr_tmrB (s : State) (l e : Nat) : (s.setDramErr l e).tmrB = s.tmrB := rfl
@[simp] theorem State.setDramErr_frozen (s : State) (l e : Nat) : (s.setDramErr l e).frozen = s.frozen := rfl
@[simp] theorem State.setDramErr_pairs (s : State) (l e : Nat) : (s.setDramErr l e).pairs = s.pairs := rfl
@[simp] theorem State.setDramErr_bus (s : State) (l e : Nat) : (s.setDramErr l e).bus = s.bus := rfl
@[simp] theorem State.setDramErr_wmk (s : State) (l e : Nat) : (s.setDramErr l e).wmk = s.wmk := rfl
@[simp] theorem State.setDramErr_msix (s : State) (l e : Nat) : (s.setDramErr l e).msix = s.msix := rfl
@[simp] theorem State.setDramErr_snapQ (s : State) (l e : Nat) : (s.setDramErr l e).snapQ = s.snapQ := rfl
@[simp] theorem State.setDramErr_lastSnap (s : State) (l e : Nat) : (s.setDramErr l e).lastSnap = s.lastSnap := rfl
@[simp] theorem State.setDramErr_matchArmed (s : State) (l e : Nat) : (s.setDramErr l e).matchArmed = s.matchArmed := rfl
@[simp] theorem State.setDramErr_dump (s : State) (l e : Nat) : (s.setDramErr l e).dump = s.dump := rfl
@[simp] theorem State.setDramErr_mem (s : State) (l e : Nat) : (s.setDramErr l e).mem = s.mem := rfl
@[simp] theorem State.setDramErr_sramErr (s : State) (l e : Nat) : (s.setDramErr l e).sramErr = s.sramErr := rfl
@[simp] theorem State.setDramErr_poison (s : State) (l e : Nat) : (s.setDramErr l e).poison = s.poison := rfl
@[simp] theorem State.setDramErr_lock (s : State) (l e : Nat) : (s.setDramErr l e).lock = s.lock := rfl
@[simp] theorem State.setDramErr_waiting (s : State) (l e : Nat) : (s.setDramErr l e).waiting = s.waiting := rfl
@[simp] theorem State.setDramErr_passed (s : State) (l e : Nat) : (s.setDramErr l e).passed = s.passed := rfl
@[simp] theorem State.setDramErr_reads (s : State) (l e : Nat) : (s.setDramErr l e).reads = s.reads := rfl
@[simp] theorem State.setDramErr_buckets (s : State) (l e : Nat) : (s.setDramErr l e).buckets = s.buckets := rfl
@[simp] theorem State.setDramErr_chans (s : State) (l e : Nat) : (s.setDramErr l e).chans = s.chans := rfl
@[simp] theorem State.setDramErr_pllbFail (s : State) (l e : Nat) : (s.setDramErr l e).pllbFail = s.pllbFail := rfl
@[simp] theorem State.setDramErr_held (s : State) (l e : Nat) : (s.setDramErr l e).held = s.held := rfl
@[simp] theorem State.setDramErr_time (s : State) (l e : Nat) : (s.setDramErr l e).time = s.time := rfl
@[simp] theorem State.setDramErr_clk (s : State) (l e : Nat) : (s.setDramErr l e).clk = s.clk := rfl
@[simp] theorem State.setDramErr_hostMem (s : State) (l e : Nat) : (s.setDramErr l e).hostMem = s.hostMem := rfl
@[simp] theorem State.setDramErr_macs (s : State) (l e : Nat) : (s.setDramErr l e).macs = s.macs := rfl
@[simp] theorem State.setDramErr_audio (s : State) (l e : Nat) : (s.setDramErr l e).audio = s.audio := rfl
@[simp] theorem State.setDramErr_pads (s : State) (l e : Nat) : (s.setDramErr l e).pads = s.pads := rfl
@[simp] theorem State.setDramErr_padHist (s : State) (l e : Nat) : (s.setDramErr l e).padHist = s.padHist := rfl
@[simp] theorem State.setDramErr_padSlot (s : State) (l e : Nat) : (s.setDramErr l e).padSlot = s.padSlot := rfl
@[simp] theorem State.setDramErr_rx (s : State) (l e : Nat) : (s.setDramErr l e).rx = s.rx := rfl
@[simp] theorem State.setDramErr_rxCut (s : State) (l e : Nat) : (s.setDramErr l e).rxCut = s.rxCut := rfl
@[simp] theorem State.setDramErr_dc (s : State) (l e : Nat) : (s.setDramErr l e).dc = s.dc := rfl
@[simp] theorem State.setDramErr_dcClr (s : State) (l e : Nat) : (s.setDramErr l e).dcClr = s.dcClr := rfl
@[simp] theorem State.setDramErr_icbN (s : State) (l e : Nat) : (s.setDramErr l e).icbN = s.icbN := rfl
@[simp] theorem State.setDramErr_firFrom (s : State) (l e : Nat) : (s.setDramErr l e).firFrom = s.firFrom := rfl
@[simp] theorem State.setDramErr_firXf (s : State) (l e : Nat) : (s.setDramErr l e).firXf = s.firXf := rfl
@[simp] theorem State.setDramErr_tx (s : State) (l e : Nat) : (s.setDramErr l e).tx = s.tx := rfl
@[simp] theorem State.setDramErr_gateNext (s : State) (l e : Nat) : (s.setDramErr l e).gateNext = s.gateNext := rfl
@[simp] theorem State.setDramErr_txZero (s : State) (l e : Nat) : (s.setDramErr l e).txZero = s.txZero := rfl
@[simp] theorem State.setDramErr_stages (s : State) (l e : Nat) : (s.setDramErr l e).stages = s.stages := rfl
@[simp] theorem State.setDramErr_sendCut (s : State) (l e : Nat) : (s.setDramErr l e).sendCut = s.sendCut := rfl
@[simp] theorem State.setDramErr_exchCut (s : State) (l e : Nat) : (s.setDramErr l e).exchCut = s.exchCut := rfl
@[simp] theorem State.setDramErr_objs (s : State) (l e : Nat) : (s.setDramErr l e).objs = s.objs := rfl
@[simp] theorem State.setDramErr_knots (s : State) (l e : Nat) : (s.setDramErr l e).knots = s.knots := rfl
@[simp] theorem State.setDramErr_frozenTo (s : State) (l e : Nat) : (s.setDramErr l e).frozenTo = s.frozenTo := rfl
@[simp] theorem State.setDramErr_lineHist (s : State) (l e : Nat) : (s.setDramErr l e).lineHist = s.lineHist := rfl
@[simp] theorem State.setDramErr_objMoved (s : State) (l e : Nat) : (s.setDramErr l e).objMoved = s.objMoved := rfl
@[simp] theorem State.setDramErr_objEras (s : State) (l e : Nat) : (s.setDramErr l e).objEras = s.objEras := rfl
@[simp] theorem State.setDramErr_swapSlot (s : State) (l e : Nat) : (s.setDramErr l e).swapSlot = s.swapSlot := rfl
@[simp] theorem State.setDramErr_lineFrom (s : State) (l e : Nat) : (s.setDramErr l e).lineFrom = s.lineFrom := rfl
@[simp] theorem State.setDramErr_pfSt (s : State) (l e : Nat) : (s.setDramErr l e).pfSt = s.pfSt := rfl
@[simp] theorem State.setDramErr_airW (s : State) (l e : Nat) : (s.setDramErr l e).airW = s.airW := rfl
@[simp] theorem State.setDramErr_airR (s : State) (l e : Nat) : (s.setDramErr l e).airR = s.airR := rfl
@[simp] theorem State.setDramErr_partials (s : State) (l e : Nat) : (s.setDramErr l e).partials = s.partials := rfl
@[simp] theorem State.setDramErr_mix (s : State) (l e : Nat) : (s.setDramErr l e).mix = s.mix := rfl
@[simp] theorem State.setDramErr_outs (s : State) (l e : Nat) : (s.setDramErr l e).outs = s.outs := rfl
@[simp] theorem State.setDramErr_conv (s : State) (l e : Nat) : (s.setDramErr l e).conv = s.conv := rfl
@[simp] theorem State.setDramErr_ies (s : State) (l e : Nat) : (s.setDramErr l e).ies = s.ies := rfl
@[simp] theorem State.setDramErr_press (s : State) (l e : Nat) : (s.setDramErr l e).press = s.press := rfl
@[simp] theorem State.setDramErr_askRing (s : State) (l e : Nat) : (s.setDramErr l e).askRing = s.askRing := rfl
@[simp] theorem State.setDramErr_vote (s : State) (l e : Nat) : (s.setDramErr l e).vote = s.vote := rfl
@[simp] theorem State.setDramErr_verdict (s : State) (l e : Nat) : (s.setDramErr l e).verdict = s.verdict := rfl
@[simp] theorem State.setDramErr_fwdTerm (s : State) (l e : Nat) : (s.setDramErr l e).fwdTerm = s.fwdTerm := rfl
@[simp] theorem State.setDramErr_fwdTermAct (s : State) (l e : Nat) : (s.setDramErr l e).fwdTermAct = s.fwdTermAct := rfl
@[simp] theorem State.setDramErr_ring (s : State) (l e : Nat) : (s.setDramErr l e).ring = s.ring := rfl
@[simp] theorem State.setDramErr_red (s : State) (l e : Nat) : (s.setDramErr l e).red = s.red := rfl
@[simp] theorem State.setDramErr_pwr (s : State) (l e : Nat) : (s.setDramErr l e).pwr = s.pwr := rfl
@[simp] theorem State.setDramErr_boot (s : State) (l e : Nat) : (s.setDramErr l e).boot = s.boot := rfl
@[simp] theorem State.setDramErr_tap (s : State) (l e : Nat) : (s.setDramErr l e).tap = s.tap := rfl
@[simp] theorem State.setDramErr_freeCtr (s : State) (l e : Nat) : (s.setDramErr l e).freeCtr = s.freeCtr := rfl
@[simp] theorem State.setDramErr_out (s : State) (l e : Nat) : (s.setDramErr l e).out = s.out := rfl

@[simp] theorem State.setPoison_pending (s : State) (w : Nat) (b : Bool) : (s.setPoison w b).pending = s.pending := rfl
@[simp] theorem State.setPoison_slot (s : State) (w : Nat) (b : Bool) : (s.setPoison w b).slot = s.slot := rfl
@[simp] theorem State.setPoison_hsi (s : State) (w : Nat) (b : Bool) : (s.setPoison w b).hsi = s.hsi := rfl
@[simp] theorem State.setPoison_cyc (s : State) (w : Nat) (b : Bool) : (s.setPoison w b).cyc = s.cyc := rfl
@[simp] theorem State.setPoison_words (s : State) (w : Nat) (b : Bool) : (s.setPoison w b).words = s.words := rfl
@[simp] theorem State.setPoison_tmrA (s : State) (w : Nat) (b : Bool) : (s.setPoison w b).tmrA = s.tmrA := rfl
@[simp] theorem State.setPoison_tmrB (s : State) (w : Nat) (b : Bool) : (s.setPoison w b).tmrB = s.tmrB := rfl
@[simp] theorem State.setPoison_frozen (s : State) (w : Nat) (b : Bool) : (s.setPoison w b).frozen = s.frozen := rfl
@[simp] theorem State.setPoison_pairs (s : State) (w : Nat) (b : Bool) : (s.setPoison w b).pairs = s.pairs := rfl
@[simp] theorem State.setPoison_bus (s : State) (w : Nat) (b : Bool) : (s.setPoison w b).bus = s.bus := rfl
@[simp] theorem State.setPoison_wmk (s : State) (w : Nat) (b : Bool) : (s.setPoison w b).wmk = s.wmk := rfl
@[simp] theorem State.setPoison_msix (s : State) (w : Nat) (b : Bool) : (s.setPoison w b).msix = s.msix := rfl
@[simp] theorem State.setPoison_snapQ (s : State) (w : Nat) (b : Bool) : (s.setPoison w b).snapQ = s.snapQ := rfl
@[simp] theorem State.setPoison_lastSnap (s : State) (w : Nat) (b : Bool) : (s.setPoison w b).lastSnap = s.lastSnap := rfl
@[simp] theorem State.setPoison_matchArmed (s : State) (w : Nat) (b : Bool) : (s.setPoison w b).matchArmed = s.matchArmed := rfl
@[simp] theorem State.setPoison_dump (s : State) (w : Nat) (b : Bool) : (s.setPoison w b).dump = s.dump := rfl
@[simp] theorem State.setPoison_mem (s : State) (w : Nat) (b : Bool) : (s.setPoison w b).mem = s.mem := rfl
@[simp] theorem State.setPoison_sramErr (s : State) (w : Nat) (b : Bool) : (s.setPoison w b).sramErr = s.sramErr := rfl
@[simp] theorem State.setPoison_dramErr (s : State) (w : Nat) (b : Bool) : (s.setPoison w b).dramErr = s.dramErr := rfl
@[simp] theorem State.setPoison_lock (s : State) (w : Nat) (b : Bool) : (s.setPoison w b).lock = s.lock := rfl
@[simp] theorem State.setPoison_waiting (s : State) (w : Nat) (b : Bool) : (s.setPoison w b).waiting = s.waiting := rfl
@[simp] theorem State.setPoison_passed (s : State) (w : Nat) (b : Bool) : (s.setPoison w b).passed = s.passed := rfl
@[simp] theorem State.setPoison_reads (s : State) (w : Nat) (b : Bool) : (s.setPoison w b).reads = s.reads := rfl
@[simp] theorem State.setPoison_buckets (s : State) (w : Nat) (b : Bool) : (s.setPoison w b).buckets = s.buckets := rfl
@[simp] theorem State.setPoison_chans (s : State) (w : Nat) (b : Bool) : (s.setPoison w b).chans = s.chans := rfl
@[simp] theorem State.setPoison_pllbFail (s : State) (w : Nat) (b : Bool) : (s.setPoison w b).pllbFail = s.pllbFail := rfl
@[simp] theorem State.setPoison_held (s : State) (w : Nat) (b : Bool) : (s.setPoison w b).held = s.held := rfl
@[simp] theorem State.setPoison_time (s : State) (w : Nat) (b : Bool) : (s.setPoison w b).time = s.time := rfl
@[simp] theorem State.setPoison_clk (s : State) (w : Nat) (b : Bool) : (s.setPoison w b).clk = s.clk := rfl
@[simp] theorem State.setPoison_hostMem (s : State) (w : Nat) (b : Bool) : (s.setPoison w b).hostMem = s.hostMem := rfl
@[simp] theorem State.setPoison_macs (s : State) (w : Nat) (b : Bool) : (s.setPoison w b).macs = s.macs := rfl
@[simp] theorem State.setPoison_audio (s : State) (w : Nat) (b : Bool) : (s.setPoison w b).audio = s.audio := rfl
@[simp] theorem State.setPoison_pads (s : State) (w : Nat) (b : Bool) : (s.setPoison w b).pads = s.pads := rfl
@[simp] theorem State.setPoison_padHist (s : State) (w : Nat) (b : Bool) : (s.setPoison w b).padHist = s.padHist := rfl
@[simp] theorem State.setPoison_padSlot (s : State) (w : Nat) (b : Bool) : (s.setPoison w b).padSlot = s.padSlot := rfl
@[simp] theorem State.setPoison_rx (s : State) (w : Nat) (b : Bool) : (s.setPoison w b).rx = s.rx := rfl
@[simp] theorem State.setPoison_rxCut (s : State) (w : Nat) (b : Bool) : (s.setPoison w b).rxCut = s.rxCut := rfl
@[simp] theorem State.setPoison_dc (s : State) (w : Nat) (b : Bool) : (s.setPoison w b).dc = s.dc := rfl
@[simp] theorem State.setPoison_dcClr (s : State) (w : Nat) (b : Bool) : (s.setPoison w b).dcClr = s.dcClr := rfl
@[simp] theorem State.setPoison_icbN (s : State) (w : Nat) (b : Bool) : (s.setPoison w b).icbN = s.icbN := rfl
@[simp] theorem State.setPoison_firFrom (s : State) (w : Nat) (b : Bool) : (s.setPoison w b).firFrom = s.firFrom := rfl
@[simp] theorem State.setPoison_firXf (s : State) (w : Nat) (b : Bool) : (s.setPoison w b).firXf = s.firXf := rfl
@[simp] theorem State.setPoison_tx (s : State) (w : Nat) (b : Bool) : (s.setPoison w b).tx = s.tx := rfl
@[simp] theorem State.setPoison_gateNext (s : State) (w : Nat) (b : Bool) : (s.setPoison w b).gateNext = s.gateNext := rfl
@[simp] theorem State.setPoison_txZero (s : State) (w : Nat) (b : Bool) : (s.setPoison w b).txZero = s.txZero := rfl
@[simp] theorem State.setPoison_stages (s : State) (w : Nat) (b : Bool) : (s.setPoison w b).stages = s.stages := rfl
@[simp] theorem State.setPoison_sendCut (s : State) (w : Nat) (b : Bool) : (s.setPoison w b).sendCut = s.sendCut := rfl
@[simp] theorem State.setPoison_exchCut (s : State) (w : Nat) (b : Bool) : (s.setPoison w b).exchCut = s.exchCut := rfl
@[simp] theorem State.setPoison_objs (s : State) (w : Nat) (b : Bool) : (s.setPoison w b).objs = s.objs := rfl
@[simp] theorem State.setPoison_knots (s : State) (w : Nat) (b : Bool) : (s.setPoison w b).knots = s.knots := rfl
@[simp] theorem State.setPoison_frozenTo (s : State) (w : Nat) (b : Bool) : (s.setPoison w b).frozenTo = s.frozenTo := rfl
@[simp] theorem State.setPoison_lineHist (s : State) (w : Nat) (b : Bool) : (s.setPoison w b).lineHist = s.lineHist := rfl
@[simp] theorem State.setPoison_objMoved (s : State) (w : Nat) (b : Bool) : (s.setPoison w b).objMoved = s.objMoved := rfl
@[simp] theorem State.setPoison_objEras (s : State) (w : Nat) (b : Bool) : (s.setPoison w b).objEras = s.objEras := rfl
@[simp] theorem State.setPoison_swapSlot (s : State) (w : Nat) (b : Bool) : (s.setPoison w b).swapSlot = s.swapSlot := rfl
@[simp] theorem State.setPoison_lineFrom (s : State) (w : Nat) (b : Bool) : (s.setPoison w b).lineFrom = s.lineFrom := rfl
@[simp] theorem State.setPoison_pfSt (s : State) (w : Nat) (b : Bool) : (s.setPoison w b).pfSt = s.pfSt := rfl
@[simp] theorem State.setPoison_airW (s : State) (w : Nat) (b : Bool) : (s.setPoison w b).airW = s.airW := rfl
@[simp] theorem State.setPoison_airR (s : State) (w : Nat) (b : Bool) : (s.setPoison w b).airR = s.airR := rfl
@[simp] theorem State.setPoison_partials (s : State) (w : Nat) (b : Bool) : (s.setPoison w b).partials = s.partials := rfl
@[simp] theorem State.setPoison_mix (s : State) (w : Nat) (b : Bool) : (s.setPoison w b).mix = s.mix := rfl
@[simp] theorem State.setPoison_outs (s : State) (w : Nat) (b : Bool) : (s.setPoison w b).outs = s.outs := rfl
@[simp] theorem State.setPoison_conv (s : State) (w : Nat) (b : Bool) : (s.setPoison w b).conv = s.conv := rfl
@[simp] theorem State.setPoison_ies (s : State) (w : Nat) (b : Bool) : (s.setPoison w b).ies = s.ies := rfl
@[simp] theorem State.setPoison_press (s : State) (w : Nat) (b : Bool) : (s.setPoison w b).press = s.press := rfl
@[simp] theorem State.setPoison_askRing (s : State) (w : Nat) (b : Bool) : (s.setPoison w b).askRing = s.askRing := rfl
@[simp] theorem State.setPoison_vote (s : State) (w : Nat) (b : Bool) : (s.setPoison w b).vote = s.vote := rfl
@[simp] theorem State.setPoison_verdict (s : State) (w : Nat) (b : Bool) : (s.setPoison w b).verdict = s.verdict := rfl
@[simp] theorem State.setPoison_fwdTerm (s : State) (w : Nat) (b : Bool) : (s.setPoison w b).fwdTerm = s.fwdTerm := rfl
@[simp] theorem State.setPoison_fwdTermAct (s : State) (w : Nat) (b : Bool) : (s.setPoison w b).fwdTermAct = s.fwdTermAct := rfl
@[simp] theorem State.setPoison_ring (s : State) (w : Nat) (b : Bool) : (s.setPoison w b).ring = s.ring := rfl
@[simp] theorem State.setPoison_red (s : State) (w : Nat) (b : Bool) : (s.setPoison w b).red = s.red := rfl
@[simp] theorem State.setPoison_pwr (s : State) (w : Nat) (b : Bool) : (s.setPoison w b).pwr = s.pwr := rfl
@[simp] theorem State.setPoison_boot (s : State) (w : Nat) (b : Bool) : (s.setPoison w b).boot = s.boot := rfl
@[simp] theorem State.setPoison_tap (s : State) (w : Nat) (b : Bool) : (s.setPoison w b).tap = s.tap := rfl
@[simp] theorem State.setPoison_freeCtr (s : State) (w : Nat) (b : Bool) : (s.setPoison w b).freeCtr = s.freeCtr := rfl
@[simp] theorem State.setPoison_out (s : State) (w : Nat) (b : Bool) : (s.setPoison w b).out = s.out := rfl

@[simp] theorem State.answer_pending (s : State) (r : Resp) (d : List Byte) : (s.answer r d).pending = s.pending := rfl
@[simp] theorem State.answer_slot (s : State) (r : Resp) (d : List Byte) : (s.answer r d).slot = s.slot := rfl
@[simp] theorem State.answer_hsi (s : State) (r : Resp) (d : List Byte) : (s.answer r d).hsi = s.hsi := rfl
@[simp] theorem State.answer_cyc (s : State) (r : Resp) (d : List Byte) : (s.answer r d).cyc = s.cyc := rfl
@[simp] theorem State.answer_words (s : State) (r : Resp) (d : List Byte) : (s.answer r d).words = s.words := rfl
@[simp] theorem State.answer_tmrA (s : State) (r : Resp) (d : List Byte) : (s.answer r d).tmrA = s.tmrA := rfl
@[simp] theorem State.answer_tmrB (s : State) (r : Resp) (d : List Byte) : (s.answer r d).tmrB = s.tmrB := rfl
@[simp] theorem State.answer_frozen (s : State) (r : Resp) (d : List Byte) : (s.answer r d).frozen = s.frozen := rfl
@[simp] theorem State.answer_pairs (s : State) (r : Resp) (d : List Byte) : (s.answer r d).pairs = s.pairs := rfl
@[simp] theorem State.answer_wmk (s : State) (r : Resp) (d : List Byte) : (s.answer r d).wmk = s.wmk := rfl
@[simp] theorem State.answer_msix (s : State) (r : Resp) (d : List Byte) : (s.answer r d).msix = s.msix := rfl
@[simp] theorem State.answer_snapQ (s : State) (r : Resp) (d : List Byte) : (s.answer r d).snapQ = s.snapQ := rfl
@[simp] theorem State.answer_lastSnap (s : State) (r : Resp) (d : List Byte) : (s.answer r d).lastSnap = s.lastSnap := rfl
@[simp] theorem State.answer_matchArmed (s : State) (r : Resp) (d : List Byte) : (s.answer r d).matchArmed = s.matchArmed := rfl
@[simp] theorem State.answer_dump (s : State) (r : Resp) (d : List Byte) : (s.answer r d).dump = s.dump := rfl
@[simp] theorem State.answer_mem (s : State) (r : Resp) (d : List Byte) : (s.answer r d).mem = s.mem := rfl
@[simp] theorem State.answer_sramErr (s : State) (r : Resp) (d : List Byte) : (s.answer r d).sramErr = s.sramErr := rfl
@[simp] theorem State.answer_dramErr (s : State) (r : Resp) (d : List Byte) : (s.answer r d).dramErr = s.dramErr := rfl
@[simp] theorem State.answer_poison (s : State) (r : Resp) (d : List Byte) : (s.answer r d).poison = s.poison := rfl
@[simp] theorem State.answer_lock (s : State) (r : Resp) (d : List Byte) : (s.answer r d).lock = s.lock := rfl
@[simp] theorem State.answer_waiting (s : State) (r : Resp) (d : List Byte) : (s.answer r d).waiting = s.waiting := rfl
@[simp] theorem State.answer_passed (s : State) (r : Resp) (d : List Byte) : (s.answer r d).passed = s.passed := rfl
@[simp] theorem State.answer_reads (s : State) (r : Resp) (d : List Byte) : (s.answer r d).reads = s.reads := rfl
@[simp] theorem State.answer_buckets (s : State) (r : Resp) (d : List Byte) : (s.answer r d).buckets = s.buckets := rfl
@[simp] theorem State.answer_chans (s : State) (r : Resp) (d : List Byte) : (s.answer r d).chans = s.chans := rfl
@[simp] theorem State.answer_pllbFail (s : State) (r : Resp) (d : List Byte) : (s.answer r d).pllbFail = s.pllbFail := rfl
@[simp] theorem State.answer_held (s : State) (r : Resp) (d : List Byte) : (s.answer r d).held = s.held := rfl
@[simp] theorem State.answer_time (s : State) (r : Resp) (d : List Byte) : (s.answer r d).time = s.time := rfl
@[simp] theorem State.answer_clk (s : State) (r : Resp) (d : List Byte) : (s.answer r d).clk = s.clk := rfl
@[simp] theorem State.answer_hostMem (s : State) (r : Resp) (d : List Byte) : (s.answer r d).hostMem = s.hostMem := rfl
@[simp] theorem State.answer_macs (s : State) (r : Resp) (d : List Byte) : (s.answer r d).macs = s.macs := rfl
@[simp] theorem State.answer_audio (s : State) (r : Resp) (d : List Byte) : (s.answer r d).audio = s.audio := rfl
@[simp] theorem State.answer_pads (s : State) (r : Resp) (d : List Byte) : (s.answer r d).pads = s.pads := rfl
@[simp] theorem State.answer_padHist (s : State) (r : Resp) (d : List Byte) : (s.answer r d).padHist = s.padHist := rfl
@[simp] theorem State.answer_padSlot (s : State) (r : Resp) (d : List Byte) : (s.answer r d).padSlot = s.padSlot := rfl
@[simp] theorem State.answer_rx (s : State) (r : Resp) (d : List Byte) : (s.answer r d).rx = s.rx := rfl
@[simp] theorem State.answer_rxCut (s : State) (r : Resp) (d : List Byte) : (s.answer r d).rxCut = s.rxCut := rfl
@[simp] theorem State.answer_dc (s : State) (r : Resp) (d : List Byte) : (s.answer r d).dc = s.dc := rfl
@[simp] theorem State.answer_dcClr (s : State) (r : Resp) (d : List Byte) : (s.answer r d).dcClr = s.dcClr := rfl
@[simp] theorem State.answer_icbN (s : State) (r : Resp) (d : List Byte) : (s.answer r d).icbN = s.icbN := rfl
@[simp] theorem State.answer_firFrom (s : State) (r : Resp) (d : List Byte) : (s.answer r d).firFrom = s.firFrom := rfl
@[simp] theorem State.answer_firXf (s : State) (r : Resp) (d : List Byte) : (s.answer r d).firXf = s.firXf := rfl
@[simp] theorem State.answer_tx (s : State) (r : Resp) (d : List Byte) : (s.answer r d).tx = s.tx := rfl
@[simp] theorem State.answer_gateNext (s : State) (r : Resp) (d : List Byte) : (s.answer r d).gateNext = s.gateNext := rfl
@[simp] theorem State.answer_txZero (s : State) (r : Resp) (d : List Byte) : (s.answer r d).txZero = s.txZero := rfl
@[simp] theorem State.answer_stages (s : State) (r : Resp) (d : List Byte) : (s.answer r d).stages = s.stages := rfl
@[simp] theorem State.answer_sendCut (s : State) (r : Resp) (d : List Byte) : (s.answer r d).sendCut = s.sendCut := rfl
@[simp] theorem State.answer_exchCut (s : State) (r : Resp) (d : List Byte) : (s.answer r d).exchCut = s.exchCut := rfl
@[simp] theorem State.answer_objs (s : State) (r : Resp) (d : List Byte) : (s.answer r d).objs = s.objs := rfl
@[simp] theorem State.answer_knots (s : State) (r : Resp) (d : List Byte) : (s.answer r d).knots = s.knots := rfl
@[simp] theorem State.answer_frozenTo (s : State) (r : Resp) (d : List Byte) : (s.answer r d).frozenTo = s.frozenTo := rfl
@[simp] theorem State.answer_lineHist (s : State) (r : Resp) (d : List Byte) : (s.answer r d).lineHist = s.lineHist := rfl
@[simp] theorem State.answer_objMoved (s : State) (r : Resp) (d : List Byte) : (s.answer r d).objMoved = s.objMoved := rfl
@[simp] theorem State.answer_objEras (s : State) (r : Resp) (d : List Byte) : (s.answer r d).objEras = s.objEras := rfl
@[simp] theorem State.answer_swapSlot (s : State) (r : Resp) (d : List Byte) : (s.answer r d).swapSlot = s.swapSlot := rfl
@[simp] theorem State.answer_lineFrom (s : State) (r : Resp) (d : List Byte) : (s.answer r d).lineFrom = s.lineFrom := rfl
@[simp] theorem State.answer_pfSt (s : State) (r : Resp) (d : List Byte) : (s.answer r d).pfSt = s.pfSt := rfl
@[simp] theorem State.answer_airW (s : State) (r : Resp) (d : List Byte) : (s.answer r d).airW = s.airW := rfl
@[simp] theorem State.answer_airR (s : State) (r : Resp) (d : List Byte) : (s.answer r d).airR = s.airR := rfl
@[simp] theorem State.answer_partials (s : State) (r : Resp) (d : List Byte) : (s.answer r d).partials = s.partials := rfl
@[simp] theorem State.answer_mix (s : State) (r : Resp) (d : List Byte) : (s.answer r d).mix = s.mix := rfl
@[simp] theorem State.answer_outs (s : State) (r : Resp) (d : List Byte) : (s.answer r d).outs = s.outs := rfl
@[simp] theorem State.answer_conv (s : State) (r : Resp) (d : List Byte) : (s.answer r d).conv = s.conv := rfl
@[simp] theorem State.answer_ies (s : State) (r : Resp) (d : List Byte) : (s.answer r d).ies = s.ies := rfl
@[simp] theorem State.answer_press (s : State) (r : Resp) (d : List Byte) : (s.answer r d).press = s.press := rfl
@[simp] theorem State.answer_askRing (s : State) (r : Resp) (d : List Byte) : (s.answer r d).askRing = s.askRing := rfl
@[simp] theorem State.answer_vote (s : State) (r : Resp) (d : List Byte) : (s.answer r d).vote = s.vote := rfl
@[simp] theorem State.answer_verdict (s : State) (r : Resp) (d : List Byte) : (s.answer r d).verdict = s.verdict := rfl
@[simp] theorem State.answer_fwdTerm (s : State) (r : Resp) (d : List Byte) : (s.answer r d).fwdTerm = s.fwdTerm := rfl
@[simp] theorem State.answer_fwdTermAct (s : State) (r : Resp) (d : List Byte) : (s.answer r d).fwdTermAct = s.fwdTermAct := rfl
@[simp] theorem State.answer_ring (s : State) (r : Resp) (d : List Byte) : (s.answer r d).ring = s.ring := rfl
@[simp] theorem State.answer_red (s : State) (r : Resp) (d : List Byte) : (s.answer r d).red = s.red := rfl
@[simp] theorem State.answer_pwr (s : State) (r : Resp) (d : List Byte) : (s.answer r d).pwr = s.pwr := rfl
@[simp] theorem State.answer_boot (s : State) (r : Resp) (d : List Byte) : (s.answer r d).boot = s.boot := rfl
@[simp] theorem State.answer_tap (s : State) (r : Resp) (d : List Byte) : (s.answer r d).tap = s.tap := rfl
@[simp] theorem State.answer_freeCtr (s : State) (r : Resp) (d : List Byte) : (s.answer r d).freeCtr = s.freeCtr := rfl
@[simp] theorem State.answer_out (s : State) (r : Resp) (d : List Byte) : (s.answer r d).out = s.out := rfl

@[simp] theorem State.emit_pending (s : State) (o : Output) : (s.emit o).pending = s.pending := rfl
@[simp] theorem State.emit_slot (s : State) (o : Output) : (s.emit o).slot = s.slot := rfl
@[simp] theorem State.emit_hsi (s : State) (o : Output) : (s.emit o).hsi = s.hsi := rfl
@[simp] theorem State.emit_cyc (s : State) (o : Output) : (s.emit o).cyc = s.cyc := rfl
@[simp] theorem State.emit_words (s : State) (o : Output) : (s.emit o).words = s.words := rfl
@[simp] theorem State.emit_tmrA (s : State) (o : Output) : (s.emit o).tmrA = s.tmrA := rfl
@[simp] theorem State.emit_tmrB (s : State) (o : Output) : (s.emit o).tmrB = s.tmrB := rfl
@[simp] theorem State.emit_frozen (s : State) (o : Output) : (s.emit o).frozen = s.frozen := rfl
@[simp] theorem State.emit_pairs (s : State) (o : Output) : (s.emit o).pairs = s.pairs := rfl
@[simp] theorem State.emit_bus (s : State) (o : Output) : (s.emit o).bus = s.bus := rfl
@[simp] theorem State.emit_wmk (s : State) (o : Output) : (s.emit o).wmk = s.wmk := rfl
@[simp] theorem State.emit_msix (s : State) (o : Output) : (s.emit o).msix = s.msix := rfl
@[simp] theorem State.emit_snapQ (s : State) (o : Output) : (s.emit o).snapQ = s.snapQ := rfl
@[simp] theorem State.emit_lastSnap (s : State) (o : Output) : (s.emit o).lastSnap = s.lastSnap := rfl
@[simp] theorem State.emit_matchArmed (s : State) (o : Output) : (s.emit o).matchArmed = s.matchArmed := rfl
@[simp] theorem State.emit_dump (s : State) (o : Output) : (s.emit o).dump = s.dump := rfl
@[simp] theorem State.emit_mem (s : State) (o : Output) : (s.emit o).mem = s.mem := rfl
@[simp] theorem State.emit_sramErr (s : State) (o : Output) : (s.emit o).sramErr = s.sramErr := rfl
@[simp] theorem State.emit_dramErr (s : State) (o : Output) : (s.emit o).dramErr = s.dramErr := rfl
@[simp] theorem State.emit_poison (s : State) (o : Output) : (s.emit o).poison = s.poison := rfl
@[simp] theorem State.emit_lock (s : State) (o : Output) : (s.emit o).lock = s.lock := rfl
@[simp] theorem State.emit_waiting (s : State) (o : Output) : (s.emit o).waiting = s.waiting := rfl
@[simp] theorem State.emit_passed (s : State) (o : Output) : (s.emit o).passed = s.passed := rfl
@[simp] theorem State.emit_reads (s : State) (o : Output) : (s.emit o).reads = s.reads := rfl
@[simp] theorem State.emit_buckets (s : State) (o : Output) : (s.emit o).buckets = s.buckets := rfl
@[simp] theorem State.emit_chans (s : State) (o : Output) : (s.emit o).chans = s.chans := rfl
@[simp] theorem State.emit_pllbFail (s : State) (o : Output) : (s.emit o).pllbFail = s.pllbFail := rfl
@[simp] theorem State.emit_held (s : State) (o : Output) : (s.emit o).held = s.held := rfl
@[simp] theorem State.emit_time (s : State) (o : Output) : (s.emit o).time = s.time := rfl
@[simp] theorem State.emit_clk (s : State) (o : Output) : (s.emit o).clk = s.clk := rfl
@[simp] theorem State.emit_hostMem (s : State) (o : Output) : (s.emit o).hostMem = s.hostMem := rfl
@[simp] theorem State.emit_macs (s : State) (o : Output) : (s.emit o).macs = s.macs := rfl
@[simp] theorem State.emit_audio (s : State) (o : Output) : (s.emit o).audio = s.audio := rfl
@[simp] theorem State.emit_pads (s : State) (o : Output) : (s.emit o).pads = s.pads := rfl
@[simp] theorem State.emit_padHist (s : State) (o : Output) : (s.emit o).padHist = s.padHist := rfl
@[simp] theorem State.emit_padSlot (s : State) (o : Output) : (s.emit o).padSlot = s.padSlot := rfl
@[simp] theorem State.emit_rx (s : State) (o : Output) : (s.emit o).rx = s.rx := rfl
@[simp] theorem State.emit_rxCut (s : State) (o : Output) : (s.emit o).rxCut = s.rxCut := rfl
@[simp] theorem State.emit_dc (s : State) (o : Output) : (s.emit o).dc = s.dc := rfl
@[simp] theorem State.emit_dcClr (s : State) (o : Output) : (s.emit o).dcClr = s.dcClr := rfl
@[simp] theorem State.emit_icbN (s : State) (o : Output) : (s.emit o).icbN = s.icbN := rfl
@[simp] theorem State.emit_firFrom (s : State) (o : Output) : (s.emit o).firFrom = s.firFrom := rfl
@[simp] theorem State.emit_firXf (s : State) (o : Output) : (s.emit o).firXf = s.firXf := rfl
@[simp] theorem State.emit_tx (s : State) (o : Output) : (s.emit o).tx = s.tx := rfl
@[simp] theorem State.emit_gateNext (s : State) (o : Output) : (s.emit o).gateNext = s.gateNext := rfl
@[simp] theorem State.emit_txZero (s : State) (o : Output) : (s.emit o).txZero = s.txZero := rfl
@[simp] theorem State.emit_stages (s : State) (o : Output) : (s.emit o).stages = s.stages := rfl
@[simp] theorem State.emit_sendCut (s : State) (o : Output) : (s.emit o).sendCut = s.sendCut := rfl
@[simp] theorem State.emit_exchCut (s : State) (o : Output) : (s.emit o).exchCut = s.exchCut := rfl
@[simp] theorem State.emit_objs (s : State) (o : Output) : (s.emit o).objs = s.objs := rfl
@[simp] theorem State.emit_knots (s : State) (o : Output) : (s.emit o).knots = s.knots := rfl
@[simp] theorem State.emit_frozenTo (s : State) (o : Output) : (s.emit o).frozenTo = s.frozenTo := rfl
@[simp] theorem State.emit_lineHist (s : State) (o : Output) : (s.emit o).lineHist = s.lineHist := rfl
@[simp] theorem State.emit_objMoved (s : State) (o : Output) : (s.emit o).objMoved = s.objMoved := rfl
@[simp] theorem State.emit_objEras (s : State) (o : Output) : (s.emit o).objEras = s.objEras := rfl
@[simp] theorem State.emit_swapSlot (s : State) (o : Output) : (s.emit o).swapSlot = s.swapSlot := rfl
@[simp] theorem State.emit_lineFrom (s : State) (o : Output) : (s.emit o).lineFrom = s.lineFrom := rfl
@[simp] theorem State.emit_pfSt (s : State) (o : Output) : (s.emit o).pfSt = s.pfSt := rfl
@[simp] theorem State.emit_airW (s : State) (o : Output) : (s.emit o).airW = s.airW := rfl
@[simp] theorem State.emit_airR (s : State) (o : Output) : (s.emit o).airR = s.airR := rfl
@[simp] theorem State.emit_partials (s : State) (o : Output) : (s.emit o).partials = s.partials := rfl
@[simp] theorem State.emit_mix (s : State) (o : Output) : (s.emit o).mix = s.mix := rfl
@[simp] theorem State.emit_outs (s : State) (o : Output) : (s.emit o).outs = s.outs := rfl
@[simp] theorem State.emit_conv (s : State) (o : Output) : (s.emit o).conv = s.conv := rfl
@[simp] theorem State.emit_ies (s : State) (o : Output) : (s.emit o).ies = s.ies := rfl
@[simp] theorem State.emit_press (s : State) (o : Output) : (s.emit o).press = s.press := rfl
@[simp] theorem State.emit_askRing (s : State) (o : Output) : (s.emit o).askRing = s.askRing := rfl
@[simp] theorem State.emit_vote (s : State) (o : Output) : (s.emit o).vote = s.vote := rfl
@[simp] theorem State.emit_verdict (s : State) (o : Output) : (s.emit o).verdict = s.verdict := rfl
@[simp] theorem State.emit_fwdTerm (s : State) (o : Output) : (s.emit o).fwdTerm = s.fwdTerm := rfl
@[simp] theorem State.emit_fwdTermAct (s : State) (o : Output) : (s.emit o).fwdTermAct = s.fwdTermAct := rfl
@[simp] theorem State.emit_ring (s : State) (o : Output) : (s.emit o).ring = s.ring := rfl
@[simp] theorem State.emit_red (s : State) (o : Output) : (s.emit o).red = s.red := rfl
@[simp] theorem State.emit_pwr (s : State) (o : Output) : (s.emit o).pwr = s.pwr := rfl
@[simp] theorem State.emit_boot (s : State) (o : Output) : (s.emit o).boot = s.boot := rfl
@[simp] theorem State.emit_tap (s : State) (o : Output) : (s.emit o).tap = s.tap := rfl
@[simp] theorem State.emit_freeCtr (s : State) (o : Output) : (s.emit o).freeCtr = s.freeCtr := rfl

/-! Each field under the interrupt evaluation that ends a command. -/

theorem State.msixRequest_frame (s : State) (v : Nat) :
    s.msixRequest v = { s with msix := (s.msixRequest v).msix, out := (s.msixRequest v).out } := by
  simp only [State.msixRequest]
  split
  · rfl
  · split <;> rfl

theorem State.settle_frame (s : State) : s.settle = { s with msix := s.settle.msix, out := s.settle.out } := by
  suffices h : ∀ (l : List Nat) (p : Nat → Bool) (u : State), u = { s with msix := u.msix, out := u.out } →
      (l.foldl (fun s v => if p v then s.msixRequest v else s) u) =
        { s with
          msix := (l.foldl (fun s v => if p v then s.msixRequest v else s) u).msix
          out := (l.foldl (fun s v => if p v then s.msixRequest v else s) u).out } by
    exact h (List.range 32) (fun v => bitOf s.vecActive v && !bitOf s.msix.active v) _ rfl
  intro l p
  induction l with
  | nil => intro u hu; exact hu
  | cons v l ih =>
    intro u hu
    refine ih _ ?_
    by_cases hp : p v = true
    · simp only [hp, if_true]; rw [State.msixRequest_frame]; rw [hu]
    · simp only [hp]; exact hu

@[simp] theorem State.settle_pending (s : State) : s.settle.pending = s.pending := (congrArg State.pending s.settle_frame :)
@[simp] theorem State.settle_slot (s : State) : s.settle.slot = s.slot := (congrArg State.slot s.settle_frame :)
@[simp] theorem State.settle_hsi (s : State) : s.settle.hsi = s.hsi := (congrArg State.hsi s.settle_frame :)
@[simp] theorem State.settle_cyc (s : State) : s.settle.cyc = s.cyc := (congrArg State.cyc s.settle_frame :)
@[simp] theorem State.settle_words (s : State) : s.settle.words = s.words := (congrArg State.words s.settle_frame :)
@[simp] theorem State.settle_tmrA (s : State) : s.settle.tmrA = s.tmrA := (congrArg State.tmrA s.settle_frame :)
@[simp] theorem State.settle_tmrB (s : State) : s.settle.tmrB = s.tmrB := (congrArg State.tmrB s.settle_frame :)
@[simp] theorem State.settle_frozen (s : State) : s.settle.frozen = s.frozen := (congrArg State.frozen s.settle_frame :)
@[simp] theorem State.settle_pairs (s : State) : s.settle.pairs = s.pairs := (congrArg State.pairs s.settle_frame :)
@[simp] theorem State.settle_bus (s : State) : s.settle.bus = s.bus := (congrArg State.bus s.settle_frame :)
@[simp] theorem State.settle_wmk (s : State) : s.settle.wmk = s.wmk := (congrArg State.wmk s.settle_frame :)
@[simp] theorem State.settle_snapQ (s : State) : s.settle.snapQ = s.snapQ := (congrArg State.snapQ s.settle_frame :)
@[simp] theorem State.settle_lastSnap (s : State) : s.settle.lastSnap = s.lastSnap := (congrArg State.lastSnap s.settle_frame :)
@[simp] theorem State.settle_matchArmed (s : State) : s.settle.matchArmed = s.matchArmed := (congrArg State.matchArmed s.settle_frame :)
@[simp] theorem State.settle_dump (s : State) : s.settle.dump = s.dump := (congrArg State.dump s.settle_frame :)
@[simp] theorem State.settle_mem (s : State) : s.settle.mem = s.mem := (congrArg State.mem s.settle_frame :)
@[simp] theorem State.settle_sramErr (s : State) : s.settle.sramErr = s.sramErr := (congrArg State.sramErr s.settle_frame :)
@[simp] theorem State.settle_dramErr (s : State) : s.settle.dramErr = s.dramErr := (congrArg State.dramErr s.settle_frame :)
@[simp] theorem State.settle_poison (s : State) : s.settle.poison = s.poison := (congrArg State.poison s.settle_frame :)
@[simp] theorem State.settle_lock (s : State) : s.settle.lock = s.lock := (congrArg State.lock s.settle_frame :)
@[simp] theorem State.settle_waiting (s : State) : s.settle.waiting = s.waiting := (congrArg State.waiting s.settle_frame :)
@[simp] theorem State.settle_passed (s : State) : s.settle.passed = s.passed := (congrArg State.passed s.settle_frame :)
@[simp] theorem State.settle_reads (s : State) : s.settle.reads = s.reads := (congrArg State.reads s.settle_frame :)
@[simp] theorem State.settle_buckets (s : State) : s.settle.buckets = s.buckets := (congrArg State.buckets s.settle_frame :)
@[simp] theorem State.settle_chans (s : State) : s.settle.chans = s.chans := (congrArg State.chans s.settle_frame :)
@[simp] theorem State.settle_pllbFail (s : State) : s.settle.pllbFail = s.pllbFail := (congrArg State.pllbFail s.settle_frame :)
@[simp] theorem State.settle_held (s : State) : s.settle.held = s.held := (congrArg State.held s.settle_frame :)
@[simp] theorem State.settle_time (s : State) : s.settle.time = s.time := (congrArg State.time s.settle_frame :)
@[simp] theorem State.settle_clk (s : State) : s.settle.clk = s.clk := (congrArg State.clk s.settle_frame :)
@[simp] theorem State.settle_hostMem (s : State) : s.settle.hostMem = s.hostMem := (congrArg State.hostMem s.settle_frame :)
@[simp] theorem State.settle_macs (s : State) : s.settle.macs = s.macs := (congrArg State.macs s.settle_frame :)
@[simp] theorem State.settle_audio (s : State) : s.settle.audio = s.audio := (congrArg State.audio s.settle_frame :)
@[simp] theorem State.settle_pads (s : State) : s.settle.pads = s.pads := (congrArg State.pads s.settle_frame :)
@[simp] theorem State.settle_padHist (s : State) : s.settle.padHist = s.padHist := (congrArg State.padHist s.settle_frame :)
@[simp] theorem State.settle_padSlot (s : State) : s.settle.padSlot = s.padSlot := (congrArg State.padSlot s.settle_frame :)
@[simp] theorem State.settle_rx (s : State) : s.settle.rx = s.rx := (congrArg State.rx s.settle_frame :)
@[simp] theorem State.settle_rxCut (s : State) : s.settle.rxCut = s.rxCut := (congrArg State.rxCut s.settle_frame :)
@[simp] theorem State.settle_dc (s : State) : s.settle.dc = s.dc := (congrArg State.dc s.settle_frame :)
@[simp] theorem State.settle_dcClr (s : State) : s.settle.dcClr = s.dcClr := (congrArg State.dcClr s.settle_frame :)
@[simp] theorem State.settle_icbN (s : State) : s.settle.icbN = s.icbN := (congrArg State.icbN s.settle_frame :)
@[simp] theorem State.settle_firFrom (s : State) : s.settle.firFrom = s.firFrom := (congrArg State.firFrom s.settle_frame :)
@[simp] theorem State.settle_firXf (s : State) : s.settle.firXf = s.firXf := (congrArg State.firXf s.settle_frame :)
@[simp] theorem State.settle_tx (s : State) : s.settle.tx = s.tx := (congrArg State.tx s.settle_frame :)
@[simp] theorem State.settle_gateNext (s : State) : s.settle.gateNext = s.gateNext := (congrArg State.gateNext s.settle_frame :)
@[simp] theorem State.settle_txZero (s : State) : s.settle.txZero = s.txZero := (congrArg State.txZero s.settle_frame :)
@[simp] theorem State.settle_stages (s : State) : s.settle.stages = s.stages := (congrArg State.stages s.settle_frame :)
@[simp] theorem State.settle_sendCut (s : State) : s.settle.sendCut = s.sendCut := (congrArg State.sendCut s.settle_frame :)
@[simp] theorem State.settle_exchCut (s : State) : s.settle.exchCut = s.exchCut := (congrArg State.exchCut s.settle_frame :)
@[simp] theorem State.settle_objs (s : State) : s.settle.objs = s.objs := (congrArg State.objs s.settle_frame :)
@[simp] theorem State.settle_knots (s : State) : s.settle.knots = s.knots := (congrArg State.knots s.settle_frame :)
@[simp] theorem State.settle_frozenTo (s : State) : s.settle.frozenTo = s.frozenTo := (congrArg State.frozenTo s.settle_frame :)
@[simp] theorem State.settle_lineHist (s : State) : s.settle.lineHist = s.lineHist := (congrArg State.lineHist s.settle_frame :)
@[simp] theorem State.settle_objMoved (s : State) : s.settle.objMoved = s.objMoved := (congrArg State.objMoved s.settle_frame :)
@[simp] theorem State.settle_objEras (s : State) : s.settle.objEras = s.objEras := (congrArg State.objEras s.settle_frame :)
@[simp] theorem State.settle_swapSlot (s : State) : s.settle.swapSlot = s.swapSlot := (congrArg State.swapSlot s.settle_frame :)
@[simp] theorem State.settle_lineFrom (s : State) : s.settle.lineFrom = s.lineFrom := (congrArg State.lineFrom s.settle_frame :)
@[simp] theorem State.settle_pfSt (s : State) : s.settle.pfSt = s.pfSt := (congrArg State.pfSt s.settle_frame :)
@[simp] theorem State.settle_airW (s : State) : s.settle.airW = s.airW := (congrArg State.airW s.settle_frame :)
@[simp] theorem State.settle_airR (s : State) : s.settle.airR = s.airR := (congrArg State.airR s.settle_frame :)
@[simp] theorem State.settle_partials (s : State) : s.settle.partials = s.partials := (congrArg State.partials s.settle_frame :)
@[simp] theorem State.settle_mix (s : State) : s.settle.mix = s.mix := (congrArg State.mix s.settle_frame :)
@[simp] theorem State.settle_outs (s : State) : s.settle.outs = s.outs := (congrArg State.outs s.settle_frame :)
@[simp] theorem State.settle_conv (s : State) : s.settle.conv = s.conv := (congrArg State.conv s.settle_frame :)
@[simp] theorem State.settle_ies (s : State) : s.settle.ies = s.ies := (congrArg State.ies s.settle_frame :)
@[simp] theorem State.settle_press (s : State) : s.settle.press = s.press := (congrArg State.press s.settle_frame :)
@[simp] theorem State.settle_askRing (s : State) : s.settle.askRing = s.askRing := (congrArg State.askRing s.settle_frame :)
@[simp] theorem State.settle_vote (s : State) : s.settle.vote = s.vote := (congrArg State.vote s.settle_frame :)
@[simp] theorem State.settle_verdict (s : State) : s.settle.verdict = s.verdict := (congrArg State.verdict s.settle_frame :)
@[simp] theorem State.settle_fwdTerm (s : State) : s.settle.fwdTerm = s.fwdTerm := (congrArg State.fwdTerm s.settle_frame :)
@[simp] theorem State.settle_fwdTermAct (s : State) : s.settle.fwdTermAct = s.fwdTermAct := (congrArg State.fwdTermAct s.settle_frame :)
@[simp] theorem State.settle_ring (s : State) : s.settle.ring = s.ring := (congrArg State.ring s.settle_frame :)
@[simp] theorem State.settle_red (s : State) : s.settle.red = s.red := (congrArg State.red s.settle_frame :)
@[simp] theorem State.settle_pwr (s : State) : s.settle.pwr = s.pwr := (congrArg State.pwr s.settle_frame :)
@[simp] theorem State.settle_boot (s : State) : s.settle.boot = s.boot := (congrArg State.boot s.settle_frame :)
@[simp] theorem State.settle_tap (s : State) : s.settle.tap = s.tap := (congrArg State.tap s.settle_frame :)
@[simp] theorem State.settle_freeCtr (s : State) : s.settle.freeCtr = s.freeCtr := (congrArg State.freeCtr s.settle_frame :)

/-! Reads of words and fields depend on the words alone. -/

theorem State.w_congr (s t : State) (h : t.words = s.words) (k : Nat) : t.w k = s.w k := by simp only [State.w, h]
theorem State.n_congr (s t : State) (h : t.words = s.words) (k : Nat) : t.n k = s.n k := by simp only [State.n, State.w, h]
theorem State.get_congr (s t : State) (h : t.words = s.words) (f : Fld) : t.get f = s.get f := by
  simp only [State.get, State.n, State.w, h]

@[simp] theorem State.settle_w (s : State) (k : Nat) : s.settle.w k = s.w k := State.w_congr _ _ s.settle_words k
@[simp] theorem State.settle_n (s : State) (k : Nat) : s.settle.n k = s.n k := State.n_congr _ _ s.settle_words k
@[simp] theorem State.settle_get (s : State) (f : Fld) : s.settle.get f = s.get f := State.get_congr _ _ s.settle_words f
@[simp] theorem State.settle_is (s : State) (f : Fld) : s.settle.is f = s.is f := by simp only [State.is, State.settle_get]
@[simp] theorem State.answer_w (s : State) (r : Resp) (d : List Byte) (k : Nat) : (s.answer r d).w k = s.w k := rfl
@[simp] theorem State.answer_get (s : State) (r : Resp) (d : List Byte) (f : Fld) : (s.answer r d).get f = s.get f := rfl
@[simp] theorem State.emit_w (s : State) (o : Output) (k : Nat) : (s.emit o).w k = s.w k := rfl
@[simp] theorem State.setByte_w (s : State) (a : Nat) (b : Byte) (k : Nat) : (s.setByte a b).w k = s.w k := rfl
@[simp] theorem State.setByte_get (s : State) (a : Nat) (b : Byte) (f : Fld) : (s.setByte a b).get f = s.get f := rfl

end Sys2Proof.Machine
end

