-- ==== Sys2Proof/Laws/Tab.lean ====
section
/-! SUPPORT. What sparse tables do: a key reads what was written to it, every other key reads as before, and every operation keeps
the canonical form. -/

namespace Sys2Proof.Machine

variable {α : Type}

/-! Reads. -/

theorem tget_of_not_mem (d : Nat → α) (t : Tab α) (k : Nat) (h : ∀ e ∈ t, e.1 ≠ k) : tget d t k = d k := by
  induction t with
  | nil => rfl
  | cons e t ih =>
    have he : k ≠ e.1 := fun h' => h e (by simp) h'.symm
    simp [tget, he, ih fun x hx => h x (by simp [hx])]

theorem tget_filter (d : Nat → α) (p : Nat → Bool) (t : Tab α) (k : Nat) (h : p k = true) :
    tget d (t.filter fun e => p e.1) k = tget d t k := by
  induction t with
  | nil => rfl
  | cons e t ih =>
    by_cases hk : k = e.1
    · subst hk; simp [h, tget]
    · by_cases hp : p e.1 = true <;> simp [hp, tget, hk, ih]

theorem tget_tdrop (d : Nat → α) (p : Nat → Bool) (t : Tab α) (k : Nat) (h : p k = false) :
    tget d (tdrop p t) k = tget d t k := tget_filter d (fun x => !p x) t k (by simp [h])

theorem tget_tdrop_of (d : Nat → α) (p : Nat → Bool) (t : Tab α) (k : Nat) (h : p k = true) : tget d (tdrop p t) k = d k :=
  tget_of_not_mem d _ k fun e he hk => by simp [tdrop, List.mem_filter, hk, h] at he

theorem tget_tins_same (d : Nat → α) (k : Nat) (v : α) (t : Tab α) (h : ∀ e ∈ t, e.1 ≠ k) : tget d (tins k v t) k = v := by
  induction t with
  | nil => simp [tins, tget]
  | cons e t ih =>
    by_cases hk : k < e.1
    · simp [tins, hk, tget]
    · have he : k ≠ e.1 := fun h' => h e (by simp) h'.symm
      simp [tins, hk, tget, he, ih fun x hx => h x (by simp [hx])]

theorem tget_tins_other (d : Nat → α) (k k' : Nat) (v : α) (t : Tab α) (h : k' ≠ k) : tget d (tins k v t) k' = tget d t k' := by
  induction t with
  | nil => simp [tins, tget, h]
  | cons e t ih =>
    by_cases hk : k < e.1
    · simp [tins, hk, tget, h]
    · by_cases he : k' = e.1
      · subst he; simp [tins, hk, tget]
      · simp [tins, hk, tget, he, ih]

variable [DecidableEq α]

/-- A key reads what was written to it. -/
@[simp] theorem tget_tset_same (d : Nat → α) (t : Tab α) (k : Nat) (v : α) : tget d (tset d t k v) k = v := by
  have h : ∀ e ∈ t.filter (fun e => e.1 != k), e.1 ≠ k := fun e he => by simpa using (List.mem_filter.mp he).2
  by_cases hv : v = d k
  · simp only [tset, hv, if_true]; exact tget_of_not_mem d _ k h
  · simp only [tset, hv, if_false]; exact tget_tins_same d k v _ h

/-- Every other key reads as before. -/
theorem tget_tset_other (d : Nat → α) (t : Tab α) (k k' : Nat) (v : α) (h : k' ≠ k) :
    tget d (tset d t k v) k' = tget d t k' := by
  have hf : tget d (t.filter fun e => e.1 != k) k' = tget d t k' := tget_filter d (fun x => x != k) t k' (by simpa using h)
  by_cases hv : v = d k
  · simp only [tset, hv, if_true]; exact hf
  · simp only [tset, hv, if_false]; rw [tget_tins_other d k k' v _ h]; exact hf

theorem tget_tset (d : Nat → α) (t : Tab α) (k k' : Nat) (v : α) :
    tget d (tset d t k v) k' = if k' = k then v else tget d t k' := by
  by_cases h : k' = k
  · subst h; simp
  · simp [h, tget_tset_other d t k k' v h]

/-- A key that no entry of the list names reads as before. -/
theorem tget_tsetAll_other (d : Nat → α) (es : List (Nat × α)) (t : Tab α) (k : Nat) (h : ∀ e ∈ es, e.1 ≠ k) :
    tget d (tsetAll d t es) k = tget d t k := by
  induction es generalizing t with
  | nil => rfl
  | cons e es ih =>
    have := ih (tset d t e.1 e.2) fun x hx => h x (by simp [hx])
    simpa [tsetAll, tget_tset_other d t e.1 k e.2 (fun h' => h e (by simp) h'.symm)] using this

/-! The canonical form. -/

theorem tabWf_cons (d : Nat → α) (e : Nat × α) (t : Tab α) :
    tabWf d (e :: t) = true ↔ e.2 ≠ d e.1 ∧ tabFrom (e.1 + 1) t = true ∧ tabWf d t = true := by
  simp [tabWf, and_assoc]

omit [DecidableEq α] in
theorem tabFrom_mono {b c : Nat} (h : b ≤ c) (t : Tab α) (hc : tabFrom c t = true) : tabFrom b t = true := by
  cases t with
  | nil => rfl
  | cons e t => simp only [tabFrom, decide_eq_true_eq] at *; omega

omit [DecidableEq α] in
theorem tabFrom_of_mem (b : Nat) (t : Tab α) (h : ∀ e ∈ t, b ≤ e.1) : tabFrom b t = true := by
  cases t with
  | nil => rfl
  | cons e t => simpa [tabFrom] using h e (by simp)

theorem tabWf_lt (d : Nat → α) (t : Tab α) (b : Nat) (h : tabWf d t = true) (hb : tabFrom b t = true) : ∀ e ∈ t, b ≤ e.1 := by
  induction t generalizing b with
  | nil => simp
  | cons e t ih =>
    have hw := (tabWf_cons d e t).mp h
    have he : b ≤ e.1 := by simpa [tabFrom] using hb
    intro x hx
    rcases List.mem_cons.mp hx with rfl | hx
    · exact he
    · have := ih (e.1 + 1) hw.2.2 hw.2.1 x hx; omega

theorem tabWf_filter (d : Nat → α) (p : Nat × α → Bool) (t : Tab α) (h : tabWf d t = true) : tabWf d (t.filter p) = true := by
  induction t with
  | nil => rfl
  | cons e t ih =>
    have hw := (tabWf_cons d e t).mp h
    by_cases hp : p e = true
    · rw [List.filter_cons, if_pos hp, tabWf_cons]
      exact ⟨hw.1, tabFrom_of_mem _ _ fun x hx => tabWf_lt d t _ hw.2.2 hw.2.1 x (List.mem_filter.mp hx).1, ih hw.2.2⟩
    · rw [List.filter_cons, if_neg hp]; exact ih hw.2.2

theorem tabWf_tdrop (d : Nat → α) (p : Nat → Bool) (t : Tab α) (h : tabWf d t = true) : tabWf d (tdrop p t) = true :=
  tabWf_filter d _ t h

omit [DecidableEq α] in
theorem tabFrom_tins (b k : Nat) (v : α) (t : Tab α) (hk : b ≤ k) (h : tabFrom b t = true) : tabFrom b (tins k v t) = true := by
  cases t with
  | nil => simpa [tins, tabFrom] using hk
  | cons e t =>
    by_cases he : k < e.1
    · simpa [tins, he, tabFrom] using hk
    · simpa [tins, he, tabFrom] using h

theorem tabWf_tins (d : Nat → α) (k : Nat) (v : α) (t : Tab α) (h : tabWf d t = true) (hv : v ≠ d k) (hk : ∀ e ∈ t, e.1 ≠ k) :
    tabWf d (tins k v t) = true := by
  induction t with
  | nil => simp [tins, tabWf, tabFrom, hv]
  | cons e t ih =>
    have hw := (tabWf_cons d e t).mp h
    by_cases he : k < e.1
    · simp only [tins, he, if_true]
      rw [tabWf_cons]
      exact ⟨hv, by simpa [tabFrom] using he, h⟩
    · have hne : e.1 ≠ k := hk e (by simp)
      simp only [tins, he, if_false]
      rw [tabWf_cons]
      exact ⟨hw.1, tabFrom_tins _ _ _ _ (by omega) hw.2.1, ih hw.2.2 fun x hx => hk x (by simp [hx])⟩

/-- Writing a key keeps the canonical form. -/
theorem tabWf_tset (d : Nat → α) (t : Tab α) (k : Nat) (v : α) (h : tabWf d t = true) : tabWf d (tset d t k v) = true := by
  have hf := tabWf_filter d (fun e => e.1 != k) t h
  by_cases hv : v = d k
  · simp only [tset, hv, if_true]; exact hf
  · simp only [tset, hv, if_false]
    exact tabWf_tins d k v _ hf hv fun e he => by simpa using (List.mem_filter.mp he).2

theorem tabWf_tsetAll (d : Nat → α) (es : List (Nat × α)) (t : Tab α) (h : tabWf d t = true) : tabWf d (tsetAll d t es) = true := by
  induction es generalizing t with
  | nil => exact h
  | cons e es ih => exact ih _ (tabWf_tset d t e.1 e.2 h)

theorem tget_of_tabFrom (d : Nat → α) (t : Tab α) (k : Nat) (h : tabWf d t = true) (hk : tabFrom (k + 1) t = true) : tget d t k = d k :=
  tget_of_not_mem d t k fun e he hx => by have := tabWf_lt d t _ h hk e he; omega

/-- Canonical tables that read alike are equal. -/
theorem tab_ext (d : Nat → α) (t u : Tab α) (ht : tabWf d t = true) (hu : tabWf d u = true)
    (h : ∀ k, tget d t k = tget d u k) : t = u := by
  induction t generalizing u with
  | nil =>
    cases u with
    | nil => rfl
    | cons f u => exact absurd (by simpa [tget] using (h f.1).symm) ((tabWf_cons d f u).mp hu).1
  | cons e t ih =>
    have we := (tabWf_cons d e t).mp ht
    cases u with
    | nil => exact absurd (by simpa [tget] using h e.1) we.1
    | cons f u =>
      have wf := (tabWf_cons d f u).mp hu
      rcases Nat.lt_trichotomy e.1 f.1 with hl | hl | hl
      · have := h e.1
        rw [tget_of_tabFrom d (f :: u) e.1 hu (by simpa [tabFrom] using hl)] at this
        exact absurd (by simpa [tget] using this) we.1
      · have hv : e.2 = f.2 := by simpa [tget, hl] using h e.1
        have hr : t = u := ih u we.2.2 wf.2.2 fun k => by
          by_cases hk : k = e.1
          · subst hk
            rw [tget_of_tabFrom d t e.1 we.2.2 we.2.1, tget_of_tabFrom d u e.1 wf.2.2 (hl ▸ wf.2.1)]
          · have hk' : k ≠ f.1 := hl ▸ hk
            simpa [tget, hk, hk'] using h k
        rw [hr, Prod.ext hl hv]
      · have := h f.1
        rw [tget_of_tabFrom d (e :: t) f.1 ht (by simpa [tabFrom] using hl)] at this
        exact absurd (by simpa [tget] using this.symm) wf.1

end Sys2Proof.Machine
end

