-- ==== Sys2Proof/Laws/Fields.lean ====
section
/-! SUPPORT. Bit fields of numbers, and fields and words of the state: what is put is read back, and what is not named reads as
before. -/

namespace Sys2Proof.Machine

/-! Bits. -/

theorem testBit_bits (n hi lo j : Nat) : (bits n hi lo).testBit j = (decide (j < hi + 1 - lo) && n.testBit (lo + j)) := by
  simp [bits, Nat.testBit_mod_two_pow, Nat.testBit_div_two_pow, Nat.add_comm]

theorem putBits_eq (n hi lo v : Nat) :
    putBits n hi lo v =
      2 ^ lo * (2 ^ (hi + 1 - lo) * (n / 2 ^ lo / 2 ^ (hi + 1 - lo)) + v % 2 ^ (hi + 1 - lo)) + n % 2 ^ lo := by
  have h1 := Nat.div_add_mod n (2 ^ lo)
  have h2 := Nat.div_add_mod (n / 2 ^ lo) (2 ^ (hi + 1 - lo))
  simp only [putBits, bits]
  generalize n / 2 ^ lo / 2 ^ (hi + 1 - lo) = q at *
  generalize n / 2 ^ lo % 2 ^ (hi + 1 - lo) = b at *
  generalize n % 2 ^ lo = r at *
  rw [← h2] at h1
  generalize 2 ^ (hi + 1 - lo) = w at *
  generalize 2 ^ lo = l at *
  have h3 : l * (w * q + b) = l * (w * q) + b * l := by ring
  have h4 : l * (w * q + v % w) = l * (w * q) + v % w * l := by ring
  omega

theorem testBit_putBits (n hi lo v i : Nat) :
    (putBits n hi lo v).testBit i = if lo ≤ i ∧ i < hi + 1 then v.testBit (i - lo) else n.testBit i := by
  rw [putBits_eq, Nat.testBit_two_pow_mul_add _ (Nat.mod_lt _ (by positivity))]
  by_cases h1 : i < lo
  · simp [h1, Nat.testBit_mod_two_pow, Nat.not_le.mpr h1]
  · rw [if_neg h1, Nat.testBit_two_pow_mul_add _ (Nat.mod_lt _ (by positivity))]
    by_cases h2 : i < hi + 1
    · have : i - lo < hi + 1 - lo := by omega
      simp [h2, this, Nat.testBit_mod_two_pow, Nat.not_lt.mp h1]
    · have h3 : ¬ i - lo < hi + 1 - lo := by omega
      simp only [h3, if_false, h2, and_false, Nat.testBit_div_two_pow]
      congr 1; omega

theorem bits_putBits_same (n hi lo v : Nat) (h : lo ≤ hi + 1) : bits (putBits n hi lo v) hi lo = v % 2 ^ (hi + 1 - lo) := by
  apply Nat.eq_of_testBit_eq; intro j
  rw [testBit_bits, testBit_putBits, Nat.testBit_mod_two_pow]
  by_cases hj : j < hi + 1 - lo
  · have : lo + j < hi + 1 := by omega
    simp [hj, this]
  · simp [hj]

theorem bits_putBits_other (n hi lo v hi' lo' : Nat) (h : hi' < lo ∨ hi < lo') :
    bits (putBits n hi lo v) hi' lo' = bits n hi' lo' := by
  apply Nat.eq_of_testBit_eq; intro j
  rw [testBit_bits, testBit_bits, testBit_putBits]
  by_cases hj : j < hi' + 1 - lo'
  · have : ¬ (lo ≤ lo' + j ∧ lo' + j < hi + 1) := by omega
    simp only [this, if_false]
  · simp [hj]

theorem putBits_lt (n hi lo v k : Nat) (hn : n < 2 ^ k) (hk : hi < k) : putBits n hi lo v < 2 ^ k := by
  apply Nat.lt_of_testBit k
  · rw [testBit_putBits, if_neg (by omega)]; exact Nat.testBit_lt_two_pow hn
  · exact Nat.testBit_two_pow_self
  · intro j hj
    rw [testBit_putBits, if_neg (by omega), Nat.testBit_lt_two_pow (Nat.lt_of_lt_of_le hn (Nat.pow_le_pow_right (by omega) (by omega))),
      Nat.testBit_two_pow_of_ne (by omega)]

theorem bits_lt (n hi lo : Nat) : bits n hi lo < 2 ^ (hi + 1 - lo) := Nat.mod_lt _ (by positivity)

theorem bitOf_or_self (n i : Nat) : bitOf (n ||| 2 ^ i) i = true := by simp [bitOf, Nat.testBit_two_pow_self]

theorem bitOf_or_other (n i j : Nat) (h : i ≠ j) : bitOf (n ||| 2 ^ i) j = bitOf n j := by
  simp [bitOf, Nat.testBit_two_pow_of_ne h]

@[simp] theorem b2n_true : b2n true = 1 := rfl
@[simp] theorem b2n_false : b2n false = 0 := rfl

/-! Words. -/

theorem State.n_lt (s : State) (k : Nat) : s.n k < 2 ^ 32 := (s.w k).isLt

theorem w32_toNat (n : Nat) (h : n < 2 ^ 32) : (w32 n).toNat = n := by
  rw [w32, BitVec.toNat_ofNat]; exact Nat.mod_eq_of_lt h

/-- The word just written. -/
@[simp] theorem State.setW_w_same (s : State) (k : Nat) (v : Word) : (s.setW k v).w k = v := tget_tset_same _ _ _ _

/-- Any other word. -/
theorem State.setW_w_other (s : State) (k k' : Nat) (v : Word) (h : k' ≠ k) : (s.setW k v).w k' = s.w k' :=
  tget_tset_other _ _ _ _ _ h

theorem State.setW_w (s : State) (k k' : Nat) (v : Word) : (s.setW k v).w k' = if k' = k then v else s.w k' :=
  tget_tset _ _ _ _ _

theorem State.setW_n_other (s : State) (k k' : Nat) (v : Word) (h : k' ≠ k) : (s.setW k v).n k' = s.n k' := by
  simp only [State.n, s.setW_w_other k k' v h]

theorem State.setW_get_other (s : State) (k : Nat) (v : Word) (f : Fld) (h : f.addr ≠ k) : (s.setW k v).get f = s.get f := by
  simp only [State.get, s.setW_n_other k f.addr v h]

theorem State.setW_get_same (s : State) (v : Word) (f : Fld) : (s.setW f.addr v).get f = bits v.toNat f.hi f.lo := by
  simp [State.get, State.n]

/-! Fields. -/

theorem State.put_w_other (s : State) (f : Fld) (v k : Nat) (h : k ≠ f.addr) : (s.put f v).w k = s.w k :=
  s.setW_w_other _ _ _ h

theorem State.put_n_same (s : State) (f : Fld) (v : Nat) (h : f.hi < 32) :
    (s.put f v).n f.addr = putBits (s.n f.addr) f.hi f.lo v := by
  simp only [State.put, State.setN, State.n, State.setW_w_same]
  exact w32_toNat _ (putBits_lt _ _ _ _ 32 (s.w f.addr).isLt h)

/-- A field reads what was put there, in its width. -/
theorem State.get_put_same (s : State) (f : Fld) (v : Nat) (h : f.hi < 32) (hl : f.lo ≤ f.hi + 1) :
    (s.put f v).get f = v % 2 ^ (f.hi + 1 - f.lo) := by
  rw [State.get, s.put_n_same f v h, bits_putBits_same _ _ _ _ hl]

/-- A field of another word, or of other bits of the same word. -/
theorem State.get_put_other (s : State) (f g : Fld) (v : Nat) (h : f.hi < 32)
    (hd : g.addr ≠ f.addr ∨ g.hi < f.lo ∨ f.hi < g.lo) : (s.put f v).get g = s.get g := by
  by_cases ha : g.addr = f.addr
  · rw [State.get, ha, s.put_n_same f v h, bits_putBits_other _ _ _ _ _ _ (by tauto), State.get, ha]
  · simp only [State.get, State.n, s.put_w_other f v g.addr ha]

theorem State.get_lt (s : State) (f : Fld) : s.get f < 2 ^ (f.hi + 1 - f.lo) := bits_lt _ _ _

/-- A one-bit field after putB. -/
theorem State.is_putB (s : State) (f : Fld) (b : Bool) (h : f.hi < 32) (hl : f.lo = f.hi) : (s.putB f b).is f = b := by
  have : (s.put f (b2n b)).get f = b2n b := by
    rw [s.get_put_same f _ h (by omega), show f.hi + 1 - f.lo = 1 by omega]; cases b <;> rfl
  rw [State.is, State.putB, this]; cases b <;> rfl

end Sys2Proof.Machine
end

