-- ==== Sys2Proof/Laws/Ops.lean ====
section
/-! SUPPORT. What the shared operations do: events and triggers, counters, the frame relations, folds, and the end of a command. -/

namespace Sys2Proof.Machine

/-! Folds keep what each of their steps keeps. -/

theorem State.each_induct {α : Type} (P : State → Prop) (f : State → α → State) (l : List α) (s : State) (h : P s)
    (hf : ∀ u x, x ∈ l → P u → P (f u x)) : P (s.each l f) := by
  induction l generalizing s with
  | nil => exact h
  | cons x l ih => exact ih _ (hf _ _ (by simp) h) fun u y hy => hf u y (by simp [hy])

theorem State.upto_induct (P : State → Prop) (f : State → Nat → State) (n : Nat) (s : State) (h : P s)
    (hf : ∀ u i, i < n → P u → P (f u i)) : P (s.upto n f) :=
  State.each_induct P f (List.range n) s h fun u i hi => hf u i (List.mem_range.mp hi)

/-! Frames: words. -/

theorem State.keeps_refl (s : State) (ks : List Nat) : s.keeps s ks := fun _ _ => rfl

theorem State.keeps_trans {s t u : State} {ks ls : List Nat} (h : s.keeps t ks) (h' : t.keeps u ls) : s.keeps u (ks ++ ls) :=
  fun k hk => (h' k fun x => hk (by simp [x])).trans (h k fun x => hk (by simp [x]))

theorem State.keeps_mono {s t : State} {ks ls : List Nat} (h : s.keeps t ks) (hl : ∀ k ∈ ks, k ∈ ls) : s.keeps t ls :=
  fun k hk => h k fun x => hk (hl k x)

theorem State.keeps_setW (s : State) (k : Nat) (v : Word) : s.keeps (s.setW k v) [k] :=
  fun k' h => s.setW_w_other k k' v (by simpa using h)

theorem State.keeps_put (s : State) (f : Fld) (v : Nat) : s.keeps (s.put f v) [f.addr] :=
  fun k h => s.put_w_other f v k (by simpa using h)

theorem State.keeps_of_words {s t : State} (h : t.words = s.words) (ks : List Nat) : s.keeps t ks :=
  fun k _ => State.w_congr s t h k

theorem State.keeps_settle {s t : State} {ks : List Nat} (h : s.keeps t ks) : s.keeps t.settle ks :=
  fun k hk => by rw [State.settle_w]; exact h k hk

theorem State.keeps_get {s t : State} {ks : List Nat} (h : s.keeps t ks) (f : Fld) (hf : f.addr ∉ ks) : t.get f = s.get f := by
  simp only [State.get, State.n, h _ hf]

/-! Frames: everything that is no register. -/

theorem State.regsOf_self (s : State) : s.regsOf s = s := rfl
theorem State.regsOf_setW (s : State) (k : Nat) (v : Word) : s.setW k v = s.regsOf (s.setW k v) := rfl
theorem State.regsOf_put (s : State) (f : Fld) (v : Nat) : s.put f v = s.regsOf (s.put f v) := rfl
theorem State.regsOf_settle (s : State) : s.settle = s.regsOf s.settle := by
  have h := s.settle_frame
  have hw : s.settle.words = s.words := s.settle_words
  have hk : s.settle.wmk = s.wmk := s.settle_wmk
  rw [State.regsOf, hw, hk]; exact h

theorem State.regsOf_trans {s t u : State} (h : t = s.regsOf t) (h' : u = t.regsOf u) : u = s.regsOf u := by
  rw [h'] ; rw [h]; rfl

/-! The end of a command. -/

/-- A command whose effect leaves u completes with u settled. -/
theorem gives_done {c : Instr} {s u : State} {P : State → Prop} (h : exec c s = done u) (hp : P u.settle) : Gives c s P :=
  ⟨u.settle, h, hp⟩

theorem gives_done_iff {c : Instr} {s u : State} {P : State → Prop} (h : exec c s = done u) : Gives c s P ↔ P u.settle := by
  constructor
  · rintro ⟨t, ht, hp⟩
    rw [h] at ht
    have : u.settle = t := by simpa [done] using ht
    rw [this]; exact hp
  · exact gives_done h

/-! Events. -/

theorem pageBase_mod (src : Nat) : pageBase src % 0x1000 = 0 := by
  have hr : ∀ r ∈ pageRows, r.2.2.2.2.2.1 % 0x1000 = 0 := by decide
  unfold pageBase pageOfSrc
  cases h : pageRows.find? (fun r => decide (r.1 ≤ src) && decide (src < r.1 + r.2.1)) with
  | none => norm_num
  | some r => exact (Nat.add_mul_mod_self_left _ _ _).trans (hr r (List.mem_of_find?_eq_some h))

theorem evKey_ne (src k : Nat) (h : k % 0x1000 ≠ 0x10) : k ≠ evKey src := by
  have := pageBase_mod src
  simp only [evKey]; omega

/-- While no EVENT bit is selected as trigger 3, an event only latches (R47, R63). -/
theorem State.latch_quiet (s : State) (src bit : Nat) (h : s.quiet = true) : s.latch src bit = s.orW (evKey src) (2 ^ bit) := by
  have ht : (s.orW (evKey src) (2 ^ bit)).get R.SNAP_TRIG_EN_EN = s.get R.SNAP_TRIG_EN_EN :=
    s.setW_get_other _ _ _ (evKey_ne src R.SNAP_TRIG_EN_EN.addr (by decide))
  simp only [State.latch, State.latches]
  split
  · rw [State.recogniseN, ht]
    have : bitOf (s.get R.SNAP_TRIG_EN_EN) 3 = false := by simpa [State.quiet] using h
    simp [this]
  · rfl

theorem State.quiet_congr {s t : State} (h : t.w 0x6080 = s.w 0x6080) : t.quiet = s.quiet := by
  have : t.n 0x6080 = s.n 0x6080 := by simp only [State.n, h]
  simp only [State.quiet, State.get, R.SNAP_TRIG_EN_EN, this]

/-- An event latches whatever else it does; without trigger 3 no other word changes. -/
theorem State.hasEvent_orW (s : State) (src bit : Nat) (h : bit < 32) : (s.orW (evKey src) (2 ^ bit)).hasEvent src bit = true := by
  simp only [State.hasEvent, State.orW_eq, State.n, State.setW_w_same]
  rw [w32_toNat _ (Nat.or_lt_two_pow (s.w _).isLt (Nat.pow_lt_pow_right (by omega) h))]
  exact bitOf_or_self _ _

theorem State.hasEvent_latch (s : State) (src bit : Nat) (h : bit < 32) (hq : s.quiet = true) :
    (s.latch src bit).hasEvent src bit = true := by rw [s.latch_quiet src bit hq]; exact s.hasEvent_orW src bit h

theorem State.keeps_latch (s : State) (src bit : Nat) (hq : s.quiet = true) : s.keeps (s.latch src bit) [evKey src] := by
  rw [s.latch_quiet src bit hq]; exact s.keeps_setW _ _

theorem State.regsOf_latch (s : State) (src bit : Nat) (hq : s.quiet = true) : s.latch src bit = s.regsOf (s.latch src bit) := by
  rw [s.latch_quiet src bit hq]; rfl

theorem State.quiet_latch (s : State) (src bit : Nat) (hq : s.quiet = true) : (s.latch src bit).quiet = true := by
  rw [State.quiet_congr (s.keeps_latch src bit hq _ (by simpa using evKey_ne src 0x6080 (by decide)))]; exact hq

/-! Counters. -/

theorem State.get_addW (s : State) (f : Fld) (n : Nat) (h : f.hi < 32) (hl : f.lo ≤ f.hi + 1) :
    (s.addW f n).get f = (s.get f + n) % 2 ^ (f.hi + 1 - f.lo) := s.get_put_same f _ h hl

theorem State.get_addS (s : State) (f : Fld) (n : Nat) (h : f.hi < 32) (hl : f.lo ≤ f.hi + 1) :
    (s.addS f n).get f = min (s.get f + n) (2 ^ (f.hi + 1 - f.lo) - 1) := by
  rw [State.addS, s.get_put_same f _ h hl, Nat.mod_eq_of_lt]
  have : 0 < 2 ^ (f.hi + 1 - f.lo) := by positivity
  omega

/-! The interrupt evaluation. -/

/-- A message request leaves what EVT has seen as it is. -/
theorem State.msixRequest_active (s : State) (v : Nat) : (s.msixRequest v).msix.active = s.msix.active := by
  simp only [State.msixRequest]; split
  · rfl
  · split <;> rfl

end Sys2Proof.Machine
end

