-- ==== Sys2Proof/Laws/Access.lean ====
section
/-! SUPPORT. What a register access does where the rules let it through: the fabric answers at once, the page takes the write, and
nothing else follows. -/

namespace Sys2Proof.Machine

/-! Bytes of a word. -/

theorem length_leBytes (n v : Nat) : (leBytes n v).length = n := by
  induction n generalizing v with
  | zero => rfl
  | succ n ih => simp [leBytes, ih]

theorem leNat_leBytes (n v : Nat) : leNat (leBytes n v) = v % 256 ^ n := by
  induction n generalizing v with
  | zero => simp [leBytes, leNat, Nat.mod_one]
  | succ n ih =>
    have h : v % 256 ^ (n + 1) = v % 256 + 256 * (v / 256 % 256 ^ n) := by rw [Nat.pow_succ', Nat.mod_mul]
    rw [leBytes, leNat, ih, BitVec.toNat_ofNat, h]

theorem w32_leBytes (v : Word) : w32 (leAt (leBytes 4 v.toNat) 0 4) = v := by
  have h : (leBytes 4 v.toNat).take 4 = leBytes 4 v.toNat := List.take_of_length_le (by rw [length_leBytes])
  rw [leAt, List.drop_zero, h, leNat_leBytes]
  have := v.isLt
  apply BitVec.eq_of_toNat_eq
  rw [w32, BitVec.toNat_ofNat]; omega

/-! After an access. -/

/-- Nothing waits and no remote access is at hand: nothing follows an access. -/
theorem State.afterAccess_idle (s : State) (h : s.fabricIdle = true) : s.afterAccess = s := by
  obtain ⟨⟨hw, hr⟩, hb⟩ : (s.waiting = [] ∧ s.ring.rraHere = none) ∧ s.boot.rest = none := by simpa [State.fabricIdle] using h
  simp [State.afterAccess, hw, hr, State.bootRest, hb]

/-- The parts of `sees`. -/
theorem State.sees_iff (s : State) (m a : Nat) (w : Bool) :
    s.sees m a w = true ↔ s.noRequest m = false ∧ s.fabricIdle = true ∧ targetOf a = 0 ∧ a % 4 = 0 ∧
      ∃ src, srcOf a = some src ∧ s.allowed m 0 a 4 w = true ∧ s.pageOn src = true := by
  cases hs : srcOf a <;> simp [State.sees, State.reaches, State.comes, hs, and_assoc]

/-- The parts of `takes`. -/
theorem State.takes_iff (s : State) (m a : Nat) :
    s.takes m a = true ↔ s.sees m a true = true ∧ a % 0x1000 ≠ 0x1C ∧ (∃ src, srcOf a = some src ∧ s.locked src = false) ∧
      s.pairLow a = none ∧ hidden m (s.locate m a) = 0 ∧ s.shadowRefused (s.locate m a) = false := by
  cases hs : srcOf a <;> simp [State.takes, hs, and_assoc]

/-- What the page answers to a write that the rules let through: a block may still refuse it. -/
def State.pageTakes (s : State) (m a : Nat) (v : Word) : Resp × State :=
  match s.blockRefuses a 0 v with
  | some u => (.terr, u)
  | none => (.ok, s.storeReg m a 0 v)

theorem State.writeReg_of_takes (s : State) (m a src : Nat) (v : Word) (h : s.takes m a = true) (hs : srcOf a = some src) :
    s.writeReg src m a v = s.pageTakes m a v := by
  obtain ⟨-, hl, ⟨src', hs', hk⟩, hp, hh, hsh⟩ := (s.takes_iff m a).mp h
  obtain rfl : src' = src := by simpa using hs'.symm.trans hs
  have hr : s.rwlRefused src' (s.locate m a) 0 v = false := by
    unfold State.rwlRefused; cases s.locate m a <;> simp [hk]
  simp only [State.writeReg, if_neg hl, hp, hh, if_true, hr, hsh, State.pageTakes]
  rfl

/-- The fabric passes the write to the page and reports its answer. -/
theorem State.request_of_takes (s : State) (m a : Nat) (v : Word) (h : s.takes m a = true) :
    s.request (MemReq.put m a (leBytes 4 v.toNat)) = (some ((s.pageTakes m a v).1, []), (s.pageTakes m a v).2) := by
  obtain ⟨-, -, ht, h4, src, hs, ha, hp⟩ := (s.sees_iff m a true).mp ((s.takes_iff m a).mp h).1
  have hc : s.regCheck m a 4 true = (none, s) := by simp [State.regCheck, h4, hs, ha, hp]
  have hr : s.reg32 m a 4 true v = ((s.pageTakes m a v).1, [], (s.pageTakes m a v).2) := by
    simp only [State.reg32, hc, hs, Option.getD_some, if_true]
    rw [s.writeReg_of_takes m a src v h hs]
  have hw : (MemReq.put m a (leBytes 4 v.toNat)).width = 4 := length_leBytes _ _
  have hd : w32 (leAt (MemReq.put m a (leBytes 4 v.toNat)).data 0 4) = v := w32_leBytes v
  have h7 : (0 : Nat) ≠ 7 := by decide
  have h8 : (4 : Nat) ≠ 8 := by decide
  simp only [State.request, hw, hd, show (MemReq.put m a (leBytes 4 v.toNat)).addr = a from rfl,
    show (MemReq.put m a (leBytes 4 v.toNat)).master = m from rfl, show (MemReq.put m a (leBytes 4 v.toNat)).write = true from rfl,
    show (MemReq.put m a (leBytes 4 v.toNat)).atomic = none from rfl, ht, hr, if_neg h7, if_neg h8, if_true, Option.isSome_none,
    Bool.false_eq_true, if_false, or_true]

/-- No register lies in an SRAM bank. -/
theorem atBank0_reg (a n : Nat) (h : targetOf a = 0) (hn : n ≤ 64) : atBank0 a n = false := by
  have ha : a < 0x1000000 := by
    simp only [targetOf] at h
    split at h
    · assumption
    · repeat' split at h
      all_goals simp at h
  have hw : wordsOf a n = [] := by
    have : (List.range n).filterMap (fun i => sramWord (a + i)) = [] := by
      rw [List.filterMap_eq_nil_iff]
      intro i hi
      have := List.mem_range.mp hi
      simp only [sramWord]
      repeat' split
      all_goals first | rfl | omega
    simp [wordsOf, this]
  simp [atBank0, hw]

/-- A request to a register goes through no regulator port. -/
theorem State.arrive_reg (s : State) (l : List MemReq) (r : MemReq) (h : targetOf r.addr = 0) : s.arrive l r = (r, s) := by
  simp [State.arrive, State.portBound, h]

/-- A register write that the rules let through (R52): what the page makes of it, its answer to the requester, and whatever it
lets go in the fabric. -/
theorem State.regWrite_of_takes (s : State) (m a : Nat) (v : Word) (h : s.takes m a = true) :
    s.regWrite m a v =
      ((s.pageTakes m a v).2.deliver (MemReq.put m a (leBytes 4 v.toNat)) ((s.pageTakes m a v).1, [])).afterAccess := by
  obtain ⟨hn, hi, -⟩ := (s.sees_iff m a true).mp ((s.takes_iff m a).mp h).1
  have hw : s.waiting = [] := by have := hi; simp only [State.fabricIdle, Bool.and_eq_true] at this; simpa using this.1.1
  have hb : s.blocked (MemReq.put m a (leBytes 4 v.toNat)) = false := by simp [State.blocked, State.writeWaits, hw]
  have hz : atBank0 (MemReq.put m a (leBytes 4 v.toNat)).addr (MemReq.put m a (leBytes 4 v.toNat)).width = false :=
    atBank0_reg _ _ ((s.sees_iff m a true).mp ((s.takes_iff m a).mp h).1).2.2.1 (by
      rw [show (MemReq.put m a (leBytes 4 v.toNat)).width = 4 from length_leBytes _ _]; omega)
  have hi : s.issue (MemReq.put m a (leBytes 4 v.toNat)) = (some ((s.pageTakes m a v).1, []), (s.pageTakes m a v).2) := by
    have ha : s.arrive s.waiting (MemReq.put m a (leBytes 4 v.toNat)) = (MemReq.put m a (leBytes 4 v.toNat), s) :=
      s.arrive_reg _ _ ((s.sees_iff m a true).mp ((s.takes_iff m a).mp h).1).2.2.1
    simp only [State.issue, State.direct, ha, hb, s.request_of_takes m a v h, State.arbVisit, hz, Bool.false_and, Bool.false_eq_true, if_false]
  unfold State.regWrite State.ask
  rw [show (MemReq.put m a (leBytes 4 v.toNat)).master = m from rfl, hn, hi]
  rfl

/-- The answer OK reaches its requester, or stays in RING where master 0x03 asked. -/
theorem State.deliver_put_ok (s : State) (m a : Nat) (d : List Byte) :
    s.deliver (MemReq.put m a d) (.ok, []) = { s with bus := s.told m .ok [] } := by
  by_cases hm : m = 3 <;> simp [State.deliver, MemReq.put, hm, State.told, State.answer]

/-- A register write that the page takes and that lets nothing go. -/
theorem State.regWrite_ok (s : State) (m a : Nat) (v : Word) (h : s.takes m a = true) (hb : s.blockRefuses a 0 v = none)
    (hw : (s.storeReg m a 0 v).fabricIdle = true) :
    s.regWrite m a v = { s.storeReg m a 0 v with bus := (s.storeReg m a 0 v).told m .ok [] } := by
  rw [s.regWrite_of_takes m a v h]
  simp only [State.pageTakes, hb, State.deliver_put_ok]
  exact State.afterAccess_idle _ hw

end Sys2Proof.Machine
end

