-- ==== Sys2Proof/Laws/Memory.lean ====
section
/-! SUPPORT. Memory: a byte reads what was written to it, every other byte reads as before, and every operation on SRAM and DRAM keeps
the canonical form of Memory.wf. -/

namespace Sys2Proof.Machine

/-! One byte, and bytes in a row. -/

@[simp] theorem State.byte_setByte_same (s : State) (a : Nat) (b : Byte) : (s.setByte a b).byte a = b := tget_tset_same _ _ _ _

theorem State.byte_setByte_other (s : State) (a x : Nat) (b : Byte) (h : x ≠ a) : (s.setByte a b).byte x = s.byte x :=
  tget_tset_other _ _ _ _ _ h

theorem State.byte_congr (s t : State) (h : t.mem = s.mem) (a : Nat) : t.byte a = s.byte a := by simp only [State.byte, h]

theorem State.bytes_congr (s t : State) (h : t.mem = s.mem) (a n : Nat) : t.bytes a n = s.bytes a n := by
  simp only [State.bytes, State.byte, h]

/-- Every byte outside the bytes stored reads as before. -/
theorem State.byte_putBytes_other (l : List Byte) (s : State) (a x : Nat) (h : x < a ∨ a + l.length ≤ x) :
    (s.putBytes a l).byte x = s.byte x := by
  induction l generalizing s a with
  | nil => rfl
  | cons b l ih =>
    simp only [List.length_cons] at h
    rw [State.putBytes, ih _ _ (by omega), s.byte_setByte_other _ _ _ (by omega)]

/-- The bytes stored read back. -/
theorem State.byte_putBytes (l : List Byte) (s : State) (a i : Nat) (h : i < l.length) :
    (s.putBytes a l).byte (a + i) = l[i] := by
  induction l generalizing s a i with
  | nil => simp at h
  | cons b l ih =>
    rw [State.putBytes]
    cases i with
    | zero => rw [State.byte_putBytes_other _ _ _ _ (by omega)]; simp
    | succ i =>
      rw [show a + (i + 1) = a + 1 + i by omega, ih _ _ _ (by simpa using h)]; simp

theorem State.bytes_putBytes (s : State) (a : Nat) (l : List Byte) : (s.putBytes a l).bytes a l.length = l := by
  apply List.ext_getElem
  · simp [State.bytes]
  · intro i h1 h2
    simp only [State.bytes, List.getElem_map, List.getElem_range]
    exact State.byte_putBytes l s a i h2

/-- Only memory changes. -/
theorem State.putBytes_frame (l : List Byte) (s : State) (a : Nat) : s.putBytes a l = { s with mem := (s.putBytes a l).mem } := by
  induction l generalizing s a with
  | nil => rfl
  | cons b l ih => rw [State.putBytes, ih (s.setByte a b) (a + 1)]; rfl

@[simp] theorem State.putBytes_w (s : State) (a : Nat) (l : List Byte) (k : Nat) : (s.putBytes a l).w k = s.w k :=
  State.w_congr _ _ (congrArg State.words (s.putBytes_frame l a) :) k

@[simp] theorem State.putBytes_get (s : State) (a : Nat) (l : List Byte) (f : Fld) : (s.putBytes a l).get f = s.get f :=
  State.get_congr _ _ (congrArg State.words (State.putBytes_frame l s a) :) f

/-! What latching an event leaves as it is. -/

@[simp] theorem State.recogniseN_mem (s : State) (t n late : Nat) : (s.recogniseN t n late).mem = s.mem := by
  simp only [State.recogniseN]; split
  · rfl
  · split
    · simp [State.addS_eq]
    · rfl

@[simp] theorem State.recognise_mem (s : State) (t : Nat) : (s.recognise t).mem = s.mem := s.recogniseN_mem t 1 0

@[simp] theorem State.latches_mem (s : State) (src bit n : Nat) : (s.latches src bit n).mem = s.mem := by
  simp only [State.latches]; split <;> simp

@[simp] theorem State.latch_mem (s : State) (src bit : Nat) : (s.latch src bit).mem = s.mem := s.latches_mem src bit 1

/-! What the blocks' own copies leave as it is. -/

theorem State.ite_mem {c : Prop} [Decidable c] {s u v : State} (hu : u.mem = s.mem) (hv : v.mem = s.mem) :
    (if c then u else v).mem = s.mem := by split <;> assumption

@[simp] theorem State.convSet_mem (s : State) (v : Nat) (r : Int) (it : ConvItem) : (s.convSet v r it).mem = s.mem := by
  cases it <;> simp only [State.convSet] <;> try split
  all_goals rfl

@[simp] theorem State.convBytes_mem (s : State) (a : Nat) (d : List Byte) : (s.convBytes a d).mem = s.mem := by
  unfold State.convBytes
  generalize d.zipIdx = l
  induction l generalizing s with
  | nil => rfl
  | cons x l ih =>
    rw [List.foldl_cons, ih]
    simp only [apply_ite State.mem, State.convSet_mem, ite_self]

@[simp] theorem State.loseConv_mem (s : State) (a : Nat) : (s.loseConv a).mem = s.mem := by
  simp only [State.loseConv]; split
  · refine State.upto_induct (fun u => u.mem = s.mem) _ _ s rfl fun u i _ hu =>
      State.ite_mem ((u.convSet_mem _ _ _).trans hu) hu
  · rfl

@[simp] theorem State.loseSheet_mem (s : State) (a : Nat) : (s.loseSheet a).mem = s.mem := by
  simp only [State.loseSheet]; split
  · rfl
  · simp only [State.draw]; split <;> rfl

@[simp] theorem State.loseKept_mem (s : State) (x : Kept) : (s.loseKept x).mem = s.mem := by cases x <;> rfl

@[simp] theorem State.loseState_mem (s : State) (a : Nat) : (s.loseState a).mem = s.mem := by
  simp only [State.loseState]; split
  · rfl
  · simp only [State.draw, State.each]
    generalize ((s.keptAt a).drop _).take _ = l
    suffices H : ∀ u : State, (l.foldl State.loseKept u).mem = u.mem from H _
    induction l with
    | nil => exact fun _ => rfl
    | cons x l ih => intro u; rw [List.foldl_cons, ih, State.loseKept_mem]

@[simp] theorem State.loseBuf_mem (s : State) (b : BufWord) : (s.loseBuf b).mem = s.mem := by cases b <;> rfl

@[simp] theorem State.losePacket_mem (s : State) (a : Nat) : (s.losePacket a).mem = s.mem := by
  simp only [State.losePacket]; split
  · rfl
  · simp only [State.draw]; split
    · rw [State.loseBuf_mem]
    · rfl

@[simp] theorem State.loseRecords_mem (s : State) (a : Nat) : (s.loseRecords a).mem = s.mem := by
  simp only [State.loseRecords]; split <;> rfl

@[simp] theorem State.bankBytes_mem (s : State) (a : Nat) (d : List Byte) : (s.bankBytes a d).mem = s.mem := by
  unfold State.bankBytes
  generalize d.zipIdx = l
  induction l generalizing s with
  | nil => rfl
  | cons x l ih =>
    rw [List.foldl_cons, ih]
    have hs : ∀ k v, (s.setN k v).mem = s.mem := fun k v => s.setW_mem k _
    simp only [apply_ite State.mem, hs, ite_self]

@[simp] theorem State.ownBytes_mem (s : State) (a : Nat) (d : List Byte) : (s.ownBytes a d).mem = s.mem := by simp [State.ownBytes]

@[simp] theorem State.poisonCount_mem (s : State) : s.poisonCount.mem = s.mem := by simp [State.poisonCount]
@[simp] theorem State.poisonWord_mem (s : State) (m w : Nat) : (s.poisonWord m w).mem = s.mem := by simp [State.poisonWord]
@[simp] theorem State.countCorrected_mem (s : State) (w : Nat) : (s.countCorrected w).mem = s.mem := by
  simp only [State.countCorrected, State.latch_mem]; split <;> simp
@[simp] theorem State.healWord_mem (s : State) (w : Nat) : (s.healWord w).mem = s.mem := by
  simp only [State.healWord]; split <;> simp

/-! The canonical form. -/

theorem State.reset_mem_wf : Memory.wf State.reset.mem := rfl

theorem State.setByte_wf (s : State) (a : Nat) (b : Byte) (h : Memory.wf s.mem) : Memory.wf (s.setByte a b).mem :=
  tabWf_tset _ _ _ _ h

theorem State.putBytes_wf (l : List Byte) (s : State) (a : Nat) (h : Memory.wf s.mem) : Memory.wf (s.putBytes a l).mem := by
  induction l generalizing s a with
  | nil => exact h
  | cons b l ih => exact ih _ _ (s.setByte_wf a b h)

theorem State.filter_wf (m : Tab Byte) (p : Nat × Byte → Bool) (h : Memory.wf m) : Memory.wf (m.filter p) := tabWf_filter _ _ _ h

theorem State.xorBytes_wf (s : State) (a n e : Nat) (h : Memory.wf s.mem) : Memory.wf (s.xorBytes a n e).mem := by
  suffices H : ∀ (l : List Nat) (u : State), Memory.wf u.mem →
      Memory.wf (l.foldl (fun s i => s.setByte (a + i) (s.byte (a + i) ^^^ BitVec.ofNat 8 (errByte e i))) u).mem from H _ s h
  intro l
  induction l with
  | nil => intro u hu; exact hu
  | cons i l ih => intro u hu; exact ih _ (u.setByte_wf _ _ hu)

theorem State.correctWord_mem (s : State) (w e d : Nat) :
    (s.correctWord w e d).mem = (s.xorBytes (sramBase w) 24 (e ^^^ d)).mem := by
  have h : ∀ x : State, (if d = 0 then x.setSramErr w 0 else (x.setSramErr w 0).countCorrected w).mem = x.mem := by
    intro x; split <;> simp
  exact h _

theorem State.correctWord_wf (s : State) (w e d : Nat) (h : Memory.wf s.mem) : Memory.wf (s.correctWord w e d).mem := by
  rw [State.correctWord_mem]; exact s.xorBytes_wf _ _ _ h

theorem State.readWord_wf (s : State) (m w : Nat) (h : Memory.wf s.mem) : Memory.wf (s.readWord m w).2.mem := by
  unfold State.readWord
  by_cases hp : s.poisoned w = true
  · simpa [hp] using h
  · by_cases he : tget zeroAt s.sramErr w = 0
    · simpa [hp, he] using h
    · cases hd : rsDecode 28 (tget zeroAt s.sramErr w) with
      | none => simpa [hp, he, hd] using h
      | some d => simpa [hp, he, hd] using s.correctWord_wf w _ d h

theorem State.writeWord_wf (s : State) (m a : Nat) (d : List Byte) (w : Nat) (h : Memory.wf s.mem) :
    Memory.wf (s.writeWord m a d w).2.mem := by
  simp only [State.writeWord]
  split
  · rw [State.ownBytes_mem]; exact State.putBytes_wf _ _ _ (by simpa using h)
  · split
    · simpa using h
    · split
      · rw [State.ownBytes_mem]; exact State.putBytes_wf _ _ _ (s.readWord_wf m w h)
      · exact s.readWord_wf m w h

theorem foldWf (f : State → Nat → Bool × State) (hf : ∀ s w, Memory.wf s.mem → Memory.wf (f s w).2.mem) (l : List Nat)
    (r : Bool × State) (h : Memory.wf r.2.mem) :
    Memory.wf (l.foldl (fun r w => ((r.1 && (f r.2 w).1, (f r.2 w).2) : Bool × State)) r).2.mem := by
  induction l generalizing r with
  | nil => exact h
  | cons w l ih => exact ih _ (hf _ _ h)

theorem State.sramStore_wf (s : State) (m a : Nat) (d : List Byte) (h : Memory.wf s.mem) : Memory.wf (s.sramStore m a d).2.mem :=
  foldWf (fun s w => s.writeWord m a d w) (fun s w hs => s.writeWord_wf m a d w hs) _ _ h

theorem State.sramLoad_wf (s : State) (m a n : Nat) (h : Memory.wf s.mem) : Memory.wf (s.sramLoad m a n).2.mem :=
  foldWf (fun s w => s.readWord m w) (fun s w hs => s.readWord_wf m w hs) _ (true, s) h

theorem State.sramInit_wf (s : State) (h : Memory.wf s.mem) : Memory.wf s.sramInit.mem := State.filter_wf _ _ h

@[simp] theorem State.bankAccess_mem (s : State) (c l : Nat) : (s.bankAccess c l).mem = s.mem := by
  simp [State.bankAccess, State.rowOpen, State.setChan]

@[simp] theorem State.checkAccess_mem (s : State) (c o : Nat) (w : Bool) : (s.checkAccess c o w).mem = s.mem := by
  simp only [State.checkAccess, State.setChan]; repeat' split
  all_goals simp

@[simp] theorem State.lineAccess_mem (s : State) (c o : Nat) (w : Bool) : (s.lineAccess c o w).mem = s.mem := by
  simp [State.lineAccess]

@[simp] theorem State.dramUe_mem (s : State) (c m a : Nat) (w : Bool) : (s.dramUe c m a w).mem = s.mem := by simp [State.dramUe]

theorem State.correctLine_mem (s : State) (c l e d : Nat) :
    (s.correctLine c l e d).mem = (s.xorBytes (64 * l) 64 (e ^^^ d)).mem := by
  have h : ∀ x : State, (if d = 0 then x.setDramErr l 0
      else ((x.setDramErr l 0).addW (R.DRC_CE_CNT_COUNT.pg c) 1).latch (eDRC c) 0).mem = x.mem := by
    intro x; split <;> simp
  exact h _

theorem State.correctLine_wf (s : State) (c l e d : Nat) (h : Memory.wf s.mem) : Memory.wf (s.correctLine c l e d).mem := by
  rw [State.correctLine_mem]; exact s.xorBytes_wf _ _ _ h

theorem State.readLine_wf (s : State) (c o m a : Nat) (w : Bool) (h : Memory.wf s.mem) : Memory.wf (s.readLine c o m a w).2.mem := by
  unfold State.readLine
  by_cases he : tget zeroAt s.dramErr (a / 64) = 0
  · simpa [he] using h
  · cases hd : rsDecode 68 (tget zeroAt s.dramErr (a / 64)) with
    | none => simpa [he, hd] using h
    | some d =>
      have hc := s.correctLine_wf c (a / 64) (tget zeroAt s.dramErr (a / 64)) d h
      by_cases hw : d = 0 ∨ w = true
      · simpa [he, hd, hw] using hc
      · simpa [he, hd, hw] using hc

theorem State.putDram_wf (s : State) (a : Nat) (d : List Byte) (h : Memory.wf s.mem) : Memory.wf (s.putDram a d).mem := by
  simp only [State.putDram]; split
  · exact State.putBytes_wf _ _ _ h
  · exact State.putBytes_wf _ _ _ h

theorem State.dramLoad_wf (s : State) (c o m a n : Nat) (h : Memory.wf s.mem) : Memory.wf (s.dramLoad c o m a n).2.mem :=
  State.readLine_wf _ c o m a false (by simpa using h)

theorem State.dramStore_wf (s : State) (c o m a : Nat) (d : List Byte) (h : Memory.wf s.mem) :
    Memory.wf (s.dramStore c o m a d).2.mem := by
  simp only [State.dramStore]
  split
  · exact State.putDram_wf _ _ _ (by simpa using h)
  · have hr := State.readLine_wf (s.lineAccess c o false) c o m a true (by simpa using h)
    split
    · exact State.putDram_wf _ _ _ (by simpa using hr)
    · exact hr

theorem State.reImage_mem (s o : State) : (s.reImage o).mem = s.mem := rfl

theorem State.dramZero_wf (s : State) (c : Nat) (h : Memory.wf s.mem) : Memory.wf (s.dramZero c).mem := by
  rw [State.dramZero, State.reImage_mem]; exact State.filter_wf _ _ h

end Sys2Proof.Machine
end

