-- ==== Sys2Proof/Tests/Slice0.lean ====
section
/-! SUPPORT. Tests: ill-formed commands, instruction words, a few single steps; and for every clause with hypotheses of every
statement a state and operands that meet them all (witness_<clause>, under the statement's name). -/

namespace Sys2Proof.Tests

open Sys2Proof.Machine

section

set_option Elab.async false
set_option maxRecDepth 100000

/-- A state after reset with some words given, and the straps, the role and the fused temperature offset at 0. -/
def stW (ws : List (Nat × Nat)) : State :=
  { State.reset with
    words := ws.map (fun e => (e.1, w32 e.2)) ++ [(0x90, 0), (0x98, 0), (0x4080, 0), (0x4084, 0), (0x4088, 0), (0x408C, 0)] ++ State.reset.words }

/-- Every domain on, in RUN. -/
def live (ws : List (Nat × Nat)) : State :=
  { stW (ws ++ [(0x1088, 0x3FFF), (0x9C, 3)]) with clk := ClkSt.reset, pwr := PwrSt.reset }

def default0 : RegSpec := hdrSpec 0 0 0 0 0 0

/-- A program image of one word. -/
def img : List Byte := [1, 0, 0, 0, 0, 0, 0, 0, 0, 0, 0, 0, 0, 0, 0, 0, 7, 0, 0, 0]

/-! Ill-formed commands, one for each check. -/

theorem test_wf_master : (Instr.measPush 0x05).wf = false := by decide
theorem test_wf_master_ok : (Instr.measPush 0x3F).wf = true := by decide
theorem test_wf_width : (Instr.registerWrite 0 0x80 3 0).wf = false := by decide
theorem test_wf_narrow_read : (Instr.tmrRead 0 0xA0100 8).wf = false := by decide
theorem test_wf_burst : (Instr.pcieRegisterBurst 0 0 true (List.replicate 1025 0)).wf = false := by decide +kernel
theorem test_tap_bypass : tapInstr 0x33 = .bypass := by decide
theorem test_wf_frame : (Instr.frameReceive 0 (List.replicate 16385 0) false).wf = false := by decide +kernel
theorem test_wf_host_bytes : (Instr.ringTailWrite 0 0 0 0 [(5, 1), (5, 2)]).wf = false := by decide
theorem test_wf_record : (Instr.metadataPush 0 0 31 [1, 2]).wf = false := by decide
theorem test_wf_missing : (Instr.tailFetchDeadline 0 [3, 3]).wf = false := by decide
theorem test_wf_sram_read : (Instr.sramRead 0 0x10000000 65).wf = false := by decide
theorem test_wf_sram_write : (Instr.sramWrite 0 0x10000000 (List.replicate 65 0)).wf = false := by decide +kernel
theorem test_wf_closing : (Instr.closingWrite 0 0x117C0000 (List.replicate 65 0)).wf = false := by decide +kernel
theorem test_wf_pcie : (Instr.pcieMemoryRequest 0 0x10000000 true (List.replicate 4097 none)).wf = false := by decide +kernel
theorem test_wf_dram_read : (Instr.dramRead 0 0x1000000000 65).wf = false := by decide
theorem test_wf_dram_write : (Instr.dramWrite 0 0x1000000000 (List.replicate 65 0)).wf = false := by decide +kernel
theorem test_wf_results : (Instr.dramInitDone (List.replicate 5 .fail)).wf = false := by decide
theorem test_wf_stamps : (Instr.apsalFrameReceive 0 [] 5 4).wf = false := by decide
theorem test_wf_table : (Instr.pressTable []).wf = false := by decide
theorem test_wf_bulk : (Instr.bulkWrite 0 [1]).wf = false := by decide
theorem test_wf_fill : (Instr.bootFill false 0 (2 ^ 32) 0).wf = false := by decide

/-! Instruction words of the insert engines, each written out bit by bit from R327 and R328. -/

-- 001000 000000001010 00000001100100
theorem test_word_loop : decodeIe 0 0x20028064 = some (.ieLoop 0 10 100) := by decide
-- 001010 000000000 1 000 10000 000 00001
theorem test_word_flag : decodeIe 0 0x28011001 = some (.ieFlag 0 true 0x10 1) := by decide
-- 010111 0 0001 0010 00000000000 1 00100
theorem test_word_srai : decodeIe 0 0x5C240024 = some (.ieSrai 0 1 2 4 true) := by decide
-- 011011 0 0000 0010 11111111111111111
theorem test_word_cmpi : decodeIe 0 0x6C05FFFF = some (.ieCmpi 0 2 (-1)) := by decide
-- 100011 0 0001 0010 0 1111111111111111
theorem test_word_ori : decodeIe 0 0x8C24FFFF = some (.ieOri 0 1 2 0xFFFF) := by decide
-- 101001 0 0011 101 01 1111111111111110
theorem test_word_st : decodeIe 0 0xA475FFFE = some (.ieSt 0 3 5 1 (-2)) := by decide
-- 101010 0 0111 000000000000000 100001
theorem test_word_mvta : decodeIe 0 0xA8E00021 = some (.ieMvta 0 33 7) := by decide
-- 110001 1 010 0001 0010 0011 0100 1 0 0000
theorem test_word_dmac : decodeIe 0 0xC6848D20 = some (.ieDmac 0 true 2 1 2 3 4 true false) := by decide
-- 110010 0 001 010 01 011 10 000000 0 1 0000
theorem test_word_mxy : decodeIe 0 0xC852E010 = some (.ieMxy 0 false 1 2 1 3 2 false true) := by decide
-- 110100 1 1001 100 000 00011110 1 000000
theorem test_word_sac : decodeIe 0 0xD3300F40 = some (.ieSac 0 true 9 4 30 true) := by decide
-- 111001 00000000000 00001111 0000000
theorem test_word_clra : decodeIe 0 0xE4000780 = some (.ieClra 0 0x0F) := by decide
-- 001011 is reserved
theorem test_word_reserved : decodeIe 0 0x2C000000 = none := by decide

/-! No row of the opcode table gives bits. -/

theorem test_table_words : decodeTableWord 32 0x42A44000 = none := by decide
theorem test_fetch_none : State.reset.withFetchWord 32 5 = State.reset := rfl

/-! Single steps. -/

/-- What holds of the state that a command leaves. -/
def after (c : Instr) (s : State) (p : State → Bool) : Bool :=
  match step { s with pending := [c] } with
  | .next t => p t
  | _ => false

/-- Engine 0 runs, with data and special registers given. -/
def engine (d : List (Nat × Word)) (sp : List (Nat × Nat)) : State :=
  { live [(0x9000C, 3)] with ies := [(0, { IeSt.reset with d := d, sp := sp })] }

-- R323: with b1 = 0x400, l1 = 256 and a1 = 0x4F0, a write of l1 := 200 gives a1 = 0x428
theorem test_mvta_wraps : after (.ieMvta 0 17 3) (engine [(3, 200)] [(1, 0x4F0), (9, 0x400), (17, 256)])
    (fun t => (t.ie 0).spec 1 == 0x428) = true := by decide +kernel
-- R323: a post-modify by m1 = 180 then gives 0x414
theorem test_moda_wraps : after (.ieModa 0 1 3) (engine [] [(1, 0x428), (9, 0x400), (17, 200), (25, 180)])
    (fun t => (t.ie 0).spec 1 == 0x414) = true := by decide +kernel
-- R47: writing 1 clears, writing 0 keeps, and a cause in the same clock wins
theorem test_event_clear : after (.eventClear 0 3 5 4) (live [(0x3010, 7)]) (fun t => t.n 0x3010 == 6) = true := by decide +kernel
-- R350: the scrubber visits the next word
theorem test_scrub : after .scrubVisit (live [(0xA8008, 1), (0xA8084, 5)]) (fun t => t.get R.SRAM_SCRUB_POS_WORD == 6) = true := by decide +kernel
-- R449: STANDBY after reset, and a register that the spec gives a reset value (R13: L = 72)
theorem test_reset_mode : State.reset.mode = mStandby := by decide +kernel
theorem test_reset_latency : State.reset.get R.PRESS_PRES_LAT_L = 72 := by decide +kernel
-- R341: the last word of shared SRAM, and the first byte of a hole
theorem test_sram_last : sramWord 0x117FFFFF = some 1048575 := by decide
theorem test_sram_hole : sramWord 0x200C0000 = none := by decide
-- the canonical form: writing zero removes the entry
theorem test_mem_canonical : ((State.reset.setByte 0x10000000 5).setByte 0x10000000 0).mem = [] := by decide +kernel

/-! SheetTiming. -/

theorem witness_sheetBoundary : ∃ (s : State), (s.awake) :=
  ⟨live [], by decide +kernel⟩

theorem witness_sheetBoundaryOff : ∃ (s : State), (!s.awake) :=
  ⟨{ live [] with pwr := { PwrSt.reset with off := true } }, by decide +kernel⟩

theorem witness_stageStart : ∃ (s : State) (x : Stage), (s.stageReady x) :=
  ⟨{ live [] with rxCut := 0 }, .icb, by decide +kernel⟩

theorem witness_stageStartNot : ∃ (s : State) (x : Stage), (!s.stageReady x) :=
  ⟨live [], .out, by decide +kernel⟩

theorem witness_stageComplete : ∃ (s : State) (x : Stage), ((s.stage (stageId x)).busy) ∧ (x ≠ .mix ∨ (s.stage (stageId x)).next < s.exchCut) :=
  ⟨{ live [] with stages := [(42, ⟨0, true⟩)] }, .out, by decide +kernel⟩

theorem witness_stageCompleteNot : ∃ (s : State) (x : Stage), (!(s.stage (stageId x)).busy || (x == .mix && decide (s.exchCut ≤ (s.stage (stageId x)).next))) :=
  ⟨live [], .out, by decide +kernel⟩

theorem witness_stageTree : ∃ (s : State), (s.stageReady .tree) ∧ (s.badWords = []) ∧ (s.quiet) :=
  ⟨{ live [(0x70008, 1)] with slot := 1, rxCut := 1, stages := [(40, ⟨1, false⟩)] ++ (List.range 32).map (fun v => (8 + v, ⟨2, false⟩)), partials := [(32, [(3, [5, -7, 2147483647, 0, 0, 1]), (515, [9, 0, 0, 0, 0, 0])]), (33, [(3, [1, 1, 1, 1, 1, 1])])] }, by decide +kernel⟩

theorem witness_stageVatEmpty : ∃ (s : State) (v : Fin 32), (s.stageReady (.vat v)) ∧ (s.badWords = []) ∧ (s.vatObjs v.val (s.stage (stageId (.vat v))).next = []) ∧ (s.objsGone (s.stage (stageId (.vat v))).next = []) :=
  ⟨{ live [] with rxCut := 0, stages := [(1, ⟨1, false⟩), (2, ⟨1, false⟩), (3, ⟨1, false⟩), (4, ⟨1, false⟩)], partials := [(1, [(3, [1])])] }, 0, by decide +kernel⟩

theorem witness_stageIcb : ∃ (s : State) (k : Nat) (r : List Nat) (cs : List Nat), (s.stageReady .icb) ∧ (s.badWords = []) ∧ (s.is R.ICB0_C_EN) ∧ (s.icbSources = [(k, r, cs)]) ∧ (rSync r) ∧ (cs.Nodup) ∧ (cs.all fun c => (chFir (s.icbCh 1 c)).isNone) ∧ (s.icbIdle cs = []) ∧ ((s.stage (stageId .icb)).next < 2 ^ 64) ∧ (s.icbN + 1 < 2 ^ 64) :=
  ⟨{ live [(0x30008, 1), (0x20008, 1), (winKey 13 1 96, 0x81), (winKey 13 1 97, 5)] with slot := 1, rxCut := 1, stages := [(0, ⟨1, false⟩)], rx := [(3, RxCtx.init)], audio := [(aKey aRaw 5 1, [1, 2, 3, 4, 5, 6])] }, 3, [0x81, 5] ++ List.replicate 30 0, [5], by decide +kernel⟩

theorem witness_stageOut : ∃ (s : State), (s.stageReady .out) ∧ (s.badWords = []) ∧ (s.is R.OUT0_C_EN) ∧ (s.quiet) :=
  ⟨{ live [(0x78008, 1), (0x79080, 6), (0x790C0, 4)] with stages := [(41, ⟨1, false⟩)] }, by decide +kernel⟩

theorem witness_stageOutOff : ∃ (s : State), (s.stageReady .out) ∧ (!s.is R.OUT0_C_EN) :=
  ⟨{ live [] with stages := [(41, ⟨1, false⟩)] }, by decide +kernel⟩

theorem witness_receiveCutOff : ∃ (s : State), (s.rxCut < (s.sheet : Int)) :=
  ⟨{ live [(0x20008, 1)] with hsi := 12 }, by decide +kernel⟩

theorem witness_sendCutOff : ∃ (s : State), (s.sendCut ≤ s.slot) :=
  ⟨live [(0x24008, 1)], by decide +kernel⟩

theorem witness_packetLaunch : ∃ (s : State), (s.pageOn eTXS) ∧ (s.is R.TXS0_C_EN) ∧ (!s.is R.TXS0_S_GATE_OPEN) ∧ ((s.tx.map Prod.fst).Nodup) ∧ (!s.badWords.any packetRead.holds) :=
  ⟨{ live [(0x24008, 1)] with hsi := 6, macs := State.reset.macs, tx := [(3, { TxCtx.init with cur := some ⟨[1 + 0x100, 0, 0, 0], 0, 5, 0, none, List.replicate 6 [0], List.replicate 6 false⟩ }), (9, { TxCtx.init with cur := some ⟨[1 + 0x200, 0, 0, 0], 0, 9, 0, none, List.replicate 5 [0], List.replicate 5 false⟩, olds := [⟨[1 + 0x100, 0, 0, 0], 0, 7, 0, some 1, List.replicate 1 [0], List.replicate 1 false⟩] })] }, by decide +kernel⟩

theorem witness_packetLaunchOpen : ∃ (s : State), (s.pageOn eTXS) ∧ (s.is R.TXS0_C_EN) ∧ (s.is R.TXS0_S_GATE_OPEN) ∧ ((s.tx.map Prod.fst).Nodup) ∧ (!s.badWords.any packetRead.holds) ∧ (s.macs.length = 4) ∧ ((List.range 4).all fun p => s.portOn p && decide (s.txBuffered p + ((s.frames p).map fun f => f.bytes.length + 4).sum ≤ 98304)) :=
  ⟨{ live [(0x24008, 1), (0x2400C, 1)] with hsi := 6, macs := State.reset.macs, tx := [(3, { TxCtx.init with cur := some ⟨[1 + 0x100, 0, 0, 0], 0, 5, 0, none, List.replicate 6 [0], List.replicate 6 false⟩ }), (9, { TxCtx.init with cur := some ⟨[1 + 0x200, 0, 0, 0], 0, 9, 0, none, List.replicate 5 [0], List.replicate 5 false⟩, olds := [⟨[1 + 0x100, 0, 0, 0], 0, 7, 0, some 1, List.replicate 1 [0], List.replicate 1 false⟩] })] }, by decide +kernel⟩

theorem witness_packetLaunchIdle : ∃ (s : State), (s.pageOn eTXS) ∧ (!s.is R.TXS0_C_EN) ∧ ((s.tx.map Prod.fst).Nodup) :=
  ⟨{ live [] with hsi := 6, tx := [(3, { TxCtx.init with cur := some ⟨[1 + 0x100, 0, 0, 0], 0, 5, 0, none, List.replicate 6 [0], List.replicate 6 false⟩ })] }, by decide +kernel⟩

theorem witness_packetLaunchOff : ∃ (s : State), (!s.pageOn eTXS) :=
  ⟨{ live [] with held := 0x4 }, by decide +kernel⟩

/-! StepRunsTheFrontCommand. -/

theorem witness_step : ∃ (s : State) (c : Instr) (rest : List Instr), s.pending = c :: rest :=
  ⟨{ State.reset with pending := [.snapInEdge] }, .snapInEdge, [], rfl⟩

/-! RegisterWriteMerges. -/

theorem witness_registerWrite : ∃ (s : State) (m : Master) (a : Addr) (v : Word) (l : Loc), (s.stores m.toNat a.toNat l v) ∧ (hidden m.toNat (some l) = 0) :=
  ⟨live [], 0, 0x1094, 5, ⟨0x1094, ((regOf 0x1094).getD (default0, 0)).1⟩, by decide +kernel⟩

theorem witness_registerWriteGuarded : ∃ (s : State) (m : Master) (a : Addr) (v : Word) (l : Loc), (s.stores m.toNat a.toNat l v) ∧ (hidden m.toNat (some l) ≠ 0) ∧ (s.quiet) ∧ (s.pageOn eFAB) ∧ (srcOf a.toNat ≠ some eFAB) :=
  ⟨live [], 1, 0x1094, 5, ⟨0x1094, ((regOf 0x1094).getD (default0, 0)).1⟩, by decide +kernel⟩

theorem witness_registerWriteLocked : ∃ (s : State) (m : Master) (a : Addr) (src : Nat) (v : Word) (l : Loc), (s.sees m.toNat a.toNat true) ∧ (srcOf a.toNat = some src) ∧ (s.locate m.toNat a.toNat = some l) ∧ ((s.pairLow a.toNat).isNone) ∧ (a.toNat % 0x1000 ≠ 0x1C) ∧ (hidden m.toNat (some l) = 0) ∧ (s.rwlRefused src (some l) 0 v) ∧ (s.quiet) :=
  ⟨live [(0x401C, 1)], 0, 0x4084, 4, 5, ⟨0x4084, ((regOf 0x4084).getD (default0, 0)).1⟩, by decide +kernel⟩

theorem witness_registerWriteOff : ∃ (s : State) (m : Master) (a : Addr) (src : Nat) (_v : Word), (s.comes m.toNat a.toNat 4) ∧ (a.toNat % 4 = 0) ∧ (srcOf a.toNat = some src) ∧ (s.allowed m.toNat 0 a.toNat 4 true) ∧ (!s.pageOn src) ∧ (s.quiet) :=
  ⟨{ live [] with held := 0x800 }, 0, 0x79080, 38, 5, by decide +kernel⟩

theorem witness_registerReadOff : ∃ (s : State) (m : Master) (a : Addr) (n : Nat) (src : Nat), (s.comes m.toNat a.toNat n) ∧ (a.toNat % n = 0) ∧ (srcOf a.toNat = some src) ∧ (s.allowed m.toNat 0 a.toNat n false) ∧ (!s.pageOn src) ∧ (s.quiet) :=
  ⟨{ live [] with held := 0x800 }, 0, 0x79080, 4, 38, by decide +kernel⟩

theorem witness_registerWriteNowhere : ∃ (s : State) (m : Master) (a : Addr) (_v : Word), (s.comes m.toNat a.toNat 4) ∧ (a.toNat % 4 = 0) ∧ (srcOf a.toNat = none) ∧ (s.quiet) :=
  ⟨live [], 0, 0xFFF000, 5, by decide +kernel⟩

theorem witness_registerReadNowhere : ∃ (s : State) (m : Master) (a : Addr) (n : Nat), (s.comes m.toNat a.toNat n) ∧ (a.toNat % n = 0) ∧ (srcOf a.toNat = none) ∧ (s.quiet) :=
  ⟨live [], 0, 0xFFF000, 2, by decide +kernel⟩

theorem witness_registerMisaligned : ∃ (s : State) (m : Master) (a : Addr) (n : Nat) (_v : Word), (s.comes m.toNat a.toNat n) ∧ (a.toNat % n ≠ 0) :=
  ⟨live [], 0, 0x1095, 4, 5, by decide +kernel⟩

theorem witness_registerWriteNarrow : ∃ (s : State) (m : Master) (a : Addr) (n : Nat) (_v : Word), (s.reaches m.toNat a.toNat n true) ∧ (n < 4) :=
  ⟨live [], 0, 0x1096, 2, 5, by decide +kernel⟩

theorem witness_registerReadLanes : ∃ (s : State) (m : Master) (a : Addr) (n : Nat) (l : Loc), (s.shows m.toNat a.toNat n l) ∧ (tget zeroAt s.tmrA l.key = 0) ∧ (tget zeroAt s.tmrB l.key = 0) :=
  ⟨live [(0x1094, 0x12345678)], 0, 0x1096, 2, ⟨0x1094, ((regOf 0x1094).getD (default0, 0)).1⟩, by decide +kernel⟩

/-! PairAndBurstAccesses. -/

theorem witness_pairLowRead : ∃ (s : State) (m : Master) (a : Addr) (src : Nat), (s.sees m.toNat a.toNat false) ∧ (srcOf a.toNat = some src) ∧ (s.pairLow a.toNat = some a.toNat) ∧ (hidden m.toNat (s.locate m.toNat a.toNat) = 0) ∧ (a.toNat % 8 = 0) :=
  ⟨live [], 0, 0xC20C0, 58, by decide +kernel⟩

theorem witness_pairHighRead : ∃ (s : State) (m : Master) (a : Addr) (src : Nat) (lo : Nat) (h : Word), (s.sees m.toNat a.toNat false) ∧ (srcOf a.toNat = some src) ∧ (s.pairLow a.toNat = some lo) ∧ (a.toNat = lo + 4) ∧ (lo % 8 = 0) ∧ (hidden m.toNat (s.locate m.toNat a.toNat) = 0) ∧ (s.pairTag src = some ⟨src, m.toNat, lo, false, h⟩) :=
  ⟨{ live [] with pairs := [⟨58, 0, 0xC20C0, false, 7⟩] }, 0, 0xC20C4, 58, 0xC20C0, 7, by decide +kernel⟩

theorem witness_pairLowWrite : ∃ (s : State) (m : Master) (a : Addr) (src : Nat) (_v : Word), (s.sees m.toNat a.toNat true) ∧ (srcOf a.toNat = some src) ∧ (s.pairLow a.toNat = some a.toNat) ∧ (a.toNat % 0x1000 ≠ 0x1C) ∧ (hidden m.toNat (s.locate m.toNat a.toNat) = 0) :=
  ⟨live [], 0, 0xC20C0, 58, 9, by decide +kernel⟩

theorem witness_pairHighWrite : ∃ (s : State) (m : Master) (a : Addr) (lo : Addr) (src : Nat) (v : Word) (w : Word) (l : Loc) (h : Loc), (s.sees m.toNat a.toNat true) ∧ (a.toNat = lo.toNat + 4) ∧ (srcOf a.toNat = some src) ∧ (s.pairStores m.toNat src lo.toNat l h v w) ∧ (s.pairTag src = some ⟨src, m.toNat, lo.toNat, true, v⟩) ∧ ((hidden m.toNat (some l)) = 0) ∧ ((hidden m.toNat (some h)) = 0) :=
  ⟨{ live [] with pairs := [⟨58, 0, 0xC20C0, true, 7⟩] }, 0, 0xC20C4, 0xC20C0, 58, 7, 8, ⟨0xC20C0, ((regOf 0xC20C0).getD (default0, 0)).1⟩, ⟨0xC20C4, ((regOf 0xC20C4).getD (default0, 0)).1⟩, by decide +kernel⟩

theorem witness_access64 : ∃ (s : State) (m : Master) (lo : Addr) (src : Nat) (v : BitVec 64) (l : Loc) (h : Loc), (s.sees m.toNat lo.toNat true) ∧ (s.allowed m.toNat 0 lo.toNat 8 true) ∧ (lo.toNat % 8 = 0) ∧ (srcOf lo.toNat = some src) ∧ (s.pairStores m.toNat src lo.toNat l h (lo32 v.toNat) (hi32 v.toNat)) ∧ ((hidden m.toNat (some l)) = 0) ∧ ((hidden m.toNat (some h)) = 0) :=
  ⟨live [], 0, 0xC20C0, 58, 0x123456789ABCDEF0, ⟨0xC20C0, ((regOf 0xC20C0).getD (default0, 0)).1⟩, ⟨0xC20C4, ((regOf 0xC20C4).getD (default0, 0)).1⟩, by decide +kernel⟩

theorem witness_pairHighWriteGuarded : ∃ (s : State) (m : Master) (a : Addr) (lo : Addr) (src : Nat) (v : Word) (w : Word) (l : Loc) (h : Loc), (s.sees m.toNat a.toNat true) ∧ (a.toNat = lo.toNat + 4) ∧ (srcOf a.toNat = some src) ∧ (s.pairStores m.toNat src lo.toNat l h v w) ∧ (s.pairTag src = some ⟨src, m.toNat, lo.toNat, true, v⟩) ∧ ((hidden m.toNat (some l)) ≠ 0 ∨ (hidden m.toNat (some h)) ≠ 0) ∧ (s.quiet) ∧ (s.pageOn eFAB) ∧ ([l.key, h.key].all fun k => [0xA0090, 0xA0094, R.FAB_GUARD_CNT_COUNT.addr, evKey eFAB].contains k == false) :=
  ⟨{ live [] with pairs := [⟨58, 1, 0xC20F0, true, 7⟩] }, 1, 0xC20F4, 0xC20F0, 58, 7, 8, ⟨0xC20F0, ((regOf 0xC20F0).getD (default0, 0)).1⟩, ⟨0xC20F4, ((regOf 0xC20F4).getD (default0, 0)).1⟩, by decide +kernel⟩

theorem witness_access64Guarded : ∃ (s : State) (m : Master) (lo : Addr) (src : Nat) (v : BitVec 64) (l : Loc) (h : Loc), (s.sees m.toNat lo.toNat true) ∧ (s.allowed m.toNat 0 lo.toNat 8 true) ∧ (lo.toNat % 8 = 0) ∧ (srcOf lo.toNat = some src) ∧ (s.pairStores m.toNat src lo.toNat l h (lo32 v.toNat) (hi32 v.toNat)) ∧ ((hidden m.toNat (some l)) ≠ 0 ∨ (hidden m.toNat (some h)) ≠ 0) ∧ (s.quiet) ∧ (s.pageOn eFAB) ∧ ([l.key, h.key].all fun k => [0xA0090, 0xA0094, R.FAB_GUARD_CNT_COUNT.addr, evKey eFAB].contains k == false) :=
  ⟨live [], 1, 0xC20F0, 58, 0x123456789ABCDEF0, ⟨0xC20F0, ((regOf 0xC20F0).getD (default0, 0)).1⟩, ⟨0xC20F4, ((regOf 0xC20F4).getD (default0, 0)).1⟩, by decide +kernel⟩

theorem witness_access64Read : ∃ (s : State) (m : Master) (a : Addr) (src : Nat), (s.sees m.toNat a.toNat false) ∧ (s.allowed m.toNat 0 a.toNat 8 false) ∧ (a.toNat % 8 = 0) ∧ (srcOf a.toNat = some src) ∧ (s.pairLow a.toNat = some a.toNat) ∧ (hidden m.toNat (s.locate m.toNat a.toNat) = 0) ∧ (hidden m.toNat (s.locate m.toNat (a.toNat + 4)) = 0) ∧ (¬ (42 ≤ src ∧ src ≤ 49)) :=
  ⟨live [(0xC20C0, 7), (0xC20C4, 9)], 0, 0xC20C0, 58, by decide +kernel⟩

theorem witness_access64Two : ∃ (s : State) (m : Master) (a : Addr) (v : BitVec 64) (l : Loc) (h : Loc), (s.storesPart m.toNat a.toNat l (lo32 v.toNat)) ∧ (s.storesPart m.toNat (a.toNat + 4) h (hi32 v.toNat)) ∧ (s.allowed m.toNat 0 a.toNat 8 true) ∧ (a.toNat % 8 = 0) ∧ (l.key ≠ h.key) :=
  ⟨live [], 0, 0x79080, 0x500000006, ⟨0x79080, ((regOf 0x79080).getD (default0, 0)).1⟩, ⟨0x79084, ((regOf 0x79084).getD (default0, 0)).1⟩, by decide +kernel⟩

theorem witness_access64TwoRead : ∃ (s : State) (m : Master) (a : Addr) (l : Loc) (h : Loc), (s.shows m.toNat a.toNat 4 l) ∧ (s.shows m.toNat (a.toNat + 4) 4 h) ∧ (s.allowed m.toNat 0 a.toNat 8 false) ∧ (a.toNat % 8 = 0) ∧ (!s.disagrees l) ∧ (!s.disagrees h) :=
  ⟨live [(0x79084, 5)], 0, 0x79080, ⟨0x79080, ((regOf 0x79080).getD (default0, 0)).1⟩, ⟨0x79084, ((regOf 0x79084).getD (default0, 0)).1⟩, by decide +kernel⟩

theorem witness_pcieBurstWrite : ∃ (s : State) (fn : Fin 2) (a : Addr) (vs : List Word) (ls : List Loc), (vs ≠ []) ∧ (ls.length = vs.length) ∧ ((ls.map Loc.key).Nodup) ∧ ((vs.zip ls).zipIdx.all fun x => s.storesPart fn.val (a.toNat + 4 * x.2) x.1.2 x.1.1) :=
  ⟨live [], 0, 0x79080, [1, 2, 3], [⟨0x79080, ((regOf 0x79080).getD (default0, 0)).1⟩, ⟨0x79084, ((regOf 0x79084).getD (default0, 0)).1⟩, ⟨0x79088, ((regOf 0x79088).getD (default0, 0)).1⟩], by decide +kernel⟩

theorem witness_pcieBurstRead : ∃ (s : State) (fn : Fin 2) (a : Addr) (n : Nat) (ls : List Loc), (n ≠ 0) ∧ (ls.length = n) ∧ (ls.zipIdx.all fun x => s.shows fn.val (a.toNat + 4 * x.2) 4 x.1 && !s.disagrees x.1) :=
  ⟨live [(0x79084, 5)], 0, 0x79080, 3, [⟨0x79080, ((regOf 0x79080).getD (default0, 0)).1⟩, ⟨0x79084, ((regOf 0x79084).getD (default0, 0)).1⟩, ⟨0x79088, ((regOf 0x79088).getD (default0, 0)).1⟩], by decide +kernel⟩

/-! EventAndTriplicatedRegisters. -/

theorem witness_eventClear : ∃ (s : State) (m : Master) (page : Fin 4096) (src : Nat) (_mask : Word) (_same : Word), (src ∈ allSources) ∧ (pageBase src = page.val * 0x1000) ∧ (s.takes m.toNat (evKey src)) ∧ (tget zeroAt s.tmrA (evKey src) = 0) :=
  ⟨live [(0x3010, 7)], 0, 3, 3, 6, 4, by decide +kernel⟩

theorem witness_eventSet : ∃ (s : State) (m : Master) (page : Fin 4096) (src : Nat) (_mask : Word), (src ∈ allSources) ∧ (pageBase src = page.val * 0x1000) ∧ (s.takes m.toNat (pageBase src + 0x18)) ∧ (s.majW (pageBase src + 0x18) = s.w (pageBase src + 0x18)) :=
  ⟨live [], 0, 3, 3, 0xFFFFFFFF, by decide +kernel⟩

theorem witness_lockWrite : ∃ (s : State) (m : Master) (page : Fin 4096) (src : Nat), (src ∈ allSources) ∧ (pageBase src = page.val * 0x1000) ∧ (s.sees m.toNat (pageBase src + 0x1C) true) ∧ (!s.locked src) :=
  ⟨live [], 0, 3, 3, by decide +kernel⟩

theorem witness_snapThaw : ∃ (s : State) (m : Master) (page : Fin 4096) (src : Nat) (v : Word), (src ∈ allSources) ∧ (pageBase src = page.val * 0x1000) ∧ (s.takes m.toNat (pageBase src + 0x20)) ∧ (bitOf v.toNat 2) :=
  ⟨{ live [(0x3020, 8)] with frozen := [(0x3010, 1)] }, 0, 3, 3, 4, by decide +kernel⟩

theorem witness_tmrRead : ∃ (s : State) (m : Master) (a : Addr) (src : Nat) (l : Loc), (srcOf a.toNat = some src) ∧ (l.key ≠ evKey src) ∧ (s.shows m.toNat a.toNat 4 l) ∧ (s.disagrees l) ∧ (s.quiet) ∧ (l.key ≠ R.SYS_TMR_FIX_CNT_COUNT.addr) ∧ (l.key ≠ R.SYS_TMR_FIX_LAST_SOURCE.addr) ∧ (l.key ≠ R.SNAP_TRIG_EN_EN.addr) :=
  ⟨{ live [] with tmrA := [(0xD0080, 1)] }, 0, 0xD0080, 59, ⟨0xD0080, ((regOf 0xD0080).getD (default0, 0)).1⟩, by decide +kernel⟩

theorem witness_tmrWalk : ∃ (s : State) (a : Addr) (src : Nat) (l : Loc), (srcOf a.toNat = some src) ∧ (s.pageOn src) ∧ (s.locate 0 a.toNat = some l) ∧ (s.disagrees l) ∧ (0x80 ≤ a.toNat % 0x1000) ∧ (s.quiet) ∧ (l.key ≠ R.SYS_TMR_FIX_CNT_COUNT.addr) ∧ (l.key ≠ R.SYS_TMR_FIX_LAST_SOURCE.addr) ∧ (l.key ≠ evKey src) ∧ (l.key ≠ R.SNAP_TRIG_EN_EN.addr) :=
  ⟨{ live [] with tmrA := [(0xD0080, 1)] }, 0xD0080, 59, ⟨0xD0080, ((regOf 0xD0080).getD (default0, 0)).1⟩, by decide +kernel⟩

/-! MsixMessages. -/

theorem witness_vecAck : ∃ (s : State) (m : Master) (v : Fin 32), (s.msix.active = s.vecActive) ∧ (s.msix.pba = []) ∧ (s.takes m.toNat 0x50A8) ∧ (bitOf s.vecActive v.val) ∧ (bitOf s.msix.en (b2n (bitOf (s.n 0x50AC) v.val))) ∧ (!bitOf s.msix.fmask (b2n (bitOf (s.n 0x50AC) v.val))) ∧ (tget (fun _ => 1) s.msix.mask (b2n (bitOf (s.n 0x50AC) v.val) * 32 + v.val) = 0) :=
  ⟨{ live [(0x3010, 1), (0x3014, 1), (0x5090, 8)] with msix := ⟨1, 1, 0, [(0, 0)], []⟩ }, 0, 0, by decide +kernel⟩

theorem witness_msixUnmask : ∃ (s : State) (fn : Fin 2) (v : Fin 32), (s.msix.active = s.vecActive) ∧ (!s.noRequest fn.val) ∧ (s.msix.pba = [(fn.val * 32 + v.val, 1)]) ∧ (bitOf s.vecActive v.val) ∧ (b2n (bitOf (s.n 0x50AC) v.val) = fn.val) :=
  ⟨{ live [(0x3010, 1), (0x3014, 1), (0x5090, 8)] with msix := ⟨1, 1, 0, [], [(0, 1)]⟩ }, 0, 0, by decide +kernel⟩

/-! Snapshots. -/

theorem witness_snapInEdge : ∃ (s : State), (s.is R.SNAP_C_ARMED) ∧ (bitOf (s.get R.SNAP_TRIG_EN_EN) 0) ∧ (!s.inHoldoff) :=
  ⟨live [(0x6008, 2), (0x6080, 0x1F)], by decide +kernel⟩

theorem witness_snapInEdgeMissed : ∃ (s : State), (s.is R.SNAP_C_ARMED) ∧ (bitOf (s.get R.SNAP_TRIG_EN_EN) 0) ∧ (s.inHoldoff) :=
  ⟨{ live [(0x6008, 2), (0x6080, 0x1F), (0x6084, 4)] with lastSnap := some (0, 0) }, by decide +kernel⟩

theorem witness_snapInEdgeIgnored : ∃ (s : State), (!bitOf (s.get R.SNAP_TRIG_EN_EN) 0 || !s.is R.SNAP_C_ARMED) :=
  ⟨live [], by decide +kernel⟩

theorem witness_snapCmdTrig : ∃ (s : State) (m : Master), (s.is R.SNAP_C_ARMED) ∧ (bitOf (s.get R.SNAP_TRIG_EN_EN) 1) ∧ (!s.inHoldoff) ∧ (s.takes m.toNat 0xA0) :=
  ⟨live [(0x6008, 2), (0x6080, 0x1F)], 0, by decide +kernel⟩

theorem witness_snapCmdTrigMissed : ∃ (s : State) (m : Master), (s.is R.SNAP_C_ARMED) ∧ (bitOf (s.get R.SNAP_TRIG_EN_EN) 1) ∧ (s.inHoldoff) ∧ (s.takes m.toNat 0xA0) :=
  ⟨{ live [(0x6008, 2), (0x6080, 0x1F), (0x6084, 4)] with lastSnap := some (0, 0) }, 0, by decide +kernel⟩

theorem witness_snapCmdTrigIgnored : ∃ (s : State) (m : Master), (!bitOf (s.get R.SNAP_TRIG_EN_EN) 1 || !s.is R.SNAP_C_ARMED) ∧ (s.takes m.toNat 0xA0) :=
  ⟨live [], 0, by decide +kernel⟩

theorem witness_hsiMatch : ∃ (s : State), (s.is R.SNAP_C_ARMED) ∧ (bitOf (s.get R.SNAP_TRIG_EN_EN) 2) ∧ (!s.inHoldoff) ∧ (s.matchArmed) ∧ (s.get64 0x6090 ≤ s.hsiNow) :=
  ⟨{ live [(0x6008, 2), (0x6080, 0x1F)] with matchArmed := true }, by decide +kernel⟩

theorem witness_hsiMatchMissed : ∃ (s : State), (s.is R.SNAP_C_ARMED) ∧ (bitOf (s.get R.SNAP_TRIG_EN_EN) 2) ∧ (s.inHoldoff) ∧ (s.matchArmed) ∧ (s.get64 0x6090 ≤ s.hsiNow) :=
  ⟨{ live [(0x6008, 2), (0x6080, 0x1F), (0x6084, 4)] with lastSnap := some (0, 0), matchArmed := true }, by decide +kernel⟩

theorem witness_hsiMatchUnarmed : ∃ (s : State), (s.matchArmed) ∧ (s.get64 0x6090 ≤ s.hsiNow) ∧ (bitOf (s.get R.SNAP_TRIG_EN_EN) 2) ∧ (!s.is R.SNAP_C_ARMED) :=
  ⟨{ live [(0x6080, 0x1F)] with matchArmed := true }, by decide +kernel⟩

theorem witness_hsiMatchWaits : ∃ (s : State), (!s.matchArmed || !bitOf (s.get R.SNAP_TRIG_EN_EN) 2 || decide (s.hsiNow < s.get64 0x6090)) :=
  ⟨live [], by decide +kernel⟩

theorem witness_matchHsiWrite : ∃ (s : State) (m : Master) (v : BitVec 64), (s.sees m.toNat 0x6090 true) ∧ (s.allowed m.toNat 0 0x6090 8 true) ∧ (!s.locked eSNAP) ∧ (s.hsiNow < v.toNat) :=
  ⟨live [], 0, 1000, by decide +kernel⟩

theorem witness_matchHsiPast : ∃ (s : State) (m : Master) (v : BitVec 64), (s.sees m.toNat 0x6090 true) ∧ (s.allowed m.toNat 0 0x6090 8 true) ∧ (!s.locked eSNAP) ∧ (v.toNat ≤ s.hsiNow) ∧ (s.quiet) :=
  ⟨{ live [] with hsi := 12 }, 0, 7, by decide +kernel⟩

theorem witness_snapshot : ∃ (s : State) (q : SnapReq) (rest : List SnapReq), (s.snapQ = q :: rest) ∧ (s.quiet) ∧ (q.cyc + 32 < sheetCycles) ∧ (s.slot = q.slot ∧ s.hsi = q.hsi) ∧ (!s.is R.SNAP_DUMP_CTRL_EN) :=
  ⟨{ live [(0x3020, 3), (0x6008, 2)] with snapQ := [⟨0, 0, 5, 1⟩] }, ⟨0, 0, 5, 1⟩, [], by decide +kernel⟩

theorem witness_snapshotDump : ∃ (s : State) (q : SnapReq) (rest : List SnapReq), (s.snapQ = q :: rest) ∧ (s.quiet) ∧ (q.cyc + 32 < sheetCycles) ∧ (s.slot = q.slot ∧ s.hsi = q.hsi) ∧ (s.is R.SNAP_DUMP_CTRL_EN) ∧ (s.dumpReason = 0) :=
  ⟨{ live [(0xB8080, 0), (0xB800C, 1), (0xB000C, 2), (0x60B0, 1), (0x6100, 0x117E0040), (0x6104, 0x100), (0x6108, 0x1000040), (0x610C, 0x80000010)] with snapQ := [⟨0, 0, 5, 1⟩] }, ⟨0, 0, 5, 1⟩, [], by decide +kernel⟩

theorem witness_snapshotRefused : ∃ (s : State) (q : SnapReq) (rest : List SnapReq), (s.snapQ = q :: rest) ∧ (s.quiet) ∧ (q.cyc + 32 < sheetCycles) ∧ (s.slot = q.slot ∧ s.hsi = q.hsi) ∧ (s.is R.SNAP_DUMP_CTRL_EN) ∧ (s.dumpReason ≠ 0) :=
  ⟨{ live [(0x60B0, 1)] with snapQ := [⟨0, 0, 5, 1⟩] }, ⟨0, 0, 5, 1⟩, [], by decide +kernel⟩

theorem witness_dumpDone : ∃ (s : State) (q : Nat) (i : Nat) (a : Nat) (b : Nat) (p : Nat × Nat), (s.dump = some ⟨q, [⟨i, a, 1, b⟩], []⟩) ∧ (s.quiet) ∧ (s.lock = none) ∧ (a % 64 = 0) ∧ (0x117E0000 ≤ a) ∧ (a < 0x11800000) ∧ (!atBank0 a 64) ∧ (s.clean a 64) ∧ (s.allowed 0x41 (targetOf a) a 64 false) ∧ (b % 64 = 0) ∧ (s.allowed 0x41 4 b 64 true) ∧ (s.imageOf b = none) ∧ (s.dramMap b = some p) ∧ (s.chanDo p.1 = .serve) ∧ (!s.chanWaits) ∧ (s.portOpen 3) ∧ (s.fabricIdle) :=
  ⟨{ live [(0xB8080, 0), (0xB000C, 2)] with dump := some ⟨1, [⟨0, 0x117E0040, 1, 0x1001000040⟩], []⟩, mem := [(0x117E0041, 9)] }, 1, 0, 0x117E0040, 0x1001000040, (0, 16777280), by decide +kernel⟩

theorem witness_dumpDoneCopied : ∃ (s : State) (x : DumpSt), (s.dump = some x) ∧ (x.descs.all fun d => (List.range d.lines).all fun i => (s.dumpPending (d.src + 64 * i)).isEmpty) ∧ (s.quiet) ∧ (s.fabricIdle) :=
  ⟨{ live [] with dump := some ⟨1, [⟨0, 0x117E0040, 1, 0x1001000040⟩], [(0, 0x117E0040)]⟩ }, ⟨1, [⟨0, 0x117E0040, 1, 0x1001000040⟩], [(0, 0x117E0040)]⟩, by decide +kernel⟩

theorem witness_dumpAbort : ∃ (s : State) (m : Master) (v : Word), (s.takes m.toNat 0x60B0) ∧ (s.dump.isSome) ∧ (bitOf v.toNat 1) ∧ (s.quiet) :=
  ⟨{ live [] with dump := some ⟨1, [], []⟩ }, 0, 2, by decide +kernel⟩

/-! References. -/

theorem witness_refLoss : ∃ (s : State), (s.quiet) :=
  ⟨live [], by decide +kernel⟩

theorem witness_refReturn : ∃ (s : State), (s.quiet) ∧ (s.servo = tHoldover) ∧ (s.time.reason = 5) ∧ (s.src = 0) ∧ (s.is R.TIME_C_FORCE_HOLD = false) ∧ (s.is R.CLK_S_PLLA_LOCK) :=
  ⟨{ live [(0x30F4, 0x54)] with time := { TimeSt.reset with reason := 5 } }, by decide +kernel⟩

theorem witness_refReturnOther : ∃ (s : State), (s.servo ≠ tHoldover ∨ s.time.reason ≠ 5 ∨ s.src ≠ 0 ∨ s.is R.TIME_C_FORCE_HOLD = true ∨ s.is R.CLK_S_PLLA_LOCK = false) :=
  ⟨live [(0x200C, 8)], by decide +kernel⟩

theorem witness_refSelWrite : ∃ (s : State) (m : Master) (v : Word), (s.takes m.toNat 0x3080) ∧ (s.quiet) ∧ ((s.majW 0x3080).toNat % 8 ≠ v.toNat % 8) ∧ (s.is R.TIME_C_FORCE_HOLD = false) :=
  ⟨live [], 0, 1, by decide +kernel⟩

theorem witness_refSelForced : ∃ (s : State) (m : Master) (v : Word), (s.takes m.toNat 0x3080) ∧ (s.quiet) ∧ ((s.majW 0x3080).toNat % 8 ≠ v.toNat % 8) ∧ (s.is R.TIME_C_FORCE_HOLD) :=
  ⟨live [(0x3008, 1), (0x30F4, 0x34)], 0, 1, by decide +kernel⟩

theorem witness_forceHold : ∃ (s : State) (m : Master) (v : Word), (s.takes m.toNat 0x3008) ∧ (s.quiet) ∧ (bitOf v.toNat 0) ∧ (!bitOf v.toNat 1) ∧ (!bitOf (s.majW 0x3008).toNat 0) :=
  ⟨live [], 0, 1, by decide +kernel⟩

theorem witness_forceHoldEnd : ∃ (s : State) (m : Master) (v : Word), (s.takes m.toNat 0x3008) ∧ (s.quiet) ∧ (!bitOf v.toNat 0) ∧ (!bitOf v.toNat 1) ∧ (bitOf (s.majW 0x3008).toNat 0) :=
  ⟨live [(0x3008, 1), (0x30F4, 0x34)], 0, 0, by decide +kernel⟩

/-! PllB. -/

theorem witness_pllLockB : ∃ (s : State), (s.domOn 13) ∧ (s.clk.change.isNone) ∧ (!s.pllbFail) :=
  ⟨live [(0x200C, 5)], by decide +kernel⟩

theorem witness_pllLockBLate : ∃ (s : State), (s.domOn 13) ∧ (s.clk.change.isNone) ∧ (s.pllbFail) :=
  ⟨{ live [(0x200C, 4)] with pllbFail := true }, by decide +kernel⟩

theorem witness_pllLockBNot : ∃ (s : State), (!s.domOn 13 || s.clk.change.isSome) :=
  ⟨{ live [] with clk := { ClkSt.reset with change := some 0 } }, by decide +kernel⟩

theorem witness_pllUnlockA : ∃ (s : State), (s.quiet) ∧ (!s.is R.CLK_S_REF_LOSS) :=
  ⟨live [], by decide +kernel⟩

theorem witness_pllUnlockAToo : ∃ (s : State), (s.quiet) ∧ (s.is R.CLK_S_REF_LOSS) :=
  ⟨live [(0x200C, 9)], by decide +kernel⟩

theorem witness_pllUnlockB : ∃ (s : State), (s.quiet) ∧ (s.is R.CLK_S_PLLB_LOCK) ∧ (s.clk.change.isNone) :=
  ⟨live [(0x200C, 3)], by decide +kernel⟩

theorem witness_pllUnlockBInChange : ∃ (s : State), (s.clk.change.isSome) :=
  ⟨{ live [(0x200C, 3)] with clk := { ClkSt.reset with change := some 0 } }, by decide +kernel⟩

theorem witness_pllbApply : ∃ (s : State) (m : Master) (v : Word), (s.takes m.toNat 0x2084) ∧ (bitOf v.toNat 31) ∧ (s.clk.change.isNone) ∧ (!s.clk.waiting) ∧ (s.domOn 13) ∧ (!(List.range s.dramN).any fun c => s.chanState c = chRetrain) :=
  ⟨live [], 0, 0x80000001, by decide +kernel⟩

theorem witness_pllbApplyWaits : ∃ (s : State) (m : Master) (v : Word), (s.takes m.toNat 0x2084) ∧ (bitOf v.toNat 31) ∧ (s.clk.change.isNone) ∧ (!s.clk.waiting) ∧ (s.domOn 13) ∧ ((List.range s.dramN).any fun c => s.chanState c = chRetrain) :=
  ⟨live [(0xB8080, 0), (0xB000C, 5)], 0, 0x80000001, by decide +kernel⟩

theorem witness_pllbApplyNot : ∃ (s : State) (m : Master) (v : Word), (s.takes m.toNat 0x2084) ∧ (!bitOf v.toNat 31 || s.clk.change.isSome || s.clk.waiting || !s.domOn 13) :=
  ⟨{ live [] with clk := { ClkSt.reset with change := some 0 } }, 0, 0x80000001, by decide +kernel⟩

theorem witness_pllbChangeLock : ∃ (s : State), (s.quiet) ∧ (s.clk.change.isSome) ∧ (s.dramN ≤ s.chans.length) ∧ (s.fabricIdle) :=
  ⟨{ live [(0xB000C, 5)] with clk := { ClkSt.reset with change := some 0 } }, by decide +kernel⟩

theorem witness_pllbFail : ∃ (s : State) (t0 : Nat), (s.quiet) ∧ (s.clk.change = some t0) ∧ (t0 + 8 ≤ s.slot) ∧ (s.dramN ≤ s.chans.length) ∧ (s.fabricIdle) :=
  ⟨{ live [(0xB000C, 2), (0xB108C, 0x803)] with slot := 8, clk := { ClkSt.reset with change := some 0 } }, 0, by decide +kernel⟩

theorem witness_pllbFailEarly : ∃ (s : State), (s.clk.change.all fun t0 => decide (s.slot < t0 + 8)) ∧ (s.fabricIdle) ∧ (!s.pageOn eCONV) :=
  ⟨{ live [(0x1088, 0x37FF)] with clk := { ClkSt.reset with change := some 0 } }, by decide +kernel⟩

/-! RecordsAndSources. -/

theorem witness_measPush : ∃ (s : State) (m : Master), (s.takes m.toNat 0x3240) ∧ (s.time.fifo.length < 8) :=
  ⟨live [(0x3200, 1)], 0, by decide +kernel⟩

theorem witness_measPushFull : ∃ (s : State) (m : Master), (s.takes m.toNat 0x3240) ∧ (8 ≤ s.time.fifo.length) ∧ (s.quiet) :=
  ⟨{ live [] with time := { TimeSt.reset with fifo := List.replicate 8 ⟨1, 0, 0, 0, ⟨0, 0, 0⟩, ⟨0, 0, 0⟩, ⟨0, 0, 0⟩, ⟨0, 0, 0⟩⟩ } }, 0, by decide +kernel⟩

theorem witness_measFlush : ∃ (s : State) (m : Master) (v : Word), (s.takes m.toNat 0x3008) ∧ (bitOf v.toNat 1) ∧ (!bitOf v.toNat 0) ∧ (!bitOf (s.majW 0x3008).toNat 0) :=
  ⟨live [], 0, 2, by decide +kernel⟩

theorem witness_sourceLoss : ∃ (s : State), (s.quiet) ∧ (s.src = 1) ∧ (s.time.lastSync + 8 * max 1 (s.get R.TIME_LOSS_TIMEOUT_MS) ≤ s.slot) ∧ (steering s.servo) ∧ (s.is R.TIME_C_FORCE_HOLD = false) :=
  ⟨{ live [(0x3080, 1), (0x309C, 1), (0x30F4, 3)] with slot := 9 }, by decide +kernel⟩

theorem witness_sourceLossAcquire : ∃ (s : State), (s.src = 2 ∨ s.src = 3) ∧ (s.servo = tAcquire) :=
  ⟨live [(0x3080, 2), (0x30F4, 1), (0x300C, 32)], by decide +kernel⟩

theorem witness_sourceLossEarly : ∃ (s : State), (s.src = 0 ∨ s.src = 1 ∧ s.slot < s.time.lastSync + 8 * max 1 (s.get R.TIME_LOSS_TIMEOUT_MS)) :=
  ⟨live [(0x3080, 1)], by decide +kernel⟩

theorem witness_sourceReturn : ∃ (s : State), (s.quiet) ∧ (s.src = 2 ∨ s.src = 3) ∧ (s.servo = tHoldover) ∧ (s.is R.TIME_C_FORCE_HOLD = false) ∧ (s.time.ignore = false) :=
  ⟨live [(0x3080, 2), (0x30F4, 0x14)], by decide +kernel⟩

theorem witness_sourceReturnStays : ∃ (s : State), (s.src = 2 ∨ s.src = 3) ∧ (s.servo ≠ tHoldover ∨ s.is R.TIME_C_FORCE_HOLD = true ∨ s.time.ignore = true) :=
  ⟨{ live [(0x3080, 2), (0x30F4, 1)] with slot := 4 }, by decide +kernel⟩

theorem witness_wclkAcquireComplete : ∃ (s : State) (_f : Int) (th : Int), (s.quiet) ∧ (s.src = 2 ∨ s.src = 3) ∧ (s.servo = tAcquire) ∧ (s.is R.TIME_S_REF_PRESENT) ∧ (s.time.acqSince + 64 ≤ s.slot) ∧ (s.edgeTheta th = 0) ∧ (s.is R.TIME_C_FORCE_HOLD = false) ∧ (s.time.ignore = false) :=
  ⟨{ live [(0x3080, 2), (0x30F4, 1), (0x300C, 32)] with slot := 64 }, 50, 0, by decide +kernel⟩

theorem witness_wclkAcquireSlew : ∃ (s : State) (th : Int), (s.quiet) ∧ (s.src = 2 ∨ s.src = 3) ∧ (s.servo = tAcquire) ∧ (s.is R.TIME_S_REF_PRESENT) ∧ (s.time.acqSince + 64 ≤ s.slot) ∧ (0 < s.edgeTheta th) ∧ (s.is R.TIME_C_FORCE_HOLD = false) ∧ (s.time.ignore = false) :=
  ⟨{ live [(0x3080, 3), (0x30F4, 1), (0x300C, 32)] with slot := 64 }, 65536, by decide +kernel⟩

theorem witness_wclkAcquireEarly : ∃ (s : State) (_f : Int) (_th : Int), (s.servo ≠ tAcquire ∨ (s.src ≠ 2 ∧ s.src ≠ 3) ∨ s.is R.TIME_S_REF_PRESENT = false ∨ s.slot < s.time.acqSince + 64 ∨ s.time.ignore = true) :=
  ⟨live [(0x3080, 2), (0x30F4, 1)], 5, 6, by decide +kernel⟩

theorem witness_slewEnd : ∃ (s : State), (s.quiet) ∧ (s.servo = tSlewing) ∧ (s.time.slewEnd ≤ s.slot) ∧ (s.is R.TIME_C_FORCE_HOLD = false) :=
  ⟨live [(0x30F4, 5)], by decide +kernel⟩

theorem witness_slewEndEarly : ∃ (s : State), (s.servo ≠ tSlewing ∨ s.slot < s.time.slewEnd) :=
  ⟨live [], by decide +kernel⟩

/-! ReanchorAndSteps. -/

theorem witness_reanchorSlew : ∃ (s : State) (m : Master), (s.takes m.toNat 0x30AC) ∧ (s.quiet) ∧ (s.servo = tReanchor) ∧ (s.is R.TIME_C_FORCE_HOLD = false) ∧ (s.time.theta = 0) :=
  ⟨live [(0x30F4, 7)], 0, by decide +kernel⟩

theorem witness_reanchorSlewing : ∃ (s : State) (m : Master), (s.takes m.toNat 0x30AC) ∧ (s.quiet) ∧ (s.servo = tReanchor) ∧ (s.is R.TIME_C_FORCE_HOLD = false) ∧ (s.time.integ = 0) ∧ (0 < s.time.theta) :=
  ⟨{ live [(0x30F4, 7)] with time := { TimeSt.reset with theta := 9000 } }, 0, by decide +kernel⟩

theorem witness_reanchorStep : ∃ (s : State) (m : Master), (s.takes m.toNat 0x30AC) ∧ (s.quiet) ∧ (s.servo = tReanchor) ∧ (s.is R.TIME_C_FORCE_HOLD = false) ∧ (!s.is R.TIME_MUTE_SHEET_HI_ARMED) :=
  ⟨live [(0x30F4, 7)], 0, by decide +kernel⟩

theorem witness_reanchorStepArmed : ∃ (s : State) (m : Master), (s.takes m.toNat 0x30AC) ∧ (s.quiet) ∧ (s.servo = tReanchor) ∧ (s.is R.TIME_C_FORCE_HOLD = false) ∧ (s.is R.TIME_MUTE_SHEET_HI_ARMED) :=
  ⟨live [(0x30F4, 7), (0x30B4, 0x80000000)], 0, by decide +kernel⟩

theorem witness_reanchorStay : ∃ (s : State) (m : Master), (s.takes m.toNat 0x30AC) ∧ (s.quiet) ∧ (s.servo = tReanchor) ∧ (s.is R.TIME_C_FORCE_HOLD = false) :=
  ⟨{ live [(0x30F4, 7)] with time := { TimeSt.reset with reason := 2 } }, 0, by decide +kernel⟩

theorem witness_reanchorElsewhere : ∃ (s : State) (m : Master), (s.takes m.toNat 0x30AC) ∧ (s.servo ≠ tReanchor) :=
  ⟨live [], 0, by decide +kernel⟩

theorem witness_hsiStep : ∃ (s : State) (q : StepReq), (s.quiet) ∧ (s.dueStep = some q) ∧ (s.cyc = 0) ∧ (q.why = .ring) ∧ (q.d ≠ 0) ∧ (0 ≤ (s.hsi : Int) + 6 * q.d) :=
  ⟨{ live [] with slot := 20, hsi := 120, time := { TimeSt.reset with steps := [⟨20, 3, .ring⟩] } }, ⟨20, 3, .ring⟩, by decide +kernel⟩

theorem witness_hsiStepNot : ∃ (s : State), (s.cyc ≠ 0 ∨ s.dueStep = none) :=
  ⟨live [], by decide +kernel⟩

theorem witness_muteSheetStep : ∃ (s : State), (s.quiet) ∧ (s.servo = tStepPending) ∧ (s.is R.TIME_MUTE_SHEET_HI_ARMED) ∧ (s.sheet = s.muteSheet) ∧ (s.cyc = 0) ∧ (s.stepLead = false) ∧ (stepD s.time.theta ≠ 0) ∧ (0 ≤ (s.hsi : Int) + 6 * stepD s.time.theta) :=
  ⟨{ live [(0x30F4, 6), (0x30B4, 0x80000000), (0x30B0, 20), (0x98, 1)] with hsi := 120, slot := 20, time := { TimeSt.reset with theta := 65536 * 125000 } }, by decide +kernel⟩

theorem witness_muteSheetNot : ∃ (s : State), (s.servo ≠ tStepPending ∨ s.is R.TIME_MUTE_SHEET_HI_ARMED = false ∨ s.sheet ≠ s.muteSheet ∨ s.cyc ≠ 0) :=
  ⟨live [], by decide +kernel⟩

theorem witness_hsiSetCmd : ∃ (s : State) (m : Master), (s.takes m.toNat 0x30D8) ∧ (s.servo = tFreerun ∨ s.servo = tAcquire ∨ s.servo = tHoldover ∨ s.servo = tReanchor) ∧ (s.src ≠ 4) ∧ (!s.stepFor fun w => w == .hsiSet || (w == .ring && s.role == 0)) :=
  ⟨live [], 0, by decide +kernel⟩

theorem witness_hsiSetPending : ∃ (s : State) (m : Master), (s.takes m.toNat 0x30D8) ∧ (s.servo = tFreerun ∨ s.servo = tAcquire ∨ s.servo = tHoldover ∨ s.servo = tReanchor) ∧ (s.src ≠ 4) ∧ (s.stepFor fun w => w == .hsiSet || (w == .ring && s.role == 0)) :=
  ⟨{ live [] with time := { TimeSt.reset with steps := [⟨9, 0, .hsiSet⟩] } }, 0, by decide +kernel⟩

theorem witness_hsiSetRefused : ∃ (s : State) (m : Master), (s.takes m.toNat 0x30D8) ∧ (s.quiet) ∧ (steering s.servo ∨ s.src = 4) :=
  ⟨live [(0x30F4, 3)], 0, by decide +kernel⟩

theorem witness_capture : ∃ (s : State) (m : Master), (s.takes m.toNat 0x30C0) :=
  ⟨{ live [] with cyc := 700, hsi := 6 }, 0, by decide +kernel⟩

/-! ClockOutputs. -/

theorem witness_clockOutputEnable : ∃ (s : State) (o : ClockOut), (bitOf (s.n (outCfg o)) 0) ∧ (bits (s.n (outCfg o)) 2 1 ≠ 3) ∧ (fmtOk o (bits (s.n (outCfg o)) 5 4)) ∧ (!(s.clkOut o).run) ∧ (outIndex o < s.clk.outs.length) :=
  ⟨live [(0x2094, 0x13)], .mclk 1, by decide +kernel⟩

theorem witness_clockOutputStays : ∃ (s : State) (o : ClockOut), (!bitOf (s.n (outCfg o)) 0 || bits (s.n (outCfg o)) 2 1 == 3 || !fmtOk o (bits (s.n (outCfg o)) 5 4) || (s.clkOut o).run) :=
  ⟨live [], .mclk 1, by decide +kernel⟩

theorem witness_clockOutputDisable : ∃ (s : State) (o : ClockOut), (!bitOf (s.n (outCfg o)) 0 || bits (s.n (outCfg o)) 2 1 != (s.clkOut o).freq) ∧ ((s.clkOut o).run) ∧ (outIndex o < s.clk.outs.length) :=
  ⟨{ live [] with clk := { ClkSt.reset with outs := List.replicate 8 ⟨true, 1, 0, 0, 0, 0, 0, 0, false⟩ } }, .wclk 2, by decide +kernel⟩

theorem witness_clockOutputRuns : ∃ (s : State) (o : ClockOut), (!(s.clkOut o).run || bitOf (s.n (outCfg o)) 0 && bits (s.n (outCfg o)) 2 1 == (s.clkOut o).freq) :=
  ⟨live [], .wclk 2, by decide +kernel⟩

theorem witness_syncInEdge : ∃ (s : State) (_x : Fin 6), (s.quiet) ∧ (s.get R.CLK_SYNC_CTRL_MODE = 1) ∧ (s.is R.CLK_SYNC_CTRL_ARM ∨ s.is R.CLK_SYNC_CTRL_CONT) ∧ (s.clk.syncAt.all fun u => decide (u + usCyc 250 ≤ s.absCyc)) ∧ (s.clk.outs.length = 8) :=
  ⟨{ live [(0x20B0, 0x11)] with clk := { ClkSt.reset with outs := List.replicate 8 ⟨true, 1, 0, 0, 0, 0, 0, 0, false⟩ } }, 3, by decide +kernel⟩

theorem witness_syncInNot : ∃ (s : State) (_x : Fin 6), (s.get R.CLK_SYNC_CTRL_MODE ≠ 1 ∨ s.is R.CLK_SYNC_CTRL_ARM = false ∧ s.is R.CLK_SYNC_CTRL_CONT = false ∨ (s.clk.syncAt.any fun u => decide (s.absCyc < u + usCyc 250)) = true) :=
  ⟨{ live [(0x20B0, 0x11)] with cyc := 9000, clk := { ClkSt.reset with syncAt := some 10 } }, 3, by decide +kernel⟩

theorem witness_syncPtpSecond : ∃ (s : State), (s.quiet) ∧ (s.get R.CLK_SYNC_CTRL_MODE = 2) ∧ (s.hsiNow % 48000 = 0) ∧ (s.clk.outs.length = 8) :=
  ⟨{ live [(0x20B0, 2)] with clk := { ClkSt.reset with outs := List.replicate 8 ⟨true, 1, 0, 0, 7000, 0, 0, 0, false⟩ } }, by decide +kernel⟩

theorem witness_syncPtpNot : ∃ (s : State), (s.get R.CLK_SYNC_CTRL_MODE ≠ 2 ∨ s.hsiNow % 48000 ≠ 0) :=
  ⟨live [], by decide +kernel⟩

theorem witness_lockFWindow : ∃ (s : State) (_e : BitVec 16), (s.get R.CLK_LOCKF_CFG_FS = 0) :=
  ⟨live [(0x20B8, 1)], 100, by decide +kernel⟩

/-! PortLink. -/

theorem witness_pcsRestart : ∃ (s : State) (m : Master) (v : Word) (p : Fin 4), (s.takes m.toNat (macBase p + 0x80)) ∧ ((s.majW (macBase p + 0x80)).toNat % 4 ≠ v.toNat % 4) ∧ (p.val < s.macs.length) :=
  ⟨live [(0x1100C, 1)], 0, 3, 1, by decide +kernel⟩

theorem witness_linkUp : ∃ (s : State) (p : Fin 4), (s.quiet) ∧ (s.portOn p.val) ∧ (!s.is (R.MAC_S_LINK.pg p.val)) ∧ ((s.mac p).pcs + usCyc 1000 ≤ s.absCyc) :=
  ⟨{ live [] with slot := 9 }, 1, by decide +kernel⟩

theorem witness_linkUpEarly : ∃ (s : State) (p : Fin 4), (!s.portOn p.val || s.is (R.MAC_S_LINK.pg p.val) || decide (s.absCyc < (s.mac p).pcs + usCyc 1000)) :=
  ⟨live [], 1, by decide +kernel⟩

theorem witness_linkDown : ∃ (s : State) (p : Fin 4), (s.portOn p.val) ∧ (s.is (R.MAC_S_LINK.pg p.val)) :=
  ⟨live [(0x1100C, 1)], 1, by decide +kernel⟩

/-! FrameReception. -/

theorem witness_frameReceive : ∃ (s : State) (p : Fin 4) (frame : List Byte), (s.portOn p.val) ∧ (s.is (R.MAC_C_RX_EN.pg p.val)) ∧ (s.is (R.MAC_S_LINK.pg p.val)) ∧ (s.quiet) ∧ (!s.hostStalled) ∧ (!s.rxFull p frame.length) ∧ (64 ≤ frame.length) ∧ (frame.length ≤ s.maxLen p) ∧ (fcsOk frame) ∧ ((parseFrame (frame.take (frame.length - 4))).etype ≠ 0x8808) ∧ (s.addrOk p (parseFrame (frame.take (frame.length - 4))).dst) ∧ (s.vlanOk p (parseFrame (frame.take (frame.length - 4)))) ∧ (s.rxMatch p (parseFrame (frame.take (frame.length - 4))) = none) ∧ (!(List.range 16).any fun i => s.ruleHit p (parseFrame (frame.take (frame.length - 4))) i) ∧ (!s.is (R.MAC_DEF_RULE_DROP.pg p.val)) ∧ (!s.is (R.MAC_RX_CFG_STRIP.pg p.val)) ∧ (s.is ((R.MAC_RING_SIZE_EN.ix (s.get (R.MAC_DEF_RULE_RING.pg p.val))).pg p.val)) ∧ (s.ringHead p (s.get (R.MAC_DEF_RULE_RING.pg p.val)) ≠ s.ringTail p (s.get (R.MAC_DEF_RULE_RING.pg p.val))) :=
  ⟨live [(0x1100C, 1), (0x11008, 1), (0x11084, 0x92400), (0x11608, 0x104), (0x1160C, 3), (0x11098, 0)], 1, withFcs (List.replicate 60 0), by decide +kernel⟩

theorem witness_frameShort : ∃ (s : State) (p : Fin 4) (frame : List Byte), (s.portOn p.val) ∧ (s.is (R.MAC_C_RX_EN.pg p.val)) ∧ (s.is (R.MAC_S_LINK.pg p.val)) ∧ (s.quiet) ∧ (!s.rxFull p frame.length) ∧ (frame.length < 64) ∧ (fcsOk frame) :=
  ⟨live [(0x1000C, 1), (0x10008, 1)], 0, withFcs (List.replicate 20 0), by decide +kernel⟩

theorem witness_frameBadFcs : ∃ (s : State) (p : Fin 4) (frame : List Byte), (s.portOn p.val) ∧ (s.is (R.MAC_C_RX_EN.pg p.val)) ∧ (s.is (R.MAC_S_LINK.pg p.val)) ∧ (s.quiet) ∧ (!s.rxFull p frame.length) ∧ (64 ≤ frame.length) ∧ (frame.length ≤ s.maxLen p) ∧ (fcsOk frame = false) :=
  ⟨live [(0x1000C, 1), (0x10008, 1), (0x10084, 0x92400)], 0, List.replicate 64 1, by decide +kernel⟩

theorem witness_frameUnheard : ∃ (s : State) (p : Fin 4) (_frame : List Byte), (!s.portOn p.val || !s.is (R.MAC_C_RX_EN.pg p.val) || !s.is (R.MAC_S_LINK.pg p.val)) :=
  ⟨live [], 0, [], by decide +kernel⟩

/-! PauseAndIdle. -/

theorem witness_pauseFrameReceive : ∃ (s : State) (p : Fin 4) (q : BitVec 16), (s.portOn p.val) ∧ (s.is (R.MAC_C_RX_EN.pg p.val)) ∧ (s.is (R.MAC_S_LINK.pg p.val)) ∧ (s.quiet) ∧ (s.is (R.MAC_PAUSE_CFG_RX_EN.pg p.val)) ∧ (!s.rxFull p 64) ∧ (q ≠ 0) ∧ (p.val < s.macs.length) :=
  ⟨live [(0x1000C, 1), (0x10008, 1), (0x1008C, 1)], 0, 100, by decide +kernel⟩

theorem witness_pauseFrameZero : ∃ (s : State) (p : Fin 4), (s.portOn p.val) ∧ (s.is (R.MAC_C_RX_EN.pg p.val)) ∧ (s.is (R.MAC_S_LINK.pg p.val)) ∧ (s.quiet) ∧ (s.is (R.MAC_PAUSE_CFG_RX_EN.pg p.val)) ∧ (!s.rxFull p 64) ∧ (p.val < s.macs.length) :=
  ⟨live [(0x1000C, 5), (0x10008, 1), (0x1008C, 1)], 0, by decide +kernel⟩

theorem witness_pausedQueues : ∃ (s : State) (p : Fin 4), (s.is (R.MAC_S_PAUSED.pg p.val)) ∧ (s.nextRing p 0 = none) ∧ ((s.mac p).media = []) :=
  ⟨live [(0x1000C, 5), (0x10008, 3)], 0, by decide +kernel⟩

theorem witness_pauseExpire : ∃ (s : State) (p : Fin 4), (s.portOn p.val) ∧ (s.pauseLeft p = 0) :=
  ⟨live [(0x1300C, 4)], 3, by decide +kernel⟩

theorem witness_pauseLasts : ∃ (s : State) (p : Fin 4), (!s.portOn p.val || s.pauseLeft p != 0) :=
  ⟨{ live [] with macs := List.replicate 4 { MacSt.reset with pauseQ := 9 } }, 3, by decide +kernel⟩

theorem witness_lpiEntry : ∃ (s : State) (p : Fin 4), (s.quiet) ∧ (s.portOn p.val) ∧ (s.is (R.MAC_EEE_CFG_EN.pg p.val)) ∧ (!s.is (R.MAC_S_TX_LPI.pg p.val)) ∧ (!s.eeeBlocked p) ∧ (s.queuesEmpty p) ∧ ((s.mac p).sentAt + usCyc (s.get (R.MAC_EEE_CFG_LPI_IDLE.pg p.val)) ≤ s.absCyc) :=
  ⟨{ live [(0x10094, 1)] with slot := 9 }, 0, by decide +kernel⟩

theorem witness_lpiNot : ∃ (s : State) (p : Fin 4), (!s.portOn p.val || !s.is (R.MAC_EEE_CFG_EN.pg p.val) || s.is (R.MAC_S_TX_LPI.pg p.val) || s.eeeBlocked p || !s.queuesEmpty p || decide (s.absCyc < (s.mac p).sentAt + usCyc (s.get (R.MAC_EEE_CFG_LPI_IDLE.pg p.val)))) :=
  ⟨live [], 0, by decide +kernel⟩

theorem witness_lpiWake : ∃ (s : State) (p : Fin 4), (s.is (R.MAC_S_TX_LPI.pg p.val)) ∧ (p.val < s.macs.length) :=
  ⟨live [(0x1000C, 8)], 0, by decide +kernel⟩

theorem witness_rxLpiEntry : ∃ (s : State) (p : Fin 4), (s.quiet) ∧ (s.portOn p.val) ∧ (!s.is (R.MAC_S_RX_LPI.pg p.val)) ∧ (s.is (R.MAC_C_RX_EN.pg p.val)) :=
  ⟨live [(0x10008, 1)], 0, by decide +kernel⟩

theorem witness_rxLpiEntryOff : ∃ (s : State) (p : Fin 4), (s.portOn p.val) ∧ (s.is (R.MAC_C_RX_EN.pg p.val) = false) :=
  ⟨live [], 0, by decide +kernel⟩

theorem witness_rxLpiExit : ∃ (s : State) (p : Fin 4), (s.portOn p.val) :=
  ⟨live [(0x1000C, 0x10)], 0, by decide +kernel⟩

/-! LegsAndLineErrors. -/

theorem witness_legTimeout : ∃ (s : State) (n : Fin 256) (l : Fin 2), (s.quiet) ∧ (s.pageOn eRXS) ∧ (s.mapBit (legMap l) n) ∧ ((s.rxCtx n).legLast.getD l 0 + (if bits (s.n (winKey 13 1 (32 * n.val + 5))) 23 16 = 0 then 8 else bits (s.n (winKey 13 1 (32 * n.val + 5))) 23 16) ≤ s.slot) :=
  ⟨{ live [(0x210A0, 8), (winKey 13 1 101, 0x20000)] with slot := 2 }, 3, 0, by decide +kernel⟩

theorem witness_legStays : ∃ (s : State) (n : Fin 256) (l : Fin 2), (s.pageOn eRXS = false ∨ s.mapBit (legMap l) n = false ∨ ¬ (s.rxCtx n).legLast.getD l 0 + (if bits (s.n (winKey 13 1 (32 * n.val + 5))) 23 16 = 0 then 8 else bits (s.n (winKey 13 1 (32 * n.val + 5))) 23 16) ≤ s.slot) :=
  ⟨live [], 3, 0, by decide +kernel⟩

theorem witness_pcsBlockError : ∃ (s : State) (p : Fin 4), (s.quiet) ∧ (s.portOn p.val) ∧ (s.is (R.MAC_C_RX_EN.pg p.val)) :=
  ⟨live [(0x12008, 1)], 2, by decide +kernel⟩

theorem witness_pcsBlockErrorOff : ∃ (s : State) (p : Fin 4), (!s.portOn p.val || !s.is (R.MAC_C_RX_EN.pg p.val)) :=
  ⟨live [], 2, by decide +kernel⟩

theorem witness_pcsBlockErrorApsal : ∃ (s : State) (_q : Fin 2), (s.pageOn eAPL) :=
  ⟨live [], 1, by decide +kernel⟩

theorem witness_fecCodewordError : ∃ (s : State) (p : Fin 4), (s.quiet) ∧ (s.portOn p.val) ∧ (s.is (R.MAC_S_FEC_ACTIVE.pg p.val)) ∧ (s.is (R.MAC_C_RX_EN.pg p.val)) :=
  ⟨live [(0x1000C, 2), (0x10008, 1)], 0, by decide +kernel⟩

theorem witness_fecCodewordCorrected : ∃ (s : State) (p : Fin 4), (s.quiet) ∧ (s.portOn p.val) ∧ (s.is (R.MAC_S_FEC_ACTIVE.pg p.val)) ∧ (s.is (R.MAC_C_RX_EN.pg p.val)) :=
  ⟨live [(0x1000C, 2), (0x10008, 1)], 0, by decide +kernel⟩

theorem witness_fecCodewordOff : ∃ (s : State) (p : Fin 4) (_k : Bool), (s.quiet) ∧ (!s.portOn p.val || !s.is (R.MAC_S_FEC_ACTIVE.pg p.val) || !s.is (R.MAC_C_RX_EN.pg p.val)) :=
  ⟨live [(0x1000C, 2)], 0, true, by decide +kernel⟩

/-! ControlRings. -/

theorem witness_ringEnable : ∃ (s : State) (m : Master) (v : Word) (p : Fin 4) (r : Fin 8), (s.takes m.toNat (macBase p + 0x608 + 32 * r.val)) ∧ (bitOf v.toNat 8) ∧ (!bitOf (s.majW (macBase p + 0x608 + 32 * r.val)).toNat 8) :=
  ⟨live [(0x11630, 5)], 0, 0x104, 1, 1, by decide +kernel⟩

theorem witness_ringTailWrite : ∃ (s : State) (m : Master) (_v : Word) (p : Fin 4) (r : Fin 8) (_bytes : List (Nat × Byte)), (s.takes m.toNat (macBase p + 0x60C + 32 * r.val)) :=
  ⟨live [], 0, 2, 1, 4, [(64, 7)], by decide +kernel⟩

theorem witness_frameTransmit : ∃ (s : State) (p : Fin 4) (f : MediaFrame) (rest : List MediaFrame), (s.portOn p.val) ∧ (s.is (R.MAC_C_TX_EN.pg p.val)) ∧ (!s.is (R.MAC_S_TX_LPI.pg p.val)) ∧ ((s.mac p).hold ≤ s.absCyc) ∧ (s.nextRing p 0 = none) ∧ ((s.mac p).media = f :: rest) ∧ (s.is (R.MAC_S_LINK.pg p.val)) ∧ (!s.looped p) :=
  ⟨{ live [(0x1000C, 1), (0x10008, 2)] with macs := { MacSt.reset with media := [⟨3, [1, 2]⟩] } :: List.replicate 3 MacSt.reset }, 0, ⟨3, [1, 2]⟩, [], by decide +kernel⟩

theorem witness_frameTransmitLooped : ∃ (s : State) (p : Fin 4) (f : MediaFrame) (rest : List MediaFrame), (s.portOn p.val) ∧ (s.is (R.MAC_C_TX_EN.pg p.val)) ∧ (!s.is (R.MAC_S_TX_LPI.pg p.val)) ∧ ((s.mac p).hold ≤ s.absCyc) ∧ (s.nextRing p 0 = none) ∧ ((s.mac p).media = f :: rest) ∧ (s.is (R.MAC_S_LINK.pg p.val)) ∧ (s.looped p) :=
  ⟨{ stW [(0x1000C, 1), (0x10008, 2), (0x10080, 0x11), (0x1088, 0x3FFF), (0x9C, 5)] with macs := { MacSt.reset with media := [⟨3, [1, 2]⟩] } :: List.replicate 3 MacSt.reset }, 0, ⟨3, [1, 2]⟩, [], by decide +kernel⟩

theorem witness_txDescriptorComplete : ∃ (s : State) (p : Fin 4) (r : Fin 8) (x : TxDone) (rest : List TxDone), (s.quiet) ∧ (s.portOn p.val) ∧ (!s.hostStalled) ∧ (4 ≤ r.val) ∧ (((s.mac p).ring r).done = x :: rest) :=
  ⟨{ live [] with macs := { MacSt.reset with rings := [⟨1, [⟨false, 0, none⟩]⟩, ⟨0, []⟩, ⟨0, []⟩, ⟨0, []⟩] } :: List.replicate 3 MacSt.reset }, 0, 4, ⟨false, 0, none⟩, [], by decide +kernel⟩

/-! AudioControls. -/

theorem witness_dcFreeze : ∃ (s : State) (m : Master) (_v : Word) (x : Fin 32), (s.takes m.toNat (0x31080 + 4 * x.val)) :=
  ⟨live [], 0, 2, 5, by decide +kernel⟩

theorem witness_dcClear : ∃ (s : State) (m : Master) (_v : Word) (x : Fin 32), (s.takes m.toNat (0x31100 + 4 * x.val)) :=
  ⟨live [], 0, 2, 5, by decide +kernel⟩

theorem witness_fadeCmd : ∃ (s : State) (m : Master) (v : Word), (s.takes m.toNat 0x70090) ∧ (bitOf v.toNat 31) ∧ (s.mix.fifo.length < 256) :=
  ⟨live [(0x7008C, 0x1234)], 0, 0x80000005, by decide +kernel⟩

theorem witness_fadeCmdFull : ∃ (s : State) (m : Master) (v : Word), (s.takes m.toNat 0x70090) ∧ (s.quiet) ∧ (bitOf v.toNat 31) ∧ (256 ≤ s.mix.fifo.length) :=
  ⟨{ live [] with mix := { MixSt.reset with fifo := List.replicate 256 (0, 0) } }, 0, 0x80000005, by decide +kernel⟩

theorem witness_testCfgWrite : ∃ (s : State) (m : Master) (_v : Word), (s.takes m.toNat 0x70084) :=
  ⟨{ live [] with mix := { MixSt.reset with phase := 9 } }, 0, 0xFC000001, by decide +kernel⟩

theorem witness_mute : ∃ (s : State) (m : Master) (_v : Word) (x : Fin 16), (s.takes m.toNat (0x79080 + 4 * x.val)) :=
  ⟨live [], 0, 6, 3, by decide +kernel⟩

theorem witness_muteAll : ∃ (s : State) (m : Master) (_v : Word), (s.takes m.toNat 0x78008) :=
  ⟨live [], 0, 2, by decide +kernel⟩

/-! MetadataAndBulk. -/

theorem witness_metadataPush : ∃ (s : State) (m : Master) (slot : Fin 128) (ofs : Fin 32) (d : List Byte), (s.servesSram m.toNat (0x11790000 + 32 * slot.val + ofs.val) d.length true) ∧ (s.clean (0x11790000 + 32 * slot.val + ofs.val) d.length) ∧ (ofs.val + d.length = 32) ∧ (s.pushCode (s.bytes (0x11790000 + 32 * slot.val) ofs.val ++ d) = 0) :=
  ⟨live [(0x98, 2)], 0, 3, 16, [5] ++ List.replicate 15 0, by decide +kernel⟩

theorem witness_metadataRejected : ∃ (s : State) (m : Master) (slot : Fin 128) (ofs : Fin 32) (d : List Byte), (s.servesSram m.toNat (0x11790000 + 32 * slot.val + ofs.val) d.length true) ∧ (s.clean (0x11790000 + 32 * slot.val + ofs.val) d.length) ∧ (ofs.val + d.length = 32) ∧ (s.pushReason (s.bytes (0x11790000 + 32 * slot.val) ofs.val ++ d) ≠ 0) ∧ (s.quiet) :=
  ⟨live [(0x98, 2)], 0, 3, 0, [5, 0, 4, 16] ++ List.replicate 28 0, by decide +kernel⟩

theorem witness_metadataPart : ∃ (s : State) (m : Master) (slot : Fin 128) (ofs : Fin 32) (d : List Byte), (s.servesSram m.toNat (0x11790000 + 32 * slot.val + ofs.val) d.length true) ∧ (s.clean (0x11790000 + 32 * slot.val + ofs.val) d.length) ∧ (ofs.val + d.length < 32) :=
  ⟨live [], 0, 3, 4, [5, 6, 7, 8], by decide +kernel⟩

theorem witness_qFlush : ∃ (s : State) (m : Master) (v : Word), (s.takes m.toNat 0x6008C) ∧ (bitOf v.toNat 31) :=
  ⟨{ live [] with objs := [(5, { ObjSt.reset with queue := [(0, [])] })] }, 0, 0x80000005, by decide +kernel⟩

theorem witness_ringMetadataPush : ∃ (s : State) (b : List Byte), (s.ringOn) ∧ (s.pageOn eOBJ) ∧ (s.role = 1) ∧ (!s.spareNow) ∧ (s.ring.recs = [b]) ∧ (s.pushCode b = 0) :=
  ⟨{ live [(0xC2008, 1), (0x98, 1)] with ring := { RingSt.reset with recs := [[5] ++ List.replicate 31 0] } }, [5] ++ List.replicate 31 0, by decide +kernel⟩

theorem witness_bulkGo : ∃ (s : State) (m : Master) (v : Word), (s.takes m.toNat 0xC2104) ∧ (bitOf v.toNat 0) ∧ (s.ring.bulk = none) :=
  ⟨live [(0xC20F0, 0x117C0000), (0xC2100, 64)], 0, 1, by decide +kernel⟩

theorem witness_bulkDone : ∃ (s : State) (q : BulkOut), (s.quiet) ∧ (s.ring.bulk = some q) ∧ (q.len ≤ q.sent) :=
  ⟨{ live [(0xC2104, 0x100)] with ring := { RingSt.reset with bulk := some ⟨0, 0, 3, 64, 64⟩ } }, ⟨0, 0, 3, 64, 64⟩, by decide +kernel⟩

theorem witness_bulkWrite : ∃ (s : State) (a : Addr) (d : List Byte), (s.ringOn) ∧ (blockPieces d.length a.toNat d = [(a.toNat, d)]) ∧ (s.servesSram 3 a.toNat d.length true) ∧ (s.clean a.toNat d.length) ∧ (plainArea a.toNat d.length) ∧ (inboxSlot a.toNat d.length = none) :=
  ⟨live [(0xC2008, 1)], 0x117C0040, List.replicate 16 5, by decide +kernel⟩

/-! LocalPress. -/

theorem witness_pressGo : ∃ (s : State) (m : Master) (v : Word), (s.takes m.toNat 0x8090) ∧ (bitOf v.toNat 0) ∧ (!bitOf v.toNat 1) ∧ (!bitOf v.toNat 2) ∧ (s.pressMode) ∧ (s.press = none) ∧ (!s.pressForbidden false) :=
  ⟨live [(0x8088, 100)], 0, 0x501, by decide +kernel⟩

theorem witness_pressRingGo : ∃ (s : State) (m : Master) (v : Word), (s.takes m.toNat 0x8090) ∧ (bitOf v.toNat 0) ∧ (!bitOf v.toNat 1) ∧ (bitOf v.toNat 2) ∧ (s.isManager) ∧ (s.pressMode) ∧ (s.press = none) ∧ (!s.pressForbidden true) ∧ (s.sheet + 16 ≤ ((if bitOf v.toNat 3 then s.sheet else 0) + s.get64 0x8088 % 2 ^ 48)) :=
  ⟨live [(0x8088, 100), (0x98, 0)], 0, 0x505, by decide +kernel⟩

theorem witness_pressGoRefused : ∃ (s : State) (m : Master) (v : Word), (s.takes m.toNat 0x8090) ∧ (s.quiet) ∧ (bitOf v.toNat 0) ∧ (!bitOf v.toNat 1) ∧ (!s.pressMode || s.press.isSome || s.pressForbidden (bitOf v.toNat 2 && s.isManager) || (bitOf v.toNat 2 && s.isManager && decide (((if bitOf v.toNat 3 then s.sheet else 0) + s.get64 0x8088 % 2 ^ 48) < s.sheet + 16))) :=
  ⟨{ live [(0x800C, 1)] with press := some ⟨9, 5, false, 0, false, none, [], none, none⟩ }, 0, 0x501, by decide +kernel⟩

theorem witness_pressAbort : ∃ (s : State) (m : Master) (v : Word) (p : PressSt), (s.takes m.toNat 0x8090) ∧ (s.quiet) ∧ (bitOf v.toNat 1) ∧ (!bitOf v.toNat 0) ∧ (s.press = some p) ∧ (!p.ring) ∧ (s.sheet + 1 < p.sheet) :=
  ⟨{ live [(0x800C, 1)] with press := some ⟨9, 5, false, 0, false, none, [], none, none⟩ }, 0, 2, ⟨9, 5, false, 0, false, none, [], none, none⟩, by decide +kernel⟩

theorem witness_pressChecksDone : ∃ (s : State) (p : PressSt), (s.quiet) ∧ (s.press = some p) ∧ (s.pageOn ePRESS) ∧ (p.own = none) ∧ (!p.ring) :=
  ⟨{ live [(0x800C, 1)] with press := some ⟨9, 5, false, 0, false, none, [], none, none⟩ }, ⟨9, 5, false, 0, false, none, [], none, none⟩, by decide +kernel⟩

theorem witness_pressCommit : ∃ (s : State) (p : PressSt), (s.quiet) ∧ (s.press = some p) ∧ (s.pageOn ePRESS) ∧ (p.own = some (0, 0, 0)) ∧ (!p.ring) ∧ (s.cyc = 0) ∧ (p.sheet ≤ s.sheet) :=
  ⟨{ live [(0x800C, 1), (0x8080, 96)] with press := some ⟨0, 5, false, 0, false, some (0, 0, 0), [], none, none⟩ }, ⟨0, 5, false, 0, false, some (0, 0, 0), [], none, none⟩, by decide +kernel⟩

/-! ConvControlAndTail. -/

theorem witness_convEnable : ∃ (s : State) (m : Master) (v : Word), (s.takes m.toNat 0x80008) ∧ (bitOf v.toNat 0) ∧ (!bitOf (s.majW 0x80008).toNat 0) :=
  ⟨{ live [] with conv := { ConvSt.reset with n := 7, blocks1 := 3 } }, 0, 1, by decide +kernel⟩

theorem witness_convDisable : ∃ (s : State) (m : Master) (v : Word), (s.takes m.toNat 0x80008) ∧ (!bitOf v.toNat 0) ∧ (!s.is R.CONV_S_XFADE) :=
  ⟨{ live [(0x80008, 1)] with conv := { ConvSt.reset with n := 7 } }, 0, 0, by decide +kernel⟩

theorem witness_convDramBaseWrite : ∃ (s : State) (m : Master) (v : Word), (s.takes m.toNat 0x80084) ∧ (!s.is R.CONV_C_EN) ∧ ((s.majW 0x80084).toNat % 8192 ≠ v.toNat % 8192) :=
  ⟨live [], 0, 3, by decide +kernel⟩

theorem witness_tailFetchDeadline : ∃ (s : State) (_o : Fin 512) (_ms : List (Fin 28)) (w : Win) (rest : List Win), (s.quiet) ∧ (s.conv.wins = w :: rest) ∧ (w.closed) ∧ (w.sets = [0] ∨ w.sets = [1] ∨ w.sets = [0, 1]) ∧ (!rest.any fun x => x.m == w.m) :=
  ⟨{ live [] with slot := 80, conv := { ConvSt.reset with wins := [⟨20, 10, false, [0], [], true, [(7, [⟨0, [], []⟩, ⟨2, [], []⟩, ⟨6, [], []⟩])], 0, 0, 0⟩] } }, 7, [0, 2, 5], ⟨20, 10, false, [0], [], true, [(7, [⟨0, [], []⟩, ⟨2, [], []⟩, ⟨6, [], []⟩])], 0, 0, 0⟩, [], by decide +kernel⟩

theorem witness_tailFetchNone : ∃ (s : State) (_o : Fin 512) (_ms : List (Fin 28)), (!s.conv.wins.any fun w => w.closed) :=
  ⟨live [], 7, [1], by decide +kernel⟩

theorem witness_convVerifyDone : ∃ (s : State), (s.quiet) ∧ (s.is R.CONV_S_VERIFYING) ∧ (!s.chanWaits) ∧ (s.setState 0 = csEmpty) ∧ (s.setState 1 = csEmpty) ∧ (!s.bypassCause) :=
  ⟨live [(0x8000C, 0x11)], by decide +kernel⟩

theorem witness_convVerifyLost : ∃ (s : State), (s.quiet) ∧ (s.is R.CONV_S_VERIFYING) ∧ (!s.chanWaits) ∧ (s.setState s.convActive = csReady) ∧ (s.setState (1 - s.convActive) = csEmpty) ∧ ((s.specDigest s.convActive).1 ≠ some (s.digest s.convActive)) :=
  ⟨live [(0x8000C, 0x11), (0x80090, 2), (0x800B0, 77)], by decide +kernel⟩

theorem witness_convVerifyNone : ∃ (s : State), (!s.is R.CONV_S_VERIFYING || s.chanWaits) :=
  ⟨live [], by decide +kernel⟩

/-! ConvLoads. -/

theorem witness_convLoad : ∃ (s : State) (m : Master) (v : Word), (s.takes m.toNat 0x80088) ∧ (bitOf v.toNat 4) ∧ (!bitOf v.toNat 6) ∧ (s.loadRefusal (v.toNat % 2) false = 0) :=
  ⟨live [(0xB8080, 0), (0x80084, 512), (0xB000C, 2)], 0, 0x11, by decide +kernel⟩

theorem witness_convReload : ∃ (s : State) (m : Master) (v : Word), (s.takes m.toNat 0x80088) ∧ (bitOf v.toNat 5) ∧ (!bitOf v.toNat 4) ∧ (!bitOf v.toNat 6) ∧ (s.loadRefusal (v.toNat % 2) true = 0) :=
  ⟨live [(0xB8080, 0), (0x80084, 512), (0xB000C, 2), (0x80090, 5)], 0, 0x20, by decide +kernel⟩

theorem witness_convLoadRefused : ∃ (s : State) (m : Master) (v : Word), (s.takes m.toNat 0x80088) ∧ (s.quiet) ∧ (bitOf v.toNat 4 || bitOf v.toNat 5) ∧ (!bitOf v.toNat 6) ∧ (s.loadRefusal (v.toNat % 2) (!bitOf v.toNat 4) ≠ 0) :=
  ⟨live [], 0, 0x10, by decide +kernel⟩

theorem witness_convLoadAbort : ∃ (s : State) (m : Master) (v : Word), (s.takes m.toNat 0x80088) ∧ (bitOf v.toNat 6) ∧ (!bitOf v.toNat 4) ∧ (!bitOf v.toNat 5) :=
  ⟨{ live [(0x8000C, 4), (0x8008C, 16), (0x80090, 0x10)] with conv := { ConvSt.reset with load := some ⟨0, false, 9, 5, true, false⟩ } }, 0, 0x40, by decide +kernel⟩

theorem witness_convLoadFail : ∃ (s : State) (_r : Fin 16) (l : LoadSt), (s.quiet) ∧ (s.conv.load = some l) ∧ (l.set < 2) :=
  ⟨{ live [(0x8000C, 4), (0x8008C, 16), (0x80090, 0x10)] with conv := { ConvSt.reset with load := some ⟨0, false, 9, 5, true, false⟩ } }, 5, ⟨0, false, 9, 5, true, false⟩, by decide +kernel⟩

theorem witness_convLoadFailNone : ∃ (s : State) (_r : Fin 16), (s.conv.load = none) :=
  ⟨live [], 5, by decide +kernel⟩

/-! ConvLoadCompletes. -/

theorem witness_convLoadDone : ∃ (s : State) (l : LoadSt), (s.quiet) ∧ (s.conv.load = some l) ∧ (!s.chanWaits) ∧ (l.set < 2) ∧ (!l.abort) ∧ (!l.reload) ∧ (l.done ≤ 512) ∧ (s.convPopulated) ∧ (s.dramErr = []) :=
  ⟨{ live [(0xB8080, 0), (0xB000C, 2), (0x80084, 512), (0x8000C, 4), (0x8008C, 16), (0x80090, 0x10)] with conv := { ConvSt.reset with load := some ⟨0, false, 500, 5, true, false⟩ } }, ⟨0, false, 500, 5, true, false⟩, by decide +kernel⟩

theorem witness_convAbortEnds : ∃ (s : State) (l : LoadSt), (s.quiet) ∧ (s.conv.load = some l) ∧ (!s.chanWaits) ∧ (l.set < 2) ∧ (l.abort) ∧ (!l.reload) :=
  ⟨{ live [(0xB8080, 0), (0xB000C, 2), (0x80084, 512), (0x8000C, 4), (0x8008C, 16), (0x80090, 0x10)] with conv := { ConvSt.reset with load := some ⟨0, false, 500, 5, true, true⟩ } }, ⟨0, false, 500, 5, true, true⟩, by decide +kernel⟩

theorem witness_convLoadDoneNone : ∃ (s : State), (s.conv.load = none ∨ s.chanWaits = true) :=
  ⟨live [], by decide +kernel⟩

/-! IeArithmeticAndLogic. -/

theorem witness_ieAdd : ∃ (s : State) (e : Fin 8) (i : IeSt) (_st : Bool) (_rd : Fin 16) (_rs : Fin 16) (_rt : Fin 16), (s.ie e.val = i) ∧ (s.plainIssue e.val) :=
  ⟨{ live [(0x9000C, 3)] with ies := [(0, { IeSt.reset with d := [(1, 0x7FFFFFFF), (2, 7), (3, 0xFFFFFFF0)], acc := [(1, 5)], pc := 100, sp := [(0, 3), (33, 64)] })] }, 0, { IeSt.reset with d := [(1, 0x7FFFFFFF), (2, 7), (3, 0xFFFFFFF0)], acc := [(1, 5)], pc := 100, sp := [(0, 3), (33, 64)] }, true, 4, 1, 2, by decide +kernel⟩

theorem witness_ieSub : ∃ (s : State) (e : Fin 8) (i : IeSt) (_st : Bool) (_rd : Fin 16) (_rs : Fin 16) (_rt : Fin 16), (s.ie e.val = i) ∧ (s.plainIssue e.val) :=
  ⟨{ live [(0x9000C, 3)] with ies := [(0, { IeSt.reset with d := [(1, 0x7FFFFFFF), (2, 7), (3, 0xFFFFFFF0)], acc := [(1, 5)], pc := 100, sp := [(0, 3), (33, 64)] })] }, 0, { IeSt.reset with d := [(1, 0x7FFFFFFF), (2, 7), (3, 0xFFFFFFF0)], acc := [(1, 5)], pc := 100, sp := [(0, 3), (33, 64)] }, true, 4, 2, 1, by decide +kernel⟩

theorem witness_ieAddi : ∃ (s : State) (e : Fin 8) (i : IeSt) (_st : Bool) (_rd : Fin 16) (_rs : Fin 16) (_imm : BitVec 17), (s.ie e.val = i) ∧ (s.plainIssue e.val) :=
  ⟨{ live [(0x9000C, 3)] with ies := [(0, { IeSt.reset with d := [(1, 0x7FFFFFFF), (2, 7), (3, 0xFFFFFFF0)], acc := [(1, 5)], pc := 100, sp := [(0, 3), (33, 64)] })] }, 0, { IeSt.reset with d := [(1, 0x7FFFFFFF), (2, 7), (3, 0xFFFFFFF0)], acc := [(1, 5)], pc := 100, sp := [(0, 3), (33, 64)] }, true, 4, 1, 5, by decide +kernel⟩

theorem witness_ieNeg : ∃ (s : State) (e : Fin 8) (i : IeSt) (_st : Bool) (_rd : Fin 16) (_rs : Fin 16), (s.ie e.val = i) ∧ (s.plainIssue e.val) :=
  ⟨{ live [(0x9000C, 3)] with ies := [(0, { IeSt.reset with d := [(1, 0x7FFFFFFF), (2, 7), (3, 0xFFFFFFF0)], acc := [(1, 5)], pc := 100, sp := [(0, 3), (33, 64)] })] }, 0, { IeSt.reset with d := [(1, 0x7FFFFFFF), (2, 7), (3, 0xFFFFFFF0)], acc := [(1, 5)], pc := 100, sp := [(0, 3), (33, 64)] }, true, 4, 2, by decide +kernel⟩

theorem witness_ieAbs : ∃ (s : State) (e : Fin 8) (i : IeSt) (_st : Bool) (_rd : Fin 16) (_rs : Fin 16), (s.ie e.val = i) ∧ (s.plainIssue e.val) :=
  ⟨{ live [(0x9000C, 3)] with ies := [(0, { IeSt.reset with d := [(1, 0x7FFFFFFF), (2, 7), (3, 0xFFFFFFF0)], acc := [(1, 5)], pc := 100, sp := [(0, 3), (33, 64)] })] }, 0, { IeSt.reset with d := [(1, 0x7FFFFFFF), (2, 7), (3, 0xFFFFFFF0)], acc := [(1, 5)], pc := 100, sp := [(0, 3), (33, 64)] }, true, 4, 3, by decide +kernel⟩

theorem witness_ieMulq : ∃ (s : State) (e : Fin 8) (i : IeSt) (_st : Bool) (_rd : Fin 16) (_rs : Fin 16) (_rt : Fin 16), (s.ie e.val = i) ∧ (s.plainIssue e.val) :=
  ⟨{ live [(0x9000C, 3)] with ies := [(0, { IeSt.reset with d := [(1, 0x7FFFFFFF), (2, 7), (3, 0xFFFFFFF0)], acc := [(1, 5)], pc := 100, sp := [(0, 3), (33, 64)] })] }, 0, { IeSt.reset with d := [(1, 0x7FFFFFFF), (2, 7), (3, 0xFFFFFFF0)], acc := [(1, 5)], pc := 100, sp := [(0, 3), (33, 64)] }, true, 4, 1, 2, by decide +kernel⟩

theorem witness_ieShli : ∃ (s : State) (e : Fin 8) (i : IeSt) (_st : Bool) (_rd : Fin 16) (_rs : Fin 16) (_sh : BitVec 5), (s.ie e.val = i) ∧ (s.plainIssue e.val) :=
  ⟨{ live [(0x9000C, 3)] with ies := [(0, { IeSt.reset with d := [(1, 0x7FFFFFFF), (2, 7), (3, 0xFFFFFFF0)], acc := [(1, 5)], pc := 100, sp := [(0, 3), (33, 64)] })] }, 0, { IeSt.reset with d := [(1, 0x7FFFFFFF), (2, 7), (3, 0xFFFFFFF0)], acc := [(1, 5)], pc := 100, sp := [(0, 3), (33, 64)] }, true, 4, 1, 3, by decide +kernel⟩

theorem witness_ieSrai : ∃ (s : State) (e : Fin 8) (i : IeSt) (_rd : Fin 16) (_rs : Fin 16) (_sh : BitVec 5) (_rnd : Bool), (s.ie e.val = i) ∧ (s.plainIssue e.val) :=
  ⟨{ live [(0x9000C, 3)] with ies := [(0, { IeSt.reset with d := [(1, 0x7FFFFFFF), (2, 7), (3, 0xFFFFFFF0)], acc := [(1, 5)], pc := 100, sp := [(0, 3), (33, 64)] })] }, 0, { IeSt.reset with d := [(1, 0x7FFFFFFF), (2, 7), (3, 0xFFFFFFF0)], acc := [(1, 5)], pc := 100, sp := [(0, 3), (33, 64)] }, 4, 3, 2, true, by decide +kernel⟩

theorem witness_ieMin : ∃ (s : State) (e : Fin 8) (i : IeSt) (_rd : Fin 16) (_rs : Fin 16) (_rt : Fin 16), (s.ie e.val = i) ∧ (s.plainIssue e.val) :=
  ⟨{ live [(0x9000C, 3)] with ies := [(0, { IeSt.reset with d := [(1, 0x7FFFFFFF), (2, 7), (3, 0xFFFFFFF0)], acc := [(1, 5)], pc := 100, sp := [(0, 3), (33, 64)] })] }, 0, { IeSt.reset with d := [(1, 0x7FFFFFFF), (2, 7), (3, 0xFFFFFFF0)], acc := [(1, 5)], pc := 100, sp := [(0, 3), (33, 64)] }, 4, 1, 3, by decide +kernel⟩

theorem witness_ieMax : ∃ (s : State) (e : Fin 8) (i : IeSt) (_rd : Fin 16) (_rs : Fin 16) (_rt : Fin 16), (s.ie e.val = i) ∧ (s.plainIssue e.val) :=
  ⟨{ live [(0x9000C, 3)] with ies := [(0, { IeSt.reset with d := [(1, 0x7FFFFFFF), (2, 7), (3, 0xFFFFFFF0)], acc := [(1, 5)], pc := 100, sp := [(0, 3), (33, 64)] })] }, 0, { IeSt.reset with d := [(1, 0x7FFFFFFF), (2, 7), (3, 0xFFFFFFF0)], acc := [(1, 5)], pc := 100, sp := [(0, 3), (33, 64)] }, 4, 1, 3, by decide +kernel⟩

theorem witness_ieAnd : ∃ (s : State) (e : Fin 8) (i : IeSt) (_rd : Fin 16) (_rs : Fin 16) (_rt : Fin 16), (s.ie e.val = i) ∧ (s.plainIssue e.val) :=
  ⟨{ live [(0x9000C, 3)] with ies := [(0, { IeSt.reset with d := [(1, 0x7FFFFFFF), (2, 7), (3, 0xFFFFFFF0)], acc := [(1, 5)], pc := 100, sp := [(0, 3), (33, 64)] })] }, 0, { IeSt.reset with d := [(1, 0x7FFFFFFF), (2, 7), (3, 0xFFFFFFF0)], acc := [(1, 5)], pc := 100, sp := [(0, 3), (33, 64)] }, 4, 1, 3, by decide +kernel⟩

theorem witness_ieOr : ∃ (s : State) (e : Fin 8) (i : IeSt) (_rd : Fin 16) (_rs : Fin 16) (_rt : Fin 16), (s.ie e.val = i) ∧ (s.plainIssue e.val) :=
  ⟨{ live [(0x9000C, 3)] with ies := [(0, { IeSt.reset with d := [(1, 0x7FFFFFFF), (2, 7), (3, 0xFFFFFFF0)], acc := [(1, 5)], pc := 100, sp := [(0, 3), (33, 64)] })] }, 0, { IeSt.reset with d := [(1, 0x7FFFFFFF), (2, 7), (3, 0xFFFFFFF0)], acc := [(1, 5)], pc := 100, sp := [(0, 3), (33, 64)] }, 4, 1, 3, by decide +kernel⟩

theorem witness_ieXor : ∃ (s : State) (e : Fin 8) (i : IeSt) (_rd : Fin 16) (_rs : Fin 16) (_rt : Fin 16), (s.ie e.val = i) ∧ (s.plainIssue e.val) :=
  ⟨{ live [(0x9000C, 3)] with ies := [(0, { IeSt.reset with d := [(1, 0x7FFFFFFF), (2, 7), (3, 0xFFFFFFF0)], acc := [(1, 5)], pc := 100, sp := [(0, 3), (33, 64)] })] }, 0, { IeSt.reset with d := [(1, 0x7FFFFFFF), (2, 7), (3, 0xFFFFFFF0)], acc := [(1, 5)], pc := 100, sp := [(0, 3), (33, 64)] }, 4, 1, 3, by decide +kernel⟩

theorem witness_ieOri : ∃ (s : State) (e : Fin 8) (i : IeSt) (_rd : Fin 16) (_rs : Fin 16) (_imm : BitVec 16), (s.ie e.val = i) ∧ (s.plainIssue e.val) :=
  ⟨{ live [(0x9000C, 3)] with ies := [(0, { IeSt.reset with d := [(1, 0x7FFFFFFF), (2, 7), (3, 0xFFFFFFF0)], acc := [(1, 5)], pc := 100, sp := [(0, 3), (33, 64)] })] }, 0, { IeSt.reset with d := [(1, 0x7FFFFFFF), (2, 7), (3, 0xFFFFFFF0)], acc := [(1, 5)], pc := 100, sp := [(0, 3), (33, 64)] }, 4, 1, 3, by decide +kernel⟩

theorem witness_ieShr : ∃ (s : State) (e : Fin 8) (i : IeSt) (_rd : Fin 16) (_rs : Fin 16) (_sh : BitVec 5), (s.ie e.val = i) ∧ (s.plainIssue e.val) :=
  ⟨{ live [(0x9000C, 3)] with ies := [(0, { IeSt.reset with d := [(1, 0x7FFFFFFF), (2, 7), (3, 0xFFFFFFF0)], acc := [(1, 5)], pc := 100, sp := [(0, 3), (33, 64)] })] }, 0, { IeSt.reset with d := [(1, 0x7FFFFFFF), (2, 7), (3, 0xFFFFFFF0)], acc := [(1, 5)], pc := 100, sp := [(0, 3), (33, 64)] }, 4, 3, 3, by decide +kernel⟩

theorem witness_ieMov : ∃ (s : State) (e : Fin 8) (i : IeSt) (_rd : Fin 16) (_rs : Fin 16), (s.ie e.val = i) ∧ (s.plainIssue e.val) :=
  ⟨{ live [(0x9000C, 3)] with ies := [(0, { IeSt.reset with d := [(1, 0x7FFFFFFF), (2, 7), (3, 0xFFFFFFF0)], acc := [(1, 5)], pc := 100, sp := [(0, 3), (33, 64)] })] }, 0, { IeSt.reset with d := [(1, 0x7FFFFFFF), (2, 7), (3, 0xFFFFFFF0)], acc := [(1, 5)], pc := 100, sp := [(0, 3), (33, 64)] }, 4, 3, by decide +kernel⟩

/-! IeComparesAndMoves. -/

theorem witness_ieCmp : ∃ (s : State) (e : Fin 8) (i : IeSt) (_rs : Fin 16) (_rt : Fin 16), (s.ie e.val = i) ∧ (s.plainIssue e.val) :=
  ⟨{ live [(0x9000C, 3)] with ies := [(0, { IeSt.reset with d := [(1, 0x7FFFFFFF), (2, 7), (3, 0xFFFFFFF0)], acc := [(1, 5)], pc := 100, sp := [(0, 3), (33, 64)] })] }, 0, { IeSt.reset with d := [(1, 0x7FFFFFFF), (2, 7), (3, 0xFFFFFFF0)], acc := [(1, 5)], pc := 100, sp := [(0, 3), (33, 64)] }, 3, 1, by decide +kernel⟩

theorem witness_ieCmpi : ∃ (s : State) (e : Fin 8) (i : IeSt) (_rs : Fin 16) (_imm : BitVec 17), (s.ie e.val = i) ∧ (s.plainIssue e.val) :=
  ⟨{ live [(0x9000C, 3)] with ies := [(0, { IeSt.reset with d := [(1, 0x7FFFFFFF), (2, 7), (3, 0xFFFFFFF0)], acc := [(1, 5)], pc := 100, sp := [(0, 3), (33, 64)] })] }, 0, { IeSt.reset with d := [(1, 0x7FFFFFFF), (2, 7), (3, 0xFFFFFFF0)], acc := [(1, 5)], pc := 100, sp := [(0, 3), (33, 64)] }, 2, 7, by decide +kernel⟩

theorem witness_ieLdi : ∃ (s : State) (e : Fin 8) (i : IeSt) (_rd : Fin 16) (_imm : BitVec 21), (s.ie e.val = i) ∧ (s.plainIssue e.val) :=
  ⟨{ live [(0x9000C, 3)] with ies := [(0, { IeSt.reset with d := [(1, 0x7FFFFFFF), (2, 7), (3, 0xFFFFFFF0)], acc := [(1, 5)], pc := 100, sp := [(0, 3), (33, 64)] })] }, 0, { IeSt.reset with d := [(1, 0x7FFFFFFF), (2, 7), (3, 0xFFFFFFF0)], acc := [(1, 5)], pc := 100, sp := [(0, 3), (33, 64)] }, 4, 0x1FFFFF, by decide +kernel⟩

theorem witness_ieLui : ∃ (s : State) (e : Fin 8) (i : IeSt) (_rd : Fin 16) (_imm : BitVec 16), (s.ie e.val = i) ∧ (s.plainIssue e.val) :=
  ⟨{ live [(0x9000C, 3)] with ies := [(0, { IeSt.reset with d := [(1, 0x7FFFFFFF), (2, 7), (3, 0xFFFFFFF0)], acc := [(1, 5)], pc := 100, sp := [(0, 3), (33, 64)] })] }, 0, { IeSt.reset with d := [(1, 0x7FFFFFFF), (2, 7), (3, 0xFFFFFFF0)], acc := [(1, 5)], pc := 100, sp := [(0, 3), (33, 64)] }, 4, 0xABCD, by decide +kernel⟩

theorem witness_ieModa : ∃ (s : State) (e : Fin 8) (i : IeSt) (_ai : Fin 8) (_md : Fin 4), (s.ie e.val = i) ∧ (s.plainIssue e.val) :=
  ⟨{ live [(0x9000C, 3)] with ies := [(0, { IeSt.reset with d := [(1, 0x7FFFFFFF), (2, 7), (3, 0xFFFFFFF0)], acc := [(1, 5)], pc := 100, sp := [(0, 3), (33, 64)] })] }, 0, { IeSt.reset with d := [(1, 0x7FFFFFFF), (2, 7), (3, 0xFFFFFFF0)], acc := [(1, 5)], pc := 100, sp := [(0, 3), (33, 64)] }, 0, 1, by decide +kernel⟩

theorem witness_ieMvta : ∃ (s : State) (e : Fin 8) (i : IeSt) (_k : Fin 64) (_rs : Fin 16), (s.ie e.val = i) ∧ (s.plainIssue e.val) :=
  ⟨{ live [(0x9000C, 3)] with ies := [(0, { IeSt.reset with d := [(1, 0x7FFFFFFF), (2, 7), (3, 0xFFFFFFF0)], acc := [(1, 5)], pc := 100, sp := [(0, 3), (33, 64)] })] }, 0, { IeSt.reset with d := [(1, 0x7FFFFFFF), (2, 7), (3, 0xFFFFFFF0)], acc := [(1, 5)], pc := 100, sp := [(0, 3), (33, 64)] }, 2, 2, by decide +kernel⟩

theorem witness_ieMvfa : ∃ (s : State) (e : Fin 8) (i : IeSt) (_rd : Fin 16) (_k : Fin 64), (s.ie e.val = i) ∧ (s.plainIssue e.val) :=
  ⟨{ live [(0x9000C, 3)] with ies := [(0, { IeSt.reset with d := [(1, 0x7FFFFFFF), (2, 7), (3, 0xFFFFFFF0)], acc := [(1, 5)], pc := 100, sp := [(0, 3), (33, 64)] })] }, 0, { IeSt.reset with d := [(1, 0x7FFFFFFF), (2, 7), (3, 0xFFFFFFF0)], acc := [(1, 5)], pc := 100, sp := [(0, 3), (33, 64)] }, 4, 41, by decide +kernel⟩

theorem witness_ieFlag : ∃ (s : State) (e : Fin 8) (i : IeSt) (_st : BitVec 5) (_cl : BitVec 5), (s.ie e.val = i) ∧ (s.plainIssue e.val) :=
  ⟨{ live [(0x9000C, 3)] with ies := [(0, { IeSt.reset with d := [(1, 0x7FFFFFFF), (2, 7), (3, 0xFFFFFFF0)], acc := [(1, 5)], pc := 100, sp := [(0, 3), (33, 64)] })] }, 0, { IeSt.reset with d := [(1, 0x7FFFFFFF), (2, 7), (3, 0xFFFFFFF0)], acc := [(1, 5)], pc := 100, sp := [(0, 3), (33, 64)] }, 1, 2, by decide +kernel⟩

theorem witness_ieFlagSignal : ∃ (s : State) (e : Fin 8) (i : IeSt) (_st : BitVec 5) (_cl : BitVec 5), (s.quiet) ∧ (s.ie e.val = i) ∧ (s.plainIssue e.val) :=
  ⟨{ live [(0x9000C, 3)] with ies := [(0, { IeSt.reset with d := [(1, 0x7FFFFFFF), (2, 7), (3, 0xFFFFFFF0)], acc := [(1, 5)], pc := 100, sp := [(0, 3), (33, 64)] })] }, 0, { IeSt.reset with d := [(1, 0x7FFFFFFF), (2, 7), (3, 0xFFFFFFF0)], acc := [(1, 5)], pc := 100, sp := [(0, 3), (33, 64)] }, 1, 2, by decide +kernel⟩

theorem witness_ieNop : ∃ (s : State) (e : Fin 8) (i : IeSt), (s.ie e.val = i) ∧ (s.plainIssue e.val) :=
  ⟨{ live [(0x9000C, 3)] with ies := [(0, { IeSt.reset with d := [(1, 0x7FFFFFFF), (2, 7), (3, 0xFFFFFFF0)], acc := [(1, 5)], pc := 100, sp := [(0, 3), (33, 64)] })] }, 0, { IeSt.reset with d := [(1, 0x7FFFFFFF), (2, 7), (3, 0xFFFFFFF0)], acc := [(1, 5)], pc := 100, sp := [(0, 3), (33, 64)] }, by decide +kernel⟩

/-! IeLoadsAndStores. -/

theorem witness_ieLd : ∃ (s : State) (e : Fin 8) (i : IeSt) (_rd : Fin 16) (ai : Fin 8) (_md : Fin 4) (disp : BitVec 16), (s.ie e.val = i) ∧ (s.plainIssue e.val) ∧ (!badLoad (i.addr ai disp.toInt)) :=
  ⟨{ live [(0x9000C, 3)] with ies := [(0, { IeSt.reset with d := [(1, 0x7FFFFFFF), (2, 7), (3, 0xFFFFFFF0)], acc := [(1, 5)], pc := 100, sp := [(0, 3), (33, 64)] })] }, 0, { IeSt.reset with d := [(1, 0x7FFFFFFF), (2, 7), (3, 0xFFFFFFF0)], acc := [(1, 5)], pc := 100, sp := [(0, 3), (33, 64)] }, 4, 0, 1, 2, by decide +kernel⟩

theorem witness_ieSt : ∃ (s : State) (e : Fin 8) (i : IeSt) (_rs : Fin 16) (ai : Fin 8) (_md : Fin 4) (disp : BitVec 16), (s.ie e.val = i) ∧ (s.plainIssue e.val) ∧ (!badStore (i.addr ai disp.toInt)) :=
  ⟨{ live [(0x9000C, 3)] with ies := [(0, { IeSt.reset with d := [(1, 0x7FFFFFFF), (2, 7), (3, 0xFFFFFFF0)], acc := [(1, 5)], pc := 100, sp := [(0, 3), (33, 64)] })] }, 0, { IeSt.reset with d := [(1, 0x7FFFFFFF), (2, 7), (3, 0xFFFFFFF0)], acc := [(1, 5)], pc := 100, sp := [(0, 3), (33, 64)] }, 3, 0, 1, 2, by decide +kernel⟩

theorem witness_ieBadLoad : ∃ (s : State) (e : Fin 8) (i : IeSt) (_rd : Fin 16) (ai : Fin 8) (disp : BitVec 16), (s.quiet) ∧ (s.ie e.val = i) ∧ (s.plainIssue e.val) ∧ (badLoad (i.addr ai disp.toInt)) :=
  ⟨{ live [(0x9000C, 3)] with ies := [(0, { IeSt.reset with sp := [(0, 0x10200)] })] }, 0, { IeSt.reset with sp := [(0, 0x10200)] }, 3, 0, 0, by decide +kernel⟩

theorem witness_ieBadStore : ∃ (s : State) (e : Fin 8) (i : IeSt) (_rs : Fin 16) (ai : Fin 8) (disp : BitVec 16), (s.quiet) ∧ (s.ie e.val = i) ∧ (s.plainIssue e.val) ∧ (badStore (i.addr ai disp.toInt)) :=
  ⟨{ live [(0x9000C, 3)] with ies := [(0, { IeSt.reset with sp := [(0, 0x10200)] })] }, 0, { IeSt.reset with sp := [(0, 0x10200)] }, 3, 0, 0, by decide +kernel⟩

/-! IeAccumulation. -/

theorem witness_ieMac : ∃ (s : State) (e : Fin 8) (i : IeSt) (_st : Bool) (_k : Fin 8) (_rs : Fin 16) (_rt : Fin 16) (_neg : Bool) (_clr : Bool), (s.ie e.val = i) ∧ (s.plainIssue e.val) :=
  ⟨{ live [(0x9000C, 3)] with ies := [(0, { IeSt.reset with d := [(1, 0x7FFFFFFF), (2, 7), (3, 0xFFFFFFF0)], acc := [(1, 5)], pc := 100, sp := [(0, 3), (33, 64)] })] }, 0, { IeSt.reset with d := [(1, 0x7FFFFFFF), (2, 7), (3, 0xFFFFFFF0)], acc := [(1, 5)], pc := 100, sp := [(0, 3), (33, 64)] }, true, 1, 2, 3, true, false, by decide +kernel⟩

theorem witness_ieDmac : ∃ (s : State) (e : Fin 8) (i : IeSt) (_st : Bool) (_k : Fin 8) (_rs : Fin 16) (_rt : Fin 16) (_ru : Fin 16) (_rv : Fin 16) (_neg : Bool) (_clr : Bool), (s.ie e.val = i) ∧ (s.plainIssue e.val) :=
  ⟨{ live [(0x9000C, 3)] with ies := [(0, { IeSt.reset with d := [(1, 0x7FFFFFFF), (2, 7), (3, 0xFFFFFFF0)], acc := [(1, 5)], pc := 100, sp := [(0, 3), (33, 64)] })] }, 0, { IeSt.reset with d := [(1, 0x7FFFFFFF), (2, 7), (3, 0xFFFFFFF0)], acc := [(1, 5)], pc := 100, sp := [(0, 3), (33, 64)] }, false, 1, 2, 3, 1, 2, true, false, by decide +kernel⟩

theorem witness_ieMxy : ∃ (s : State) (e : Fin 8) (i : IeSt) (_st : Bool) (_k : Fin 8) (_ai : Fin 8) (_mi : Fin 4) (_aj : Fin 8) (_mj : Fin 4) (_neg : Bool) (_clr : Bool), (s.ie e.val = i) ∧ (s.plainIssue e.val) :=
  ⟨{ live [(0x9000C, 3)] with ies := [(0, { IeSt.reset with dm := [(3, 9), (0x8004, 5)], acc := [(1, 5)], sp := [(0, 3), (1, 4)] })] }, 0, { IeSt.reset with dm := [(3, 9), (0x8004, 5)], acc := [(1, 5)], sp := [(0, 3), (1, 4)] }, true, 1, 0, 1, 1, 2, true, false, by decide +kernel⟩

theorem witness_ieDmxy : ∃ (s : State) (e : Fin 8) (i : IeSt) (_st : Bool) (_k : Fin 8) (_ai : Fin 8) (_mi : Fin 4) (_aj : Fin 8) (_mj : Fin 4) (_neg : Bool) (_clr : Bool), (s.ie e.val = i) ∧ (s.plainIssue e.val) :=
  ⟨{ live [(0x9000C, 3)] with ies := [(0, { IeSt.reset with d := [(1, 0x7FFFFFFF), (2, 7), (3, 0xFFFFFFF0)], acc := [(1, 5)], pc := 100, sp := [(0, 3), (33, 64)] })] }, 0, { IeSt.reset with d := [(1, 0x7FFFFFFF), (2, 7), (3, 0xFFFFFFF0)], acc := [(1, 5)], pc := 100, sp := [(0, 3), (33, 64)] }, false, 1, 0, 1, 1, 2, true, false, by decide +kernel⟩

theorem witness_ieSac : ∃ (s : State) (e : Fin 8) (i : IeSt) (_st : Bool) (_rd : Fin 16) (_k : Fin 8) (_sh : BitVec 8) (_rnd : Bool), (s.ie e.val = i) ∧ (s.plainIssue e.val) :=
  ⟨{ live [(0x9000C, 3)] with ies := [(0, { IeSt.reset with d := [(1, 0x7FFFFFFF), (2, 7), (3, 0xFFFFFFF0)], acc := [(1, 5)], pc := 100, sp := [(0, 3), (33, 64)] })] }, 0, { IeSt.reset with d := [(1, 0x7FFFFFFF), (2, 7), (3, 0xFFFFFFF0)], acc := [(1, 5)], pc := 100, sp := [(0, 3), (33, 64)] }, true, 4, 1, 1, true, by decide +kernel⟩

theorem witness_ieLac : ∃ (s : State) (e : Fin 8) (i : IeSt) (_k : Fin 8) (_rs : Fin 16) (_sh : BitVec 8), (s.ie e.val = i) ∧ (s.plainIssue e.val) :=
  ⟨{ live [(0x9000C, 3)] with ies := [(0, { IeSt.reset with d := [(1, 0x7FFFFFFF), (2, 7), (3, 0xFFFFFFF0)], acc := [(1, 5)], pc := 100, sp := [(0, 3), (33, 64)] })] }, 0, { IeSt.reset with d := [(1, 0x7FFFFFFF), (2, 7), (3, 0xFFFFFFF0)], acc := [(1, 5)], pc := 100, sp := [(0, 3), (33, 64)] }, 1, 2, 3, by decide +kernel⟩

theorem witness_ieAdda : ∃ (s : State) (e : Fin 8) (i : IeSt) (_st : Bool) (_k : Fin 8) (_j : Fin 8), (s.ie e.val = i) ∧ (s.plainIssue e.val) :=
  ⟨{ live [(0x9000C, 3)] with ies := [(0, { IeSt.reset with d := [(1, 0x7FFFFFFF), (2, 7), (3, 0xFFFFFFF0)], acc := [(1, 5)], pc := 100, sp := [(0, 3), (33, 64)] })] }, 0, { IeSt.reset with d := [(1, 0x7FFFFFFF), (2, 7), (3, 0xFFFFFFF0)], acc := [(1, 5)], pc := 100, sp := [(0, 3), (33, 64)] }, true, 1, 2, by decide +kernel⟩

theorem witness_ieSuba : ∃ (s : State) (e : Fin 8) (i : IeSt) (_st : Bool) (_k : Fin 8) (_j : Fin 8), (s.ie e.val = i) ∧ (s.plainIssue e.val) :=
  ⟨{ live [(0x9000C, 3)] with ies := [(0, { IeSt.reset with d := [(1, 0x7FFFFFFF), (2, 7), (3, 0xFFFFFFF0)], acc := [(1, 5)], pc := 100, sp := [(0, 3), (33, 64)] })] }, 0, { IeSt.reset with d := [(1, 0x7FFFFFFF), (2, 7), (3, 0xFFFFFFF0)], acc := [(1, 5)], pc := 100, sp := [(0, 3), (33, 64)] }, true, 1, 1, by decide +kernel⟩

theorem witness_ieSha : ∃ (s : State) (e : Fin 8) (i : IeSt) (_st : Bool) (_k : Fin 8) (_sh : BitVec 8), (s.ie e.val = i) ∧ (s.plainIssue e.val) :=
  ⟨{ live [(0x9000C, 3)] with ies := [(0, { IeSt.reset with d := [(1, 0x7FFFFFFF), (2, 7), (3, 0xFFFFFFF0)], acc := [(1, 5)], pc := 100, sp := [(0, 3), (33, 64)] })] }, 0, { IeSt.reset with d := [(1, 0x7FFFFFFF), (2, 7), (3, 0xFFFFFFF0)], acc := [(1, 5)], pc := 100, sp := [(0, 3), (33, 64)] }, true, 1, 0xFE, by decide +kernel⟩

theorem witness_ieClra : ∃ (s : State) (e : Fin 8) (i : IeSt) (_mask : BitVec 8), (s.ie e.val = i) ∧ (s.plainIssue e.val) :=
  ⟨{ live [(0x9000C, 3)] with ies := [(0, { IeSt.reset with d := [(1, 0x7FFFFFFF), (2, 7), (3, 0xFFFFFFF0)], acc := [(1, 5)], pc := 100, sp := [(0, 3), (33, 64)] })] }, 0, { IeSt.reset with d := [(1, 0x7FFFFFFF), (2, 7), (3, 0xFFFFFFF0)], acc := [(1, 5)], pc := 100, sp := [(0, 3), (33, 64)] }, 3, by decide +kernel⟩

/-! IeBranches. -/

theorem witness_ieBr : ∃ (s : State) (e : Fin 8) (i : IeSt) (_cc : Fin 16) (_tg : BitVec 14), (s.ie e.val = i) ∧ (s.plainIssue e.val) :=
  ⟨{ live [(0x9000C, 3)] with ies := [(0, { IeSt.reset with d := [(1, 0x7FFFFFFF), (2, 7), (3, 0xFFFFFFF0)], acc := [(1, 5)], pc := 100, sp := [(0, 3), (33, 64)] })] }, 0, { IeSt.reset with d := [(1, 0x7FFFFFFF), (2, 7), (3, 0xFFFFFFF0)], acc := [(1, 5)], pc := 100, sp := [(0, 3), (33, 64)] }, 0, 77, by decide +kernel⟩

theorem witness_ieCall : ∃ (s : State) (e : Fin 8) (i : IeSt) (_cc : Fin 16) (_tg : BitVec 14), (s.ie e.val = i) ∧ (s.plainIssue e.val) :=
  ⟨{ live [(0x9000C, 3)] with ies := [(0, { IeSt.reset with d := [(1, 0x7FFFFFFF), (2, 7), (3, 0xFFFFFFF0)], acc := [(1, 5)], pc := 100, sp := [(0, 3), (33, 64)] })] }, 0, { IeSt.reset with d := [(1, 0x7FFFFFFF), (2, 7), (3, 0xFFFFFFF0)], acc := [(1, 5)], pc := 100, sp := [(0, 3), (33, 64)] }, 0, 77, by decide +kernel⟩

theorem witness_ieRet : ∃ (s : State) (e : Fin 8) (i : IeSt) (_cc : Fin 16), (s.ie e.val = i) ∧ (s.plainIssue e.val) :=
  ⟨{ live [(0x9000C, 3)] with ies := [(0, { IeSt.reset with pc := 100, sp := [(32, 55), (33, 1)] })] }, 0, { IeSt.reset with pc := 100, sp := [(32, 55), (33, 1)] }, 0, by decide +kernel⟩

theorem witness_ieReti : ∃ (s : State) (e : Fin 8) (i : IeSt), (s.ie e.val = i) ∧ (s.plainIssue e.val) :=
  ⟨{ live [(0x9000C, 3)] with ies := [(0, { IeSt.reset with d := [(1, 0x7FFFFFFF), (2, 7), (3, 0xFFFFFFF0)], acc := [(1, 5)], pc := 100, sp := [(0, 3), (33, 64)] })] }, 0, { IeSt.reset with d := [(1, 0x7FFFFFFF), (2, 7), (3, 0xFFFFFFF0)], acc := [(1, 5)], pc := 100, sp := [(0, 3), (33, 64)] }, by decide +kernel⟩

theorem witness_ieDone : ∃ (s : State) (e : Fin 8) (i : IeSt), (s.ie e.val = i) ∧ (s.plainIssue e.val) :=
  ⟨{ live [(0x9000C, 3)] with ies := [(0, { IeSt.reset with d := [(1, 0x7FFFFFFF), (2, 7), (3, 0xFFFFFFF0)], acc := [(1, 5)], pc := 100, sp := [(0, 3), (33, 64)] })] }, 0, { IeSt.reset with d := [(1, 0x7FFFFFFF), (2, 7), (3, 0xFFFFFFF0)], acc := [(1, 5)], pc := 100, sp := [(0, 3), (33, 64)] }, by decide +kernel⟩

theorem witness_ieRep : ∃ (s : State) (e : Fin 8) (i : IeSt) (_n : BitVec 12), (s.ie e.val = i) ∧ (s.plainIssue e.val) :=
  ⟨{ live [(0x9000C, 3)] with ies := [(0, { IeSt.reset with d := [(1, 0x7FFFFFFF), (2, 7), (3, 0xFFFFFFF0)], acc := [(1, 5)], pc := 100, sp := [(0, 3), (33, 64)] })] }, 0, { IeSt.reset with d := [(1, 0x7FFFFFFF), (2, 7), (3, 0xFFFFFFF0)], acc := [(1, 5)], pc := 100, sp := [(0, 3), (33, 64)] }, 5, by decide +kernel⟩

theorem witness_ieRepr : ∃ (s : State) (e : Fin 8) (i : IeSt) (_rs : Fin 16), (s.ie e.val = i) ∧ (s.plainIssue e.val) :=
  ⟨{ live [(0x9000C, 3)] with ies := [(0, { IeSt.reset with d := [(1, 0x7FFFFFFF), (2, 7), (3, 0xFFFFFFF0)], acc := [(1, 5)], pc := 100, sp := [(0, 3), (33, 64)] })] }, 0, { IeSt.reset with d := [(1, 0x7FFFFFFF), (2, 7), (3, 0xFFFFFFF0)], acc := [(1, 5)], pc := 100, sp := [(0, 3), (33, 64)] }, 2, by decide +kernel⟩

theorem witness_ieLoop : ∃ (s : State) (e : Fin 8) (i : IeSt) (_n : BitVec 12) (last : BitVec 14), (s.ie e.val = i) ∧ (s.plainIssue e.val) ∧ ((i.pc + 1) % 2 ^ 14 ≤ last.toNat) :=
  ⟨{ live [(0x9000C, 3)] with ies := [(0, { IeSt.reset with d := [(1, 0x7FFFFFFF), (2, 7), (3, 0xFFFFFFF0)], acc := [(1, 5)], pc := 100, sp := [(0, 3), (33, 64)] })] }, 0, { IeSt.reset with d := [(1, 0x7FFFFFFF), (2, 7), (3, 0xFFFFFFF0)], acc := [(1, 5)], pc := 100, sp := [(0, 3), (33, 64)] }, 5, 200, by decide +kernel⟩

theorem witness_ieLoopr : ∃ (s : State) (e : Fin 8) (i : IeSt) (_rs : Fin 16) (last : BitVec 14), (s.ie e.val = i) ∧ (s.plainIssue e.val) ∧ ((i.pc + 1) % 2 ^ 14 ≤ last.toNat) :=
  ⟨{ live [(0x9000C, 3)] with ies := [(0, { IeSt.reset with d := [(1, 0x7FFFFFFF), (2, 7), (3, 0xFFFFFFF0)], acc := [(1, 5)], pc := 100, sp := [(0, 3), (33, 64)] })] }, 0, { IeSt.reset with d := [(1, 0x7FFFFFFF), (2, 7), (3, 0xFFFFFFF0)], acc := [(1, 5)], pc := 100, sp := [(0, 3), (33, 64)] }, 2, 200, by decide +kernel⟩

theorem witness_ieRepeats : ∃ (s : State) (e : Fin 8) (i : IeSt), (s.ie e.val = i) ∧ (s.ieIssues e.val) ∧ (i.slots = 0) ∧ (1 < i.rep) :=
  ⟨{ live [(0x9000C, 3)] with ies := [(0, { IeSt.reset with rep := 3, pc := 9 })] }, 0, { IeSt.reset with rep := 3, pc := 9 }, by decide +kernel⟩

theorem witness_ieLoopBack : ∃ (s : State) (e : Fin 8) (i : IeSt) (a : Nat) (b : Nat) (n : Nat), (s.ie e.val = i) ∧ (s.ieIssues e.val) ∧ (i.slots = 0) ∧ (i.rep = 0) ∧ (i.loops = [(a, b, n)]) ∧ (i.pc = b) ∧ (1 < n) :=
  ⟨{ live [(0x9000C, 3)] with ies := [(0, { IeSt.reset with pc := 9, loops := [(5, 9, 3)] })] }, 0, { IeSt.reset with pc := 9, loops := [(5, 9, 3)] }, 5, 9, 3, by decide +kernel⟩

theorem witness_ieLoopEnds : ∃ (s : State) (e : Fin 8) (i : IeSt) (a : Nat) (b : Nat), (s.ie e.val = i) ∧ (s.ieIssues e.val) ∧ (i.slots = 0) ∧ (i.rep = 0) ∧ (i.loops = [(a, b, 1)]) ∧ (i.pc = b) :=
  ⟨{ live [(0x9000C, 3)] with ies := [(0, { IeSt.reset with pc := 9, loops := [(5, 9, 1)] })] }, 0, { IeSt.reset with pc := 9, loops := [(5, 9, 1)] }, 5, 9, by decide +kernel⟩

theorem witness_ieJumpLands : ∃ (s : State) (e : Fin 8) (i : IeSt) (p : Nat) (r : Bool), (s.ie e.val = i) ∧ (s.ieIssues e.val) ∧ (i.slots = 1) ∧ (i.rep = 0) ∧ (i.loops = []) ∧ (i.act = .jump p r) :=
  ⟨{ live [(0x9000C, 3)] with ies := [(0, { IeSt.reset with pc := 9, slots := 1, act := .jump 77 false })] }, 0, { IeSt.reset with pc := 9, slots := 1, act := .jump 77 false }, 77, false, by decide +kernel⟩

theorem witness_ieBranchInSlot : ∃ (s : State) (e : Fin 8) (_cc : Fin 16) (_tg : BitVec 14), (s.quiet) ∧ (s.ieIssues e.val) ∧ ((s.ie e.val).slots ≠ 0) :=
  ⟨{ live [(0x9000C, 3)] with ies := [(0, { IeSt.reset with slots := 2, pc := 9 })] }, 0, 0, 77, by decide +kernel⟩

/-! IeEventsAndHost. -/

theorem witness_completion : ∃ (s : State) (e : Fin 8), (s.pageOn (eIE e.val)) ∧ (s.ieState e.val = ieRun) ∧ ((s.ie e.val).doneWait) :=
  ⟨{ live [(0x9000C, 3)] with ies := [(0, { IeSt.reset with doneWait := true, sp := [(39, 88)] })] }, 0, by decide +kernel⟩

theorem witness_illegalOpcode : ∃ (s : State) (e : Fin 8) (w : Word), (s.quiet) ∧ (s.ieIssues e.val) ∧ (decodeIe e w = none) :=
  ⟨{ live [(0x9000C, 3)] with ies := [(0, { IeSt.reset with d := [(1, 0x7FFFFFFF), (2, 7), (3, 0xFFFFFFF0)], acc := [(1, 5)], pc := 100, sp := [(0, 3), (33, 64)] })] }, 0, 0xFE000000, by decide +kernel⟩

theorem witness_interruptAccept : ∃ (s : State) (e : Fin 8), (s.ieAccepts e.val) :=
  ⟨{ live [(0x9000C, 3)] with ies := [(0, { IeSt.reset with pc := 9, cfg := 0x80200000, sp := [(33, 16), (37, 1), (38, 3)] })] }, 0, by decide +kernel⟩

theorem witness_insertExchange : ∃ (s : State) (e : Fin 8), (s.exchCut ≤ s.slot) ∧ (s.pageOn eMIX) ∧ (s.pageOn (eIE e.val)) ∧ (s.ieState e.val = ieWait) ∧ ((s.ie e.val).handlers = []) ∧ (!(s.ie e.val).startPending) ∧ (!(s.ie e.val).reload) ∧ (bitOf (s.n (0x900A0 + 0x1000 * e.val)) 31) ∧ (!s.is (R.IE_S_HALTED.pg e.val)) ∧ (s.loadedCrc e.val = s.activeCrc e.val) :=
  ⟨{ live [(0x9000C, 2), (0x900A0, 0x80000007)] with ies := [(0, IeSt.reset)] }, 0, by decide +kernel⟩

theorem witness_doorbell : ∃ (s : State) (m : Master) (v : Word) (e : Fin 8), (s.takes m.toNat (ieAddr e.val 0xC0)) ∧ (bitOf v.toNat 0) :=
  ⟨live [], 0, 1, 3, by decide +kernel⟩

theorem witness_halt : ∃ (s : State) (m : Master) (v : Word) (e : Fin 8), (s.takes m.toNat (ieAddr e.val 8)) ∧ (bitOf v.toNat 1) ∧ (!bitOf v.toNat 0) :=
  ⟨{ live [(0x9000C, 3)] with ies := [(0, { IeSt.reset with d := [(1, 0x7FFFFFFF), (2, 7), (3, 0xFFFFFFF0)], acc := [(1, 5)], pc := 100, sp := [(0, 3), (33, 64)] })] }, 0, 2, 0, by decide +kernel⟩

theorem witness_restart : ∃ (s : State) (m : Master) (v : Word) (e : Fin 8), (s.takes m.toNat (ieAddr e.val 8)) ∧ (bitOf v.toNat 0) ∧ (!bitOf v.toNat 1) :=
  ⟨{ live [(0x9000C, 0x24)] with ies := [(0, { IeSt.reset with d := [(1, 0x7FFFFFFF), (2, 7), (3, 0xFFFFFFF0)], acc := [(1, 5)], pc := 100, sp := [(0, 3), (33, 64)] })] }, 0, 1, 0, by decide +kernel⟩

theorem witness_dmDataAccess : ∃ (s : State) (m : Master) (_v : Word) (e : Fin 8), (s.takes m.toNat (ieAddr e.val 0x104)) ∧ (s.get (R.IE_DM_ADDR_ADDR.pg e.val) < 0x10000) :=
  ⟨live [(0x90100, 5)], 0, 77, 0, by decide +kernel⟩

theorem witness_dmDataRead : ∃ (s : State) (m : Master) (e : Fin 8) (_v : Word), (s.sees m.toNat (ieAddr e.val 0x104) false) ∧ (s.get (R.IE_DM_ADDR_ADDR.pg e.val) < 0x10000) :=
  ⟨{ live [(0x90100, 5)] with ies := [(0, { IeSt.reset with dm := [(5, 9)] })] }, 0, 0, 0, by decide +kernel⟩

theorem witness_pmDataRead : ∃ (s : State) (m : Master) (e : Fin 8), (s.sees m.toNat (ieAddr e.val 0x10C) false) :=
  ⟨{ live [(0x90108, 5)] with ies := [(0, { IeSt.reset with pm := [(5, 9)] })] }, 0, 0, by decide +kernel⟩

/-! IeTransfers. -/

theorem witness_bulkTransferDone : ∃ (s : State) (e : Fin 8) (b : BulkRun), (s.pageOn (eIE e.val)) ∧ ((s.ie e.val).run = some b) ∧ (b.len = 1) ∧ (!b.toFabric) ∧ (s.servesSram (0x38 + e.val) b.addr 4 false) ∧ (s.clean b.addr 4) ∧ (!ownArea b.addr) ∧ (!ownArea (b.addr + 3)) :=
  ⟨{ { live [(0x9000C, 3)] with ies := [(0, { IeSt.reset with bulk := [(4, 1)], run := some ⟨0x117C0000, 12, 1, false⟩ })] } with mem := [(0x117C0000, 9)] }, 0, ⟨0x117C0000, 12, 1, false⟩, by decide +kernel⟩

theorem witness_ieLoadDone : ∃ (s : State) (e : Fin 8) (h : List Byte) (b : List Byte) (p : Nat) (x : Nat) (y : Nat), (s.quiet) ∧ (s.pageOn (eIE e.val)) ∧ (s.ieState e.val = ieLoading) ∧ ((s.readSome true (0x38 + e.val) (s.get64 (0x900A8 + 0x1000 * e.val) % 2 ^ 40) 16).1 = some (h, none)) ∧ (imageCounts h = some (p, x, y)) ∧ (((s.readSome true (0x38 + e.val) (s.get64 (0x900A8 + 0x1000 * e.val) % 2 ^ 40) 16).2.readSome true (0x38 + e.val) (s.get64 (0x900A8 + 0x1000 * e.val) % 2 ^ 40 + 16) (4 * (p + x + y))).1 = some (b, none)) ∧ (crc64 (h ++ b) = s.activeCrc e.val) :=
  ⟨{ live [(0x9000C, 1), (0x900A8, 0x117C0000), (0x900B0, (crc64 img) % 2 ^ 32), (0x900B4, crc64 img / 2 ^ 32)] with mem := [(0x117C0000, 1), (0x117C0010, 7)] }, 0, img.take 16, img.drop 16, 1, 0, 0, by decide +kernel⟩

/-! SramAccesses. -/

theorem witness_sramRead : ∃ (s : State) (m : Master) (a : Addr) (n : Nat), (s.servesSram m.toNat a.toNat n false) ∧ (s.clean a.toNat n) :=
  ⟨{ live [] with mem := [(0x117C0001, 7)] }, 0, 0x117C0000, 4, by decide +kernel⟩

theorem witness_sramWrite : ∃ (s : State) (m : Master) (a : Addr) (d : List Byte), (s.servesSram m.toNat a.toNat d.length true) ∧ (s.clean a.toNat d.length) ∧ (plainArea a.toNat d.length) ∧ (inboxSlot a.toNat d.length = none) :=
  ⟨live [], 0, 0x117C0040, [1, 2, 3, 4], by decide +kernel⟩

theorem witness_sramWriteBank : ∃ (s : State) (m : Master) (a : Addr) (_v : Word), (s.servesSram m.toNat a.toNat 4 true) ∧ (s.clean a.toNat 4) ∧ (0x11700000 ≤ a.toNat ∧ a.toNat < 0x11710000) ∧ (!s.pressPending) :=
  ⟨live [], 0, 0x11708024, 0x01020304, by decide +kernel⟩

theorem witness_sramWriteShut : ∃ (s : State) (m : Master) (a : Addr) (d : List Byte), (s.quiet) ∧ (s.servesSram m.toNat a.toNat d.length true) ∧ (s.bankShut a.toNat) ∧ (s.clean a.toNat d.length) :=
  ⟨live [(0x800C, 1)], 0, 0x11708000, [1, 2, 3, 4], by decide +kernel⟩

theorem witness_pcieMemoryWrite : ∃ (s : State) (fn : Fin 2) (a : Addr) (d : List Byte), (s.servesSram fn.val a.toNat d.length true) ∧ (s.clean a.toNat d.length) ∧ (plainArea a.toNat d.length) ∧ (inboxSlot a.toNat d.length = none) ∧ (pciePieces (d.map some).length a.toNat (d.map some) = [(a.toNat, d)]) :=
  ⟨live [], 1, 0x117C0040, [1, 2, 3, 4, 5, 6, 7, 8], by decide +kernel⟩

theorem witness_pcieMemoryRead : ∃ (s : State) (fn : Fin 2) (a : Addr) (bs : List (Option Byte)) (d : List Byte), (pciePieces bs.length a.toNat bs = [(a.toNat, d)]) ∧ (d.length = bs.length) ∧ (s.servesSram fn.val a.toNat bs.length false) ∧ (s.clean a.toNat bs.length) :=
  ⟨{ live [] with mem := [(0x117C0001, 7)] }, 0, 0x117C0000, List.replicate 4 (some 0), [0, 0, 0, 0], by decide +kernel⟩

/-! ScrubberAndInjection. -/

theorem witness_scrubVisit : ∃ (s : State), (s.is R.SRAM_C_SCRUB_EN) ∧ (s.pageOn eSRAM) ∧ (s.nextScrub (s.get R.SRAM_SCRUB_POS_WORD) < sharedWords + 32 * vatWords) ∧ (!s.poisoned (s.nextScrub (s.get R.SRAM_SCRUB_POS_WORD))) ∧ (tget zeroAt s.sramErr (s.nextScrub (s.get R.SRAM_SCRUB_POS_WORD)) = 0) ∧ (s.nextScrub (s.nextScrub (s.get R.SRAM_SCRUB_POS_WORD) + 1) < sharedWords + 32 * vatWords) :=
  ⟨live [(0xA8008, 1), (0xA8084, 9)], by decide +kernel⟩

theorem witness_scrubOff : ∃ (s : State), (!s.is R.SRAM_C_SCRUB_EN || !s.pageOn eSRAM) :=
  ⟨live [(0xA8008, 0)], by decide +kernel⟩

theorem witness_scrubPass : ∃ (s : State), (s.quiet) ∧ (s.is R.SRAM_C_SCRUB_EN) ∧ (s.pageOn eSRAM) ∧ (s.nextScrub (s.get R.SRAM_SCRUB_POS_WORD) < sharedWords + 32 * vatWords) ∧ (!s.poisoned (s.nextScrub (s.get R.SRAM_SCRUB_POS_WORD))) ∧ (tget zeroAt s.sramErr (s.nextScrub (s.get R.SRAM_SCRUB_POS_WORD)) = 0) ∧ (sharedWords + 32 * vatWords ≤ s.nextScrub (s.nextScrub (s.get R.SRAM_SCRUB_POS_WORD) + 1)) :=
  ⟨live [(0xA8008, 1), (0xA8084, 2097151)], by decide +kernel⟩

theorem witness_scrubFix : ∃ (s : State) (w : Nat) (i : Fin 28) (v : Nat), (s.quiet) ∧ (s.is R.SRAM_C_SCRUB_EN) ∧ (s.pageOn eSRAM) ∧ (s.nextScrub (s.get R.SRAM_SCRUB_POS_WORD) = w) ∧ (w < sharedWords) ∧ (!s.poisoned w) ∧ (0 < v ∧ v < 256) ∧ (tget zeroAt s.sramErr w = oneErr i v) :=
  ⟨{ live [(0xA8008, 1), (0xA8084, 9)] with sramErr := [(9, 0x4200)] }, 9, 1, 0x42, by decide +kernel⟩

theorem witness_sramInject : ∃ (s : State) (m : Master) (v : Word) (w : Nat), (s.takes m.toNat 0xA80A8) ∧ (bitOf v.toNat 31) ∧ (v.toNat % 4 ≠ 0) ∧ (sramWord (s.get64 0xA80A0 % 2 ^ 40) = some w) :=
  ⟨live [(0xA80A0, 0x10000030)], 0, 0x80000002, 2, by decide +kernel⟩

/-! LockedSequences. -/

theorem witness_atomicOp : ∃ (s : State) (m : Master) (_op : AtomicOp) (a : Addr) (wide : Bool) (_x : BitVec 64) (_y : BitVec 64) (n : Nat), (n = (if wide then 8 else 4)) ∧ (m.toNat = 0 ∨ m.toNat = 1 ∨ m.toNat = 3) ∧ (targetOf a.toNat = 2) ∧ (s.servesSram m.toNat a.toNat n false) ∧ (s.clean a.toNat n) :=
  ⟨{ live [] with mem := [(0x117C0000, 7)] }, 0, .fetchAdd, 0x117C0000, false, 5, 0, 4, by decide +kernel⟩

theorem witness_closingWrite : ∃ (s : State) (m : Master) (a : Addr) (d : List Byte) (o : List Byte), (s.lock = some ⟨m.toNat, a.toNat, d, o⟩) ∧ (targetOf a.toNat = 2) ∧ (State.servesSram { s with lock := none } m.toNat a.toNat d.length true) ∧ (s.clean a.toNat d.length) :=
  ⟨{ live [(0xA000C, 1)] with lock := some ⟨1, 0x117C0000, [9, 0, 0, 0], [4, 0, 0, 0]⟩ }, 1, 0x117C0000, [9, 0, 0, 0], [4, 0, 0, 0], by decide +kernel⟩

theorem witness_closingLerr : ∃ (s : State) (m : Master) (_a : Addr) (_d : List Byte), (!s.noRequest m.toNat) ∧ (s.lock = none) :=
  ⟨live [], 1, 0x117C0000, [9], by decide +kernel⟩

theorem witness_lockBreak : ∃ (s : State) (l : LockSt), (s.quiet) ∧ (s.lock = some l) ∧ (l.master ≠ 3) ∧ (s.fabricIdle) :=
  ⟨{ live [(0xA000C, 1)] with lock := some ⟨1, 0x117C0000, [9, 0, 0, 0], [4, 0, 0, 0]⟩ }, ⟨1, 0x117C0000, [9, 0, 0, 0], [4, 0, 0, 0]⟩, by decide +kernel⟩

theorem witness_lockBreakNone : ∃ (s : State), (s.lock = none) :=
  ⟨live [], by decide +kernel⟩

theorem witness_lockRefused : ∃ (s : State) (m : Master) (_op : AtomicOp) (_x : BitVec 64) (_y : BitVec 64) (a : Addr), (s.quiet) ∧ (m.toNat = 0 ∨ m.toNat = 1) ∧ (targetOf a.toNat = 1) ∧ (a.toNat % 4 = 0) ∧ (!s.noRequest m.toNat) ∧ (s.fabricIdle) ∧ (s.allowed m.toNat 1 a.toNat 4 false) :=
  ⟨live [], 0, .swap, 1, 2, 0x10000000, by decide +kernel⟩

/-! DramAccesses. -/

theorem witness_dramRead : ∃ (s : State) (m : Master) (a : Addr) (n : Nat) (p : Nat × Nat), (s.servesDram m.toNat a.toNat n false) ∧ (s.dramMap a.toNat = some p) ∧ (tget zeroAt s.dramErr (a.toNat / 64) = 0) :=
  ⟨{ live [(0xB8080, 0), (0xB000C, 2)] with mem := [(0x1000000001, 7)] }, 0, 0x1000000000, 8, (0, 0), by decide +kernel⟩

theorem witness_dramWriteLine : ∃ (s : State) (m : Master) (a : Addr) (d : List Byte) (p : Nat × Nat), (s.servesDram m.toNat a.toNat d.length true) ∧ (d.length = 64) ∧ (s.dramMap a.toNat = some p) ∧ (s.imageOf a.toNat = none) :=
  ⟨live [(0xB8080, 0), (0xB000C, 2)], 0, 0x1001000040, List.replicate 64 3, (0, 16777280), by decide +kernel⟩

theorem witness_dramWritePart : ∃ (s : State) (m : Master) (a : Addr) (d : List Byte) (p : Nat × Nat), (s.servesDram m.toNat a.toNat d.length true) ∧ (d.length ≠ 64) ∧ (s.imageOf a.toNat = none) ∧ (s.dramMap a.toNat = some p) ∧ (tget zeroAt s.dramErr (a.toNat / 64) = 0) :=
  ⟨live [(0xB8080, 0), (0xB000C, 2)], 0, 0x1001000040, [1, 2, 3, 4], (0, 16777280), by decide +kernel⟩

theorem witness_dramWaits : ∃ (s : State) (m : Master) (a : Addr) (n : Nat) (p : Nat × Nat), (!s.noRequest m.toNat) ∧ (s.fabricIdle) ∧ (targetOf a.toNat = 4) ∧ (Machine.widthOk n) ∧ (a.toNat % n = 0) ∧ (s.allowed m.toNat 4 a.toNat n false) ∧ (s.domOn 13) ∧ (s.dramMap a.toNat = some p) ∧ (s.chanState p.1 = chInit ∨ s.chanState p.1 = chRetrain ∨ s.chanDo p.1 = .serve ∧ s.portOpen (regPort m.toNat) = false) :=
  ⟨live [(0xB8080, 0), (0xB000C, 5)], 0, 0x1000000000, 8, (0, 0), by decide +kernel⟩

/-! DramUpkeep. -/

theorem witness_regulatorRefill : ∃ (s : State), (s.pageOn eDPHY) ∧ (s.fabricIdle) :=
  ⟨live [(0xB8100, 9)], by decide +kernel⟩

theorem witness_refreshIssue : ∃ (s : State) (c : Fin 4), (c.val < s.chans.length) ∧ ((s.chan c.val).nextBank < (s.chan c.val).banks.length) ∧ (s.pageOn (eDRC c.val)) ∧ (s.refreshes c.val) ∧ (s.owed c.val ≠ 0) :=
  ⟨live [(0xB100C, 2), (0xB108C, 0x803)], 1, by decide +kernel⟩

theorem witness_mr4Read : ∃ (s : State) (_r0 : Fin 3) (_r1 : Fin 3) (_r2 : Fin 3) (_r3 : Fin 3), (s.domOn 13) ∧ (s.chans.length = 4) :=
  ⟨live [(0xB8080, 0x10), (0xB8088, 0x15055)], 0, 1, 0, 0, by decide +kernel⟩

theorem witness_pageCfgWrite : ∃ (s : State) (m : Master) (_v : Word) (c : Fin 4), (s.takes m.toNat (0xB0080 + 0x1000 * c.val)) ∧ (c.val < s.chans.length) :=
  ⟨live [], 0, 1, 2, by decide +kernel⟩

theorem witness_selfRefreshEntry : ∃ (s : State) (c : Fin 4), (s.quiet) ∧ (s.pageOn (eDRC c.val)) ∧ (c.val < s.chans.length) ∧ (s.clk.change.isSome) ∧ (s.chanState c.val = chOnline ∨ s.chanState c.val = chDegraded) :=
  ⟨{ live [(0xB000C, 2), (0xB008C, 0x802)] with clk := { ClkSt.reset with change := some 0 } }, 0, by decide +kernel⟩

theorem witness_dramInject : ∃ (s : State) (m : Master) (v : Word) (c : Fin 4), (s.takes m.toNat (0xB00D0 + 0x1000 * c.val)) ∧ (bitOf v.toNat 31) ∧ (v.toNat % 4 ≠ 0) ∧ ((s.dramMap (s.get64 (0xB00C8 + 0x1000 * c.val) % 2 ^ 40)).any fun p => p.1 == c.val) :=
  ⟨live [(0xB8080, 0), (0xB00CC, 0x10)], 0, 0x80000003, 0, by decide +kernel⟩

/-! RefreshLimit. -/

theorem witness_refreshOwed : ∃ (s : State) (c : Fin 4), (s.pageOn (eDRC c.val)) ∧ (s.refreshes c.val) ∧ (s.owed c.val < (if s.is R.DPHY_S_REFX2 then 4 else 8)) :=
  ⟨live [(0xB100C, 2)], 1, by decide +kernel⟩

theorem witness_refreshForced : ∃ (s : State) (c : Fin 4), (s.quiet) ∧ (c.val < s.chans.length) ∧ ((s.chan c.val).nextBank < (s.chan c.val).banks.length) ∧ (s.pageOn (eDRC c.val)) ∧ (s.refreshes c.val) ∧ ((if s.is R.DPHY_S_REFX2 then 4 else 8) ≤ s.owed c.val) :=
  ⟨live [(0xB100C, 2), (0xB108C, 0x808)], 1, by decide +kernel⟩

/-! Training. -/

theorem witness_dramInit : ∃ (s : State) (m : Master) (v : Word), (s.takes m.toNat 0xB8008) ∧ (bitOf v.toNat 0) ∧ (s.dramN ≠ 0) ∧ (s.chans.length = 4) ∧ (!s.clk.waiting) ∧ ((List.range s.dramN).all fun c => s.chanState c == chOff) :=
  ⟨live [(0xB8080, 0x10)], 0, 1, by decide +kernel⟩

theorem witness_dramInitDone : ∃ (s : State) (rs : List TrainResult), (s.pageOn eDPHY) ∧ (s.fabricIdle) ∧ (s.dramN ≠ 0) ∧ (s.chans.length = 4) ∧ (!s.clk.waiting) ∧ ((List.range s.dramN).all fun c => s.chanState c == chInit && s.bringing c) ∧ ((List.range s.dramN).all fun c => rs.getD c .fail != .fail) :=
  ⟨{ live [(0xB8080, 0x10), (0xB000C, 1), (0xB100C, 1)] with chans := List.replicate 4 { ChanSt.reset with bring := true } }, [.pass 3 4, .pass 5 6], by decide +kernel⟩

theorem witness_trainTurnPass : ∃ (s : State) (c : Fin 4), (s.pageOn (eDRC c.val)) ∧ (s.fabricIdle) ∧ (s.is (R.DRC_TRAIN_PERIOD_MS.pg c.val)) ∧ (s.chanState c.val = chOnline) :=
  ⟨live [(0xB0088, 5), (0xB000C, 2)], 0, by decide +kernel⟩

theorem witness_trainTurnFail : ∃ (s : State) (c : Fin 4), (s.pageOn (eDRC c.val)) ∧ (s.fabricIdle) ∧ (!s.clk.waiting) ∧ (s.is (R.DRC_TRAIN_PERIOD_MS.pg c.val)) ∧ (s.chanState c.val = chOnline ∨ s.chanState c.val = chDegraded) :=
  ⟨live [(0xB0088, 5), (0xB000C, 2)], 0, by decide +kernel⟩

theorem witness_drcRetrain : ∃ (s : State) (m : Master) (v : Word) (c : Fin 4), (s.takes m.toNat (0xB0008 + 0x1000 * c.val)) ∧ (bitOf v.toNat 0) ∧ (!s.clk.waiting) ∧ (s.chanState c.val = chOnline ∨ s.chanState c.val = chDegraded) :=
  ⟨live [(0xB000C, 2)], 0, 1, 0, by decide +kernel⟩

theorem witness_trainingDone : ∃ (s : State) (c : Fin 4) (_r : TrainResult), (s.pageOn (eDRC c.val)) ∧ (s.fabricIdle) ∧ (!s.clk.waiting) ∧ (s.chanState c.val = chRetrain) :=
  ⟨live [(0xB000C, 5)], 0, .pass 7 9, by decide +kernel⟩

/-! ApsalFrames. -/

theorem witness_apsalFrameBad : ∃ (s : State) (q : Fin 2) (frame : List Byte) (_r : Int) (_x : Int), (s.portEn q.val) ∧ (s.portState q.val ≠ 0) ∧ (!hdrOk (frame.take 96)) ∧ (!s.ringOn ∨ s.role = 0) :=
  ⟨live [(0xC0008, 3), (0xC000C, 10)], 1, [1], 0, 0, by decide +kernel⟩

theorem witness_apsalFrameDown : ∃ (s : State) (q : Fin 2) (_frame : List Byte) (_r : Int) (_x : Int), (!s.portEn q.val || s.portState q.val == 0) :=
  ⟨live [], 1, [1], 0, 0, by decide +kernel⟩

theorem witness_apsalFrameGood : ∃ (s : State) (q : Fin 2) (frame : List Byte) (_r : Int) (_x : Int), (!s.ringOn) ∧ (s.portEn q.val) ∧ (s.portState q.val ≠ 0) ∧ (hdrOk (frame.take 96)) ∧ (s.mgrOk (hMgr (frame.take 96))) ∧ (hProbe (frame.take 96)) :=
  ⟨{ live [(0xC0008, 3), (0xC000C, 9), (0x98, 1)] with ring := { RingSt.reset with ports := [(0, { ApsPort.reset with run := 7 })] } }, 0, (hdrBytes 4 1 1 7 0 (List.replicate 12 0) 0 0 0 0 ++ regionOut ([], true)), 0, 0, by decide +kernel⟩

theorem witness_apsalFrameScene : ∃ (s : State) (q : Fin 2) (frame : List Byte) (_r : Int) (_x : Int), (s.ringOn) ∧ (s.portEn q.val) ∧ (s.portState q.val ≠ 0) ∧ (hdrOk (frame.take 96)) ∧ (s.mgrOk (hMgr (frame.take 96))) ∧ (!hProbe (frame.take 96)) ∧ (!hWrapped (frame.take 96)) ∧ (s.role = 1) ∧ (((splitRegions (regionLens (frame.take 96)) (frame.drop 96)).getD 0 ([], false)).2) ∧ (s.ring.fwd ≠ some s.slot) ∧ (!s.ring.fwdRun) :=
  ⟨live [(0xC0008, 3), (0xC000C, 10), (0xC2008, 1), (0xC2480, 4), (0x98, 1), (0x90, 0x103)], 0, (hdrBytes 0 1 1 7 0 (List.replicate 12 0) 1 0 0 0 ++ regionOut (List.replicate 4 0 ++ [9] ++ List.replicate 19 0, true)), 0, 0, by decide +kernel⟩

theorem witness_apsalFrameRunning : ∃ (s : State) (q : Fin 2) (frame : List Byte) (_r : Int) (_x : Int), (s.ringOn) ∧ (s.portEn q.val) ∧ (s.portState q.val ≠ 0) ∧ (hdrOk (frame.take 96)) ∧ (s.mgrOk (hMgr (frame.take 96))) ∧ (!hProbe (frame.take 96)) :=
  ⟨{ live [(0xC0008, 3), (0xC000C, 9), (0xC2008, 1), (0xC2480, 4), (0x98, 1), (0x90, 0x103)] with ring := { RingSt.reset with ports := [(0, { ApsPort.reset with run := 7 })] } }, 0, (hdrBytes 0 1 1 7 0 (List.replicate 12 0) 1 0 0 0 ++ regionOut (List.replicate 4 0 ++ [9] ++ List.replicate 19 0, true)), 0, 0, by decide +kernel⟩

theorem witness_apsalFrameAgain : ∃ (s : State) (q : Fin 2) (frame : List Byte) (_r : Int) (_x : Int), (s.ringOn) ∧ (s.portEn q.val) ∧ (s.portState q.val ≠ 0) ∧ (hdrOk (frame.take 96)) ∧ (s.mgrOk (hMgr (frame.take 96))) ∧ (!hProbe (frame.take 96)) ∧ (!hWrapped (frame.take 96)) ∧ (s.role = 1) ∧ (((splitRegions (regionLens (frame.take 96)) (frame.drop 96)).getD 0 ([], false)).2) ∧ (s.ring.fwd = some s.slot) ∧ (!s.standby) :=
  ⟨{ live [(0xC0008, 3), (0xC000C, 10), (0xC2008, 1), (0xC2480, 4), (0x98, 1), (0x90, 0x103)] with ring := { RingSt.reset with fwd := some 0 } }, 1, (hdrBytes 0 1 1 7 0 (List.replicate 12 0) 1 0 0 0 ++ regionOut (List.replicate 4 0 ++ [9] ++ List.replicate 19 0, true)), 0, 0, by decide +kernel⟩

theorem witness_apsalFrameBadForwarded : ∃ (s : State) (q : Fin 2) (frame : List Byte) (_r : Int) (_x : Int), (s.portEn q.val) ∧ (s.portState q.val ≠ 0) ∧ (!hdrOk (frame.take 96)) ∧ (s.ringOn) ∧ (s.role ≠ 0) :=
  ⟨live [(0xC0008, 3), (0xC000C, 10), (0xC2008, 1), (0x98, 1)], 1, [1], 0, 0, by decide +kernel⟩

theorem witness_apsalFrameOtherManager : ∃ (s : State) (q : Fin 2) (frame : List Byte) (_r : Int) (_x : Int), (s.quiet) ∧ (s.portEn q.val) ∧ (s.portState q.val ≠ 0) ∧ (hdrOk (frame.take 96)) ∧ (!s.mgrOk (hMgr (frame.take 96))) :=
  ⟨{ live [(0xC0008, 3), (0xC000C, 10), (0xC2008, 1), (0x98, 1)] with ring := { RingSt.reset with mgr := some 5 } }, 1, (hdrBytes 0 1 1 7 0 (List.replicate 12 0) 1 0 0 0 ++ regionOut (List.replicate 4 0 ++ [9] ++ List.replicate 19 0, true)), 0, 0, by decide +kernel⟩

theorem witness_apsalFrameProbe : ∃ (s : State) (q : Fin 2) (frame : List Byte) (_r : Int) (_x : Int), (s.ringOn) ∧ (s.portEn q.val) ∧ (s.portState q.val ≠ 0) ∧ (hdrOk (frame.take 96)) ∧ (s.mgrOk (hMgr (frame.take 96))) ∧ (hProbe (frame.take 96)) ∧ (s.role ≠ 0) ∧ (s.portEn (1 - q.val)) ∧ (!s.wraps (1 - q.val)) :=
  ⟨live [(0xC0008, 3), (0xC000C, 10), (0xC2008, 1), (0x98, 1), (0x90, 0x103)], 0, (hdrBytes 4 1 1 7 0 (List.replicate 12 0) 0 0 0 0 ++ regionOut ([], true)), 0, 0, by decide +kernel⟩

/-! PortsAndMembership. -/

theorem witness_apsalPortDown : ∃ (s : State) (q : Fin 2), (s.quiet) ∧ (s.portState q.val ≠ 0) :=
  ⟨live [(0xC0008, 3), (0xC000C, 10)], 1, by decide +kernel⟩

theorem witness_apsalPortAligned : ∃ (s : State) (q : Fin 2), (s.quiet) ∧ (s.portEn q.val) ∧ (s.portState q.val = 0) :=
  ⟨live [(0xC0008, 3), (0xC000C, 8)], 0, by decide +kernel⟩

theorem witness_wrapEnd : ∃ (s : State) (q : Fin 2), (s.quiet) ∧ (s.wraps q.val) ∧ (s.portState q.val = 2) ∧ (64 ≤ (s.port q.val).up) :=
  ⟨{ live [(0xC000C, 26)] with ring := { RingSt.reset with ports := [(0, { ApsPort.reset with up := 64 })] } }, 0, by decide +kernel⟩

theorem witness_wrapStays : ∃ (s : State) (q : Fin 2), (s.wraps q.val = false ∨ s.portState q.val ≠ 2 ∨ (s.port q.val).up < 64) :=
  ⟨live [], 0, by decide +kernel⟩

theorem witness_heartbeat : ∃ (s : State) (_p : Fin 32) (_w : Word), (s.quiet) ∧ (s.ringOn) :=
  ⟨live [(0xC2008, 1)], 5, 10, by decide +kernel⟩

/-! EventSummaries. -/

theorem witness_evtSum : ∃ (s : State) (_p : Fin 32) (_w : Word), (s.quiet) ∧ (s.ringOn) ∧ (s.isManager) :=
  ⟨live [(0xC2008, 1), (0x98, 0)], 5, 6, by decide +kernel⟩

/-! RemoteAccess. -/

theorem witness_rraGo : ∃ (s : State) (m : Master) (v : Word), (s.takes m.toNat 0xC20E8) ∧ (bitOf v.toNat 31) ∧ (!s.is R.RING_RRA_STATUS_BUSY) ∧ (s.get R.RING_RRA_DEV_DEVID ≠ s.devid) ∧ (bitOf (s.get R.RING_SEEN_P) (s.get R.RING_RRA_DEV_DEVID)) :=
  ⟨live [(0xC2008, 1), (0xC2084, 8), (0xC20D0, 3), (0x98, 0)], 0, 0x80000001, by decide +kernel⟩

theorem witness_rraGoNoMember : ∃ (s : State) (m : Master) (v : Word), (s.takes m.toNat 0xC20E8) ∧ (s.quiet) ∧ (bitOf v.toNat 31) ∧ (!s.is R.RING_RRA_STATUS_BUSY) ∧ (s.get R.RING_RRA_DEV_DEVID ≠ s.devid) ∧ (!bitOf (s.get R.RING_SEEN_P) (s.get R.RING_RRA_DEV_DEVID)) :=
  ⟨live [(0xC2008, 1), (0xC20D0, 3), (0x98, 0)], 0, 0x80000001, by decide +kernel⟩

theorem witness_rraGoLocal : ∃ (s : State) (m : Master) (v : Word), (s.takes m.toNat 0xC20E8) ∧ (s.quiet) ∧ (bitOf v.toNat 31) ∧ (v.toNat % 8 = 1) ∧ (!s.is R.RING_RRA_STATUS_BUSY) ∧ (s.lock = none) ∧ (s.ring.rra = none) ∧ (s.ring.rraWait = []) ∧ (s.get R.RING_RRA_DEV_DEVID = s.devid) ∧ (s.servesSram 3 (s.get64 0xC20D4 % 2 ^ 40) 4 true) ∧ (s.clean (s.get64 0xC20D4 % 2 ^ 40) 4) ∧ (plainArea (s.get64 0xC20D4 % 2 ^ 40) 4) ∧ (inboxSlot (s.get64 0xC20D4 % 2 ^ 40) 4 = none) :=
  ⟨live [(0xC2008, 1), (0x98, 0), (0xC20D4, 0x117C0000), (0xC20DC, 7)], 0, 0x80000001, by decide +kernel⟩

theorem witness_rraReqWrite : ∃ (s : State) (_tag : BitVec 8) (a : Addr) (_d : BitVec 64) (_x : Word), (s.ringOn) ∧ (s.ring.rraHere = none) ∧ (s.ring.rraWait = []) ∧ (s.lock = none) ∧ (s.servesSram 3 a.toNat 4 true) ∧ (s.clean a.toNat 4) ∧ (plainArea a.toNat 4) ∧ (inboxSlot a.toNat 4 = none) :=
  ⟨live [(0xC2008, 1)], 9, 0x117C0000, 5, 0, by decide +kernel⟩

theorem witness_rraReqRead : ∃ (s : State) (_tag : BitVec 8) (a : Addr) (_d : BitVec 64) (_x : Word), (s.ringOn) ∧ (s.ring.rraHere = none) ∧ (s.ring.rraWait = []) ∧ (s.lock = none) ∧ (s.servesSram 3 a.toNat 4 false) ∧ (s.clean a.toNat 4) :=
  ⟨{ live [(0xC2008, 1)] with mem := [(0x117C0001, 2)] }, 9, 0x117C0000, 5, 0, by decide +kernel⟩

theorem witness_rraRsp : ∃ (s : State) (tag : BitVec 8) (_r : Fin 8) (_d : BitVec 64) (q : Rra), (s.quiet) ∧ (s.ringOn) ∧ (s.ring.rra = some q) ∧ (q.tag = tag.toNat) :=
  ⟨{ live [(0xC2008, 1), (0xC20EC, 1)] with ring := { RingSt.reset with rra := some ⟨4, 3, 0, 0, 0, 0, 0, true⟩ } }, 4, 0, 77, ⟨4, 3, 0, 0, 0, 0, 0, true⟩, by decide +kernel⟩

theorem witness_rraTimeout : ∃ (s : State) (q : Rra), (s.quiet) ∧ (s.ring.rra = some q) ∧ (q.at0 + 16 ≤ s.slot) :=
  ⟨{ live [(0xC2008, 1), (0xC20EC, 1)] with slot := 16, ring := { RingSt.reset with rra := some ⟨4, 3, 0, 0, 0, 0, 0, true⟩ } }, ⟨4, 3, 0, 0, 0, 0, 0, true⟩, by decide +kernel⟩

theorem witness_rraTimeoutEarly : ∃ (s : State), (s.ring.rra.all fun q => decide (s.slot < q.at0 + 16)) :=
  ⟨live [], by decide +kernel⟩

/-! DistributedPress. -/

theorem witness_pressReq : ∃ (s : State) (_i : BitVec 8) (_n : BitVec 48), (s.ringOn) ∧ (s.role = 1) ∧ (s.pressMode) ∧ (s.pageOn ePRESS) ∧ (s.press = none) :=
  ⟨live [(0xC2008, 1), (0x98, 1)], 5, 9, by decide +kernel⟩

theorem witness_pressTable : ∃ (s : State) (p : PressSt) (b : List Byte), (s.ringOn) ∧ (s.press = some p) ∧ (p.ring) ∧ (!s.isManager) ∧ (p.own = none) ∧ (leAt b 0 1 = p.id) :=
  ⟨{ live [(0xC2008, 1), (0x98, 1)] with press := some ⟨9, 5, true, 0, false, none, [], none, none⟩ }, ⟨9, 5, true, 0, false, none, [], none, none⟩, [5, 0, 96, 0, 3, 0, 0, 0, 7], by decide +kernel⟩

theorem witness_pressVote : ∃ (s : State) (p : PressSt) (pos : Fin 32) (i : BitVec 8) (_r : Fin 16) (_n : BitVec 16), (s.ringOn) ∧ (s.press = some p) ∧ (p.ring) ∧ (s.isManager) ∧ (p.id = i.toNat) ∧ (bitOf (s.get R.RING_MEMBERS_P) pos.val) ∧ (!(p.votes.any fun v => v.1 == pos.val)) :=
  ⟨{ live [(0xC2008, 1), (0x98, 0), (0xC2080, 8)] with press := some ⟨9, 5, true, 0, false, none, [], none, none⟩ }, ⟨9, 5, true, 0, false, none, [], none, none⟩, 3, 5, 0, 0xF000, by decide +kernel⟩

theorem witness_pressDecisionGo : ∃ (s : State) (p : PressSt), (s.press = some p) ∧ (p.ring) ∧ (s.isManager) ∧ (p.decided = none) ∧ (p.votes.all fun v => v.2.1 == 0) ∧ (p.votes.any fun v => v.1 == s.devid) ∧ (s.voteless p = []) :=
  ⟨{ live [(0x98, 0), (0xC2080, 8)] with press := some ⟨9, 5, true, 0, false, none, [(0, 0, 0xF000), (3, 0, 0xF000)], none, none⟩ }, ⟨9, 5, true, 0, false, none, [(0, 0, 0xF000), (3, 0, 0xF000)], none, none⟩, by decide +kernel⟩

theorem witness_pressDecisionAbort : ∃ (s : State) (p : PressSt) (v : Nat × Nat × Nat), (s.quiet) ∧ (s.press = some p) ∧ (p.ring) ∧ (s.isManager) ∧ (p.decided = none) ∧ (p.own = none) ∧ ((p.votes.find? fun v => v.2.1 != 0) = some v) :=
  ⟨{ live [(0x98, 0), (0xC2080, 8), (0x800C, 1)] with press := some ⟨9, 5, true, 0, false, none, [(3, 6, 17)], none, none⟩ }, ⟨9, 5, true, 0, false, none, [(3, 6, 17)], none, none⟩, (3, 6, 17), by decide +kernel⟩

theorem witness_pressDecideGo : ∃ (s : State) (p : PressSt) (i : BitVec 8) (_d : Fin 32) (_r : Fin 16) (_n : BitVec 16), (s.ringOn) ∧ (s.press = some p) ∧ (p.ring) ∧ (!s.isManager) ∧ (p.id = i.toNat) :=
  ⟨{ live [(0xC2008, 1), (0x98, 1)] with press := some ⟨9, 5, true, 0, false, none, [], none, none⟩ }, ⟨9, 5, true, 0, false, none, [], none, none⟩, 5, 0, 0, 0, by decide +kernel⟩

theorem witness_pressDecideAbort : ∃ (s : State) (p : PressSt) (i : BitVec 8) (_d : Fin 32) (_r : Fin 16) (_n : BitVec 16), (s.quiet) ∧ (s.ringOn) ∧ (s.press = some p) ∧ (p.ring) ∧ (!s.isManager) ∧ (p.id = i.toNat) ∧ (p.own = none) :=
  ⟨{ live [(0xC2008, 1), (0x98, 1), (0x800C, 1)] with press := some ⟨9, 5, true, 0, false, none, [], none, none⟩ }, ⟨9, 5, true, 0, false, none, [], none, none⟩, 5, 0, 0, 0, by decide +kernel⟩

/-! RingStepsAndSnapshots. -/

theorem witness_ringStep : ∃ (s : State) (_d : BitVec 64) (b : BitVec 48), (s.ringOn) ∧ (!s.isManager) ∧ (s.src = 4) ∧ (s.sheet < b.toNat) :=
  ⟨live [(0xC2008, 1), (0x98, 1), (0x3080, 4)], 3, 40, by decide +kernel⟩

theorem witness_ringStepIgnored : ∃ (s : State) (_d : BitVec 64) (b : BitVec 48), (!s.ringOn || s.isManager || s.src != 4 || decide (b.toNat ≤ s.sheet)) :=
  ⟨live [], 3, 40, by decide +kernel⟩

theorem witness_ringSnap : ∃ (s : State) (h : BitVec 64), (s.ringOn) ∧ (s.ring.snap ≠ some h.toNat) ∧ (s.ring.snapDone ≠ some h.toNat) ∧ (s.hsiNow ≤ h.toNat) :=
  ⟨live [(0xC2008, 1)], 40, by decide +kernel⟩

theorem witness_ringSnapLate : ∃ (s : State) (h : BitVec 64), (s.quiet) ∧ (s.ringOn) ∧ (s.ring.snap ≠ some h.toNat) ∧ (s.ring.snapDone ≠ some h.toNat) ∧ (h.toNat < s.hsiNow) :=
  ⟨{ live [(0xC2008, 1)] with hsi := 60 }, 40, by decide +kernel⟩

theorem witness_ringSnapGo : ∃ (s : State) (m : Master), (s.takes m.toNat 0xC20C8) ∧ (s.ringOn) ∧ (s.isManager) ∧ (s.hsiNow + 48 ≤ s.get64 0xC20C0) :=
  ⟨live [(0xC2008, 1), (0x98, 0), (0xC20C0, 100)], 0, by decide +kernel⟩

theorem witness_ringSnapTrigger : ∃ (s : State) (h : Nat), (s.is R.SNAP_C_ARMED) ∧ (bitOf (s.get R.SNAP_TRIG_EN_EN) 4) ∧ (!s.inHoldoff) ∧ (s.ring.snap = some h) ∧ (h ≤ s.hsiNow) :=
  ⟨{ live [(0x6008, 2), (0x6080, 0x1F)] with hsi := 60, ring := { RingSt.reset with snap := some 40 } }, 40, by decide +kernel⟩

theorem witness_ringSnapMissed : ∃ (s : State) (h : Nat), (s.is R.SNAP_C_ARMED) ∧ (bitOf (s.get R.SNAP_TRIG_EN_EN) 4) ∧ (s.inHoldoff) ∧ (s.ring.snap = some h) ∧ (h ≤ s.hsiNow) :=
  ⟨{ live [(0x6008, 2), (0x6080, 0x1F), (0x6084, 4)] with hsi := 60, lastSnap := some (0, 0), ring := { RingSt.reset with snap := some 40 } }, 40, by decide +kernel⟩

theorem witness_ringSnapWaits : ∃ (s : State), (s.ring.snap.all fun h => decide (s.hsiNow < h)) :=
  ⟨live [], by decide +kernel⟩

/-! WatermarkChecks. -/

theorem witness_wmkReportSame : ∃ (s : State) (p : Fin 32) (k : Word) (e : Word) (g : BitVec 16) (a : BitVec 64) (_b : BitVec 64) (o : Report), (s.quiet) ∧ (s.ring.report = some o) ∧ (s.ringOn) ∧ (s.isManager) ∧ (o.settled) ∧ (k.toNat = o.k) ∧ (g.toNat = o.tag) ∧ (e.toNat = o.epoch) ∧ (!(s.ring.reports.any fun x => x.pos == p.val)) ∧ (s.wmkGroup p.val = 0) ∧ (s.mapBit 0xC2080 p.val) ∧ (a = o.wRing) :=
  ⟨{ live [(0xC2008, 1), (0x98, 0), (0xC2080, 8), (0xC20A0, 8)] with ring := { RingSt.reset with report := some ⟨0, 2, 5, true, 9, 77, 0⟩, diffs := [(3, 15)] } }, 3, 2, 9, 5, 77, 0, ⟨0, 2, 5, true, 9, 77, 0⟩, by decide +kernel⟩

theorem witness_wmkReportOdd : ∃ (s : State) (p : Fin 32) (k : Word) (e : Word) (g : BitVec 16) (a : BitVec 64) (_b : BitVec 64) (o : Report), (s.quiet) ∧ (s.ring.report = some o) ∧ (s.ringOn) ∧ (s.isManager) ∧ (o.settled) ∧ (k.toNat = o.k) ∧ (g.toNat = o.tag) ∧ (e.toNat = o.epoch) ∧ (!(s.ring.reports.any fun x => x.pos == p.val)) ∧ (s.wmkGroup p.val = 0) ∧ (s.mapBit 0xC2080 p.val) ∧ (a ≠ o.wRing) :=
  ⟨{ live [(0xC2008, 1), (0x98, 0), (0xC2080, 8), (0xC20A0, 0)] with ring := { RingSt.reset with report := some ⟨0, 2, 5, true, 9, 77, 0⟩, diffs := [(3, 15)] } }, 3, 2, 9, 5, 78, 0, ⟨0, 2, 5, true, 9, 77, 0⟩, by decide +kernel⟩

theorem witness_wmkRescanRead : ∃ (s : State) (k : Nat) (l : List Nat), (s.is R.WMK_C_RESCAN_EN) ∧ (s.pageOn eWMK) ∧ ((pageOfSrc s.wmk.page).isSome) ∧ (s.pageOn s.wmk.page) ∧ (s.wmk.page ≠ eCONV) ∧ (s.scanWords (2 ^ 64) = l ++ [k]) :=
  ⟨{ live [(0x7008, 1)] with wmk := ⟨[], [], 0, 0, 0x1C, false, false⟩ }, 0x20, [0x1C], by decide +kernel⟩

theorem witness_wmkRescanPage : ∃ (s : State), (s.is R.WMK_C_RESCAN_EN) ∧ (s.pageOn eWMK) ∧ ((pageOfSrc s.wmk.page).isSome) ∧ (s.pageOn s.wmk.page) ∧ (s.wmk.page ≠ eCONV) ∧ (s.scanWords (2 ^ 64) = []) ∧ (!s.wmk.skip) ∧ (!s.wmk.bad) ∧ (s.wmk.run = s.digestOf s.wmk.page) ∧ (s.wmk.page < 95) :=
  ⟨{ live [(0x7008, 1)] with wmk := ⟨[], [], State.reset.digestOf 0, 0, 0x1000, false, false⟩ }, by decide +kernel⟩

theorem witness_wmkSettled : ∃ (s : State), (s.pageOn eWMK) :=
  ⟨live [], by decide +kernel⟩

/-! GrantsOfAPair. -/

theorem witness_heartbeatHeard : ∃ (s : State) (p : Fin 32) (g : Grant), (s.redOn) ∧ (s.ringOn) ∧ (s.isManager) ∧ (s.pairOn p.val) ∧ (s.grantOf p.val = some g) ∧ (!g.none) ∧ (g.sheet ≤ s.sheet) ∧ (bitOf s.ring.heard g.holder) :=
  ⟨{ { live [(0xD0008, 1), (0xC2008, 1), (0x98, 0), (0xD0104, 0x102)] with hsi := 60, red := { RedSt.reset with grants := [(1, some ⟨1, 2, false, 0, 0⟩)], miss := [(1, 3)] } } with ring := { RingSt.reset with heard := 2 } }, 1, ⟨1, 2, false, 0, 0⟩, by decide +kernel⟩

theorem witness_heartbeatMissed : ∃ (s : State) (p : Fin 32) (g : Grant), (s.redOn) ∧ (s.ringOn) ∧ (s.isManager) ∧ (s.pairOn p.val) ∧ (s.grantOf p.val = some g) ∧ (!g.none) ∧ (g.sheet ≤ s.sheet) ∧ (!bitOf s.ring.heard g.holder) ∧ (tget zeroAt s.red.miss p.val < 3) :=
  ⟨{ live [(0xD0008, 1), (0xC2008, 1), (0x98, 0), (0xD0104, 0x102)] with hsi := 60, red := { RedSt.reset with grants := [(1, some ⟨1, 2, false, 0, 0⟩)], miss := [(1, 2)] } }, 1, ⟨1, 2, false, 0, 0⟩, by decide +kernel⟩

theorem witness_heartbeatFailed : ∃ (s : State) (p : Fin 32) (g : Grant), (s.redOn) ∧ (s.ringOn) ∧ (s.isManager) ∧ (s.pairOn p.val) ∧ (s.grantOf p.val = some g) ∧ (!g.none) ∧ (g.sheet ≤ s.sheet) ∧ (!bitOf s.ring.heard g.holder) ∧ (tget zeroAt s.red.miss p.val = 3) :=
  ⟨{ live [(0xD0008, 1), (0xC2008, 1), (0x98, 0), (0xD0104, 0x102)] with hsi := 60, red := { RedSt.reset with grants := [(1, some ⟨1, 2, false, 0, 0⟩)], miss := [(1, 3)], standbys := [(2, some ⟨2, 0, 0, 0⟩)] } }, 1, ⟨1, 2, false, 0, 0⟩, by decide +kernel⟩

theorem witness_heartbeatFirst : ∃ (s : State) (p : Fin 32), (s.redOn) ∧ (s.ringOn) ∧ (s.isManager) ∧ (s.pairOn p.val) ∧ (s.grantOf p.val = none) ∧ (bitOf s.ring.heard p.val) ∧ (tget zeroAt s.ring.hbw p.val % 8 = mRun) :=
  ⟨{ { live [(0xD0008, 1), (0xC2008, 1), (0x98, 0), (0xD0104, 0x102)] with hsi := 60, red := { RedSt.reset with seq := 0 } } with ring := { RingSt.reset with heard := 2, hbw := [(1, 3)] } }, 1, by decide +kernel⟩

theorem witness_redFault : ∃ (s : State) (p : Fin 32) (g : Grant) (_x : BitVec 8) (h : Fin 32), (s.redOn) ∧ (s.ringOn) ∧ (s.isManager) ∧ (s.pairOn p.val) ∧ (s.grantOf p.val = some g) ∧ (!g.none) ∧ (g.sheet ≤ s.sheet) ∧ (g.holder = h.val) :=
  ⟨{ live [(0xD0008, 1), (0xC2008, 1), (0x98, 0), (0xD0104, 0x102)] with hsi := 60, red := { RedSt.reset with grants := [(1, some ⟨1, 2, false, 0, 0⟩)] } }, 1, ⟨1, 2, false, 0, 0⟩, 4, 1, by decide +kernel⟩

theorem witness_standbyState : ∃ (s : State) (_p : Fin 32) (_f : BitVec 4) (_q : Word) (_h : Word), (s.redOn) ∧ (s.ringOn) ∧ (s.isManager) :=
  ⟨live [(0xD0008, 1), (0xC2008, 1), (0x98, 0), (0xD0104, 0x102)], 2, 3, 5, 9, by decide +kernel⟩

/-! TheRightToTransmit. -/

theorem witness_grant : ∃ (s : State) (_p : Fin 32) (h : Fin 32) (g : BitVec 48), (s.redOn) ∧ (s.arbMode = 1) ∧ (h.val = s.devid) ∧ (!s.is R.RED_S_GRANT) ∧ (s.red.lastG ≠ some g.toNat) ∧ (s.red.grantAt = none) :=
  ⟨live [(0xD0008, 1), (0xD0080, 1)], 2, 0, 40, by decide +kernel⟩

theorem witness_grantNone : ∃ (s : State) (p : Fin 32) (h : Fin 32) (_g : BitVec 48), (s.quiet) ∧ (s.redOn) ∧ (s.arbMode = 1) ∧ (h.val = s.devid ∨ p.val = s.devid) ∧ (s.is R.RED_S_GRANT) :=
  ⟨live [(0xD0008, 1), (0xD0080, 1), (0xD000C, 1), (0x2400C, 1)], 2, 0, 40, by decide +kernel⟩

theorem witness_managerHeard : ∃ (s : State), (s.redOn) ∧ (s.is R.RED_S_GRANT) ∧ (s.arbMode = 1) ∧ (s.ring.mgr.any fun m => bitOf s.ring.heard m) :=
  ⟨{ live [(0xD0008, 1), (0xD0080, 1), (0xD000C, 1), (0xD00E8, 4)] with ring := { RingSt.reset with mgr := some 3, heard := 8 } }, by decide +kernel⟩

theorem witness_managerMissed : ∃ (s : State), (s.redOn) ∧ (s.is R.RED_S_GRANT) ∧ (s.arbMode = 1) ∧ (!(s.ring.mgr.any fun m => bitOf s.ring.heard m)) ∧ (s.get R.RED_MISS_CNT_MISSES < 5) :=
  ⟨live [(0xD0008, 1), (0xD0080, 1), (0xD000C, 1), (0xD00E8, 4)], by decide +kernel⟩

theorem witness_managerLost : ∃ (s : State), (s.quiet) ∧ (s.redOn) ∧ (s.is R.RED_S_GRANT) ∧ (s.arbMode = 1) ∧ (!(s.ring.mgr.any fun m => bitOf s.ring.heard m)) ∧ (s.get R.RED_MISS_CNT_MISSES = 5) :=
  ⟨live [(0xD0008, 1), (0xD0080, 1), (0xD000C, 1), (0xD00E8, 5)], by decide +kernel⟩

theorem witness_arbGrantDeassert : ∃ (s : State), (s.quiet) ∧ (s.arbMode = 2) :=
  ⟨live [(0xD0008, 1), (0xD0080, 2), (0xD000C, 1), (0x2400C, 1)], by decide +kernel⟩

theorem witness_arbGrantDeassertOff : ∃ (s : State), (s.arbMode ≠ 2) :=
  ⟨live [], by decide +kernel⟩

/-! FaultCausesAndWatchdog. -/

theorem witness_redYield : ∃ (s : State) (m : Master) (v : Word), (s.takes m.toNat 0xD0008) ∧ (bitOf v.toNat 1) ∧ (bitOf v.toNat 0) :=
  ⟨live [(0xD0008, 1)], 0, 3, by decide +kernel⟩

theorem witness_wdogKick : ∃ (s : State) (m : Master) (v : Word), (s.takes m.toNat 0xD00B8) ∧ (bitOf v.toNat 0) :=
  ⟨{ live [(0xD00B0, 1)] with slot := 7 }, 0, 1, by decide +kernel⟩

theorem witness_watchdogExpire : ∃ (s : State), (s.redOn) ∧ (s.get R.RED_WDOG_CFG_MS ≠ 0) ∧ (s.red.kick + s.get R.RED_WDOG_CFG_MS * 8 * sheetCycles ≤ s.absCyc) ∧ (!bitOf (s.get R.RED_FAULT_CAUSE_CAUSE) 0) :=
  ⟨{ live [(0xD0008, 1), (0xD00B4, 2), (0x1094, 1)] with slot := 16 }, by decide +kernel⟩

/-! Checkpoints. -/

theorem witness_checkpointCapture : ∃ (s : State), (s.ckptDue) ∧ (s.red.ckpt = none) ∧ (s.dramUsable) :=
  ⟨live [(0xD0008, 1), (0xD000C, 1), (0xD0084, 0x102), (0xB8080, 0), (0xB000C, 2)], by decide +kernel⟩

theorem witness_checkpointSkip : ∃ (s : State), (s.quiet) ∧ (s.ckptDue) ∧ (s.red.ckpt.isSome) :=
  ⟨{ live [(0xD0008, 1), (0xD000C, 1), (0xD0084, 0x102)] with red := { RedSt.reset with ckpt := some ⟨1, 0, [], true, false, 0⟩ } }, by decide +kernel⟩

theorem witness_checkpointCaptureDone : ∃ (s : State) (c : Ckpt), (s.red.ckpt = some c) ∧ (!c.ready) ∧ (s.dramUsable) ∧ (!s.ckptWaits) :=
  ⟨{ live [(0xB8080, 0), (0xB000C, 2)] with red := { RedSt.reset with ckpt := some ⟨1, 0, [1, 2], false, false, 0⟩ } }, ⟨1, 0, [1, 2], false, false, 0⟩, by decide +kernel⟩

theorem witness_checkpointOpen : ∃ (s : State) (_q : Word) (_l : Word), (s.standby) ∧ (s.dramUsable) ∧ (s.red.slots.length = 2) :=
  ⟨{ live [(0xD0008, 1), (0x9C, 4), (0xB8080, 0), (0xB000C, 2)] with red := { RedSt.reset with slots := [some ⟨4, 9, 64⟩, none] } }, 5, 100, by decide +kernel⟩

theorem witness_checkpointData : ∃ (s : State) (o : Nat) (d : List Byte) (c : CkptIn) (p : Nat × Nat), (s.red.ckptIn = some c) ∧ (c.close = none) ∧ (s.standby) ∧ (s.dramUsable) ∧ (s.waiting = []) ∧ (s.chanDo p.1 = .serve) ∧ (s.portOpen 2) ∧ (d.length = 64) ∧ (o % 64 = 0) ∧ (o + 64 ≤ 0x400000) ∧ (s.dramMap (s.slotAt c.slot + o) = some p) ∧ (s.allowed 0x40 4 (s.slotAt c.slot + o) 64 true) ∧ (s.imageOf (s.slotAt c.slot + o) = none) :=
  ⟨{ live [(0xD009C, 0x10), (0xD0098, 0x8000000), (0x9C, 4), (0xD0008, 1), (0xB8080, 0), (0xB000C, 2)] with red := { RedSt.reset with ckptIn := some ⟨0, 1, 64, none⟩ } }, 64, List.replicate 64 7, ⟨0, 1, 64, none⟩, (0, 0x8000040), by decide +kernel⟩

theorem witness_checkpointClose : ∃ (s : State) (q : Word) (x : BitVec 64) (c : CkptIn) (b : List Byte), (s.red.ckptIn = some c) ∧ (c.slot < s.red.slots.length) ∧ (s.standby) ∧ (s.dramUsable) ∧ (!s.ckptWaits) ∧ (c.len ≤ 0x400000) ∧ ((s.slotImage c.slot c.len).1 = some b) ∧ (c.seq = q.toNat) ∧ (leAt b 4 4 = q.toNat) ∧ (crc64 b = x.toNat) :=
  ⟨{ live [(0xD0008, 1), (0x9C, 4), (0xB8080, 0), (0xB000C, 2)] with red := { RedSt.reset with ckptIn := some ⟨0, 0, 0, none⟩ } }, 0, BitVec.ofNat 64 (crc64 []), ⟨0, 0, 0, none⟩, [], by decide +kernel⟩

theorem witness_checkpointBad : ∃ (s : State) (q : Word) (_x : BitVec 64) (c : CkptIn), (s.red.ckptIn = some c) ∧ (s.standby) ∧ (s.dramUsable) ∧ (!s.ckptWaits) ∧ (c.seq ≠ q.toNat) :=
  ⟨{ live [(0xD0008, 1), (0x9C, 4), (0xB8080, 0), (0xB000C, 2)] with red := { RedSt.reset with ckptIn := some ⟨0, 0, 0, none⟩ } }, 3, 0, ⟨0, 0, 0, none⟩, by decide +kernel⟩

theorem witness_checkpointCloseWaits : ∃ (s : State) (_q : Word) (_x : BitVec 64) (c : CkptIn), (s.red.ckptIn = some c) ∧ (s.standby) ∧ (s.dramUsable) ∧ (s.ckptWaits) :=
  ⟨{ live [(0xD0008, 1), (0x9C, 4), (0xB8080, 0), (0xB000C, 5)] with red := { RedSt.reset with ckptIn := some ⟨0, 0, 0, none⟩ } }, 3, 0, ⟨0, 0, 0, none⟩, by decide +kernel⟩

theorem witness_checkpointCloseAlone : ∃ (s : State) (_q : Word) (_x : BitVec 64), (s.quiet) ∧ (s.red.ckptIn = none) ∧ (s.standby) ∧ (s.dramUsable) :=
  ⟨live [(0xD0008, 1), (0x9C, 4), (0xB8080, 0), (0xB000C, 2)], 3, 0, by decide +kernel⟩

/-! TakeoverAndProof. -/

theorem witness_takeover : ∃ (s : State), (s.redOn) ∧ (s.is R.RED_S_GRANT) ∧ (s.red.take = none) ∧ (s.mode = mSpare) ∧ (!s.modeBusy) :=
  ⟨live [(0xD0008, 1), (0xD000C, 1), (0x9C, 4)], by decide +kernel⟩

theorem witness_restoreDone : ∃ (s : State) (g : Nat) (f : Bool), (s.red.take = some g) ∧ (s.pwr.trans = some (mSpare, mRun, f)) ∧ (s.cyc = 0) ∧ (s.is R.RED_S_RESTORING) ∧ (!(s.dramUsable && s.ckptWaits)) :=
  ⟨{ live [(0xD0008, 1), (0xD000C, 9), (0x9C, 4)] with slot := 9, red := { RedSt.reset with take := some 2 }, pwr := { PwrSt.reset with trans := some (4, 3, false) } }, 2, false, by decide +kernel⟩

theorem witness_audioOn : ∃ (s : State) (e : Nat), (s.quiet) ∧ (s.red.silenceEnd = some e) ∧ (e ≤ s.slot) :=
  ⟨{ live [(0xD000C, 4), (0x2400C, 2)] with slot := 9, red := { RedSt.reset with silenceEnd := some 8 } }, 8, by decide +kernel⟩

theorem witness_proofRun : ∃ (s : State), (s.proofDue) :=
  ⟨{ live [(0xD0008, 1), (0xD00BC, 0x10001), (0x9C, 4), (0x1088, 0x203F)] with slot := 8000 }, by decide +kernel⟩

theorem witness_proofRunDone : ∃ (s : State) (_b : Bool), (s.is R.RED_S_PROOF_RUNNING) ∧ (s.mode = mService) ∧ (s.pwr.trans = none) :=
  ⟨live [(0xD000C, 16), (0x9C, 5)], true, by decide +kernel⟩

/-! Modes. -/

theorem witness_modeRequest : ∃ (s : State) (m : Master) (v : Word), (s.takes m.toNat 0x1080) ∧ (bitOf v.toNat 31) ∧ (s.modeReason (v.toNat % 8) = 0) :=
  ⟨live [(0x9C, 2)], 0, 0x80000003, by decide +kernel⟩

theorem witness_modeRefused : ∃ (s : State) (m : Master) (v : Word), (s.takes m.toNat 0x1080) ∧ (s.quiet) ∧ (bitOf v.toNat 31) ∧ (s.modeReason (v.toNat % 8) ≠ 0) :=
  ⟨live [], 0, 0x80000004, by decide +kernel⟩

theorem witness_modeDone : ∃ (s : State) (_u : BitVec 16) (f : Nat) (g : Nat) (b : Bool), (s.pwr.trans = some (f, g, b)) ∧ (¬(f = mSpare ∧ g = mRun)) ∧ (g < 8) ∧ (s.cyc = 0) ∧ (f < 8) ∧ (s.pwr.doms.all fun q => decide (q.dom < 14)) ∧ (!s.redOn) ∧ (!s.boot.modeWait) ∧ (s.fabricIdle) :=
  ⟨{ State.reset with pwr := { PwrSt.reset with trans := some (1, 2, false), doms := [⟨7, false, false, 3⟩, ⟨5, true, false, 9⟩, ⟨2, true, false, 12⟩] } }, 900, 1, 2, false, by decide +kernel⟩

theorem witness_tempSample : ∃ (s : State) (d : BitVec 12), (!s.pwr.off) ∧ (s.pwr.inReset = none) ∧ (s.fabricIdle) ∧ (satI 12 (d.toInt + s.tempOffset) < s.warnAt) ∧ (satI 12 (d.toInt + s.tempOffset) < s.shutAt) :=
  ⟨live [(0x109C, 29545)], 100, by decide +kernel⟩

theorem witness_tempShut : ∃ (s : State) (d : BitVec 12), (!s.pwr.off) ∧ (s.pwr.inReset = none) ∧ (s.fabricIdle) ∧ (s.shutAt ≤ satI 12 (d.toInt + s.tempOffset)) ∧ (s.mode ≠ mStandby) ∧ (s.mode ≠ mOff) ∧ (s.pwr.trans = none) :=
  ⟨live [(0x109C, 29545)], 700, by decide +kernel⟩

theorem witness_tempShutStandby : ∃ (s : State) (d : BitVec 12), (!s.pwr.off) ∧ (s.pwr.inReset = none) ∧ (s.fabricIdle) ∧ (s.shutAt ≤ satI 12 (d.toInt + s.tempOffset)) ∧ (s.mode = mStandby) ∧ (s.pwr.trans = none) :=
  ⟨live [(0x9C, 1), (0x109C, 29545)], 700, by decide +kernel⟩

theorem witness_domainSteps : ∃ (s : State), (s.pageOn eDPHY = false) ∧ (s.pwr.doms.any fun q => decide (q.at0 ≤ s.absCyc)) ∧ (s.pwr.doms.all fun q => decide (q.dom < 14) && q.dom != 13) :=
  ⟨{ State.reset with slot := 1, pwr := { PwrSt.reset with doms := [⟨7, false, true, 3⟩, ⟨5, true, false, 9⟩, ⟨2, true, false, 90000⟩] } }, by decide +kernel⟩

/-! ResetsAndSupplies. -/

theorem witness_domRst : ∃ (s : State) (m : Master) (_v : Word), (s.takes m.toNat 0x108C) ∧ (s.mode = mConfig ∨ s.mode = mService) :=
  ⟨live [(0x9C, 2), (0x79080, 5), (0xB0080, 7)], 0, 0x2A01, by decide +kernel⟩

theorem witness_domRstRelease : ∃ (s : State) (_d : Fin 14), (s.pwr.inReset = none) ∧ (!s.pwr.off) ∧ (!s.pwr.test) :=
  ⟨{ live [] with held := 0x804 }, 11, by decide +kernel⟩

theorem witness_porPin : ∃ (s : State) (_x : BitVec 9) (_b : Bool), (!s.pwr.off) :=
  ⟨live [], 3, false, by decide +kernel⟩

theorem witness_resetN : ∃ (s : State), (!s.pwr.off) ∧ (s.pwr.inReset ≠ some true) :=
  ⟨{ live [] with hsi := 60, slot := 10 }, by decide +kernel⟩

theorem witness_wdogReset : ∃ (s : State) (k : Nat), (s.pwr.wdogAt = some k) ∧ (k + 16 ≤ s.slot) ∧ (!s.pwr.off) ∧ (s.pwr.inReset ≠ some true) :=
  ⟨{ live [] with slot := 20, pwr := { PwrSt.reset with wdogAt := some 3 } }, 3, by decide +kernel⟩

theorem witness_resetRelease : ∃ (s : State) (_d : BitVec 12) (b : Bool), (s.pwr.inReset = some b) :=
  ⟨{ State.reset with held := 0x3FFF, pwr := { PwrSt.reset with inReset := some true } }, 100, true, by decide +kernel⟩

theorem witness_pciePerst : ∃ (s : State), (!s.pwr.off) :=
  ⟨live [], by decide +kernel⟩

theorem witness_pciePerstRelease : ∃ (s : State), (s.macs.all fun m => m.held.isEmpty) ∧ (s.macs.length = 4) ∧ (s.domOn 1) :=
  ⟨{ live [] with pwr := { PwrSt.reset with perst := true } }, by decide +kernel⟩

theorem witness_supplyReturn : ∃ (s : State) (_r : Fin 5), (!s.pwr.off) :=
  ⟨live [(0x10A0, 5), (0x100C, 4)], 2, by decide +kernel⟩

/-! SupplyMonitors. -/

theorem witness_brownoutWarn : ∃ (s : State) (_r : Fin 5), (!s.pwr.off) :=
  ⟨live [], 2, by decide +kernel⟩

theorem witness_brownout : ∃ (s : State) (_x : BitVec 9) (_b : Bool), (!s.pwr.off) :=
  ⟨live [], 3, false, by decide +kernel⟩

/-! BootStartsAndVerifies. -/

theorem witness_bootStart : ∃ (s : State) (f : List Byte) (d : List Byte), (s.pageOn eBOOT) ∧ (s.mode = mStandby) ∧ (s.n 0xE800C = 0) ∧ (!s.boot.waits) ∧ (s.bootStrap = 0 ∨ s.bootStrap = 2) ∧ (sfdpTable f = some d) ∧ (sfdpDensity d < 64) :=
  ⟨stW [], leBytes 4 0x50444653 ++ List.replicate 8 0 ++ [16, 0, 0, 0] ++ leBytes 4 0x200000 ++ leBytes 4 0x0FFFFFFF, leBytes 4 0x200000 ++ leBytes 4 0x0FFFFFFF, by decide +kernel⟩

theorem witness_bootStartNoTable : ∃ (s : State) (f : List Byte), (s.pageOn eBOOT) ∧ (s.mode = mStandby) ∧ (s.n 0xE800C = 0) ∧ (!s.boot.waits) ∧ (s.bootStrap = 0 ∨ s.bootStrap = 2) ∧ (sfdpTable f = none) :=
  ⟨stW [], [], by decide +kernel⟩

theorem witness_bootStartNoDevice : ∃ (s : State), (s.quiet) ∧ (s.pageOn eBOOT) ∧ (s.mode = mStandby) ∧ (s.n 0xE800C = 0) ∧ (!s.boot.waits) ∧ (s.bootStrap = 0 ∨ s.bootStrap = 2) :=
  ⟨stW [], by decide +kernel⟩

theorem witness_bootStartWaits : ∃ (s : State) (_f : Option (List Byte)), (s.pageOn eBOOT) ∧ (s.mode = mStandby) ∧ (s.n 0xE800C = 0) ∧ (!s.boot.waits) ∧ (s.bootStrap = 1) :=
  ⟨stW [(0x90, 0x1000)], none, by decide +kernel⟩

theorem witness_bootStartNone : ∃ (s : State) (_f : Option (List Byte)), (s.quiet) ∧ (s.pageOn eBOOT) ∧ (s.mode = mStandby) ∧ (s.n 0xE800C = 0) ∧ (!s.boot.waits) ∧ (s.bootStrap = 3) :=
  ⟨stW [(0x90, 0x3000)], none, by decide +kernel⟩

theorem witness_bootGo : ∃ (s : State) (m : Master) (v : Word), (s.takes m.toNat 0xE8008) ∧ (!s.is R.BOOT_S_BUSY) ∧ (s.mode = mStandby ∨ s.mode = mConfig) ∧ (bitOf v.toNat 0) ∧ (!bitOf v.toNat 1) ∧ (s.bootStrap ≠ 1 ∨ s.get64 0xE8080 ≠ 0) :=
  ⟨live [(0x9C, 2), (0xE8088, 1), (0xE8080, 64)], 0, 1, by decide +kernel⟩

theorem witness_bootGoNoDevice : ∃ (s : State) (m : Master) (v : Word), (s.takes m.toNat 0xE8008) ∧ (s.quiet) ∧ (!s.is R.BOOT_S_BUSY) ∧ (s.mode = mStandby ∨ s.mode = mConfig) ∧ (bitOf v.toNat 0) ∧ (!bitOf v.toNat 1) ∧ (s.bootStrap = 1) ∧ (s.get64 0xE8080 = 0) :=
  ⟨live [(0x9C, 2), (0x90, 0x1000)], 0, 1, by decide +kernel⟩

theorem witness_bootAbort : ∃ (s : State) (m : Master) (v : Word), (s.takes m.toNat 0xE8008) ∧ (s.quiet) ∧ (bitOf v.toNat 1) ∧ (!bitOf v.toNat 0) ∧ (s.is R.BOOT_S_BUSY) ∧ (s.boot.poll = none) ∧ (!s.boot.modeWait) ∧ (s.mode ≠ mRun) :=
  ⟨{ live [(0xE800C, 1), (0x9C, 1)] with boot := { BootSt.reset with verify := true } }, 0, 2, by decide +kernel⟩

theorem witness_verifyPassDone : ∃ (s : State) (b : List Byte) (d : List Byte), (s.boot.verify) ∧ (s.bootImage b = (some (.ok d), s)) ∧ (imageReason d = 0) :=
  ⟨{ live [(0xE800C, 1), (0x9C, 1)] with boot := { BootSt.reset with verify := true, qspi := true } }, ((fun (h : List Byte) => (fun (b : List Byte) => b ++ leBytes 8 (crc64 b)) (h ++ leBytes 4 (crc32 h) ++ [0, 0, 0, 0, 8, 0, 0, 0])) (leBytes 4 0x31544F42 ++ leBytes 4 1 ++ leBytes 4 48 ++ leBytes 4 1 ++ leBytes 8 7 ++ leBytes 4 0)), ((fun (h : List Byte) => (fun (b : List Byte) => b ++ leBytes 8 (crc64 b)) (h ++ leBytes 4 (crc32 h) ++ [0, 0, 0, 0, 8, 0, 0, 0])) (leBytes 4 0x31544F42 ++ leBytes 4 1 ++ leBytes 4 48 ++ leBytes 4 1 ++ leBytes 8 7 ++ leBytes 4 0)), by decide +kernel⟩

theorem witness_verifyPassFailed : ∃ (s : State) (b : List Byte) (d : List Byte), (s.quiet) ∧ (s.boot.verify) ∧ (!s.boot.qspi) ∧ (!s.is R.BOOT_S_EXECUTING) ∧ (s.bootImage b = (some (.ok d), s)) ∧ (imageReason d ≠ 0) :=
  ⟨{ live [(0xE800C, 1), (0x9C, 1)] with boot := { BootSt.reset with verify := true } }, [1, 2], [1, 2], by decide +kernel⟩

theorem witness_verifyPassCopy1 : ∃ (s : State) (b : List Byte) (d : List Byte), (s.boot.verify) ∧ (s.boot.qspi) ∧ (!s.is R.BOOT_RESULT_COPY) ∧ (s.bootImage b = (some (.ok d), s)) ∧ (imageReason d ≠ 0) :=
  ⟨{ live [(0xE800C, 1), (0x9C, 1)] with boot := { BootSt.reset with verify := true, qspi := true, copy1 := 64 } }, [1, 2], [1, 2], by decide +kernel⟩

theorem witness_verifyPassReadError : ∃ (s : State) (b : List Byte), (s.quiet) ∧ (s.boot.verify) ∧ (!s.boot.qspi) ∧ (!s.is R.BOOT_S_EXECUTING) ∧ (s.get R.BOOT_RESULT_SOURCE = 1) ∧ (b.length < imageNeed b) :=
  ⟨{ live [(0xE800C, 1), (0x9C, 1), (0xE808C, 1), (0xE8080, 64)] with boot := { BootSt.reset with verify := true } }, [1, 2], by decide +kernel⟩

/-! BootRecords. -/

theorem witness_bootWrite : ∃ (s : State) (k : Bool) (a : Addr) (v : Word), (s.spells (.bootWrite k a v)) ∧ (s.servesSram 2 a.toNat 4 true) ∧ (s.clean a.toNat 4) ∧ (plainArea a.toNat 4) ∧ (inboxSlot a.toNat 4 = none) :=
  ⟨{ live [(0xE800C, 9), (0x9C, 1)] with boot := { BootSt.reset with image := List.replicate 12 0 ++ leBytes 4 4 ++ ([1, 0, 0, 0] ++ leBytes 4 24 ++ leBytes 8 0x117C0000 ++ leBytes 4 9), pos := 16 } }, false, 0x117C0000, 9, by decide +kernel⟩

theorem witness_bootWriteRegister : ∃ (s : State) (k : Bool) (a : Addr) (v : Word) (l : Loc), (s.spells (.bootWrite k a v)) ∧ (s.stores 2 a.toNat l v) ∧ (hidden 2 (some l) = 0) ∧ (l.key ≠ 0xE8090) :=
  ⟨{ live [(0xE800C, 9), (0x9C, 1)] with boot := { BootSt.reset with image := List.replicate 12 0 ++ leBytes 4 4 ++ ([1, 0, 0, 0] ++ leBytes 4 24 ++ leBytes 8 0xA4 ++ leBytes 4 9), pos := 16 } }, false, 0xA4, 9, ⟨0xA4, ((regOf 0xA4).getD (default0, 0)).1⟩, by decide +kernel⟩

theorem witness_bootWriteFails : ∃ (s : State) (a : Addr) (v : Word), (s.spells (.bootWrite false a v)) ∧ (s.quiet) ∧ (s.fabricIdle) ∧ (s.mode ≠ mRun) ∧ (targetOf a.toNat = 7 ∨ targetOf a.toNat = 0 ∧ a.toNat % 4 ≠ 0) :=
  ⟨{ live [(0xE800C, 9), (0x9C, 1)] with boot := { BootSt.reset with image := List.replicate 12 0 ++ leBytes 4 4 ++ ([1, 0, 0, 0] ++ leBytes 4 24 ++ leBytes 8 0xFF000000 ++ leBytes 4 9), pos := 16 } }, 0xFF000000, 9, by decide +kernel⟩

theorem witness_bootWriteWaits : ∃ (s : State) (k : Bool) (a : Addr) (v : Word), (s.spells (.bootWrite k a v)) ∧ (s.waiting = []) ∧ (s.ring.rraHere = none) ∧ (targetOf a.toNat = 2) ∧ (a.toNat % 4 = 0) ∧ (s.lockedOut 2) ∧ (s.allowed 2 2 a.toNat 4 true) ∧ (s.domOn 5) :=
  ⟨{ { live [(0xE800C, 9), (0x9C, 1)] with boot := { BootSt.reset with image := List.replicate 12 0 ++ leBytes 4 4 ++ ([1, 0, 0, 0] ++ leBytes 4 24 ++ leBytes 8 0x117C0000 ++ leBytes 4 9), pos := 16 } } with lock := some ⟨0, 0x117C0000, [], []⟩ }, false, 0x117C0000, 9, by decide +kernel⟩

theorem witness_bootWriteWaitsDram : ∃ (s : State) (k : Bool) (a : Addr) (v : Word) (p : Nat × Nat), (s.spells (.bootWrite k a v)) ∧ (s.waiting = []) ∧ (s.ring.rraHere = none) ∧ (targetOf a.toNat = 4) ∧ (a.toNat % 4 = 0) ∧ (s.allowed 2 4 a.toNat 4 true) ∧ (s.domOn 13) ∧ (s.dramMap a.toNat = some p) ∧ (s.chanDo p.1 = .wait) ∧ (!s.imageShut a.toNat) :=
  ⟨{ live [(0xE800C, 9), (0x9C, 1), (0xB8080, 0), (0xB000C, 5)] with boot := { BootSt.reset with image := List.replicate 12 0 ++ leBytes 4 4 ++ ([1, 0, 0, 0] ++ leBytes 4 24 ++ leBytes 8 0x1006000000 ++ leBytes 4 9), pos := 16 } }, false, 0x1006000000, 9, (0, 0x6000000), by decide +kernel⟩

theorem witness_bootModify : ∃ (s : State) (k : Bool) (a : Addr) (q : Word) (v : Word) (w : Word) (l : Loc), (s.spells (.bootModify k a q v)) ∧ (s.shows 2 a.toNat 4 l) ∧ (!s.disagrees l) ∧ (w = (s.w l.key &&& ~~~q) ||| (v &&& q)) ∧ (s.stores 2 a.toNat l w) ∧ (hidden 2 (some l) = 0) ∧ (l.key ≠ 0xE8090) :=
  ⟨{ live [(0xE800C, 9), (0x9C, 1), (0xA4, 0x55)] with boot := { BootSt.reset with image := List.replicate 12 0 ++ leBytes 4 4 ++ ([2, 0, 0, 0] ++ leBytes 4 24 ++ leBytes 8 0xA4 ++ leBytes 4 15 ++ leBytes 4 9), pos := 16 } }, false, 0xA4, 0xF, 9, 0x59, ⟨0xA4, ((regOf 0xA4).getD (default0, 0)).1⟩, by decide +kernel⟩

theorem witness_bootLoad : ∃ (s : State) (k : Bool) (a : Addr) (d : List Byte), (blockPieces d.length a.toNat d = [(a.toNat, d)]) ∧ (s.spells (.bootLoad k a d)) ∧ (s.servesSram 2 a.toNat d.length true) ∧ (s.clean a.toNat d.length) ∧ (plainArea a.toNat d.length) ∧ (inboxSlot a.toNat d.length = none) :=
  ⟨{ live [(0xE800C, 9), (0x9C, 1)] with boot := { BootSt.reset with image := List.replicate 12 0 ++ leBytes 4 4 ++ ([3, 0, 0, 0] ++ leBytes 4 32 ++ leBytes 8 0x117C0000 ++ leBytes 4 8 ++ [0, 0, 0, 0, 1, 2, 3, 4, 5, 6, 7, 8]), pos := 16 } }, false, 0x117C0000, [1, 2, 3, 4, 5, 6, 7, 8], by decide +kernel⟩

theorem witness_bootFill : ∃ (s : State) (k : Bool) (a : Addr) (n : Nat) (v : Word), (s.spells (.bootFill k a n v)) ∧ (n % 4 = 0) ∧ (s.fabricIdle) ∧ ((List.range (n / 4)).all fun i => s.servesSram 2 (a.toNat + 4 * i) 4 true && s.clean (a.toNat + 4 * i) 4 && plainArea (a.toNat + 4 * i) 4 && (inboxSlot (a.toNat + 4 * i) 4).isNone) :=
  ⟨{ live [(0xE800C, 9), (0x9C, 1)] with boot := { BootSt.reset with image := List.replicate 12 0 ++ leBytes 4 4 ++ ([4, 0, 0, 0] ++ leBytes 4 24 ++ leBytes 8 0x117C0000 ++ leBytes 4 12 ++ leBytes 4 0x01020304), pos := 16 } }, false, 0x117C0000, 12, 0x01020304, by decide +kernel⟩

theorem witness_bootPoll : ∃ (s : State) (k : Bool) (a : Addr) (q : Word) (v : Word) (x : Word) (l : Loc), (s.spells (.bootPoll k a q v x)) ∧ (s.shows 2 a.toNat 4 l) ∧ (!s.disagrees l) :=
  ⟨{ live [(0xE800C, 9), (0x9C, 1), (0xA4, 0x55)] with boot := { BootSt.reset with image := List.replicate 12 0 ++ leBytes 4 4 ++ ([5, 0, 0, 0] ++ leBytes 4 32 ++ leBytes 8 0xA4 ++ leBytes 4 15 ++ leBytes 4 5 ++ leBytes 4 9), pos := 16 } }, false, 0xA4, 0xF, 5, 9, ⟨0xA4, ((regOf 0xA4).getD (default0, 0)).1⟩, by decide +kernel⟩

theorem witness_pollTimeout : ∃ (s : State) (a : Addr) (q : Word) (v : Word) (l : Loc), (s.quiet) ∧ (s.boot.poll = some (a.toNat, q.toNat, v.toNat)) ∧ (s.shows 2 a.toNat 4 l) ∧ (!s.disagrees l) ∧ (s.w l.key &&& q ≠ v) ∧ (s.mode ≠ mRun) :=
  ⟨{ live [(0xE800C, 9), (0x9C, 1)] with boot := { BootSt.reset with poll := some (0xA4, 1, 1) } }, 0xA4, 1, 1, ⟨0xA4, ((regOf 0xA4).getD (default0, 0)).1⟩, by decide +kernel⟩

theorem witness_bootDelay : ∃ (s : State) (u : Word), (s.spells (.bootDelay u)) ∧ (s.fabricIdle) :=
  ⟨{ live [(0xE800C, 9), (0x9C, 1)] with boot := { BootSt.reset with image := List.replicate 12 0 ++ leBytes 4 4 ++ ([6, 0, 0, 0] ++ leBytes 4 16 ++ leBytes 4 9 ++ [0, 0, 0, 0]), pos := 16 } }, 9, by decide +kernel⟩

theorem witness_bootNotNext : ∃ (s : State) (u : Word), (s.boot.poll = none) ∧ (s.get R.BOOT_RESULT_SOURCE ≠ 2) ∧ (!s.spells (.bootDelay u)) ∧ (!s.boot.abort) :=
  ⟨{ live [(0xE800C, 9), (0x9C, 1)] with boot := { BootSt.reset with image := List.replicate 12 0 ++ leBytes 4 4 ++ ([6, 0, 0, 0] ++ leBytes 4 16 ++ leBytes 4 8 ++ [0, 0, 0, 0]), pos := 16 } }, 9, by decide +kernel⟩

theorem witness_bootMode : ∃ (s : State) (g : BitVec 8), (s.spells (.bootMode g)) ∧ (s.fabricIdle) ∧ (s.modeReason g.toNat = 0) :=
  ⟨{ live [(0xE800C, 9), (0x9C, 1)] with boot := { BootSt.reset with image := List.replicate 12 0 ++ leBytes 4 4 ++ ([7, 0, 0, 0] ++ leBytes 4 16 ++ [2, 0, 0, 0, 0, 0, 0, 0]), pos := 16 } }, 2, by decide +kernel⟩

theorem witness_bootModeRefused : ∃ (s : State) (g : BitVec 8), (s.spells (.bootMode g)) ∧ (s.quiet) ∧ (s.fabricIdle) ∧ (s.mode ≠ mRun) ∧ (s.modeReason g.toNat ≠ 0) :=
  ⟨{ live [(0xE800C, 9), (0x9C, 1)] with boot := { BootSt.reset with image := List.replicate 12 0 ++ leBytes 4 4 ++ ([7, 0, 0, 0] ++ leBytes 4 16 ++ [9, 0, 0, 0, 0, 0, 0, 0]), pos := 16 } }, 9, by decide +kernel⟩

theorem witness_bootEnd : ∃ (s : State) (b : List Byte) (d : List Byte), (s.quiet) ∧ (s.is R.BOOT_S_EXECUTING) ∧ (s.recIdle) ∧ (s.get R.BOOT_REC_INDEX_INDEX + 1 = s.bootRecs) ∧ (s.bootReread b = (some (.ok d), s)) ∧ (crc64 (d.take (s.get R.BOOT_IMG_LEN_LEN - 8)) = leAt s.boot.image (s.get R.BOOT_IMG_LEN_LEN - 8) 8) :=
  ⟨{ live [(0xE800C, 9), (0x9C, 1), (0xE80A8, 8)] with boot := { BootSt.reset with image := leBytes 8 (crc64 []) ++ leBytes 4 0 ++ leBytes 4 1 } }, [], [], by decide +kernel⟩

theorem witness_bootEndUnstable : ∃ (s : State) (b : List Byte) (d : List Byte), (s.quiet) ∧ (s.mode ≠ mRun) ∧ (s.is R.BOOT_S_EXECUTING) ∧ (s.recIdle) ∧ (s.get R.BOOT_REC_INDEX_INDEX + 1 = s.bootRecs) ∧ (s.bootReread b = (some (.ok d), s)) ∧ (crc64 (d.take (s.get R.BOOT_IMG_LEN_LEN - 8)) ≠ leAt s.boot.image (s.get R.BOOT_IMG_LEN_LEN - 8) 8) :=
  ⟨{ live [(0xE800C, 9), (0x9C, 1), (0xE80A8, 8)] with boot := { BootSt.reset with image := List.replicate 12 1 ++ leBytes 4 1 } }, [], [], by decide +kernel⟩

theorem witness_bootEndReadError : ∃ (s : State) (b : List Byte), (s.quiet) ∧ (s.mode ≠ mRun) ∧ (s.is R.BOOT_S_EXECUTING) ∧ (s.recIdle) ∧ (s.get R.BOOT_REC_INDEX_INDEX + 1 = s.bootRecs) ∧ (s.get R.BOOT_RESULT_SOURCE = 1) ∧ (b.length < s.get R.BOOT_IMG_LEN_LEN) :=
  ⟨{ live [(0xE800C, 9), (0x9C, 1), (0xE80A8, 8), (0xE808C, 1)] with boot := { BootSt.reset with image := List.replicate 12 1 ++ leBytes 4 1 } }, [], by decide +kernel⟩

/-! StepKeepsTheInterruptInvariant. -/

theorem witness_inv : ∃ s t : State, s.Inv ∧ step s = .next t :=
  ⟨State.reset, State.reset.tick, ⟨by decide +kernel, by decide +kernel⟩, rfl⟩

/-! StepKeepsTheMemoryCanonical. -/

theorem witness_memoryCanonical : ∃ s t : State, Memory.wf s.mem ∧ step s = .next t :=
  ⟨{ State.reset with mem := [(0x117C0000, 5)] }, _, by decide, rfl⟩

/-! IeWordsRoundTrip. -/

theorem witness_words : ∃ (i : Instr) (w : Word), encodeIe i = some w :=
  ⟨.ieAdd 3 true 5 2 2, 0x42A44000, by decide⟩

end

end Sys2Proof.Tests
end

section
/-! PACKET_LAUNCH with no transmit context listed (04_network R148, R158; 11_memory_fabric R360): TXS visits the packet buffers all the
same, and the arbitration of the bank shows the visit. SheetTiming names the arbitration words within the list that it forms for each
context, so that it lets none of them change here. -/

namespace Sys2Proof.Machine

/-- A master that only reads an area without a bad word leaves everything as it is (R347, R348). -/
theorem State.areaTouch_packetRead (s : State) (m : Nat) (hb : s.badWords.any packetRead.holds = false) :
    s.areaTouch m [packetRead] = s := by
  have hw : [packetRead].filter (fun q => q.written) = [] := rfl
  have hv : s.badWords.filter (fun w => [packetRead].any fun q => q.holds w) = [] := by
    simpa [List.filter_eq_nil_iff] using hb
  simp only [State.areaTouch, hw, hv, State.each, List.foldl_nil]

/-- With no context listed the launch is TXS's visit of the packet buffers alone (R148). -/
theorem State.launch_of_no_context (s : State) (hp : s.pageOn eTXS = true) (he : s.is R.TXS0_C_EN = true) (ht : s.tx = []) :
    s.launch = s.areaWork 0x0D [packetRead] := by
  simp [State.launch, hp, he, ht, State.each]

/-- A visit of TXS, master 0x0D at global input 5, shows in ARB_ACT_0 and nowhere else (R351, R360, R362). -/
theorem State.keeps_arbSample_txs (s : State) : s.keeps (s.arbSample 0x0D) [0xA00AC] := by
  unfold State.arbSample
  exact s.keeps_setW _ _

/-- With no context listed and no bad word in the packet buffers, PACKET_LAUNCH comes down to the arbitration sample. -/
theorem exec_packetLaunch_of_no_context (s : State) (hp : s.pageOn eTXS = true) (he : s.is R.TXS0_C_EN = true) (ht : s.tx = [])
    (hb : s.badWords.any packetRead.holds = false) (hf : s.pageOn eFAB = true) :
    exec .packetLaunch s = done (s.arbSample 0x0D) := by
  have hl : s.launch = s.arbSample 0x0D := by
    rw [s.launch_of_no_context hp he ht, State.areaWork, s.areaTouch_packetRead _ hb]
    exact if_pos hf
  have hu : (s.arbSample 0x0D).n R.SRAM_UE_CNT_COUNT.addr = s.n R.SRAM_UE_CNT_COUNT.addr :=
    congrArg BitVec.toNat (s.keeps_arbSample_txs _ (by decide))
  show done (s.launch.ueCause s 0x0D) = _
  rw [hl, State.ueCause, hu]
  simp

/-- In RUN, with every domain on and TXS enabled, before a commit has brought any transmit context. -/
def txsWithoutContext : State :=
  { State.reset with words := [(0x9C, 3), (0x1088, 0x3FFF), (0x1090, 1), (0x200C, 5), (0x24008, 1)] }

/-- There the launch takes ARB_ACT_0 from zero to one master in the field of input 5. -/
theorem txsWithoutContext_arbAct :
    txsWithoutContext.w 0xA00AC = 0 ∧ (txsWithoutContext.arbSample 0x0D).w 0xA00AC = 0x100000 := by decide +kernel

/-- Refutes O1, by its clause on the launch with the gate closed: the words that may change are listed for each context, ARB_ACT among
them, so that with no context listed none may; but TXS reads the packet buffers all the same, and ARB_ACT_0 follows. -/
theorem not_sheetTiming : ¬ Obligations.SheetTiming := by
  unfold Obligations.SheetTiming
  rintro ⟨-, -, -, -, -, -, -, -, -, -, -, -, -, hLaunch, -⟩
  have hp : txsWithoutContext.pageOn eTXS = true := by decide +kernel
  have he : txsWithoutContext.is R.TXS0_C_EN = true := by decide +kernel
  have hg : (!txsWithoutContext.is R.TXS0_S_GATE_OPEN) = true := by decide +kernel
  have hf : txsWithoutContext.pageOn eFAB = true := by decide +kernel
  have hx := exec_packetLaunch_of_no_context txsWithoutContext hp he rfl rfl hf
  obtain ⟨-, -, -, hkeeps, -⟩ := (gives_done_iff hx).mp (hLaunch txsWithoutContext hp he hg List.nodup_nil rfl)
  have hsame := hkeeps 0xA00AC List.not_mem_nil
  rw [State.settle_w, txsWithoutContext_arbAct.1, txsWithoutContext_arbAct.2] at hsame
  exact absurd hsame (by decide)

end Sys2Proof.Machine
end

section
/-! The interrupt invariant (02_register_pages R61, R62). EVT is settled at the end of every command, whatever the command did, and
settling alone makes the invariant: the vectors are seen as they are, and a pending bit of an inactive one is dropped. -/

namespace Sys2Proof.Machine

theorem mem_of_mem_tins {α : Type} {k : Nat} {v : α} {t : Tab α} {e : Nat × α} (h : e ∈ tins k v t) : e = (k, v) ∨ e ∈ t := by
  induction t with
  | nil => exact Or.inl (by simpa [tins] using h)
  | cons x t ih =>
    by_cases hk : k < x.1
    · simpa [tins, hk] using h
    · rcases List.mem_cons.mp (by simpa [tins, hk] using h) with rfl | h
      · exact Or.inr List.mem_cons_self
      · exact (ih h).imp_right (List.mem_cons_of_mem _)

/-- Writing a key lists nothing new but that key. -/
theorem mem_of_mem_tset {α : Type} [DecidableEq α] {d : Nat → α} {t : Tab α} {k : Nat} {v : α} {e : Nat × α}
    (h : e ∈ tset d t k v) : e = (k, v) ∨ e ∈ t := by
  unfold tset at h
  split at h
  · exact Or.inr (List.mem_filter.mp h).1
  · exact (mem_of_mem_tins h).imp_right fun he => (List.mem_filter.mp he).1

/-- The words from which EVT evaluates a source: its domain, EVENT and EVENT_EN, SRC_EN and VMAP (R61). -/
def evtWords (src : Nat) : List Nat :=
  [R.PWR_DOM_ON_ON.addr, pageBase src + 0x10, pageBase src + 0x14, 0x5090 + 4 * (src / 32), 0x5100 + 4 * (src / 4)]

/-- What EVT evaluates depends on these words and on the domains held in reset. -/
theorem State.vecActive_of_keeps {s t : State} {ks : List Nat} (h : s.keeps t ks) (hh : t.held = s.held)
    (hk : ∀ src ∈ allSources, ∀ k ∈ evtWords src, k ∉ ks) : t.vecActive = s.vecActive := by
  refine List.foldl_ext _ _ _ fun x src hsrc => ?_
  have hn : ∀ k ∈ evtWords src, t.n k = s.n k := fun k hm => congrArg BitVec.toNat (h k (hk src hsrc k hm))
  have hp : t.pageOn src = s.pageOn src := by
    simp only [State.pageOn, State.domOn, State.get, hn R.PWR_DOM_ON_ON.addr (by simp [evtWords]), hh]
  have he : t.srcEn src = s.srcEn src := by
    simp only [State.srcEn, State.mapBit, hn (0x5090 + 4 * (src / 32)) (by simp [evtWords])]
  have hd : t.pend src = s.pend src := by
    simp only [State.pend, hp, hn (pageBase src + 0x10) (by simp [evtWords]), hn (pageBase src + 0x14) (by simp [evtWords])]
  have hv : t.vmap src = s.vmap src := by simp only [State.vmap, hn (0x5100 + 4 * (src / 4)) (by simp [evtWords])]
  simp only [he, hd, hv]

theorem State.vecActive_congr {s t : State} (hw : t.words = s.words) (hh : t.held = s.held) : t.vecActive = s.vecActive :=
  State.vecActive_of_keeps (State.keeps_of_words hw []) hh fun _ _ _ _ => List.not_mem_nil

@[simp] theorem State.settle_vecActive (s : State) : s.settle.vecActive = s.vecActive :=
  State.vecActive_congr s.settle_words s.settle_held

/-- A message request pends at most the message of its own vector. -/
theorem State.mem_msixRequest_pba {s : State} {v : Nat} {e : Nat × Nat} (h : e ∈ (s.msixRequest v).msix.pba) (hv : v < 32) :
    e.1 % 32 = v ∨ e ∈ s.msix.pba := by
  simp only [State.msixRequest] at h
  split at h
  · exact Or.inr h
  · split at h
    · change e ∈ tset zeroAt s.msix.pba _ 1 at h
      refine (mem_of_mem_tset h).imp_left ?_
      rintro rfl
      show (_ * 32 + v) % 32 = v
      omega
    · exact Or.inr h

/-- EVT's view of the vectors is a, and every pending message is that of a vector active in a. -/
def State.evtSees (s : State) (a : Nat) : Prop := s.msix.active = a ∧ ∀ e ∈ s.msix.pba, bitOf a (e.1 % 32) = true

theorem State.evtSees_msixRequest {s : State} {a v : Nat} (h : s.evtSees a) (hv : v < 32) (ha : bitOf a v = true) :
    (s.msixRequest v).evtSees a := by
  refine ⟨(s.msixRequest_active v).trans h.1, fun e he => ?_⟩
  rcases State.mem_msixRequest_pba he hv with hm | hm
  · rw [hm]; exact ha
  · exact h.2 e hm

/-- Requests for vectors active in a keep that view. -/
theorem State.evtSees_requests (a : Nat) (p : Nat → Bool) (hp : ∀ v, p v = true → bitOf a v = true) (l : List Nat)
    (hl : ∀ v ∈ l, v < 32) (s : State) (h : s.evtSees a) :
    (l.foldl (fun s v => if p v then s.msixRequest v else s) s).evtSees a := by
  induction l generalizing s with
  | nil => exact h
  | cons v l ih =>
    refine ih (fun x hx => hl x (by simp [hx])) _ ?_
    beta_reduce
    split
    · exact State.evtSees_msixRequest h (hl v (by simp)) (hp v ‹_›)
    · exact h

/-- Settling EVT makes the invariant, from any state. -/
theorem State.settle_inv (s : State) : s.settle.Inv := by
  have h : s.settle.evtSees s.vecActive :=
    State.evtSees_requests s.vecActive (fun v => bitOf s.vecActive v && !bitOf s.msix.active v) (fun v hv => by simp at hv; exact hv.1)
      (List.range 32) (fun v hv => List.mem_range.mp hv) _ ⟨rfl, fun e he => (List.mem_filter.mp he).2⟩
  obtain ⟨ha, hp⟩ := h
  exact ⟨by rw [State.settle_vecActive]; exact ha, fun e he => by rw [State.settle_vecActive]; exact hp e he⟩

/-- Every command ends with EVT settled. -/
theorem exec_eq_done (c : Instr) (s : State) : ∃ u, exec c s = done u := by
  cases c <;> exact ⟨_, rfl⟩

/-- Time that passes changes no word and no domain, so EVT sees the same. -/
theorem State.tick_inv (s : State) (h : s.Inv) : s.tick.Inv := by
  have ht : s.tick = { s with cyc := s.tick.cyc } := by unfold State.tick; split <;> rfl
  have hv : s.tick.vecActive = s.vecActive := by rw [ht]; exact State.vecActive_congr rfl rfl
  have hm : s.tick.msix = s.msix := by rw [ht]
  simpa only [State.Inv, hv, hm] using h

/-- Settles O56: a command leaves a settled state, and an empty queue changes nothing that EVT looks at. -/
theorem stepKeepsTheInterruptInvariant : Obligations.StepKeepsTheInterruptInvariant := by
  unfold Obligations.StepKeepsTheInterruptInvariant
  intro s t hs h
  cases hq : s.pending with
  | nil =>
    obtain rfl : s.tick = t := by simpa [step, hq] using h
    exact s.tick_inv hs
  | cons c rest =>
    obtain ⟨u, hu⟩ := exec_eq_done c { s with pending := rest }
    obtain rfl : u.settle = t := by simpa [step, hq, hu, done] using h
    exact u.settle_inv

end Sys2Proof.Machine
end

section
/-! A refused access by master 0x03. The ring writes its bulk segments under this master (13_apsal_systems R397), and any response but
OK ends the segment and latches EVENT[12] of RING: RegisterWriteMerges lets a misaligned access change no word, whoever makes it. -/

namespace Sys2Proof.Machine

/-- Right after reset a misaligned word write by master 0x03 latches EVENT[12] of RING. -/
theorem misalignedWriteByRing_event :
    State.reset.w (evKey eRING) = 0 ∧ (effRegisterWrite 3 1 4 0 State.reset).w (evKey eRING) = 0x1000 := by decide +kernel

/-- Refutes O3, by its clause on misaligned accesses: made by master 0x03 after reset, such a write changes the EVENT register of RING. -/
theorem not_registerWriteMerges : ¬ Obligations.RegisterWriteMerges := by
  unfold Obligations.RegisterWriteMerges
  rintro ⟨-, -, -, -, -, -, -, hMisaligned, -⟩
  have hcomes : State.reset.comes (3 : Master).toNat (1 : Addr).toNat 4 = true := by decide +kernel
  have hx : exec (.registerWrite 3 1 4 0) State.reset = done (effRegisterWrite 3 1 4 0 State.reset) := rfl
  obtain ⟨-, hkeeps, -⟩ := (gives_done_iff hx).mp (hMisaligned State.reset 3 1 4 0 hcomes (by decide))
  have hsame := hkeeps (evKey eRING) List.not_mem_nil
  rw [State.settle_w, misalignedWriteByRing_event.1, misalignedWriteByRing_event.2] at hsame
  exact absurd hsame (by decide)

end Sys2Proof.Machine
end

section
/-! A low half under a pending press. Some pairs of the engine pages are SHADOW locations, whose writes a pending press refuses
(08_buses_and_outputs R260); PairAndBurstAccesses excludes such a pair where a high half commits, but not where a low half is held. -/

namespace Sys2Proof.Machine

/-- In RUN, with every domain on and a press pending. -/
def pressPendingState : State :=
  { State.reset with words := [(0x9C, 3), (0x1088, 0x3FFF), (0x1090, 1), (0x200C, 5), (0x800C, 1)] }

/-- There a write to the low half of the pair at 0x88 of engine 0 is answered TERR. -/
theorem pairLowWrite_pressPending :
    pressPendingState.pressPending = true ∧ (effPairLowWrite 0 0x90088 9 pressPendingState).bus = ⟨.terr, []⟩ := by decide +kernel

/-- Refutes O4, by its clause on the write of a low half: while a press is pending, a pair that is a SHADOW location refuses it. -/
theorem not_pairAndBurstAccesses : ¬ Obligations.PairAndBurstAccesses := by
  unfold Obligations.PairAndBurstAccesses
  rintro ⟨-, -, hLowWrite, -⟩
  have hsees : pressPendingState.sees (0 : Master).toNat (0x90088 : Addr).toNat true = true := by decide +kernel
  have hsrc : srcOf (0x90088 : Addr).toNat = some (eIE 0) := by decide +kernel
  have hpair : pressPendingState.pairLow (0x90088 : Addr).toNat = some (0x90088 : Addr).toNat := by decide +kernel
  have hopen : hidden (0 : Master).toNat (pressPendingState.locate (0 : Master).toNat (0x90088 : Addr).toNat) = 0 := by decide +kernel
  have hx : exec (.pairLowWrite 0 0x90088 9) pressPendingState = done (effPairLowWrite 0 0x90088 9 pressPendingState) := rfl
  obtain ⟨-, -, hbus, -⟩ := (gives_done_iff hx).mp (hLowWrite pressPendingState 0 0x90088 (eIE 0) 9 hsees hsrc hpair (by decide) hopen)
  rw [State.settle_bus, pairLowWrite_pressPending.2] at hbus
  exact absurd hbus (by decide)

end Sys2Proof.Machine
end

section
/-! A trigger past the end of a sheet. A trigger is recorded with the slot and the fabric cycle in which it is recognised (R64); where
that cycle lies past the end of the sheet, it is one of the next slot. Snapshots records the match in the slot and the cycle as the state
counts them. The statement is made of every state, and no premise keeps that count within the 76800 cycles of a sheet (03_timebase R82). -/

namespace Sys2Proof.Machine

/-- Armed for the HSI match alone, with the match at HSI 0 and the cycle count one past the last cycle of a sheet. -/
def matchAtSheetEnd : State :=
  { State.reset with
    words := [(0x1088, 0x3FFF), (0x1090, 1), (0x200C, 5), (0x6008, 2), (0x6080, 4)]
    matchArmed := true
    cyc := sheetCycles }

/-- There the match is recorded in cycle 0 of the slot after. -/
theorem hsiMatch_atSheetEnd : (effHsiMatch matchAtSheetEnd).snapQ = [⟨1, 6, 0, 4⟩] := by decide +kernel

/-- Refutes O7, by its clause on the HSI match outside the holdoff: at cycle 76800 the trigger is one of the next slot. -/
theorem not_snapshots : ¬ Obligations.Snapshots := by
  unfold Obligations.Snapshots
  rintro ⟨-, -, -, -, -, -, hMatch, -⟩
  have harmed : matchAtSheetEnd.is R.SNAP_C_ARMED = true := by decide +kernel
  have henabled : bitOf (matchAtSheetEnd.get R.SNAP_TRIG_EN_EN) 2 = true := by decide +kernel
  have hdue : matchAtSheetEnd.get64 0x6090 ≤ matchAtSheetEnd.hsiNow := by decide +kernel
  have hx : exec .hsiMatch matchAtSheetEnd = done (effHsiMatch matchAtSheetEnd) := rfl
  obtain ⟨hq, -⟩ := (gives_done_iff hx).mp (hMatch matchAtSheetEnd harmed henabled rfl rfl hdue)
  rw [State.settle_snapQ, hsiMatch_atSheetEnd] at hq
  exact absurd hq (by decide +kernel)

end Sys2Proof.Machine
end

section
/-! Register accesses that reach their register (02_register_pages R52): the fabric answers them at once, and the answer changes what the
requester finds and nothing else. -/

namespace Sys2Proof.Machine

/-- The state with another answer for its requester to find. -/
def State.withBus (s : State) (b : BusOut) : State := { s with bus := b }

/-! Requests that the fabric answers at once. -/

theorem State.waiting_of_idle {s : State} (h : s.fabricIdle = true) : s.waiting = [] := by
  obtain ⟨⟨hw, -⟩, -⟩ : (s.waiting = [] ∧ s.ring.rraHere = none) ∧ s.boot.rest = none := by simpa [State.fabricIdle] using h
  exact hw

theorem State.issue_of_request {s t : State} {r : MemReq} {x : Ans} (hw : s.waiting = []) (ht : targetOf r.addr = 0)
    (hn : r.width ≤ 64) (hr : s.request r = (some x, t)) : s.issue r = (some x, t) := by
  have hz : atBank0 r.addr r.width = false := atBank0_reg _ _ ht hn
  have hb : s.blocked r = false := by simp [State.blocked, State.writeWaits, hw]
  simp [State.issue, State.direct, s.arrive_reg _ _ ht, hb, hr, State.arbVisit, hz]

theorem State.ask_of_request {s t : State} {r : MemReq} {x : Ans} (hm : s.noRequest r.master = false) (hw : s.waiting = [])
    (ht : targetOf r.addr = 0) (hn : r.width ≤ 64) (hr : s.request r = (some x, t)) : s.ask r = (t.deliver r x).afterAccess := by
  simp only [State.ask, hm, State.issue_of_request hw ht hn hr, Bool.false_eq_true, if_false]

/-! Words written and read. -/

/-- The rules let the access through to its page. -/
theorem State.regCheck_of_sees {s : State} {m a : Nat} {w : Bool} (h : s.sees m a w = true) : s.regCheck m a 4 w = (none, s) := by
  obtain ⟨-, -, -, h4, src, hs, ha, hp⟩ := (s.sees_iff m a w).mp h
  simp [State.regCheck, h4, hs, ha, hp]

/-- A write is passed to the page, which answers it. -/
theorem State.request_put_of_sees {s : State} {m a src : Nat} {v : Word} (h : s.sees m a true = true) (hs : srcOf a = some src) :
    s.request (MemReq.put m a (leBytes 4 v.toNat)) = (some ((s.writeReg src m a v).1, []), (s.writeReg src m a v).2) := by
  obtain ⟨-, -, ht, -⟩ := (s.sees_iff m a true).mp h
  have hl : (leBytes 4 v.toNat).length = 4 := length_leBytes _ _
  simp [State.request, MemReq.put, ht, hl, w32_leBytes, State.reg32, State.regCheck_of_sees h, hs]

/-- A read is answered with the lanes of what the page reads. -/
theorem State.request_read_of_sees {s : State} {m a src : Nat} (h : s.sees m a false = true) (hs : srcOf a = some src) :
    s.request (MemReq.read m a 4) = (some (.ok, lanes (s.readReg src m a).1 a 4), (s.readReg src m a).2) := by
  obtain ⟨-, -, ht, h4, -⟩ := (s.sees_iff m a false).mp h
  have ha : a / 4 * 4 = a := by omega
  simp [State.request, MemReq.read, ht, State.reg32, State.regCheck_of_sees h, hs, ha]

/-- All four lanes of an aligned word. -/
theorem lanes_word (v : Word) {a : Nat} (h : a % 4 = 0) : lanes v a 4 = leBytes 4 v.toNat := by
  simp [lanes, leBytes, h]

/-- The answer OK with its data reaches its requester, or stays in RING where master 0x03 asked. -/
theorem State.deliver_read_ok (s : State) (m a n : Nat) (d : List Byte) :
    s.deliver (MemReq.read m a n) (.ok, d) = s.withBus (s.told m .ok d) := by
  by_cases hm : m = 3 <;> simp [State.deliver, MemReq.read, hm, State.told, State.answer, State.withBus]

/-- A register write that its page answers OK. -/
theorem State.regWrite_of_sees {s t : State} {m a src : Nat} {v : Word} (h : s.sees m a true = true) (hs : srcOf a = some src)
    (hw : s.writeReg src m a v = (.ok, t)) (hi : t.fabricIdle = true) : s.regWrite m a v = t.withBus (t.told m .ok []) := by
  obtain ⟨hn, hidle, ht, -⟩ := (s.sees_iff m a true).mp h
  have hr := State.request_put_of_sees (v := v) h hs
  rw [hw] at hr
  have hl : (leBytes 4 v.toNat).length ≤ 64 := by rw [length_leBytes]; omega
  rw [State.regWrite, State.ask_of_request (r := MemReq.put m a (leBytes 4 v.toNat)) hn (State.waiting_of_idle hidle) ht hl hr,
    State.deliver_put_ok]
  exact State.afterAccess_idle _ hi

/-- A register read, which is always answered OK. -/
theorem State.regRead_of_sees {s : State} {m a src : Nat} (h : s.sees m a false = true) (hs : srcOf a = some src)
    (hi : (s.readReg src m a).2.fabricIdle = true) :
    s.ask (MemReq.read m a 4) =
      (s.readReg src m a).2.withBus ((s.readReg src m a).2.told m .ok (leBytes 4 (s.readReg src m a).1.toNat)) := by
  obtain ⟨hn, hidle, ht, h4, -⟩ := (s.sees_iff m a false).mp h
  have hr := State.request_read_of_sees h hs
  rw [State.ask_of_request (r := MemReq.read m a 4) hn (State.waiting_of_idle hidle) ht (by decide : (4 : Nat) ≤ 64) hr,
    State.deliver_read_ok, lanes_word _ h4]
  exact State.afterAccess_idle _ hi

/-! What an access changes beside the words. -/

/-- From s to t no more has changed than an access to a register without a command changes: words, the answer, the copies of triplicated
bits and the frozen views. -/
def State.registersOnly (s t : State) : Prop :=
  t = { s.regsOf t with bus := t.bus, tmrA := t.tmrA, tmrB := t.tmrB, frozen := t.frozen }

theorem State.registersOnly_refl (s : State) : s.registersOnly s := rfl

theorem State.registersOnly_trans {s t u : State} (h : s.registersOnly t) (h' : t.registersOnly u) : s.registersOnly u := by
  unfold State.registersOnly at *
  rw [h']; rw [h]; rfl

theorem State.registersOnly_of_regs {s t : State} (h : t = s.regsOf t) : s.registersOnly t := by
  unfold State.registersOnly
  rw [h]; rfl

theorem State.registersOnly_setW (s : State) (k : Nat) (v : Word) : s.registersOnly (s.setW k v) := rfl
theorem State.registersOnly_settle (s : State) : s.registersOnly s.settle := State.registersOnly_of_regs s.regsOf_settle
theorem State.registersOnly_withBus (s : State) (b : BusOut) : s.registersOnly (s.withBus b) := rfl

theorem State.registersOnly_idle {s t : State} (h : s.registersOnly t) : t.fabricIdle = s.fabricIdle := by
  rw [h]; rfl

/-- Where no more than registers has changed, the answer adds itself alone. -/
theorem State.frame_withBus {s u : State} (h : u = s.regsOf u) (b : BusOut) :
    u.withBus b = { s.regsOf (u.withBus b) with bus := (u.withBus b).bus } := by
  rw [h]; rfl

/-- Where no more than registers has changed, the answer and the settling of EVT add the answer alone. -/
theorem State.frame_bus_settle {s u : State} (h : u = s.regsOf u) (b : BusOut) :
    (u.withBus b).settle = { s.regsOf (u.withBus b).settle with bus := (u.withBus b).settle.bus } := by
  rw [State.regsOf_settle (u.withBus b), h]; rfl

/-- Of the four the answer and the copies. -/
theorem State.frame_bus_tmr {s t : State} (h : s.registersOnly t) (hf : t.frozen = s.frozen) :
    t = { s.regsOf t with bus := t.bus, tmrA := t.tmrA, tmrB := t.tmrB } := by
  refine Eq.trans h ?_
  rw [hf]; rfl

/-- The copies alone. -/
theorem State.frame_tmr {s t : State} (h : s.registersOnly t) (hb : t.bus = s.bus) (hf : t.frozen = s.frozen) :
    t = { s.regsOf t with tmrA := t.tmrA, tmrB := t.tmrB } := by
  refine Eq.trans h ?_
  rw [hb, hf]; rfl

/-- The answer and the frozen views. -/
theorem State.frame_bus_frozen {s t : State} (h : s.registersOnly t) (ha : t.tmrA = s.tmrA) (hb : t.tmrB = s.tmrB) :
    t = { s.regsOf t with bus := t.bus, frozen := t.frozen } := by
  refine Eq.trans h ?_
  rw [ha, hb]; rfl

/-! What a write leaves in its word. -/

/-- The word at a key becomes v, unless it is v already. -/
def State.leave (s : State) (k : Nat) (v : Word) : State := if v = s.w k then s else s.setW k v

@[simp] theorem State.leave_w_same (s : State) (k : Nat) (v : Word) : (s.leave k v).w k = v := by
  unfold State.leave; split
  · exact Eq.symm ‹_›
  · exact s.setW_w_same k v

theorem State.keeps_leave (s : State) (k : Nat) (v : Word) : s.keeps (s.leave k v) [k] := by
  unfold State.leave; split
  · exact s.keeps_refl _
  · exact s.keeps_setW k v

theorem State.regsOf_leave (s : State) (k : Nat) (v : Word) : s.leave k v = s.regsOf (s.leave k v) := by
  unfold State.leave; split
  · rfl
  · rfl

@[simp] theorem State.leave_bus (s : State) (k : Nat) (v : Word) : (s.leave k v).bus = s.bus := by rw [s.regsOf_leave k v]; rfl
@[simp] theorem State.leave_msix (s : State) (k : Nat) (v : Word) : (s.leave k v).msix = s.msix := by unfold State.leave; split <;> rfl
@[simp] theorem State.leave_out (s : State) (k : Nat) (v : Word) : (s.leave k v).out = s.out := by unfold State.leave; split <;> rfl
@[simp] theorem State.leave_held (s : State) (k : Nat) (v : Word) : (s.leave k v).held = s.held := by rw [s.regsOf_leave k v]; rfl
@[simp] theorem State.leave_tmrA (s : State) (k : Nat) (v : Word) : (s.leave k v).tmrA = s.tmrA := by rw [s.regsOf_leave k v]; rfl
@[simp] theorem State.leave_tmrB (s : State) (k : Nat) (v : Word) : (s.leave k v).tmrB = s.tmrB := by rw [s.regsOf_leave k v]; rfl

theorem State.leave_of_eq {s : State} {k : Nat} {v : Word} (h : v = s.w k) : s.leave k v = s := if_pos h

/-- A write without guarded bits to a register that is not triplicated and that no block limits: what its rules leave of it, then its
hook. -/
theorem State.storeReg_of_locate {s : State} {m a : Nat} {l : Loc} (v : Word) (hl : s.locate m a = some l) (ht : l.spec.tmr = 0)
    (ha : ∀ old new, s.adjust a old new = new) :
    s.storeReg m a 0 v = (s.leave l.key (mergeWrite (s.majW l.key) v l.spec 0)).writeHook m a (s.majW l.key) v := by
  have hv : v &&& ~~~ w32 0 = v := BitVec.and_allOnes
  simp only [State.storeReg, hl, ht, if_true, ha, hv, State.leave]

/-! The header of a page (R44, R47). -/

theorem pageOfSrc_of_mem {src : Nat} (h : src ∈ allSources) : ∃ p, pageOfSrc src = some p := by
  have hp : ∀ x ∈ allSources, (pageOfSrc x).isSome = true := by decide +kernel
  exact Option.isSome_iff_exists.mp (hp src h)

/-- Every offset of its page belongs to a source. -/
theorem srcOf_page {src off : Nat} (h : src ∈ allSources) (ho : off < 0x1000) : srcOf (pageBase src + off) = some src := by
  have hp : ∀ x ∈ allSources, pageBase x < 2 ^ 24 ∧ srcOfSlot (pageBase x / 0x1000) = some x := by decide +kernel
  obtain ⟨hlt, hslot⟩ := hp src h
  have hmod := pageBase_mod src
  have hdiv : (pageBase src + off) / 0x1000 = pageBase src / 0x1000 := by omega
  rw [srcOf, if_pos (by omega), hdiv, hslot]

theorem page_mod {src off : Nat} (ho : off < 0x1000) : (pageBase src + off) % 0x1000 = off := by
  have := pageBase_mod src
  omega

/-- A register of the header lies at its own address. -/
theorem State.locate_header (s : State) (m : Nat) {src off : Nat} {p : Page} {r : RegSpec} {i : Nat} (h : src ∈ allSources)
    (hp : pageOfSrc src = some p) (ho : off < 0x80) (hr : regAt p.blk off = some (r, i)) :
    s.locate m (pageBase src + off) = some ⟨pageBase src + off, r⟩ := by
  have hs : srcOf (pageBase src + off) = some src := srcOf_page h (by omega)
  have hm : (pageBase src + off) % 0x1000 = off := page_mod (by omega)
  have hreg : regOf (pageBase src + off) = some (r, i) := by simp only [regOf, hs, hp, hm, hr]
  simp only [State.locate, hs, hm, hreg]
  rw [if_neg (by omega), if_neg (by omega), if_neg (by omega), if_neg (by omega), if_neg (by omega), if_neg (by omega)]

/-- Beyond CTRL the header has no hook but those of EVENT_SET and SNAP_CTRL. -/
theorem State.writeHook_header (s : State) (m : Nat) (old v : Word) {a src : Nat} (hs : srcOf a = some src) (ho : a % 0x1000 < 0x80)
    (h8 : a % 0x1000 ≠ 8) : s.writeHook m a old v = s.headerHook src (a % 0x1000) v.toNat := by
  simp only [State.writeHook, hs, Option.getD_some]
  exact if_pos ⟨ho, h8⟩

theorem State.registersOnly_headerHook (s : State) (src off v : Nat) : s.registersOnly (s.headerHook src off v) := by
  unfold State.headerHook; split
  · exact s.registersOnly_setW _ _
  · split
    · rfl
    · exact s.registersOnly_refl

/-- No block limits or refuses a write to the header. -/
theorem State.adjust_header (s : State) (old new : Word) {a : Nat} (ho : a % 0x1000 < 0x80) : s.adjust a old new = new := by
  simp only [State.adjust]
  rw [if_neg (by omega), if_neg (by omega), if_neg (by omega), if_neg (by omega)]

theorem State.blockRefuses_header (s : State) (v : Word) {a : Nat} (ho : a % 0x1000 < 0x80) : s.blockRefuses a 0 v = none := by
  simp only [State.blockRefuses]
  rw [if_neg (by omega), if_neg (by omega), if_neg (by omega)]

/-- A write to a register of the header but LOCK and CTRL that the rules let through. -/
theorem State.regWrite_header {s : State} {m src off : Nat} {p : Page} {r : RegSpec} {i : Nat} (v : Word) (h : src ∈ allSources)
    (hp : pageOfSrc src = some p) (ho : off < 0x80) (h8 : off ≠ 8) (hr : regAt p.blk off = some (r, i)) (ht : r.tmr = 0)
    (hk : s.takes m (pageBase src + off) = true) :
    s.regWrite m (pageBase src + off) v =
      ((s.leave (pageBase src + off) (mergeWrite (s.majW (pageBase src + off)) v r 0)).headerHook src off v.toNat).withBus
        (s.told m .ok []) := by
  have hm : (pageBase src + off) % 0x1000 = off := page_mod (by omega)
  have ho' : (pageBase src + off) % 0x1000 < 0x80 := by omega
  have hst : s.storeReg m (pageBase src + off) 0 v =
      (s.leave (pageBase src + off) (mergeWrite (s.majW (pageBase src + off)) v r 0)).headerHook src off v.toNat := by
    rw [State.storeReg_of_locate v (s.locate_header m h hp ho hr) ht fun old new => s.adjust_header old new ho',
      State.writeHook_header _ m _ v (srcOf_page h (by omega)) ho' (by omega), hm]
  have hf : s.registersOnly (s.storeReg m (pageBase src + off) 0 v) :=
    hst ▸ State.registersOnly_trans (State.registersOnly_of_regs (s.regsOf_leave _ _)) (State.registersOnly_headerHook _ _ _ _)
  obtain ⟨-, hidle, -⟩ := (s.sees_iff m _ true).mp ((s.takes_iff m _).mp hk).1
  have hb : (s.storeReg m (pageBase src + off) 0 v).bus = s.bus := by
    rw [hst]; unfold State.headerHook State.leave; repeat' split
    all_goals rfl
  rw [s.regWrite_ok m _ v hk (s.blockRefuses_header v ho') ((State.registersOnly_idle hf).trans hidle), State.told, hb, hst]
  rfl

end Sys2Proof.Machine
end

section
/-! The header's registers and the triplicated ones (02_register_pages R47, R49, R58, R64). -/

namespace Sys2Proof.Machine

/-! Writes to EVENT, EVENT_SET, LOCK and SNAP_CTRL. -/

theorem pageAddr_eq {page src : Nat} (h : pageBase src = page * 0x1000) (off : Nat) : pageAddr page off = pageBase src + off := by
  rw [pageAddr, h]

/-- Where bits clear by ones alone, a write clears those that it holds. -/
theorem mergeWrite_w1c (old v : Word) (off w1c wo reset cfg : Nat) :
    mergeWrite old v (hdrSpec off 0 w1c wo reset cfg) 0 = old &&& ~~~ (v &&& w32 w1c) := by
  have h1 : ~~~ w32 0 = BitVec.allOnes 32 := rfl
  simp only [mergeWrite, hdrSpec, Nat.zero_or, h1, BitVec.and_allOnes]
  simp [w32]

theorem regAt_event (b : Blk) : regAt b 0x10 = some (hdrSpec 0x10 0 (eventMask b) 0 0 0, 0) := rfl
theorem regAt_eventSet (b : Blk) : regAt b 0x18 = some (hdrSpec 0x18 0 0 (eventMask b) 0 0, 0) := rfl
theorem regAt_snapCtrl (b : Blk) : regAt b 0x20 = some (hdrSpec 0x20 3 0 4 1 3, 0) := rfl

theorem evBits_of_page {src : Nat} {p : Page} (hp : pageOfSrc src = some p) : evBits src = eventMask p.blk := by
  simp only [evBits, hp]

/-- Two equal copies are the majority. -/
theorem maj_self (a b : Word) : maj a a b = a := by
  ext i hi
  simp only [maj, BitVec.getElem_or, BitVec.getElem_and]
  cases a[i] <;> simp

/-- Without a difference in copy 1 the majority is copy 0. -/
theorem State.majW_of_tmrA {s : State} {k : Nat} (h : tget zeroAt s.tmrA k = 0) : s.majW k = s.w k := by
  have hx : s.w k ^^^ (0 : Word) = s.w k := BitVec.xor_zero
  rw [State.majW, h, hx, maj_self]

theorem State.headerHook_event (s : State) (src v : Nat) : s.headerHook src 0x10 v = s := by simp [State.headerHook]

theorem State.headerHook_eventSet (s : State) (src v : Nat) :
    s.headerHook src 0x18 v = s.setW (evKey src) (w32 (s.n (evKey src) ||| (v &&& evBits src))) := by simp [State.headerHook]

theorem State.headerHook_thaw (s : State) {src v : Nat} (h : bitOf v 2 = true) : s.headerHook src 0x20 v = s.thaw src := by
  simp [State.headerHook, h]

theorem w32_or (a b : Nat) : w32 (a ||| b) = w32 a ||| w32 b := BitVec.ofNat_or
theorem w32_and (a b : Nat) : w32 (a &&& b) = w32 a &&& w32 b := BitVec.ofNat_and
theorem w32_toNat_self (v : Word) : w32 v.toNat = v := by simp [w32]

/-- A write to EVENT clears the bits of the page that it holds (R47). -/
theorem gives_eventClear {s : State} {m : Master} {page : Fin 4096} {src : Nat} (mask same : Word) (h : src ∈ allSources)
    (hb : pageBase src = page.val * 0x1000) (hk : s.takes m.toNat (evKey src) = true) (hA : tget zeroAt s.tmrA (evKey src) = 0) :
    Gives (.eventClear m page mask same) s fun t =>
      t.w (evKey src) = s.w (evKey src) &&& ~~~ (mask &&& ~~~ same &&& w32 (evBits src)) ∧ t.bus = s.told m.toNat .ok [] ∧
      s.keeps t [evKey src] ∧ t = { s.regsOf t with bus := t.bus } := by
  obtain ⟨p, hp⟩ := pageOfSrc_of_mem h
  have hx : exec (.eventClear m page mask same) s =
      done ((s.leave (evKey src) (s.w (evKey src) &&& ~~~ (mask &&& ~~~ same &&& w32 (evBits src)))).withBus
        (s.told m.toNat .ok [])) := by
    show done (s.regWrite m.toNat (pageAddr page.val 0x10) (mask &&& ~~~ same)) = _
    rw [pageAddr_eq hb, State.regWrite_header _ h hp (by decide) (by decide) (regAt_event p.blk) rfl hk, State.headerHook_event,
      mergeWrite_w1c, ← evBits_of_page hp, show pageBase src + 0x10 = evKey src from rfl, State.majW_of_tmrA hA]
  refine gives_done hx ⟨?_, ?_, ?_, State.frame_bus_settle (s.regsOf_leave _ _) _⟩
  · rw [State.settle_w]; exact s.leave_w_same _ _
  · exact State.settle_bus _
  · exact State.keeps_settle (s.keeps_leave _ _)

/-- A write to EVENT_SET sets the bits of the page that it holds (R47). -/
theorem gives_eventSet {s : State} {m : Master} {page : Fin 4096} {src : Nat} (mask : Word) (h : src ∈ allSources)
    (hb : pageBase src = page.val * 0x1000) (hk : s.takes m.toNat (pageBase src + 0x18) = true)
    (hmaj : s.majW (pageBase src + 0x18) = s.w (pageBase src + 0x18)) :
    Gives (.eventSet m page mask) s fun t =>
      t.w (evKey src) = s.w (evKey src) ||| (mask &&& w32 (evBits src)) ∧ t.bus = s.told m.toNat .ok [] ∧
      s.keeps t [evKey src] ∧ t = { s.regsOf t with bus := t.bus } := by
  obtain ⟨p, hp⟩ := pageOfSrc_of_mem h
  have hold : mergeWrite (s.w (pageBase src + 0x18)) mask (hdrSpec 0x18 0 0 (eventMask p.blk) 0 0) 0 = s.w (pageBase src + 0x18) := by
    rw [mergeWrite_w1c, show mask &&& w32 0 = 0 from BitVec.and_zero]
    exact BitVec.and_allOnes
  have hval : w32 (s.n (evKey src) ||| (mask.toNat &&& evBits src)) = s.w (evKey src) ||| (mask &&& w32 (evBits src)) := by
    rw [w32_or, w32_and, State.n, w32_toNat_self, w32_toNat_self]
  have hx : exec (.eventSet m page mask) s =
      done ((s.setW (evKey src) (s.w (evKey src) ||| (mask &&& w32 (evBits src)))).withBus (s.told m.toNat .ok [])) := by
    show done (s.regWrite m.toNat (pageAddr page.val 0x18) mask) = _
    rw [pageAddr_eq hb, State.regWrite_header _ h hp (by decide) (by decide) (regAt_eventSet p.blk) rfl hk, hmaj, hold,
      State.leave_of_eq rfl, State.headerHook_eventSet, hval]
  refine gives_done hx ⟨?_, ?_, ?_, State.frame_bus_settle (s.regsOf_setW _ _) _⟩
  · rw [State.settle_w]; exact s.setW_w_same _ _
  · exact State.settle_bus _
  · exact State.keeps_settle (s.keeps_setW _ _)

/-- The key that is written to LOCK sets all three copies of the lock bit. -/
def State.setLock (s : State) (src : Nat) : State :=
  State.setW { s with
    tmrA := tset zeroAt s.tmrA (pageBase src + 0x1C) 0
    tmrB := tset zeroAt s.tmrB (pageBase src + 0x1C) 0 } (pageBase src + 0x1C) 1

theorem State.locked_setLock (s : State) (src : Nat) : (s.setLock src).locked src = true := by
  have hA : tget zeroAt (s.setLock src).tmrA (pageBase src + 0x1C) = 0 := tget_tset_same zeroAt s.tmrA _ 0
  have hw : (s.setLock src).w (pageBase src + 0x1C) = 1 := State.setW_w_same _ _ _
  rw [State.locked, State.majW_of_tmrA hA, hw]; rfl

theorem State.locked_congr {s t : State} {src : Nat} (hw : t.words = s.words) (hA : t.tmrA = s.tmrA) (hB : t.tmrB = s.tmrB) :
    t.locked src = s.locked src := by
  have hm : t.majW = s.majW := by funext k; simp only [State.majW, State.w_congr s t hw, hA, hB]
  rw [State.locked, hm, State.locked]

/-- The key locks a page that is not locked (R49). -/
theorem gives_lockWrite {s : State} {m : Master} {page : Fin 4096} {src : Nat} (h : src ∈ allSources)
    (hb : pageBase src = page.val * 0x1000) (hk : s.sees m.toNat (pageBase src + 0x1C) true = true) (hl : s.locked src = false) :
    Gives (.lockWrite m page 0x4C4F434B) s fun t =>
      t.locked src = true ∧ t.bus = s.told m.toNat .ok [] ∧ s.keeps t [pageBase src + 0x1C] ∧
      t = { s.regsOf t with bus := t.bus, tmrA := t.tmrA, tmrB := t.tmrB } := by
  have hw : s.writeReg src m.toNat (pageBase src + 0x1C) 0x4C4F434B = (.ok, s.setLock src) := by
    rw [State.writeReg, if_pos (page_mod (by decide))]
    simp only [State.writeLock, hl, Bool.false_eq_true, if_false, if_true, State.setLock]
  obtain ⟨-, hidle, -⟩ := (s.sees_iff m.toNat _ true).mp hk
  have hx : exec (.lockWrite m page 0x4C4F434B) s = done ((s.setLock src).withBus (s.told m.toNat .ok [])) := by
    show done (s.regWrite m.toNat (pageAddr page.val 0x1C) 0x4C4F434B) = _
    rw [pageAddr_eq hb, State.regWrite_of_sees hk (srcOf_page h (by decide)) hw hidle]; rfl
  have hf : s.registersOnly ((s.setLock src).withBus (s.told m.toNat .ok [])).settle :=
    State.registersOnly_trans (t := (s.setLock src).withBus _) rfl (State.registersOnly_settle _)
  refine gives_done hx ⟨?_, ?_, ?_, State.frame_bus_tmr hf (State.settle_frozen _)⟩
  · rw [State.locked_congr (State.settle_words _) (State.settle_tmrA _) (State.settle_tmrB _)]
    exact s.locked_setLock src
  · exact State.settle_bus _
  · exact State.keeps_settle (State.keeps_setW _ _ _)

theorem bitOf_and_not_8 (v : Word) : bitOf (v &&& ~~~ w32 8).toNat 3 = false := by
  show (v &&& ~~~ w32 8).getLsbD 3 = false
  simp [w32]

theorem State.isFrozen_thaw (s : State) (src : Nat) : (s.thaw src).isFrozen src = false := by
  have hw : (s.thaw src).w (pageBase src + 0x20) = s.w (pageBase src + 0x20) &&& ~~~ w32 8 := State.setW_w_same _ _ _
  rw [State.isFrozen, State.n, hw]
  exact bitOf_and_not_8 _

theorem State.keeps_thaw (s : State) (src : Nat) : s.keeps (s.thaw src) [pageBase src + 0x20] := s.keeps_setW _ _

/-- What a write of v leaves in SNAP_CTRL, before its THAW acts. -/
def State.snapCtrlStored (s : State) (src : Nat) (v : Word) : State :=
  s.leave (pageBase src + 0x20) (mergeWrite (s.majW (pageBase src + 0x20)) v (hdrSpec 0x20 3 0 4 1 3) 0)

/-- THAW in SNAP_CTRL returns the page's counter view to live values (R64). -/
theorem gives_snapThaw {s : State} {m : Master} {page : Fin 4096} {src : Nat} (v : Word) (h : src ∈ allSources)
    (hb : pageBase src = page.val * 0x1000) (hk : s.takes m.toNat (pageBase src + 0x20) = true) (hv : bitOf v.toNat 2 = true) :
    Gives (.snapThaw m page v) s fun t =>
      t.isFrozen src = false ∧ (t.frozen.all fun e => keySrc e.1 != src) ∧ t.bus = s.told m.toNat .ok [] ∧
      s.keeps t [pageBase src + 0x20] ∧ t = { s.regsOf t with bus := t.bus, frozen := t.frozen } := by
  obtain ⟨p, hp⟩ := pageOfSrc_of_mem h
  have hx : exec (.snapThaw m page v) s = done (((s.snapCtrlStored src v).thaw src).withBus (s.told m.toNat .ok [])) := by
    show done (s.regWrite m.toNat (pageAddr page.val 0x20) v) = _
    rw [pageAddr_eq hb, State.regWrite_header v h hp (by decide) (by decide) (regAt_snapCtrl p.blk) rfl hk, State.headerHook_thaw _ hv]
    rfl
  have hkeeps : s.keeps (s.snapCtrlStored src v) [pageBase src + 0x20] := s.keeps_leave _ _
  have hA : (s.snapCtrlStored src v).tmrA = s.tmrA := s.leave_tmrA _ _
  have hB : (s.snapCtrlStored src v).tmrB = s.tmrB := s.leave_tmrB _ _
  have hw : s.registersOnly (s.snapCtrlStored src v) := State.registersOnly_of_regs (s.regsOf_leave _ _)
  generalize s.snapCtrlStored src v = w at *
  have hu : w.registersOnly ((w.thaw src).withBus (s.told m.toNat .ok [])) := rfl
  have hf : s.registersOnly ((w.thaw src).withBus (s.told m.toNat .ok [])).settle :=
    State.registersOnly_trans (State.registersOnly_trans hw hu) (State.registersOnly_settle _)
  refine gives_done hx ⟨?_, ?_, ?_, ?_, State.frame_bus_frozen hf ((State.settle_tmrA _).trans hA) ((State.settle_tmrB _).trans hB)⟩
  · rw [State.isFrozen, State.settle_n]; exact w.isFrozen_thaw src
  · rw [State.settle_frozen, List.all_eq_true]
    exact fun e he => (List.mem_filter.mp he).2
  · exact State.settle_bus _
  · exact State.keeps_settle (State.keeps_mono (State.keeps_trans hkeeps (w.keeps_thaw src)) (by simp))

/-! Triplicated words (R58). -/

/-- With no EVENT bit selected as trigger 3, occurrences of a cause only latch its bit (R47, R63). -/
theorem State.latchN_quiet {s : State} (src bit : Nat) {n : Nat} (hn : n ≠ 0) (h : s.quiet = true) :
    s.latchN src bit n = s.setW (evKey src) (w32 (s.n (evKey src) ||| 2 ^ bit)) := by
  have ht : (s.orW (evKey src) (2 ^ bit)).get R.SNAP_TRIG_EN_EN = s.get R.SNAP_TRIG_EN_EN :=
    s.setW_get_other _ _ _ (evKey_ne src R.SNAP_TRIG_EN_EN.addr (by decide))
  have hq : bitOf (s.get R.SNAP_TRIG_EN_EN) 3 = false := by simpa [State.quiet] using h
  rw [State.latchN, if_neg hn, State.latches]
  split
  · rw [State.recogniseN, ht, hq]; rfl
  · rfl

/-- The copies of a word take their majority, before the correction is counted. -/
def State.copiesFixed (s : State) (k : Nat) : State :=
  State.setW { s with tmrA := tset zeroAt s.tmrA k 0, tmrB := tset zeroAt s.tmrB k 0 } k (s.majW k)

/-- The correction is counted and shows where it was made, before its event is latched. -/
def State.fixCounted (s : State) (src off n : Nat) : State :=
  ((s.addS R.SYS_TMR_FIX_CNT_COUNT n).put R.SYS_TMR_FIX_LAST_SOURCE src).put R.SYS_TMR_FIX_LAST_OFFSET off

/-- The fields of the word at k under a mask whose copies disagree. -/
def State.fieldsOff (s : State) (k mask : Nat) : Nat := fieldsHit mask (tget zeroAt s.tmrA k ||| tget zeroAt s.tmrB k).toNat

theorem State.tmrFix_disagree {s : State} (src off : Nat) {k mask : Nat} (h : s.fieldsOff k mask ≠ 0) :
    s.tmrFix src off k mask = ((s.copiesFixed k).fixCounted src off (s.fieldsOff k mask)).latchN src 30 (s.fieldsOff k mask) :=
  if_neg h

theorem State.keeps_fixCounted (s : State) (src off n : Nat) :
    s.keeps (s.fixCounted src off n) [R.SYS_TMR_FIX_CNT_COUNT.addr, R.SYS_TMR_FIX_LAST_SOURCE.addr] :=
  State.keeps_mono (State.keeps_trans (State.keeps_trans (s.keeps_put _ _) (State.keeps_put _ _ _)) (State.keeps_put _ _ _)) (by decide)

/-- What a correction of the word at l by n fields on the page of src leaves, as R58 states it: s is the state before. -/
structure State.Corrected (s t : State) (src off : Nat) (l : Loc) : Prop where
  word : t.w l.key = s.majW l.key
  copyA : tget zeroAt t.tmrA l.key = 0
  copyB : tget zeroAt t.tmrB l.key = 0
  count : t.get R.SYS_TMR_FIX_CNT_COUNT = min (s.get R.SYS_TMR_FIX_CNT_COUNT + s.fieldsOff l.key l.spec.tmr) (2 ^ 32 - 1)
  source : t.get R.SYS_TMR_FIX_LAST_SOURCE = src % 128
  offset : t.get R.SYS_TMR_FIX_LAST_OFFSET = off % 0x1000
  event : t.hasEvent src 30 = true
  keeps : s.keeps t [l.key, R.SYS_TMR_FIX_CNT_COUNT.addr, R.SYS_TMR_FIX_LAST_SOURCE.addr, evKey src]

/-- It is a matter of the words and the copies alone. -/
theorem State.Corrected.congr {s t u : State} {src off : Nat} {l : Loc} (h : s.Corrected t src off l) (hw : u.words = t.words)
    (hA : u.tmrA = t.tmrA) (hB : u.tmrB = t.tmrB) : s.Corrected u src off l where
  word := (State.w_congr t u hw _).trans h.word
  copyA := hA ▸ h.copyA
  copyB := hB ▸ h.copyB
  count := (State.get_congr t u hw _).trans h.count
  source := (State.get_congr t u hw _).trans h.source
  offset := (State.get_congr t u hw _).trans h.offset
  event := by rw [State.hasEvent, State.n_congr t u hw]; exact h.event
  keeps := fun k hk => (State.w_congr t u hw k).trans (h.keeps k hk)

/-- A word whose copies disagree, and which is none of those in which the correction is recorded. -/
structure State.Fixable (s : State) (src : Nat) (l : Loc) : Prop where
  disagrees : s.disagrees l = true
  quiet : s.quiet = true
  notCount : l.key ≠ R.SYS_TMR_FIX_CNT_COUNT.addr
  notLast : l.key ≠ R.SYS_TMR_FIX_LAST_SOURCE.addr
  notEvent : l.key ≠ evKey src
  notTrigger : l.key ≠ R.SNAP_TRIG_EN_EN.addr

theorem State.Fixable.fieldsOff_ne {s : State} {src : Nat} {l : Loc} (h : s.Fixable src l) : s.fieldsOff l.key l.spec.tmr ≠ 0 := by
  simpa [State.disagrees, State.fieldsOff] using h.disagrees

/-- The correction of a word that is none of those in which it is recorded. -/
theorem State.Fixable.tmrFix_eq {s : State} {src : Nat} {l : Loc} (h : s.Fixable src l) (off : Nat) :
    s.tmrFix src off l.key l.spec.tmr =
      let u := (s.copiesFixed l.key).fixCounted src off (s.fieldsOff l.key l.spec.tmr)
      u.setW (evKey src) (w32 (u.n (evKey src) ||| 2 ^ 30)) := by
  have hk : s.keeps ((s.copiesFixed l.key).fixCounted src off (s.fieldsOff l.key l.spec.tmr))
      [l.key, R.SYS_TMR_FIX_CNT_COUNT.addr, R.SYS_TMR_FIX_LAST_SOURCE.addr] :=
    State.keeps_trans (State.keeps_setW _ _ _) (State.keeps_fixCounted _ _ _ _)
  have hq := State.quiet_congr (hk 0x6080 (by
    simpa [R.SYS_TMR_FIX_CNT_COUNT, R.SYS_TMR_FIX_LAST_SOURCE, R.SNAP_TRIG_EN_EN] using h.notTrigger.symm))
  rw [State.tmrFix_disagree src off h.fieldsOff_ne, State.latchN_quiet src 30 h.fieldsOff_ne (hq.trans h.quiet)]

/-- What the record of a correction reads. -/
theorem State.fixCounted_count (s : State) (src off n : Nat) :
    (s.fixCounted src off n).get R.SYS_TMR_FIX_CNT_COUNT = min (s.get R.SYS_TMR_FIX_CNT_COUNT + n) (2 ^ 32 - 1) := by
  rw [State.fixCounted, State.get_put_other _ _ _ _ (by decide) (by decide), State.get_put_other _ _ _ _ (by decide) (by decide),
    State.get_addS _ _ _ (by decide) (by decide)]
  rfl

theorem State.fixCounted_source (s : State) (src off n : Nat) :
    (s.fixCounted src off n).get R.SYS_TMR_FIX_LAST_SOURCE = src % 128 := by
  rw [State.fixCounted, State.get_put_other _ _ _ _ (by decide) (by decide), State.get_put_same _ _ _ (by decide) (by decide)]
  rfl

theorem State.fixCounted_offset (s : State) (src off n : Nat) :
    (s.fixCounted src off n).get R.SYS_TMR_FIX_LAST_OFFSET = off % 0x1000 := by
  rw [State.fixCounted, State.get_put_same _ _ _ (by decide) (by decide)]
  rfl

theorem State.Fixable.corrected {s : State} {src : Nat} {l : Loc} (h : s.Fixable src l) (off : Nat) :
    s.Corrected (s.tmrFix src off l.key l.spec.tmr) src off l := by
  have hc : s.keeps (s.copiesFixed l.key) [l.key] := State.keeps_setW _ _ _
  have hf := (s.copiesFixed l.key).keeps_fixCounted src off (s.fieldsOff l.key l.spec.tmr)
  rw [h.tmrFix_eq off]
  generalize hu : (s.copiesFixed l.key).fixCounted src off (s.fieldsOff l.key l.spec.tmr) = u at hf ⊢
  have hother : ∀ f : Fld, f.addr % 0x1000 ≠ 0x10 →
      (u.setW (evKey src) (w32 (u.n (evKey src) ||| 2 ^ 30))).get f = u.get f :=
    fun f hm => State.setW_get_other _ _ _ f (evKey_ne src f.addr hm)
  constructor
  case word =>
    have hw : (s.copiesFixed l.key).w l.key = s.majW l.key := State.setW_w_same _ _ _
    rw [State.setW_w_other _ _ _ _ h.notEvent, hf _ (by simp [h.notCount, h.notLast]), hw]
  case copyA => rw [← hu]; exact tget_tset_same zeroAt s.tmrA l.key 0
  case copyB => rw [← hu]; exact tget_tset_same zeroAt s.tmrB l.key 0
  case count =>
    have hs : (s.copiesFixed l.key).get R.SYS_TMR_FIX_CNT_COUNT = s.get R.SYS_TMR_FIX_CNT_COUNT :=
      State.keeps_get hc _ (by simpa using h.notCount.symm)
    rw [hother _ (by decide), ← hu, State.fixCounted_count, hs]
  case source => rw [hother _ (by decide), ← hu, State.fixCounted_source]
  case offset => rw [hother _ (by decide), ← hu, State.fixCounted_offset]
  case event => exact u.hasEvent_orW src 30 (by decide)
  case keeps => exact State.keeps_trans (State.keeps_trans hc hf) (State.keeps_setW _ _ _)

/-- Beside the words a correction changes the copies alone. -/
theorem State.Fixable.regs {s : State} {src : Nat} {l : Loc} (h : s.Fixable src l) (off : Nat) :
    s.tmrFix src off l.key l.spec.tmr =
      State.regsOf { s with tmrA := tset zeroAt s.tmrA l.key 0, tmrB := tset zeroAt s.tmrB l.key 0 }
        (s.tmrFix src off l.key l.spec.tmr) := by
  rw [h.tmrFix_eq off]
  exact State.regsOf_trans (State.regsOf_setW _ _ _) (State.regsOf_trans (State.regsOf_trans (State.regsOf_trans (State.regsOf_put _ _ _)
    (State.regsOf_put _ _ _)) (State.regsOf_put _ _ _)) (State.regsOf_setW _ _ _))

theorem State.Fixable.registersOnly {s : State} {src : Nat} {l : Loc} (h : s.Fixable src l) (off : Nat) :
    s.registersOnly (s.tmrFix src off l.key l.spec.tmr) :=
  State.registersOnly_trans (t := { s with tmrA := tset zeroAt s.tmrA l.key 0, tmrB := tset zeroAt s.tmrB l.key 0 }) rfl
    (State.registersOnly_of_regs (h.regs off))

theorem State.Fixable.frozen {s : State} {src : Nat} {l : Loc} (h : s.Fixable src l) (off : Nat) :
    (s.tmrFix src off l.key l.spec.tmr).frozen = s.frozen := by rw [h.regs off]; rfl

theorem State.Fixable.bus {s : State} {src : Nat} {l : Loc} (h : s.Fixable src l) (off : Nat) :
    (s.tmrFix src off l.key l.spec.tmr).bus = s.bus := by rw [h.regs off]; rfl

/-- The background walk corrects the word of a register (R58). -/
theorem State.tmrVisit_reg {s : State} {a src : Nat} {l : Loc} (hs : srcOf a = some src) (hp : s.pageOn src = true)
    (hl : s.locate 0 a = some l) (ho : 0x80 ≤ a % 0x1000) : s.tmrVisit a = s.tmrFix src (a % 0x1000) l.key l.spec.tmr := by
  have ha : a < 2 ^ 24 := by
    by_contra h
    rw [srcOf, if_neg h] at hs
    exact absurd hs (by simp)
  rw [State.tmrVisit, if_neg (by omega)]
  simp only [hs, hp, hl, Bool.not_true, Bool.false_eq_true, if_false]
  exact if_neg (by omega)

theorem gives_tmrWalk {s : State} {a : Addr} {src : Nat} {l : Loc} (hs : srcOf a.toNat = some src) (hp : s.pageOn src = true)
    (hl : s.locate 0 a.toNat = some l) (ho : 0x80 ≤ a.toNat % 0x1000) (h : s.Fixable src l) :
    Gives (.tmrWalk a) s fun t =>
      s.Corrected t src (a.toNat % 0x1000) l ∧ t = { s.regsOf t with tmrA := t.tmrA, tmrB := t.tmrB } := by
  have hx : exec (.tmrWalk a) s = done (s.tmrFix src (a.toNat % 0x1000) l.key l.spec.tmr) := by
    show done (s.tmrVisit a.toNat) = _
    rw [State.tmrVisit_reg hs hp hl ho]
  refine gives_done hx ⟨?_, ?_⟩
  · exact (h.corrected _).congr (State.settle_words _) (State.settle_tmrA _) (State.settle_tmrB _)
  · exact State.frame_tmr (State.registersOnly_trans (h.registersOnly _) (State.registersOnly_settle _))
      ((State.settle_bus _).trans (h.bus _)) ((State.settle_frozen _).trans (h.frozen _))

/-! Reads of triplicated registers. -/

/-- The row of the page map that a page comes from. -/
theorem row_of_pageOfSrc {src : Nat} {p : Page} (h : pageOfSrc src = some p) :
    ∃ row ∈ pageRows, row.1 ≤ src ∧ src < row.1 + row.2.1 ∧ p.blk = row.2.2.1 := by
  unfold pageOfSrc at h
  split at h
  · rename_i s0 n blk typ inst base caps hf
    have hrow := List.find?_some hf
    simp only [Bool.and_eq_true, decide_eq_true_eq] at hrow
    obtain rfl := Option.some.inj h
    exact ⟨_, List.mem_of_find?_eq_some hf, hrow.1, hrow.2, rfl⟩
  · exact absurd h (by simp)

/-- Beyond the header, a register is one of the block's own. -/
theorem mem_of_regAt {b : Blk} {off : Nat} {r : RegSpec} {i : Nat} (ho : 0x80 ≤ off) (h : regAt b off = some (r, i)) :
    r ∈ blkRegs b := by
  unfold regAt at h
  rw [if_neg (by omega), if_neg (by omega), if_neg (by omega), if_neg (by omega), if_neg (by omega), regIn] at h
  split at h
  · obtain ⟨rfl, -⟩ : _ = r ∧ _ = i := by simpa using h
    exact List.mem_of_find?_eq_some ‹_›
  · exact absurd h (by simp)

/-- A register that an address names is one of its page's kind. -/
theorem mem_of_regOf {a src : Nat} {r : RegSpec} {i : Nat} (hs : srcOf a = some src) (ho : 0x80 ≤ a % 0x1000)
    (hr : regOf a = some (r, i)) : ∃ row ∈ pageRows, row.1 ≤ src ∧ src < row.1 + row.2.1 ∧ r ∈ blkRegs row.2.2.1 := by
  rw [regOf, hs] at hr
  cases hp : pageOfSrc src with
  | none => simp [hp] at hr
  | some p =>
    simp only [hp] at hr
    obtain ⟨row, hrow, hlo, hhi, hblk⟩ := row_of_pageOfSrc hp
    exact ⟨row, hrow, hlo, hhi, hblk ▸ mem_of_regAt ho hr⟩

/-- A location is triplicated only as its register is. -/
theorem State.tmr_of_locate {s : State} {m a : Nat} {l : Loc} (hl : s.locate m a = some l) (ht : l.spec.tmr ≠ 0) :
    ∃ r i, regOf a = some (r, i) ∧ r.tmr ≠ 0 := by
  unfold State.locate at hl
  split at hl
  · exact absurd hl (by simp)
  · simp only at hl
    split at hl
    · obtain rfl := Option.some.inj hl; exact absurd rfl ht
    · split at hl
      · obtain rfl := Option.some.inj hl; exact absurd rfl ht
      · cases hr : regOf a with
        | none => simp [hr] at hl
        | some q =>
          obtain ⟨r, i⟩ := q
          refine ⟨r, i, rfl, ?_⟩
          simp only [hr] at hl
          repeat' split at hl
          all_goals obtain rfl := Option.some.inj hl
          all_goals exact fun h0 => ht (by simp [h0])

/-- The pages with triplicated registers of their own: SYS, TIME, FAB, DPHY and RED. -/
theorem src_of_tmr {a src : Nat} {r : RegSpec} {i : Nat} (hs : srcOf a = some src) (ho : 0x80 ≤ a % 0x1000)
    (hr : regOf a = some (r, i)) (ht : r.tmr ≠ 0) : src ∈ [0, 3, 50, 56, 59] := by
  have hrows : ∀ row ∈ pageRows, (∃ x ∈ blkRegs row.2.2.1, x.tmr ≠ 0) → row.2.1 = 1 ∧ row.1 ∈ [0, 3, 50, 56, 59] := by decide +kernel
  obtain ⟨row, hrow, hlo, hhi, hmem⟩ := mem_of_regOf hs ho hr
  obtain ⟨hone, hin⟩ := hrows row hrow ⟨r, hmem, ht⟩
  have : src = row.1 := by omega
  rwa [this]

/-- Where a triplicated register lies, no value is computed at the read. -/
theorem State.computed_of_tmr {s : State} {m a src : Nat} {l : Loc} (hs : srcOf a = some src) (ho : 0x80 ≤ a % 0x1000)
    (hl : s.locate m a = some l) (ht : l.spec.tmr ≠ 0) (t : State) (m' off : Nat) : t.computed m' src off = none := by
  obtain ⟨r, i, hr, hrt⟩ := State.tmr_of_locate hl ht
  have hsrc := src_of_tmr hs ho hr hrt
  simp only [List.mem_cons, List.not_mem_nil, or_false] at hsrc
  rcases hsrc with rfl | rfl | rfl | rfl | rfl <;> rfl

/-- The source of an address has a page. -/
theorem pageOfSrc_of_srcOf {a src : Nat} (h : srcOf a = some src) : ∃ p, pageOfSrc src = some p := by
  have hbase : ∀ row ∈ pageRows, row.2.2.2.2.2.1 % 0x1000 = 0 := by decide
  unfold srcOf at h
  split at h
  · unfold srcOfSlot at h
    split at h
    · rename_i s0 n blk typ inst base caps hf
      have hmem := List.mem_of_find?_eq_some hf
      have hrow := List.find?_some hf
      have hmod := hbase _ hmem
      simp only [Bool.and_eq_true, decide_eq_true_eq] at hrow hmod
      obtain rfl := Option.some.inj h
      have hsome : (pageRows.find? fun r => decide (r.1 ≤ s0 + (a / 0x1000 - base / 0x1000)) &&
          decide (s0 + (a / 0x1000 - base / 0x1000) < r.1 + r.2.1)).isSome = true := by
        rw [List.find?_isSome]
        refine ⟨_, hmem, ?_⟩
        simp only [Bool.and_eq_true, decide_eq_true_eq]
        omega
      obtain ⟨r, hr⟩ := Option.isSome_iff_exists.mp hsome
      exact ⟨_, by simp only [pageOfSrc, hr]; rfl⟩
    · exact absurd h (by simp)
  · exact absurd h (by simp)

/-- The parts of `shows` for a word. -/
theorem State.shows_word {s : State} {m a : Nat} {l : Loc} (h : s.shows m a 4 l = true) :
    s.sees m a false = true ∧ 0x80 ≤ a % 0x1000 ∧ s.pairLow a = none ∧ s.locate m a = some l ∧ hidden m (some l) = 0 ∧
      ∃ src, srcOf a = some src ∧ (l.spec.frz && s.isFrozen src) = false ∧ ¬ (42 ≤ src ∧ src ≤ 49) := by
  have hr : s.sees m a false = true := by
    simp only [State.shows, Bool.and_eq_true] at h
    exact h.1.1.1.1.1
  obtain ⟨-, -, -, h4, src, hs, -⟩ := (s.sees_iff m a false).mp hr
  have ha : a / 4 * 4 = a := by omega
  have h' := h
  simp only [State.shows, ha, hs, Bool.and_eq_true, Bool.not_eq_true', decide_eq_true_eq, Option.isNone_iff_eq_none, beq_iff_eq,
    Bool.and_eq_false_iff, decide_eq_false_iff_not] at h'
  obtain ⟨⟨⟨⟨⟨-, ho⟩, hp⟩, hl⟩, hh⟩, ⟨-, hz⟩, he⟩ := h'
  refine ⟨hr, ho, hp, hl, hh, src, hs, ?_, by omega⟩
  simpa only [Bool.and_eq_false_iff] using hz

/-- A read of a triplicated word, not frozen, takes the value that its correction leaves. -/
theorem State.readReg_of_tmr {s : State} {m a src : Nat} {l : Loc} (hs : srcOf a = some src) (ho : 0x80 ≤ a % 0x1000)
    (hp : s.pairLow a = none) (hl : s.locate m a = some l) (hh : hidden m (some l) = 0) (hz : (l.spec.frz && s.isFrozen src) = false)
    (he : ¬ (42 ≤ src ∧ src ≤ 49)) (ht : l.spec.tmr ≠ 0) :
    s.readReg src m a =
      ((s.tmrFix src (a % 0x1000) l.key l.spec.tmr).w l.key, s.tmrFix src (a % 0x1000) l.key l.spec.tmr) := by
  obtain ⟨p, hpage⟩ := pageOfSrc_of_srcOf hs
  have hview : s.readRaw src m a =
      ((s.tmrFix src (a % 0x1000) l.key l.spec.tmr).w l.key, s.tmrFix src (a % 0x1000) l.key l.spec.tmr) := by
    simp only [State.readRaw, State.viewReg, hpage]
    rw [if_neg (by omega), if_neg (by omega), if_neg (by omega), if_neg (by omega)]
    simp only [hl, hz, Bool.false_eq_true, if_false, State.live, hs, Option.getD_some, State.computed_of_tmr hs ho hl ht]
  simp only [State.readReg, hview, hp, hl, hh, if_true, State.readHook, hs, Option.getD_some, if_neg he]
  exact congrArg (·, _) BitVec.and_allOnes

/-- A word without triplicated fields has none that disagree. -/
theorem fieldsHit_zero (d : Nat) : fieldsHit 0 d = 0 := by
  rw [fieldsHit, List.foldl_fixed' fun i => by simp [bitOf]]

/-- A read of a word whose copies disagree answers the majority and corrects it (R58). -/
theorem gives_tmrRead {s : State} {m : Master} {a : Addr} {src : Nat} {l : Loc} (hs : srcOf a.toNat = some src)
    (hk : s.shows m.toNat a.toNat 4 l = true) (h : s.Fixable src l) :
    Gives (.tmrRead m a 4) s fun t =>
      t.bus = s.told m.toNat .ok (leBytes 4 (s.majW l.key).toNat) ∧ s.Corrected t src (a.toNat % 0x1000) l ∧
      t = { s.regsOf t with bus := t.bus, tmrA := t.tmrA, tmrB := t.tmrB } := by
  obtain ⟨hsees, ho, hp, hl, hh, src', hs', hz, he⟩ := State.shows_word hk
  obtain rfl : src' = src := by simpa using hs'.symm.trans hs
  have ht : l.spec.tmr ≠ 0 := by
    intro ht
    apply h.fieldsOff_ne
    rw [State.fieldsOff, ht, fieldsHit_zero]
  have hread := State.readReg_of_tmr hs ho hp hl hh hz he ht
  have hfix := h.corrected (a.toNat % 0x1000)
  have hf := h.registersOnly (a.toNat % 0x1000)
  obtain ⟨-, hidle, -⟩ := (s.sees_iff m.toNat _ false).mp hsees
  have hask := State.regRead_of_sees hsees hs (by rw [hread]; exact (State.registersOnly_idle hf).trans hidle)
  rw [hread] at hask
  simp only [hfix.word, State.told, h.bus] at hask
  refine gives_done (congrArg done hask :) ⟨?_, ?_, ?_⟩
  · exact State.settle_bus _
  · exact hfix.congr (State.settle_words _) (State.settle_tmrA _) (State.settle_tmrB _)
  · refine State.frame_bus_tmr (State.registersOnly_trans ?_ (State.registersOnly_settle _)) ?_
    · exact State.registersOnly_trans hf (State.registersOnly_withBus _ _)
    · exact (State.settle_frozen _).trans (h.frozen _)

/-- Settles O5: each clause is the rule of its command. -/
theorem eventAndTriplicatedRegisters : Obligations.EventAndTriplicatedRegisters := by
  unfold Obligations.EventAndTriplicatedRegisters
  refine ⟨?_, ?_, ?_, ?_, ?_, ?_⟩
  · intro s m page src mask same hsrc hpage hk hA
    exact gives_eventClear mask same hsrc hpage hk hA
  · intro s m page src mask hsrc hpage hk hmaj
    exact gives_eventSet mask hsrc hpage hk hmaj
  · intro s m page src hsrc hpage hk hl
    exact gives_lockWrite hsrc hpage hk (by simpa using hl)
  · intro s m page src v hsrc hpage hk hv
    exact gives_snapThaw v hsrc hpage hk hv
  · intro s m a src l hs hev hk hd hq hcnt hlast htrig
    obtain ⟨t, hx, hbus, hfix, hframe⟩ := gives_tmrRead hs hk ⟨hd, hq, hcnt, hlast, hev, htrig⟩
    exact ⟨t, hx, hbus, hfix.word, hfix.copyA, hfix.copyB, hfix.count, hfix.source, hfix.offset.trans (Nat.mod_mod _ _),
      hfix.event, hfix.keeps, hframe⟩
  · intro s a src l hs hp hl hd ho hq hcnt hlast hev htrig
    obtain ⟨t, hx, hfix, hframe⟩ := gives_tmrWalk hs hp hl ho ⟨hd, hq, hcnt, hlast, hev, htrig⟩
    exact ⟨t, hx, hfix.copyA, hfix.copyB, hfix.word, hfix.count, hfix.source, hfix.offset.trans (Nat.mod_mod _ _), hfix.event,
      hfix.keeps, hframe⟩

end Sys2Proof.Machine
end

section
/-! MSI-X messages (02_register_pages R62): VEC_ACK sends the message of an active vector again, and unmasking a vector sends the message
that it has pending. With EVT settled, the evaluation that ends the command adds no other. -/

namespace Sys2Proof.Machine

/-! What EVT evaluates. -/

@[simp] theorem State.withBus_vecActive (s : State) (b : BusOut) : (s.withBus b).vecActive = s.vecActive :=
  State.vecActive_congr rfl rfl

@[simp] theorem State.emit_vecActive (s : State) (o : Output) : (s.emit o).vecActive = s.vecActive := State.vecActive_congr rfl rfl

/-- EVT evaluates words of register space, and VEC_ACK is none of them. -/
theorem evtWords_lt {src k : Nat} (h : src ∈ allSources) (hk : k ∈ evtWords src) : k < 2 ^ 24 ∧ k ≠ 0x50A8 := by
  have hall : ∀ x ∈ allSources, ∀ y ∈ evtWords x, y < 2 ^ 24 ∧ y ≠ 0x50A8 := by decide +kernel
  exact hall src h k hk

/-- Where EVT has seen each vector as it is and nothing is pending, its evaluation changes nothing. -/
theorem State.settle_of_seen {s : State} (ha : s.msix.active = s.vecActive) (hp : s.msix.pba = []) : s.settle = s := by
  have hno : ∀ (u : State) (v : Nat),
      (if bitOf s.vecActive v && !bitOf s.msix.active v then u.msixRequest v else u) = u := fun u v => by simp [ha]
  have hm : { s.msix with active := s.vecActive, pba := s.msix.pba.filter fun e => bitOf s.vecActive (e.1 % 32) } = s.msix := by
    rw [hp, ← ha, List.filter_nil, ← hp]
  simp only [State.settle, hno, hm]
  exact List.foldl_fixed' (fun _ => rfl) _

/-! One message. -/

/-- A request of a function that may send sends the message. -/
theorem State.msixRequest_sent {s : State} {v : Nat} (he : bitOf s.msix.en (b2n (bitOf (s.n 0x50AC) v)) = true)
    (hf : bitOf s.msix.fmask (b2n (bitOf (s.n 0x50AC) v)) = false)
    (hm : tget (fun _ => 1) s.msix.mask (b2n (bitOf (s.n 0x50AC) v) * 32 + v) = 0) :
    s.msixRequest v = s.emit (.msix (b2n (bitOf (s.n 0x50AC) v)) v) := by
  simp [State.msixRequest, he, hf, hm, State.emit]

/-- Of a fold in which one element alone acts, that element's step is left. -/
theorem foldl_single {α β : Type} {f : β → α → β} {l : List α} {x : α} (hx : x ∈ l) (hn : l.Nodup)
    (hf : ∀ b y, y ≠ x → f b y = b) (b : β) : l.foldl f b = f b x := by
  induction l generalizing b with
  | nil => exact absurd hx List.not_mem_nil
  | cons y l ih =>
    obtain ⟨hy, hl⟩ := List.nodup_cons.mp hn
    rcases List.mem_cons.mp hx with rfl | hx
    · have hrest : ∀ (l : List α) (b : β), (∀ z ∈ l, z ≠ x) → l.foldl f b = b := by
        intro l
        induction l with
        | nil => exact fun _ _ => rfl
        | cons z l ih => exact fun b hz => by rw [List.foldl_cons, hf b z (hz z (by simp)), ih b fun w hw => hz w (by simp [hw])]
      exact hrest l _ fun z hz h => hy (h ▸ hz)
    · rw [List.foldl_cons, hf b y fun h => hy (h ▸ hx), ih hx hl]

/-- VEC_ACK with one bit requests the message of that vector, if it is active. -/
theorem State.hookEvt_bit {s : State} {v : Nat} (hv : v < 32) (h : bitOf s.vecActive v = true) :
    s.hookEvt 0xA8 (2 ^ v) = s.msixRequest v := by
  have hother : ∀ (u : State) (i : Nat), i ≠ v →
      (if bitOf (2 ^ v) i && bitOf u.vecActive i then u.msixRequest i else u) = u := fun u i hi => by
    simp [bitOf, Nat.testBit_two_pow_of_ne hi.symm]
  have hb : bitOf (2 ^ v) v = true := Nat.testBit_two_pow_self
  rw [State.hookEvt, if_pos rfl, State.upto, foldl_single (List.mem_range.mpr hv) List.nodup_range hother]
  simp only [hb, h, Bool.and_self, if_true]

/-! VEC_ACK. -/

/-- The register VEC_ACK. -/
def vecAckLoc : Loc := ⟨0x50A8, ⟨0xA8, 1, 4, 0, 0, 0, 0xFFFFFFFF, 0, 0, 0, 0, 0, false, false⟩⟩

theorem srcOf_vecAck : srcOf 0x50A8 = some 5 := by decide +kernel

theorem State.locate_vecAck (s : State) (m : Nat) : s.locate m 0x50A8 = some vecAckLoc := by
  have hr : regOf 0x50A8 = some (vecAckLoc.spec, 0) := by decide +kernel
  simp [State.locate, srcOf_vecAck, hr, windowPage, vecAckLoc]

theorem State.storeReg_vecAck (s : State) (m : Nat) (v : Word) :
    ∃ w, s.storeReg m 0x50A8 0 v = (s.leave 0x50A8 w).hookEvt 0xA8 v.toNat := by
  have ha : ∀ old new, s.adjust 0x50A8 old new = new := fun old new => by simp [State.adjust]
  refine ⟨mergeWrite (s.majW 0x50A8) v vecAckLoc.spec 0, ?_⟩
  rw [State.storeReg_of_locate v (s.locate_vecAck m) rfl ha]
  simp [State.writeHook, srcOf_vecAck, State.headerHook, vecAckLoc]

/-- VEC_ACK with the bit of an active vector whose function may send leaves its own word and one message. -/
theorem State.storeReg_vecAck_sent {s : State} (m : Nat) {v : Nat} (hlt : v < 32) (hv : bitOf s.vecActive v = true)
    (he : bitOf s.msix.en (b2n (bitOf (s.n 0x50AC) v)) = true) (hf : bitOf s.msix.fmask (b2n (bitOf (s.n 0x50AC) v)) = false)
    (hm : tget (fun _ => 1) s.msix.mask (b2n (bitOf (s.n 0x50AC) v) * 32 + v) = 0) :
    ∃ x, s.storeReg m 0x50A8 0 (w32 (2 ^ v)) = (s.leave 0x50A8 x).emit (.msix (b2n (bitOf (s.n 0x50AC) v)) v) ∧
      (s.leave 0x50A8 x).vecActive = s.vecActive := by
  obtain ⟨x, hstore⟩ := s.storeReg_vecAck m (w32 (2 ^ v))
  have hkeeps : s.keeps (s.leave 0x50A8 x) [0x50A8] := s.keeps_leave _ _
  have hact : (s.leave 0x50A8 x).vecActive = s.vecActive := State.vecActive_of_keeps hkeeps (s.leave_held _ _)
    fun src hs k hk => by simpa using (evtWords_lt hs hk).2
  have hfn : (s.leave 0x50A8 x).n 0x50AC = s.n 0x50AC := congrArg BitVec.toNat (hkeeps 0x50AC (by decide))
  have hpow : (w32 (2 ^ v)).toNat = 2 ^ v := w32_toNat _ (Nat.pow_lt_pow_right (by decide) hlt)
  refine ⟨x, ?_, hact⟩
  rw [hstore, hpow, State.hookEvt_bit hlt (hact ▸ hv), State.msixRequest_sent, hfn]
  · rwa [hfn, s.leave_msix]
  · rwa [hfn, s.leave_msix]
  · rwa [hfn, s.leave_msix]

/-- Writing 1 to VEC_ACK for an active vector whose function may send sends its message again (R62). -/
theorem gives_vecAck {s : State} {m : Master} {v : Fin 32} (ha : s.msix.active = s.vecActive) (hp : s.msix.pba = [])
    (hk : s.takes m.toNat 0x50A8 = true) (hv : bitOf s.vecActive v.val = true)
    (he : bitOf s.msix.en (b2n (bitOf (s.n 0x50AC) v.val)) = true)
    (hf : bitOf s.msix.fmask (b2n (bitOf (s.n 0x50AC) v.val)) = false)
    (hm : tget (fun _ => 1) s.msix.mask (b2n (bitOf (s.n 0x50AC) v.val) * 32 + v.val) = 0) :
    Gives (.vecAck m (w32 (2 ^ v.val))) s fun t =>
      t.out = s.out ++ [.msix (b2n (bitOf (s.n 0x50AC) v.val)) v.val] ∧ s.keeps t [0x50A8] ∧ t = { s.regsOf t with bus := t.bus } := by
  obtain ⟨x, hst, hact⟩ := State.storeReg_vecAck_sent m.toNat v.isLt hv he hf hm
  generalize b2n (bitOf (s.n 0x50AC) v.val) = fn at hst ⊢
  have hregs : (s.leave 0x50A8 x).emit (.msix fn v.val) = s.regsOf ((s.leave 0x50A8 x).emit (.msix fn v.val)) :=
    State.regsOf_trans (s.regsOf_leave _ _) rfl
  have hkeeps : s.keeps ((s.leave 0x50A8 x).emit (.msix fn v.val)) [0x50A8] := s.keeps_leave _ _
  have hout : ((s.leave 0x50A8 x).emit (.msix fn v.val)).out = s.out ++ [.msix fn v.val] := congrArg (· ++ _) (s.leave_out _ _)
  have hbus : ((s.leave 0x50A8 x).emit (.msix fn v.val)).bus = s.bus := s.leave_bus _ _
  have hmsix : ((s.leave 0x50A8 x).emit (.msix fn v.val)).msix = s.msix := s.leave_msix _ _
  have hseen : ((s.leave 0x50A8 x).emit (.msix fn v.val)).vecActive = s.vecActive :=
    (State.emit_vecActive _ _).trans hact
  obtain ⟨-, hidle, -⟩ := (s.sees_iff m.toNat _ true).mp ((s.takes_iff m.toNat _).mp hk).1
  generalize (s.leave 0x50A8 x).emit (.msix fn v.val) = w at *
  have hx : exec (.vecAck m (w32 (2 ^ v.val))) s = done (w.withBus (s.told m.toNat .ok [])) := by
    show done (s.regWrite m.toNat 0x50A8 (w32 (2 ^ v.val))) = _
    rw [s.regWrite_ok m.toNat _ _ hk (by simp [State.blockRefuses])
      (by rw [hst]; exact (State.registersOnly_idle (State.registersOnly_of_regs hregs)).trans hidle), hst, State.told, hbus]
    rfl
  have hset : (w.withBus (s.told m.toNat .ok [])).settle = w.withBus (s.told m.toNat .ok []) := by
    refine State.settle_of_seen ?_ ?_
    · rw [State.withBus_vecActive, hseen, ← ha]
      exact congrArg MsixSt.active hmsix
    · exact (congrArg MsixSt.pba hmsix).trans hp
  refine (gives_done_iff hx).mpr ?_
  rw [hset]
  exact ⟨hout, hkeeps, State.frame_withBus hregs _⟩

/-! Unmasking. -/

/-- The bit that unmasking clears in the function masks. -/
theorem bitOf_and_others (n : Nat) (fn : Fin 2) : bitOf (n &&& (3 - 2 ^ fn.val)) fn.val = false := by
  have h : (3 - 2 ^ fn.val).testBit fn.val = false := by revert fn; decide
  simp [bitOf, Nat.testBit_and, h]

/-- Vector entry i is unmasked and no message is pending. -/
def State.nonePending (s : State) (i : Nat) : State :=
  { s with msix := { s.msix with mask := tset (fun _ => 1) s.msix.mask i 0, pba := [] } }

theorem State.vecActive_nonePending (s : State) (i : Nat) : (s.nonePending i).vecActive = s.vecActive := State.vecActive_congr rfl rfl

/-- Unmasking a vector of a function that may send, with the one message pending, sends it. -/
theorem State.vecMask_sent {s : State} {fn v : Nat} (he : bitOf s.msix.en fn = true) (hf : bitOf s.msix.fmask fn = false)
    (hp : s.msix.pba = [(fn * 32 + v, 1)]) :
    s.vecMask fn v false = (s.nonePending (fn * 32 + v)).emit (.msix fn v) := by
  have hread : tget zeroAt [(fn * 32 + v, 1)] (fn * 32 + v) = 1 := by simp [tget]
  have hdrop : tset zeroAt [(fn * 32 + v, 1)] (fn * 32 + v) 0 = [] := by simp [tset, zeroAt]
  simp [State.vecMask, he, hf, hp, hread, hdrop, State.nonePending]

/-- The host has enabled MSI-X of a function, unmasked it and cleared the mask bit in the vector's table entry. -/
def State.msixOpened (s : State) (fn v : Nat) : State :=
  State.clrW { s with msix := { s.msix with en := s.msix.en ||| 2 ^ fn, fmask := s.msix.fmask &&& (3 - 2 ^ fn) } }
    (winKey 60 0 (fn * 128 + 4 * v + 3)) 1

theorem State.vecActive_msixOpened (s : State) (fn v : Nat) : (s.msixOpened fn v).vecActive = s.vecActive := by
  have hkeeps : s.keeps (s.msixOpened fn v) [winKey 60 0 (fn * 128 + 4 * v + 3)] := State.keeps_setW _ _ _
  refine State.vecActive_of_keeps hkeeps rfl fun src hs k hk => ?_
  obtain ⟨hlt, -⟩ := evtWords_lt hs hk
  rw [List.mem_singleton, winKey]
  omega

/-- Unmasking a vector with its message pending sends it (R62). -/
theorem gives_msixUnmask {s : State} {fn : Fin 2} {v : Fin 32} (ha : s.msix.active = s.vecActive) (hn : s.noRequest fn.val = false)
    (hp : s.msix.pba = [(fn.val * 32 + v.val, 1)]) :
    Gives (.msixUnmask fn v) s fun t =>
      t.out = s.out ++ [.msix fn.val v.val] ∧ t.msix.pba = [] ∧ bitOf t.msix.en fn.val = true ∧
      s.keeps t [winKey 60 0 (fn.val * 128 + 4 * v.val + 3)] ∧ t = s.regsOf t := by
  have hen : bitOf (s.msixOpened fn.val v.val).msix.en fn.val = true := bitOf_or_self _ _
  have hkeeps : s.keeps (s.msixOpened fn.val v.val) [winKey 60 0 (fn.val * 128 + 4 * v.val + 3)] := State.keeps_setW _ _ _
  have hregs : s.msixOpened fn.val v.val = s.regsOf (s.msixOpened fn.val v.val) := rfl
  have hact : (s.msixOpened fn.val v.val).msix.active = (s.msixOpened fn.val v.val).vecActive := by
    rw [State.vecActive_msixOpened]; exact ha
  have hx : exec (.msixUnmask fn v) s = done ((s.msixOpened fn.val v.val).vecMask fn.val v.val false) := by
    show done (effMsixUnmask fn v s) = _
    rw [effMsixUnmask, hn]; rfl
  rw [State.vecMask_sent hen (bitOf_and_others _ _) hp] at hx
  have hout : (s.msixOpened fn.val v.val).out = s.out := rfl
  generalize s.msixOpened fn.val v.val = w at *
  refine (gives_done_iff hx).mpr ?_
  rw [State.settle_of_seen ?_ rfl]
  · exact ⟨congrArg (· ++ _) hout, rfl, hen, hkeeps, State.regsOf_trans hregs rfl⟩
  · rw [State.emit_vecActive, State.vecActive_nonePending]
    exact hact

/-- Settles O6: both messages are sent at once, and EVT, which has seen the vectors, adds none. -/
theorem msixMessages : Obligations.MsixMessages := by
  unfold Obligations.MsixMessages
  refine ⟨?_, ?_⟩
  · intro s m v ha hp hk hv he hf hm
    exact gives_vecAck ha hp hk hv he (by simpa using hf) hm
  · intro s fn v ha hn hp _ _
    exact gives_msixUnmask ha (by simpa using hn) hp

end Sys2Proof.Machine
end

section
/-! Operations that write registers. What an operation leaves as it is follows from the words that it writes: a list of keys is carried
along the operation's steps, and each step adds nothing to it. An event stays within the list where no EVENT bit is selected as snapshot
trigger 3 (02_register_pages R47, R63). -/

namespace Sys2Proof.Machine

/-- From s to t only words among ks have changed, and beside the words nothing that `regsOf` leaves out. -/
def State.writes (s t : State) (ks : List Nat) : Prop := s.keeps t ks ∧ t = s.regsOf t

theorem State.writes_refl (s : State) (ks : List Nat) : s.writes s ks := ⟨s.keeps_refl ks, rfl⟩

theorem State.keeps_append {s t u : State} {ks : List Nat} (h : s.keeps t ks) (h' : t.keeps u ks) : s.keeps u ks :=
  fun k hk => (h' k hk).trans (h k hk)

theorem State.writes_trans {s t u : State} {ks : List Nat} (h : s.writes t ks) (h' : t.writes u ks) : s.writes u ks :=
  ⟨State.keeps_append h.1 h'.1, State.regsOf_trans h.2 h'.2⟩

theorem State.writes_mono {s t : State} {ks ls : List Nat} (h : s.writes t ks) (hl : ∀ k ∈ ks, k ∈ ls) : s.writes t ls :=
  ⟨State.keeps_mono h.1 hl, h.2⟩

theorem State.writes_setW (s : State) {k : Nat} (v : Word) {ks : List Nat} (h : k ∈ ks) : s.writes (s.setW k v) ks :=
  ⟨State.keeps_mono (s.keeps_setW k v) (by simpa using h), rfl⟩

theorem State.writes_put (s : State) {f : Fld} (v : Nat) {ks : List Nat} (h : f.addr ∈ ks) : s.writes (s.put f v) ks :=
  s.writes_setW _ h

theorem State.writes_set64 (s : State) {lo : Nat} (v : Nat) {ks : List Nat} (h : lo ∈ ks) (h' : lo + 4 ∈ ks) :
    s.writes (s.set64 lo v) ks :=
  State.writes_trans (s.writes_setW _ h) (State.writes_setW _ _ h')

theorem State.writes_settle (s : State) (ks : List Nat) : s.writes s.settle ks :=
  ⟨State.keeps_settle (s.keeps_refl ks), s.regsOf_settle⟩

theorem State.quiet_of_keeps {s t : State} {ks : List Nat} (h : s.keeps t ks) (h0 : 0x6080 ∉ ks) (hq : s.quiet = true) :
    t.quiet = true := (State.quiet_congr (h _ h0)).trans hq

theorem State.writes_latch {s : State} {src : Nat} (bit : Nat) {ks : List Nat} (hq : s.quiet = true) (h : evKey src ∈ ks) :
    s.writes (s.latch src bit) ks :=
  ⟨State.keeps_mono (s.keeps_latch src bit hq) (by simpa using h), s.regsOf_latch src bit hq⟩

/-! Reads of fields. -/

theorem State.is_congr {s t : State} {f : Fld} (h : t.get f = s.get f) : t.is f = s.is f := by rw [State.is, h, State.is]

theorem State.keeps_is {s t : State} {ks : List Nat} (h : s.keeps t ks) {f : Fld} (hf : f.addr ∉ ks) : t.is f = s.is f :=
  State.is_congr (State.keeps_get h f hf)

theorem State.keeps_n {s t : State} {ks : List Nat} (h : s.keeps t ks) {k : Nat} (hk : k ∉ ks) : t.n k = s.n k :=
  congrArg BitVec.toNat (h k hk)

theorem State.get_latch {s : State} (src bit : Nat) {f : Fld} (hq : s.quiet = true) (hf : f.addr % 0x1000 ≠ 0x10) :
    (s.latch src bit).get f = s.get f :=
  State.keeps_get (s.keeps_latch src bit hq) f (by simpa using evKey_ne src f.addr hf)

theorem State.is_latch {s : State} (src bit : Nat) {f : Fld} (hq : s.quiet = true) (hf : f.addr % 0x1000 ≠ 0x10) :
    (s.latch src bit).is f = s.is f := State.is_congr (State.get_latch src bit hq hf)

theorem State.hasEvent_congr {s t : State} {src : Nat} (h : t.w (evKey src) = s.w (evKey src)) (bit : Nat) :
    t.hasEvent src bit = s.hasEvent src bit := by simp only [State.hasEvent, State.n, h]

theorem State.is_putB_other {s : State} {f g : Fld} (b : Bool) (h : f.hi < 32) (hd : g.addr ≠ f.addr ∨ g.hi < f.lo ∨ f.hi < g.lo) :
    (s.putB f b).is g = s.is g := State.is_congr (s.get_put_other f g (b2n b) h hd)

/-! A STATUS bit with its event (R46, R47). -/

theorem State.status_set {s : State} {f : Fld} (src bit : Nat) (h : s.is f = false) :
    s.status f true src bit = (s.putB f true).latch src bit := by simp [State.status, h]

theorem State.status_still {s : State} {f : Fld} {b : Bool} (src bit : Nat) (h : (b && !s.is f) = false) :
    s.status f b src bit = s.putB f b := by rw [State.status, h]; rfl

theorem State.quiet_putB {s : State} {f : Fld} (b : Bool) (hq : s.quiet = true) (hf : f.addr ≠ 0x6080) : (s.putB f b).quiet = true :=
  State.quiet_of_keeps (s.keeps_put f _) (by simpa using hf.symm) hq

theorem State.writes_status {s : State} {f : Fld} (b : Bool) {src : Nat} (bit : Nat) {ks : List Nat} (hq : s.quiet = true)
    (h0 : f.addr ≠ 0x6080) (hf : f.addr ∈ ks) (h : evKey src ∈ ks) : s.writes (s.status f b src bit) ks := by
  have hput : s.writes (s.putB f b) ks := s.writes_put _ hf
  cases hb : b && !s.is f
  · rw [State.status_still src bit hb]; exact hput
  · obtain ⟨rfl, -⟩ : b = true ∧ _ := by simpa using hb
    rw [State.status_set src bit (by simpa using hb)]
    exact State.writes_trans hput (State.writes_latch bit (State.quiet_putB true hq h0) h)

/-- Whether a change of the bit latches its event or not, other fields read as after the bit is put. -/
theorem State.get_status {s : State} {f g : Fld} (b : Bool) (src bit : Nat) (hq : s.quiet = true) (h0 : f.addr ≠ 0x6080)
    (hg : g.addr % 0x1000 ≠ 0x10) : (s.status f b src bit).get g = (s.putB f b).get g := by
  cases hb : b && !s.is f
  · rw [State.status_still src bit hb]
  · obtain ⟨rfl, -⟩ : b = true ∧ _ := by simpa using hb
    rw [State.status_set src bit (by simpa using hb), State.get_latch src bit (State.quiet_putB true hq h0) hg]

theorem State.hasEvent_status {s : State} {f : Fld} (src : Nat) {bit : Nat} (hq : s.quiet = true) (h0 : f.addr ≠ 0x6080) (hb : bit < 32)
    (h : s.is f = false) : (s.status f true src bit).hasEvent src bit = true := by
  rw [State.status_set src bit h]
  exact State.hasEvent_latch _ _ _ hb (State.quiet_putB true hq h0)

end Sys2Proof.Machine
end

section
/-! The servo (03_timebase R93, R95): what entering a state leaves in SERVO_STATE, STATUS and TIME, and that it writes no word but
those and FREQ_HOLD. -/

namespace Sys2Proof.Machine

/-- From s to t only words among ks have changed, and beside the words nothing but TIME. -/
def State.writesTime (s t : State) (ks : List Nat) : Prop := s.keeps t ks ∧ t = { s.regsOf t with time := t.time }

theorem State.writesTime_of_writes {s t : State} {ks : List Nat} (h : s.writes t ks) : s.writesTime t ks := by
  refine ⟨h.1, ?_⟩
  rw [h.2]; rfl

theorem State.writesTime_trans {s t u : State} {ks : List Nat} (h : s.writesTime t ks) (h' : t.writesTime u ks) : s.writesTime u ks := by
  refine ⟨State.keeps_append h.1 h'.1, ?_⟩
  rw [h'.2]; rw [h.2]; rfl

theorem State.writesTime_mono {s t : State} {ks ls : List Nat} (h : s.writesTime t ks) (hl : ∀ k ∈ ks, k ∈ ls) : s.writesTime t ls :=
  ⟨State.keeps_mono h.1 hl, h.2⟩

theorem State.writesTime_setTime (s : State) (f : TimeSt → TimeSt) (ks : List Nat) : s.writesTime (s.setTime f) ks :=
  ⟨fun _ _ => rfl, rfl⟩

theorem State.writesTime_settle {s t : State} {ks : List Nat} (h : s.writesTime t ks) : s.writesTime t.settle ks :=
  State.writesTime_trans h (State.writesTime_of_writes (t.writes_settle ks))

theorem State.slot_of_writesTime {s t : State} {ks : List Nat} (h : s.writesTime t ks) : t.slot = s.slot := by rw [h.2]; rfl
theorem State.cyc_of_writesTime {s t : State} {ks : List Nat} (h : s.writesTime t ks) : t.cyc = s.cyc := by rw [h.2]; rfl
theorem State.hsi_of_writesTime {s t : State} {ks : List Nat} (h : s.writesTime t ks) : t.hsi = s.hsi := by rw [h.2]; rfl
theorem State.mem_of_writesTime {s t : State} {ks : List Nat} (h : s.writesTime t ks) : t.mem = s.mem := by rw [h.2]; rfl
theorem State.clk_of_writesTime {s t : State} {ks : List Nat} (h : s.writesTime t ks) : t.clk = s.clk := by rw [h.2]; rfl

theorem State.majW_of_writesTime {s t : State} {ks : List Nat} (h : s.writesTime t ks) {k : Nat} (hk : k ∉ ks) : t.majW k = s.majW k := by
  have hA : t.tmrA = s.tmrA := by rw [h.2]; rfl
  have hB : t.tmrB = s.tmrB := by rw [h.2]; rfl
  simp only [State.majW, h.1 k hk, hA, hB]

theorem State.src_of_writesTime {s t : State} {ks : List Nat} (h : s.writesTime t ks) (hk : 0x3080 ∉ ks) : t.src = s.src := by
  simp only [State.src, State.majW_of_writesTime h hk]

@[simp] theorem State.settle_servo (s : State) : s.settle.servo = s.servo := s.settle_get _
@[simp] theorem State.settle_anchored (s : State) : s.settle.anchored = s.anchored := s.settle_is _
@[simp] theorem State.settle_gen (s : State) : s.settle.gen = s.gen := s.settle_get _
@[simp] theorem State.settle_get64 (s : State) (k : Nat) : s.settle.get64 k = s.get64 k := by simp only [State.get64, State.settle_n]
@[simp] theorem State.settle_hasEvent (s : State) (src bit : Nat) : s.settle.hasEvent src bit = s.hasEvent src bit :=
  State.hasEvent_congr (s.settle_w _) bit

@[simp] theorem State.settle_src (s : State) : s.settle.src = s.src :=
  State.src_of_writesTime (State.writesTime_of_writes (s.writes_settle [])) List.not_mem_nil

/-! Entering a servo state. -/

/-- The words that an entry writes: FREQ_HOLD, SERVO_STATE, STATUS and EVENT. -/
def servoWords : List Nat := [R.TIME_FREQ_HOLD_Y.addr, R.TIME_SERVO_STATE_STATE.addr, R.TIME_S_LOCKED.addr, evKey eTIME]

/-- The state that an entry comes to: HOLDOVER while FORCE_HOLD is 1. -/
def State.entryState (s : State) (next : Nat) : Nat := if s.is R.TIME_C_FORCE_HOLD then tHoldover else next

/-- The reason that TIME keeps from then on. -/
def State.entryReason (s : State) (next why : Nat) : Nat :=
  if s.is R.TIME_C_FORCE_HOLD then 3 else if s.entryState next = tHoldover then why else if s.entryState next = tFreerun then 0
  else s.time.reason

/-- TIME on entry to a servo state in a slot. -/
def TimeSt.entering (t : TimeSt) (st reason slot : Nat) : TimeSt :=
  { t with
    reason := reason
    lockRun := 0
    unlockRun := 0
    outliers := if st = tTrack ∨ st = tLocked then t.outliers else []
    acq := if st = tAcquire ∨ st = tHoldover then t.acq else []
    acqPath := if st = tAcquire then t.acqPath else false
    acqSince := if st = tAcquire then slot else t.acqSince
    steps := t.steps.filter fun q => q.keptIn st }

/-- FREQ_HOLD is fixed where the loop or the slew stops. -/
def State.freqHeld (s : State) (st : Nat) : State :=
  if steering s.servo && !steering st then s.putI R.TIME_FREQ_HOLD_Y (yOfPpb (-s.time.integ)) else s

/-- SERVO_STATE shows a state and its reason. -/
def State.showServo (s : State) (st reason : Nat) : State :=
  (s.put R.TIME_SERVO_STATE_STATE st).put R.TIME_SERVO_STATE_HOLD_REASON (if st = tHoldover ∨ st = tReanchor then reason else 0)

/-- FREQ_HOLD, TIME and SERVO_STATE as an entry leaves them, before STATUS and y follow. -/
def State.entered (s : State) (st reason : Nat) : State :=
  ((s.freqHeld st).setTime fun t => t.entering st reason s.slot).showServo st reason

theorem State.freqHeld_cases (s : State) (st : Nat) :
    s.freqHeld st = s ∨ s.freqHeld st = s.putI R.TIME_FREQ_HOLD_Y (yOfPpb (-s.time.integ)) := by
  unfold State.freqHeld; split
  · exact Or.inr rfl
  · exact Or.inl rfl

theorem State.writes_freqHeld (s : State) (st : Nat) : s.writes (s.freqHeld st) servoWords := by
  rcases s.freqHeld_cases st with h | h <;> rw [h]
  · exact s.writes_refl _
  · exact s.writes_put _ (by decide +kernel)

theorem State.enterServo_eq (s : State) (next why : Nat) :
    s.enterServo next why = (s.entered (s.entryState next) (s.entryReason next why)).servoStatus.steer := by
  have hslot : (s.freqHeld (s.entryState next)).slot = s.slot := by
    rw [(s.writes_freqHeld _).2]; rfl
  rw [State.entered, ← hslot]
  rfl

theorem State.writesTime_entered (s : State) (st reason : Nat) : s.writesTime (s.entered st reason) servoWords := by
  have h1 := State.writesTime_of_writes (s.writes_freqHeld st)
  have h2 := (s.freqHeld st).writesTime_setTime (fun t => t.entering st reason s.slot) servoWords
  have hk : R.TIME_SERVO_STATE_STATE.addr ∈ servoWords := by decide +kernel
  exact State.writesTime_trans (State.writesTime_trans h1 h2)
    (State.writesTime_of_writes (State.writes_trans (State.writes_put _ _ hk) (State.writes_put _ _ hk)))

theorem State.time_entered (s : State) (st reason : Nat) : (s.entered st reason).time = s.time.entering st reason s.slot := by
  have : (s.freqHeld st).time = s.time := by rw [(s.writes_freqHeld st).2]; rfl
  show TimeSt.entering (s.freqHeld st).time st reason s.slot = _
  rw [this]

/-- SERVO_STATE after an entry: the state and its reason; ANCHORED and GEN stay. -/
theorem State.get_freqHeld (s : State) (st : Nat) {f : Fld} (hf : f.addr ≠ 0x30F0) : (s.freqHeld st).get f = s.get f := by
  rcases s.freqHeld_cases st with h | h
  · rw [h]
  · rw [h]
    exact State.keeps_get (s.keeps_put _ _) f fun hm => hf (List.mem_singleton.mp hm)

theorem State.servo_entered (s : State) {st : Nat} (reason : Nat) (h : st < 8) : (s.entered st reason).servo = st := by
  rw [State.servo, State.entered, State.showServo, State.get_put_other _ _ _ _ (by decide) (by decide),
    State.get_put_same _ _ _ (by decide) (by decide)]
  exact Nat.mod_eq_of_lt h

theorem State.holdReason_entered (s : State) (st reason : Nat) :
    (s.entered st reason).get R.TIME_SERVO_STATE_HOLD_REASON = if st = tHoldover ∨ st = tReanchor then reason % 8 else 0 := by
  rw [State.entered, State.showServo, State.get_put_same _ _ _ (by decide) (by decide)]
  split <;> rfl

theorem State.get_entered (s : State) (st reason : Nat) {f : Fld} (h0 : f.addr ≠ 0x30F0)
    (h4 : f.addr ≠ 0x30F4 ∨ f.lo = 3 ∧ f.hi = 3 ∨ 6 < f.lo) : (s.entered st reason).get f = s.get f := by
  rw [State.entered, State.showServo, State.get_put_other _ _ _ _ (by decide), State.get_put_other _ _ _ _ (by decide)]
  · exact s.get_freqHeld st h0
  all_goals simp only [R.TIME_SERVO_STATE_STATE, R.TIME_SERVO_STATE_HOLD_REASON]; omega

/-! STATUS follows the servo state (R95, R109). -/

/-- STATUS and EVENT. -/
def statusWords : List Nat := [R.TIME_S_LOCKED.addr, evKey eTIME]

/-- From s to t no more than STATUS and EVENT have changed, and not what STATUS says of the source. -/
def State.servoBits (s t : State) : Prop := s.writes t statusWords ∧ t.is R.TIME_S_REF_PRESENT = s.is R.TIME_S_REF_PRESENT

theorem State.servoBits_putB {s u : State} {f : Fld} (b : Bool) (hu : s.servoBits u) (ha : f.addr = R.TIME_S_REF_PRESENT.addr)
    (hf : f.hi < 5) : s.servoBits (u.putB f b) :=
  ⟨State.writes_trans hu.1 (u.writes_put _ (by rw [ha]; decide +kernel)),
    (State.is_putB_other b (by omega) (Or.inr (Or.inr hf))).trans hu.2⟩

theorem State.servoBits_latch {s u : State} (bit : Nat) (hq : s.quiet = true) (hu : s.servoBits u) : s.servoBits (u.latch eTIME bit) := by
  have hq' := State.quiet_of_keeps hu.1.1 (by decide +kernel) hq
  exact ⟨State.writes_trans hu.1 (State.writes_latch bit hq' (by decide +kernel)), (State.is_latch _ bit hq' (by decide)).trans hu.2⟩

theorem State.servoBits_status {s u : State} {f : Fld} (b : Bool) (bit : Nat) (hq : s.quiet = true) (hu : s.servoBits u)
    (ha : f.addr = R.TIME_S_REF_PRESENT.addr) (hf : f.hi < 5) : s.servoBits (u.status f b eTIME bit) := by
  have hput : ∀ b, s.servoBits (u.putB f b) := fun b => State.servoBits_putB b hu ha hf
  cases hb : b && !u.is f
  · rw [State.status_still eTIME bit hb]; exact hput b
  · obtain ⟨rfl, -⟩ : b = true ∧ _ := by simpa using hb
    rw [State.status_set eTIME bit (by simpa using hb)]
    exact State.servoBits_latch bit hq (hput true)

/-- STATUS before STEP_PENDING and SLEWING are put. -/
def State.lockStatus (s : State) : State :=
  let t := s.status R.TIME_S_LOCKED (s.servo = tLocked) eTIME 0
  let t := if s.is R.TIME_S_LOCKED && s.servo != tLocked then t.latch eTIME 1 else t
  let t := t.status R.TIME_S_HOLDOVER (s.servo = tHoldover || s.servo = tReanchor || (s.servo = tAcquire && t.anchored)) eTIME 2
  t.status R.TIME_S_REANCHOR_REQUIRED (s.servo = tReanchor) eTIME 3

theorem State.servoStatus_eq (s : State) :
    s.servoStatus = (s.lockStatus.putB R.TIME_S_STEP_PENDING (s.servo = tStepPending)).putB R.TIME_S_SLEWING (s.servo = tSlewing) := rfl

theorem State.servoBits_lockStatus {s : State} (hq : s.quiet = true) : s.servoBits s.lockStatus := by
  unfold State.lockStatus
  have h : s.servoBits (s.status R.TIME_S_LOCKED (s.servo = tLocked) eTIME 0) :=
    State.servoBits_status _ 0 hq ⟨s.writes_refl _, rfl⟩ rfl (by decide)
  refine State.servoBits_status _ 3 hq (State.servoBits_status _ 2 hq ?_ rfl (by decide)) rfl (by decide)
  split
  · exact State.servoBits_latch 1 hq h
  · exact h

theorem State.servoBits_servoStatus {s : State} (hq : s.quiet = true) : s.servoBits s.servoStatus := by
  rw [s.servoStatus_eq]
  exact State.servoBits_putB _ (State.servoBits_putB _ (State.servoBits_lockStatus hq) rfl (by decide)) rfl (by decide)

theorem State.stepPending_servoStatus (s : State) : s.servoStatus.is R.TIME_S_STEP_PENDING = decide (s.servo = tStepPending) := by
  rw [s.servoStatus_eq, State.is_putB_other _ (by decide) (by decide), State.is_putB _ _ _ (by decide) rfl]

/-- The y that CLK applies at the next boundary; the limit latches FREQ_CLAMP (R77). -/
theorem State.steer_eq (s : State) : ∃ c, s.steer = s.setTime (fun t => { t with yNext := c }) ∨
    s.steer = (s.setTime fun t => { t with yNext := c }).latch eTIME 8 := by
  refine ⟨clampI (-yLimit) yLimit (yOfPpb s.yState), ?_⟩
  unfold State.steer
  dsimp only
  split
  · exact Or.inl rfl
  · exact Or.inr rfl

theorem State.steer_spec {s : State} (hq : s.quiet = true) :
    s.writesTime s.steer servoWords ∧ s.steer.time = { s.time with yNext := s.steer.time.yNext } ∧
      ∀ f : Fld, f.addr % 0x1000 ≠ 0x10 → s.steer.get f = s.get f := by
  obtain ⟨c, h | h⟩ := s.steer_eq
  · rw [h]
    exact ⟨s.writesTime_setTime _ _, rfl, fun _ _ => rfl⟩
  · have hq' : (s.setTime fun t => { t with yNext := c }).quiet = true := hq
    have hl : State.writes _ _ servoWords := State.writes_latch (src := eTIME) 8 hq' (by decide +kernel)
    have ht : s.steer.time = { s.time with yNext := c } := by rw [h, hl.2]; rfl
    rw [ht, h]
    exact ⟨State.writesTime_trans (s.writesTime_setTime _ _) (State.writesTime_of_writes hl), rfl, fun f hf => State.get_latch _ _ hq' hf⟩

/-- What entering the servo state st with a reason leaves: s is the state before. -/
structure State.EntersServo (s t : State) (st reason : Nat) : Prop where
  servo : t.servo = st
  holdReason : t.get R.TIME_SERVO_STATE_HOLD_REASON = if st = tHoldover ∨ st = tReanchor then reason % 8 else 0
  anchored : t.anchored = s.anchored
  gen : t.gen = s.gen
  present : t.is R.TIME_S_REF_PRESENT = s.is R.TIME_S_REF_PRESENT
  stepPending : t.is R.TIME_S_STEP_PENDING = decide (st = tStepPending)
  time : t.time = { s.time.entering st reason s.slot with yNext := t.time.yNext }
  writes : s.writesTime t servoWords

/-- It is a matter of SERVO_STATE, STATUS and TIME alone. -/
theorem State.EntersServo.settle {s t : State} {st reason : Nat} (h : s.EntersServo t st reason) : s.EntersServo t.settle st reason where
  servo := by simpa using h.servo
  holdReason := by simpa using h.holdReason
  anchored := by simpa using h.anchored
  gen := by simpa using h.gen
  present := by simpa using h.present
  stepPending := by simpa using h.stepPending
  time := by simpa using h.time
  writes := State.writesTime_settle h.writes

theorem State.entersServo_of_quiet {s : State} {next : Nat} (why : Nat) (hq : s.quiet = true) (hn : next < 8) :
    s.EntersServo (s.enterServo next why) (s.entryState next) (s.entryReason next why) := by
  rw [s.enterServo_eq]
  have hst : s.entryState next < 8 := by unfold State.entryState; split <;> [decide; exact hn]
  generalize s.entryState next = st at hst ⊢
  generalize s.entryReason next why = r
  have h1 := s.writesTime_entered st r
  have hq1 := State.quiet_of_keeps h1.1 (by decide +kernel) hq
  have hs1 := s.servo_entered r hst
  have ht1 := s.time_entered st r
  have hget1 := s.get_entered st r (f := R.TIME_S_REF_PRESENT) (by decide) (by decide)
  have ha1 : (s.entered st r).anchored = s.anchored := State.is_congr (s.get_entered st r (by decide) (by decide))
  have hg1 : (s.entered st r).gen = s.gen := s.get_entered st r (by decide) (by decide)
  have hr1 := s.holdReason_entered st r
  generalize s.entered st r = u at *
  obtain ⟨h2, hp2⟩ := State.servoBits_servoStatus hq1
  have hk2 := u.stepPending_servoStatus
  have hq2 := State.quiet_of_keeps h2.1 (by decide +kernel) hq1
  obtain ⟨h3, ht3, hget3⟩ := State.steer_spec hq2
  have hget : ∀ f : Fld, f.addr = 0x30F4 → u.servoStatus.steer.get f = u.get f := fun f hf =>
    (hget3 f (by rw [hf]; decide)).trans (State.keeps_get h2.1 f (by rw [hf]; decide +kernel))
  have htime : u.servoStatus.time = u.time := by rw [h2.2]; rfl
  constructor
  case servo => exact (hget _ rfl).trans hs1
  case holdReason => exact (hget _ rfl).trans hr1
  case anchored => exact (State.is_congr (hget _ rfl)).trans ha1
  case gen => exact (hget _ rfl).trans hg1
  case present => exact (State.is_congr (hget3 _ (by decide))).trans (hp2.trans (State.is_congr hget1))
  case stepPending =>
    rw [State.is_congr (hget3 _ (by decide)), hk2, hs1]
  case time => rw [← ht1, ← htime]; exact ht3
  case writes =>
    exact State.writesTime_trans (State.writesTime_trans h1 (State.writesTime_of_writes (State.writes_mono h2 (by decide +kernel)))) h3

/-- The same where FORCE_HOLD is 0. -/
theorem State.entersServo_free {s : State} {next : Nat} (why : Nat) (hq : s.quiet = true) (hf : s.is R.TIME_C_FORCE_HOLD = false)
    (hn : next < 8) : s.EntersServo (s.enterServo next why) next
      (if next = tHoldover then why else if next = tFreerun then 0 else s.time.reason) := by
  have h := State.entersServo_of_quiet why hq hn
  simpa [State.entryReason, State.entryState, hf] using h

/-- To HOLDOVER, for the host's reason while FORCE_HOLD is 1. -/
theorem State.entersServo_holdover {s : State} (why : Nat) (hq : s.quiet = true) :
    (s.setTime fun t => { t with acq := [] }).EntersServo (s.holdover why) tHoldover (if s.is R.TIME_C_FORCE_HOLD then 3 else why) := by
  have h : State.EntersServo _ (s.holdover why) _ _ :=
    State.entersServo_of_quiet (s := s.setTime fun t => { t with acq := [] }) (next := tHoldover) why hq (by decide)
  have hf : (s.setTime fun t => { t with acq := [] }).is R.TIME_C_FORCE_HOLD = s.is R.TIME_C_FORCE_HOLD := rfl
  cases hb : s.is R.TIME_C_FORCE_HOLD <;> simpa [State.entryReason, State.entryState, hf, hb] using h

theorem State.EntersServo.writes_from {s t : State} {f : TimeSt → TimeSt} {st reason : Nat}
    (h : (s.setTime f).EntersServo t st reason) : s.writesTime t servoWords :=
  State.writesTime_trans (s.writesTime_setTime f _) h.writes

/-- An acquisition starts where FORCE_HOLD is 0. -/
theorem State.acquire_spec {s : State} (hq : s.quiet = true) (hf : s.is R.TIME_C_FORCE_HOLD = false) :
    s.writesTime (s.acquire []) servoWords ∧ (s.acquire []).servo = tAcquire ∧ (s.acquire []).time.acq = [] ∧
      (s.acquire []).time.acqSince = s.slot ∧ (s.acquire []).is R.TIME_S_REF_PRESENT = s.is R.TIME_S_REF_PRESENT := by
  have h := State.entersServo_free (next := tAcquire) 0 hq hf (by decide)
  refine ⟨State.writesTime_trans h.writes (State.writesTime_setTime _ _ _), h.servo, rfl, ?_, h.present⟩
  exact (congrArg TimeSt.acqSince h.time :)

end Sys2Proof.Machine
end

section
/-! Register writes to CLK and TIME that the rules let through (02_register_pages R52): what a write stores, the block's command, and the
answer. -/

namespace Sys2Proof.Machine

/-! What a write leaves in the bits that it may write. -/

theorem testBit_mergeWrite (old v : Word) (sp : RegSpec) {i : Nat} (hi : i < 32) (hw : sp.rw.testBit i = true)
    (hc : sp.w1c.testBit i = false) : (mergeWrite old v sp 0).toNat.testBit i = v.toNat.testBit i := by
  have h : (mergeWrite old v sp 0).getLsbD i = v.getLsbD i := by
    have h1 : ~~~ w32 0 = BitVec.allOnes 32 := rfl
    have hb : ∀ n, (w32 n)[i] = n.testBit i := fun n => by
      rw [← BitVec.getLsbD_eq_getElem hi, w32, BitVec.getLsbD_ofNat]; simp [hi]
    simp only [mergeWrite, h1, BitVec.and_allOnes]
    simp [hi, hb, hw, hc]
  simpa only [BitVec.testBit_toNat] using h

/-- A field that is writable reads what was written. -/
theorem bits_mergeWrite (old v : Word) (sp : RegSpec) {hi lo : Nat} (hh : hi < 32)
    (h : ∀ i < 32, lo ≤ i → i ≤ hi → sp.rw.testBit i = true ∧ sp.w1c.testBit i = false) :
    bits (mergeWrite old v sp 0).toNat hi lo = bits v.toNat hi lo := by
  apply Nat.eq_of_testBit_eq
  intro j
  rw [testBit_bits, testBit_bits]
  by_cases hj : j < hi + 1 - lo
  · obtain ⟨hw, hc⟩ := h (lo + j) (by omega) (by omega) (by omega)
    rw [testBit_mergeWrite old v sp (by omega) hw hc]
  · simp [hj]

theorem bits_bit_ne_zero (n i : Nat) : (bits n i i != 0) = bitOf n i := by
  have hp : i + 1 - i = 1 := by omega
  rw [bits, hp, bitOf, Nat.testBit_eq_decide_div_mod_eq]
  rcases Nat.mod_two_eq_zero_or_one (n / 2 ^ i) with h | h <;> simp [h]

/-! What a write stores. -/

/-- The three copies of a word are set alike. -/
def State.copiesSet (s : State) (k : Nat) : State :=
  { s with tmrA := tset zeroAt s.tmrA k 0, tmrB := tset zeroAt s.tmrB k 0 }

/-- A write of v is stored in the register r at a, before the block acts on it. -/
def State.stored (s : State) (a : Nat) (r : RegSpec) (v : Word) : State :=
  (if r.tmr = 0 then s else s.copiesSet a).leave a (mergeWrite (s.majW a) v r 0)

theorem State.stored_w (s : State) (a : Nat) (r : RegSpec) (v : Word) : (s.stored a r v).w a = mergeWrite (s.majW a) v r 0 :=
  State.leave_w_same _ _ _

theorem State.keeps_stored (s : State) (a : Nat) (r : RegSpec) (v : Word) : s.keeps (s.stored a r v) [a] := by
  unfold State.stored; split
  · exact s.keeps_leave _ _
  · exact (s.copiesSet a).keeps_leave _ _

theorem State.writes_stored {s : State} {a : Nat} {r : RegSpec} (v : Word) (ht : r.tmr = 0) : s.writes (s.stored a r v) [a] := by
  refine ⟨s.keeps_stored a r v, ?_⟩
  rw [State.stored, if_pos ht]
  exact s.regsOf_leave _ _

theorem State.stored_frame (s : State) (a : Nat) (r : RegSpec) (v : Word) :
    s.stored a r v = { s.regsOf (s.stored a r v) with tmrA := (s.stored a r v).tmrA, tmrB := (s.stored a r v).tmrB } := by
  unfold State.stored; split
  · rw [s.regsOf_leave a]; rfl
  · rw [(s.copiesSet a).regsOf_leave a]; rfl

theorem State.stored_time (s : State) (a : Nat) (r : RegSpec) (v : Word) : (s.stored a r v).time = s.time := by
  rw [s.stored_frame]; rfl
theorem State.stored_clk (s : State) (a : Nat) (r : RegSpec) (v : Word) : (s.stored a r v).clk = s.clk := by
  rw [s.stored_frame]; rfl
theorem State.stored_slot (s : State) (a : Nat) (r : RegSpec) (v : Word) : (s.stored a r v).slot = s.slot := by
  rw [s.stored_frame]; rfl
theorem State.stored_cyc (s : State) (a : Nat) (r : RegSpec) (v : Word) : (s.stored a r v).cyc = s.cyc := by
  rw [s.stored_frame]; rfl
theorem State.stored_hsi (s : State) (a : Nat) (r : RegSpec) (v : Word) : (s.stored a r v).hsi = s.hsi := by
  rw [s.stored_frame]; rfl
theorem State.stored_held (s : State) (a : Nat) (r : RegSpec) (v : Word) : (s.stored a r v).held = s.held := by
  rw [s.stored_frame]; rfl

/-- A writable field of the register reads what was written. -/
theorem State.stored_get {s : State} {r : RegSpec} (v : Word) {f : Fld} (hh : f.hi < 32)
    (h : ∀ i < 32, f.lo ≤ i → i ≤ f.hi → r.rw.testBit i = true ∧ r.w1c.testBit i = false) :
    (s.stored f.addr r v).get f = bits v.toNat f.hi f.lo := by
  rw [State.get, State.n, s.stored_w, bits_mergeWrite _ _ _ hh h]

theorem State.quiet_stored {s : State} {a : Nat} {r : RegSpec} (v : Word) (hq : s.quiet = true) (ha : a ≠ 0x6080) :
    (s.stored a r v).quiet = true :=
  State.quiet_of_keeps (s.keeps_stored a r v) (by simpa using ha.symm) hq

/-! The pages of CLK and TIME. -/

theorem srcOf_clkTime {a src : Nat} (ha : a / 0x1000 = src) (hs : src = 2 ∨ src = 3) : srcOf a = some src := by
  have hslot : srcOfSlot 2 = some 2 ∧ srcOfSlot 3 = some 3 := by decide +kernel
  rw [srcOf, if_pos (by omega), ha]
  rcases hs with rfl | rfl
  · exact hslot.1
  · exact hslot.2

theorem State.locate_clkTime (s : State) (m : Nat) {a src i : Nat} {r : RegSpec} (ha : a / 0x1000 = src) (hs : src = 2 ∨ src = 3)
    (hr : regOf a = some (r, i)) : s.locate m a = some ⟨a, r⟩ := by
  simp only [State.locate, srcOf_clkTime ha hs, hr]
  rcases hs with rfl | rfl <;> rfl

/-- A write that the page stores is handed to the block. -/
theorem State.storeReg_clkTime (s : State) (m : Nat) {a src i : Nat} {r : RegSpec} (v : Word) (ha : a / 0x1000 = src)
    (hs : src = 2 ∨ src = 3) (hr : regOf a = some (r, i)) :
    s.storeReg m a 0 v = (s.stored a r v).writeHook m a (s.majW a) v := by
  have hadj : ∀ old new, s.adjust a old new = new := fun old new => by
    rw [State.adjust, if_neg (by omega), if_neg (by omega), if_neg (by omega), if_neg (by omega)]
  have hv : v &&& ~~~ w32 0 = v := BitVec.and_allOnes
  simp only [State.storeReg, s.locate_clkTime m ha hs hr, hadj, hv]
  rfl

theorem State.headerHook_none (s : State) {src off v : Nat} (h : off = 8 ∨ 0x80 ≤ off) : s.headerHook src off v = s := by
  rw [State.headerHook, if_neg (by omega), if_neg (by omega)]

theorem State.writeHook_time (s : State) (m : Nat) {a : Nat} (old v : Word) (ha : a / 0x1000 = 3)
    (ho : a % 0x1000 = 8 ∨ 0x80 ≤ a % 0x1000) : s.writeHook m a old v = s.hookTime (a % 0x1000) old.toNat v.toNat := by
  simp only [State.writeHook, srcOf_clkTime ha (Or.inr rfl), Option.getD_some, State.headerHook_none s ho]
  rw [if_neg (by omega)]
  rfl

theorem State.writeHook_clk (s : State) (m : Nat) {a : Nat} (old v : Word) (ha : a / 0x1000 = 2)
    (ho : a % 0x1000 = 8 ∨ 0x80 ≤ a % 0x1000) : s.writeHook m a old v = s.hookClk (a % 0x1000) v.toNat := by
  simp only [State.writeHook, srcOf_clkTime ha (Or.inl rfl), Option.getD_some, State.headerHook_none s ho]
  rw [if_neg (by omega)]
  rfl

/-- The write is answered OK, whatever the block makes of it, unless that lets something go in the fabric. -/
theorem State.regWrite_clkTime {s u : State} {m a src i : Nat} {r : RegSpec} {v : Word} (hk : s.takes m a = true)
    (ha : a / 0x1000 = src) (hs : src = 2 ∨ src = 3) (hr : regOf a = some (r, i))
    (hu : (s.stored a r v).writeHook m a (s.majW a) v = u) (hi : u.fabricIdle = s.fabricIdle) (hb : u.bus = s.bus) :
    s.regWrite m a v = u.withBus (s.told m .ok []) := by
  have hst : s.storeReg m a 0 v = u := (s.storeReg_clkTime m v ha hs hr).trans hu
  have hbl : s.blockRefuses a 0 v = none := by
    simp only [State.blockRefuses]
    rw [if_neg (by omega), if_neg (by omega), if_neg (by omega)]
  obtain ⟨-, hidle, -⟩ := (s.sees_iff m a true).mp ((s.takes_iff m a).mp hk).1
  rw [s.regWrite_ok m a v hk hbl (by rw [hst]; exact hi.trans hidle), hst, State.told, hb]
  rfl

/-- From s to t no more has changed than a write to a register of TIME changes: words, TIME, and the copies of triplicated bits. -/
def State.timePage (s t : State) : Prop := t = { s.regsOf t with time := t.time, tmrA := t.tmrA, tmrB := t.tmrB }

theorem State.timePage_stored {s t : State} {a : Nat} {r : RegSpec} {v : Word} {ks : List Nat} (h : (s.stored a r v).writesTime t ks) :
    s.timePage t := by
  unfold State.timePage
  rw [h.2, s.stored_frame]; rfl

theorem State.timePage_of_writesTime {s t : State} {ks : List Nat} (h : s.writesTime t ks) : s.timePage t := by
  unfold State.timePage
  rw [h.2]; rfl

/-- A write to a register of TIME: u is what the block makes of it. -/
theorem State.regWrite_time {s u : State} {m a i : Nat} {r : RegSpec} {v : Word} (hk : s.takes m a = true) (ha : a / 0x1000 = 3)
    (ho : a % 0x1000 = 8 ∨ 0x80 ≤ a % 0x1000) (hr : regOf a = some (r, i))
    (hu : (s.stored a r v).hookTime (a % 0x1000) (s.majW a).toNat v.toNat = u) (hp : s.timePage u) :
    s.regWrite m a v = u.withBus (s.told m .ok []) :=
  State.regWrite_clkTime hk ha (Or.inr rfl) hr ((State.writeHook_time _ m _ v ha ho).trans hu) (by rw [hp]; rfl) (by rw [hp]; rfl)

/-! What is left after the answer and the settling of EVT. -/

@[simp] theorem State.withBus_n (s : State) (b : BusOut) (k : Nat) : (s.withBus b).n k = s.n k := rfl
@[simp] theorem State.withBus_get (s : State) (b : BusOut) (f : Fld) : (s.withBus b).get f = s.get f := rfl
@[simp] theorem State.withBus_is (s : State) (b : BusOut) (f : Fld) : (s.withBus b).is f = s.is f := rfl
@[simp] theorem State.withBus_get64 (s : State) (b : BusOut) (k : Nat) : (s.withBus b).get64 k = s.get64 k := rfl
@[simp] theorem State.withBus_hasEvent (s : State) (b : BusOut) (src bit : Nat) :
    (s.withBus b).hasEvent src bit = s.hasEvent src bit := rfl
@[simp] theorem State.withBus_servo (s : State) (b : BusOut) : (s.withBus b).servo = s.servo := rfl
@[simp] theorem State.withBus_src (s : State) (b : BusOut) : (s.withBus b).src = s.src := rfl
@[simp] theorem State.withBus_time (s : State) (b : BusOut) : (s.withBus b).time = s.time := rfl
@[simp] theorem State.withBus_clk (s : State) (b : BusOut) : (s.withBus b).clk = s.clk := rfl

theorem State.keeps_answered {s u : State} {ks : List Nat} (h : s.keeps u ks) (b : BusOut) : s.keeps (u.withBus b).settle ks :=
  State.keeps_settle (t := u.withBus b) h

theorem State.frame_answered_time {s u : State} {ks : List Nat} (h : s.writesTime u ks) (b : BusOut) :
    (u.withBus b).settle = { s.regsOf (u.withBus b).settle with bus := (u.withBus b).settle.bus, time := (u.withBus b).settle.time } := by
  rw [State.regsOf_settle (u.withBus b), h.2]; rfl

theorem State.frame_answered_timePage {s u : State} (h : s.timePage u) (b : BusOut) :
    (u.withBus b).settle =
      { s.regsOf (u.withBus b).settle with
        bus := (u.withBus b).settle.bus, time := (u.withBus b).settle.time,
        tmrA := (u.withBus b).settle.tmrA, tmrB := (u.withBus b).settle.tmrB } := by
  rw [State.regsOf_settle (u.withBus b), h]; rfl

end Sys2Proof.Machine
end

section
/-! The reference clock and the choice of the reference (03_timebase R75, R87, R93). -/

namespace Sys2Proof.Machine

/-! Loss and return of REF_CLK_IN. -/

/-- The words of CLK that a loss of the reference clock writes. -/
def clkStatusWords : List Nat := [R.CLK_S_PLLA_LOCK.addr, evKey eCLK]

/-- FORCE_HOLD and the trigger enable stay as only STATUS and EVENT of CLK change. -/
theorem State.forceHold_of_clkStatus {s t : State} (h : s.writes t clkStatusWords) : t.is R.TIME_C_FORCE_HOLD = s.is R.TIME_C_FORCE_HOLD :=
  State.keeps_is h.1 (by decide +kernel)

theorem State.writes_refLossStatus {s : State} (hq : s.quiet = true) :
    s.writes (s.status R.CLK_S_REF_LOSS true eCLK 4) clkStatusWords :=
  State.writes_status true 4 hq (by decide) (by decide +kernel) (by decide +kernel)

theorem State.is_status_self {s : State} {f : Fld} (b : Bool) (src bit : Nat) (hq : s.quiet = true) (h : f.hi < 32) (hl : f.lo = f.hi)
    (h0 : f.addr ≠ 0x6080) (ha : f.addr % 0x1000 ≠ 0x10) : (s.status f b src bit).is f = b :=
  (State.is_congr (State.get_status b src bit hq h0 ha)).trans (s.is_putB f b h hl)

/-- REF_LOSS, then HOLDOVER: what CLK shows stays as the servo changes state. -/
theorem gives_refLoss {s : State} (hq : s.quiet = true) :
    Gives .refLoss s fun t =>
      t.is R.CLK_S_REF_LOSS = true ∧ t.servo = tHoldover ∧
      t.get R.TIME_SERVO_STATE_HOLD_REASON = (if s.is R.TIME_C_FORCE_HOLD then 3 else 5) ∧
      (!s.is R.CLK_S_REF_LOSS → t.hasEvent eCLK 4 = true) ∧ s.keeps t (servoWords ++ clkStatusWords) ∧
      t = { s.regsOf t with time := t.time } := by
  have hw := State.writes_refLossStatus hq
  have hloss := State.is_status_self (f := R.CLK_S_REF_LOSS) true eCLK 4 hq (by decide) rfl (by decide) (by decide)
  have hev := fun h => State.hasEvent_status (f := R.CLK_S_REF_LOSS) eCLK (bit := 4) hq (by decide) (by decide) h
  have hforce := State.forceHold_of_clkStatus hw
  have hx : exec .refLoss s = done ((s.status R.CLK_S_REF_LOSS true eCLK 4).holdover 5) := rfl
  generalize s.status R.CLK_S_REF_LOSS true eCLK 4 = w at *
  have he := State.entersServo_holdover 5 (State.quiet_of_keeps hw.1 (by decide +kernel) hq)
  have hkeep : w.writesTime (w.holdover 5) servoWords := he.writes_from
  have hall : s.writesTime (w.holdover 5) (servoWords ++ clkStatusWords) :=
    State.writesTime_trans (State.writesTime_mono (State.writesTime_of_writes hw) (by decide +kernel))
      (State.writesTime_mono hkeep (by decide +kernel))
  refine gives_done hx ⟨?_, he.settle.servo, ?_, ?_, State.writesTime_settle hall⟩
  · rw [State.settle_is, State.keeps_is hkeep.1 (by decide +kernel)]; exact hloss
  · rw [he.settle.holdReason, ← hforce]
    simp only [true_or, if_true]
    split <;> rfl
  · intro h
    rw [State.settle_hasEvent, State.hasEvent_congr (hkeep.1 _ (by decide +kernel))]
    exact hev (by simpa using h)

/-- A holdover for the clock alone: its return lets the servo run free (R75). -/
def State.heldByClock (s : State) : Prop :=
  s.servo = tHoldover ∧ s.time.reason = 5 ∧ s.src = 0 ∧ s.is R.TIME_C_FORCE_HOLD = false ∧ s.is R.CLK_S_PLLA_LOCK = true

/-- REF_LOSS has ended. -/
def State.refBack (s : State) : State := s.putB R.CLK_S_REF_LOSS false

theorem State.writes_refBack (s : State) : s.writes s.refBack [R.CLK_S_PLLA_LOCK.addr] := s.writes_put _ (by decide)

theorem State.refLoss_refBack (s : State) : s.refBack.is R.CLK_S_REF_LOSS = false := s.is_putB _ _ (by decide) rfl

theorem State.plla_refBack (s : State) : s.refBack.is R.CLK_S_PLLA_LOCK = s.is R.CLK_S_PLLA_LOCK :=
  State.is_putB_other _ (by decide) (by decide)

theorem State.servo_refBack (s : State) : s.refBack.servo = s.servo := State.keeps_get s.writes_refBack.1 _ (by decide)

theorem State.force_refBack (s : State) : s.refBack.is R.TIME_C_FORCE_HOLD = s.is R.TIME_C_FORCE_HOLD :=
  State.keeps_is s.writes_refBack.1 (by decide)

theorem State.src_refBack (s : State) : s.refBack.src = s.src :=
  State.src_of_writesTime (State.writesTime_of_writes s.writes_refBack) (by decide)

theorem State.refReturnOp_held {s : State} (h : s.heldByClock) : s.refReturnOp = s.refBack.enterServo tFreerun 0 := by
  obtain ⟨hs, hr, hsrc, hf, hl⟩ := h
  have hcond : s.refBack.servo = tHoldover ∧ s.refBack.src = 0 ∧ s.refBack.is R.TIME_C_FORCE_HOLD = false ∧
      s.refBack.is R.CLK_S_REF_LOSS = false ∧ s.refBack.is R.CLK_S_PLLA_LOCK = true :=
    ⟨s.servo_refBack.trans hs, s.src_refBack.trans hsrc, s.force_refBack.trans hf, s.refLoss_refBack, s.plla_refBack.trans hl⟩
  have hr' : s.refBack.time.reason = 5 := hr
  show (if s.refBack.time.reason = 5 then s.refBack.freeReturn else s.refBack) = _
  rw [if_pos hr', State.freeReturn, if_pos hcond]

theorem State.refReturnOp_not_held {s : State} (h : ¬ s.heldByClock) : s.refReturnOp = s.refBack := by
  show (if s.refBack.time.reason = 5 then s.refBack.freeReturn else s.refBack) = _
  split
  · rename_i hr
    refine if_neg fun hc => h ?_
    obtain ⟨hs, hsrc, hf, -, hl⟩ := hc
    exact ⟨s.servo_refBack.symm.trans hs, hr, s.src_refBack.symm.trans hsrc, s.force_refBack.symm.trans hf, s.plla_refBack.symm.trans hl⟩
  · rfl

theorem gives_refReturn_held {s : State} (hq : s.quiet = true) (h : s.heldByClock) :
    Gives .refReturn s fun t =>
      t.is R.CLK_S_REF_LOSS = false ∧ t.servo = tFreerun ∧ t.get R.TIME_SERVO_STATE_HOLD_REASON = 0 ∧
      s.keeps t (servoWords ++ [R.CLK_S_PLLA_LOCK.addr]) ∧ t = { s.regsOf t with time := t.time } := by
  have hx : exec .refReturn s = done (s.refBack.enterServo tFreerun 0) := congrArg done (State.refReturnOp_held h)
  have hw := s.writes_refBack
  have he := (State.entersServo_free (next := tFreerun) 0 (State.quiet_of_keeps hw.1 (by decide) hq)
    (s.force_refBack.trans h.2.2.2.1) (by decide)).settle
  refine gives_done hx ⟨?_, he.servo, he.holdReason, State.writesTime_trans (State.writesTime_mono (State.writesTime_of_writes hw)
    (by decide +kernel)) (State.writesTime_mono he.writes (by decide +kernel))⟩
  rw [State.keeps_is he.writes.1 (by decide +kernel)]
  exact s.refLoss_refBack

theorem gives_refReturn_not_held {s : State} (h : ¬ s.heldByClock) :
    Gives .refReturn s fun t =>
      t.is R.CLK_S_REF_LOSS = false ∧ t.servo = s.servo ∧ s.keeps t [R.CLK_S_PLLA_LOCK.addr] ∧ t = s.regsOf t := by
  have hx : exec .refReturn s = done s.refBack := congrArg done (State.refReturnOp_not_held h)
  refine gives_done hx ⟨?_, ?_, State.writes_trans s.writes_refBack (State.writes_settle _ _)⟩
  · rw [State.settle_is]; exact s.refLoss_refBack
  · rw [State.settle_servo]; exact s.servo_refBack

/-! The source is written. -/

/-- The source has changed, before the servo turns to it: no reference is present. -/
def State.srcDropped (s : State) : State :=
  (s.setTime fun t => { t with ignore := false, acq := [] }).putB R.TIME_S_REF_PRESENT false

theorem State.writesTime_srcDropped (s : State) : s.writesTime s.srcDropped [R.TIME_S_LOCKED.addr] :=
  State.writesTime_trans (s.writesTime_setTime _ _) (State.writesTime_of_writes (State.writes_put _ _ (by decide)))

theorem State.present_srcDropped (s : State) : s.srcDropped.is R.TIME_S_REF_PRESENT = false := State.is_putB _ _ _ (by decide) rfl

/-- Without FORCE_HOLD the servo leaves its state. -/
theorem State.srcWritten_free {s : State} (hq : s.quiet = true) (hf : s.is R.TIME_C_FORCE_HOLD = false) :
    s.writesTime s.srcWritten servoWords ∧
      s.srcWritten.servo = (if steering s.servo then tHoldover else if s.src = 0 then tFreerun else tAcquire) ∧
      (steering s.servo = true → s.srcWritten.get R.TIME_SERVO_STATE_HOLD_REASON = 4) ∧
      s.srcWritten.is R.TIME_S_REF_PRESENT = false := by
  have hw := s.writesTime_srcDropped
  have hp := s.present_srcDropped
  have hservo : s.srcDropped.servo = s.servo := State.keeps_get hw.1 _ (by decide)
  have hsrc : s.srcDropped.src = s.src := State.src_of_writesTime hw (by decide)
  have hforce : s.srcDropped.is R.TIME_C_FORCE_HOLD = false := (State.keeps_is hw.1 (by decide)).trans hf
  have hq' := State.quiet_of_keeps hw.1 (by decide) hq
  have hx : s.srcWritten = if steering s.servo then s.srcDropped.holdover 4
      else if s.src = 0 then s.srcDropped.enterServo tFreerun 0 else s.srcDropped.acquire [] := by
    rw [← hservo, ← hsrc]
    exact if_neg fun h => absurd (hforce.symm.trans h) (by decide)
  have hw' : s.writesTime s.srcDropped servoWords := State.writesTime_mono hw (by decide +kernel)
  rw [hx]
  by_cases hst : steering s.servo = true
  · have he := State.entersServo_holdover 4 hq'
    simp only [hst, if_true, hforce, Bool.false_eq_true, if_false] at he ⊢
    exact ⟨State.writesTime_trans hw' he.writes_from, he.servo, fun _ => he.holdReason, he.present.trans hp⟩
  · simp only [hst, Bool.false_eq_true, if_false]
    by_cases h0 : s.src = 0
    · have he := State.entersServo_free (next := tFreerun) 0 hq' hforce (by decide)
      simp only [h0, if_true]
      exact ⟨State.writesTime_trans hw' he.writes, he.servo, fun h => absurd h (by simp), he.present.trans hp⟩
    · obtain ⟨ha, hv, -, -, hpa⟩ := State.acquire_spec hq' hforce
      simp only [h0, if_false]
      exact ⟨State.writesTime_trans hw' ha, hv, fun h => absurd h (by simp), hpa.trans hp⟩

/-- With it the servo stays. -/
theorem State.srcWritten_forced {s : State} (hf : s.is R.TIME_C_FORCE_HOLD = true) : s.srcWritten = s.srcDropped := by
  have hforce : s.srcDropped.is R.TIME_C_FORCE_HOLD = true := (State.keeps_is s.writesTime_srcDropped.1 (by decide)).trans hf
  exact if_pos hforce

/-- The register REF_SEL. -/
def refSelSpec : RegSpec := ⟨0x80, 1, 4, 0x117, 0, 0, 0, 0, 0x117, 0, 0x117, 0, false, false⟩

theorem regOf_refSel : regOf 0x3080 = some (refSelSpec, 0) := by decide +kernel

/-- The source that a write of v to REF_SEL selects. -/
theorem State.src_stored (s : State) (v : Word) :
    (s.stored 0x3080 refSelSpec v).src = if 5 ≤ v.toNat % 8 then 0 else v.toNat % 8 := by
  have hA : tget zeroAt (s.stored 0x3080 refSelSpec v).tmrA 0x3080 = 0 := by
    rw [State.stored, if_neg (by decide), State.leave_tmrA]
    exact tget_tset_same zeroAt s.tmrA 0x3080 0
  have hb := State.stored_get (s := s) (r := refSelSpec) v (f := R.TIME_REF_SEL_SRC) (by decide) (by decide)
  have h8 : ((s.stored 0x3080 refSelSpec v).majW 0x3080).toNat % 8 = v.toNat % 8 := by
    rw [State.majW_of_tmrA hA]
    simpa [State.get, State.n, R.TIME_REF_SEL_SRC, bits] using hb
  simp only [State.src, h8]

theorem State.hookTime_refSel (s : State) {old v : Nat} (h : old % 8 ≠ v % 8) : s.hookTime 0x80 old v = s.srcWritten := by
  simp [State.hookTime, h]

/-- A write of another source to REF_SEL comes down to the source's change. -/
theorem State.refSelWrite_eq {s : State} {m : Nat} {v : Word} (hk : s.takes m 0x3080 = true)
    (h : (s.majW 0x3080).toNat % 8 ≠ v.toNat % 8) (hp : s.timePage (s.stored 0x3080 refSelSpec v).srcWritten) :
    s.regWrite m 0x3080 v = (s.stored 0x3080 refSelSpec v).srcWritten.withBus (s.told m .ok []) :=
  State.regWrite_time hk rfl (by decide) regOf_refSel (State.hookTime_refSel _ h) hp

theorem gives_refSelWrite_free {s : State} {m : Master} {v : Word} (hk : s.takes m.toNat 0x3080 = true) (hq : s.quiet = true)
    (h : (s.majW 0x3080).toNat % 8 ≠ v.toNat % 8) (hf : s.is R.TIME_C_FORCE_HOLD = false) :
    Gives (.refSelWrite m v) s fun t =>
      t.src = (if 5 ≤ v.toNat % 8 then 0 else v.toNat % 8) ∧
      t.servo = (if steering s.servo then tHoldover else if t.src = 0 then tFreerun else tAcquire) ∧
      (steering s.servo → t.get R.TIME_SERVO_STATE_HOLD_REASON = 4) ∧ t.is R.TIME_S_REF_PRESENT = false ∧
      t.bus = s.told m.toNat .ok [] ∧ s.keeps t (0x3080 :: servoWords) ∧
      t = { s.regsOf t with bus := t.bus, time := t.time, tmrA := t.tmrA, tmrB := t.tmrB } := by
  have hkeep := s.keeps_stored 0x3080 refSelSpec v
  have hservo : (s.stored 0x3080 refSelSpec v).servo = s.servo := State.keeps_get hkeep _ (by decide)
  have hforce := (State.keeps_is hkeep (f := R.TIME_C_FORCE_HOLD) (by decide)).trans hf
  obtain ⟨hw, hv, hr, hp⟩ := State.srcWritten_free (State.quiet_stored v hq (by decide)) hforce
  have hsrc : (s.stored 0x3080 refSelSpec v).srcWritten.src = (s.stored 0x3080 refSelSpec v).src :=
    State.src_of_writesTime hw (by decide +kernel)
  have hpage := State.timePage_stored hw
  have hx : exec (.refSelWrite m v) s = done _ := congrArg done (State.refSelWrite_eq hk h hpage)
  rw [hservo] at hv hr
  refine gives_done hx ⟨?_, ?_, fun hst => ?_, ?_, State.settle_bus _, ?_, State.frame_answered_timePage hpage _⟩
  · rw [State.settle_src, State.withBus_src, hsrc, s.src_stored]
  · rw [State.settle_servo, State.withBus_servo, State.settle_src, State.withBus_src, hsrc, hv]
  · rw [State.settle_get, State.withBus_get]; exact hr hst
  · rw [State.settle_is, State.withBus_is]; exact hp
  · exact State.keeps_answered (State.keeps_append (State.keeps_mono hkeep (by decide +kernel)) (State.keeps_mono hw.1 (by decide +kernel))) _

theorem gives_refSelWrite_forced {s : State} {m : Master} {v : Word} (hk : s.takes m.toNat 0x3080 = true)
    (h : (s.majW 0x3080).toNat % 8 ≠ v.toNat % 8) (hf : s.is R.TIME_C_FORCE_HOLD = true) :
    Gives (.refSelWrite m v) s fun t =>
      t.src = (if 5 ≤ v.toNat % 8 then 0 else v.toNat % 8) ∧ t.servo = s.servo ∧ t.is R.TIME_S_REF_PRESENT = false ∧
      t.bus = s.told m.toNat .ok [] ∧ s.keeps t [0x3080, R.TIME_S_LOCKED.addr] ∧
      t = { s.regsOf t with bus := t.bus, time := t.time, tmrA := t.tmrA, tmrB := t.tmrB } := by
  have hkeep := s.keeps_stored 0x3080 refSelSpec v
  have hw := (s.stored 0x3080 refSelSpec v).writesTime_srcDropped
  have hp := (s.stored 0x3080 refSelSpec v).present_srcDropped
  have hpage := State.timePage_stored hw
  have hforce := (State.keeps_is hkeep (f := R.TIME_C_FORCE_HOLD) (by decide)).trans hf
  have heq := State.refSelWrite_eq hk h
  rw [State.srcWritten_forced hforce] at heq
  have hx : exec (.refSelWrite m v) s = done _ := congrArg done (heq hpage)
  have hall : s.keeps (s.stored 0x3080 refSelSpec v).srcDropped [0x3080, R.TIME_S_LOCKED.addr] :=
    State.keeps_append (State.keeps_mono hkeep (by decide)) (State.keeps_mono hw.1 (by decide))
  refine gives_done hx ⟨?_, ?_, ?_, State.settle_bus _, State.keeps_answered hall _, State.frame_answered_timePage hpage _⟩
  · rw [State.settle_src, State.withBus_src, State.src_of_writesTime hw (by decide), s.src_stored]
  · rw [State.settle_servo, State.withBus_servo]
    exact State.keeps_get hall _ (by decide)
  · rw [State.settle_is, State.withBus_is]; exact hp

/-! FORCE_HOLD is written. -/

/-- The register CTRL of TIME. -/
def timeCtrlSpec : RegSpec := ⟨8, 1, 4, 1, 0, 0, 2, 0, 0, 0, 1, 0, false, false⟩

theorem regOf_timeCtrl : regOf 0x3008 = some (timeCtrlSpec, 0) := by decide +kernel

theorem State.forceHold_stored (s : State) (v : Word) :
    (s.stored 0x3008 timeCtrlSpec v).is R.TIME_C_FORCE_HOLD = bitOf v.toNat 0 := by
  have hg : (s.stored 0x3008 timeCtrlSpec v).get R.TIME_C_FORCE_HOLD = bits v.toNat 0 0 :=
    State.stored_get (f := R.TIME_C_FORCE_HOLD) v (by decide) (by decide)
  rw [State.is, hg]
  exact bits_bit_ne_zero _ 0

/-- A write to CTRL of TIME, u being what FORCE_HOLD and MEAS_FLUSH make of it. -/
theorem State.timeCtrlWrite_eq {s u : State} {m : Nat} {v : Word} (hk : s.takes m 0x3008 = true)
    (hu : (s.stored 0x3008 timeCtrlSpec v).hookTime 8 (s.majW 0x3008).toNat v.toNat = u) (hp : s.timePage u) :
    s.regWrite m 0x3008 v = u.withBus (s.told m .ok []) :=
  State.regWrite_time hk rfl (by decide) regOf_timeCtrl hu hp

theorem State.hookTime_force (s : State) {old v : Nat} (hv : bitOf v 0 = true) (h1 : bitOf v 1 = false) (ho : bitOf old 0 = false) :
    s.hookTime 8 old v = s.holdover 3 := by simp [State.hookTime, State.forceHoldWritten, hv, h1, ho]

theorem State.hookTime_release (s : State) {old v : Nat} (hv : bitOf v 0 = false) (h1 : bitOf v 1 = false) (ho : bitOf old 0 = true) :
    s.hookTime 8 old v = if s.src = 0 then s.enterServo tFreerun 0 else s.acquire [] := by
  simp [State.hookTime, State.forceHoldWritten, hv, h1, ho]

/-- The parts of a write to CTRL that the servo decides. -/
theorem gives_forceHold {s u : State} {m : Master} {v : Word} (hk : s.takes m.toNat 0x3008 = true)
    (hu : (s.stored 0x3008 timeCtrlSpec v).hookTime 8 (s.majW 0x3008).toNat v.toNat = u)
    (hw : (s.stored 0x3008 timeCtrlSpec v).writesTime u servoWords) {P : State → Prop} (hP : P (u.withBus (s.told m.toNat .ok [])).settle) :
    Gives (.forceHold m v) s fun t =>
      t.is R.TIME_C_FORCE_HOLD = bitOf v.toNat 0 ∧ P t ∧ t.bus = s.told m.toNat .ok [] ∧ s.keeps t (0x3008 :: servoWords) ∧
      t = { s.regsOf t with bus := t.bus, time := t.time, tmrA := t.tmrA, tmrB := t.tmrB } := by
  have hpage := State.timePage_stored hw
  have hx : exec (.forceHold m v) s = done _ := congrArg done (State.timeCtrlWrite_eq hk hu hpage)
  have hall : s.keeps u (0x3008 :: servoWords) :=
    State.keeps_append (State.keeps_mono (s.keeps_stored 0x3008 timeCtrlSpec v) (by decide +kernel))
      (State.keeps_mono hw.1 (by decide +kernel))
  refine gives_done hx ⟨?_, hP, State.settle_bus _, State.keeps_answered hall _, State.frame_answered_timePage hpage _⟩
  rw [State.settle_is, State.withBus_is, State.keeps_is hw.1 (by decide +kernel)]
  exact s.forceHold_stored v

theorem gives_forceHold_rise {s : State} {m : Master} {v : Word} (hk : s.takes m.toNat 0x3008 = true) (hq : s.quiet = true)
    (hv : bitOf v.toNat 0 = true) (h1 : bitOf v.toNat 1 = false) (ho : bitOf (s.majW 0x3008).toNat 0 = false) :
    Gives (.forceHold m v) s fun t =>
      t.is R.TIME_C_FORCE_HOLD = bitOf v.toNat 0 ∧ (t.servo = tHoldover ∧ t.get R.TIME_SERVO_STATE_HOLD_REASON = 3) ∧
      t.bus = s.told m.toNat .ok [] ∧ s.keeps t (0x3008 :: servoWords) ∧
      t = { s.regsOf t with bus := t.bus, time := t.time, tmrA := t.tmrA, tmrB := t.tmrB } := by
  have he := State.entersServo_holdover 3 (State.quiet_stored (r := timeCtrlSpec) (a := 0x3008) v hq (by decide))
  rw [s.forceHold_stored, hv, if_pos rfl] at he
  refine gives_forceHold hk (State.hookTime_force _ hv h1 ho) he.writes_from ⟨?_, ?_⟩
  · rw [State.settle_servo, State.withBus_servo]; exact he.servo
  · rw [State.settle_get, State.withBus_get]; exact he.holdReason

theorem gives_forceHold_fall {s : State} {m : Master} {v : Word} (hk : s.takes m.toNat 0x3008 = true) (hq : s.quiet = true)
    (hv : bitOf v.toNat 0 = false) (h1 : bitOf v.toNat 1 = false) (ho : bitOf (s.majW 0x3008).toNat 0 = true) :
    Gives (.forceHold m v) s fun t =>
      t.is R.TIME_C_FORCE_HOLD = bitOf v.toNat 0 ∧ t.servo = (if s.src = 0 then tFreerun else tAcquire) ∧
      t.bus = s.told m.toNat .ok [] ∧ s.keeps t (0x3008 :: servoWords) ∧
      t = { s.regsOf t with bus := t.bus, time := t.time, tmrA := t.tmrA, tmrB := t.tmrB } := by
  have hq' := State.quiet_stored (r := timeCtrlSpec) (a := 0x3008) v hq (by decide)
  have hf := (s.forceHold_stored v).trans hv
  have hsrc : (s.stored 0x3008 timeCtrlSpec v).src = s.src :=
    State.src_of_writesTime (State.writesTime_of_writes (State.writes_stored v rfl)) (by decide)
  have hu := (s.stored 0x3008 timeCtrlSpec v).hookTime_release hv h1 ho
  rw [hsrc] at hu
  by_cases h0 : s.src = 0
  · have he := State.entersServo_free (next := tFreerun) 0 hq' hf (by decide)
    rw [if_pos h0] at hu ⊢
    refine gives_forceHold hk hu he.writes (P := fun t => t.servo = tFreerun) ?_
    rw [State.settle_servo, State.withBus_servo]; exact he.servo
  · obtain ⟨hw, hs, -⟩ := State.acquire_spec hq' hf
    rw [if_neg h0] at hu ⊢
    refine gives_forceHold hk hu hw (P := fun t => t.servo = tAcquire) ?_
    rw [State.settle_servo, State.withBus_servo]; exact hs

/-- Settles O8: each clause is the rule of its command. -/
theorem references : Obligations.References := by
  unfold Obligations.References
  refine ⟨?_, ?_, ?_, ?_, ?_, ?_, ?_⟩
  · intro s hq
    exact gives_refLoss hq
  · intro s hq hs hr hsrc hf hl
    exact gives_refReturn_held hq ⟨hs, hr, hsrc, hf, hl⟩
  · intro s h
    refine gives_refReturn_not_held fun hc => ?_
    obtain ⟨hs, hr, hsrc, hf, hl⟩ := hc
    simp [hs, hr, hsrc, hf, hl] at h
  · intro s m v hk hq h hf
    exact gives_refSelWrite_free hk hq h hf
  · intro s m v hk _ h hf
    exact gives_refSelWrite_forced hk h hf
  · intro s m v hk hq hv h1 ho
    obtain ⟨t, hx, hf, ⟨hs, hr⟩, hrest⟩ := gives_forceHold_rise hk hq hv (by simpa using h1) (by simpa using ho)
    exact ⟨t, hx, hf.trans hv, hs, hr, hrest⟩
  · intro s m v hk hq hv h1 ho
    have hv' : bitOf v.toNat 0 = false := by simpa using hv
    obtain ⟨t, hx, hf, hrest⟩ := gives_forceHold_fall hk hq hv' (by simpa using h1) ho
    exact ⟨t, hx, hf.trans hv', hrest⟩

end Sys2Proof.Machine
end

section
/-! Slews (03_timebase R96, R97): without a phase to remove the servo tracks at once; a positive phase is removed at a rate that is
positive in its direction, over at least one sheet. -/

namespace Sys2Proof.Machine

theorem rndDiv_le_neg_one {v d : Int} (hd : 0 < d) (h : v ≤ -d) : rndDiv v d ≤ -1 := by
  have hv : ¬ 0 ≤ v := by omega
  have h1 : 1 ≤ (2 * -v + d) / (2 * d) := Int.le_ediv_of_mul_le (by omega) (by omega)
  rw [rndDiv, if_neg hv]
  omega

theorem rndRat_le_neg_one {q : Rat} (h : q ≤ -1) : rndRat q ≤ -1 := by
  have hd : (0 : Rat) < q.den := by exact_mod_cast q.den_pos
  have hn : (q.num : Rat) ≤ -(q.den : Rat) := by
    have hq := Rat.num_div_den q
    rw [div_eq_iff hd.ne'] at hq
    rw [hq]; nlinarith
  exact rndDiv_le_neg_one (by exact_mod_cast q.den_pos) (by exact_mod_cast hn)

/-- The slew rate is at least 100 ppb. -/
theorem State.slewRate_ge (s : State) : 100 ≤ s.slewRate := by
  unfold State.slewRate
  split
  · have h : 100 ≤ clampN 10 500 (s.get R.TIME_SLEW_CFG_ACQ_SLEW) * 1000 := by unfold clampN; omega
    exact_mod_cast h
  · have h : 100 ≤ clampN 1 500 (s.get R.TIME_SLEW_CFG_SLEW_LIM) * 100 := by unfold clampN; omega
    exact_mod_cast h

/-- A positive phase takes a positive rate at least one sheet to remove. -/
theorem slewSheets_pos {th : Int} {r : Rat} (ht : 0 < th) (hr : 0 < r) : 0 < slewSheets th r := by
  have hu : (0 : Rat) < (uSheet : Rat) := by norm_num [uSheet]
  have hth : (0 : Rat) < (th.natAbs : Rat) := by exact_mod_cast Int.natAbs_pos.mpr ht.ne'
  have hq : (0 : Rat) < (th.natAbs : Rat) * 1000000000 / (uSheet * r) := by positivity
  have hc : ¬ Rat.ceil ((th.natAbs : Rat) * 1000000000 / (uSheet * r)) ≤ 0 := fun h => by
    have := Rat.ceil_le_iff.mp h
    push_cast at this
    linarith
  unfold slewSheets
  omega

/-- The rate in which the phase goes, from a y that is limited and rounded, is positive where the wanted one is at least 100 ppb. -/
theorem limitedRate_pos {r : Rat} (hr : 100 ≤ r) : 0 < -((clampI (-yLimit) yLimit (yOfPpb (-r)) : Rat) * 1000 / 65536) := by
  have hy : yOfPpb (-r) ≤ -1 := rndRat_le_neg_one (by linarith)
  have hc : clampI (-yLimit) yLimit (yOfPpb (-r)) ≤ -1 := by
    unfold clampI
    exact max_le (by decide) ((min_le_right _ _).trans hy)
  have hq : (clampI (-yLimit) yLimit (yOfPpb (-r)) : Rat) ≤ -1 := by exact_mod_cast hc
  linarith

theorem State.startSlew_zero {s : State} (acqRate : Bool) (h : s.time.theta = 0) :
    s.startSlew acqRate = (s.setTime fun t => { t with slewAcq := acqRate, yLoop := -t.integ }).enterServo tTrack 0 := if_pos h

theorem State.startSlew_pos {s : State} (acqRate : Bool) (hi : s.time.integ = 0) (h : 0 < s.time.theta) :
    ∃ n, 0 < n ∧ s.startSlew acqRate =
      (s.setTime fun t => { t with slewAcq := acqRate, slewEnd := s.slot + n }).enterServo tSlewing 0 := by
  have hsign : (s.time.theta.sign : Rat) = 1 := by rw [Int.sign_eq_one_of_pos h]; rfl
  have hrate := limitedRate_pos (s.setTime fun t => { t with slewAcq := acqRate }).slewRate_ge
  unfold State.startSlew
  generalize hw : s.setTime (fun t => { t with slewAcq := acqRate }) = w at *
  have hwi : w.time.integ = 0 := by rw [← hw]; exact hi
  have hwt : w.time.theta = s.time.theta := by rw [← hw]; rfl
  simp only [hwt, hwi, hsign, one_mul, mul_one, neg_zero, zero_sub, add_zero, if_neg h.ne', not_le.mpr hrate, not_lt.mpr hrate.le,
    if_false]
  exact ⟨_, slewSheets_pos h hrate, by rw [← hw]; rfl⟩

end Sys2Proof.Machine
end

section
/-! The measurement FIFO (03_timebase R90, R109) and the other commands that TIME's registers give. -/

namespace Sys2Proof.Machine

/-! Commands of TIME. -/

/-- A write to a register of TIME that is not triplicated: u is what its command makes of the stored word. -/
theorem gives_timeWrite {c : Instr} {s u : State} {m a i : Nat} {r : RegSpec} {v : Word} {ks : List Nat} {P : State → Prop}
    (hx : exec c s = done (s.regWrite m a v)) (hk : s.takes m a = true) (ha : a / 0x1000 = 3)
    (ho : a % 0x1000 = 8 ∨ 0x80 ≤ a % 0x1000) (hr : regOf a = some (r, i)) (ht : r.tmr = 0)
    (hu : (s.stored a r v).hookTime (a % 0x1000) (s.majW a).toNat v.toNat = u) (hw : (s.stored a r v).writesTime u ks)
    (hP : P (u.withBus (s.told m .ok [])).settle) :
    Gives c s fun t =>
      P t ∧ t.bus = s.told m .ok [] ∧ s.keeps t (a :: ks) ∧ t = { s.regsOf t with bus := t.bus, time := t.time } := by
  have hall : s.writesTime u (a :: ks) :=
    State.writesTime_trans (State.writesTime_of_writes (State.writes_mono (State.writes_stored v ht) (by simp)))
      (State.writesTime_mono hw fun k hk => List.mem_cons_of_mem _ hk)
  exact gives_done (hx.trans (congrArg done (State.regWrite_time hk ha ho hr hu (State.timePage_of_writesTime hall))))
    ⟨hP, State.settle_bus _, State.keeps_answered hall.1 _, State.frame_answered_time hall _⟩

/-- The same where the command leaves TIME as it is. -/
theorem gives_timeWords {c : Instr} {s u : State} {m a i : Nat} {r : RegSpec} {v : Word} {ks : List Nat} {P : State → Prop}
    (hx : exec c s = done (s.regWrite m a v)) (hk : s.takes m a = true) (ha : a / 0x1000 = 3)
    (ho : a % 0x1000 = 8 ∨ 0x80 ≤ a % 0x1000) (hr : regOf a = some (r, i)) (ht : r.tmr = 0)
    (hu : (s.stored a r v).hookTime (a % 0x1000) (s.majW a).toNat v.toNat = u) (hw : (s.stored a r v).writes u ks)
    (hP : P (u.withBus (s.told m .ok [])).settle) :
    Gives c s fun t => P t ∧ t.bus = s.told m .ok [] ∧ s.keeps t (a :: ks) ∧ t = { s.regsOf t with bus := t.bus } := by
  have hall : s.writes u (a :: ks) :=
    State.writes_trans (State.writes_mono (State.writes_stored v ht) (by simp))
      (State.writes_mono hw fun k hk => List.mem_cons_of_mem _ hk)
  exact gives_done
    (hx.trans (congrArg done (State.regWrite_time hk ha ho hr hu (State.timePage_of_writesTime (State.writesTime_of_writes hall)))))
    ⟨hP, State.settle_bus _, State.keeps_answered hall.1 _, State.frame_bus_settle hall.2 _⟩

/-! MEAS_PUSH and MEAS_FLUSH. -/

/-- The register MEAS_PUSH. -/
def measPushSpec : RegSpec := ⟨0x240, 1, 4, 0, 0, 0, 1, 0, 0, 0, 0, 0, false, false⟩

theorem regOf_measPush : regOf 0x3240 = some (measPushSpec, 0) := by decide +kernel

theorem State.hookTime_measPush (s : State) (old : Nat) : s.hookTime 0x240 old (1 : Word).toNat = s.measPushOp := by
  simp [State.hookTime, bitOf]

/-- The record window is that of the words before its push. -/
theorem State.measRecord_congr {s t : State} (h : ∀ i < 16, t.n (0x3200 + 4 * i) = s.n (0x3200 + 4 * i)) :
    t.measRecord = s.measRecord := by
  have hl : (List.range 16).flatMap (fun i => leBytes 4 (t.n (0x3200 + 4 * i))) =
      (List.range 16).flatMap (fun i => leBytes 4 (s.n (0x3200 + 4 * i))) := by
    rw [List.flatMap_def, List.flatMap_def, List.map_congr_left fun i hi => by rw [h i (List.mem_range.mp hi)]]
  simp only [State.measRecord, hl]

/-- A record stands behind the others of the FIFO, and MEAS_LEVEL follows. -/
def State.recordQueued (s : State) (r : MeasRec) : State :=
  (s.setTime fun t => { t with fifo := t.fifo ++ [r] }).put R.TIME_MEAS_LEVEL_LEVEL (s.time.fifo.length + 1)

theorem State.measPushOp_queued {s : State} (h : s.time.fifo.length < 8) : s.measPushOp = s.recordQueued s.measRecord := by
  have hl : (s.time.fifo ++ [s.measRecord]).length = s.time.fifo.length + 1 := by simp
  rw [State.measPushOp, if_neg (by omega), State.recordQueued, ← hl]
  rfl

theorem State.writesTime_recordQueued (s : State) (r : MeasRec) : s.writesTime (s.recordQueued r) [R.TIME_MEAS_LEVEL_LEVEL.addr] :=
  State.writesTime_trans (s.writesTime_setTime _ _) (State.writesTime_of_writes (State.writes_put _ _ (by decide)))

theorem State.level_recordQueued {s : State} (r : MeasRec) (h : s.time.fifo.length < 8) :
    (s.recordQueued r).get R.TIME_MEAS_LEVEL_LEVEL = s.time.fifo.length + 1 := by
  rw [State.recordQueued, State.get_put_same _ _ _ (by decide) (by decide)]
  exact Nat.mod_eq_of_lt (by simp only [R.TIME_MEAS_LEVEL_LEVEL]; omega)

theorem gives_measPush_queued {s : State} {m : Master} (hk : s.takes m.toNat 0x3240 = true) (hl : s.time.fifo.length < 8) :
    Gives (.measPush m) s fun t =>
      (t.time = { s.time with fifo := s.time.fifo ++ [s.measRecord] } ∧ t.get R.TIME_MEAS_LEVEL_LEVEL = s.time.fifo.length + 1) ∧
      t.bus = s.told m.toNat .ok [] ∧ s.keeps t [0x3240, R.TIME_MEAS_LEVEL_LEVEL.addr] ∧
      t = { s.regsOf t with bus := t.bus, time := t.time } := by
  have htime := s.stored_time 0x3240 measPushSpec 1
  have hrec : (s.stored 0x3240 measPushSpec 1).measRecord = s.measRecord := State.measRecord_congr fun i hi =>
    State.keeps_n (s.keeps_stored _ _ _) (by rw [List.mem_singleton]; omega)
  have hu := State.measPushOp_queued (s := s.stored 0x3240 measPushSpec 1) (by rw [htime]; exact hl)
  refine gives_timeWrite rfl hk rfl (by decide) regOf_measPush rfl ((State.hookTime_measPush _ _).trans hu)
    (State.writesTime_recordQueued _ _) ⟨?_, ?_⟩
  · rw [State.settle_time, State.withBus_time, hrec, ← htime]; rfl
  · rw [State.settle_get, State.withBus_get, State.level_recordQueued _ (by rw [htime]; exact hl), htime]

/-- A record is lost to a full FIFO, and counted. -/
def State.recordLost (s : State) : State := (s.addW R.TIME_MEAS_OVF_COUNT 1).latch eTIME 5

theorem State.measPushOp_full {s : State} (h : 8 ≤ s.time.fifo.length) : s.measPushOp = s.recordLost := if_pos h

theorem State.recordLost_spec {s : State} (hq : s.quiet = true) :
    s.writes s.recordLost [R.TIME_MEAS_OVF_COUNT.addr, evKey eTIME] ∧
      s.recordLost.get R.TIME_MEAS_OVF_COUNT = (s.get R.TIME_MEAS_OVF_COUNT + 1) % 2 ^ 32 ∧ s.recordLost.hasEvent eTIME 5 = true := by
  have hq' : (s.addW R.TIME_MEAS_OVF_COUNT 1).quiet = true := State.quiet_of_keeps (s.keeps_put _ _) (by decide) hq
  have hput : s.writes (s.addW R.TIME_MEAS_OVF_COUNT 1) [R.TIME_MEAS_OVF_COUNT.addr, evKey eTIME] := s.writes_put _ (by simp)
  refine ⟨State.writes_trans hput (State.writes_latch 5 hq' (by simp)), ?_, State.hasEvent_latch _ _ _ (by decide) hq'⟩
  rw [State.recordLost, State.get_latch _ _ hq' (by decide), State.get_addW _ _ _ (by decide) (by decide)]
  rfl

theorem gives_measPush_full {s : State} {m : Master} (hk : s.takes m.toNat 0x3240 = true) (hl : 8 ≤ s.time.fifo.length)
    (hq : s.quiet = true) :
    Gives (.measPush m) s fun t =>
      (t.get R.TIME_MEAS_OVF_COUNT = (s.get R.TIME_MEAS_OVF_COUNT + 1) % 2 ^ 32 ∧ t.hasEvent eTIME 5 = true) ∧
      t.bus = s.told m.toNat .ok [] ∧ s.keeps t [0x3240, R.TIME_MEAS_OVF_COUNT.addr, evKey eTIME] ∧
      t = { s.regsOf t with bus := t.bus } := by
  have htime := s.stored_time 0x3240 measPushSpec 1
  have hcnt : (s.stored 0x3240 measPushSpec 1).get R.TIME_MEAS_OVF_COUNT = s.get R.TIME_MEAS_OVF_COUNT :=
    State.keeps_get (s.keeps_stored _ _ _) _ (by decide)
  have hu := State.measPushOp_full (s := s.stored 0x3240 measPushSpec 1) (by rw [htime]; exact hl)
  obtain ⟨hw, hc, he⟩ := State.recordLost_spec (State.quiet_stored (r := measPushSpec) (a := 0x3240) 1 hq (by decide))
  refine gives_timeWords rfl hk rfl (by decide) regOf_measPush rfl ((State.hookTime_measPush _ _).trans hu) hw ⟨?_, ?_⟩
  · rw [State.settle_get, State.withBus_get, hc, hcnt]
  · rw [State.settle_hasEvent, State.withBus_hasEvent, he]

theorem State.hookTime_flush (s : State) {old v : Nat} (hv : bitOf v 1 = true) (h0 : bitOf v 0 = false) (ho : bitOf old 0 = false) :
    s.hookTime 8 old v = s.measFlushOp := by simp [State.hookTime, State.forceHoldWritten, hv, h0, ho]

theorem State.writesTime_measFlushOp (s : State) : s.writesTime s.measFlushOp [R.TIME_MEAS_LEVEL_LEVEL.addr] :=
  State.writesTime_trans (s.writesTime_setTime _ _) (State.writesTime_of_writes (State.writes_put _ _ (by decide)))

theorem State.level_measFlushOp (s : State) : s.measFlushOp.get R.TIME_MEAS_LEVEL_LEVEL = 0 :=
  State.get_put_same _ _ _ (by decide) (by decide)

theorem gives_measFlush {s : State} {m : Master} {v : Word} (hk : s.takes m.toNat 0x3008 = true) (hv : bitOf v.toNat 1 = true)
    (h0 : bitOf v.toNat 0 = false) (ho : bitOf (s.majW 0x3008).toNat 0 = false) :
    Gives (.measFlush m v) s fun t =>
      (t.time = { s.time with fifo := [] } ∧ t.get R.TIME_MEAS_LEVEL_LEVEL = 0) ∧ t.bus = s.told m.toNat .ok [] ∧
      s.keeps t [0x3008, R.TIME_MEAS_LEVEL_LEVEL.addr] ∧ t = { s.regsOf t with bus := t.bus, time := t.time } := by
  refine gives_timeWrite rfl hk rfl (by decide) regOf_timeCtrl rfl (State.hookTime_flush _ hv h0 ho) (State.writesTime_measFlushOp _)
    ⟨?_, ?_⟩
  · rw [State.settle_time, State.withBus_time, ← s.stored_time 0x3008 timeCtrlSpec v]; rfl
  · rw [State.settle_get, State.withBus_get, State.level_measFlushOp]

end Sys2Proof.Machine
end

section
/-! Loss and return of the selected source, acquisition and the end of a slew (03_timebase R93, R94, R96). -/

namespace Sys2Proof.Machine

/-! Loss. -/

/-- The source has gone. -/
def State.refGone (s : State) : State := s.putB R.TIME_S_REF_PRESENT false

theorem State.writes_refGone (s : State) : s.writes s.refGone [R.TIME_S_REF_PRESENT.addr] := s.writes_put _ (by decide)

theorem State.present_refGone (s : State) : s.refGone.is R.TIME_S_REF_PRESENT = false := s.is_putB _ _ (by decide) rfl

theorem State.servo_refGone (s : State) : s.refGone.servo = s.servo := State.keeps_get s.writes_refGone.1 _ (by decide)

theorem State.sourceLossOp_none {s : State}
    (h : s.src = 0 ∨ s.src = 1 ∧ s.slot < s.time.lastSync + 8 * max 1 (s.get R.TIME_LOSS_TIMEOUT_MS)) : s.sourceLossOp = s := by
  rw [State.sourceLossOp]
  rcases h with h0 | h1
  · rw [if_pos h0]
  · rw [if_neg (by omega), if_pos h1]

/-- A loss that is one: PTP after its timeout, or a source that gives a clock. -/
theorem State.sourceLossOp_lost {s : State}
    (h : s.src = 1 ∧ s.time.lastSync + 8 * max 1 (s.get R.TIME_LOSS_TIMEOUT_MS) ≤ s.slot ∨ s.src = 2 ∨ s.src = 3) :
    s.sourceLossOp =
      if steering s.servo then s.refGone.holdover 1
      else if s.servo = tAcquire then s.refGone.setTime fun t => { t with acq := [] } else s.refGone := by
  rw [State.sourceLossOp, if_neg (by omega), if_neg (by omega), if_neg (by omega), ← s.servo_refGone]
  rfl

theorem gives_sourceLoss_ptp {s : State} (hq : s.quiet = true) (hsrc : s.src = 1)
    (hl : s.time.lastSync + 8 * max 1 (s.get R.TIME_LOSS_TIMEOUT_MS) ≤ s.slot) (hst : steering s.servo = true)
    (hf : s.is R.TIME_C_FORCE_HOLD = false) :
    Gives .sourceLoss s fun t =>
      t.is R.TIME_S_REF_PRESENT = false ∧ t.servo = tHoldover ∧ t.get R.TIME_SERVO_STATE_HOLD_REASON = 1 ∧
      s.keeps t servoWords ∧ t = { s.regsOf t with time := t.time } := by
  have hx : exec .sourceLoss s = done (s.refGone.holdover 1) :=
    congrArg done ((State.sourceLossOp_lost (Or.inl ⟨hsrc, hl⟩)).trans (if_pos hst))
  have hw := s.writes_refGone
  have he := State.entersServo_holdover 1 (State.quiet_of_keeps hw.1 (by decide) hq)
  rw [if_neg (by rw [State.keeps_is hw.1 (by decide), hf]; decide)] at he
  exact gives_done hx ⟨he.settle.present.trans s.present_refGone, he.settle.servo, he.settle.holdReason,
    State.writesTime_trans (State.writesTime_of_writes (State.writes_mono hw (by decide +kernel))) he.settle.writes_from⟩

theorem gives_sourceLoss_acquire {s : State} (hsrc : s.src = 2 ∨ s.src = 3) (hs : s.servo = tAcquire) :
    Gives .sourceLoss s fun t =>
      t.is R.TIME_S_REF_PRESENT = false ∧ t.time = { s.time with acq := [] } ∧ s.keeps t [R.TIME_S_REF_PRESENT.addr] ∧
      t = { s.regsOf t with time := t.time } := by
  have hx : exec .sourceLoss s = done (s.refGone.setTime fun t => { t with acq := [] }) := by
    refine congrArg done ((State.sourceLossOp_lost (Or.inr hsrc)).trans ?_)
    rw [hs]; rfl
  have hw : s.writesTime (s.refGone.setTime fun t => { t with acq := [] }) [R.TIME_S_REF_PRESENT.addr] :=
    State.writesTime_trans (State.writesTime_of_writes s.writes_refGone) (State.writesTime_setTime _ _ _)
  refine gives_done hx ⟨?_, ?_, State.writesTime_settle hw⟩
  · rw [State.settle_is]; exact s.present_refGone
  · rw [State.settle_time]; rfl

theorem gives_sourceLoss_none {s : State}
    (h : s.src = 0 ∨ s.src = 1 ∧ s.slot < s.time.lastSync + 8 * max 1 (s.get R.TIME_LOSS_TIMEOUT_MS)) :
    Gives .sourceLoss s fun t => s.keeps t [] ∧ t = s.regsOf t :=
  gives_done (congrArg done (State.sourceLossOp_none h) : exec .sourceLoss s = done s) (s.writes_settle [])

/-! Return. -/

/-- The source is present, since now where it was not. -/
def State.refFound (s : State) : State :=
  (s.setTime fun t => { t with acqSince := if s.is R.TIME_S_REF_PRESENT then t.acqSince else s.slot }).putB R.TIME_S_REF_PRESENT true

theorem State.writesTime_refFound (s : State) : s.writesTime s.refFound [R.TIME_S_REF_PRESENT.addr] :=
  State.writesTime_trans (s.writesTime_setTime _ _) (State.writesTime_of_writes (State.writes_put _ _ (by decide)))

theorem State.present_refFound (s : State) : s.refFound.is R.TIME_S_REF_PRESENT = true := State.is_putB _ _ _ (by decide) rfl

theorem State.servo_refFound (s : State) : s.refFound.servo = s.servo := State.keeps_get s.writesTime_refFound.1 _ (by decide)

theorem State.force_refFound (s : State) : s.refFound.is R.TIME_C_FORCE_HOLD = s.is R.TIME_C_FORCE_HOLD :=
  State.keeps_is s.writesTime_refFound.1 (by decide)

theorem State.sourceReturnOp_found {s : State} (h : s.src = 2 ∨ s.src = 3) :
    s.sourceReturnOp =
      if s.servo = tHoldover ∧ s.is R.TIME_C_FORCE_HOLD = false ∧ s.time.ignore = false then s.refFound.acquire [] else s.refFound := by
  have hset : (if s.is R.TIME_S_REF_PRESENT then s else s.setTime fun t => { t with acqSince := s.slot }) =
      s.setTime fun t => { t with acqSince := if s.is R.TIME_S_REF_PRESENT then t.acqSince else s.slot } := by
    split <;> rfl
  rw [← s.servo_refFound, ← s.force_refFound]
  rw [State.sourceReturnOp, if_pos h, hset]
  rfl

theorem gives_sourceReturn_acquire {s : State} (hq : s.quiet = true) (hsrc : s.src = 2 ∨ s.src = 3) (hs : s.servo = tHoldover)
    (hf : s.is R.TIME_C_FORCE_HOLD = false) (hi : s.time.ignore = false) :
    Gives .sourceReturn s fun t =>
      t.is R.TIME_S_REF_PRESENT = true ∧ t.servo = tAcquire ∧ t.time.acq = [] ∧ t.time.acqSince = s.slot ∧
      s.keeps t servoWords ∧ t = { s.regsOf t with time := t.time } := by
  have hx : exec .sourceReturn s = done (s.refFound.acquire []) :=
    congrArg done ((State.sourceReturnOp_found hsrc).trans (if_pos ⟨hs, hf, hi⟩))
  have hw := s.writesTime_refFound
  obtain ⟨hw', hs', ha, hsince, hp⟩ :=
    State.acquire_spec (State.quiet_of_keeps hw.1 (by decide) hq) (s.force_refFound.trans hf)
  refine gives_done hx ⟨?_, ?_, ?_, ?_, State.writesTime_settle (State.writesTime_trans (State.writesTime_mono hw (by decide +kernel)) hw')⟩
  · rw [State.settle_is, hp, s.present_refFound]
  · rw [State.settle_servo, hs']
  · rw [State.settle_time, ha]
  · rw [State.settle_time, hsince]; exact State.slot_of_writesTime hw

theorem gives_sourceReturn_stays {s : State} (hsrc : s.src = 2 ∨ s.src = 3)
    (h : s.servo ≠ tHoldover ∨ s.is R.TIME_C_FORCE_HOLD = true ∨ s.time.ignore = true) :
    Gives .sourceReturn s fun t =>
      t.is R.TIME_S_REF_PRESENT = true ∧ t.servo = s.servo ∧
      t.time = { s.time with acqSince := if s.is R.TIME_S_REF_PRESENT then s.time.acqSince else s.slot } ∧
      s.keeps t [R.TIME_S_REF_PRESENT.addr] ∧ t = { s.regsOf t with time := t.time } := by
  have hx : exec .sourceReturn s = done s.refFound := by
    refine congrArg done ((State.sourceReturnOp_found hsrc).trans (if_neg fun hc => ?_))
    obtain ⟨hs, hf, hi⟩ := hc
    simp [hs, hf, hi] at h
  refine gives_done hx ⟨?_, ?_, ?_, State.writesTime_settle s.writesTime_refFound⟩
  · rw [State.settle_is]; exact s.present_refFound
  · rw [State.settle_servo]; exact s.servo_refFound
  · rw [State.settle_time]; rfl

/-! Acquisition from a word clock. -/

/-- The frequency error and the phase are taken, and the device is anchored. -/
def State.clockMeasured (s : State) (f th : Int) : State :=
  ((s.setTime fun t => { t with integ := f }).reportTheta th).putB R.TIME_SERVO_STATE_ANCHORED true

/-- The words in which the measured phase and the anchoring show. -/
def measuredWords : List Nat := [0x30E0, 0x30E4, R.TIME_SERVO_STATE_STATE.addr]

theorem State.writesTime_reportTheta (s : State) (th : Int) {ks : List Nat} (h : 0x30E0 ∈ ks) (h' : 0x30E4 ∈ ks) :
    s.writesTime (s.reportTheta th) ks :=
  State.writesTime_trans (s.writesTime_setTime _ _) (State.writesTime_of_writes (State.writes_set64 _ _ h h'))

theorem State.writesTime_clockMeasured (s : State) (f th : Int) : s.writesTime (s.clockMeasured f th) measuredWords :=
  State.writesTime_trans (State.writesTime_trans (s.writesTime_setTime _ _)
    (State.writesTime_reportTheta _ th (by decide) (by decide))) (State.writesTime_of_writes (State.writes_put _ _ (by decide)))

theorem State.anchored_clockMeasured (s : State) (f th : Int) : (s.clockMeasured f th).anchored = true :=
  State.is_putB _ _ _ (by decide) rfl

theorem State.get64_set64 (s : State) (lo v : Nat) : (s.set64 lo v).get64 lo = v % 2 ^ 64 := by
  have h0 : (s.set64 lo v).n lo = v % 2 ^ 32 := by
    rw [State.set64, State.setN, State.setW_n_other _ _ _ _ (by omega)]
    simp [State.n, w32]
  have h4 : (s.set64 lo v).n (lo + 4) = v / 2 ^ 32 % 2 ^ 32 := by simp [State.set64, State.setN, State.n, w32]
  rw [State.get64, h0, h4]
  omega

theorem State.get64_congr {s t : State} {ks : List Nat} (h : s.keeps t ks) {k : Nat} (h0 : k ∉ ks) (h4 : k + 4 ∉ ks) :
    t.get64 k = s.get64 k := by simp only [State.get64, State.keeps_n h h0, State.keeps_n h h4]

theorem State.offset_clockMeasured (s : State) (f : Int) : (s.clockMeasured f 0).get64 0x30E0 = 0 := by
  rw [State.clockMeasured, State.putB, State.get64_congr (State.keeps_put _ _ _) (by decide) (by decide), State.reportTheta,
    State.get64_set64]
  rfl

theorem State.wclkAcquireOp_complete {s : State} (f lead : Int) (hsrc : s.src = 2 ∨ s.src = 3) (hs : s.servo = tAcquire)
    (hp : s.is R.TIME_S_REF_PRESENT = true) (hi : s.time.ignore = false) (h64 : s.time.acqSince + 64 ≤ s.slot) :
    s.wclkAcquireOp f lead = (s.clockMeasured f (s.edgeTheta lead)).startSlew true := if_pos ⟨hs, hsrc, hp, hi, h64⟩

/-- Entering a state of the loop or the slew from what the measurement leaves. -/
theorem State.entersServo_measured {s : State} (f th : Int) (g : TimeSt → TimeSt) {next : Nat} (hq : s.quiet = true)
    (hf : s.is R.TIME_C_FORCE_HOLD = false) (hn : next < 8) :
    ∃ r, ((s.clockMeasured f th).setTime g).EntersServo (((s.clockMeasured f th).setTime g).enterServo next 0) next r ∧
      s.writesTime (((s.clockMeasured f th).setTime g).enterServo next 0) (servoWords ++ [0x30E0, 0x30E4]) := by
  have hw := s.writesTime_clockMeasured f th
  have hw' : s.writesTime ((s.clockMeasured f th).setTime g) measuredWords := State.writesTime_trans hw (State.writesTime_setTime _ _ _)
  have he := State.entersServo_free 0 (State.quiet_of_keeps hw'.1 (by decide) hq) ((State.keeps_is hw'.1 (by decide)).trans hf) hn
  exact ⟨_, he, State.writesTime_trans (State.writesTime_mono hw' (by decide +kernel)) (State.writesTime_mono he.writes (by decide +kernel))⟩

theorem gives_wclkAcquire_tracks {s : State} {f th : Int} (hq : s.quiet = true) (hsrc : s.src = 2 ∨ s.src = 3)
    (hs : s.servo = tAcquire) (hp : s.is R.TIME_S_REF_PRESENT = true) (h64 : s.time.acqSince + 64 ≤ s.slot) (hth : s.edgeTheta th = 0)
    (hf : s.is R.TIME_C_FORCE_HOLD = false) (hi : s.time.ignore = false) :
    Gives (.wclkAcquireComplete f th) s fun t =>
      t.anchored = true ∧ t.servo = tTrack ∧ t.time.integ = f ∧ t.time.yLoop = -f ∧ t.get64 0x30E0 = 0 ∧
      s.keeps t (servoWords ++ [0x30E0, 0x30E4]) ∧ t = { s.regsOf t with time := t.time } := by
  have hop := State.wclkAcquireOp_complete f th hsrc hs hp hi h64
  rw [hth, State.startSlew_zero true rfl] at hop
  have hx : exec (.wclkAcquireComplete f th) s = done _ := congrArg done hop
  obtain ⟨r, he, hw⟩ := State.entersServo_measured f 0 (fun t => { t with slewAcq := true, yLoop := -t.integ }) hq hf
    (next := tTrack) (by decide)
  have he' := he.settle
  refine gives_done hx ⟨he'.anchored.trans (s.anchored_clockMeasured f 0), he'.servo, (congrArg TimeSt.integ he'.time :),
    (congrArg TimeSt.yLoop he'.time :), ?_, State.writesTime_settle hw⟩
  rw [State.get64_congr he'.writes.1 (by decide +kernel) (by decide +kernel)]
  exact s.offset_clockMeasured f

theorem gives_wclkAcquire_slews {s : State} {th : Int} (hq : s.quiet = true) (hsrc : s.src = 2 ∨ s.src = 3)
    (hs : s.servo = tAcquire) (hp : s.is R.TIME_S_REF_PRESENT = true) (h64 : s.time.acqSince + 64 ≤ s.slot) (hth : 0 < s.edgeTheta th)
    (hf : s.is R.TIME_C_FORCE_HOLD = false) (hi : s.time.ignore = false) :
    Gives (.wclkAcquireComplete 0 th) s fun t =>
      t.anchored = true ∧ t.servo = tSlewing ∧ t.time.theta = s.edgeTheta th ∧ s.slot < t.time.slewEnd ∧
      s.keeps t (servoWords ++ [0x30E0, 0x30E4]) ∧ t = { s.regsOf t with time := t.time } := by
  have hop := State.wclkAcquireOp_complete 0 th hsrc hs hp hi h64
  have htheta : (s.clockMeasured 0 (s.edgeTheta th)).time.theta = s.edgeTheta th := rfl
  have hinteg : (s.clockMeasured 0 (s.edgeTheta th)).time.integ = 0 := Int.cast_zero
  have hslot : (s.clockMeasured 0 (s.edgeTheta th)).slot = s.slot := rfl
  have hanch := s.anchored_clockMeasured 0 (s.edgeTheta th)
  have hent := fun g => State.entersServo_measured 0 (s.edgeTheta th) g hq hf (next := tSlewing) (by decide)
  generalize s.clockMeasured 0 (s.edgeTheta th) = w at *
  obtain ⟨n, hn, hslew⟩ := State.startSlew_pos (s := w) true hinteg (by rw [htheta]; exact hth)
  rw [hslew] at hop
  have hx : exec (.wclkAcquireComplete 0 th) s = done _ := congrArg done hop
  obtain ⟨r, he, hw⟩ := hent fun t => { t with slewAcq := true, slewEnd := w.slot + n }
  have he' := he.settle
  refine gives_done hx ⟨he'.anchored.trans hanch, he'.servo, (congrArg TimeSt.theta he'.time :).trans htheta, ?_,
    State.writesTime_settle hw⟩
  have hend := (congrArg TimeSt.slewEnd he'.time :)
  rw [hend]
  show s.slot < w.slot + n
  omega

theorem State.wclkAcquireOp_none {s : State} (f th : Int) (h : s.servo ≠ tAcquire ∨ (s.src ≠ 2 ∧ s.src ≠ 3) ∨
    s.is R.TIME_S_REF_PRESENT = false ∨ s.slot < s.time.acqSince + 64 ∨ s.time.ignore = true) : s.wclkAcquireOp f th = s := by
  refine if_neg fun hc => ?_
  obtain ⟨hs, hsrc, hp, hi, h64⟩ := hc
  rcases h with h | h | h | h | h
  · exact h hs
  · omega
  · rw [h] at hp; exact absurd hp (by decide)
  · omega
  · rw [h] at hi; exact absurd hi (by decide)

/-! The end of a slew. -/

theorem gives_slewEnd {s : State} (hq : s.quiet = true) (hs : s.servo = tSlewing) (he : s.time.slewEnd ≤ s.slot)
    (hf : s.is R.TIME_C_FORCE_HOLD = false) :
    Gives .slewEnd s fun t =>
      t.servo = tTrack ∧ t.time.theta = 0 ∧ t.time.yLoop = -s.time.integ ∧ s.keeps t servoWords ∧
      t = { s.regsOf t with time := t.time } := by
  have hx : exec .slewEnd s = done ((s.setTime fun t => { t with theta := 0, yLoop := -t.integ }).enterServo tTrack 0) :=
    congrArg done (if_pos ⟨hs, he⟩)
  have h := (State.entersServo_free (s := s.setTime fun t => { t with theta := 0, yLoop := -t.integ }) (next := tTrack) 0 hq hf
    (by decide)).settle
  exact gives_done hx ⟨h.servo, (congrArg TimeSt.theta h.time :), (congrArg TimeSt.yLoop h.time :), h.writes_from⟩

theorem gives_slewEnd_early {s : State} (h : s.servo ≠ tSlewing ∨ s.slot < s.time.slewEnd) :
    Gives .slewEnd s fun t => s.keeps t [] ∧ t = s.regsOf t := by
  have hop : s.slewEndOp = s := if_neg fun hc => by
    obtain ⟨hs, he⟩ := hc
    rcases h with h | h
    · exact h hs
    · omega
  exact gives_done (congrArg done hop : exec .slewEnd s = done s) (s.writes_settle [])

/-- Settles O10: each clause is the rule of its command. -/
theorem recordsAndSources : Obligations.RecordsAndSources := by
  unfold Obligations.RecordsAndSources
  refine ⟨?_, ?_, ?_, ?_, ?_, ?_, ?_, ?_, ?_, ?_, ?_, ?_, ?_⟩
  · intro s m hk hl
    obtain ⟨t, hx, ⟨ht, hlev⟩, hrest⟩ := gives_measPush_queued hk hl
    exact ⟨t, hx, ht, hlev, hrest⟩
  · intro s m hk hl hq
    obtain ⟨t, hx, ⟨hc, he⟩, hrest⟩ := gives_measPush_full hk hl hq
    exact ⟨t, hx, hc, he, hrest⟩
  · intro s m v hk hv h0 ho
    obtain ⟨t, hx, ⟨ht, hl⟩, hb, hw, hfr⟩ := gives_measFlush hk hv (by simpa using h0) (by simpa using ho)
    refine ⟨t, hx, ht, hl, hb, hw, ?_⟩
    have hA : t.tmrA = s.tmrA := by rw [hfr]; rfl
    have hB : t.tmrB = s.tmrB := by rw [hfr]; rfl
    rw [hA, hB]; exact hfr
  · intro s hq hsrc hl hst hf
    exact gives_sourceLoss_ptp hq hsrc hl hst hf
  · intro s hsrc hs
    exact gives_sourceLoss_acquire hsrc hs
  · intro s h
    exact gives_sourceLoss_none h
  · intro s hq hsrc hs hf hi
    exact gives_sourceReturn_acquire hq hsrc hs hf hi
  · intro s hsrc h
    exact gives_sourceReturn_stays hsrc h
  · intro s f th hq hsrc hs hp h64 hth hf hi
    exact gives_wclkAcquire_tracks hq hsrc hs hp h64 hth hf hi
  · intro s th hq hsrc hs hp h64 hth hf hi
    exact gives_wclkAcquire_slews hq hsrc hs hp h64 hth hf hi
  · intro s f th h
    exact gives_done (congrArg done (State.wclkAcquireOp_none f th h) : exec (.wclkAcquireComplete f th) s = done s) (s.writes_settle [])
  · intro s hq hs he hf
    exact gives_slewEnd hq hs he hf
  · intro s h
    exact gives_slewEnd_early h

end Sys2Proof.Machine
end

section
/-! The answers to a re-anchor request, HSI_SET and captures (03_timebase R98, R102, R110). -/

namespace Sys2Proof.Machine

/-! REANCHOR. -/

/-- The register REANCHOR. -/
def reanchorSpec : RegSpec := ⟨0xac, 1, 4, 0, 0, 0, 3, 0, 0, 0, 0, 0, false, false⟩

theorem regOf_reanchor : regOf 0x30AC = some (reanchorSpec, 0) := by decide +kernel

theorem State.hookTime_reanchor (s : State) (old v : Nat) : s.hookTime 0xAC old v = s.reanchorOp (v % 4) := by
  simp [State.hookTime]

/-- The state in which REANCHOR acts: as before the write, for all that it looks at. -/
structure State.ReanchorReady (s w : State) : Prop where
  servo : w.servo = s.servo
  force : w.is R.TIME_C_FORCE_HOLD = s.is R.TIME_C_FORCE_HOLD
  armed : w.is R.TIME_MUTE_SHEET_HI_ARMED = s.is R.TIME_MUTE_SHEET_HI_ARMED
  time : w.time = s.time
  slot : w.slot = s.slot
  cyc : w.cyc = s.cyc
  quiet : s.quiet = true → w.quiet = true

theorem State.reanchorReady (s : State) (v : Word) : s.ReanchorReady (s.stored 0x30AC reanchorSpec v) where
  servo := State.keeps_get (s.keeps_stored _ _ _) _ (by decide)
  force := State.keeps_is (s.keeps_stored _ _ _) (by decide)
  armed := State.keeps_is (s.keeps_stored _ _ _) (by decide)
  time := s.stored_time _ _ _
  slot := s.stored_slot _ _ _
  cyc := s.stored_cyc _ _ _
  quiet := fun hq => State.quiet_stored _ hq (by decide)

/-- A write of an action to REANCHOR: u is what the action makes of the stored word. -/
theorem gives_reanchor {c : Instr} {s u : State} {m : Nat} {v : Word} {P : State → Prop} (hx : exec c s = done (s.regWrite m 0x30AC v))
    (hk : s.takes m 0x30AC = true) (hu : (s.stored 0x30AC reanchorSpec v).reanchorOp (v.toNat % 4) = u)
    (hw : (s.stored 0x30AC reanchorSpec v).writesTime u servoWords) (hP : P (u.withBus (s.told m .ok [])).settle) :
    Gives c s fun t =>
      P t ∧ t.bus = s.told m .ok [] ∧ s.keeps t (0x30AC :: servoWords) ∧ t = { s.regsOf t with bus := t.bus, time := t.time } :=
  gives_timeWrite hx hk rfl (by decide) regOf_reanchor rfl ((State.hookTime_reanchor _ _ _).trans hu) hw hP

theorem State.reanchorOp_slew {s : State} (h : s.servo = tReanchor) : s.reanchorOp 1 = s.startSlew false := by
  simp [State.reanchorOp, h]

/-- STEP leaves the phase at the write as that of the step. -/
def TimeSt.stepping (t : TimeSt) : TimeSt := { t with thetaHold := t.theta, yLoop := -t.integ }

theorem State.reanchorOp_step {s : State} (h : s.servo = tReanchor) :
    s.reanchorOp 2 =
      if s.is R.TIME_MUTE_SHEET_HI_ARMED ∨ ((s.setTime TimeSt.stepping).enterServo tStepPending 0).servo ≠ tStepPending then
        (s.setTime TimeSt.stepping).enterServo tStepPending 0
      else ((s.setTime TimeSt.stepping).enterServo tStepPending 0).addStep
        ⟨((s.setTime TimeSt.stepping).enterServo tStepPending 0).slot16,
          stepD ((s.setTime TimeSt.stepping).enterServo tStepPending 0).time.theta, .reanchor⟩ := by
  have h1 : ¬ s.servo ≠ tReanchor := fun hn => hn h
  rw [State.reanchorOp, if_neg h1]
  rfl

theorem State.reanchorOp_stay {s : State} (h : s.servo = tReanchor) :
    s.reanchorOp 3 = (s.setTime fun t => { t with ignore := true }).enterServo tHoldover s.time.reason := by
  simp [State.reanchorOp, h]

theorem State.reanchorOp_elsewhere {s : State} (a : Nat) (h : s.servo ≠ tReanchor) : s.reanchorOp a = s := if_pos h

/-- Without a phase to remove, the entry to TRACK that a slew comes down to. -/
theorem State.startSlew_tracks {s : State} (acqRate : Bool) (hq : s.quiet = true) (hf : s.is R.TIME_C_FORCE_HOLD = false)
    (h0 : s.time.theta = 0) : s.writesTime (s.startSlew acqRate) servoWords ∧ (s.startSlew acqRate).servo = tTrack := by
  rw [State.startSlew_zero acqRate h0]
  have he := State.entersServo_free (s := s.setTime fun t => { t with slewAcq := acqRate, yLoop := -t.integ }) (next := tTrack) 0 hq hf
    (by decide)
  exact ⟨he.writes_from, he.servo⟩

/-- With a positive phase, the entry to SLEWING, with its end after the slot. -/
theorem State.startSlew_slews {s : State} (acqRate : Bool) (hq : s.quiet = true) (hf : s.is R.TIME_C_FORCE_HOLD = false)
    (hi : s.time.integ = 0) (h0 : 0 < s.time.theta) :
    s.writesTime (s.startSlew acqRate) servoWords ∧ (s.startSlew acqRate).servo = tSlewing ∧
      (s.startSlew acqRate).time.theta = s.time.theta ∧ s.slot < (s.startSlew acqRate).time.slewEnd := by
  obtain ⟨n, hn, hslew⟩ := State.startSlew_pos acqRate hi h0
  rw [hslew]
  have he := State.entersServo_free (s := s.setTime fun t => { t with slewAcq := acqRate, slewEnd := s.slot + n }) (next := tSlewing) 0
    hq hf (by decide)
  have hend : _ = s.slot + n := (congrArg TimeSt.slewEnd he.time :)
  exact ⟨he.writes_from, he.servo, (congrArg TimeSt.theta he.time :), by rw [hend]; omega⟩

theorem gives_reanchorSlew_tracks {s : State} {m : Master} (hk : s.takes m.toNat 0x30AC = true) (hq : s.quiet = true)
    (hs : s.servo = tReanchor) (hf : s.is R.TIME_C_FORCE_HOLD = false) (h0 : s.time.theta = 0) :
    Gives (.reanchorSlew m) s fun t =>
      t.servo = tTrack ∧ t.bus = s.told m.toNat .ok [] ∧ s.keeps t (0x30AC :: servoWords) ∧
      t = { s.regsOf t with bus := t.bus, time := t.time } := by
  have hr := s.reanchorReady 1
  have hu := State.reanchorOp_slew (hr.servo.trans hs)
  obtain ⟨hw, hv⟩ := State.startSlew_tracks false (hr.quiet hq) (hr.force.trans hf) (by rw [hr.time]; exact h0)
  refine gives_reanchor rfl hk hu hw (P := fun t => t.servo = tTrack) ?_
  rw [State.settle_servo, State.withBus_servo]; exact hv

theorem gives_reanchorSlew_slews {s : State} {m : Master} (hk : s.takes m.toNat 0x30AC = true) (hq : s.quiet = true)
    (hs : s.servo = tReanchor) (hf : s.is R.TIME_C_FORCE_HOLD = false) (hi : s.time.integ = 0) (h0 : 0 < s.time.theta) :
    Gives (.reanchorSlew m) s fun t =>
      (t.servo = tSlewing ∧ t.time.theta = s.time.theta ∧ s.slot < t.time.slewEnd) ∧ t.bus = s.told m.toNat .ok [] ∧
      s.keeps t (0x30AC :: servoWords) ∧ t = { s.regsOf t with bus := t.bus, time := t.time } := by
  have hr := s.reanchorReady 1
  have hu := State.reanchorOp_slew (hr.servo.trans hs)
  obtain ⟨hw, hv, htheta, hend⟩ := State.startSlew_slews false (hr.quiet hq) (hr.force.trans hf) (by rw [hr.time]; exact hi)
    (by rw [hr.time]; exact h0)
  rw [hr.time] at htheta
  rw [hr.slot] at hend
  refine gives_reanchor rfl hk hu hw ⟨?_, ?_, ?_⟩
  · rw [State.settle_servo, State.withBus_servo]; exact hv
  · rw [State.settle_time, State.withBus_time]; exact htheta
  · rw [State.settle_time, State.withBus_time]; exact hend

/-- STEP in REANCHOR_WAIT enters STEP_PENDING. -/
theorem State.entersServo_stepping {s : State} (hq : s.quiet = true) (hf : s.is R.TIME_C_FORCE_HOLD = false) :
    (s.setTime TimeSt.stepping).EntersServo ((s.setTime TimeSt.stepping).enterServo tStepPending 0) tStepPending s.time.reason :=
  State.entersServo_free (s := s.setTime TimeSt.stepping) (next := tStepPending) 0 hq hf (by decide)

theorem gives_reanchorStep_scheduled {s : State} {m : Master} (hk : s.takes m.toNat 0x30AC = true) (hq : s.quiet = true)
    (hs : s.servo = tReanchor) (hf : s.is R.TIME_C_FORCE_HOLD = false) (ha : s.is R.TIME_MUTE_SHEET_HI_ARMED = false) :
    Gives (.reanchorStep m) s fun t =>
      (t.servo = tStepPending ∧ t.is R.TIME_S_STEP_PENDING = true ∧ ⟨s.slot16, stepD s.time.theta, .reanchor⟩ ∈ t.time.steps ∧
        t.time.thetaHold = s.time.theta) ∧
      t.bus = s.told m.toNat .ok [] ∧ s.keeps t (0x30AC :: servoWords) ∧ t = { s.regsOf t with bus := t.bus, time := t.time } := by
  have hr := s.reanchorReady 2
  generalize hw : s.stored 0x30AC reanchorSpec 2 = w at hr
  have he := State.entersServo_stepping (hr.quiet hq) (hr.force.trans hf)
  have hu := State.reanchorOp_step (hr.servo.trans hs)
  generalize (w.setTime TimeSt.stepping).enterServo tStepPending 0 = u at *
  rw [if_neg (by rw [hr.armed, ha, he.servo]; simp)] at hu
  have hslot : u.slot16 = s.slot16 := by
    simp only [State.slot16, State.slot_of_writesTime he.writes_from, State.cyc_of_writesTime he.writes_from, hr.slot, hr.cyc]
  have htheta : u.time.theta = s.time.theta := (congrArg TimeSt.theta he.time :).trans (congrArg TimeSt.theta hr.time :)
  have hhold : u.time.thetaHold = s.time.theta := (congrArg TimeSt.thetaHold he.time :).trans (congrArg TimeSt.theta hr.time :)
  rw [hslot, htheta] at hu
  refine gives_reanchor rfl hk (hw ▸ hu) (hw ▸ State.writesTime_trans he.writes_from (State.writesTime_setTime _ _ _)) ⟨?_, ?_, ?_, ?_⟩
  · rw [State.settle_servo, State.withBus_servo]; exact he.servo
  · rw [State.settle_is, State.withBus_is]; exact he.stepPending
  · rw [State.settle_time, State.withBus_time]
    exact List.mem_append_right _ (List.mem_singleton.mpr rfl)
  · rw [State.settle_time, State.withBus_time]; exact hhold

theorem gives_reanchorStep_armed {s : State} {m : Master} (hk : s.takes m.toNat 0x30AC = true) (hq : s.quiet = true)
    (hs : s.servo = tReanchor) (hf : s.is R.TIME_C_FORCE_HOLD = false) (ha : s.is R.TIME_MUTE_SHEET_HI_ARMED = true) :
    Gives (.reanchorStep m) s fun t =>
      (t.servo = tStepPending ∧ t.is R.TIME_S_STEP_PENDING = true ∧
        (t.time.steps = s.time.steps.filter fun q => q.keptIn tStepPending) ∧ t.time.thetaHold = s.time.theta) ∧
      t.bus = s.told m.toNat .ok [] ∧ s.keeps t (0x30AC :: servoWords) ∧ t = { s.regsOf t with bus := t.bus, time := t.time } := by
  have hr := s.reanchorReady 2
  generalize hw : s.stored 0x30AC reanchorSpec 2 = w at hr
  have he := State.entersServo_stepping (hr.quiet hq) (hr.force.trans hf)
  have hu := State.reanchorOp_step (hr.servo.trans hs)
  generalize (w.setTime TimeSt.stepping).enterServo tStepPending 0 = u at *
  rw [if_pos (Or.inl (hr.armed.trans ha))] at hu
  refine gives_reanchor rfl hk (hw ▸ hu) (hw ▸ he.writes_from) ⟨?_, ?_, ?_, ?_⟩
  · rw [State.settle_servo, State.withBus_servo]; exact he.servo
  · rw [State.settle_is, State.withBus_is]; exact he.stepPending
  · rw [State.settle_time, State.withBus_time, ← hr.time]
    exact (congrArg TimeSt.steps he.time :)
  · rw [State.settle_time, State.withBus_time, ← hr.time]
    exact (congrArg TimeSt.thetaHold he.time :)

theorem gives_reanchorStay {s : State} {m : Master} (hk : s.takes m.toNat 0x30AC = true) (hq : s.quiet = true)
    (hs : s.servo = tReanchor) (hf : s.is R.TIME_C_FORCE_HOLD = false) :
    Gives (.reanchorStay m) s fun t =>
      (t.servo = tHoldover ∧ t.get R.TIME_SERVO_STATE_HOLD_REASON = s.time.reason % 8 ∧ t.time.ignore = true) ∧
      t.bus = s.told m.toNat .ok [] ∧ s.keeps t (0x30AC :: servoWords) ∧ t = { s.regsOf t with bus := t.bus, time := t.time } := by
  have hr := s.reanchorReady 3
  generalize hw : s.stored 0x30AC reanchorSpec 3 = w at hr
  have hu := State.reanchorOp_stay (hr.servo.trans hs)
  have he := State.entersServo_free (s := w.setTime fun t => { t with ignore := true }) (next := tHoldover) w.time.reason
    (hr.quiet hq) (hr.force.trans hf) (by decide)
  have hign : _ = true := (congrArg TimeSt.ignore he.time :)
  generalize (w.setTime fun t => { t with ignore := true }).enterServo tHoldover w.time.reason = u at *
  refine gives_reanchor rfl hk (hw ▸ hu) (hw ▸ he.writes_from) ⟨?_, ?_, ?_⟩
  · rw [State.settle_servo, State.withBus_servo]; exact he.servo
  · rw [State.settle_get, State.withBus_get, he.holdReason, ← hr.time]; rfl
  · rw [State.settle_time, State.withBus_time]; exact hign

theorem gives_reanchorStay_elsewhere {s : State} {m : Master} (hk : s.takes m.toNat 0x30AC = true) (hs : s.servo ≠ tReanchor) :
    Gives (.reanchorStay m) s fun t =>
      t.servo = s.servo ∧ t.bus = s.told m.toNat .ok [] ∧ s.keeps t [0x30AC] ∧ t = { s.regsOf t with bus := t.bus } := by
  have hr := s.reanchorReady 3
  have hu := State.reanchorOp_elsewhere ((3 : Word).toNat % 4) (fun h => hs (hr.servo.symm.trans h))
  refine gives_timeWords rfl hk rfl (by decide) regOf_reanchor rfl ((State.hookTime_reanchor _ _ _).trans hu) (State.writes_refl _ [])
    (P := fun t => t.servo = s.servo) ?_
  rw [State.settle_servo, State.withBus_servo]; exact hr.servo

end Sys2Proof.Machine
end

section
/-! Steps of the HSI (03_timebase R97–R102): what TIME makes of a step, and what the other blocks leave of it. -/

namespace Sys2Proof.Machine

/-! The other blocks at a step (R100). -/

/-- From s to t no more has changed than the blocks beside TIME change at a step: no word of a register, and neither the time, TIME nor
the memory. -/
structure State.BlocksStepped (s t : State) : Prop where
  words : ∀ k < 0x8000000000, t.w k = s.w k
  hsi : t.hsi = s.hsi
  slot : t.slot = s.slot
  mem : t.mem = s.mem
  time : t.time = s.time

theorem State.BlocksStepped.refl (s : State) : s.BlocksStepped s := ⟨fun _ _ => rfl, rfl, rfl, rfl, rfl⟩

theorem State.BlocksStepped.trans {s t u : State} (h : s.BlocksStepped t) (h' : t.BlocksStepped u) : s.BlocksStepped u where
  words := fun k hk => (h'.words k hk).trans (h.words k hk)
  hsi := h'.hsi.trans h.hsi
  slot := h'.slot.trans h.slot
  mem := h'.mem.trans h.mem
  time := h'.time.trans h.time

theorem State.blocksStepped_each {α : Type} (s : State) (l : List α) {f : State → α → State} (hf : ∀ (u : State) (x : α), u.BlocksStepped (f u x)) :
    s.BlocksStepped (s.each l f) :=
  s.each_induct (fun u => s.BlocksStepped u) f l (.refl s) fun u x _ hu => hu.trans (hf u x)

theorem State.blocksStepped_setStage (s : State) (k : Nat) (x : StageSt) : s.BlocksStepped (s.setStage k x) :=
  ⟨fun _ _ => rfl, rfl, rfl, rfl, rfl⟩

theorem State.blocksStepped_dropAudio (s : State) (p : Nat → Bool) : s.BlocksStepped (s.dropAudio p) :=
  ⟨fun _ _ => rfl, rfl, rfl, rfl, rfl⟩

theorem State.blocksStepped_rxStep (s : State) (h : Int) : s.BlocksStepped (s.rxStep h) := by
  have hrx : s.BlocksStepped (s.each (s.rx.map fun e => e.1) fun s c => s.setRx c fun x => { x with
      started := false, buf := [], run := 0, lost := 0, fade := 6, due := true, tb := x.tb + h, live := false, zeros := 0 }) :=
    s.blocksStepped_each _ fun _ _ => ⟨fun _ _ => rfl, rfl, rfl, rfl, rfl⟩
  exact hrx.trans ⟨fun _ _ => rfl, rfl, rfl, rfl, rfl⟩

/-- The words of a TX channel are words of a window. -/
theorem txKey_ge (t w : Nat) : 0x8000000000 ≤ txKey t w := by unfold txKey winKey; omega

theorem State.blocksStepped_set64 (s : State) {lo : Nat} (v : Nat) (h : 0x8000000000 ≤ lo) : s.BlocksStepped (s.set64 lo v) where
  words := fun k hk => by
    rw [State.set64_eq, State.setW_w_other _ _ _ _ (by omega), State.setW_w_other _ _ _ _ (by omega)]
  hsi := rfl
  slot := rfl
  mem := rfl
  time := rfl

theorem State.blocksStepped_txStep (s : State) (h : Int) : s.BlocksStepped (s.txStep h) := by
  have hz : s.BlocksStepped { s with txZero := s.slot + s.latS } := ⟨fun _ _ => rfl, rfl, rfl, rfl, rfl⟩
  refine hz.trans (State.blocksStepped_each _ _ fun u t => ?_)
  refine State.BlocksStepped.trans (t := u.setTx t fun x =>
    { x with cur := x.cur.map (·.shift h), olds := x.olds.map (·.shift h), late := [], fadeOut := [] }) ⟨fun _ _ => rfl, rfl, rfl, rfl, rfl⟩ ?_
  dsimp only
  split
  · exact State.blocksStepped_set64 _ _ (txKey_ge t 2)
  · exact .refl _

theorem State.blocksStepped_pressStep (s : State) (a b : Nat) : s.BlocksStepped (s.pressStep a b) := by
  unfold State.pressStep
  split
  · split
    · exact ⟨fun _ _ => rfl, rfl, rfl, rfl, rfl⟩
    · exact .refl _
  · exact .refl _

/-! A step that is made (R99, R100). -/

/-- The words that TIME writes at a step: SERVO_STATE, STEP_CNT, LAST_STEP and EVENT. -/
def stepWords : List Nat := [R.TIME_SERVO_STATE_GEN.addr, R.TIME_STEP_CNT_COUNT.addr, 0x30F8, 0x30FC, evKey eTIME]

/-- From s to t a step by D sheets has been made: the HSI has moved and GEN gone up, STEPPED is latched, and of the registers' words
only those of stepWords have changed. -/
structure State.StepMade (s t : State) (d : Int) : Prop where
  hsi : (t.hsi : Int) = s.hsi + 6 * d
  gen : t.gen = (s.gen + 1) % 16
  event : t.hasEvent eTIME 4 = true
  slot : t.slot = s.slot
  mem : t.mem = s.mem
  steps : t.time.steps = s.time.steps
  words : ∀ k < 0x8000000000, k ∉ stepWords → t.w k = s.w k

/-- What the other blocks do after it leaves it as it is. -/
theorem State.StepMade.blocks {s t u : State} {d : Int} (h : s.StepMade t d) (hb : t.BlocksStepped u) : s.StepMade u d where
  hsi := by rw [hb.hsi]; exact h.hsi
  gen := by
    have hw : u.w R.TIME_SERVO_STATE_GEN.addr = t.w R.TIME_SERVO_STATE_GEN.addr := hb.words _ (by decide)
    rw [← h.gen]
    simp only [State.gen, State.get, State.n, hw]
  event := (State.hasEvent_congr (hb.words _ (by decide +kernel)) 4).trans h.event
  slot := hb.slot.trans h.slot
  mem := hb.mem.trans h.mem
  steps := (congrArg TimeSt.steps hb.time).trans h.steps
  words := fun k hk hn => (hb.words k hk).trans (h.words k hk hn)

theorem State.StepMade.settle {s t : State} {d : Int} (h : s.StepMade t d) : s.StepMade t.settle d :=
  h.blocks ⟨fun k _ => t.settle_w k, t.settle_hsi, t.settle_slot, t.settle_mem, t.settle_time⟩

theorem State.StepMade.keeps_is {s t : State} {d : Int} (h : s.StepMade t d) {f : Fld} (hf : f.addr < 0x8000000000)
    (hn : f.addr ∉ stepWords) : t.is f = s.is f := by simp only [State.is, State.get, State.n, h.words _ hf hn]

theorem State.StepMade.quiet {s t : State} {d : Int} (h : s.StepMade t d) (hq : s.quiet = true) : t.quiet = true :=
  (State.quiet_congr (h.words 0x6080 (by decide) (by decide +kernel))).trans hq

/-- The times of TIME in the numbering after a step by D sheets. -/
def TimeSt.moved (t : TimeSt) (d : Int) : TimeSt :=
  { t with
    syncs := t.syncs.map fun e => (e.1, e.2.moved d)
    acq := t.acq.map (SyncRec.moved d)
    outliers := t.outliers.map (SyncRec.moved d)
    lastT2 := t.lastT2.map fun x => x + d * uSheet }

/-- TIME's registers at a step, before the event. -/
def State.stepShown (s : State) (d : Int) : State :=
  (({ s with hsi := ((s.hsi : Int) + 6 * d).toNat }.put R.TIME_SERVO_STATE_GEN (s.gen + 1)).addS R.TIME_STEP_CNT_COUNT 1).set64 0x30F8
    (satTz 64 d)

theorem State.stepTime_eq {s : State} {d : Int} (hd : d ≠ 0) (h0 : 0 ≤ (s.hsi : Int) + 6 * d) :
    s.stepTime d = (true, ((s.stepShown d).setTime fun t => t.moved d).latch eTIME 4) := by
  rw [State.stepTime, if_neg hd, if_neg (by omega)]
  rfl

theorem State.keeps_stepShown (s : State) (d : Int) : s.keeps (s.stepShown d) stepWords := by
  have h1 : s.keeps { s with hsi := ((s.hsi : Int) + 6 * d).toNat } stepWords := fun _ _ => rfl
  have hk : R.TIME_SERVO_STATE_GEN.addr ∈ stepWords ∧ R.TIME_STEP_CNT_COUNT.addr ∈ stepWords ∧ 0x30F8 ∈ stepWords ∧
      0x30F8 + 4 ∈ stepWords := by decide +kernel
  obtain ⟨hgen, hcnt, hlo, hhi⟩ := hk
  exact State.keeps_append (State.keeps_append (State.keeps_append h1 (State.writes_put _ _ hgen).1) (State.writes_put _ _ hcnt).1)
    (State.writes_set64 _ _ hlo hhi).1

theorem State.gen_stepShown (s : State) (d : Int) : (s.stepShown d).gen = (s.gen + 1) % 16 := by
  rw [State.stepShown, State.gen, State.set64_eq, State.setW_get_other _ _ _ _ (by decide), State.setW_get_other _ _ _ _ (by decide),
    State.addS, State.get_put_other _ _ _ _ (by decide) (by decide), State.get_put_same _ _ _ (by decide) (by decide)]
  rfl

theorem State.stepTime_made {s : State} {d : Int} (hq : s.quiet = true) (hd : d ≠ 0) (h0 : 0 ≤ (s.hsi : Int) + 6 * d) :
    ∃ t, s.stepTime d = (true, t) ∧ s.StepMade t d := by
  refine ⟨_, State.stepTime_eq hd h0, ?_⟩
  have hk := s.keeps_stepShown d
  have hg := s.gen_stepShown d
  have hh : ((s.stepShown d).hsi : Int) = s.hsi + 6 * d := Int.toNat_of_nonneg h0
  have hs : (s.stepShown d).slot = s.slot := rfl
  have hm : (s.stepShown d).mem = s.mem := rfl
  have ht : (s.stepShown d).time = s.time := rfl
  generalize s.stepShown d = u at *
  have hqu : (u.setTime fun t => t.moved d).quiet = true := State.quiet_of_keeps hk (by decide +kernel) hq
  have hw : (u.setTime fun t => t.moved d).writes ((u.setTime fun t => t.moved d).latch eTIME 4) [evKey eTIME] :=
    State.writes_latch 4 hqu (by simp)
  constructor
  case hsi => rw [hw.2]; exact hh
  case gen => rw [← hg]; exact State.get_latch eTIME 4 hqu (by decide)
  case event => exact State.hasEvent_latch _ _ _ (by decide) hqu
  case slot => rw [hw.2]; exact hs
  case mem => rw [hw.2]; exact hm
  case steps => rw [hw.2, ← ht]; rfl
  case words =>
    intro k _ hn
    exact (hw.1 k fun h => hn (List.mem_singleton.mp h ▸ by decide +kernel)).trans (hk k hn)

theorem State.stepAll_made {s : State} {d : Int} (hq : s.quiet = true) (hd : d ≠ 0) (h0 : 0 ≤ (s.hsi : Int) + 6 * d) :
    ∃ t, s.stepAll d = (true, t) ∧ s.StepMade t d := by
  obtain ⟨u, hu, hm⟩ := State.stepTime_made hq hd h0
  refine ⟨_, by rw [State.stepAll, hu], hm.blocks ?_⟩
  have hst := u.blocksStepped_each stageIds (f := fun s k => s.setStage k ⟨s.slot, false⟩) fun v k => v.blocksStepped_setStage k _
  exact (((hst.trans (State.blocksStepped_dropAudio _ _)).trans (State.blocksStepped_rxStep _ _)).trans
    (State.blocksStepped_txStep _ _)).trans (State.blocksStepped_pressStep _ _ _)

/-! The step that is due. -/

theorem gives_hsiStep {s : State} {q : StepReq} (hq : s.quiet = true) (hdue : s.dueStep = some q) (hc : s.cyc = 0)
    (hwhy : q.why = .ring) (hd : q.d ≠ 0) (h0 : 0 ≤ (s.hsi : Int) + 6 * q.d) :
    Gives .hsiStep s fun t =>
      (t.hsi : Int) = (s.hsi : Int) + 6 * q.d ∧ t.gen = (s.gen + 1) % 16 ∧ t.time.steps = s.time.steps.erase q ∧
      t.hasEvent eTIME 4 = true ∧ t.slot = s.slot ∧ t.mem = s.mem := by
  obtain ⟨t, ht, hm⟩ := State.stepAll_made (s := s.setTime fun t => { t with steps := t.steps.erase q }) hq hd h0
  have hx : exec .hsiStep s = done t := by
    refine congrArg done (a₁ := s.stepNow) ?_
    simp [State.stepNow, hdue, hc, hwhy, ht]
  have hset := hm.settle
  exact gives_done hx ⟨hset.hsi, hset.gen, hset.steps, hset.event, hset.slot, hset.mem⟩

theorem gives_hsiStep_none {s : State} (h : s.cyc ≠ 0 ∨ s.dueStep = none) : Gives .hsiStep s fun t => s.keeps t [] ∧ t = s.regsOf t := by
  have hop : s.stepNow = s := by
    unfold State.stepNow
    split
    next q hdue => exact if_pos (h.resolve_right (by simp [hdue]))
    next => rfl
  exact gives_done (congrArg done hop : exec .hsiStep s = done s) (s.writes_settle [])

/-! The step at the armed mute sheet. -/

theorem State.gen_setTime (s : State) (f : TimeSt → TimeSt) : (s.setTime f).gen = s.gen := rfl

/-- A slew writes no other word than an entry of the servo, and leaves GEN. -/
theorem State.writesTime_startSlew {s : State} (acqRate : Bool) (hq : s.quiet = true) :
    s.writesTime (s.startSlew acqRate) servoWords ∧ (s.startSlew acqRate).gen = s.gen := by
  have henter : ∀ (u : State) (next : Nat), next < 8 → s.writesTime u servoWords → u.gen = s.gen →
      s.writesTime (u.enterServo next 0) servoWords ∧ (u.enterServo next 0).gen = s.gen := fun u next hn hw hg => by
    have he := State.entersServo_of_quiet (next := next) 0 (State.quiet_of_keeps hw.1 (by decide +kernel) hq) hn
    exact ⟨State.writesTime_trans hw he.writes, he.gen.trans hg⟩
  have hset := s.writesTime_setTime (fun t => { t with slewAcq := acqRate }) servoWords
  unfold State.startSlew
  dsimp only
  split
  · exact henter _ _ (by decide) (State.writesTime_trans hset (State.writesTime_setTime _ _ _)) ((State.gen_setTime _ _).trans (State.gen_setTime _ _))
  · split
    · refine henter _ _ (by decide) ?_ ?_
      · split
        · exact hset
        · exact State.writesTime_trans hset (State.writesTime_of_writes (State.writes_latch 8 hq (by decide +kernel)))
      · split
        · exact State.gen_setTime _ _
        · exact State.get_latch eTIME 8 hq (by decide)
    · exact henter _ _ (by decide) (State.writesTime_trans hset (State.writesTime_setTime _ _ _)) ((State.gen_setTime _ _).trans (State.gen_setTime _ _))

/-- A residual that is slewed changes no other word than the phase and those of the servo, and leaves GEN. -/
theorem State.writesTime_slewResidual {s : State} (d : Int) (acqRate : Bool) (hq : s.quiet = true) :
    s.writesTime (s.slewResidual d acqRate) (0x30E0 :: 0x30E4 :: servoWords) ∧ (s.slewResidual d acqRate).gen = s.gen := by
  have hrep := State.writesTime_reportTheta s (s.time.theta + d * uSheet) (ks := 0x30E0 :: 0x30E4 :: servoWords) (by simp) (by simp)
  have hgen : (s.reportTheta (s.time.theta + d * uSheet)).gen = s.gen :=
    State.keeps_get (State.writesTime_reportTheta s (s.time.theta + d * uSheet) (ks := [0x30E0, 0x30E4]) (by simp) (by simp)).1 _
      (by decide)
  obtain ⟨hw, hg⟩ := State.writesTime_startSlew acqRate (State.quiet_of_keeps hrep.1 (by decide +kernel) hq)
  exact ⟨State.writesTime_trans hrep (State.writesTime_mono hw (by simp +contextual)), hg.trans hgen⟩

theorem State.muteStep_made {s t : State} (hs : s.servo = tStepPending) (ha : s.is R.TIME_MUTE_SHEET_HI_ARMED = true)
    (hm : s.sheet = s.muteSheet) (hc : s.cyc = 0) (hl : s.stepLead = false)
    (ht : (s.putB R.TIME_MUTE_SHEET_HI_ARMED false).stepAll (stepD s.time.theta) = (true, t)) :
    s.muteStep = t.slewResidual (stepD s.time.theta) false := by
  have hmute : s.muteD = some (stepD s.time.theta) := by simp [State.muteD, hl]
  rw [State.muteStep, if_neg (by simp [hs, ha, hm, hc]), hmute]
  simp only [ht, Bool.true_or, if_true]

theorem gives_muteSheetStep {s : State} (hq : s.quiet = true) (hs : s.servo = tStepPending)
    (ha : s.is R.TIME_MUTE_SHEET_HI_ARMED = true) (hm : s.sheet = s.muteSheet) (hc : s.cyc = 0) (hl : s.stepLead = false)
    (hd : stepD s.time.theta ≠ 0) (h0 : 0 ≤ (s.hsi : Int) + 6 * stepD s.time.theta) :
    Gives .muteSheetStep s fun t =>
      t.is R.TIME_MUTE_SHEET_HI_ARMED = false ∧ (t.hsi : Int) = (s.hsi : Int) + 6 * stepD s.time.theta ∧ t.gen = (s.gen + 1) % 16 ∧
      t.slot = s.slot ∧ t.mem = s.mem := by
  have hq' : (s.putB R.TIME_MUTE_SHEET_HI_ARMED false).quiet = true := State.quiet_putB false hq (by decide)
  have hgen : (s.putB R.TIME_MUTE_SHEET_HI_ARMED false).gen = s.gen := State.keeps_get (s.keeps_put _ _) _ (by decide)
  have hhsi : (s.putB R.TIME_MUTE_SHEET_HI_ARMED false).hsi = s.hsi := s.put_hsi _ _
  obtain ⟨t, ht, hmade⟩ := State.stepAll_made hq' hd (by rw [hhsi]; exact h0)
  obtain ⟨hw, hg⟩ := State.writesTime_slewResidual (s := t) (stepD s.time.theta) false (hmade.quiet hq')
  have hx : exec .muteSheetStep s = done _ := congrArg done (State.muteStep_made hs ha hm hc hl ht)
  have harmed : t.is R.TIME_MUTE_SHEET_HI_ARMED = false :=
    (hmade.keeps_is (by decide) (by decide +kernel)).trans (s.is_putB _ _ (by decide) rfl)
  refine gives_done hx ⟨?_, ?_, ?_, ?_, ?_⟩
  · rw [State.settle_is, State.keeps_is hw.1 (by decide +kernel), harmed]
  · rw [State.settle_hsi, State.hsi_of_writesTime hw, hmade.hsi, hhsi]
  · rw [State.settle_gen, hg, hmade.gen, hgen]
  · rw [State.settle_slot, State.slot_of_writesTime hw, hmade.slot]; exact s.put_slot _ _
  · rw [State.settle_mem, State.mem_of_writesTime hw, hmade.mem]; exact s.put_mem _ _

theorem gives_muteSheetStep_none {s : State}
    (h : s.servo ≠ tStepPending ∨ s.is R.TIME_MUTE_SHEET_HI_ARMED = false ∨ s.sheet ≠ s.muteSheet ∨ s.cyc ≠ 0) :
    Gives .muteSheetStep s fun t => s.keeps t [] ∧ t = s.regsOf t := by
  have hop : s.muteStep = s := if_pos (by simpa using h)
  exact gives_done (congrArg done hop : exec .muteSheetStep s = done s) (s.writes_settle [])

/-! HSI_SET and captures (R102, R110). -/

/-- The register HSI_SET_CMD. -/
def hsiSetSpec : RegSpec := ⟨0xd8, 1, 4, 0, 0, 0, 1, 1, 0, 0, 0, 0, false, false⟩

theorem regOf_hsiSet : regOf 0x30D8 = some (hsiSetSpec, 0) := by decide +kernel

theorem State.hookTime_hsiSet (s : State) (old : Nat) : s.hookTime 0xD8 old (1 : Word).toNat = s.hsiSetOp := by
  simp [State.hookTime, bitOf]

/-- The register CAPTURE. -/
def captureSpec : RegSpec := ⟨0xc0, 1, 4, 0, 0, 0, 1, 0, 0, 0, 0, 0, false, false⟩

theorem regOf_capture : regOf 0x30C0 = some (captureSpec, 0) := by decide +kernel

theorem State.hookTime_capture (s : State) (old : Nat) : s.hookTime 0xC0 old (1 : Word).toNat = s.captureOp := by
  simp [State.hookTime, bitOf]

/-- The servo is in a state in which HSI_SET is taken. -/
def State.takesHsiSet (s : State) : Prop := (s.servo = tFreerun ∨ s.servo = tAcquire ∨ s.servo = tHoldover ∨ s.servo = tReanchor) ∧ s.src ≠ 4

/-- A step of HSI_SET, or on a manager one announced to the ring, is pending. -/
def State.hsiSetPending (s : State) : Bool := s.stepFor fun w => w == .hsiSet || (w == .ring && s.role == 0)

theorem State.hsiSetOp_pending {s : State} (h : s.takesHsiSet) (hp : s.hsiSetPending = true) : s.hsiSetOp = s :=
  (if_pos h).trans (if_pos hp)

theorem State.hsiSetOp_schedules {s : State} (h : s.takesHsiSet) (hp : s.hsiSetPending = false) :
    s.hsiSetOp = s.addStep ⟨s.slot + 1, 0, .hsiSet⟩ := (if_pos h).trans (if_neg (by rw [State.hsiSetPending] at hp; simp [hp]))

theorem State.hsiSetOp_refused {s : State} (h : ¬ s.takesHsiSet) : s.hsiSetOp = s.latch eTIME 9 := if_neg h

/-- Where no step for the same reason is scheduled, one stands behind the others. -/
theorem State.addStep_steps {s : State} {q : StepReq} (h : ∀ x ∈ s.time.steps, x.why ≠ q.why) :
    s.addStep q = s.setTime fun t => { t with steps := t.steps ++ [q] } := by
  have hf : (s.time.steps.filter fun x => x.why != q.why || (q.why == .ring && x.due != q.due)) = s.time.steps :=
    List.filter_eq_self.mpr fun x hx => by simp [h x hx]
  rw [State.addStep, State.setTime, hf]
  rfl

/-- The state in which a write that TIME does not triplicate acts: as before the write, for all that HSI_SET and CAPTURE look at. -/
structure State.HsiSetReady (s w : State) : Prop where
  takes : w.takesHsiSet ↔ s.takesHsiSet
  pending : w.hsiSetPending = s.hsiSetPending
  time : w.time = s.time
  slot : w.slot = s.slot

theorem State.hsiSetReady (s : State) (v : Word) : s.HsiSetReady (s.stored 0x30D8 hsiSetSpec v) := by
  have hw := State.writes_stored (s := s) (a := 0x30D8) (r := hsiSetSpec) v rfl
  have hservo : (s.stored 0x30D8 hsiSetSpec v).servo = s.servo := State.keeps_get hw.1 _ (by decide)
  have hsrc := State.src_of_writesTime (State.writesTime_of_writes hw) (by decide)
  have htime := s.stored_time 0x30D8 hsiSetSpec v
  have hrole : (s.stored 0x30D8 hsiSetSpec v).role = s.role := State.keeps_get hw.1 _ (by decide)
  exact ⟨by simp only [State.takesHsiSet, hservo, hsrc], by simp only [State.hsiSetPending, State.stepFor, htime, hrole], htime,
    s.stored_slot _ _ _⟩

theorem gives_hsiSet_schedules {s : State} {m : Master} (hk : s.takes m.toNat 0x30D8 = true) (h : s.takesHsiSet)
    (hp : s.hsiSetPending = false) :
    Gives (.hsiSetCmd m) s fun t =>
      t.time = { s.time with steps := s.time.steps ++ [⟨s.slot + 1, 0, .hsiSet⟩] } ∧ t.bus = s.told m.toNat .ok [] ∧
      s.keeps t [0x30D8] ∧ t = { s.regsOf t with bus := t.bus, time := t.time } := by
  have hr := s.hsiSetReady 1
  have hnone : ∀ x ∈ s.time.steps, x.why ≠ .hsiSet := fun x hx hw => by
    simp only [State.hsiSetPending, State.stepFor, List.any_eq_false] at hp
    exact hp x hx (by simp [hw])
  have hu := State.hsiSetOp_schedules (hr.takes.mpr h) (hr.pending.trans hp)
  rw [State.addStep_steps (by rw [hr.time]; exact hnone), hr.slot] at hu
  refine gives_timeWrite rfl hk rfl (by decide) regOf_hsiSet rfl ((State.hookTime_hsiSet _ _).trans hu) (State.writesTime_setTime _ _ [])
    (P := fun t => t.time = { s.time with steps := s.time.steps ++ [⟨s.slot + 1, 0, .hsiSet⟩] }) ?_
  rw [State.settle_time, State.withBus_time, ← hr.time]
  rfl

theorem gives_hsiSet_pending {s : State} {m : Master} (hk : s.takes m.toNat 0x30D8 = true) (h : s.takesHsiSet)
    (hp : s.hsiSetPending = true) :
    Gives (.hsiSetCmd m) s fun t =>
      t.time = s.time ∧ t.bus = s.told m.toNat .ok [] ∧ s.keeps t [0x30D8] ∧ t = { s.regsOf t with bus := t.bus } := by
  have hr := s.hsiSetReady 1
  have hu := State.hsiSetOp_pending (hr.takes.mpr h) (hr.pending.trans hp)
  refine gives_timeWords rfl hk rfl (by decide) regOf_hsiSet rfl ((State.hookTime_hsiSet _ _).trans hu) (State.writes_refl _ [])
    (P := fun t => t.time = s.time) ?_
  rw [State.settle_time, State.withBus_time, hr.time]

theorem gives_hsiSet_refused {s : State} {m : Master} (hk : s.takes m.toNat 0x30D8 = true) (hq : s.quiet = true)
    (h : ¬ s.takesHsiSet) :
    Gives (.hsiSetCmd m) s fun t =>
      t.hasEvent eTIME 9 = true ∧ t.bus = s.told m.toNat .ok [] ∧ s.keeps t [0x30D8, evKey eTIME] ∧
      t = { s.regsOf t with bus := t.bus } := by
  have hq' := State.quiet_stored (a := 0x30D8) (r := hsiSetSpec) 1 hq (by decide)
  have hu := State.hsiSetOp_refused fun hc => h ((s.hsiSetReady 1).takes.mp hc)
  refine gives_timeWords rfl hk rfl (by decide) regOf_hsiSet rfl ((State.hookTime_hsiSet _ _).trans hu)
    (State.writes_latch 9 hq' (by simp)) (P := fun t => t.hasEvent eTIME 9 = true) ?_
  rw [State.settle_hasEvent, State.withBus_hasEvent]
  exact State.hasEvent_latch _ _ _ (by decide) hq'

/-- The steering states are those in which HSI_SET is not taken. -/
theorem State.not_takesHsiSet {s : State} (h : steering s.servo = true ∨ s.src = 4) : ¬ s.takesHsiSet := by
  rintro ⟨hs, h4⟩
  rcases h with h | h
  · rcases hs with hs | hs | hs | hs <;> rw [hs] at h <;> exact absurd h (by decide)
  · exact h4 h

/-- The words that a capture writes. -/
def captureWords : List Nat := [R.TIME_CAP_PHASE_PH.addr, 0x30C8, 0x30CC]

theorem State.writes_captureOp (s : State) : s.writes s.captureOp captureWords :=
  State.writes_trans (State.writes_trans (s.writes_put _ (by decide)) (State.writes_put _ _ (by decide)))
    (State.writes_set64 _ _ (by decide) (by decide))

/-- A value that fits its field is read as it was put. -/
theorem State.get_put_fits (s : State) {f : Fld} {v : Nat} (h : f.hi < 32) (hl : f.lo ≤ f.hi + 1) (hv : v < 2 ^ (f.hi + 1 - f.lo)) :
    (s.put f v).get f = v := (s.get_put_same f v h hl).trans (Nat.mod_eq_of_lt hv)

theorem State.get_set64_other (s : State) {lo : Nat} (v : Nat) {f : Fld} (h : f.addr ≠ lo) (h' : f.addr ≠ lo + 4) :
    (s.set64 lo v).get f = s.get f := by
  rw [State.set64_eq, State.setW_get_other _ _ _ _ h', State.setW_get_other _ _ _ _ h]

theorem State.ph_captureOp (s : State) : s.captureOp.get R.TIME_CAP_PHASE_PH = s.ph := by
  have hph : s.ph < 16384 := by
    unfold State.ph sampleCycles; omega
  rw [State.captureOp, State.get_set64_other _ _ (by decide) (by decide), State.get_put_other _ _ _ _ (by decide) (by decide)]
  exact State.get_put_fits _ (by decide) (by decide) (hph.trans_eq (by decide))

theorem State.gen_captureOp (s : State) : s.captureOp.get R.TIME_CAP_PHASE_GEN = s.gen := by
  rw [State.captureOp, State.get_set64_other _ _ (by decide) (by decide)]
  exact State.get_put_fits _ (by decide) (by decide) (s.get_lt _)

theorem State.hsi_captureOp (s : State) : s.captureOp.get64 0x30C8 = s.hsiNow % 2 ^ 64 := by
  have hnow : ∀ (u : State) (f : Fld) (v : Nat), (u.put f v).hsiNow = u.hsiNow := fun _ _ _ => rfl
  rw [State.captureOp, State.get64_set64, Nat.mod_mod, hnow, hnow]

theorem gives_capture {s : State} {m : Master} (hk : s.takes m.toNat 0x30C0 = true) :
    Gives (.capture m) s fun t =>
      (t.get R.TIME_CAP_PHASE_PH = s.ph ∧ t.get R.TIME_CAP_PHASE_GEN = s.gen ∧ t.get64 0x30C8 = s.hsiNow % 2 ^ 64) ∧
      t.bus = s.told m.toNat .ok [] ∧ s.keeps t (0x30C0 :: captureWords) ∧ t = { s.regsOf t with bus := t.bus } := by
  have hg : (s.stored 0x30C0 captureSpec 1).gen = s.gen := State.keeps_get (s.keeps_stored _ _ _) _ (by decide)
  have hp : (s.stored 0x30C0 captureSpec 1).ph = s.ph := by simp only [State.ph, s.stored_cyc]
  have hh : (s.stored 0x30C0 captureSpec 1).hsiNow = s.hsiNow := by simp only [State.hsiNow, s.stored_hsi, s.stored_cyc]
  refine gives_timeWords rfl hk rfl (by decide) regOf_capture rfl (State.hookTime_capture _ _) (State.writes_captureOp _) ⟨?_, ?_, ?_⟩
  · rw [State.settle_get, State.withBus_get, State.ph_captureOp, hp]
  · rw [State.settle_get, State.withBus_get, State.gen_captureOp, hg]
  · rw [State.settle_get64, State.withBus_get64, State.hsi_captureOp, hh]

/-- Settles O11: each clause is the rule of its command. -/
theorem reanchorAndSteps : Obligations.ReanchorAndSteps := by
  unfold Obligations.ReanchorAndSteps
  refine ⟨?_, ?_, ?_, ?_, ?_, ?_, ?_, ?_, ?_, ?_, ?_, ?_, ?_, ?_⟩
  · intro s m hk hq hs hf h0
    exact gives_reanchorSlew_tracks hk hq hs hf h0
  · intro s m hk hq hs hf hi h0
    obtain ⟨t, hx, ⟨hv, hth, he⟩, hrest⟩ := gives_reanchorSlew_slews hk hq hs hf hi h0
    exact ⟨t, hx, hv, hth, he, hrest⟩
  · intro s m hk hq hs hf ha
    obtain ⟨t, hx, ⟨hv, hp, hm, hh⟩, hrest⟩ := gives_reanchorStep_scheduled hk hq hs hf (by simpa using ha)
    exact ⟨t, hx, hv, hp, hm, hh, hrest⟩
  · intro s m hk hq hs hf ha
    obtain ⟨t, hx, ⟨hv, hp, hm, hh⟩, hrest⟩ := gives_reanchorStep_armed hk hq hs hf ha
    exact ⟨t, hx, hv, hp, hm, hh, hrest⟩
  · intro s m hk hq hs hf
    obtain ⟨t, hx, ⟨hv, hr, hi⟩, hrest⟩ := gives_reanchorStay hk hq hs hf
    exact ⟨t, hx, hv, hr, hi, hrest⟩
  · intro s m hk hs
    exact gives_reanchorStay_elsewhere hk hs
  · intro s q hq hdue hc hwhy hd h0
    exact gives_hsiStep hq hdue hc hwhy hd h0
  · intro s h
    exact gives_hsiStep_none h
  · intro s hq hs ha hm hc hl hd h0
    exact gives_muteSheetStep hq hs ha hm hc hl hd h0
  · intro s h
    exact gives_muteSheetStep_none h
  · intro s m hk hs h4 hp
    exact gives_hsiSet_schedules hk ⟨hs, h4⟩ (by rw [State.hsiSetPending]; simpa using hp)
  · intro s m hk hs h4 hp
    exact gives_hsiSet_pending hk ⟨hs, h4⟩ hp
  · intro s m hk hq h
    exact gives_hsiSet_refused hk hq (State.not_takesHsiSet h)
  · intro s m hk
    obtain ⟨t, hx, ⟨hp, hg, hh⟩, hrest⟩ := gives_capture hk
    exact ⟨t, hx, hp, hg, hh, hrest⟩

end Sys2Proof.Machine
end

section
/-! Operations that write registers and CLK. -/

namespace Sys2Proof.Machine

/-- From s to t only words among ks have changed, and beside the words nothing but CLK. -/
def State.writesClk (s t : State) (ks : List Nat) : Prop := s.keeps t ks ∧ t = { s.regsOf t with clk := t.clk }

theorem State.writesClk_of_writes {s t : State} {ks : List Nat} (h : s.writes t ks) : s.writesClk t ks := by
  refine ⟨h.1, ?_⟩
  rw [h.2]; rfl

theorem State.writesClk_trans {s t u : State} {ks : List Nat} (h : s.writesClk t ks) (h' : t.writesClk u ks) : s.writesClk u ks := by
  refine ⟨State.keeps_append h.1 h'.1, ?_⟩
  rw [h'.2]; rw [h.2]; rfl

theorem State.writesClk_mono {s t : State} {ks ls : List Nat} (h : s.writesClk t ks) (hl : ∀ k ∈ ks, k ∈ ls) : s.writesClk t ls :=
  ⟨State.keeps_mono h.1 hl, h.2⟩

theorem State.writesClk_setClk (s : State) (f : ClkSt → ClkSt) (ks : List Nat) : s.writesClk (s.setClk f) ks :=
  ⟨fun _ _ => rfl, rfl⟩

theorem State.writesClk_settle {s t : State} {ks : List Nat} (h : s.writesClk t ks) : s.writesClk t.settle ks :=
  State.writesClk_trans h (State.writesClk_of_writes (t.writes_settle ks))

end Sys2Proof.Machine
end

section
/-! Clock outputs, SYNC_IN and LOCK_F (03_timebase R104–R108, R480, R484). -/

namespace Sys2Proof.Machine

/-! One output. -/

theorem outIndex_lt (o : ClockOut) : outIndex o < 8 := by
  cases o <;> simp only [outIndex] <;> omega

theorem outIndex_inj {o p : ClockOut} (h : outIndex o = outIndex p) : o = p := by
  cases o <;> cases p <;> simp only [outIndex, ClockOut.mclk.injEq, ClockOut.wclk.injEq, reduceCtorEq] at h ⊢ <;> omega

theorem State.clkOut_setOut_same (s : State) {o : ClockOut} (x : ClkOut) (h : outIndex o < s.clk.outs.length) :
    (s.setOut o x).clkOut o = x := by
  show (s.clk.outs.set (outIndex o) x).getD (outIndex o) _ = x
  simp [List.getD_eq_getElem?_getD, h]

theorem State.clkOut_setOut_other (s : State) {o p : ClockOut} (x : ClkOut) (h : p ≠ o) : (s.setOut o x).clkOut p = s.clkOut p := by
  have hi : outIndex o ≠ outIndex p := fun hi => h (outIndex_inj hi.symm)
  show (s.clk.outs.set (outIndex o) x).getD (outIndex p) _ = s.clk.outs.getD (outIndex p) _
  rw [List.getD_eq_getElem?_getD, List.getElem?_set_ne hi, ← List.getD_eq_getElem?_getD]

theorem State.length_outs_setOut (s : State) (o : ClockOut) (x : ClkOut) : (s.setOut o x).clk.outs.length = s.clk.outs.length :=
  List.length_set

@[simp] theorem State.settle_clkOut (s : State) (o : ClockOut) : s.settle.clkOut o = s.clkOut o := by
  simp only [State.clkOut, State.settle_clk]

theorem mem_clockOuts (o : ClockOut) : o ∈ clockOuts := by
  cases o with
  | mclk n => revert n; decide
  | wclk n => revert n; decide

theorem nextRise_ge (period shift t : Nat) : t ≤ nextRise period shift t := Nat.le_add_right _ _

theorem nextLow_ge (period high shift t : Nat) : t ≤ nextLow period high shift t := nextRise_ge _ _ _

/-- An output that starts with its configuration, from the start of the next low phase. -/
def State.outStarted (s : State) (o : ClockOut) : ClkOut :=
  let f := bits (s.n (outCfg o)) 2 1
  let sh := s.get R.CLK_SYNC_OFS_OFS
  let lo := nextLow (wavePeriod o f) (waveHigh o f) sh (max s.pllaNow (s.clkOut o).high)
  ⟨true, f, bits (s.n (outCfg o)) 5 4, s.mclkDelay o, sh, (s.clkOut o).high, lo, nextRise (wavePeriod o f) sh lo, (s.clkOut o).set⟩

theorem gives_clockOutputEnable {s : State} {o : ClockOut} (he : bitOf (s.n (outCfg o)) 0 = true) (hf : bits (s.n (outCfg o)) 2 1 ≠ 3)
    (hfmt : fmtOk o (bits (s.n (outCfg o)) 5 4) = true) (hr : (s.clkOut o).run = false) (hi : outIndex o < s.clk.outs.length) :
    Gives (.clockOutputEnable o) s fun t =>
      (t.clkOut o).run = true ∧ (t.clkOut o).freq = bits (s.n (outCfg o)) 2 1 ∧ (t.clkOut o).fmt = bits (s.n (outCfg o)) 5 4 ∧
      (t.clkOut o).shift = s.get R.CLK_SYNC_OFS_OFS ∧ s.pllaNow ≤ (t.clkOut o).low ∧ (t.clkOut o).low ≤ (t.clkOut o).start ∧
      (∀ p, p ≠ o → t.clkOut p = s.clkOut p) ∧ t.words = s.words ∧ s.keeps t [] ∧ t = { s.regsOf t with clk := t.clk } := by
  have hop : s.clkEnableOp o = s.setOut o (s.outStarted o) := if_pos (by simp [he, hf, hfmt, hr])
  have hx : (s.setOut o (s.outStarted o)).settle.clkOut o = s.outStarted o := (State.settle_clkOut _ _).trans (s.clkOut_setOut_same _ hi)
  refine gives_done (congrArg done hop : exec (.clockOutputEnable o) s = done _) ?_
  rw [hx]
  refine ⟨rfl, rfl, rfl, rfl, (le_max_left _ _).trans (nextLow_ge _ _ _ _), nextRise_ge _ _ _, fun p hp => ?_, State.settle_words _,
    State.writesClk_settle (s.writesClk_setClk _ [])⟩
  rw [State.settle_clkOut, s.clkOut_setOut_other _ hp]

theorem gives_clockOutputEnable_none {s : State} {o : ClockOut}
    (h : (!bitOf (s.n (outCfg o)) 0 || bits (s.n (outCfg o)) 2 1 == 3 || !fmtOk o (bits (s.n (outCfg o)) 5 4) || (s.clkOut o).run) = true) :
    Gives (.clockOutputEnable o) s fun t => s.keeps t [] ∧ t = s.regsOf t := by
  have hop : s.clkEnableOp o = s := if_neg fun hc => by
    simp only [Bool.and_eq_true, bne_iff_ne, Bool.not_eq_true', ne_eq] at hc
    obtain ⟨⟨⟨he, hf⟩, hfmt⟩, hr⟩ := hc
    simp [he, hf, hfmt, hr] at h
  exact gives_done (congrArg done hop : exec (.clockOutputEnable o) s = done s) (s.writes_settle [])

theorem gives_clockOutputDisable {s : State} {o : ClockOut}
    (h : (!bitOf (s.n (outCfg o)) 0 || bits (s.n (outCfg o)) 2 1 != (s.clkOut o).freq) = true) (hr : (s.clkOut o).run = true)
    (hi : outIndex o < s.clk.outs.length) :
    Gives (.clockOutputDisable o) s fun t =>
      t.clkOut o = { s.clkOut o with run := false, high := (s.clkOut o).highEnd o s.pllaNow } ∧
      (∀ p, p ≠ o → t.clkOut p = s.clkOut p) ∧ t.words = s.words ∧ s.keeps t [] ∧ t = { s.regsOf t with clk := t.clk } := by
  have hop : s.clkDisableOp o = s.setOut o { s.clkOut o with run := false, high := (s.clkOut o).highEnd o s.pllaNow } :=
    if_pos (by rw [hr, h]; rfl)
  refine gives_done (congrArg done hop : exec (.clockOutputDisable o) s = done _)
    ⟨?_, fun p hp => ?_, State.settle_words _, State.writesClk_settle (s.writesClk_setClk _ [])⟩
  · rw [State.settle_clkOut, s.clkOut_setOut_same _ hi]
  · rw [State.settle_clkOut, s.clkOut_setOut_other _ hp]

theorem gives_clockOutputDisable_none {s : State} {o : ClockOut}
    (h : (!(s.clkOut o).run || bitOf (s.n (outCfg o)) 0 && bits (s.n (outCfg o)) 2 1 == (s.clkOut o).freq) = true) :
    Gives (.clockOutputDisable o) s fun t => s.keeps t [] ∧ t = s.regsOf t := by
  have hop : s.clkDisableOp o = s := if_neg fun hc => by
    simp only [Bool.and_eq_true, Bool.or_eq_true, bne_iff_ne, Bool.not_eq_true', ne_eq] at hc
    obtain ⟨hr, he | hf⟩ := hc
    · simp [hr, he] at h
    · simp [hr, hf] at h
  exact gives_done (congrArg done hop : exec (.clockOutputDisable o) s = done s) (s.writes_settle [])

/-! A re-phase of every output (R107). -/

/-- The outputs of a list meet a re-phase. -/
def State.outsRephased (s : State) (l : List ClockOut) (first shift : Nat) : State :=
  s.each l fun s o => s.setOut o ((s.clkOut o).rephased o s.pllaNow first shift)

theorem State.outsRephased_cons (s : State) (o : ClockOut) (l : List ClockOut) (first shift : Nat) :
    s.outsRephased (o :: l) first shift =
      (s.setOut o ((s.clkOut o).rephased o s.pllaNow first shift)).outsRephased l first shift := rfl

theorem State.writesClk_outsRephased (s : State) (l : List ClockOut) (first shift : Nat) (ks : List Nat) :
    s.writesClk (s.outsRephased l first shift) ks :=
  s.each_induct (fun u => s.writesClk u ks) _ l (State.writesClk_of_writes (s.writes_refl ks)) fun u _ _ hu =>
    State.writesClk_trans hu (u.writesClk_setClk _ ks)

theorem State.clkOut_outsRephased_other {s : State} {l : List ClockOut} (first shift : Nat) {o : ClockOut} (h : o ∉ l) :
    (s.outsRephased l first shift).clkOut o = s.clkOut o :=
  s.each_induct (fun u => u.clkOut o = s.clkOut o) _ l rfl fun u _ hp hu =>
    (u.clkOut_setOut_other _ (ne_of_mem_of_not_mem hp h).symm).trans hu

/-- Each output of the list meets it once. -/
theorem State.clkOut_outsRephased {s : State} {l : List ClockOut} (first shift : Nat) {o : ClockOut} (hl : l.Nodup) (h : o ∈ l)
    (hi : outIndex o < s.clk.outs.length) :
    (s.outsRephased l first shift).clkOut o = (s.clkOut o).rephased o s.pllaNow first shift := by
  induction l generalizing s with
  | nil => cases h
  | cons p l ih =>
    obtain ⟨hp, hl⟩ := List.nodup_cons.mp hl
    rw [State.outsRephased_cons]
    rcases List.mem_cons.mp h with rfl | ho
    · rw [State.clkOut_outsRephased_other _ _ hp, State.clkOut_setOut_same _ _ hi]
    · have hne : o ≠ p := fun hop => hp (hop ▸ ho)
      rw [ih hl ho (by rw [State.length_outs_setOut]; exact hi), State.clkOut_setOut_other _ _ hne]
      rfl

/-- The words that a re-phase writes: STATUS, EVENT, SYNC_OFS and SYNC_CTRL. -/
def syncWords : List Nat := [R.CLK_S_PLLA_LOCK.addr, evKey eCLK, R.CLK_SYNC_OFS_OFS.addr, R.CLK_SYNC_CTRL_ARM.addr]

/-- What CLK's registers show of a re-phase to a shift. -/
def State.rephaseShown (s : State) (shift : Nat) : State :=
  (((s.put R.CLK_SYNC_OFS_OFS shift).putB R.CLK_SYNC_CTRL_ARM false).latch eCLK 5).syncArmed

theorem State.rephase_eq (s : State) (first shift : Nat) :
    s.rephase first shift = (s.outsRephased clockOuts first shift).rephaseShown shift := rfl

theorem State.get_syncArmed (s : State) {f : Fld} (h : f.addr ≠ 0x200C) : s.syncArmed.get f = s.get f :=
  State.keeps_get (s.keeps_put _ _) f (fun hm => h (List.mem_singleton.mp hm))

theorem State.rephaseShown_spec {s : State} {shift : Nat} (hq : s.quiet = true) (hs : shift < 65536) :
    s.writes (s.rephaseShown shift) syncWords ∧ (s.rephaseShown shift).get R.CLK_SYNC_OFS_OFS = shift ∧
      (s.rephaseShown shift).is R.CLK_SYNC_CTRL_ARM = false ∧
      (s.rephaseShown shift).is R.CLK_S_SYNC_ARMED = (decide (s.get R.CLK_SYNC_CTRL_MODE = 1) && s.is R.CLK_SYNC_CTRL_CONT) ∧
      (s.rephaseShown shift).hasEvent eCLK 5 = true := by
  have hmem : R.CLK_SYNC_OFS_OFS.addr ∈ syncWords ∧ R.CLK_SYNC_CTRL_ARM.addr ∈ syncWords ∧ evKey eCLK ∈ syncWords ∧
      R.CLK_S_SYNC_ARMED.addr ∈ syncWords := by decide +kernel
  obtain ⟨hofs, harm, hev, hst⟩ := hmem
  have hput : s.writes ((s.put R.CLK_SYNC_OFS_OFS shift).putB R.CLK_SYNC_CTRL_ARM false) syncWords :=
    State.writes_trans (s.writes_put _ hofs) (State.writes_put _ _ harm)
  have h0 : ((s.put R.CLK_SYNC_OFS_OFS shift).putB R.CLK_SYNC_CTRL_ARM false).get R.CLK_SYNC_OFS_OFS = shift :=
    (State.get_put_other _ _ _ _ (by decide) (by decide)).trans (State.get_put_fits _ (by decide) (by decide) hs)
  have h1 : ((s.put R.CLK_SYNC_OFS_OFS shift).putB R.CLK_SYNC_CTRL_ARM false).is R.CLK_SYNC_CTRL_ARM = false :=
    State.is_putB _ _ _ (by decide) rfl
  have hctrl : ∀ f : Fld, f.addr = 0x20B0 → f.hi < 4 ∨ 4 < f.lo →
      ((s.put R.CLK_SYNC_OFS_OFS shift).putB R.CLK_SYNC_CTRL_ARM false).get f = s.get f := fun f ha hf =>
    (State.get_put_other _ _ _ _ (by decide) (by right; simpa [R.CLK_SYNC_CTRL_ARM] using hf)).trans
      (State.get_put_other _ _ _ _ (by decide) (by left; rw [ha]; decide))
  have h2 := hctrl R.CLK_SYNC_CTRL_MODE rfl (by decide)
  have h3 := State.is_congr (hctrl R.CLK_SYNC_CTRL_CONT rfl (by decide))
  unfold State.rephaseShown
  generalize (s.put R.CLK_SYNC_OFS_OFS shift).putB R.CLK_SYNC_CTRL_ARM false = u at *
  have hqu : u.quiet = true := State.quiet_of_keeps hput.1 (by decide +kernel) hq
  refine ⟨State.writes_trans hput (State.writes_trans (State.writes_latch 5 hqu hev) (State.writes_put _ _ hst)), ?_, ?_, ?_, ?_⟩
  · rw [State.get_syncArmed _ (by decide), State.get_latch _ _ hqu (by decide), h0]
  · rw [State.is_congr (State.get_syncArmed _ (by decide)), State.is_latch _ _ hqu (by decide), h1]
  · rw [State.syncArmed, State.is_putB _ _ _ (by decide) rfl, State.get_latch _ _ hqu (by decide), State.is_latch _ _ hqu (by decide),
      State.is_latch _ _ hqu (by decide), h1, h2, h3, Bool.false_or]
  · rw [State.syncArmed, State.putB, State.hasEvent_congr (State.keeps_put _ _ _ _ (by decide +kernel))]
    exact State.hasEvent_latch _ _ _ (by decide) hqu

/-- From s to t every output has been re-phased to a shift, with no new edge before cycle `first`, and CLK's registers show it. -/
structure State.Rephased (s t : State) (first shift : Nat) : Prop where
  ofs : t.get R.CLK_SYNC_OFS_OFS = shift
  arm : t.is R.CLK_SYNC_CTRL_ARM = false
  armed : t.is R.CLK_S_SYNC_ARMED = (decide (s.get R.CLK_SYNC_CTRL_MODE = 1) && s.is R.CLK_SYNC_CTRL_CONT)
  outs : ∀ o, t.clkOut o = (s.clkOut o).rephased o s.pllaNow first shift
  event : t.hasEvent eCLK 5 = true
  writes : s.writesClk t syncWords

theorem State.rephased {s : State} {shift : Nat} (first : Nat) (hq : s.quiet = true) (hs : shift < 65536)
    (hl : s.clk.outs.length = 8) : s.Rephased (s.rephase first shift) first shift := by
  rw [State.rephase_eq]
  have hw := s.writesClk_outsRephased clockOuts first shift
  have houts : ∀ o, (s.outsRephased clockOuts first shift).clkOut o = (s.clkOut o).rephased o s.pllaNow first shift := fun o =>
    State.clkOut_outsRephased first shift (by decide) (mem_clockOuts o) (by rw [hl]; exact outIndex_lt o)
  generalize s.outsRephased clockOuts first shift = u at *
  obtain ⟨hw', ho, ha, hd, he⟩ := State.rephaseShown_spec (State.quiet_of_keeps (hw []).1 (by decide) hq) hs
  refine ⟨ho, ha, ?_, fun o => ?_, he, State.writesClk_trans (hw _) (State.writesClk_of_writes hw')⟩
  · rw [hd, State.keeps_get (hw []).1 _ List.not_mem_nil, State.keeps_is (hw []).1 List.not_mem_nil]
  · have hclk : (u.rephaseShown shift).clk = u.clk := by rw [hw'.2]; rfl
    rw [← houts o]
    simp only [State.clkOut, hclk]

theorem State.Rephased.settle {s t : State} {first shift : Nat} (h : s.Rephased t first shift) : s.Rephased t.settle first shift where
  ofs := by simpa using h.ofs
  arm := by simpa using h.arm
  armed := by simpa using h.armed
  outs := fun o => (t.settle_clkOut o).trans (h.outs o)
  event := by simpa using h.event
  writes := State.writesClk_settle h.writes

/-- The cycle of the last edge taken is no output's. -/
theorem State.Rephased.syncAt {s t : State} {first shift : Nat} (h : s.Rephased t first shift) (a : Option Nat) :
    s.Rephased (t.setClk fun c => { c with syncAt := a }) first shift where
  ofs := h.ofs
  arm := h.arm
  armed := h.armed
  outs := h.outs
  event := h.event
  writes := State.writesClk_trans h.writes (t.writesClk_setClk _ _)

theorem gives_syncInEdge {s : State} {x : Fin 6} (hq : s.quiet = true) (hm : s.get R.CLK_SYNC_CTRL_MODE = 1)
    (ha : s.is R.CLK_SYNC_CTRL_ARM = true ∨ s.is R.CLK_SYNC_CTRL_CONT = true)
    (hs : (s.clk.syncAt.all fun u => decide (u + usCyc 250 ≤ s.absCyc)) = true) (hl : s.clk.outs.length = 8) :
    Gives (.syncInEdge x) s fun t =>
      t.clk.syncAt = some s.absCyc ∧ s.Rephased t (s.pllaNow + 63 + x.val) ((s.pllaNow + 63 + x.val) % 51200) := by
  have hop : s.syncInOp x.val = (s.rephase (s.pllaNow + 63 + x.val) ((s.pllaNow + 63 + x.val) % 51200)).setClk fun c =>
      { c with syncAt := some s.absCyc } := by
    have hfirst : s.pllaNow + 64 + x.val - 1 = s.pllaNow + 63 + x.val := by omega
    rw [State.syncInOp, if_pos ⟨hm, ha, hs⟩, hfirst]
  have hr := (State.rephased (s.pllaNow + 63 + x.val) hq (by omega : (s.pllaNow + 63 + x.val) % 51200 < 65536) hl).syncAt (some s.absCyc)
  refine gives_done (congrArg done hop : exec (.syncInEdge x) s = done _) ⟨?_, hr.settle⟩
  rw [State.settle_clk]; rfl

theorem not_all_of_any {α : Type} {a : Option α} {p q : α → Bool} (h : ∀ x, p x = true → q x = false) (hp : a.any p = true) :
    a.all q = false := by
  cases a with
  | none => simp at hp
  | some x => exact h x hp

theorem gives_syncInEdge_none {s : State} {x : Fin 6} (h : s.get R.CLK_SYNC_CTRL_MODE ≠ 1 ∨
    s.is R.CLK_SYNC_CTRL_ARM = false ∧ s.is R.CLK_SYNC_CTRL_CONT = false ∨
    (s.clk.syncAt.any fun u => decide (s.absCyc < u + usCyc 250)) = true) :
    Gives (.syncInEdge x) s fun t => s.keeps t [] ∧ t = s.regsOf t := by
  have hop : s.syncInOp x.val = s := if_neg fun hc => by
    obtain ⟨hm, ha, hs⟩ := hc
    rcases h with h | ⟨harm, hcont⟩ | h
    · exact h hm
    · simp [harm, hcont] at ha
    · exact Bool.false_ne_true ((not_all_of_any (fun _ hu => decide_eq_false (Nat.not_le.mpr (of_decide_eq_true hu))) h).symm.trans hs)
  exact gives_done (congrArg done hop : exec (.syncInEdge x) s = done s) (s.writes_settle [])

theorem gives_syncPtpSecond {s : State} (hq : s.quiet = true) (hm : s.get R.CLK_SYNC_CTRL_MODE = 2) (hh : s.hsiNow % 48000 = 0)
    (hl : s.clk.outs.length = 8) : Gives .syncPtpSecond s fun t => s.Rephased t s.pllaNow 0 := by
  have hop : s.syncSecondOp = s.rephase s.pllaNow 0 := if_pos ⟨hm, hh⟩
  exact gives_done (congrArg done hop : exec .syncPtpSecond s = done _) (State.rephased s.pllaNow hq (by decide) hl).settle

theorem gives_syncPtpSecond_none {s : State} (h : s.get R.CLK_SYNC_CTRL_MODE ≠ 2 ∨ s.hsiNow % 48000 ≠ 0) :
    Gives .syncPtpSecond s fun t => s.keeps t [] ∧ t = s.regsOf t := by
  have hop : s.syncSecondOp = s := if_neg fun hc => by
    obtain ⟨hm, hh⟩ := hc
    exact h.elim (fun hn => hn hm) fun hn => hn hh
  exact gives_done (congrArg done hop : exec .syncPtpSecond s = done s) (s.writes_settle [])

/-! LOCK_F (R108). -/

/-- The low time counts while the device runs with VDDIO in tolerance. -/
theorem State.clk_setLockF (s : State) (b : Bool) (low : Nat) :
    (s.setLockF (if b then low else 400)).clk =
      { s.clk with lockF := if s.pwr.io then (if b && !s.pwr.off then low else 400) else 0 } := by
  simp only [State.setLockF, State.setClk]
  cases s.pwr.io <;> cases s.pwr.off <;> simp

theorem gives_lockFWindow {s : State} {e : BitVec 16} (hfs : s.get R.CLK_LOCKF_CFG_FS = 0) :
    Gives (.lockFWindow e) s fun t =>
      t.n 0x2080 = e.toNat ∧
      t.clk = { s.clk with lockF :=
        if s.pwr.io then (if s.is R.CLK_LOCKF_CFG_EN && s.is R.CLK_S_PLLA_LOCK && !s.pwr.off then
          min 400 (rndDiv (400 * e.toInt.natAbs) 250).toNat else 400) else 0 } ∧
      s.keeps t [0x2080] ∧ t = { s.regsOf t with clk := t.clk } := by
  have hk : s.keeps (s.setN 0x2080 e.toNat) [0x2080] := s.keeps_setW _ _
  have hg := State.keeps_get hk R.CLK_LOCKF_CFG_FS (by decide)
  have hen := State.keeps_is hk (f := R.CLK_LOCKF_CFG_EN) (by decide)
  have hlock := State.keeps_is hk (f := R.CLK_S_PLLA_LOCK) (by decide)
  have hop : s.lockFOp e = (s.setN 0x2080 e.toNat).setLockF
      (if s.is R.CLK_LOCKF_CFG_EN && s.is R.CLK_S_PLLA_LOCK then min 400 (rndDiv (400 * e.toInt.natAbs) 250).toNat else 400) := by
    simp only [State.lockFOp, hg, hfs, hen, hlock, Nat.cast_ofNat]
  have hw : s.writesClk (s.lockFOp e) [0x2080] := by
    rw [hop]
    exact State.writesClk_trans (State.writesClk_of_writes (s.writes_setW _ (by simp))) (State.writesClk_setClk _ _ _)
  rw [hop] at hw
  refine gives_done (congrArg done hop : exec (.lockFWindow e) s = done _) ⟨?_, ?_, State.writesClk_settle hw⟩
  · rw [State.settle_n]
    show (s.setW 0x2080 (w32 e.toNat)).n 0x2080 = e.toNat
    rw [State.n, State.setW_w_same, w32_toNat _ (by omega)]
  · have hclk : (s.setN 0x2080 e.toNat).clk = s.clk := rfl
    have hpwr : (s.setN 0x2080 e.toNat).pwr = s.pwr := rfl
    rw [State.settle_clk, State.clk_setLockF, hclk, hpwr]

/-- Settles O12: each clause is the rule of its command. -/
theorem clockOutputs : Obligations.ClockOutputs := by
  unfold Obligations.ClockOutputs
  refine ⟨?_, ?_, ?_, ?_, ?_, ?_, ?_, ?_, ?_⟩
  · intro s o he hf hfmt hr hi
    exact gives_clockOutputEnable he hf hfmt (by simpa using hr) hi
  · intro s o h
    exact gives_clockOutputEnable_none h
  · intro s o h hr hi
    exact gives_clockOutputDisable h hr hi
  · intro s o h
    exact gives_clockOutputDisable_none h
  · intro s x hq hm ha hs hl
    obtain ⟨t, hx, hat, hr⟩ := gives_syncInEdge (x := x) hq hm ha hs hl
    refine ⟨t, hx, hat, hr.ofs, hr.arm, ?_, ?_, hr.event, hr.writes⟩
    · rw [hr.armed, hm]; rfl
    · rw [hr.ofs]
      exact List.all_eq_true.mpr fun o _ => beq_iff_eq.mpr (hr.outs o)
  · intro s x h
    exact gives_syncInEdge_none h
  · intro s hq hm hh hl
    obtain ⟨t, hx, hr⟩ := gives_syncPtpSecond hq hm hh hl
    exact ⟨t, hx, hr.ofs, List.all_eq_true.mpr fun o _ => beq_iff_eq.mpr (hr.outs o), hr.event, hr.writes⟩
  · intro s h
    exact gives_syncPtpSecond_none h
  · intro s e hfs
    exact gives_lockFWindow hfs

end Sys2Proof.Machine
end

section
/-! RED follows the fault causes (14_redundancy R429): what that leaves of CLK and TIME, and what it comes down to while RED is
disabled. -/

namespace Sys2Proof.Machine

/-- From s to t the pages of CLK and TIME, and what belongs to them beyond their registers, have stayed. -/
structure State.ClockKept (s t : State) : Prop where
  words : ∀ k, k / 0x1000 = 2 ∨ k / 0x1000 = 3 → t.w k = s.w k
  clk : t.clk = s.clk
  time : t.time = s.time
  fail : t.pllbFail = s.pllbFail

theorem State.ClockKept.refl (s : State) : s.ClockKept s := ⟨fun _ _ => rfl, rfl, rfl, rfl⟩

theorem State.ClockKept.trans {s t u : State} (h : s.ClockKept t) (h' : t.ClockKept u) : s.ClockKept u where
  words := fun k hk => (h'.words k hk).trans (h.words k hk)
  clk := h'.clk.trans h.clk
  time := h'.time.trans h.time
  fail := h'.fail.trans h.fail

theorem State.ClockKept.get {s t : State} (h : s.ClockKept t) {f : Fld} (hf : f.addr / 0x1000 = 2 ∨ f.addr / 0x1000 = 3) :
    t.get f = s.get f := by simp only [State.get, State.n, h.words _ hf]

theorem State.ClockKept.is {s t : State} (h : s.ClockKept t) {f : Fld} (hf : f.addr / 0x1000 = 2 ∨ f.addr / 0x1000 = 3) :
    t.is f = s.is f := State.is_congr (h.get hf)

theorem State.clockKept_setW (s : State) {k : Nat} (v : Word) (hk : k / 0x1000 ≠ 2 ∧ k / 0x1000 ≠ 3) : s.ClockKept (s.setW k v) :=
  ⟨fun j hj => State.setW_w_other _ _ _ _ (by rintro rfl; omega), rfl, rfl, rfl⟩

theorem State.clockKept_put (s : State) {f : Fld} (v : Nat) (hf : f.addr / 0x1000 ≠ 2 ∧ f.addr / 0x1000 ≠ 3) : s.ClockKept (s.put f v) :=
  s.clockKept_setW _ hf

theorem State.clockKept_recogniseN (s : State) (t n late : Nat) : s.ClockKept (s.recogniseN t n late) := by
  unfold State.recogniseN
  split
  · exact .refl s
  · split
    · exact (s.clockKept_put _ (by decide)).trans (State.clockKept_setW _ _ (by decide +kernel))
    · exact ⟨fun _ _ => rfl, rfl, rfl, rfl⟩

/-- An event of another page. -/
theorem State.clockKept_latch (s : State) {src : Nat} (bit : Nat) (hs : evKey src / 0x1000 ≠ 2 ∧ evKey src / 0x1000 ≠ 3) :
    s.ClockKept (s.latch src bit) := by
  have h := s.clockKept_setW (w32 (s.n (evKey src) ||| 2 ^ bit)) hs
  show s.ClockKept (if _ then _ else _)
  split
  · exact h.trans (State.clockKept_recogniseN _ _ _ _)
  · exact h

theorem State.clockKept_gateClose (s : State) : s.ClockKept s.gateClose := by
  have h : s.ClockKept { s with gateNext := false } := ⟨fun _ _ => rfl, rfl, rfl, rfl⟩
  unfold State.gateClose
  dsimp only
  split
  · exact (h.trans (State.clockKept_put _ _ (by decide))).trans (State.clockKept_latch _ _ (by decide +kernel))
  · exact h

theorem State.clockKept_fence (s : State) : s.ClockKept s.fence := by
  unfold State.fence
  split
  · exact .refl s
  · have h1 := s.clockKept_gateClose.trans (State.clockKept_put _ (f := R.RED_S_GRANT) (b2n false) (by decide))
    have h2 : ∀ u : State, u.ClockKept (u.status R.RED_S_FENCED true eRED 1) := fun u => by
      cases h : u.is R.RED_S_FENCED
      · rw [State.status_set eRED 1 h]
        exact (u.clockKept_put _ (by decide)).trans (State.clockKept_latch _ _ (by decide +kernel))
      · rw [State.status_still eRED 1 (by simp [h])]
        exact u.clockKept_put _ (by decide)
    exact (h1.trans (h2 _)).trans ⟨fun _ _ => rfl, rfl, rfl, rfl⟩

/-- FAULT_CAUSE shows the causes, and of the enabled ones RED keeps which it has seen. -/
def State.causesShown (s : State) (act : Nat) : State :=
  (s.put R.RED_FAULT_CAUSE_CAUSE s.causes).modRed fun r => { r with shown := act }

theorem State.clockKept_causesShown (s : State) (act : Nat) : s.ClockKept (s.causesShown act) :=
  (s.clockKept_put _ (by decide)).trans ⟨fun _ _ => rfl, rfl, rfl, rfl⟩

/-- The enabled causes that are active. -/
def State.activeCauses (s : State) : Nat := if s.redOn then s.causes &&& (s.majW 0xD00AC).toNat % 128 else 0

/-- Those that RED has not seen yet. -/
def State.freshCauses (s : State) : List Nat := (List.range 7).filter fun i => bitOf s.activeCauses i && !bitOf s.red.shown i

theorem State.faultUpdate_eq (s : State) :
    s.faultUpdate =
      if s.freshCauses.isEmpty then s.causesShown s.activeCauses
      else if (s.freshCauses.any fun i => i != 6) && ((s.causesShown s.activeCauses).latch eRED 2).arbMode != 0 then
        ((s.causesShown s.activeCauses).latch eRED 2).fence
      else (s.causesShown s.activeCauses).latch eRED 2 := by
  have hk : s.keeps (s.put R.RED_FAULT_CAUSE_CAUSE s.causes) [R.RED_FAULT_CAUSE_CAUSE.addr] := s.keeps_put _ _
  have hon : (s.put R.RED_FAULT_CAUSE_CAUSE s.causes).redOn = s.redOn := State.keeps_is hk (by decide)
  have hen : (s.put R.RED_FAULT_CAUSE_CAUSE s.causes).majW 0xD00AC = s.majW 0xD00AC :=
    State.majW_of_writesTime (State.writesTime_of_writes (s.writes_put _ (List.mem_singleton_self _))) (by decide)
  unfold State.faultUpdate
  dsimp only
  rw [hon, hen]
  rfl

theorem State.clockKept_faultUpdate (s : State) : s.ClockKept s.faultUpdate := by
  have hshown := s.clockKept_causesShown s.activeCauses
  have hlatch := hshown.trans (State.clockKept_latch _ (src := eRED) 2 (by decide +kernel))
  rw [s.faultUpdate_eq]
  split
  · exact hshown
  · split
    · exact hlatch.trans (State.clockKept_fence _)
    · exact hlatch

/-- While RED is disabled, only FAULT_CAUSE follows. -/
theorem State.faultUpdate_off {s : State} (h : s.redOn = false) : s.faultUpdate = s.causesShown 0 := by
  have hact : s.activeCauses = 0 := if_neg (by simp [h])
  have hfresh : s.freshCauses = [] := List.filter_eq_nil_iff.mpr fun i _ => by simp [hact, bitOf]
  rw [s.faultUpdate_eq, hfresh, hact]
  rfl

/-- From s to t only words among ks have changed, and beside the words nothing but RED. -/
def State.writesRed (s t : State) (ks : List Nat) : Prop := s.keeps t ks ∧ t = { s.regsOf t with red := t.red }

theorem State.writesRed_faultUpdate {s : State} (h : s.redOn = false) : s.writesRed s.faultUpdate [R.RED_FAULT_CAUSE_CAUSE.addr] := by
  rw [State.faultUpdate_off h]
  exact ⟨s.keeps_put _ _, rfl⟩

end Sys2Proof.Machine
end

section
/-! The PLLs lock and unlock (03_timebase R78, R112, R93, R108). -/

namespace Sys2Proof.Machine

/-! What is left after the fault causes and EVT have followed. -/

theorem State.clockKept_followed (u : State) : u.ClockKept u.faultUpdate.settle :=
  u.clockKept_faultUpdate.trans
    ⟨fun k _ => u.faultUpdate.settle_w k, u.faultUpdate.settle_clk, u.faultUpdate.settle_time, u.faultUpdate.settle_pllbFail⟩

/-- While RED is disabled no word changes but the command's own and FAULT_CAUSE, and nothing else but RED. -/
theorem State.writesRed_followed {s u : State} {ks : List Nat} (hk : s.keeps u ks) (hr : R.RED_C_EN.addr ∉ ks)
    (h : (!s.redOn) = true) :
    s.keeps u.faultUpdate.settle (ks ++ [R.RED_FAULT_CAUSE_CAUSE.addr]) ∧
      u.faultUpdate.settle = { u.regsOf u.faultUpdate.settle with red := u.faultUpdate.settle.red } := by
  have hoff : s.redOn = false := by simpa using h
  have hon : u.redOn = false := (State.keeps_is hk hr).trans hoff
  obtain ⟨hk', hf⟩ := State.writesRed_faultUpdate hon
  refine ⟨State.keeps_trans hk (State.keeps_settle hk'), ?_⟩
  rw [u.faultUpdate.regsOf_settle, hf]; rfl

/-- A command that writes CLK: RED's part in its frame. -/
theorem State.frame_followed_clk {s u : State} {ks : List Nat} (hw : s.writesClk u ks) (hr : R.RED_C_EN.addr ∉ ks)
    (h : (!s.redOn) = true) :
    s.keeps u.faultUpdate.settle (ks ++ [R.RED_FAULT_CAUSE_CAUSE.addr]) ∧
      u.faultUpdate.settle =
        { s.regsOf u.faultUpdate.settle with red := u.faultUpdate.settle.red, clk := u.faultUpdate.settle.clk } := by
  obtain ⟨hk, hf⟩ := State.writesRed_followed hw.1 hr h
  refine ⟨hk, ?_⟩
  rw [hf, hw.2]; rfl

/-- The same for one that writes registers alone. -/
theorem State.frame_followed {s u : State} {ks : List Nat} (hw : s.writes u ks) (hr : R.RED_C_EN.addr ∉ ks) (h : (!s.redOn) = true) :
    s.keeps u.faultUpdate.settle (ks ++ [R.RED_FAULT_CAUSE_CAUSE.addr]) ∧
      u.faultUpdate.settle = { s.regsOf u.faultUpdate.settle with red := u.faultUpdate.settle.red } := by
  obtain ⟨hk, hf⟩ := State.writesRed_followed hw.1 hr h
  refine ⟨hk, ?_⟩
  rw [hf, hw.2]; rfl

/-! Locking. -/

/-- The word STATUS of CLK. -/
def clkStatus : List Nat := [R.CLK_S_PLLA_LOCK.addr]

theorem State.writes_clkStatus (s : State) {f : Fld} (b : Bool) (hf : f.addr = R.CLK_S_PLLA_LOCK.addr) :
    s.writes (s.putB f b) clkStatus := s.writes_put _ (by simp [clkStatus, hf])

/-- SSC_ACTIVE follows without another bit of STATUS. -/
theorem State.is_sscStatus (s : State) {f : Fld} (hf : f.addr ≠ R.CLK_S_SSC_ACTIVE.addr ∨ f.hi < 4) : s.sscStatus.is f = s.is f :=
  State.is_putB_other _ (by decide) (hf.imp_right Or.inl)

theorem State.writes_sscStatus (s : State) : s.writes s.sscStatus clkStatus := s.writes_clkStatus _ rfl

theorem State.pllBand_congr {s t : State} (h : s.writes t clkStatus) (p : Pll) : t.pllBand p = s.pllBand p := by
  have hg : ∀ f : Fld, f.addr ∉ clkStatus → t.get f = s.get f := fun f hf => State.keeps_get h.1 f hf
  cases p with
  | a => simp only [State.pllBand, State.getI, hg R.CAL_PLL_FUSE_BAND_A (by decide), hg R.CAL_PLL_USER_BAND_A (by decide)]
  | b => simp only [State.pllBand, State.getI, hg R.CAL_PLL_FUSE_BAND_B (by decide), hg R.CAL_PLL_USER_BAND_B (by decide)]

theorem State.writesClk_pllaLocked (s : State) : s.writesClk s.pllaLocked clkStatus :=
  State.writesClk_trans (State.writesClk_of_writes (s.writes_clkStatus true rfl)) (State.writesClk_setClk _ _ _)

theorem gives_pllLockA (s : State) :
    Gives (.pllLock .a) s fun t =>
      t.is R.CLK_S_PLLA_LOCK = true ∧ t.clk = { s.clk with bandA := s.pllBand .a } ∧
      ((!s.redOn) = true → s.keeps t (clkStatus ++ [R.RED_FAULT_CAUSE_CAUSE.addr]) ∧
        t = { s.regsOf t with red := t.red, clk := t.clk }) := by
  have hlock : s.pllaLocked.is R.CLK_S_PLLA_LOCK = true := s.is_putB _ _ (by decide) rfl
  have hclk : s.pllaLocked.clk = { s.clk with bandA := s.pllBand .a } := rfl
  have hk := s.pllaLocked.clockKept_followed
  exact gives_done (rfl : exec (.pllLock .a) s = done s.pllaLocked.faultUpdate)
    ⟨(hk.is (by decide)).trans hlock, hk.clk.trans hclk, State.frame_followed_clk s.writesClk_pllaLocked (by decide)⟩

theorem State.writesClk_pllbLocked (s : State) : s.writesClk s.pllbLocked clkStatus :=
  State.writesClk_trans (State.writesClk_trans (State.writesClk_of_writes (s.writes_clkStatus (f := R.CLK_S_PLLB_LOCK) true rfl))
    (State.writesClk_setClk _ _ _)) (State.writesClk_of_writes (State.writes_sscStatus _))

theorem State.n_setClk (s : State) (f : ClkSt → ClkSt) (k : Nat) : (s.setClk f).n k = s.n k := rfl
theorem State.get_setClk (s : State) (f : ClkSt → ClkSt) (g : Fld) : (s.setClk f).get g = s.get g := rfl
theorem State.is_setClk (s : State) (f : ClkSt → ClkSt) (g : Fld) : (s.setClk f).is g = s.is g := rfl

theorem State.lock_pllbLocked (s : State) : s.pllbLocked.is R.CLK_S_PLLB_LOCK = true := by
  rw [State.pllbLocked, State.is_sscStatus _ (by decide), State.is_setClk]
  exact s.is_putB _ _ (by decide) rfl

theorem State.bypass_pllbLocked (s : State) : s.pllbLocked.is R.CLK_S_PLLB_BYPASS = s.is R.CLK_S_PLLB_BYPASS := by
  rw [State.pllbLocked, State.is_sscStatus _ (by decide), State.is_setClk]
  exact State.is_putB_other _ (by decide) (by decide)

theorem State.clk_pllbLocked (s : State) : s.pllbLocked.clk = { s.clk with bandB := s.pllBand .b } := rfl

/-- PLL-B leaves its bypass. -/
def State.pllbUnbypassed (s : State) : State := s.putB R.CLK_S_PLLB_BYPASS false

theorem State.pllLockOp_b {s : State} (hd : s.domOn 13 = true) (hc : s.clk.change.isNone = true) :
    s.pllLockOp .b = (if s.pllbFail then s else s.pllbUnbypassed).pllbLocked := if_pos (by rw [hd, hc]; rfl)

theorem gives_pllLockB {s : State} (hd : s.domOn 13 = true) (hc : s.clk.change.isNone = true) (hf : s.pllbFail = false) :
    Gives (.pllLock .b) s fun t =>
      t.is R.CLK_S_PLLB_LOCK = true ∧ t.is R.CLK_S_PLLB_BYPASS = false ∧ t.clk = { s.clk with bandB := s.pllBand .b } ∧
      ((!s.redOn) = true → s.keeps t (clkStatus ++ [R.RED_FAULT_CAUSE_CAUSE.addr]) ∧
        t = { s.regsOf t with red := t.red, clk := t.clk }) := by
  have hop : s.pllLockOp .b = s.pllbUnbypassed.pllbLocked := by rw [State.pllLockOp_b hd hc, hf]; rfl
  have hx : exec (.pllLock .b) s = done s.pllbUnbypassed.pllbLocked.faultUpdate := congrArg (fun u : State => done u.faultUpdate) hop
  have hby : s.pllbUnbypassed.is R.CLK_S_PLLB_BYPASS = false := s.is_putB _ _ (by decide) rfl
  have hw := s.writes_clkStatus (f := R.CLK_S_PLLB_BYPASS) false rfl
  have hband : s.pllbUnbypassed.pllBand .b = s.pllBand .b := State.pllBand_congr hw .b
  have hclk : s.pllbUnbypassed.clk = s.clk := rfl
  have hk := s.pllbUnbypassed.pllbLocked.clockKept_followed
  refine gives_done hx ⟨?_, ?_, ?_, State.frame_followed_clk
    (State.writesClk_trans (State.writesClk_of_writes hw) (State.writesClk_pllbLocked _)) (by decide)⟩
  · rw [hk.is (by decide), State.lock_pllbLocked]
  · rw [hk.is (by decide), State.bypass_pllbLocked, hby]
  · rw [hk.clk, State.clk_pllbLocked, hclk, hband]

theorem gives_pllLockB_failed {s : State} (hd : s.domOn 13 = true) (hc : s.clk.change.isNone = true) (hf : s.pllbFail = true) :
    Gives (.pllLock .b) s fun t =>
      t.is R.CLK_S_PLLB_LOCK = true ∧ t.is R.CLK_S_PLLB_BYPASS = s.is R.CLK_S_PLLB_BYPASS ∧ t.pllbFail = true ∧
      t.clk = { s.clk with bandB := s.pllBand .b } ∧
      ((!s.redOn) = true → s.keeps t (clkStatus ++ [R.RED_FAULT_CAUSE_CAUSE.addr]) ∧
        t = { s.regsOf t with red := t.red, clk := t.clk }) := by
  have hop : s.pllLockOp .b = s.pllbLocked := by rw [State.pllLockOp_b hd hc, hf]; rfl
  have hx : exec (.pllLock .b) s = done s.pllbLocked.faultUpdate := congrArg (fun u : State => done u.faultUpdate) hop
  have hk := s.pllbLocked.clockKept_followed
  have hfail : s.pllbLocked.pllbFail = s.pllbFail := rfl
  refine gives_done hx ⟨?_, ?_, ?_, ?_, State.frame_followed_clk s.writesClk_pllbLocked (by decide)⟩
  · rw [hk.is (by decide), s.lock_pllbLocked]
  · rw [hk.is (by decide), s.bypass_pllbLocked]
  · rw [hk.fail, hfail, hf]
  · rw [hk.clk, s.clk_pllbLocked]

theorem gives_pllLockB_none {s : State} (h : (!s.domOn 13 || s.clk.change.isSome) = true) :
    Gives (.pllLock .b) s fun t =>
      t.is R.CLK_S_PLLB_LOCK = s.is R.CLK_S_PLLB_LOCK ∧ t.is R.CLK_S_PLLB_BYPASS = s.is R.CLK_S_PLLB_BYPASS ∧
      ((!s.redOn) = true → s.keeps t [R.RED_FAULT_CAUSE_CAUSE.addr] ∧ t = { s.regsOf t with red := t.red }) := by
  have hop : s.pllLockOp .b = s := if_neg fun hc => by
    obtain ⟨hd, hn⟩ := (Bool.and_eq_true _ _).mp hc
    rw [hd, ← Option.not_isNone, hn] at h
    exact absurd h (by decide)
  have hx : exec (.pllLock .b) s = done s.faultUpdate := congrArg (fun u : State => done u.faultUpdate) hop
  have hk := s.clockKept_followed
  exact gives_done hx ⟨hk.is (by decide), hk.is (by decide), State.frame_followed (s.writes_refl []) (by decide)⟩

/-! Unlocking. -/

/-- PLL-A is not locked, and LOCK_F low for the rest of its window. -/
def State.pllaOff (s : State) : State := (s.putB R.CLK_S_PLLA_LOCK false).setLockF 400

/-- With the event where it was locked. -/
def State.pllaLost (s : State) : State := if s.is R.CLK_S_PLLA_LOCK then s.pllaOff.latch eCLK 0 else s.pllaOff

theorem State.pllUnlockOp_a (s : State) :
    s.pllUnlockOp .a = if s.pllaLost.is R.CLK_S_REF_LOSS then s.pllaLost else s.pllaLost.holdover 5 := rfl

theorem State.writesClk_pllaOff (s : State) : s.writesClk s.pllaOff clkStatusWords :=
  State.writesClk_trans (State.writesClk_of_writes (s.writes_put _ (by decide +kernel))) (State.writesClk_setClk _ _ _)

theorem State.pllaLost_spec {s : State} (hq : s.quiet = true) :
    s.writesClk s.pllaLost clkStatusWords ∧ s.pllaLost.is R.CLK_S_PLLA_LOCK = false ∧
      s.pllaLost.is R.CLK_S_REF_LOSS = s.is R.CLK_S_REF_LOSS ∧ s.pllaLost.clk.lockF = (if s.pwr.io then 400 else 0) ∧
      (s.is R.CLK_S_PLLA_LOCK = true → s.pllaLost.hasEvent eCLK 0 = true) := by
  have hw := s.writesClk_pllaOff
  have hlock : s.pllaOff.is R.CLK_S_PLLA_LOCK = false := s.is_putB _ _ (by decide) rfl
  have hloss : s.pllaOff.is R.CLK_S_REF_LOSS = s.is R.CLK_S_REF_LOSS :=
    State.is_putB_other (f := R.CLK_S_PLLA_LOCK) false (by decide) (by decide)
  have hlockF : s.pllaOff.clk.lockF = if s.pwr.io then 400 else 0 := by
    show (if !s.pwr.io then 0 else if s.pwr.off then 400 else 400) = _
    cases s.pwr.io <;> simp
  have hq' := State.quiet_of_keeps hw.1 (by decide +kernel) hq
  unfold State.pllaLost
  generalize s.pllaOff = u at *
  split
  · have hl : u.writes (u.latch eCLK 0) clkStatusWords := State.writes_latch 0 hq' (by decide +kernel)
    have hclk : (u.latch eCLK 0).clk = u.clk := by rw [hl.2]; rfl
    exact ⟨State.writesClk_trans hw (State.writesClk_of_writes hl), (State.is_latch _ _ hq' (by decide)).trans hlock,
      (State.is_latch _ _ hq' (by decide)).trans hloss, by rw [hclk, hlockF], fun _ => State.hasEvent_latch _ _ _ (by decide) hq'⟩
  · next hn => exact ⟨hw, hlock, hloss, hlockF, fun h => absurd h hn⟩

theorem gives_pllUnlockA_lost {s : State} (hq : s.quiet = true) (hl : s.is R.CLK_S_REF_LOSS = true) :
    Gives (.pllUnlock .a) s fun t =>
      t.is R.CLK_S_PLLA_LOCK = false ∧ t.servo = s.servo ∧ t.clk.lockF = (if s.pwr.io then 400 else 0) ∧
      (s.is R.CLK_S_PLLA_LOCK = true → t.hasEvent eCLK 0 = true) ∧
      ((!s.redOn) = true → s.keeps t (clkStatusWords ++ [R.RED_FAULT_CAUSE_CAUSE.addr]) ∧
        t = { s.regsOf t with red := t.red, clk := t.clk }) := by
  obtain ⟨hw, hlock, hloss, hlockF, hev⟩ := State.pllaLost_spec hq
  have hop : s.pllUnlockOp .a = s.pllaLost := s.pllUnlockOp_a.trans (if_pos (hloss.trans hl))
  have hx : exec (.pllUnlock .a) s = done s.pllaLost.faultUpdate := congrArg (fun u : State => done u.faultUpdate) hop
  have hk := s.pllaLost.clockKept_followed
  refine gives_done hx ⟨(hk.is (by decide)).trans hlock, ?_, ?_, fun h => ?_, State.frame_followed_clk hw (by decide +kernel)⟩
  · exact (hk.get (by decide)).trans (State.keeps_get hw.1 _ (by decide +kernel))
  · rw [hk.clk, hlockF]
  · exact (State.hasEvent_congr (hk.words _ (by decide +kernel)) 0).trans (hev h)

theorem gives_pllUnlockA_present {s : State} (hq : s.quiet = true) (hl : s.is R.CLK_S_REF_LOSS = false) :
    Gives (.pllUnlock .a) s fun t =>
      t.is R.CLK_S_PLLA_LOCK = false ∧ t.servo = tHoldover ∧
      t.get R.TIME_SERVO_STATE_HOLD_REASON = (if s.is R.TIME_C_FORCE_HOLD then 3 else 5) ∧
      t.clk.lockF = (if s.pwr.io then 400 else 0) ∧ (s.is R.CLK_S_PLLA_LOCK = true → t.hasEvent eCLK 0 = true) ∧
      ((!s.redOn) = true → s.keeps t ((servoWords ++ clkStatusWords) ++ [R.RED_FAULT_CAUSE_CAUSE.addr]) ∧
        t = { s.regsOf t with red := t.red, time := t.time, clk := t.clk }) := by
  obtain ⟨hw, hlock, hloss, hlockF, hev⟩ := State.pllaLost_spec hq
  have hop : s.pllUnlockOp .a = s.pllaLost.holdover 5 := s.pllUnlockOp_a.trans (if_neg (by rw [hloss, hl]; decide))
  have hx : exec (.pllUnlock .a) s = done (s.pllaLost.holdover 5).faultUpdate := congrArg (fun u : State => done u.faultUpdate) hop
  generalize s.pllaLost = w at *
  have hforce : w.is R.TIME_C_FORCE_HOLD = s.is R.TIME_C_FORCE_HOLD := State.keeps_is hw.1 (by decide +kernel)
  have he := State.entersServo_holdover 5 (State.quiet_of_keeps hw.1 (by decide +kernel) hq)
  have hwt : w.writesTime (w.holdover 5) servoWords := he.writes_from
  have hall : s.keeps (w.holdover 5) (servoWords ++ clkStatusWords) :=
    State.keeps_append (State.keeps_mono hw.1 (by decide +kernel)) (State.keeps_mono hwt.1 (by decide +kernel))
  have hk := (w.holdover 5).clockKept_followed
  refine gives_done hx ⟨?_, (hk.get (by decide)).trans he.servo, ?_, ?_, fun h => ?_, fun hr => ?_⟩
  · rw [hk.is (by decide), State.keeps_is hwt.1 (by decide +kernel), hlock]
  · rw [hk.get (by decide), he.holdReason, ← hforce]
    simp only [true_or, if_true]
    split <;> rfl
  · rw [hk.clk, State.clk_of_writesTime hwt, hlockF]
  · rw [State.hasEvent_congr (hk.words _ (by decide +kernel)), State.hasEvent_congr (hwt.1 _ (by decide +kernel))]
    exact hev h
  · obtain ⟨hkeep, hfr⟩ := State.writesRed_followed hall (by decide +kernel) hr
    refine ⟨hkeep, ?_⟩
    rw [hfr, hwt.2, hw.2]; rfl

/-- PLL-B is not locked, so not spread. -/
def State.pllbOff (s : State) : State := (s.putB R.CLK_S_PLLB_LOCK false).sscStatus

theorem State.writes_pllbOff (s : State) : s.writes s.pllbOff clkStatus :=
  State.writes_trans (s.writes_clkStatus (f := R.CLK_S_PLLB_LOCK) false rfl) (State.writes_sscStatus _)

theorem State.lock_pllbOff (s : State) : s.pllbOff.is R.CLK_S_PLLB_LOCK = false :=
  (State.is_sscStatus _ (by decide)).trans (s.is_putB _ _ (by decide) rfl)

theorem State.pllUnlockOp_b (s : State) :
    s.pllUnlockOp .b = if s.is R.CLK_S_PLLB_LOCK && s.clk.change.isNone then s.pllbOff.latch eCLK 1 else s.pllbOff := rfl

theorem gives_pllUnlockB {s : State} (hq : s.quiet = true) (hl : s.is R.CLK_S_PLLB_LOCK = true) (hc : s.clk.change.isNone = true) :
    Gives (.pllUnlock .b) s fun t =>
      t.is R.CLK_S_PLLB_LOCK = false ∧ t.hasEvent eCLK 1 = true ∧
      ((!s.redOn) = true → s.keeps t (clkStatusWords ++ [R.RED_FAULT_CAUSE_CAUSE.addr]) ∧ t = { s.regsOf t with red := t.red }) := by
  have hop : s.pllUnlockOp .b = s.pllbOff.latch eCLK 1 := s.pllUnlockOp_b.trans (if_pos (by rw [hl, hc]; rfl))
  have hx : exec (.pllUnlock .b) s = done (s.pllbOff.latch eCLK 1).faultUpdate := congrArg (fun u : State => done u.faultUpdate) hop
  have hq' := State.quiet_of_keeps s.writes_pllbOff.1 (by decide) hq
  have hk := (s.pllbOff.latch eCLK 1).clockKept_followed
  refine gives_done hx ⟨?_, ?_, State.frame_followed
    (State.writes_trans (State.writes_mono s.writes_pllbOff (by decide +kernel)) (State.writes_latch 1 hq' (by decide +kernel)))
    (by decide +kernel)⟩
  · rw [hk.is (by decide), State.is_latch _ _ hq' (by decide), s.lock_pllbOff]
  · rw [State.hasEvent_congr (hk.words _ (by decide +kernel))]
    exact State.hasEvent_latch _ _ _ (by decide) hq'

theorem gives_pllUnlockB_changing {s : State} (hc : s.clk.change.isSome = true) :
    Gives (.pllUnlock .b) s fun t =>
      t.is R.CLK_S_PLLB_LOCK = false ∧
      ((!s.redOn) = true → s.keeps t (clkStatus ++ [R.RED_FAULT_CAUSE_CAUSE.addr]) ∧ t = { s.regsOf t with red := t.red }) := by
  have hn : s.clk.change.isNone = false := by rw [← Option.not_isSome, hc]; rfl
  have hop : s.pllUnlockOp .b = s.pllbOff := s.pllUnlockOp_b.trans (if_neg (by rw [hn, Bool.and_false]; decide))
  have hx : exec (.pllUnlock .b) s = done s.pllbOff.faultUpdate := congrArg (fun u : State => done u.faultUpdate) hop
  exact gives_done hx ⟨((s.pllbOff.clockKept_followed).is (by decide)).trans s.lock_pllbOff,
    State.frame_followed s.writes_pllbOff (by decide)⟩

end Sys2Proof.Machine
end

section
/-! A change of PLL-B is asked for (03_timebase R81, 12_dram R385). -/

namespace Sys2Proof.Machine

/-- A write to a register of CLK that is not triplicated: u is what its command makes of the stored word. -/
theorem gives_clkWrite {c : Instr} {s u : State} {m a i : Nat} {r : RegSpec} {v : Word} {ks : List Nat} {P : State → Prop}
    (hx : exec c s = done (s.regWrite m a v)) (hk : s.takes m a = true) (ha : a / 0x1000 = 2)
    (ho : a % 0x1000 = 8 ∨ 0x80 ≤ a % 0x1000) (hr : regOf a = some (r, i)) (ht : r.tmr = 0)
    (hu : (s.stored a r v).hookClk (a % 0x1000) v.toNat = u) (hw : (s.stored a r v).writesClk u ks)
    (hP : P (u.withBus (s.told m .ok [])).settle) :
    Gives c s fun t =>
      P t ∧ t.bus = s.told m .ok [] ∧ s.keeps t (a :: ks) ∧ t = { s.regsOf t with bus := t.bus, clk := t.clk } := by
  have hall : s.writesClk u (a :: ks) :=
    State.writesClk_trans (State.writesClk_of_writes (State.writes_mono (State.writes_stored v ht) (by simp)))
      (State.writesClk_mono hw fun k hk => List.mem_cons_of_mem _ hk)
  have hwrite : s.regWrite m a v = u.withBus (s.told m .ok []) :=
    State.regWrite_clkTime hk ha (Or.inl rfl) hr ((State.writeHook_clk _ m _ v ha ho).trans hu) (by rw [hall.2]; rfl) (by rw [hall.2]; rfl)
  refine gives_done (hx.trans (congrArg done hwrite)) ⟨hP, State.settle_bus _, State.keeps_answered hall.1 _, ?_⟩
  rw [State.regsOf_settle (u.withBus _), hall.2]; rfl

/-- The register PLLB_CFG. -/
def pllbCfgSpec : RegSpec := ⟨0x84, 1, 4, 0xf31, 0, 0, 0x80000000, 0, 0, 0, 0xf31, 0, false, false⟩

theorem regOf_pllbCfg : regOf 0x2084 = some (pllbCfgSpec, 0) := by decide +kernel

theorem State.hookClk_pllbCfg (s : State) (v : Nat) : s.hookClk 0x84 v = if bitOf v 31 then s.pllbApplyOp else s := by
  simp [State.hookClk]

/-- Some populated channel retrains. -/
def State.retraining (s : State) : Bool := (List.range s.dramN).any fun c => s.chanState c = chRetrain

/-- A change may be asked for: none is under way or waits, and PLL-B is on. -/
def State.takesApply (s : State) : Prop := s.clk.change.isNone = true ∧ s.clk.waiting = false ∧ s.domOn 13 = true

theorem State.pllbApplyOp_ignored {s : State} (h : ¬ s.takesApply) : s.pllbApplyOp = s := by
  refine if_pos (by_contra fun hc => h ?_)
  simp only [not_or, Bool.not_eq_true, Bool.not_eq_false, Option.isSome_eq_false_iff] at hc
  exact hc

theorem State.pllbApplyOp_taken {s : State} (h : s.takesApply) :
    s.pllbApplyOp = if s.retraining then s.setClk fun c => { c with waiting := true } else s.pllbStart := by
  obtain ⟨hc, hw, hd⟩ := h
  refine if_neg ?_
  simp only [not_or, Bool.not_eq_true, Bool.not_eq_false, Option.isSome_eq_false_iff]
  exact ⟨hc, hw, hd⟩

/-- The state in which APPLY acts: as before the write, for all that it looks at. -/
structure State.ApplyReady (s w : State) : Prop where
  takes : w.takesApply ↔ s.takesApply
  retraining : w.retraining = s.retraining
  clk : w.clk = s.clk
  slot : w.slot = s.slot

/-- The state of a channel is a field of its own page. -/
theorem State.chanState_of_keeps {s t : State} {ks : List Nat} (h : s.keeps t ks) {c : Nat} (hc : 0xB000C + 0x1000 * c ∉ ks) :
    t.chanState c = s.chanState c := State.keeps_get h _ hc

theorem State.applyReady (s : State) (v : Word) : s.ApplyReady (s.stored 0x2084 pllbCfgSpec v) := by
  have hw := State.writes_stored (s := s) (a := 0x2084) (r := pllbCfgSpec) v rfl
  have hclk := s.stored_clk 0x2084 pllbCfgSpec v
  have hdom : (s.stored 0x2084 pllbCfgSpec v).domOn 13 = s.domOn 13 := by
    simp only [State.domOn, State.keeps_get hw.1 R.PWR_DOM_ON_ON (by decide), s.stored_held 0x2084 pllbCfgSpec v]
  have hn : (s.stored 0x2084 pllbCfgSpec v).dramN = s.dramN := by
    simp only [State.dramN, State.majW_of_writesTime (State.writesTime_of_writes hw) (k := 0xB8080) (by decide)]
  have hst : ∀ c, (s.stored 0x2084 pllbCfgSpec v).chanState c = s.chanState c := fun c =>
    State.chanState_of_keeps hw.1 (by rw [List.mem_singleton]; omega)
  exact ⟨by simp only [State.takesApply, hclk, hdom], by simp only [State.retraining, hn, hst], hclk, s.stored_slot _ _ _⟩

/-- RATE reads as written. -/
theorem State.rate_stored (s : State) (v : Word) : (s.stored 0x2084 pllbCfgSpec v).is R.CLK_PLLB_CFG_RATE = bitOf v.toNat 0 := by
  have hg : (s.stored 0x2084 pllbCfgSpec v).get R.CLK_PLLB_CFG_RATE = bits v.toNat 0 0 :=
    State.stored_get (f := R.CLK_PLLB_CFG_RATE) v (by decide) (by decide)
  rw [State.is, hg]
  exact bits_bit_ne_zero _ 0

/-- The words that the start of a change writes. -/
def pllbStartWords : List Nat := [R.CLK_S_PLLA_LOCK.addr, R.CLK_PLLB_ACTIVE_CFG.addr]

/-- CLK's registers as a change starts. -/
def State.pllbStartShown (s : State) : State :=
  (((s.putB R.CLK_S_PLLB_BYPASS true).putB R.CLK_S_PLLB_LOCK false).put R.CLK_PLLB_ACTIVE_CFG (s.n 0x2084 % 4096)).sscStatus

theorem State.pllbStart_eq (s : State) :
    s.pllbStart = s.pllbStartShown.setClk fun c => { c with change := some s.slot, waiting := false } := by
  have hn : ((s.putB R.CLK_S_PLLB_BYPASS true).putB R.CLK_S_PLLB_LOCK false).n 0x2084 = s.n 0x2084 :=
    State.keeps_n (State.writes_trans (s.writes_clkStatus (f := R.CLK_S_PLLB_BYPASS) true rfl)
      (State.writes_clkStatus _ (f := R.CLK_S_PLLB_LOCK) false rfl)).1 (by decide)
  unfold State.pllbStart
  dsimp only
  rw [hn]
  rfl

theorem State.pllbStartShown_spec (s : State) :
    s.writes s.pllbStartShown pllbStartWords ∧ s.pllbStartShown.is R.CLK_S_PLLB_BYPASS = true ∧
      s.pllbStartShown.is R.CLK_S_PLLB_LOCK = false ∧ s.pllbStartShown.get R.CLK_PLLB_ACTIVE_CFG = s.n 0x2084 % 4096 := by
  have hb : (s.putB R.CLK_S_PLLB_BYPASS true).is R.CLK_S_PLLB_BYPASS = true := s.is_putB _ _ (by decide) rfl
  have hw := s.writes_clkStatus (f := R.CLK_S_PLLB_BYPASS) true rfl
  unfold State.pllbStartShown
  generalize s.putB R.CLK_S_PLLB_BYPASS true = u at *
  have hl : (u.putB R.CLK_S_PLLB_LOCK false).is R.CLK_S_PLLB_LOCK = false := u.is_putB _ _ (by decide) rfl
  have hb' : (u.putB R.CLK_S_PLLB_LOCK false).is R.CLK_S_PLLB_BYPASS = true := (State.is_putB_other _ (by decide) (by decide)).trans hb
  have hw' := State.writes_trans hw (u.writes_clkStatus (f := R.CLK_S_PLLB_LOCK) false rfl)
  generalize u.putB R.CLK_S_PLLB_LOCK false = x at *
  have hput := x.writes_put (f := R.CLK_PLLB_ACTIVE_CFG) (s.n 0x2084 % 4096) (ks := [R.CLK_PLLB_ACTIVE_CFG.addr]) (by simp)
  have hcfg : (x.put R.CLK_PLLB_ACTIVE_CFG (s.n 0x2084 % 4096)).get R.CLK_PLLB_ACTIVE_CFG = s.n 0x2084 % 4096 :=
    State.get_put_fits _ (by decide) (by decide) (Nat.mod_lt _ (by decide))
  generalize x.put R.CLK_PLLB_ACTIVE_CFG (s.n 0x2084 % 4096) = y at *
  refine ⟨?_, ?_, ?_, ?_⟩
  · exact State.writes_trans (State.writes_trans (State.writes_mono hw' (by decide)) (State.writes_mono hput (by decide)))
      (State.writes_mono y.writes_sscStatus (by decide))
  · rw [y.is_sscStatus (by decide), State.keeps_is hput.1 (by decide), hb']
  · rw [y.is_sscStatus (by decide), State.keeps_is hput.1 (by decide), hl]
  · exact (State.keeps_get y.writes_sscStatus.1 _ (by decide)).trans hcfg

theorem gives_pllbApply_starts {s : State} {m : Master} {v : Word} (hk : s.takes m.toNat 0x2084 = true) (hv : bitOf v.toNat 31 = true)
    (ht : s.takesApply) (hr : s.retraining = false) :
    Gives (.pllbApply m v) s fun t =>
      (t.clk.change = some s.slot ∧ t.is R.CLK_S_PLLB_BYPASS = true ∧ t.is R.CLK_S_PLLB_LOCK = false ∧
        t.get R.CLK_PLLB_ACTIVE_CFG = t.n 0x2084 % 4096 ∧ t.is R.CLK_PLLB_CFG_RATE = bitOf v.toNat 0) ∧
      t.bus = s.told m.toNat .ok [] ∧ s.keeps t (0x2084 :: pllbStartWords) ∧ t = { s.regsOf t with bus := t.bus, clk := t.clk } := by
  have hready := s.applyReady v
  have hrate := s.rate_stored v
  have hu : (s.stored 0x2084 pllbCfgSpec v).hookClk 0x84 v.toNat = (s.stored 0x2084 pllbCfgSpec v).pllbStart := by
    rw [State.hookClk_pllbCfg, if_pos hv, State.pllbApplyOp_taken (hready.takes.mpr ht), hready.retraining, hr]
    rfl
  rw [State.pllbStart_eq] at hu
  obtain ⟨hw, hby, hlk, hcfg⟩ := (s.stored 0x2084 pllbCfgSpec v).pllbStartShown_spec
  refine gives_clkWrite rfl hk rfl (by decide) regOf_pllbCfg rfl hu
    (State.writesClk_trans (State.writesClk_of_writes hw) (State.writesClk_setClk _ _ _)) ⟨?_, ?_, ?_, ?_, ?_⟩
  · rw [State.settle_clk, State.withBus_clk, ← hready.slot]; rfl
  · rw [State.settle_is, State.withBus_is, State.is_setClk, hby]
  · rw [State.settle_is, State.withBus_is, State.is_setClk, hlk]
  · rw [State.settle_get, State.withBus_get, State.settle_n, State.withBus_n, State.get_setClk, State.n_setClk, hcfg,
      State.keeps_n hw.1 (by decide)]
  · rw [State.settle_is, State.withBus_is, State.is_setClk, State.keeps_is hw.1 (by decide), hrate]

theorem gives_pllbApply_waits {s : State} {m : Master} {v : Word} (hk : s.takes m.toNat 0x2084 = true) (hv : bitOf v.toNat 31 = true)
    (ht : s.takesApply) (hr : s.retraining = true) :
    Gives (.pllbApply m v) s fun t =>
      (t.clk = { s.clk with waiting := true } ∧ t.is R.CLK_PLLB_CFG_RATE = bitOf v.toNat 0) ∧ t.bus = s.told m.toNat .ok [] ∧
      s.keeps t [0x2084] ∧ t = { s.regsOf t with bus := t.bus, clk := t.clk } := by
  have hready := s.applyReady v
  have hrate := s.rate_stored v
  have hu : (s.stored 0x2084 pllbCfgSpec v).hookClk 0x84 v.toNat =
      (s.stored 0x2084 pllbCfgSpec v).setClk fun c => { c with waiting := true } := by
    rw [State.hookClk_pllbCfg, if_pos hv, State.pllbApplyOp_taken (hready.takes.mpr ht), hready.retraining, hr]
    rfl
  refine gives_clkWrite rfl hk rfl (by decide) regOf_pllbCfg rfl hu (State.writesClk_setClk _ _ []) ⟨?_, ?_⟩
  · rw [State.settle_clk, State.withBus_clk, ← hready.clk]; rfl
  · rw [State.settle_is, State.withBus_is, State.is_setClk, hrate]

theorem gives_pllbApply_writes {s : State} {m : Master} {v : Word} (hk : s.takes m.toNat 0x2084 = true)
    (h : bitOf v.toNat 31 = false ∨ ¬ s.takesApply) :
    Gives (.pllbApply m v) s fun t =>
      t.is R.CLK_PLLB_CFG_RATE = bitOf v.toNat 0 ∧ t.bus = s.told m.toNat .ok [] ∧ s.keeps t [0x2084] ∧
      t = { s.regsOf t with bus := t.bus } := by
  have hready := s.applyReady v
  have hrate := s.rate_stored v
  have hu : (s.stored 0x2084 pllbCfgSpec v).hookClk 0x84 v.toNat = s.stored 0x2084 pllbCfgSpec v := by
    rw [State.hookClk_pllbCfg]
    rcases h with h | h
    · rw [h]; rfl
    · rw [State.pllbApplyOp_ignored fun hc => h (hready.takes.mp hc), ite_self]
  obtain ⟨t, hx, ⟨hclk, hrt⟩, hb, hkeep, hfr⟩ := gives_clkWrite (c := .pllbApply m v) (s := s) rfl hk rfl (by decide) regOf_pllbCfg rfl hu
    (State.writesClk_of_writes (State.writes_refl _ []))
    (P := fun t => t.clk = s.clk ∧ t.is R.CLK_PLLB_CFG_RATE = bitOf v.toNat 0)
    ⟨by rw [State.settle_clk, State.withBus_clk, hready.clk], by rw [State.settle_is, State.withBus_is, hrate]⟩
  refine ⟨t, hx, hrt, hb, hkeep, ?_⟩
  rw [hclk] at hfr
  exact hfr

end Sys2Proof.Machine
end

section
/-! The channels as PLL-B changes (12_dram R385): each at work enters self-refresh, with its owed refreshes first. -/

namespace Sys2Proof.Machine

/-! A loop over the channels. -/

theorem State.upto_succ (s : State) (n : Nat) (f : State → Nat → State) : s.upto (n + 1) f = f (s.upto n f) n := by
  simp only [State.upto, List.range_succ, List.foldl_append, List.foldl_cons, List.foldl_nil]

/-- A loop each of whose steps changes its own entry leaves each entry changed once. -/
theorem State.upto_pointwise {α : Type} {s : State} {n : Nat} {f : State → Nat → State} (R : State → Prop) (g : State → Nat → α)
    (h : α → α) (hs : R s)
    (hf : ∀ u i, i < n → R u → R (f u i) ∧ g (f u i) i = h (g u i) ∧ ∀ j < n, j ≠ i → g (f u i) j = g u j) :
    ∀ k ≤ n, R (s.upto k f) ∧ ∀ j < n, g (s.upto k f) j = if j < k then h (g s j) else g s j := by
  intro k hk
  induction k with
  | zero => exact ⟨hs, fun j _ => by simp [State.upto]⟩
  | succ k ih =>
    obtain ⟨hR, hg⟩ := ih (by omega)
    obtain ⟨hR', hself, hother⟩ := hf (s.upto k f) k (by omega) hR
    rw [State.upto_succ]
    refine ⟨hR', fun j hj => ?_⟩
    by_cases hjk : j = k
    · subst hjk
      rw [hself, hg j hj, if_neg (by omega), if_pos (by omega)]
    · rw [hother j hj hjk, hg j hj]
      simp only [show j < k + 1 ↔ j < k by omega]

/-! What a channel's operation writes. -/

/-- From s to t only words among ks have changed, and beside the words nothing but the channels' state. -/
def State.writesChans (s t : State) (ks : List Nat) : Prop := s.keeps t ks ∧ t = { s.regsOf t with chans := t.chans }

theorem State.writesChans_of_writes {s t : State} {ks : List Nat} (h : s.writes t ks) : s.writesChans t ks := by
  refine ⟨h.1, ?_⟩
  rw [h.2]; rfl

theorem State.writesChans_trans {s t u : State} {ks : List Nat} (h : s.writesChans t ks) (h' : t.writesChans u ks) :
    s.writesChans u ks := by
  refine ⟨State.keeps_append h.1 h'.1, ?_⟩
  rw [h'.2]; rw [h.2]; rfl

theorem State.writesChans_mono {s t : State} {ks ls : List Nat} (h : s.writesChans t ks) (hl : ∀ k ∈ ks, k ∈ ls) :
    s.writesChans t ls := ⟨State.keeps_mono h.1 hl, h.2⟩

theorem State.writesChans_setChan (s : State) (c : Nat) (x : ChanSt) (ks : List Nat) : s.writesChans (s.setChan c x) ks :=
  ⟨fun _ _ => rfl, rfl⟩

theorem State.clk_of_writesChans {s t : State} {ks : List Nat} (h : s.writesChans t ks) : t.clk = s.clk := by rw [h.2]; rfl

/-- The words of a channel that its refreshes and its self-refresh write: STATUS, REF_STATE, FORCED_CNT and EVENT. -/
def chanWords (c : Nat) : List Nat :=
  [(R.DRC_S_STATE.pg c).addr, (R.DRC_REF_STATE_OWED.pg c).addr, (R.DRC_FORCED_CNT_COUNT.pg c).addr, evKey (eDRC c)]

/-- The words that show whether DRAM is usable. -/
def usableWords : List Nat := [R.DPHY_S_USABLE.addr, evKey eDPHY]

theorem evKey_eDPHY : evKey eDPHY = 0xB8010 := by decide +kernel

theorem quietWord_chanWords (c : Nat) : 0x6080 ∉ chanWords c := by
  have h := evKey_ne (eDRC c) 0x6080 (by decide)
  simp only [chanWords, List.mem_cons, List.not_mem_nil, or_false, not_or, Fld.pg, R.DRC_S_STATE, R.DRC_REF_STATE_OWED,
    R.DRC_FORCED_CNT_COUNT]
  omega

theorem status_usableWords {c : Nat} (hc : c < 4) : 0xB000C + 0x1000 * c ∉ usableWords := by
  simp only [usableWords, evKey_eDPHY, R.DPHY_S_USABLE, List.mem_cons, List.not_mem_nil, or_false, not_or]
  omega

/-- STATUS of another channel is none of them. -/
theorem status_chanWords {c j : Nat} (h : j ≠ c) (hj : j < 4) : 0xB000C + 0x1000 * j ∉ chanWords c ++ usableWords := by
  have he := evKey_ne (eDRC c) (0xB000C + 0x1000 * j) (by omega)
  refine List.not_mem_append ?_ (status_usableWords hj)
  simp only [chanWords, List.mem_cons, List.not_mem_nil, or_false, not_or, Fld.pg, R.DRC_S_STATE, R.DRC_REF_STATE_OWED,
    R.DRC_FORCED_CNT_COUNT]
  omega

theorem quiet_of_writesChans {s t : State} {c : Nat} (h : s.writesChans t (chanWords c)) (hq : s.quiet = true) : t.quiet = true :=
  State.quiet_of_keeps h.1 (quietWord_chanWords c) hq

/-- From s to t only words of channel c have changed, and not its state. -/
def State.chanHeld (s t : State) (c : Nat) : Prop := s.writesChans t (chanWords c) ∧ t.chanState c = s.chanState c

theorem State.chanHeld_trans {s t u : State} {c : Nat} (h : s.chanHeld t c) (h' : t.chanHeld u c) : s.chanHeld u c :=
  ⟨State.writesChans_trans h.1 h'.1, h'.2.trans h.2⟩

theorem State.chanHeld_setChan (s : State) (c : Nat) (x : ChanSt) : s.chanHeld (s.setChan c x) c := ⟨s.writesChans_setChan c x _, rfl⟩

/-- Another field of the channel. -/
theorem State.chanHeld_put (s : State) {f : Fld} (v c : Nat) (hf : f.addr ∈ chanWords c) (hh : f.hi < 32)
    (hd : f.addr ≠ (R.DRC_S_STATE.pg c).addr ∨ 2 < f.lo) : s.chanHeld (s.put f v) c :=
  ⟨State.writesChans_of_writes (s.writes_put v hf), s.get_put_other f _ v hh (hd.imp Ne.symm fun h => Or.inl h)⟩

theorem State.chanHeld_rowOpen (s : State) (c : Nat) : s.chanHeld (s.rowOpen c) c :=
  s.chanHeld_put _ c (by simp [chanWords, Fld.pg, R.DRC_S_STATE, R.DRC_S_ROW_OPEN]) (by decide : (3 : Nat) < 32) (Or.inr (by decide : 2 < 3))

theorem State.chanHeld_latch {s : State} (bit c : Nat) (hq : s.quiet = true) : s.chanHeld (s.latch (eDRC c) bit) c :=
  ⟨State.writesChans_of_writes (State.writes_latch bit hq (by simp [chanWords])),
    State.get_latch _ _ hq (by simp only [Fld.pg, R.DRC_S_STATE]; omega)⟩

theorem State.chanHeld_forcedRefresh {s : State} (c : Nat) (hq : s.quiet = true) : s.chanHeld (s.forcedRefresh c) c := by
  have hbank : s.chanHeld (s.refreshBank c) c := State.chanHeld_trans (s.chanHeld_setChan c _) (State.chanHeld_rowOpen _ c)
  have hcount : s.chanHeld ((s.refreshBank c).addW (R.DRC_FORCED_CNT_COUNT.pg c) 1) c :=
    State.chanHeld_trans hbank (State.chanHeld_put _ _ c (by simp [chanWords]) (by decide : (31 : Nat) < 32)
      (Or.inl (by simp only [Fld.pg, R.DRC_S_STATE, R.DRC_FORCED_CNT_COUNT]; omega)))
  exact State.chanHeld_trans hcount (State.chanHeld_latch 6 c (quiet_of_writesChans hcount.1 hq))

theorem State.chanHeld_forceDownTo {s : State} (c k : Nat) (hq : s.quiet = true) : s.chanHeld (s.forceDownTo c k) c := by
  have hall : s.chanHeld (s.upto (s.owed c - k) fun s _ => s.forcedRefresh c) c :=
    s.upto_induct (fun u => s.chanHeld u c) _ _ ⟨State.writesChans_of_writes (s.writes_refl _), rfl⟩ fun u _ _ hu =>
      State.chanHeld_trans hu (State.chanHeld_forcedRefresh c (quiet_of_writesChans hu.1 hq))
  exact State.chanHeld_trans hall (State.chanHeld_put _ _ c (by simp [chanWords]) (by decide : (3 : Nat) < 32)
    (Or.inl (by simp only [Fld.pg, R.DRC_S_STATE, R.DRC_REF_STATE_OWED]; omega)))

/-! USABLE follows. -/

theorem State.writes_usableUpdate {s : State} (hq : s.quiet = true) : s.writes s.usableUpdate usableWords := by
  have hmem : R.DPHY_S_USABLE.addr ∈ usableWords ∧ evKey eDPHY ∈ usableWords := by decide +kernel
  obtain ⟨hu, he⟩ := hmem
  have hput := s.writes_put (f := R.DPHY_S_USABLE) (b2n s.dramUsable) hu
  have hq' : (s.putB R.DPHY_S_USABLE s.dramUsable).quiet = true := State.quiet_putB _ hq (by decide)
  unfold State.usableUpdate
  dsimp only
  split
  · exact State.writes_trans hput (State.writes_latch 2 hq' he)
  · split
    · exact State.writes_trans hput (State.writes_latch 1 hq' he)
    · exact hput

/-! Self-refresh. -/

/-- Where a channel's state goes as a change comes to its end: at work or in self-refresh, to self-refresh. -/
def rested (st : Nat) : Nat := if st = chOnline ∨ st = chDegraded then chSelfRefresh else st

/-- The rows of a channel are closed, and it is in self-refresh. -/
def State.rests (s : State) (c : Nat) : State :=
  let u := s.forceDownTo c 0
  (((u.setChan c { u.chan c with banks := (u.chan c).banks.map fun b => { b with row := none } }).rowOpen c).setChanState c
    chSelfRefresh).usableUpdate

theorem State.selfRefreshOp_eq {s : State} (h : s.clk.change.isSome = true) (c : Nat) :
    s.selfRefreshOp c = if s.chanState c = chOnline ∨ s.chanState c = chDegraded then s.rests c else s := by
  simp only [State.selfRefreshOp, h, true_and]
  rfl

theorem State.rests_spec {s : State} {c : Nat} (hq : s.quiet = true) (hc : c < 4) :
    s.writesChans (s.rests c) (chanWords c ++ usableWords) ∧ (s.rests c).chanState c = chSelfRefresh := by
  have hdown := State.chanHeld_forceDownTo (s := s) c 0 hq
  unfold State.rests
  dsimp only
  generalize s.forceDownTo c 0 = u at *
  have hrow := State.chanHeld_trans hdown (State.chanHeld_trans
    (u.chanHeld_setChan c { u.chan c with banks := (u.chan c).banks.map fun b => { b with row := none } }) (State.chanHeld_rowOpen _ c))
  generalize (u.setChan c { u.chan c with banks := (u.chan c).banks.map fun b => { b with row := none } }).rowOpen c = x at *
  have hset : s.writesChans (x.setChanState c chSelfRefresh) (chanWords c) :=
    State.writesChans_trans hrow.1 (State.writesChans_of_writes (x.writes_put _ (by simp [chanWords])))
  have hst : (x.setChanState c chSelfRefresh).chanState c = chSelfRefresh :=
    State.get_put_fits _ (by decide : (2 : Nat) < 32) (by decide : 0 ≤ 2 + 1) (by decide : chSelfRefresh < 2 ^ 3)
  have huse := State.writes_usableUpdate (quiet_of_writesChans hset hq)
  refine ⟨State.writesChans_trans (State.writesChans_mono hset fun k hk => List.mem_append_left _ hk)
    (State.writesChans_of_writes (State.writes_mono huse fun k hk => List.mem_append_right _ hk)), ?_⟩
  exact (State.chanState_of_keeps huse.1 (status_usableWords hc)).trans hst

/-- The words that the channels' self-refresh writes. -/
def restWords : List Nat := chanWords 0 ++ chanWords 1 ++ chanWords 2 ++ chanWords 3 ++ usableWords

theorem mem_restWords {c : Nat} (hc : c < 4) : ∀ k ∈ chanWords c ++ usableWords, k ∈ restWords := by
  intro k hk
  interval_cases c <;> simp only [restWords, List.mem_append] at hk ⊢ <;> tauto

theorem quietWord_restWords : 0x6080 ∉ restWords := by decide +kernel

theorem State.dramN_le (s : State) : s.dramN ≤ 4 := by
  unfold State.dramN; split <;> decide

/-- Every populated channel at work enters self-refresh. -/
theorem State.upto_selfRefreshOp {s : State} (hq : s.quiet = true) (hc : s.clk.change.isSome = true) :
    s.writesChans (s.upto s.dramN State.selfRefreshOp) restWords ∧
      ∀ c < s.dramN, (s.upto s.dramN State.selfRefreshOp).chanState c = rested (s.chanState c) := by
  have hn := s.dramN_le
  have h := State.upto_pointwise (s := s) (n := s.dramN) (f := State.selfRefreshOp) (fun u => s.writesChans u restWords)
    State.chanState rested (State.writesChans_of_writes (s.writes_refl _)) (fun u i hi hu => by
      have hcu : u.clk.change.isSome = true := by rw [State.clk_of_writesChans hu, hc]
      have hqu := State.quiet_of_keeps hu.1 quietWord_restWords hq
      rw [State.selfRefreshOp_eq hcu, rested]
      split
      · obtain ⟨hw, hst⟩ := State.rests_spec hqu (c := i) (by omega)
        exact ⟨State.writesChans_trans hu (State.writesChans_mono hw (mem_restWords (by omega))), hst, fun j hj hne =>
          State.chanState_of_keeps hw.1 (status_chanWords hne (by omega))⟩
      · exact ⟨hu, rfl, fun _ _ _ => rfl⟩) s.dramN le_rfl
  exact ⟨h.1, fun c hcn => (h.2 c hcn).trans (if_pos hcn)⟩

/-- A channel in self-refresh retrains. -/
def State.wakesToRetrain (s : State) (c : Nat) : State := if s.chanState c = chSelfRefresh then s.setChanState c chRetrain else s

/-- Where that leaves a channel's state. -/
def woken (st : Nat) : Nat := if st = chSelfRefresh then chRetrain else st

/-- Every populated channel in self-refresh starts to retrain. -/
theorem State.upto_wakesToRetrain (s : State) :
    s.writes (s.upto s.dramN State.wakesToRetrain) restWords ∧
      ∀ c < s.dramN, (s.upto s.dramN State.wakesToRetrain).chanState c = woken (s.chanState c) := by
  have hn := s.dramN_le
  have h := State.upto_pointwise (s := s) (n := s.dramN) (f := State.wakesToRetrain) (fun u => s.writes u restWords)
    State.chanState woken (s.writes_refl _) (fun u i hi hu => by
      rw [State.wakesToRetrain, woken]
      split
      · have hmem : (R.DRC_S_STATE.pg i).addr ∈ restWords := mem_restWords (c := i) (by omega) _ (by simp [chanWords])
        refine ⟨State.writes_trans hu (u.writes_put _ hmem), ?_, fun j hj hne => ?_⟩
        · exact State.get_put_fits _ (by decide : (2 : Nat) < 32) (by decide : 0 ≤ 2 + 1) (by decide : chRetrain < 2 ^ 3)
        · exact State.chanState_of_keeps (u.keeps_put _ _) (by simp only [Fld.pg, R.DRC_S_STATE, List.mem_singleton]; omega)
      · exact ⟨hu, rfl, fun _ _ _ => rfl⟩) s.dramN le_rfl
  exact ⟨h.1, fun c hcn => (h.2 c hcn).trans (if_pos hcn)⟩

end Sys2Proof.Machine
end

section
/-! CONV follows the DRAM (07_convolver R299): what that writes. -/

namespace Sys2Proof.Machine

/-- From s to t only words among ks have changed, and beside the words nothing but CONV. -/
def State.writesConv (s t : State) (ks : List Nat) : Prop := s.keeps t ks ∧ t = { s.regsOf t with conv := t.conv }

theorem State.writesConv_of_writes {s t : State} {ks : List Nat} (h : s.writes t ks) : s.writesConv t ks := by
  refine ⟨h.1, ?_⟩
  rw [h.2]; rfl

theorem State.writesConv_trans {s t u : State} {ks : List Nat} (h : s.writesConv t ks) (h' : t.writesConv u ks) : s.writesConv u ks := by
  refine ⟨State.keeps_append h.1 h'.1, ?_⟩
  rw [h'.2]; rw [h.2]; rfl

theorem State.writesConv_mono {s t : State} {ks ls : List Nat} (h : s.writesConv t ks) (hl : ∀ k ∈ ks, k ∈ ls) : s.writesConv t ls :=
  ⟨State.keeps_mono h.1 hl, h.2⟩

theorem State.writesConv_setLoad (s : State) (l : Option LoadSt) (ks : List Nat) : s.writesConv (s.setLoad l) ks :=
  ⟨fun _ _ => rfl, rfl⟩

/-- The words of CONV that show its bypass and its load, but for the causes of the bypass. -/
def convShown : List Nat := [R.CONV_S_BYPASS.addr, R.CONV_LOAD_STATUS_REASON.addr, R.CONV_SET_STATE_STATE_A.addr, evKey eCONV]

theorem quietWord_convShown : 0x6080 ∉ convShown := by decide +kernel

theorem event_convShown : evKey eCONV ∈ convShown := by simp [convShown]

theorem State.writes_loadReason {s : State} (r : Nat) (hq : s.quiet = true) : s.writes (s.loadReason r) convShown := by
  have hput := s.writes_put (f := R.CONV_LOAD_STATUS_REASON) r (ks := convShown) (by simp [convShown])
  exact State.writes_trans hput (State.writes_latch 4 (State.quiet_of_keeps hput.1 quietWord_convShown hq) event_convShown)

theorem State.writes_putSetState (s : State) (set st : Nat) : s.writes (s.putSetState set st) convShown := by
  unfold State.putSetState
  split
  · exact s.writes_put st (by simp [convShown])
  · exact s.writes_put st (by simp [convShown, R.CONV_SET_STATE_STATE_A, R.CONV_SET_STATE_STATE_B])

theorem State.writesConv_loadFail {s : State} (r : Nat) (hq : s.quiet = true) : s.writesConv (s.loadFail r) convShown := by
  have hmark := s.writes_put (f := R.CONV_S_LOADING) (b2n false) (ks := convShown) (by simp [convShown, R.CONV_S_BYPASS, R.CONV_S_LOADING])
  have hstop := State.writesConv_trans (State.writesConv_of_writes hmark) (State.writesConv_setLoad _ none convShown)
  have hreason : ∀ u : State, s.writesConv u convShown → s.writesConv (u.loadReason r) convShown := fun u hu =>
    State.writesConv_trans hu (State.writesConv_of_writes
      (State.writes_loadReason r (State.quiet_of_keeps hu.1 quietWord_convShown hq)))
  unfold State.loadFail
  split
  · exact State.writesConv_of_writes (s.writes_refl _)
  · refine hreason _ ?_
    split
    · exact hstop
    · exact State.writesConv_trans hstop (State.writesConv_of_writes (State.writes_putSetState _ _ _))

theorem State.writes_setBypass {s : State} (b : Bool) (hq : s.quiet = true) : s.writes (s.setBypass b) convShown := by
  have hput := s.writes_put (f := R.CONV_S_BYPASS) (b2n b) (ks := convShown) (by simp [convShown])
  unfold State.setBypass
  split
  · exact s.writes_refl _
  · exact State.writes_trans hput (State.writes_latch _ (State.quiet_of_keeps hput.1 quietWord_convShown hq) event_convShown)

/-- VERIFYING is a bit of the same STATUS as BYPASS. -/
theorem State.writes_verifying (s : State) (b : Bool) : s.writes (s.putB R.CONV_S_VERIFYING b) convShown :=
  s.writes_put _ (by simp [convShown, R.CONV_S_BYPASS, R.CONV_S_VERIFYING])

/-- The causes of the bypass that come from DRAM. -/
def State.dramCauses (s : State) : State :=
  (s.putB R.CONV_BYPASS_WHY_DRAM_OFF s.convDramOff).putB R.CONV_BYPASS_WHY_PLLB_FAIL s.pllbFail

theorem State.writes_dramCauses (s : State) : s.writes s.dramCauses [R.CONV_BYPASS_WHY_DRAM_OFF.addr] :=
  State.writes_trans (s.writes_put _ (by simp)) (State.writes_put _ _ (by simp [R.CONV_BYPASS_WHY_DRAM_OFF, R.CONV_BYPASS_WHY_PLLB_FAIL]))

theorem State.fail_dramCauses (s : State) : s.dramCauses.is R.CONV_BYPASS_WHY_PLLB_FAIL = s.pllbFail := State.is_putB _ _ _ (by decide) rfl

/-- What CONV does on them. -/
def State.dramFollowed (s : State) (was : Bool) : State :=
  if s.convUnusable then ((s.loadFail 4).putB R.CONV_S_VERIFYING false).setBypass true
  else if was then s.putB R.CONV_S_VERIFYING true else s

theorem State.convDram_on {s : State} (h : s.pageOn eCONV = true) :
    s.convDram = s.dramCauses.dramFollowed (s.is R.CONV_BYPASS_WHY_DRAM_OFF || s.is R.CONV_BYPASS_WHY_PLLB_FAIL) :=
  if_neg (by simp [h])

theorem State.convDram_off {s : State} (h : s.pageOn eCONV = false) : s.convDram = s := if_pos (by simp [h])

theorem State.writesConv_dramFollowed {s : State} (was : Bool) (hq : s.quiet = true) : s.writesConv (s.dramFollowed was) convShown := by
  unfold State.dramFollowed
  split
  · have hstop := State.writesConv_trans (State.writesConv_loadFail 4 hq) (State.writesConv_of_writes (State.writes_verifying _ false))
    exact State.writesConv_trans hstop
      (State.writesConv_of_writes (State.writes_setBypass true (State.quiet_of_keeps hstop.1 quietWord_convShown hq)))
  · split
    · exact State.writesConv_of_writes (s.writes_verifying true)
    · exact State.writesConv_of_writes (s.writes_refl _)

/-- The words of CONV that follow the DRAM. -/
def convWords : List Nat :=
  [R.CONV_S_BYPASS.addr, R.CONV_BYPASS_WHY_DRAM_OFF.addr, R.CONV_LOAD_STATUS_REASON.addr, R.CONV_SET_STATE_STATE_A.addr, evKey eCONV]

theorem State.convDram_spec {s : State} (hq : s.quiet = true) :
    s.writesConv s.convDram convWords ∧ (s.pageOn eCONV = true → s.convDram.is R.CONV_BYPASS_WHY_PLLB_FAIL = s.pllbFail) := by
  cases hp : s.pageOn eCONV
  · rw [State.convDram_off hp]
    exact ⟨State.writesConv_of_writes (s.writes_refl _), fun h => absurd h (by decide)⟩
  · rw [State.convDram_on hp]
    have hw := s.writes_dramCauses
    have hf := s.fail_dramCauses
    generalize s.dramCauses = u at *
    have hw' := State.writesConv_dramFollowed (s.is R.CONV_BYPASS_WHY_DRAM_OFF || s.is R.CONV_BYPASS_WHY_PLLB_FAIL)
      (State.quiet_of_keeps hw.1 (by decide) hq)
    refine ⟨State.writesConv_trans (State.writesConv_of_writes (State.writes_mono hw (by simp [convWords])))
      (State.writesConv_mono hw' (by simp [convShown, convWords])), fun _ => ?_⟩
    exact (State.keeps_is hw'.1 (by decide +kernel)).trans hf

end Sys2Proof.Machine
end

section
/-! A change of PLL-B ends (03_timebase R81, 12_dram R385). -/

namespace Sys2Proof.Machine

/-- From s to t only words among ks have changed, and beside the words nothing but CLK, PLLB_FAIL and the channels' state. -/
def State.writesPllb (s t : State) (ks : List Nat) : Prop :=
  s.keeps t ks ∧ t = { s.regsOf t with clk := t.clk, pllbFail := t.pllbFail, chans := t.chans }

theorem State.writesPllb_of_writes {s t : State} {ks : List Nat} (h : s.writes t ks) : s.writesPllb t ks := by
  refine ⟨h.1, ?_⟩
  rw [h.2]; rfl

theorem State.writesPllb_of_clk {s t : State} {ks : List Nat} (h : s.writesClk t ks) : s.writesPllb t ks := by
  refine ⟨h.1, ?_⟩
  rw [h.2]; rfl

theorem State.writesPllb_of_chans {s t : State} {ks : List Nat} (h : s.writesChans t ks) : s.writesPllb t ks := by
  refine ⟨h.1, ?_⟩
  rw [h.2]; rfl

theorem State.writesPllb_trans {s t u : State} {ks : List Nat} (h : s.writesPllb t ks) (h' : t.writesPllb u ks) : s.writesPllb u ks := by
  refine ⟨State.keeps_append h.1 h'.1, ?_⟩
  rw [h'.2]; rw [h.2]; rfl

theorem State.writesPllb_mono {s t : State} {ks ls : List Nat} (h : s.writesPllb t ks) (hl : ∀ k ∈ ks, k ∈ ls) : s.writesPllb t ls :=
  ⟨State.keeps_mono h.1 hl, h.2⟩

theorem State.pageOn_of_writesPllb {s t : State} {ks : List Nat} (h : s.writesPllb t ks) (hk : R.PWR_DOM_ON_ON.addr ∉ ks) (src : Nat) :
    t.pageOn src = s.pageOn src := by
  have hheld : t.held = s.held := by rw [h.2]; rfl
  simp only [State.pageOn, State.domOn, State.keeps_get h.1 R.PWR_DOM_ON_ON hk, hheld]

theorem State.dramN_of_writesPllb {s t : State} {ks : List Nat} (h : s.writesPllb t ks) (hk : 0xB8080 ∉ ks) : t.dramN = s.dramN := by
  have hA : t.tmrA = s.tmrA := by rw [h.2]; rfl
  have hB : t.tmrB = s.tmrB := by rw [h.2]; rfl
  have hm : t.majW 0xB8080 = s.majW 0xB8080 := by simp only [State.majW, h.1 _ hk, hA, hB]
  simp only [State.dramN, hm]

/-- CONV follows, and with nothing waiting in the fabric nothing else does. -/
theorem State.afterAccess_convDram {s t : State} {ks : List Nat} (h : s.writesPllb t ks) (hq : t.quiet = true)
    (hi : s.fabricIdle = true) : t.convDram.afterAccess = t.convDram := by
  refine State.afterAccess_idle _ ?_
  have hidle : t.convDram.fabricIdle = s.fabricIdle := by
    rw [(State.convDram_spec hq).1.2, h.2]; rfl
  exact hidle.trans hi

/-- The change is over; whether it failed stands until PLL-B starts again. -/
def State.changeOver (s : State) (failed : Bool) : State := { s.setClk fun c => { c with change := none } with pllbFail := failed }

theorem State.writesPllb_changeOver (s : State) (failed : Bool) (ks : List Nat) : s.writesPllb (s.changeOver failed) ks :=
  ⟨fun _ _ => rfl, rfl⟩

/-- The populated channels rest. -/
def State.allRest (s : State) : State := s.upto s.dramN State.selfRefreshOp

/-- PLL-B has locked with the new settings, before the channels retrain. -/
def State.relocked (s : State) : State := (s.allRest.changeOver false).pllbUnbypassed.pllbLocked.latch eCLK 2

theorem State.pllbLockedOp_eq {s : State} (h : s.clk.change.isSome = true) :
    s.pllbLockedOp = (s.relocked.upto s.relocked.dramN State.wakesToRetrain).usableUpdate :=
  if_neg (by rw [← Option.not_isSome, h]; decide)

/-- The words that the end of a change writes but for CONV's. -/
def changeWords : List Nat := restWords ++ clkStatusWords

theorem quietWord_changeWords : 0x6080 ∉ changeWords := by decide +kernel

theorem restWords_changeWords : ∀ k ∈ restWords, k ∈ changeWords := fun _ hk => List.mem_append_left _ hk

theorem clkStatus_changeWords : ∀ k ∈ clkStatusWords, k ∈ changeWords := fun _ hk => List.mem_append_right _ hk

theorem State.allRest_spec {s : State} (hq : s.quiet = true) (hc : s.clk.change.isSome = true) :
    s.writesPllb s.allRest changeWords ∧ ∀ c < s.dramN, s.allRest.chanState c = rested (s.chanState c) := by
  obtain ⟨hw, hst⟩ := State.upto_selfRefreshOp hq hc
  exact ⟨State.writesPllb_mono (State.writesPllb_of_chans hw) restWords_changeWords, hst⟩

/-- STATUS of a channel is no word of CLK. -/
theorem status_clkStatusWords (c : Nat) : 0xB000C + 0x1000 * c ∉ clkStatusWords := by
  have h : clkStatusWords = [0x200C, 0x2010] := by decide +kernel
  rw [h]
  simp only [List.mem_cons, List.not_mem_nil, or_false, not_or]
  omega

theorem State.relocked_spec {s : State} (hq : s.quiet = true) (hc : s.clk.change.isSome = true) :
    s.writesPllb s.relocked changeWords ∧ s.relocked.clk.change = none ∧ s.relocked.pllbFail = false ∧
      s.relocked.is R.CLK_S_PLLB_LOCK = true ∧ s.relocked.is R.CLK_S_PLLB_BYPASS = false ∧ s.relocked.hasEvent eCLK 2 = true ∧
      ∀ c < s.dramN, s.relocked.chanState c = rested (s.chanState c) := by
  obtain ⟨hrest, hst⟩ := State.allRest_spec hq hc
  unfold State.relocked
  generalize s.allRest = u at *
  have hover := State.writesPllb_trans hrest (u.writesPllb_changeOver false changeWords)
  have hst' : ∀ c, (u.changeOver false).chanState c = u.chanState c := fun _ => rfl
  have hchange : (u.changeOver false).clk.change = none := rfl
  have hfail : (u.changeOver false).pllbFail = false := rfl
  generalize u.changeOver false = x at *
  have hby : x.pllbUnbypassed.is R.CLK_S_PLLB_BYPASS = false := x.is_putB _ _ (by decide) rfl
  have hlocked : x.writesClk x.pllbUnbypassed.pllbLocked clkStatusWords :=
    State.writesClk_mono (State.writesClk_trans (State.writesClk_of_writes (x.writes_clkStatus (f := R.CLK_S_PLLB_BYPASS) false rfl))
      (State.writesClk_pllbLocked _)) (by decide +kernel)
  have hlk := x.pllbUnbypassed.lock_pllbLocked
  have hb := x.pllbUnbypassed.bypass_pllbLocked.trans hby
  have hch : x.pllbUnbypassed.pllbLocked.clk.change = none := hchange
  generalize x.pllbUnbypassed.pllbLocked = y at *
  have hqy := State.quiet_of_keeps (State.keeps_append hover.1 (State.keeps_mono hlocked.1 clkStatus_changeWords)) quietWord_changeWords hq
  have hlatch : y.writes (y.latch eCLK 2) clkStatusWords := State.writes_latch 2 hqy (by decide +kernel)
  have hclk : (y.latch eCLK 2).clk = y.clk := by rw [hlatch.2]; rfl
  have hf : (y.latch eCLK 2).pllbFail = x.pllbFail := by rw [hlatch.2, hlocked.2]; rfl
  refine ⟨?_, by rw [hclk, hch], hf.trans hfail, (State.is_latch _ _ hqy (by decide)).trans hlk,
    (State.is_latch _ _ hqy (by decide)).trans hb, State.hasEvent_latch _ _ _ (by decide) hqy, fun c hcn => ?_⟩
  · exact State.writesPllb_trans (State.writesPllb_trans hover
      (State.writesPllb_mono (State.writesPllb_of_clk hlocked) clkStatus_changeWords))
      (State.writesPllb_mono (State.writesPllb_of_writes hlatch) clkStatus_changeWords)
  · rw [State.chanState_of_keeps hlatch.1 (status_clkStatusWords c), State.chanState_of_keeps hlocked.1 (status_clkStatusWords c), hst',
      hst c hcn]

/-- From s to t the change of PLL-B has ended with lock. -/
structure State.ChangeLocked (s t : State) : Prop where
  change : t.clk.change = none
  fail : t.pllbFail = false
  lock : t.is R.CLK_S_PLLB_LOCK = true
  bypass : t.is R.CLK_S_PLLB_BYPASS = false
  event : t.hasEvent eCLK 2 = true
  chans : ∀ c < s.dramN, t.chanState c = woken (rested (s.chanState c))

theorem State.changeLocked_pllbLockedOp {s : State} (hq : s.quiet = true) (hc : s.clk.change.isSome = true) :
    s.ChangeLocked s.pllbLockedOp ∧ s.writesPllb s.pllbLockedOp changeWords := by
  obtain ⟨hw, hchange, hfail, hlk, hby, hev, hst⟩ := State.relocked_spec hq hc
  rw [State.pllbLockedOp_eq hc]
  have hn : s.relocked.dramN = s.dramN := State.dramN_of_writesPllb hw (by decide +kernel)
  generalize s.relocked = u at *
  obtain ⟨hwake, hst'⟩ := u.upto_wakesToRetrain
  generalize u.upto u.dramN State.wakesToRetrain = x at *
  rw [hn] at hst'
  have hqx := State.quiet_of_keeps (State.keeps_append hw.1 (State.keeps_mono hwake.1 restWords_changeWords)) quietWord_changeWords hq
  have huse := State.writes_usableUpdate hqx
  have hux : u.writes x.usableUpdate restWords :=
    State.writes_trans hwake (State.writes_mono huse fun k hk => List.mem_append_right _ hk)
  have hclk : x.usableUpdate.clk = u.clk := by rw [hux.2]; rfl
  have hf : x.usableUpdate.pllbFail = u.pllbFail := by rw [hux.2]; rfl
  refine ⟨⟨by rw [hclk, hchange], by rw [hf, hfail], ?_, ?_, ?_, fun c hcn => ?_⟩,
    State.writesPllb_trans hw (State.writesPllb_mono (State.writesPllb_of_writes hux) restWords_changeWords)⟩
  · rw [State.keeps_is hux.1 (by decide +kernel), hlk]
  · rw [State.keeps_is hux.1 (by decide +kernel), hby]
  · rw [State.hasEvent_congr (hux.1 _ (by decide +kernel)), hev]
  · have h4 := s.dramN_le
    rw [State.chanState_of_keeps huse.1 (status_usableWords (by omega)), hst' c hcn, hst c hcn]

/-- Words that CONV's following leaves. -/
theorem State.chanState_settled {s t : State} {ks : List Nat} (h : s.keeps t ks) {c : Nat} (hc : 0xB000C + 0x1000 * c ∉ ks) :
    t.settle.chanState c = s.chanState c := (t.settle_get _).trans (State.chanState_of_keeps h hc)

theorem status_convWords {c : Nat} (hc : c < 4) : 0xB000C + 0x1000 * c ∉ convWords := by
  have h : convWords = [0x8000C, 0x80094, 0x8008C, 0x80090, 0x80010] := by decide +kernel
  rw [h]
  simp only [List.mem_cons, List.not_mem_nil, or_false, not_or]
  omega

/-- The words that the end of a change writes, in the order of the pages. -/
def changeLockWords : List Nat :=
  chanWords 0 ++ chanWords 1 ++ chanWords 2 ++ chanWords 3 ++ clkStatusWords ++ usableWords ++ convWords

theorem changeWords_changeLockWords : ∀ k ∈ changeWords, k ∈ changeLockWords := by
  intro k hk
  simp only [changeWords, restWords, changeLockWords, List.mem_append] at hk ⊢
  tauto

theorem convWords_changeLockWords : ∀ k ∈ convWords, k ∈ changeLockWords := fun _ hk => List.mem_append_right _ hk

theorem woken_rested {st : Nat} (h : st = chOnline ∨ st = chDegraded ∨ st = chSelfRefresh) : woken (rested st) = chRetrain := by
  rcases h with rfl | rfl | rfl <;> decide

theorem rested_eq {st : Nat} (h : st = chOnline ∨ st = chDegraded ∨ st = chSelfRefresh) : rested st = chSelfRefresh := by
  rcases h with rfl | rfl | rfl <;> decide

theorem gives_pllbChangeLock {s : State} (hq : s.quiet = true) (hc : s.clk.change.isSome = true) (hi : s.fabricIdle = true) :
    Gives .pllbChangeLock s fun t =>
      t.clk.change = none ∧ t.pllbFail = false ∧ t.is R.CLK_S_PLLB_LOCK = true ∧ t.is R.CLK_S_PLLB_BYPASS = false ∧
      t.hasEvent eCLK 2 = true ∧
      (∀ c < s.dramN, (s.chanState c = chOnline ∨ s.chanState c = chDegraded ∨ s.chanState c = chSelfRefresh) →
        t.chanState c = chRetrain) ∧
      (s.pageOn eCONV = true → t.is R.CONV_BYPASS_WHY_PLLB_FAIL = false) ∧ s.keeps t changeLockWords ∧
      t = { s.regsOf t with clk := t.clk, pllbFail := t.pllbFail, chans := t.chans, conv := t.conv } := by
  obtain ⟨hl, hw⟩ := State.changeLocked_pllbLockedOp hq hc
  have hx : exec .pllbChangeLock s = done s.pllbLockedOp.convDram.afterAccess := rfl
  generalize s.pllbLockedOp = u at *
  have hqu := State.quiet_of_keeps hw.1 quietWord_changeWords hq
  rw [State.afterAccess_convDram hw hqu hi] at hx
  obtain ⟨hconv, hwhy⟩ := State.convDram_spec hqu
  have hclk : u.convDram.clk = u.clk := by rw [hconv.2]; rfl
  have hf : u.convDram.pllbFail = u.pllbFail := by rw [hconv.2]; rfl
  refine gives_done hx ⟨?_, ?_, ?_, ?_, ?_, fun c hcn hst => ?_, fun hp => ?_, State.keeps_settle
    (State.keeps_append (State.keeps_mono hw.1 changeWords_changeLockWords) (State.keeps_mono hconv.1 convWords_changeLockWords)), ?_⟩
  · rw [State.settle_clk, hclk, hl.change]
  · rw [State.settle_pllbFail, hf, hl.fail]
  · rw [State.settle_is, State.keeps_is hconv.1 (by decide +kernel), hl.lock]
  · rw [State.settle_is, State.keeps_is hconv.1 (by decide +kernel), hl.bypass]
  · rw [State.settle_hasEvent, State.hasEvent_congr (hconv.1 _ (by decide +kernel)), hl.event]
  · have h4 := s.dramN_le
    rw [State.chanState_settled hconv.1 (status_convWords (by omega)), hl.chans c hcn, woken_rested hst]
  · rw [State.settle_is, hwhy ((State.pageOn_of_writesPllb hw (by decide +kernel) _).trans hp), hl.fail]
  · rw [State.regsOf_settle u.convDram, hconv.2, hw.2]; rfl

/-! PLL-B has not locked. -/

/-- The words that a failed change writes. -/
def changeFailWords : List Nat :=
  chanWords 0 ++ chanWords 1 ++ chanWords 2 ++ chanWords 3 ++ [evKey eCLK] ++ usableWords

theorem restWords_changeFailWords : ∀ k ∈ restWords, k ∈ changeFailWords := by
  intro k hk
  simp only [restWords, changeFailWords, List.mem_append] at hk ⊢
  tauto

theorem quietWord_changeFailWords : 0x6080 ∉ changeFailWords := by decide +kernel

theorem State.pllbFailOp_failed {s : State} {t0 : Nat} (hc : s.clk.change = some t0) (h8 : t0 + 8 ≤ s.slot) :
    s.pllbFailOp = ((s.allRest.changeOver true).latch eCLK 3).usableUpdate := by
  unfold State.pllbFailOp
  rw [hc]
  exact if_neg (by omega)

theorem State.pllbFailOp_early {s : State} (h : (s.clk.change.all fun t0 => decide (s.slot < t0 + 8)) = true) : s.pllbFailOp = s := by
  unfold State.pllbFailOp
  split
  next t0 hc =>
    rw [hc, Option.all_some, decide_eq_true_eq] at h
    exact if_pos h
  next => rfl

/-- From s to t the change of PLL-B has ended without lock. -/
structure State.ChangeFailed (s t : State) : Prop where
  change : t.clk.change = none
  fail : t.pllbFail = true
  event : t.hasEvent eCLK 3 = true
  chans : ∀ c < s.dramN, t.chanState c = rested (s.chanState c)

theorem State.changeFailed_pllbFailOp {s : State} {t0 : Nat} (hq : s.quiet = true) (hc : s.clk.change = some t0)
    (h8 : t0 + 8 ≤ s.slot) : s.ChangeFailed s.pllbFailOp ∧ s.writesPllb s.pllbFailOp changeFailWords := by
  obtain ⟨hrest, hst⟩ := State.upto_selfRefreshOp hq (by rw [hc]; rfl)
  rw [State.pllbFailOp_failed hc h8]
  unfold State.allRest
  generalize s.upto s.dramN State.selfRefreshOp = u at *
  have hover := State.writesPllb_trans (State.writesPllb_mono (State.writesPllb_of_chans hrest) restWords_changeFailWords)
    (u.writesPllb_changeOver true changeFailWords)
  have hst' : ∀ c, (u.changeOver true).chanState c = u.chanState c := fun _ => rfl
  have hchange : (u.changeOver true).clk.change = none := rfl
  have hfail : (u.changeOver true).pllbFail = true := rfl
  generalize u.changeOver true = x at *
  have hqx := State.quiet_of_keeps hover.1 quietWord_changeFailWords hq
  have hlatch : x.writes (x.latch eCLK 3) [evKey eCLK] := State.writes_latch 3 hqx (by simp)
  have hev : (x.latch eCLK 3).hasEvent eCLK 3 = true := State.hasEvent_latch _ _ _ (by decide) hqx
  have huse := State.writes_usableUpdate (s := x.latch eCLK 3) (State.quiet_latch _ _ _ hqx)
  generalize x.latch eCLK 3 = y at *
  have hxy : x.writes y.usableUpdate changeFailWords :=
    State.writes_trans (State.writes_mono hlatch (by simp [changeFailWords]))
      (State.writes_mono huse fun k hk => List.mem_append_right _ hk)
  have hclk : y.usableUpdate.clk = x.clk := by rw [hxy.2]; rfl
  have hf : y.usableUpdate.pllbFail = x.pllbFail := by rw [hxy.2]; rfl
  refine ⟨⟨by rw [hclk, hchange], by rw [hf, hfail], ?_, fun c hcn => ?_⟩,
    State.writesPllb_trans hover (State.writesPllb_of_writes hxy)⟩
  · rw [State.hasEvent_congr (huse.1 _ (by decide +kernel)), hev]
  · have h4 := s.dramN_le
    have he := evKey_ne eCLK (0xB000C + 0x1000 * c) (by omega)
    rw [State.chanState_of_keeps huse.1 (status_usableWords (by omega)), State.chanState_of_keeps hlatch.1 (by simpa using he), hst',
      hst c hcn]

theorem gives_pllbFail {s : State} {t0 : Nat} (hq : s.quiet = true) (hc : s.clk.change = some t0) (h8 : t0 + 8 ≤ s.slot)
    (hi : s.fabricIdle = true) :
    Gives .pllbFail s fun t =>
      t.clk.change = none ∧ t.pllbFail = true ∧ t.hasEvent eCLK 3 = true ∧
      (∀ c < s.dramN, (s.chanState c = chOnline ∨ s.chanState c = chDegraded ∨ s.chanState c = chSelfRefresh) →
        t.chanState c = chSelfRefresh) ∧
      ((!s.pageOn eCONV) = true → s.keeps t changeFailWords ∧
        t = { s.regsOf t with clk := t.clk, pllbFail := t.pllbFail, chans := t.chans }) := by
  obtain ⟨hl, hw⟩ := State.changeFailed_pllbFailOp hq hc h8
  have hx : exec .pllbFail s = done s.pllbFailOp.convDram.afterAccess := rfl
  generalize s.pllbFailOp = u at *
  have hqu := State.quiet_of_keeps hw.1 quietWord_changeFailWords hq
  rw [State.afterAccess_convDram hw hqu hi] at hx
  obtain ⟨hconv, -⟩ := State.convDram_spec hqu
  have hclk : u.convDram.clk = u.clk := by rw [hconv.2]; rfl
  have hf : u.convDram.pllbFail = u.pllbFail := by rw [hconv.2]; rfl
  refine gives_done hx ⟨?_, ?_, ?_, fun c hcn hst => ?_, fun hp => ?_⟩
  · rw [State.settle_clk, hclk, hl.change]
  · rw [State.settle_pllbFail, hf, hl.fail]
  · rw [State.settle_hasEvent, State.hasEvent_congr (hconv.1 _ (by decide +kernel)), hl.event]
  · have h4 := s.dramN_le
    rw [State.chanState_settled hconv.1 (status_convWords (by omega)), hl.chans c hcn, rested_eq hst]
  · have hoff : u.pageOn eCONV = false := (State.pageOn_of_writesPllb hw (by decide +kernel) _).trans (by simpa using hp)
    rw [State.convDram_off hoff]
    refine ⟨State.keeps_settle hw.1, ?_⟩
    rw [State.regsOf_settle u, hw.2]; rfl

theorem gives_pllbFail_early {s : State} (h : (s.clk.change.all fun t0 => decide (s.slot < t0 + 8)) = true)
    (hi : s.fabricIdle = true) (hp : s.pageOn eCONV = false) : Gives .pllbFail s fun t => s.keeps t [] ∧ t = s.regsOf t := by
  have hop : s.pllbFailOp.convDram.afterAccess = s := by
    rw [State.pllbFailOp_early h, State.convDram_off hp, State.afterAccess_idle _ hi]
  exact gives_done (congrArg done hop : exec .pllbFail s = done s) (s.writes_settle [])

/-- Settles O9: each clause is the rule of its command. -/
theorem pllB : Obligations.PllB := by
  unfold Obligations.PllB
  refine ⟨?_, ?_, ?_, ?_, ?_, ?_, ?_, ?_, ?_, ?_, ?_, ?_, ?_, ?_⟩
  · intro s
    exact gives_pllLockA s
  · intro s hd hc hf
    exact gives_pllLockB hd hc (by simpa using hf)
  · intro s hd hc hf
    exact gives_pllLockB_failed hd hc hf
  · intro s h
    exact gives_pllLockB_none h
  · intro s hq hl
    exact gives_pllUnlockA_present hq (by simpa using hl)
  · intro s hq hl
    exact gives_pllUnlockA_lost hq hl
  · intro s hq hl hc
    exact gives_pllUnlockB hq hl hc
  · intro s hc
    exact gives_pllUnlockB_changing hc
  · intro s m v hk hv hc hw hd hr
    obtain ⟨t, hx, ⟨hch, hby, hlk, hcfg, hrate⟩, hrest⟩ :=
      gives_pllbApply_starts hk hv ⟨hc, by simpa using hw, hd⟩ (Bool.not_eq_true' _ ▸ hr)
    exact ⟨t, hx, hch, hby, hlk, hcfg, hrate, hrest⟩
  · intro s m v hk hv hc hw hd hr
    obtain ⟨t, hx, ⟨hclk, hrate⟩, hrest⟩ := gives_pllbApply_waits hk hv ⟨hc, by simpa using hw, hd⟩ hr
    exact ⟨t, hx, hclk, hrate, hrest⟩
  · intro s m v hk h
    refine gives_pllbApply_writes hk (or_iff_not_imp_left.mpr fun hv ht => ?_)
    obtain ⟨hc, hw, hd⟩ := ht
    simp [hv, hw, hd, Option.isSome_eq_false_iff.mpr hc] at h
  · intro s hq hc _ hi
    exact gives_pllbChangeLock hq hc hi
  · intro s t0 hq hc h8 _ hi
    exact gives_pllbFail hq hc h8 hi
  · intro s h hi hp
    exact gives_pllbFail_early h hi (by simpa using hp)

end Sys2Proof.Machine
end

section
/-! The counters of a port (04_network R126, R127): what counting writes, and what it leaves of its counter. -/

namespace Sys2Proof.Machine

theorem evKey_eMAC {p : Nat} (hp : p < 4) : evKey (eMAC p) = 0x10010 + 0x1000 * p := by
  have h : ∀ q : Fin 4, evKey (eMAC q.val) = 0x10010 + 0x1000 * q.val := by decide +kernel
  exact h ⟨p, hp⟩

/-- Counter i of port p. -/
def cntKey (p i : Nat) : Nat := 0x10400 + 0x1000 * p + 4 * i

/-- The word that holds its HALF bit. -/
def halfKey (p i : Nat) : Nat := 0x10500 + 0x1000 * p + 4 * (i / 32)

/-- The words that counting in counter i of port p writes. -/
def cntWords (p i : Nat) : List Nat := [cntKey p i, halfKey p i, evKey (eMAC p)]

theorem quietWord_cntWords {p : Nat} (hp : p < 4) (i : Nat) : 0x6080 ∉ cntWords p i := by
  simp only [cntWords, cntKey, halfKey, evKey_eMAC hp, List.mem_cons, List.not_mem_nil, or_false]
  omega

/-- The counter before its HALF bit and its event follow. -/
def State.counted (s : State) (p i n : Nat) : State := s.setN (cntKey p i) ((s.n (cntKey p i) + n) % 2 ^ 32)

theorem State.cnt_zero (s : State) (p i : Nat) : s.cnt p i 0 = s := if_pos rfl

/-- A count that is not zero writes the counter; where bit 31 changes, HALF and CNT_HALF follow (R126). -/
theorem State.cnt_cases (s : State) (p i : Nat) {n : Nat} (hn : n ≠ 0) :
    s.cnt p i n = s.counted p i n ∨
      s.cnt p i n = ((s.counted p i n).orW (halfKey p i) (2 ^ (i % 32))).latch (eMAC p) 14 := by
  rw [State.cnt, if_neg hn]
  dsimp only
  split
  · exact Or.inl rfl
  · exact Or.inr rfl

theorem State.writes_counted (s : State) (p i n : Nat) : s.writes (s.counted p i n) [cntKey p i] :=
  s.writes_setW _ (List.mem_singleton_self _)

/-- HALF and CNT_HALF follow, and nothing else. -/
theorem State.writes_half {s : State} {p : Nat} (i : Nat) (hq : s.quiet = true) (hp : p < 4) :
    s.writes ((s.orW (halfKey p i) (2 ^ (i % 32))).latch (eMAC p) 14)
      [halfKey p i, evKey (eMAC p)] := by
  have hor := s.keeps_setW (halfKey p i) (w32 (s.n (halfKey p i) ||| 2 ^ (i % 32)))
  refine State.writes_trans (s.writes_setW _ (by simp)) (State.writes_latch _ ?_ (by simp))
  exact State.quiet_of_keeps hor (by simp only [halfKey, List.mem_singleton]; omega) hq

theorem State.quiet_counted {s : State} (p i n : Nat) (hq : s.quiet = true) : (s.counted p i n).quiet = true :=
  State.quiet_of_keeps (s.writes_counted p i n).1 (by simp only [cntKey, List.mem_singleton]; omega) hq

theorem State.writes_cnt {s : State} {p : Nat} (i n : Nat) (hq : s.quiet = true) (hp : p < 4) : s.writes (s.cnt p i n) (cntWords p i) := by
  rcases eq_or_ne n 0 with rfl | hn
  · exact s.writes_refl _
  have hc : s.writes (s.counted p i n) (cntWords p i) := State.writes_mono (s.writes_counted p i n) (by simp [cntWords])
  rcases s.cnt_cases p i hn with h | h <;> rw [h]
  · exact hc
  · exact State.writes_trans hc (State.writes_mono (State.writes_half i (State.quiet_counted p i n hq) hp) (by simp [cntWords]))

theorem State.quiet_cnt {s : State} {p : Nat} (i n : Nat) (hq : s.quiet = true) (hp : p < 4) : (s.cnt p i n).quiet = true :=
  State.quiet_of_keeps (State.writes_cnt i n hq hp).1 (quietWord_cntWords hp i) hq

/-- The counter has grown by n, modulo 2^32. -/
theorem State.cnt_w_same {s : State} {p i : Nat} (n : Nat) (hq : s.quiet = true) (hp : p < 4) (hi : i < 64) :
    (s.cnt p i n).w (cntKey p i) = s.w (cntKey p i) + w32 n := by
  rcases eq_or_ne n 0 with rfl | hn
  · exact (BitVec.add_zero _).symm
  have hc : (s.counted p i n).w (cntKey p i) = s.w (cntKey p i) + w32 n := by
    rw [State.counted, State.setN_eq, State.setW_w_same]
    apply BitVec.eq_of_toNat_eq
    simp [w32, State.n]
  rcases s.cnt_cases p i hn with h | h <;> rw [h]
  · exact hc
  · refine ((State.writes_half i (State.quiet_counted p i n hq) hp).1 _ ?_).trans hc
    simp only [evKey_eMAC hp, cntKey, halfKey, List.mem_cons, List.not_mem_nil, or_false]
    omega

/-- Counting in another counter leaves it as it is. -/
theorem State.cnt_w_other {s : State} {p i j : Nat} (n : Nat) (hq : s.quiet = true) (hp : p < 4) (hj : j < 64) (h : j ≠ i) :
    (s.cnt p i n).w (cntKey p j) = s.w (cntKey p j) := by
  refine (State.writes_cnt i n hq hp).1 _ ?_
  simp only [cntWords, cntKey, halfKey, evKey_eMAC hp, List.mem_cons, List.not_mem_nil, or_false]
  omega

/-- A command that counts one in a counter of a port and does nothing else. -/
theorem gives_cnt {c : Instr} {s : State} {p i : Nat} (hx : exec c s = done (s.cnt p i 1)) (hq : s.quiet = true) (hp : p < 4)
    (hi : i < 64) :
    Gives c s fun t => t.w (cntKey p i) = s.w (cntKey p i) + 1 ∧ s.keeps t (cntWords p i) ∧ t = s.regsOf t := by
  have hw : s.writes (s.cnt p i 1).settle (cntWords p i) := State.writes_trans (State.writes_cnt i 1 hq hp) (State.writes_settle _ _)
  exact gives_done hx ⟨(State.settle_w _ _).trans (State.cnt_w_same 1 hq hp hi), hw.1, hw.2⟩

/-- A command that has no effect. -/
theorem gives_unchanged {c : Instr} {s : State} (hx : exec c s = done s) : Gives c s fun t => s.keeps t [] ∧ t = s.regsOf t :=
  gives_done hx (s.writes_settle [])

end Sys2Proof.Machine
end

section
/-! Legs and line errors (04_network R127, R141, R152; 13_apsal_systems R418). -/

namespace Sys2Proof.Machine

/-! A leg's timeout (R141). -/

/-- The sheets without a packet after which a leg goes down. -/
def State.legLimit (s : State) (c : Nat) : Nat :=
  if bits (s.n (winKey 13 1 (32 * c + 5))) 23 16 = 0 then 8 else bits (s.n (winKey 13 1 (32 * c + 5))) 23 16

/-- The words of a leg: its bit in LEG_UP, the run state of its context, and RXS's EVENT. -/
def legWords (c l : Nat) : List Nat := [legMap l + 4 * (c / 32), rxKey c 0, evKey eRXS]

theorem evKey_eRXS : evKey eRXS = 0x20010 := by decide +kernel

/-- The leg's bits are cleared; LEG_DOWN is not latched yet. -/
def State.legCleared (s : State) (c l : Nat) : State :=
  (s.clrW (legMap l + 4 * (c / 32)) (2 ^ (c % 32))).setN (rxKey c 0)
    (putBits ((s.clrW (legMap l + 4 * (c / 32)) (2 ^ (c % 32))).n (rxKey c 0)) l l 0)

theorem State.setLeg_down {s : State} {c l : Nat} (h : s.mapBit (legMap l) c = true) :
    s.setLeg c l false = (s.legCleared c l).latch eRXS 1 := by
  rw [State.setLeg, if_neg (by simp [h])]
  rfl

theorem State.writes_legCleared (s : State) (c l : Nat) : s.writes (s.legCleared c l) [legMap l + 4 * (c / 32), rxKey c 0] :=
  State.writes_trans (s.writes_setW _ (by simp)) (State.writes_setW _ _ (by simp))

theorem rxKey_ne_of_lt {c k : Nat} (w : Nat) (h : k < 0x8000000000) : rxKey c w ≠ k := by
  simp only [rxKey, winKey]; omega

theorem legMap_lt {c l : Nat} (hc : c < 256) (hl : l < 2) : 0x210A0 ≤ legMap l + 4 * (c / 32) ∧ legMap l + 4 * (c / 32) < 0x210E0 := by
  simp only [legMap]; omega

theorem bitOf_clear (w : Word) (i : Nat) : bitOf (w &&& ~~~ w32 (2 ^ i)).toNat i = false := by
  rw [bitOf, BitVec.testBit_toNat]
  by_cases hi : i < 32
  · have hbit : (w32 (2 ^ i)).getLsbD i = true := by rw [w32, BitVec.getLsbD_ofNat, Nat.testBit_two_pow_self]; simpa using hi
    rw [BitVec.getLsbD_and, BitVec.getLsbD_not, hbit]
    simp
  · exact BitVec.getLsbD_of_ge _ _ (by omega)

/-- The leg is down in LEG_UP and in the run state of its context. -/
theorem State.legCleared_down {s : State} {c l : Nat} (hc : c < 256) (hl : l < 2) :
    (s.legCleared c l).mapBit (legMap l) c = false ∧ bitOf ((s.legCleared c l).n (rxKey c 0)) l = false := by
  have hlow := legMap_lt hc hl
  constructor
  · rw [State.mapBit, State.n, State.legCleared, State.setN_eq, State.setW_w_other _ _ _ _ (rxKey_ne_of_lt 0 (by omega)).symm,
      State.clrW_eq, State.setW_w_same]
    exact bitOf_clear _ _
  · rw [State.n, State.legCleared, State.setN_eq, State.setW_w_same, w32_toNat _ (putBits_lt _ _ _ _ 32 (State.n_lt _ _) (by omega)),
      ← bits_bit_ne_zero, bits_putBits_same _ _ _ _ (by omega)]
    simp

/-- A leg that is up goes down. -/
theorem State.setLeg_down_spec {s : State} {c l : Nat} (hc : c < 256) (hl : l < 2) (hq : s.quiet = true)
    (h : s.mapBit (legMap l) c = true) :
    (s.setLeg c l false).mapBit (legMap l) c = false ∧ (s.setLeg c l false).hasEvent eRXS 1 = true ∧
      bitOf ((s.setLeg c l false).n (rxKey c 0)) l = false ∧ s.writes (s.setLeg c l false) (legWords c l) := by
  have hlow := legMap_lt hc hl
  have hcl := s.writes_legCleared c l
  have hq' : (s.legCleared c l).quiet = true := by
    refine State.quiet_of_keeps hcl.1 ?_ hq
    have := rxKey_ne_of_lt (c := c) (k := 0x6080) 0 (by omega)
    simp only [List.mem_cons, List.not_mem_nil, or_false]
    omega
  have hlatch := State.writes_latch (src := eRXS) (ks := [evKey eRXS]) 1 hq' (by simp)
  obtain ⟨hmap, hrun⟩ := s.legCleared_down hc hl
  rw [State.setLeg_down h]
  refine ⟨?_, State.hasEvent_latch _ _ _ (by decide) hq', ?_, State.writes_trans (State.writes_mono hcl ?_) (State.writes_mono hlatch ?_)⟩
  · rw [State.mapBit, State.keeps_n hlatch.1 (by rw [evKey_eRXS, List.mem_singleton]; omega)]
    exact hmap
  · rw [State.keeps_n hlatch.1 (by rw [evKey_eRXS, List.mem_singleton]; exact rxKey_ne_of_lt 0 (by omega))]
    exact hrun
  · simp [legWords]
  · simp [legWords]

/-- The leg is up, RXS runs, and the leg's last packet lies its limit of sheets back. -/
def State.legLate (s : State) (c l : Nat) : Prop :=
  s.pageOn eRXS = true ∧ s.mapBit (legMap l) c = true ∧ (s.rxCtx c).legLast.getD l 0 + s.legLimit c ≤ s.slot

theorem State.legTimeoutOp_late {s : State} {c l : Nat} (h : s.legLate c l) : s.legTimeoutOp c l = s.setLeg c l false := by
  obtain ⟨hp, hm, ht⟩ := h
  exact if_pos (by rw [hp, hm]; exact decide_eq_true ht)

theorem State.legTimeoutOp_early {s : State} {c l : Nat} (h : ¬ s.legLate c l) : s.legTimeoutOp c l = s := by
  refine if_neg fun hb => h ?_
  simp only [Bool.and_eq_true, decide_eq_true_eq] at hb
  exact ⟨hb.1.1, hb.1.2, hb.2⟩

theorem gives_legTimeout {s : State} {c : Fin 256} {l : Fin 2} (hq : s.quiet = true) (h : s.legLate c l) :
    Gives (.legTimeout c l) s fun t =>
      t.mapBit (legMap l) c = false ∧ t.hasEvent eRXS 1 = true ∧ bitOf (t.n (rxKey c 0)) l = false ∧
        s.keeps t (legWords c l) ∧ t = s.regsOf t := by
  obtain ⟨hmap, hev, hrun, hw⟩ := s.setLeg_down_spec c.isLt l.isLt hq h.2.1
  have hset : s.writes (s.setLeg c l false).settle (legWords c l) := State.writes_trans hw (State.writes_settle _ _)
  refine gives_done (congrArg done (State.legTimeoutOp_late h) : exec (.legTimeout c l) s = _) ⟨?_, ?_, ?_, hset.1, hset.2⟩
  · rw [State.mapBit, State.settle_n]; exact hmap
  · rw [State.settle_hasEvent]; exact hev
  · rw [State.settle_n]; exact hrun

theorem gives_legTimeout_early {s : State} {c : Fin 256} {l : Fin 2} (h : ¬ s.legLate c l) :
    Gives (.legTimeout c l) s fun t => s.keeps t [] ∧ t = s.regsOf t :=
  gives_unchanged (congrArg done (State.legTimeoutOp_early h))

/-! Errors on the line (R127, R152, R418). -/

/-- The MAC of a port counts: its page answers and its receiver is on. -/
def State.hears (s : State) (p : Nat) : Bool := s.portOn p && s.is (R.MAC_C_RX_EN.pg p)

theorem effPcsBlockError_mac (s : State) (p : Fin 4) :
    effPcsBlockError (.mac p) s = if s.hears p then s.cnt p 13 1 else s := rfl

theorem gives_pcsBlockError_apsal {s : State} {q : Fin 2} (h : s.pageOn eAPL = true) :
    Gives (.pcsBlockError (.apsal q)) s fun t =>
      t.get (R.APL_PCS_ERR_COUNT.ix q) = (s.get (R.APL_PCS_ERR_COUNT.ix q) + 1) % 2 ^ 32 ∧
        s.keeps t [(R.APL_PCS_ERR_COUNT.ix q).addr] ∧ t = s.regsOf t := by
  have hx : exec (.pcsBlockError (.apsal q)) s = done (s.addW (R.APL_PCS_ERR_COUNT.ix q) 1) := congrArg done (if_pos h)
  have hw : s.writes (s.addW (R.APL_PCS_ERR_COUNT.ix q) 1).settle [(R.APL_PCS_ERR_COUNT.ix q).addr] :=
    State.writes_trans (s.writes_put _ (by simp)) (State.writes_settle _ _)
  refine gives_done hx ⟨?_, hw.1, hw.2⟩
  rw [State.settle_get]
  exact s.get_addW _ 1 (by decide : (31 : Nat) < 32) (by decide : (0 : Nat) ≤ 31 + 1)

theorem effFecCodewordError_off {s : State} {p : Fin 4} (k : Bool) (h : (!s.portOn p || !s.is (R.MAC_S_FEC_ACTIVE.pg p)) = true) :
    effFecCodewordError p k s = s := if_pos h

theorem effFecCodewordError_on {s : State} {p : Fin 4} (k : Bool) (h : (!s.portOn p || !s.is (R.MAC_S_FEC_ACTIVE.pg p)) = false) :
    effFecCodewordError p k s =
      if k then s.cnt p 16 (b2n (s.is (R.MAC_C_RX_EN.pg p)))
      else (s.cnt p 17 (b2n (s.is (R.MAC_C_RX_EN.pg p)))).latch (eMAC p) 15 := if_neg (by simp [h])

/-- An uncorrectable codeword. -/
theorem gives_fecUncorrectable {s : State} {p : Fin 4} (hq : s.quiet = true)
    (h : (!s.portOn p || !s.is (R.MAC_S_FEC_ACTIVE.pg p)) = false) (hr : s.is (R.MAC_C_RX_EN.pg p) = true) :
    Gives (.fecCodewordError p false) s fun t =>
      t.w (cntKey p 17) = s.w (cntKey p 17) + 1 ∧ t.hasEvent (eMAC p) 15 = true ∧ s.keeps t (cntWords p 17) ∧ t = s.regsOf t := by
  have hx : exec (.fecCodewordError p false) s = done ((s.cnt p 17 1).latch (eMAC p) 15) :=
    congrArg done (by rw [effFecCodewordError_on _ h, hr]; rfl)
  have hq' := State.quiet_cnt 17 1 hq p.isLt
  have hlatch : (s.cnt p 17 1).writes ((s.cnt p 17 1).latch (eMAC p) 15) [evKey (eMAC p)] := State.writes_latch 15 hq' (by simp)
  have hw : s.writes ((s.cnt p 17 1).latch (eMAC p) 15).settle (cntWords p 17) :=
    State.writes_trans (State.writes_cnt 17 1 hq p.isLt)
      (State.writes_trans (State.writes_mono hlatch (by simp [cntWords])) (State.writes_settle _ _))
  refine gives_done hx ⟨?_, ?_, hw.1, hw.2⟩
  · rw [State.settle_w, hlatch.1 _ (by rw [List.mem_singleton]; exact evKey_ne _ _ (by simp only [cntKey]; omega))]
    exact State.cnt_w_same 1 hq p.isLt (by decide)
  · rw [State.settle_hasEvent]
    exact State.hasEvent_latch _ _ _ (by decide) hq'

/-- With the receiver off, or FEC not in force, nothing is counted. -/
theorem gives_fecCodewordError_off {s : State} {p : Fin 4} {k : Bool} (hq : s.quiet = true)
    (h : (!s.portOn p || !s.is (R.MAC_S_FEC_ACTIVE.pg p) || !s.is (R.MAC_C_RX_EN.pg p)) = true) :
    Gives (.fecCodewordError p k) s fun t => s.keeps t [evKey (eMAC p)] ∧ t = s.regsOf t := by
  have hw : s.writes (effFecCodewordError p k s) [evKey (eMAC p)] := by
    cases hf : (!s.portOn p || !s.is (R.MAC_S_FEC_ACTIVE.pg p))
    · have hr : s.is (R.MAC_C_RX_EN.pg p) = false := by simpa [hf] using h
      rw [effFecCodewordError_on k hf, hr]
      cases k
      · exact State.writes_latch (s := s) 15 hq (by simp)
      · exact s.writes_refl _
    · rw [effFecCodewordError_off k hf]
      exact s.writes_refl _
  exact gives_done rfl (State.writes_trans hw (State.writes_settle _ _))

/-- Settles O16: each clause is the rule of its command. -/
theorem legsAndLineErrors : Obligations.LegsAndLineErrors := by
  unfold Obligations.LegsAndLineErrors
  refine ⟨?_, ?_, ?_, ?_, ?_, ?_, ?_, ?_⟩
  · intro s c l hq hp hm ht
    exact gives_legTimeout hq ⟨hp, hm, ht⟩
  · intro s c l h
    refine gives_legTimeout_early fun ⟨hp, hm, ht⟩ => ?_
    rcases h with h | h | h
    · exact absurd hp (by simp [h])
    · exact absurd hm (by simp [h])
    · exact h ht
  · intro s p hq hp hr
    exact gives_cnt (congrArg done ((effPcsBlockError_mac s p).trans (if_pos (by simp [State.hears, hp, hr])))) hq p.isLt (by decide)
  · intro s p h
    exact gives_unchanged (congrArg done ((effPcsBlockError_mac s p).trans (if_neg (by simpa [State.hears, or_iff_not_imp_left] using h))))
  · intro s q h
    exact gives_pcsBlockError_apsal h
  · intro s p hq hp hf hr
    exact gives_fecUncorrectable hq (by simp [hp, hf]) hr
  · intro s p hq hp hf hr
    exact gives_cnt (congrArg done (by rw [effFecCodewordError_on _ (by simp [hp, hf]), hr]; rfl)) hq p.isLt (by decide)
  · intro s p k hq h
    exact gives_fecCodewordError_off hq h

end Sys2Proof.Machine
end

section
/-! Register writes to the ports that the rules let through (02_register_pages R52; 04_network R153). -/

namespace Sys2Proof.Machine

theorem srcOf_mac {a p : Nat} (ha : a / 0x1000 = 16 + p) (hp : p < 4) : srcOf a = some (9 + p) := by
  have hslot : ∀ q : Fin 4, srcOfSlot (16 + q.val) = some (9 + q.val) := by decide +kernel
  rw [srcOf, if_pos (by omega), ha]
  exact hslot ⟨p, hp⟩

/-- A register of a port, but for the entry window of the multicast filter, is a word of its own. -/
theorem State.locate_mac (s : State) (m : Nat) {a p i : Nat} {r : RegSpec} (ha : a / 0x1000 = 16 + p) (hp : p < 4)
    (ho : a % 0x1000 ≠ 0x104 ∧ a % 0x1000 ≠ 0x108) (hr : regOf a = some (r, i)) : s.locate m a = some ⟨a, r⟩ := by
  have hwin : windowPage (9 + p) = false := by
    simp only [windowPage, Bool.or_eq_false_iff, decide_eq_false_iff_not]; omega
  simp only [State.locate, srcOf_mac ha hp, hr]
  rw [if_neg (by omega), if_neg (by omega), if_neg (by simp [hwin]), if_neg (by omega), if_neg (by omega), if_neg (by omega)]

/-- A write that the page stores is handed to the port. -/
theorem State.storeReg_mac (s : State) (m : Nat) {a p i : Nat} {r : RegSpec} (v : Word) (ha : a / 0x1000 = 16 + p) (hp : p < 4)
    (ho : a % 0x1000 ≠ 0x104 ∧ a % 0x1000 ≠ 0x108) (hr : regOf a = some (r, i)) :
    s.storeReg m a 0 v = (s.stored a r v).writeHook m a (s.majW a) v := by
  have hadj : ∀ old new, s.adjust a old new = new := fun old new => by
    rw [State.adjust, if_neg (by omega), if_neg (by omega), if_neg (by omega), if_neg (by omega)]
  have hv : v &&& ~~~ w32 0 = v := BitVec.and_allOnes
  simp only [State.storeReg, s.locate_mac m ha hp ho hr, hadj, hv]
  rfl

theorem State.writeHook_mac (s : State) (m : Nat) {a p : Nat} (old v : Word) (ha : a / 0x1000 = 16 + p) (hp : p < 4)
    (ho : 0x80 ≤ a % 0x1000) : s.writeHook m a old v = s.hookMac p (a % 0x1000) old.toNat v.toNat := by
  simp only [State.writeHook, srcOf_mac ha hp, Option.getD_some, State.headerHook_none s (Or.inr ho)]
  rw [if_neg (by omega), if_neg (by omega), if_neg (by omega), if_neg (by omega), if_neg (by omega), if_neg (by omega),
    if_neg (by omega), if_neg (by omega), if_neg (by omega), if_pos (by omega), Nat.add_sub_cancel_left]

/-- The write is answered OK: u is what the port makes of the stored word. -/
theorem State.regWrite_mac {s u : State} {m a p i : Nat} {r : RegSpec} {v : Word} (hk : s.takes m a = true)
    (ha : a / 0x1000 = 16 + p) (hp : p < 4) (ho : 0x80 ≤ a % 0x1000 ∧ a % 0x1000 ≠ 0x104 ∧ a % 0x1000 ≠ 0x108)
    (hr : regOf a = some (r, i)) (hu : (s.stored a r v).hookMac p (a % 0x1000) (s.majW a).toNat v.toNat = u)
    (hi : u.fabricIdle = s.fabricIdle) (hb : u.bus = s.bus) : s.regWrite m a v = u.withBus (s.told m .ok []) := by
  have hst : s.storeReg m a 0 v = u :=
    (s.storeReg_mac m v ha hp ho.2 hr).trans ((State.writeHook_mac _ m _ v ha hp ho.1).trans hu)
  have hbl : s.blockRefuses a 0 v = none := by
    simp only [State.blockRefuses]
    rw [if_neg (by omega), if_neg (by omega), if_neg (by omega)]
  obtain ⟨-, hidle, -⟩ := (s.sees_iff m a true).mp ((s.takes_iff m a).mp hk).1
  rw [s.regWrite_ok m a v hk hbl (by rw [hst]; exact hi.trans hidle), hst, State.told, hb]
  rfl

end Sys2Proof.Machine
end

section
/-! Events that may be selected as snapshot trigger 3 (02_register_pages R47, R63, R65): what such an event changes beside its own bit. -/

namespace Sys2Proof.Machine

/-- From s to t no more has changed than events change: words, and the snapshots on their way. -/
def State.events (s t : State) : Prop := t = { s.regsOf t with snapQ := t.snapQ }

theorem State.events_refl (s : State) : s.events s := rfl

theorem State.events_of_regs {s t : State} (h : t = s.regsOf t) : s.events t := by
  unfold State.events
  rw [h]; rfl

theorem State.events_trans {s t u : State} (h : s.events t) (h' : t.events u) : s.events u := by
  unfold State.events at *
  rw [h']; rw [h]; rfl

/-- The words in which SNAP counts and shows a trigger that it discards. -/
def discardWords : List Nat := [R.SNAP_MISSED_COUNT.addr, evKey 6]

theorem discardWords_lt {k : Nat} (h : k ∈ discardWords) : k < 0x10000 := by
  have hall : ∀ k ∈ discardWords, k < 0x10000 := by decide +kernel
  exact hall k h

theorem State.recogniseN_spec (s : State) (t n late : Nat) :
    s.keeps (s.recogniseN t n late) discardWords ∧ s.events (s.recogniseN t n late) := by
  rw [State.recogniseN]
  split
  · exact ⟨s.keeps_refl _, s.events_refl⟩
  · split
    · have hw : s.writes ((s.addS R.SNAP_MISSED_COUNT n).orW (evKey 6) 2) discardWords :=
        State.writes_trans (s.writes_put _ (by simp [discardWords])) (State.writes_setW _ _ (by simp [discardWords]))
      exact ⟨hw.1, State.events_of_regs hw.2⟩
    · exact ⟨fun _ _ => rfl, rfl⟩

/-- An event latches its bit, and SNAP may recognise trigger 3. -/
theorem State.latch_spec (s : State) (src bit : Nat) :
    (s.orW (evKey src) (2 ^ bit)).keeps (s.latch src bit) discardWords ∧ s.events (s.latch src bit) := by
  have hor : s.events (s.orW (evKey src) (2 ^ bit)) := State.events_of_regs rfl
  simp only [State.latch, State.latches]
  split
  · obtain ⟨hk, he⟩ := (s.orW (evKey src) (2 ^ bit)).recogniseN_spec 3 1 0
    exact ⟨hk, State.events_trans hor he⟩
  · exact ⟨State.keeps_refl _ _, hor⟩

theorem State.keeps_latch_any (s : State) (src bit : Nat) : s.keeps (s.latch src bit) (evKey src :: discardWords) :=
  State.keeps_trans (s.keeps_setW _ _) (s.latch_spec src bit).1

theorem State.hasEvent_latch_any {s : State} {src bit : Nat} (hb : bit < 32) (hs : 0x10000 ≤ evKey src) :
    (s.latch src bit).hasEvent src bit = true := by
  have hk := (s.latch_spec src bit).1 (evKey src) fun hm => by have := discardWords_lt hm; omega
  rw [State.hasEvent_congr hk]
  exact s.hasEvent_orW src bit hb

end Sys2Proof.Machine
end

section
/-! A port's link (04_network R114, R141, R152). -/

namespace Sys2Proof.Machine

@[simp] theorem addr_linkStatus (p : Nat) : (R.MAC_S_LINK.pg p).addr = 0x1000C + 0x1000 * p := rfl

/-! The legs of a port whose link fell. -/

/-- From s to t the words of the ports are kept, and no more has changed than events change. -/
def State.portsKept (s t : State) : Prop := (∀ k, 0x10000 ≤ k → k < 0x14000 → t.w k = s.w k) ∧ s.events t

theorem State.portsKept_trans {s t u : State} (h : s.portsKept t) (h' : t.portsKept u) : s.portsKept u :=
  ⟨fun k hl hu => (h'.1 k hl hu).trans (h.1 k hl hu), State.events_trans h.2 h'.2⟩

theorem State.portsKept_setLeg {s : State} {c l : Nat} (hc : c < 256) (hl : l < 2) : s.portsKept (s.setLeg c l false) := by
  cases hm : s.mapBit (legMap l) c
  · have hset : s.setLeg c l false = s := if_pos hm
    rw [hset]
    exact ⟨fun _ _ _ => rfl, s.events_refl⟩
  · have hlow := legMap_lt hc hl
    obtain ⟨hk, hr⟩ := s.writes_legCleared c l
    rw [State.setLeg_down hm]
    refine ⟨fun k hkl hku => ?_, State.events_trans (State.events_of_regs hr) (State.latch_spec _ _ _).2⟩
    rw [(s.legCleared c l).keeps_latch_any eRXS 1 k, hk k]
    · have := rxKey_ne_of_lt (c := c) (k := k) 0 (by omega)
      simp only [List.mem_cons, List.not_mem_nil, or_false]
      omega
    · rw [evKey_eRXS, List.mem_cons]
      rintro (h | h)
      · omega
      · have := discardWords_lt h; omega

theorem State.portsKept_portLegsDown (s : State) (p : Nat) : s.portsKept (s.portLegsDown p) := by
  have hrefl : ∀ u : State, u.portsKept u := fun u => ⟨fun _ _ _ => rfl, u.events_refl⟩
  rw [State.portLegsDown]
  split
  · exact hrefl s
  · refine State.upto_induct (s.portsKept ·) _ _ _ (hrefl s) fun u c hc hu => ?_
    refine State.each_induct (s.portsKept ·) _ _ _ hu fun x l hl hx => ?_
    have hl2 : l < 2 := by
      simp only [List.mem_cons, List.not_mem_nil, or_false] at hl
      omega
    split
    · exact State.portsKept_trans hx (State.portsKept_setLeg hc hl2)
    · exact hx

/-! The link falls. -/

/-- STATUS shows the link down, and no FEC. -/
def State.linkCleared (s : State) (p : Nat) : State := (s.putB (R.MAC_S_LINK.pg p) false).putB (R.MAC_S_FEC_ACTIVE.pg p) false

theorem State.writes_linkCleared (s : State) (p : Nat) : s.writes (s.linkCleared p) [(R.MAC_S_LINK.pg p).addr] :=
  State.writes_trans (s.writes_put _ (List.mem_singleton_self _)) (State.writes_put _ _ (List.mem_singleton_self _))

theorem State.linkCleared_status (s : State) (p : Nat) :
    (s.linkCleared p).is (R.MAC_S_LINK.pg p) = false ∧ (s.linkCleared p).is (R.MAC_S_FEC_ACTIVE.pg p) = false := by
  constructor
  · exact (State.is_putB_other false (by decide : (1 : Nat) < 32) (Or.inr (Or.inl (by decide : (0 : Nat) < 1)))).trans
      (s.is_putB (R.MAC_S_LINK.pg p) false (by decide : (0 : Nat) < 32) rfl)
  · exact State.is_putB _ _ false (by decide : (1 : Nat) < 32) rfl

theorem State.linkFall_down {s : State} {p : Nat} (h : s.is (R.MAC_S_LINK.pg p) = false) : s.linkFall p = s.linkCleared p :=
  if_neg (by simp [h])

theorem State.linkFall_up {s : State} {p : Nat} (h : s.is (R.MAC_S_LINK.pg p) = true) :
    s.linkFall p = ((s.linkCleared p).latch (eMAC p) 12).portLegsDown p := if_pos h

/-- Whether it was up or not, the link is down without FEC, and beside words only a snapshot can follow. -/
theorem State.linkFall_spec {s : State} {p : Nat} (hp : p < 4) :
    (s.linkFall p).is (R.MAC_S_LINK.pg p) = false ∧ (s.linkFall p).is (R.MAC_S_FEC_ACTIVE.pg p) = false ∧ s.events (s.linkFall p) ∧
      (s.is (R.MAC_S_LINK.pg p) = true → (s.linkFall p).hasEvent (eMAC p) 12 = true) := by
  obtain ⟨hlink, hfec⟩ := s.linkCleared_status p
  have hcl : s.events (s.linkCleared p) := State.events_of_regs (s.writes_linkCleared p).2
  cases h : s.is (R.MAC_S_LINK.pg p)
  · rw [State.linkFall_down h]
    exact ⟨hlink, hfec, hcl, fun hf => by simp at hf⟩
  · rw [State.linkFall_up h]
    obtain ⟨hports, hev⟩ := ((s.linkCleared p).latch (eMAC p) 12).portsKept_portLegsDown p
    have hstatus : (((s.linkCleared p).latch (eMAC p) 12).portLegsDown p).w (0x1000C + 0x1000 * p) =
        (s.linkCleared p).w (0x1000C + 0x1000 * p) := by
      rw [hports _ (by omega) (by omega), (s.linkCleared p).keeps_latch_any (eMAC p) 12]
      rw [evKey_eMAC hp, List.mem_cons]
      rintro (h | h)
      · omega
      · have := discardWords_lt h; omega
    have hget : ∀ f : Fld, f.addr = 0x1000C + 0x1000 * p →
        (((s.linkCleared p).latch (eMAC p) 12).portLegsDown p).is f = (s.linkCleared p).is f := fun f hf => by
      simp only [State.is, State.get, State.n, hf, hstatus]
    refine ⟨(hget _ rfl).trans hlink, (hget _ rfl).trans hfec, State.events_trans hcl (State.events_trans (State.latch_spec _ _ _).2 hev),
      fun _ => ?_⟩
    have hkey : 0x10000 ≤ evKey (eMAC p) ∧ evKey (eMAC p) < 0x14000 := by rw [evKey_eMAC hp]; omega
    rw [State.hasEvent_congr (hports _ hkey.1 hkey.2)]
    exact State.hasEvent_latch_any (by decide) hkey.1

/-! SPEED or FEC is written (R114). -/

/-- The register PCS_CFG. -/
def pcsCfgSpec : RegSpec := ⟨0x80, 1, 4, 0x33, 0, 0, 0, 0, 0, 1, 0x33, 0, false, false⟩

theorem regOf_pcsCfg (p : Fin 4) : regOf (macBase p + 0x80) = some (pcsCfgSpec, 0) := by
  have h : ∀ q : Fin 4, regOf (macBase q + 0x80) = some (pcsCfgSpec, 0) := by decide +kernel
  exact h p

theorem State.hookMac_pcsCfg (s : State) (p old v : Nat) : s.hookMac p 0x80 old v = s.pcsWritten p old v := rfl

/-- The link falls, and the PCS starts again now. -/
def State.pcsRestarted (s : State) (p : Nat) : State := (s.linkFall p).setMac p fun m => { m with pcs := s.absCyc }

theorem State.pcsWritten_changed {s : State} {p old new : Nat} (h : old % 4 ≠ new % 4) : s.pcsWritten p old new = s.pcsRestarted p :=
  if_neg h

theorem State.mac_setMac {s : State} {p : Nat} (f : MacSt → MacSt) (hp : p < s.macs.length) : (s.setMac p f).mac p = f (s.mac p) := by
  simp [State.mac, State.setMac, hp]

theorem State.pcs_pcsRestarted {s : State} {p : Nat} (hp : p < 4) (hl : p < s.macs.length) :
    ((s.pcsRestarted p).mac p).pcs = s.absCyc := by
  have hm : (s.linkFall p).macs = s.macs := by rw [(State.linkFall_spec (s := s) hp).2.2.1]; rfl
  rw [State.pcsRestarted, State.mac_setMac _ (by rw [hm]; exact hl)]

theorem gives_pcsRestart {s : State} {m : Master} {v : Word} {p : Fin 4} (hk : s.takes m.toNat (macBase p + 0x80) = true)
    (hd : (s.majW (macBase p + 0x80)).toNat % 4 ≠ v.toNat % 4) (hl : p.val < s.macs.length) :
    Gives (.pcsRestart m p v) s fun t =>
      t.is (R.MAC_S_LINK.pg p) = false ∧ t.is (R.MAC_S_FEC_ACTIVE.pg p) = false ∧ (t.mac p).pcs = s.absCyc ∧
        (s.is (R.MAC_S_LINK.pg p) = false →
          s.keeps t [macBase p + 0x80, (R.MAC_S_LINK.pg p).addr] ∧ t = { s.regsOf t with bus := t.bus, macs := t.macs }) ∧
        (s.is (R.MAC_S_LINK.pg p) = true → t.hasEvent (eMAC p) 12 = true) ∧ t.bus = s.told m.toNat .ok [] := by
  have hp := p.isLt
  have ha : (macBase p + 0x80) / 0x1000 = 16 + p.val := by simp only [macBase]; omega
  have ho : (macBase p + 0x80) % 0x1000 = 0x80 := by simp only [macBase]; omega
  have hst : s.writes (s.stored (macBase p + 0x80) pcsCfgSpec v) [macBase p + 0x80] := State.writes_stored v rfl
  generalize hx : s.stored (macBase p + 0x80) pcsCfgSpec v = x at hst
  obtain ⟨hlink, hfec, hev, hdown⟩ := State.linkFall_spec (s := x) hp
  have hwas : x.is (R.MAC_S_LINK.pg p) = s.is (R.MAC_S_LINK.pg p) :=
    State.keeps_is hst.1 (by simp only [addr_linkStatus, macBase, List.mem_singleton]; omega)
  have hmacs : x.macs = s.macs := by rw [hst.2]; rfl
  have habs : x.absCyc = s.absCyc := by rw [hst.2]; rfl
  have hframe : s.events (x.linkFall p) := State.events_trans (State.events_of_regs hst.2) hev
  have hwrite : s.regWrite m.toNat (macBase p + 0x80) v = (x.pcsRestarted p).withBus (s.told m.toNat .ok []) := by
    refine State.regWrite_mac hk ha hp (by omega) (regOf_pcsCfg p) ?_ ?_ ?_
    · rw [hx, ho, State.hookMac_pcsCfg, State.pcsWritten_changed hd]
    · rw [State.pcsRestarted, hframe]; rfl
    · rw [State.pcsRestarted, hframe]; rfl
  refine gives_done (congrArg done hwrite : exec (.pcsRestart m p v) s = _) ⟨?_, ?_, ?_, fun h => ?_, fun h => ?_, State.settle_bus _⟩
  · rw [State.settle_is]; exact hlink
  · rw [State.settle_is]; exact hfec
  · rw [State.mac, State.settle_macs, ← habs]
    exact State.pcs_pcsRestarted hp (by rw [hmacs]; exact hl)
  · have hcl : s.writes (x.linkFall p) [macBase p + 0x80, (R.MAC_S_LINK.pg p).addr] := by
      rw [State.linkFall_down (hwas.trans h)]
      exact State.writes_trans (State.writes_mono hst (by simp)) (State.writes_mono (x.writes_linkCleared p) (by simp))
    refine ⟨State.keeps_answered (u := x.pcsRestarted p) hcl.1 _, ?_⟩
    rw [State.regsOf_settle ((x.pcsRestarted p).withBus _), State.pcsRestarted, hcl.2]; rfl
  · rw [State.settle_hasEvent]
    exact hdown (hwas.trans h)

/-! Block lock, and its loss (R114, R152). -/

/-- STATUS shows the link up, and LINK_UP is latched; FEC is not shown yet. -/
def State.linkShown (s : State) (p : Nat) : State := (s.putB (R.MAC_S_LINK.pg p) true).latch (eMAC p) 13

theorem State.linkShown_spec {s : State} {p : Nat} (hq : s.quiet = true) :
    (s.linkShown p).is (R.MAC_S_LINK.pg p) = true ∧ (s.linkShown p).hasEvent (eMAC p) 13 = true ∧
      s.writes (s.linkShown p) [(R.MAC_S_LINK.pg p).addr, evKey (eMAC p)] := by
  have hq1 : (s.putB (R.MAC_S_LINK.pg p) true).quiet = true := State.quiet_putB true hq (by rw [addr_linkStatus]; omega)
  refine ⟨?_, State.hasEvent_latch _ _ _ (by decide) hq1,
    State.writes_trans (s.writes_put _ (by simp)) (State.writes_latch 13 hq1 (by simp))⟩
  exact (State.is_latch _ _ hq1 (by rw [addr_linkStatus]; omega)).trans (s.is_putB _ true (by decide : (0 : Nat) < 32) rfl)

/-- The link comes up with FEC where it is configured at 25 Gb/s. -/
theorem State.linkUpOp_up {s : State} {p : Nat} (hp : p < 4) (hq : s.quiet = true) (hon : s.portOn p = true)
    (hl : s.is (R.MAC_S_LINK.pg p) = false) (ht : (s.mac p).pcs + usCyc 1000 ≤ s.absCyc) :
    s.linkUpOp p =
      (s.linkShown p).putB (R.MAC_S_FEC_ACTIVE.pg p) (s.is (R.MAC_PCS_CFG_SPEED.pg p) && s.is (R.MAC_PCS_CFG_FEC.pg p)) := by
  obtain ⟨-, -, hw⟩ := s.linkShown_spec (p := p) hq
  have hcfg : ∀ f : Fld, f.addr = 0x10080 + 0x1000 * p → (s.linkShown p).is f = s.is f := fun f hf => by
    refine State.keeps_is hw.1 ?_
    simp only [hf, addr_linkStatus, evKey_eMAC hp, List.mem_cons, List.not_mem_nil, or_false]
    omega
  rw [State.linkUpOp, if_neg (by simp [hon, hl, ht]), ← hcfg (R.MAC_PCS_CFG_SPEED.pg p) rfl, ← hcfg (R.MAC_PCS_CFG_FEC.pg p) rfl]
  rfl

theorem gives_linkUp {s : State} {p : Fin 4} (hq : s.quiet = true) (hon : s.portOn p = true) (hl : s.is (R.MAC_S_LINK.pg p) = false)
    (ht : (s.mac p).pcs + usCyc 1000 ≤ s.absCyc) :
    Gives (.linkUp p) s fun t =>
      t.is (R.MAC_S_LINK.pg p) = true ∧
        t.is (R.MAC_S_FEC_ACTIVE.pg p) = (s.is (R.MAC_PCS_CFG_SPEED.pg p) && s.is (R.MAC_PCS_CFG_FEC.pg p)) ∧
        t.hasEvent (eMAC p) 13 = true ∧ s.keeps t [(R.MAC_S_LINK.pg p).addr, evKey (eMAC p)] ∧ t = s.regsOf t := by
  obtain ⟨hup, hev, hw⟩ := s.linkShown_spec (p := p) hq
  generalize hb : (s.is (R.MAC_PCS_CFG_SPEED.pg p) && s.is (R.MAC_PCS_CFG_FEC.pg p)) = b
  have hx : exec (.linkUp p) s = done ((s.linkShown p).putB (R.MAC_S_FEC_ACTIVE.pg p) b) :=
    congrArg done (by rw [← hb]; exact State.linkUpOp_up p.isLt hq hon hl ht)
  have hfec : (s.linkShown p).writes ((s.linkShown p).putB (R.MAC_S_FEC_ACTIVE.pg p) b) [(R.MAC_S_LINK.pg p).addr] :=
    (s.linkShown p).writes_put _ (List.mem_singleton_self _)
  have hall := State.writes_trans (State.writes_trans hw (State.writes_mono hfec (by simp))) (State.writes_settle _ _)
  refine gives_done hx ⟨?_, ?_, ?_, hall.1, hall.2⟩
  · rw [State.settle_is, State.is_putB_other _ (by decide : (1 : Nat) < 32) (Or.inr (Or.inl (by decide : (0 : Nat) < 1)))]
    exact hup
  · rw [State.settle_is]
    exact State.is_putB _ _ b (by decide : (1 : Nat) < 32) rfl
  · have hne : evKey (eMAC p) ≠ (R.MAC_S_LINK.pg p).addr := (evKey_ne _ _ (by rw [addr_linkStatus]; omega)).symm
    rw [State.settle_hasEvent, State.hasEvent_congr (hfec.1 _ (by simpa using hne))]
    exact hev

theorem gives_linkUp_not {s : State} {p : Fin 4}
    (h : (!s.portOn p || s.is (R.MAC_S_LINK.pg p) || decide (s.absCyc < (s.mac p).pcs + usCyc 1000)) = true) :
    Gives (.linkUp p) s fun t => s.keeps t [] ∧ t = s.regsOf t :=
  gives_unchanged (congrArg done (if_pos h))

theorem gives_linkDown {s : State} {p : Fin 4} (hon : s.portOn p = true) (hl : s.is (R.MAC_S_LINK.pg p) = true) :
    Gives (.linkDown p) s fun t =>
      t.is (R.MAC_S_LINK.pg p) = false ∧ t.is (R.MAC_S_FEC_ACTIVE.pg p) = false ∧ t.hasEvent (eMAC p) 12 = true ∧
        t.mem = s.mem ∧ t.macs = s.macs := by
  obtain ⟨hlink, hfec, hev, hdown⟩ := State.linkFall_spec (s := s) p.isLt
  refine gives_done (congrArg done (if_pos hon) : exec (.linkDown p) s = done (s.linkFall p)) ⟨?_, ?_, ?_, ?_, ?_⟩
  · rw [State.settle_is]; exact hlink
  · rw [State.settle_is]; exact hfec
  · rw [State.settle_hasEvent]; exact hdown hl
  · rw [State.settle_mem, hev]; rfl
  · rw [State.settle_macs, hev]; rfl

/-- Settles O13: each clause is the rule of its command. -/
theorem portLink : Obligations.PortLink := by
  unfold Obligations.PortLink
  refine ⟨?_, ?_, ?_, ?_⟩
  · intro s m v p hk hd hl
    obtain ⟨t, hx, hlink, hfec, hpcs, hdown, hrest⟩ := gives_pcsRestart hk hd hl
    exact ⟨t, hx, hlink, hfec, hpcs, fun h => hdown (by simpa using h), hrest⟩
  · intro s p hq hon hl ht
    exact gives_linkUp hq hon (by simpa using hl) ht
  · intro s p h
    exact gives_linkUp_not h
  · intro s p hon hl
    exact gives_linkDown hon hl

end Sys2Proof.Machine
end

section
/-! Counting in several counters of a port, and what other functions read while only counters change (04_network R126, R127). -/

namespace Sys2Proof.Machine

/-! Several counters. -/

/-- Counting one after another: each counter with what it grows by. -/
def State.countAll (s : State) (p : Nat) (l : List (Nat × Nat)) : State := l.foldl (fun s e => s.cnt p e.1 e.2) s

theorem State.countAll_nil (s : State) (p : Nat) : s.countAll p [] = s := rfl

theorem State.countAll_cons (s : State) (p : Nat) (e : Nat × Nat) (l : List (Nat × Nat)) :
    s.countAll p (e :: l) = (s.cnt p e.1 e.2).countAll p l := rfl

theorem State.countAll_append (s : State) (p : Nat) (l m : List (Nat × Nat)) : s.countAll p (l ++ m) = (s.countAll p l).countAll p m :=
  List.foldl_append

/-- The words that counting in these counters writes. -/
def countWords (p : Nat) (l : List (Nat × Nat)) : List Nat := l.flatMap fun e => cntWords p e.1

theorem State.quiet_countAll {s : State} {p : Nat} (l : List (Nat × Nat)) (hq : s.quiet = true) (hp : p < 4) :
    (s.countAll p l).quiet = true := by
  induction l generalizing s with
  | nil => exact hq
  | cons e l ih => exact ih (State.quiet_cnt e.1 e.2 hq hp)

theorem State.writes_countAll {s : State} {p : Nat} (l : List (Nat × Nat)) (hq : s.quiet = true) (hp : p < 4) :
    s.writes (s.countAll p l) (countWords p l) := by
  induction l generalizing s with
  | nil => exact s.writes_refl _
  | cons e l ih =>
    refine State.writes_trans (State.writes_mono (State.writes_cnt e.1 e.2 hq hp) fun k hk => ?_)
      (State.writes_mono (ih (State.quiet_cnt e.1 e.2 hq hp)) fun k hk => ?_)
    · exact List.mem_append_left _ hk
    · exact List.mem_append_right _ hk

theorem State.countAll_w_other {s : State} {p j : Nat} (l : List (Nat × Nat)) (hq : s.quiet = true) (hp : p < 4) (hj : j < 64)
    (h : ∀ e ∈ l, e.1 ≠ j) : (s.countAll p l).w (cntKey p j) = s.w (cntKey p j) := by
  induction l generalizing s with
  | nil => rfl
  | cons e l ih =>
    obtain ⟨he, hl⟩ := List.forall_mem_cons.mp h
    exact (ih (State.quiet_cnt e.1 e.2 hq hp) hl).trans (State.cnt_w_other e.2 hq hp hj he.symm)

/-! Latched events stay latched. -/

theorem State.hasEvent_orW_mono {s : State} {src bit : Nat} (k mask : Nat) (h : s.hasEvent src bit = true) :
    (s.orW k mask).hasEvent src bit = true := by
  rcases eq_or_ne (evKey src) k with rfl | hk
  · have hb : bit < 32 := Nat.lt_of_not_le fun hle => by
      have hlt : s.n (evKey src) < 2 ^ bit := (s.n_lt _).trans_le (Nat.pow_le_pow_right (by decide) hle)
      rw [State.hasEvent, bitOf, Nat.testBit_lt_two_pow hlt] at h
      exact absurd h (by decide)
    have hs : (s.n (evKey src)).testBit bit = true := h
    rw [State.hasEvent, State.n, State.orW_eq, State.setW_w_same, w32, BitVec.toNat_ofNat, bitOf, Nat.testBit_mod_two_pow,
      Nat.testBit_or, hs]
    simpa using hb
  · rw [State.orW_eq, State.hasEvent_congr (s.setW_w_other _ _ _ hk)]
    exact h

theorem State.hasEvent_cnt_mono {s : State} {p src bit : Nat} (i n : Nat) (hq : s.quiet = true) (hi : i < 64)
    (h : s.hasEvent src bit = true) : (s.cnt p i n).hasEvent src bit = true := by
  rcases eq_or_ne n 0 with rfl | hn
  · exact h
  have hc : (s.counted p i n).hasEvent src bit = true := by
    rw [State.hasEvent_congr ((s.writes_counted p i n).1 _ ?_)]
    · exact h
    · rw [List.mem_singleton]
      exact (evKey_ne _ _ (by simp only [cntKey]; omega)).symm
  rcases s.cnt_cases p i hn with hx | hx <;> rw [hx]
  · exact hc
  · have hor := (s.counted p i n).keeps_setW (halfKey p i)
      (w32 ((s.counted p i n).n (halfKey p i) ||| 2 ^ (i % 32)))
    rw [State.latch_quiet ((s.counted p i n).orW _ _) _ _
      (State.quiet_of_keeps hor (by simp only [halfKey, List.mem_singleton]; omega) (State.quiet_counted p i n hq))]
    exact State.hasEvent_orW_mono _ _ (State.hasEvent_orW_mono _ _ hc)

/-! What is read besides the counters. -/

/-- The words that counting on port p may write. -/
def counterWord (p k : Nat) : Prop := k = 0x10010 + 0x1000 * p ∨ 0x10400 + 0x1000 * p ≤ k ∧ k < 0x10508 + 0x1000 * p

theorem counterWord_of_countWords {p k : Nat} {l : List (Nat × Nat)} (hp : p < 4) (hl : ∀ e ∈ l, e.1 < 64) (h : k ∈ countWords p l) :
    counterWord p k := by
  obtain ⟨e, he, hk⟩ := List.mem_flatMap.mp h
  have := hl e he
  simp only [cntWords, cntKey, halfKey, evKey_eMAC hp, List.mem_cons, List.not_mem_nil, or_false] at hk
  unfold counterWord
  omega

/-- From s to t port p has counted, and nothing else has happened. -/
def State.counts (s t : State) (p : Nat) : Prop := (∀ k, ¬ counterWord p k → t.w k = s.w k) ∧ t = s.regsOf t

theorem State.counts_countAll {s : State} {p : Nat} (l : List (Nat × Nat)) (hq : s.quiet = true) (hp : p < 4)
    (hl : ∀ e ∈ l, e.1 < 64) : s.counts (s.countAll p l) p :=
  ⟨fun k hk => (State.writes_countAll l hq hp).1 k fun hm => hk (counterWord_of_countWords hp hl hm), (State.writes_countAll l hq hp).2⟩

section
variable {s t : State} {p : Nat} (h : s.counts t p)
include h

theorem State.counts_n {k : Nat} (hk : ¬ counterWord p k) : t.n k = s.n k := congrArg BitVec.toNat (h.1 k hk)

theorem State.counts_get {f : Fld} (hf : ¬ counterWord p f.addr) : t.get f = s.get f := by
  rw [State.get, State.counts_n h hf, State.get]

theorem State.counts_is {f : Fld} (hf : ¬ counterWord p f.addr) : t.is f = s.is f := State.is_congr (State.counts_get h hf)

/-- A configuration register of the port. -/
theorem State.counts_get_cfg {f : Fld} (hl : 0x10080 ≤ f.addr) (hu : f.addr < 0x10400) : t.get (f.pg p) = s.get (f.pg p) :=
  State.counts_get h (by simp only [counterWord, Fld.pg]; omega)

theorem State.counts_is_cfg {f : Fld} (hl : 0x10080 ≤ f.addr) (hu : f.addr < 0x10400) : t.is (f.pg p) = s.is (f.pg p) :=
  State.is_congr (State.counts_get_cfg h hl hu)

/-- A register of a ring or of a rule. -/
theorem State.counts_get_row {f : Fld} (hl : 0x10600 ≤ f.addr) (i : Nat) : t.get ((f.ix i).pg p) = s.get ((f.ix i).pg p) :=
  State.counts_get h (by simp only [counterWord, Fld.pg, Fld.ix]; omega)

theorem State.counts_is_row {f : Fld} (hl : 0x10600 ≤ f.addr) (i : Nat) : t.is ((f.ix i).pg p) = s.is ((f.ix i).pg p) :=
  State.is_congr (State.counts_get_row h hl i)

/-- A register below the pages of the ports. -/
theorem State.counts_get_low {f : Fld} (hu : f.addr < 0x10000) : t.get f = s.get f :=
  State.counts_get h (by unfold counterWord; omega)

theorem State.counts_pageOn (src : Nat) : t.pageOn src = s.pageOn src := by
  have hheld : t.held = s.held := by rw [h.2]; rfl
  simp only [State.pageOn, State.domOn, State.counts_get_low h (show R.PWR_DOM_ON_ON.addr < 0x10000 by decide), hheld]

theorem State.counts_ringLen (r : Nat) : t.ringLen p r = s.ringLen p r := by
  rw [State.ringLen, State.counts_get_row h (by decide), State.ringLen]

theorem State.counts_ringHead (r : Nat) : t.ringHead p r = s.ringHead p r := by
  rw [State.ringHead, State.counts_get_row h (by decide), State.counts_ringLen h, State.ringHead]

theorem State.counts_ringTail (r : Nat) : t.ringTail p r = s.ringTail p r := by
  rw [State.ringTail, State.counts_get_row h (by decide), State.counts_ringLen h, State.ringTail]

theorem State.counts_descAt (r i : Nat) : t.descAt p r i = s.descAt p r i := by
  rw [State.descAt, State.counts_n h (by unfold counterWord; omega), State.counts_n h (by unfold counterWord; omega), State.descAt]

theorem State.counts_ruleHit (k : Pkt) (i : Nat) : t.ruleHit p k i = s.ruleHit p k i := by
  have hget : ∀ f : Fld, 0x10600 ≤ f.addr → t.get ((f.ix i).pg p) = s.get ((f.ix i).pg p) := fun f hf => State.counts_get_row h hf i
  have his : ∀ f : Fld, 0x10600 ≤ f.addr → t.is ((f.ix i).pg p) = s.is ((f.ix i).pg p) := fun f hf => State.counts_is_row h hf i
  unfold State.ruleHit
  dsimp only
  rw [hget R.MAC_RULE_DPORT_MASK (by decide), hget R.MAC_RULE_MATCH_ETYPE (by decide), hget R.MAC_RULE_MATCH_IPPROTO (by decide),
    hget R.MAC_RULE_DPORT_DPORT (by decide), his R.MAC_RULE_MATCH_VALID (by decide), his R.MAC_RULE_MATCH_ETYPE_EN (by decide),
    his R.MAC_RULE_MATCH_PROTO_EN (by decide), his R.MAC_RULE_MATCH_DPORT_EN (by decide), his R.MAC_RULE_MATCH_MCAST_ONLY (by decide)]

theorem State.counts_vlanOk (k : Pkt) : t.vlanOk p k = s.vlanOk p k := by
  unfold State.vlanOk
  split
  · exact State.counts_is_cfg h (by decide) (by decide)
  · rw [Bool.eq_iff_iff, List.any_eq_true, List.any_eq_true]
    refine exists_congr fun i => and_congr_right fun hi => ?_
    have hrow : ∀ f : Fld, f.addr = 0x100C0 → f.stride = 4 → t.get ((f.ix i).pg p) = s.get ((f.ix i).pg p) := fun f ha hs =>
      State.counts_get_cfg h (by simp only [Fld.ix]; omega) (by have := List.mem_range.mp hi; simp only [Fld.ix, ha, hs]; omega)
    rw [State.is_congr (hrow R.MAC_VID_VALID rfl rfl), hrow R.MAC_VID_VID rfl rfl]

end

theorem State.counts_win {s t : State} {p : Nat} (h : s.counts t p) (hp : p < 4) (src kind n : Nat) :
    t.n (winKey src kind n) = s.n (winKey src kind n) := State.counts_n h (by unfold counterWord winKey; omega)

theorem State.counts_rxMatch {s t : State} {p : Nat} (h : s.counts t p) (hp : p < 4) (k : Pkt) : t.rxMatch p k = s.rxMatch p k := by
  have hrec : ∀ c, t.rxRec c 1 = s.rxRec c 1 := fun c => by simp only [State.rxRec, State.counts_win h hp]
  have hen : t.rxEnabled = s.rxEnabled := by simp only [State.rxEnabled, State.counts_win h hp]
  simp only [State.rxMatch, State.counts_pageOn h, hrec, hen]

theorem State.counts_rxTime {s t : State} {p : Nat} (h : s.counts t p) (hp : p < 4) : t.rxTime p = s.rxTime p := by
  have hnow : t.nowU = s.nowU := by rw [h.2]; rfl
  have hcal : ∀ k, k < 0x5000 → t.n k = s.n k := fun k hk => State.counts_n h (by unfold counterWord; omega)
  rw [State.rxTime, State.calSum, hnow, hcal _ (by omega), hcal _ (by omega)]
  rfl

end Sys2Proof.Machine
end

section
/-! The FCS (04_network R118, R121). -/

namespace Sys2Proof.Machine

theorem crcBit_lt {c : Nat} (h : c < 2 ^ 32) : crcBit c < 2 ^ 32 := by
  unfold crcBit
  split
  · exact Nat.xor_lt_two_pow (by omega) (by decide)
  · omega

theorem crcByte_lt {c : Nat} (b : Byte) (h : c < 2 ^ 32) : crcByte c b < 2 ^ 32 := by
  have hx : c ^^^ b.toNat < 2 ^ 32 := Nat.xor_lt_two_pow h (b.isLt.trans (by decide))
  unfold crcByte
  iterate 8 apply crcBit_lt
  exact hx

theorem crc32_lt (l : List Byte) : crc32 l < 2 ^ 32 := by
  have hfold : ∀ (l : List Byte) (c : Nat), c < 2 ^ 32 → l.foldl crcByte c < 2 ^ 32 := fun l => by
    induction l with
    | nil => exact fun _ h => h
    | cons b l ih => exact fun c h => ih _ (crcByte_lt b h)
  exact Nat.xor_lt_two_pow (hfold l _ (by decide)) (by decide)

theorem length_withFcs (l : List Byte) : (withFcs l).length = l.length + 4 := by rw [withFcs, List.length_append, length_leBytes]

/-- What stands before the FCS. -/
theorem take_withFcs (l : List Byte) : (withFcs l).take ((withFcs l).length - 4) = l := by
  rw [length_withFcs, Nat.add_sub_cancel, withFcs, List.take_left]

/-- The FCS of a frame that was given one is good. -/
theorem fcsOk_withFcs (l : List Byte) : fcsOk (withFcs l) = true := by
  have hcrc : leNat (leBytes 4 (crc32 l)) = crc32 l := by
    rw [leNat_leBytes]; exact Nat.mod_eq_of_lt (crc32_lt l)
  have hdrop : (withFcs l).drop ((withFcs l).length - 4) = leBytes 4 (crc32 l) := by
    rw [length_withFcs, Nat.add_sub_cancel, withFcs, List.drop_left]
  rw [fcsOk, hdrop, take_withFcs, hcrc, length_withFcs]
  simp

end Sys2Proof.Machine
end

section
/-! Reception (04_network R116–R122, R127, R129). -/

namespace Sys2Proof.Machine

theorem State.counts_addrOk {s t : State} {p : Nat} (h : s.counts t p) (hp : p < 4) (d : List Byte) : t.addrOk p d = s.addrOk p d := by
  have hget : ∀ f : Fld, 0x10080 ≤ f.addr → f.addr < 0x10400 → t.get (f.pg p) = s.get (f.pg p) := fun f => State.counts_get_cfg h
  have his : ∀ f : Fld, 0x10080 ≤ f.addr → f.addr < 0x10400 → t.is (f.pg p) = s.is (f.pg p) := fun f => State.counts_is_cfg h
  have hhash : t.mapBit (0x10200 + 0x1000 * p) (crc32 d / 2 ^ 20) = s.mapBit (0x10200 + 0x1000 * p) (crc32 d / 2 ^ 20) := by
    have := crc32_lt d
    rw [State.mapBit, State.counts_n h (by unfold counterWord; omega), State.mapBit]
  unfold State.addrOk
  simp only [State.counts_win h hp, hhash]
  rw [hget R.MAC_ADDR_LO_ADDR (by decide) (by decide), hget R.MAC_ADDR_HI_ADDR (by decide) (by decide),
    his R.MAC_RX_CFG_PROMISC (by decide) (by decide), his R.MAC_RX_CFG_BCAST_EN (by decide) (by decide),
    his R.MAC_RX_CFG_MCAST_ALL (by decide) (by decide)]

/-! What a frame that the receiver hears is counted as (R117, R127). -/

/-- The receiver of a port takes frames. -/
def State.listens (s : State) (p : Nat) : Prop :=
  s.portOn p = true ∧ s.is (R.MAC_C_RX_EN.pg p) = true ∧ s.is (R.MAC_S_LINK.pg p) = true

/-- The counters of a good frame's bytes, its destination's type and its size. -/
def sizeCounts (f : List Byte) : List (Nat × Nat) := [(1, f.length), (2 + dstType (f.take 6), 1), (5 + sizeBin f.length, 1)]

/-- The counters of a good frame. -/
def goodCounts (f : List Byte) : List (Nat × Nat) := (0, 1) :: sizeCounts f

theorem State.frameIn_unheard {s : State} {p : Nat} (f : List Byte) (e : Bool)
    (h : (!s.portOn p || !s.is (R.MAC_C_RX_EN.pg p) || !s.is (R.MAC_S_LINK.pg p)) = true) : s.frameIn p f e = s := if_pos h

theorem State.frameIn_errored (s : State) (p : Nat) (f : List Byte) : s.frameIn p f true = s := by
  rw [State.frameIn]
  split
  · rfl
  · rfl

theorem State.le_maxLen (s : State) (p : Nat) : 64 ≤ s.maxLen p := Nat.le_max_left _ _

/-- A frame of at most MAX_LEN for which the receive buffer has room: a short one and one with a bad FCS are counted, another is
counted and classified. -/
theorem State.frameIn_heard {s : State} {p : Nat} {f : List Byte} (h : s.listens p) (hl : f.length ≤ s.maxLen p)
    (hroom : s.rxFull p f.length = false) :
    s.frameIn p f false =
      if f.length < 64 ∨ fcsOk f = false then (s.cnt p 14 (b2n (f.length < 64))).cnt p 12 (b2n !fcsOk f)
      else (s.countAll p (goodCounts f)).classify p f false := by
  obtain ⟨hon, hrx, hlink⟩ := h
  have hnot : (!s.portOn p || !s.is (R.MAC_C_RX_EN.pg p) || !s.is (R.MAC_S_LINK.pg p)) = false := by simp [hon, hrx, hlink]
  have hlong : ¬ s.maxLen p < f.length := Nat.not_lt.mpr hl
  simp only [State.frameIn, hnot, Bool.false_eq_true, if_false, Nat.min_eq_left hl, hroom, hlong, decide_false, b2n_false, State.cnt_zero]
  split
  · rfl
  · rename_i hgood
    obtain ⟨h64, hfcs⟩ := not_or.mp hgood
    simp only [h64, Bool.eq_true_of_not_eq_false hfcs, decide_false, Bool.not_true, b2n_false, State.cnt_zero, goodCounts, sizeCounts,
      State.countAll_cons, State.countAll_nil]

/-- A short frame with a good FCS counts as such alone. -/
theorem State.frameIn_short {s : State} {p : Nat} {f : List Byte} (h : s.listens p) (hroom : s.rxFull p f.length = false)
    (h64 : f.length < 64) (hfcs : fcsOk f = true) : s.frameIn p f false = s.cnt p 14 1 := by
  rw [State.frameIn_heard h (h64.le.trans (s.le_maxLen p)) hroom, if_pos (Or.inl h64)]
  simp [h64, hfcs, State.cnt_zero]

/-- A frame of legal length with a bad FCS counts as such alone. -/
theorem State.frameIn_badFcs {s : State} {p : Nat} {f : List Byte} (h : s.listens p) (hl : f.length ≤ s.maxLen p)
    (hroom : s.rxFull p f.length = false) (h64 : 64 ≤ f.length) (hfcs : fcsOk f = false) : s.frameIn p f false = s.cnt p 12 1 := by
  rw [State.frameIn_heard h hl hroom, if_pos (Or.inr hfcs)]
  simp [Nat.not_lt.mpr h64, hfcs, State.cnt_zero]

/-- A good frame is counted and classified. -/
theorem State.frameIn_good {s : State} {p : Nat} {f : List Byte} (h : s.listens p) (hl : f.length ≤ s.maxLen p)
    (hroom : s.rxFull p f.length = false) (h64 : 64 ≤ f.length) (hfcs : fcsOk f = true) :
    s.frameIn p f false = (s.countAll p (goodCounts f)).classify p f false := by
  rw [State.frameIn_heard h hl hroom, if_neg (by simp [Nat.not_lt.mpr h64, hfcs])]

theorem dstType_le (d : List Byte) : dstType d ≤ 2 := by
  unfold dstType; split
  · exact le_rfl
  · split <;> decide

theorem sizeBin_le (n : Nat) : sizeBin n ≤ 6 := by unfold sizeBin; split_ifs <;> decide

/-! The default rule (R119 row 7, R122). -/

/-- The ring of the default rule. -/
def State.defRing (s : State) (p : Nat) : Nat := s.get (R.MAC_DEF_RULE_RING.pg p)

theorem State.defRing_lt (s : State) (p : Nat) : s.defRing p < 4 := s.get_lt (R.MAC_DEF_RULE_RING.pg p)

/-- A frame passes the filters and is for no stream and no rule, and the default rule has it written unchanged to a ring that has a
descriptor for it. -/
structure State.TakesDefault (s : State) (p : Nat) (k : Pkt) : Prop where
  noControl : k.etype ≠ 0x8808
  address : s.addrOk p k.dst = true
  vlan : s.vlanOk p k = true
  noStream : s.rxMatch p k = none
  noRule : ∀ i < 16, s.ruleHit p k i = false
  kept : s.is (R.MAC_DEF_RULE_DROP.pg p) = false
  unstripped : s.is (R.MAC_RX_CFG_STRIP.pg p) = false
  reachable : s.hostStalled = false
  enabled : s.is ((R.MAC_RING_SIZE_EN.ix (s.defRing p)).pg p) = true
  descriptor : s.ringHead p (s.defRing p) ≠ s.ringTail p (s.defRing p)

theorem State.counts_defRing {s t : State} {p : Nat} (h : s.counts t p) : t.defRing p = s.defRing p :=
  State.counts_get_cfg h (by decide) (by decide)

/-- Counting on the port leaves all that as it is. -/
theorem State.TakesDefault.counts {s t : State} {p : Nat} {k : Pkt} (h : s.TakesDefault p k) (hc : s.counts t p) (hp : p < 4) :
    t.TakesDefault p k where
  noControl := h.noControl
  address := (State.counts_addrOk hc hp _).trans h.address
  vlan := (State.counts_vlanOk hc k).trans h.vlan
  noStream := (State.counts_rxMatch hc hp k).trans h.noStream
  noRule := fun i hi => (State.counts_ruleHit hc k i).trans (h.noRule i hi)
  kept := (State.counts_is_cfg hc (by decide) (by decide)).trans h.kept
  unstripped := (State.counts_is_cfg hc (by decide) (by decide)).trans h.unstripped
  reachable := by rw [hc.2]; exact h.reachable
  enabled := by rw [State.counts_defRing hc, State.counts_is_row hc (by decide)]; exact h.enabled
  descriptor := by rw [State.counts_defRing hc, State.counts_ringHead hc, State.counts_ringTail hc]; exact h.descriptor

/-- What the default rule's ring is to get of a frame: the frame without its FCS, its flags with the rule's number 16 and the step
generation, and its time (R129). -/
def State.defFrame (s : State) (p : Nat) (f : List Byte) : RxHeld :=
  let k := parseFrame (f.take (f.length - 4))
  ⟨f.length, s.defRing p, f.take (f.length - 4),
    b2n (k.ipErr || k.udpErr) * 8 + b2n (k.ver = 6) * 32 + b2n k.udp * 64 + b2n k.isMcast * 128 + b2n k.isBcast * 256 + 16 * 512
      + s.gen * 2 ^ 16, 0, s.rxTime p⟩

@[simp] theorem State.defFrame_ring (s : State) (p : Nat) (f : List Byte) : (s.defFrame p f).ring = s.defRing p := rfl

theorem State.counts_defFrame {s t : State} {p : Nat} (h : s.counts t p) (hp : p < 4) (f : List Byte) :
    t.defFrame p f = s.defFrame p f := by
  have hgen : t.gen = s.gen := State.counts_get_low h (by decide)
  simp only [State.defFrame, State.counts_defRing h, hgen, State.counts_rxTime h hp]

theorem State.toRing_default {s : State} {p : Nat} {f : List Byte} (h : s.TakesDefault p (parseFrame (f.take (f.length - 4)))) :
    s.toRing p f.length (parseFrame (f.take (f.length - 4))) (f.take (f.length - 4)) false = s.ringWrite p (s.defFrame p f) := by
  have hrule : leastN 16 (s.ruleHit p (parseFrame (f.take (f.length - 4)))) = none := by
    rw [leastN, List.find?_eq_none]
    exact fun i hi => by simp [h.noRule i (List.mem_range.mp hi)]
  simp only [State.toRing, hrule, h.kept, h.unstripped, State.ringDeliver, h.reachable, State.defFrame, State.defRing, Bool.false_and,
    Bool.false_eq_true, if_false, Bool.not_false, if_true, Bool.true_and, b2n_false, Nat.zero_mul, Nat.zero_add, Nat.add_zero,
    Option.getD_none]

/-- The counters of a frame's checksum errors. -/
def errorCounts (f : List Byte) : List (Nat × Nat) :=
  [(18, b2n (parseFrame (f.take (f.length - 4))).ipErr), (19, b2n (parseFrame (f.take (f.length - 4))).udpErr)]

theorem State.classify_default {s : State} {p : Nat} {f : List Byte} (hl : f.length ≤ (s.countAll p (errorCounts f)).maxLen p)
    (h : (s.countAll p (errorCounts f)).TakesDefault p (parseFrame (f.take (f.length - 4)))) :
    s.classify p f false = (s.countAll p (errorCounts f)).ringWrite p ((s.countAll p (errorCounts f)).defFrame p f) := by
  have hring := State.toRing_default h
  have hu : (s.cnt p 18 (b2n (parseFrame (f.take (f.length - 4))).ipErr)).cnt p 19 (b2n (parseFrame (f.take (f.length - 4))).udpErr) =
      s.countAll p (errorCounts f) := by simp only [errorCounts, State.countAll_cons, State.countAll_nil]
  simp only [State.classify, hu, Bool.false_eq_true, if_false, if_neg h.noControl, h.address, h.vlan, h.noStream, Bool.not_true,
    Nat.min_eq_left hl]
  exact hring

/-! Writing to a receive ring (R128, R129). -/

/-- The frame's data, then its descriptor, are in host memory. -/
def State.ringFilled (s : State) (p : Nat) (f : RxHeld) : State :=
  let d := s.descAt p f.ring (s.ringHead p f.ring)
  let desc := s.hostBytes d 16
  let len := leAt desc 8 2
  let out := f.data.take len
  let fl := f.flags + (if len < f.data.length then 4 else 0)
  (((s.setHost (leAt desc 0 8) out).setHost (d + 10) (leBytes 2 out.length)).setHost (d + 0x10)
    (tsBytes f.ts ++ leBytes 2 f.tci)).setHost (d + 0xC) (leBytes 4 fl)

theorem State.setHost_hostMem (s : State) (a : Nat) (l : List Byte) :
    (s.setHost a l).hostMem = tsetAll Config.hostByte s.hostMem (l.zipIdx.map fun e => ((a + e.2) % 2 ^ 64, e.1)) := rfl

/-- From s to t no more has changed than host memory. -/
def State.hostOnly (s t : State) : Prop := t = { s with hostMem := t.hostMem }

theorem State.hostOnly_setHost {s t : State} (h : s.hostOnly t) (a : Nat) (l : List Byte) : s.hostOnly (t.setHost a l) := by
  unfold State.hostOnly at *
  rw [h]; rfl

theorem State.hostOnly_ringFilled (s : State) (p : Nat) (f : RxHeld) : s.hostOnly (s.ringFilled p f) := by
  unfold State.ringFilled
  iterate 4 apply State.hostOnly_setHost
  exact (rfl : s = _)

theorem State.counts_ringFilled {s t : State} {p : Nat} (h : s.counts t p) (f : RxHeld) :
    (t.ringFilled p f).hostMem = (s.ringFilled p f).hostMem := by
  have hm : t.hostMem = s.hostMem := by rw [h.2]; rfl
  have hb : ∀ a n, t.hostBytes a n = s.hostBytes a n := fun a n => by simp only [State.hostBytes, State.hostB, hm]
  unfold State.ringFilled
  rw [State.counts_descAt h, State.counts_ringHead h]
  dsimp only
  rw [hb]
  simp only [State.setHost_hostMem, hm]

theorem State.ringWrite_eq {s : State} {p : Nat} {f : RxHeld} (h : s.noDesc p f.ring 0 = false) :
    s.ringWrite p f = (((s.ringFilled p f).ringStep p f.ring).latch (eMAC p) f.ring).cnt p (28 + f.ring) 1 := by
  rw [State.ringWrite, h]
  rfl

theorem State.ringLen_le (s : State) (p r : Nat) : s.ringLen p r ≤ 4096 := by
  have h : clampN 4 12 (s.get ((R.MAC_RING_SIZE_LOG2.ix r).pg p)) ≤ 12 := by unfold clampN; omega
  exact Nat.pow_le_pow_right (by decide) h

theorem State.ringLen_pos (s : State) (p r : Nat) : 0 < s.ringLen p r := Nat.two_pow_pos _

/-- A ring that is enabled and not empty has a descriptor. -/
theorem State.noDesc_false {s : State} {p r : Nat} (he : s.is ((R.MAC_RING_SIZE_EN.ix r).pg p) = true)
    (h : s.ringHead p r ≠ s.ringTail p r) : s.noDesc p r 0 = false := by
  have hh : s.ringHead p r < s.ringLen p r := Nat.mod_lt _ (s.ringLen_pos p r)
  have ht : s.ringTail p r < s.ringLen p r := Nat.mod_lt _ (s.ringLen_pos p r)
  simp only [State.noDesc, he, Bool.not_true, Bool.false_or, decide_eq_false_iff_not, Nat.le_zero_eq]
  intro hz
  generalize s.ringHead p r = a at *
  generalize s.ringTail p r = b at *
  generalize s.ringLen p r = n at *
  rcases Nat.lt_or_gt_of_ne h with hab | hab
  · rw [show b + n - a = (b - a) + n by omega, Nat.add_mod_right, Nat.mod_eq_of_lt (by omega)] at hz
    omega
  · rw [Nat.mod_eq_of_lt (by omega)] at hz
    omega

/-- The key of a ring's HEAD. -/
def headKey (p r : Nat) : Nat := 0x10610 + 32 * r + 0x1000 * p

theorem State.writes_ringStep (s : State) (p r : Nat) : s.writes (s.ringStep p r) [headKey p r] :=
  s.writes_put _ (List.mem_singleton_self _)

theorem State.counts_noDesc {s t : State} {p : Nat} (h : s.counts t p) (r n : Nat) : t.noDesc p r n = s.noDesc p r n := by
  rw [State.noDesc, State.counts_is_row h (by decide), State.counts_ringTail h, State.counts_ringLen h, State.counts_ringHead h,
    State.noDesc]

theorem State.TakesDefault.noDesc {s : State} {p : Nat} {k : Pkt} (h : s.TakesDefault p k) : s.noDesc p (s.defRing p) 0 = false :=
  State.noDesc_false h.enabled h.descriptor

/-- HEAD has advanced by one descriptor. -/
theorem State.ringHead_ringStep (s : State) (p r : Nat) : (s.ringStep p r).ringHead p r = (s.ringHead p r + 1) % s.ringLen p r := by
  have hlen : (s.ringStep p r).ringLen p r = s.ringLen p r := by
    rw [State.ringLen, State.keeps_get (s.writes_ringStep p r).1 _ ?_, State.ringLen]
    simp only [headKey, List.mem_singleton]
    show ¬ 0x10608 + 32 * r + 0x1000 * p = 0x10610 + 32 * r + 0x1000 * p
    omega
  have hlt : (s.ringHead p r + 1) % s.ringLen p r < s.ringLen p r := Nat.mod_lt _ (s.ringLen_pos p r)
  have hput : (s.ringStep p r).get ((R.MAC_RING_HEAD_HEAD.ix r).pg p) = (s.ringHead p r + 1) % s.ringLen p r := by
    rw [State.ringStep, s.get_put_same ((R.MAC_RING_HEAD_HEAD.ix r).pg p) _ (by decide : (11 : Nat) < 32) (by decide : (0 : Nat) ≤ 11 + 1)]
    exact Nat.mod_eq_of_lt (hlt.trans_le (s.ringLen_le p r))
  rw [State.ringHead, hlen, hput, Nat.mod_eq_of_lt hlt]

/-- Events and counters leave HEAD as it is. -/
theorem State.ringHead_of_counters {s t : State} {p : Nat} (h : ∀ k, ¬ counterWord p k → t.w k = s.w k) (r : Nat) :
    t.ringHead p r = s.ringHead p r := by
  have hget : ∀ f : Fld, 0x10600 ≤ f.addr → t.get ((f.ix r).pg p) = s.get ((f.ix r).pg p) := fun f hf => by
    rw [State.get, State.n, h _ (by simp only [counterWord, Fld.pg, Fld.ix]; omega), State.get, State.n]
  rw [State.ringHead, State.ringLen, hget R.MAC_RING_HEAD_HEAD (by decide), hget R.MAC_RING_SIZE_LOG2 (by decide), State.ringHead,
    State.ringLen]

/-- The words that a frame written to a receive ring changes: HEAD, EVENT and the ring's counter. -/
def ringWords (p r : Nat) : List Nat := headKey p r :: cntWords p (28 + r)

/-- A frame written to a ring that has a descriptor: HEAD advances by one, RXR_DONE is latched and the frame counted. -/
theorem State.ringWrite_spec {s : State} {p : Nat} {f : RxHeld} (hp : p < 4) (hr : f.ring < 4) (hq : s.quiet = true)
    (h : s.noDesc p f.ring 0 = false) :
    (s.ringWrite p f).ringHead p f.ring = (s.ringHead p f.ring + 1) % s.ringLen p f.ring ∧
      (s.ringWrite p f).hasEvent (eMAC p) f.ring = true ∧
      (s.ringWrite p f).w (cntKey p (28 + f.ring)) = s.w (cntKey p (28 + f.ring)) + 1 ∧
      (s.ringWrite p f).hostMem = (s.ringFilled p f).hostMem ∧
      s.keeps (s.ringWrite p f) (ringWords p f.ring) ∧
      s.ringWrite p f = { s.regsOf (s.ringWrite p f) with hostMem := (s.ringWrite p f).hostMem } := by
  have hfill := s.hostOnly_ringFilled p f
  rw [State.ringWrite_eq h]
  generalize s.ringFilled p f = x at hfill ⊢
  have hxw : ∀ k, x.w k = s.w k := fun k => by rw [hfill]; rfl
  have hstep := x.writes_ringStep p f.ring
  have hhead : (x.ringStep p f.ring).ringHead p f.ring = (s.ringHead p f.ring + 1) % s.ringLen p f.ring := by
    rw [x.ringHead_ringStep, hfill]; rfl
  generalize x.ringStep p f.ring = y at hstep hhead ⊢
  have hqy : y.quiet = true := by
    refine (State.quiet_congr ((hstep.1 _ ?_).trans (hxw _))).trans hq
    simp only [headKey, List.mem_singleton]; omega
  have hlatch : y.writes (y.latch (eMAC p) f.ring) [evKey (eMAC p)] := State.writes_latch _ hqy (by simp)
  have hev : (y.latch (eMAC p) f.ring).hasEvent (eMAC p) f.ring = true := State.hasEvent_latch _ _ _ (by omega) hqy
  have hqz := y.quiet_latch (eMAC p) f.ring hqy
  generalize y.latch (eMAC p) f.ring = z at hlatch hev hqz ⊢
  have hcnt := State.writes_cnt (28 + f.ring) 1 hqz hp
  have hzw : ∀ k, k ≠ evKey (eMAC p) → k ≠ headKey p f.ring → z.w k = s.w k := fun k h1 h2 =>
    ((hlatch.1 k (by simpa using h1)).trans (hstep.1 k (by simpa using h2))).trans (hxw k)
  refine ⟨?_, State.hasEvent_cnt_mono _ _ hqz (by omega) hev, ?_, ?_, ?_, ?_⟩
  · refine (State.ringHead_of_counters (fun k hk => ?_) _).trans hhead
    rw [hcnt.1 k, hlatch.1 k]
    · rw [List.mem_singleton, evKey_eMAC hp]
      unfold counterWord at hk; omega
    · simp only [cntWords, cntKey, halfKey, evKey_eMAC hp, List.mem_cons, List.not_mem_nil, or_false]
      unfold counterWord at hk; omega
  · rw [State.cnt_w_same 1 hqz hp (by omega), hzw _ (evKey_ne _ _ (by simp only [cntKey]; omega)) (by simp only [cntKey, headKey]; omega)]
    rfl
  · rw [hcnt.2, hlatch.2, hstep.2]; rfl
  · intro k hk
    simp only [ringWords, cntWords, List.mem_cons, List.not_mem_nil, or_false, not_or] at hk
    obtain ⟨hk1, hk2, hk3, hk4⟩ := hk
    rw [hcnt.1 k (by simp [cntWords, hk2, hk3, hk4]), hzw k hk4 hk1]
  · rw [hcnt.2, hlatch.2, hstep.2, hfill]; rfl

/-! A frame for the default rule. -/

/-- The counters that a good frame of the default rule moves before its ring's own. -/
def receivedCounts (f : List Byte) : List (Nat × Nat) := goodCounts f ++ errorCounts f

theorem receivedCounts_index {f : List Byte} : ∀ e ∈ receivedCounts f, e.1 < 28 := by
  have hd := dstType_le (f.take 6)
  have hb := sizeBin_le f.length
  simp only [receivedCounts, goodCounts, sizeCounts, errorCounts, List.cons_append, List.nil_append, List.forall_mem_cons, List.not_mem_nil,
    false_imp_iff, implies_true, and_true]
  omega

/-- Only the first of them is the counter of frames. -/
theorem State.countAll_received_frames {s : State} {p : Nat} {f : List Byte} (hq : s.quiet = true) (hp : p < 4) :
    (s.countAll p (receivedCounts f)).w (cntKey p 0) = s.w (cntKey p 0) + 1 := by
  have hcons : receivedCounts f = (0, 1) :: (sizeCounts f ++ errorCounts f) := rfl
  have hrest : ∀ e ∈ sizeCounts f ++ errorCounts f, e.1 ≠ 0 := by
    simp only [sizeCounts, errorCounts, List.cons_append, List.nil_append, List.forall_mem_cons, List.not_mem_nil, false_imp_iff,
      implies_true, and_true]
    omega
  rw [hcons, State.countAll_cons, State.countAll_w_other _ (State.quiet_cnt 0 1 hq hp) hp (by decide) hrest,
    State.cnt_w_same 1 hq hp (by decide)]
  rfl

theorem gives_frameReceive_default {s : State} {p : Fin 4} {f : List Byte} (h : s.listens p) (hq : s.quiet = true)
    (hroom : s.rxFull p f.length = false) (h64 : 64 ≤ f.length) (hl : f.length ≤ s.maxLen p) (hfcs : fcsOk f = true)
    (hd : s.TakesDefault p (parseFrame (f.take (f.length - 4)))) :
    Gives (.frameReceive p f false) s fun t =>
      t.ringHead p (s.defRing p) = (s.ringHead p (s.defRing p) + 1) % s.ringLen p (s.defRing p) ∧
        t.hasEvent (eMAC p) (s.defRing p) = true ∧ t.w (cntKey p 0) = s.w (cntKey p 0) + 1 ∧
        t.w (cntKey p (28 + s.defRing p)) = s.w (cntKey p (28 + s.defRing p)) + 1 ∧
        t.hostMem = (s.ringWrite p (s.defFrame p f)).hostMem ∧
        s.keeps t (countWords p (receivedCounts f) ++ ringWords p (s.defRing p)) ∧ t = { s.regsOf t with hostMem := t.hostMem } := by
  have hp := p.isLt
  have hr := s.defRing_lt p
  have hidx : ∀ e ∈ receivedCounts f, e.1 < 64 := fun e he => (receivedCounts_index e he).trans (by decide)
  have hc := State.counts_countAll (receivedCounts f) hq hp hidx
  have hw := State.writes_countAll (receivedCounts f) hq hp
  have hqu := State.quiet_countAll (receivedCounts f) hq hp
  have hframes := State.countAll_received_frames (f := f) hq hp
  have hown := State.countAll_w_other (j := 28 + s.defRing p) (receivedCounts f) hq hp (by omega) fun e he => by
    have := receivedCounts_index e he; omega
  have hx : exec (.frameReceive p f false) s = done ((s.countAll p (receivedCounts f)).ringWrite p (s.defFrame p f)) := by
    refine congrArg done ((State.frameIn_good h hl hroom h64 hfcs).trans ?_)
    have happ : (s.countAll p (goodCounts f)).countAll p (errorCounts f) = s.countAll p (receivedCounts f) :=
      (s.countAll_append p _ _).symm
    have hmax : (s.countAll p (receivedCounts f)).maxLen p = s.maxLen p := by
      rw [State.maxLen, State.counts_get_cfg hc (by decide) (by decide), State.maxLen]
    rw [State.classify_default (by rw [happ, hmax]; exact hl) (by rw [happ]; exact hd.counts hc hp), happ, State.counts_defFrame hc hp]
  generalize s.countAll p (receivedCounts f) = u at hc hw hqu hframes hown hx
  obtain ⟨hhead, hev, hcnt, hmem, hkeep, hframe⟩ :=
    State.ringWrite_spec (f := s.defFrame p f) hp hr hqu ((State.counts_noDesc hc _ 0).trans hd.noDesc)
  obtain ⟨-, -, -, hmem', -, -⟩ := State.ringWrite_spec (f := s.defFrame p f) hp hr hq hd.noDesc
  simp only [State.defFrame_ring] at hhead hev hcnt hkeep
  refine gives_done hx ⟨?_, ?_, ?_, ?_, ?_, State.keeps_settle (State.keeps_trans hw.1 hkeep), ?_⟩
  · rw [State.ringHead_of_counters fun k _ => State.settle_w _ k, hhead, State.counts_ringHead hc, State.counts_ringLen hc]
  · rw [State.settle_hasEvent]; exact hev
  · rw [State.settle_w, hkeep _ ?_, hframes]
    simp only [ringWords, cntWords, cntKey, halfKey, headKey, evKey_eMAC hp, List.mem_cons, List.not_mem_nil, or_false]
    omega
  · rw [State.settle_w, hcnt, hown]
  · rw [State.settle_hostMem, hmem, hmem', State.counts_ringFilled hc]
  · rw [State.regsOf_settle, hframe, hc.2]; rfl

/-- The words that a frame of the default rule changes. -/
def receptionWords (p : Nat) (f : List Byte) (r : Nat) : List Nat :=
  [cntKey p 0, halfKey p 0, evKey (eMAC p), cntKey p 1, halfKey p 1, cntKey p (2 + dstType (f.take 6)),
    halfKey p (2 + dstType (f.take 6)), cntKey p (5 + sizeBin f.length), halfKey p (5 + sizeBin f.length), cntKey p 18, halfKey p 18,
    cntKey p 19, halfKey p 19, cntKey p (28 + r), halfKey p (28 + r), headKey p r]

theorem receptionWords_complete {p : Nat} {f : List Byte} {r : Nat} :
    ∀ k ∈ countWords p (receivedCounts f) ++ ringWords p r, k ∈ receptionWords p f r := by
  simp [countWords, receivedCounts, goodCounts, sizeCounts, errorCounts, ringWords, cntWords, receptionWords, or_imp, forall_and]

/-- Settles O14: each clause is the rule for a kind of frame. -/
theorem frameReception : Obligations.FrameReception := by
  unfold Obligations.FrameReception
  refine ⟨?_, ?_, ?_, ?_, ?_⟩
  · intro s p f hon hrx hlink hq hhost hroom h64 hl hfcs hctl haddr hvlan hstream hrule hdrop hstrip hen hdesc
    have hd : s.TakesDefault p (parseFrame (f.take (f.length - 4))) :=
      { noControl := hctl
        address := haddr
        vlan := hvlan
        noStream := hstream
        noRule := fun i hi => by
          have := List.any_eq_false.mp (Bool.not_eq_true' _ ▸ hrule) i (List.mem_range.mpr hi)
          simpa using this
        kept := by simpa using hdrop
        unstripped := by simpa using hstrip
        reachable := by simpa using hhost
        enabled := hen
        descriptor := hdesc }
    obtain ⟨t, hx, hhead, hev, hframes, hown, hmem, hkeep, hframe⟩ :=
      gives_frameReceive_default ⟨hon, hrx, hlink⟩ hq (by simpa using hroom) h64 hl hfcs hd
    exact ⟨t, hx, hhead, hev, hframes, hown, hmem, State.keeps_mono hkeep receptionWords_complete, hframe⟩
  · intro s p f hon hrx hlink hq hroom h64 hfcs
    exact gives_cnt (congrArg done (State.frameIn_short ⟨hon, hrx, hlink⟩ (by simpa using hroom) h64 hfcs)) hq p.isLt (by decide)
  · intro s p f hon hrx hlink hq hroom h64 hl hfcs
    exact gives_cnt (congrArg done (State.frameIn_badFcs ⟨hon, hrx, hlink⟩ hl (by simpa using hroom) h64 hfcs)) hq p.isLt (by decide)
  · intro s p f
    exact gives_unchanged (congrArg done (s.frameIn_errored p f))
  · intro s p f h
    exact gives_unchanged (congrArg done (State.frameIn_unheard f false h))

end Sys2Proof.Machine
end

section
/-! Operations that write registers and the ports' own state. -/

namespace Sys2Proof.Machine

/-- From s to t only words among ks have changed, and beside them only the ports' state. -/
def State.writesMacs (s t : State) (ks : List Nat) : Prop := s.keeps t ks ∧ t = { s.regsOf t with macs := t.macs }

theorem State.writesMacs_of_writes {s t : State} {ks : List Nat} (h : s.writes t ks) : s.writesMacs t ks := by
  refine ⟨h.1, ?_⟩
  rw [h.2]; rfl

theorem State.writesMacs_trans {s t u : State} {ks : List Nat} (h : s.writesMacs t ks) (h' : t.writesMacs u ks) : s.writesMacs u ks := by
  refine ⟨State.keeps_append h.1 h'.1, ?_⟩
  rw [h'.2]; rw [h.2]; rfl

theorem State.writesMacs_setMac (s : State) (p : Nat) (f : MacSt → MacSt) (ks : List Nat) : s.writesMacs (s.setMac p f) ks :=
  ⟨fun _ _ => rfl, rfl⟩

theorem State.writesMacs_settle {s t : State} {ks : List Nat} (h : s.writesMacs t ks) : s.writesMacs t.settle ks :=
  State.writesMacs_trans h (State.writesMacs_of_writes (t.writes_settle ks))

theorem State.mac_of_writes {s t : State} {ks : List Nat} (h : s.writes t ks) (p : Nat) : t.mac p = s.mac p := by
  rw [State.mac, h.2]; rfl

/-- A port that no state is listed for reads as after reset. -/
theorem State.mac_setMac_cases (s : State) (p : Nat) (f : MacSt → MacSt) :
    (s.setMac p f).mac p = f (s.mac p) ∨ (s.setMac p f).mac p = MacSt.reset := by
  by_cases hp : p < s.macs.length
  · exact Or.inl (State.mac_setMac f hp)
  · right
    have hlen : ¬ p < (s.macs.modify p f).length := by rwa [List.length_modify]
    rw [State.mac, State.setMac, List.getD_eq_default _ _ (Nat.not_lt.mp hlen)]

/-- A field whose register counting on the port does not write. -/
theorem State.is_cnt {s : State} {p i : Nat} {f : Fld} (n : Nat) (hq : s.quiet = true) (hp : p < 4) (hi : i < 64)
    (hf : ¬ counterWord p f.addr) : (s.cnt p i n).is f = s.is f :=
  State.counts_is (State.counts_countAll [(i, n)] hq hp (by simpa using hi)) hf

theorem not_counterWord_status (p : Nat) : ¬ counterWord p (0x1000C + 0x1000 * p) := by unfold counterWord; omega

end Sys2Proof.Machine
end

section
/-! Pause frames (04_network R124). -/

namespace Sys2Proof.Machine

/-! The frame on the wire. -/

/-- A pause frame before its FCS. -/
def pauseBody (q : Nat) : List Byte :=
  [0x01, 0x80, 0xC2, 0x00, 0x00, 0x01] ++ List.replicate 6 0 ++ [0x88, 0x08, 0x00, 0x01] ++ beBytes 2 q ++ List.replicate 42 0

theorem pauseFrame_eq (q : Nat) : pauseFrame q = withFcs (pauseBody q) := rfl

theorem length_pauseFrame (q : Nat) : (pauseFrame q).length = 64 := by
  rw [pauseFrame_eq, length_withFcs]
  simp [pauseBody, beBytes, length_leBytes]

theorem take_pauseFrame (q : Nat) : (pauseFrame q).take ((pauseFrame q).length - 4) = pauseBody q := take_withFcs _

/-- It is an untagged frame of type 0x8808 with opcode 1, which carries no IP. -/
theorem pauseBody_type (q : Nat) : beAt (pauseBody q) 12 2 = 0x8808 := rfl

theorem pauseBody_opcode (q : Nat) : beAt (pauseBody q) 14 2 = 1 := rfl

theorem pauseBody_time (q : Nat) : beAt (pauseBody q) 16 2 = q % 2 ^ 16 := by
  have h : beAt (pauseBody q) 16 2 = leNat (leBytes 2 q) := rfl
  rw [h, leNat_leBytes]
  norm_num

theorem fcsOk_pauseFrame (q : Nat) : fcsOk (pauseFrame q) = true := fcsOk_withFcs (pauseBody q)

theorem parseFrame_pauseBody (q : Nat) : parseFrame (pauseBody q) = Pkt.plain ((pauseBody q).take 6) none 0x8808 14 := by
  unfold parseFrame
  simp only [pauseBody_type]
  rfl

/-- A pause frame is counted as a control frame and obeyed. -/
theorem State.classify_pauseFrame (s : State) (p q : Nat) :
    s.classify p (pauseFrame q) false = (s.cnt p 20 1).pauseOp p (q % 2 ^ 16) := by
  have htci : (Pkt.plain ((pauseBody q).take 6) none 0x8808 14).tci.isSome = false := rfl
  have herr : (Pkt.plain ((pauseBody q).take 6) none 0x8808 14).ipErr = false ∧
      (Pkt.plain ((pauseBody q).take 6) none 0x8808 14).udpErr = false := ⟨rfl, rfl⟩
  have htype : (Pkt.plain ((pauseBody q).take 6) none 0x8808 14).etype = 0x8808 := rfl
  simp only [State.classify, take_pauseFrame, parseFrame_pauseBody, htype, htci, herr.1, herr.2, b2n_false, State.cnt_zero,
    Bool.false_eq_true, if_false, if_true, pauseBody_opcode]
  exact congrArg ((s.cnt p 20 1).pauseOp p) (pauseBody_time q)

/-! The pause timer. -/

/-- PAUSED follows the time of a pause frame, the timer starts now, and PAUSE_RX is latched. -/
def State.pauseTimed (s : State) (p q : Nat) : State :=
  ((s.latch (eMAC p) 16).setMac p fun m => { m with pauseAt := (s.latch (eMAC p) 16).absCyc, pauseQ := q }).putB (R.MAC_S_PAUSED.pg p) (q != 0)

theorem State.pauseOp_eq {s : State} {p : Nat} (q : Nat) (h : s.is (R.MAC_PAUSE_CFG_RX_EN.pg p) = true) :
    s.pauseOp p q = if q = 0 then s.pauseTimed p q else (s.pauseTimed p q).cnt p 49 1 := if_neg (by simp [h])

/-- The words that the timer's start writes. -/
def pauseWords (p : Nat) : List Nat := [0x1000C + 0x1000 * p, evKey (eMAC p)]

theorem State.pauseTimed_spec {s : State} {p : Nat} (q : Nat) (hq : s.quiet = true) (hl : p < s.macs.length) :
    (s.pauseTimed p q).is (R.MAC_S_PAUSED.pg p) = (q != 0) ∧ ((s.pauseTimed p q).mac p).pauseQ = q ∧
      ((s.pauseTimed p q).mac p).pauseAt = s.absCyc ∧ (s.pauseTimed p q).hasEvent (eMAC p) 16 = true ∧
      s.writesMacs (s.pauseTimed p q) (pauseWords p) := by
  have hlatch : s.writes (s.latch (eMAC p) 16) (pauseWords p) := State.writes_latch 16 hq (by simp [pauseWords])
  have hev : (s.latch (eMAC p) 16).hasEvent (eMAC p) 16 = true := State.hasEvent_latch _ _ _ (by decide) hq
  have hmac : ∀ f, ((s.latch (eMAC p) 16).setMac p f).mac p = f (s.mac p) := fun f => by
    rw [State.mac_setMac f (by rw [hlatch.2]; exact hl), State.mac_of_writes hlatch]
  have habs : (s.latch (eMAC p) 16).absCyc = s.absCyc := by rw [hlatch.2]; rfl
  unfold State.pauseTimed
  rw [habs]
  generalize s.latch (eMAC p) 16 = x at hlatch hev hmac
  generalize hy : (x.setMac p fun m => { m with pauseAt := s.absCyc, pauseQ := q }) = y
  have hxy : x.writesMacs y (pauseWords p) := hy ▸ x.writesMacs_setMac p _ _
  have hput : y.writes (y.putB (R.MAC_S_PAUSED.pg p) (q != 0)) [0x1000C + 0x1000 * p] := y.writes_put _ (by simp [Fld.pg, R.MAC_S_PAUSED])
  have hmacs : (y.putB (R.MAC_S_PAUSED.pg p) (q != 0)).mac p = { s.mac p with pauseAt := s.absCyc, pauseQ := q } :=
    (State.mac_of_writes hput p).trans (by rw [← hy, hmac])
  refine ⟨y.is_putB _ _ (by decide : (2 : Nat) < 32) rfl, by rw [hmacs], by rw [hmacs], ?_, ?_⟩
  · have hne : evKey (eMAC p) ∉ [0x1000C + 0x1000 * p] := by
      rw [List.mem_singleton]
      exact (evKey_ne _ _ (by omega)).symm
    rw [State.hasEvent_congr (hput.1 _ hne), ← hy]
    exact hev
  · exact State.writesMacs_trans (State.writesMacs_of_writes hlatch)
      (State.writesMacs_trans hxy (State.writesMacs_of_writes (State.writes_mono hput (by simp [pauseWords]))))

/-- The counters of a pause frame. -/
def controlCounts (f : List Byte) : List (Nat × Nat) := goodCounts f ++ [(20, 1)]

theorem controlCounts_index {f : List Byte} : ∀ e ∈ controlCounts f, e.1 < 28 := by
  have hd := dstType_le (f.take 6)
  have hb := sizeBin_le f.length
  simp only [controlCounts, goodCounts, sizeCounts, List.cons_append, List.nil_append, List.forall_mem_cons, List.not_mem_nil, false_imp_iff,
    implies_true, and_true]
  omega

/-- The state in which a received pause frame is counted but not yet obeyed. -/
def State.pauseHeard (s : State) (p q : Nat) : State := s.countAll p (controlCounts (pauseFrame q))

theorem State.frameIn_pauseFrame {s : State} {p q : Nat} (h : s.listens p) (hroom : s.rxFull p 64 = false) :
    s.frameIn p (pauseFrame q) false = (s.pauseHeard p q).pauseOp p (q % 2 ^ 16) := by
  have hlen := length_pauseFrame q
  rw [State.frameIn_good h (by rw [hlen]; exact s.le_maxLen p) (by rw [hlen]; exact hroom) (by rw [hlen]) (fcsOk_pauseFrame q),
    State.classify_pauseFrame, State.pauseHeard, controlCounts, State.countAll_append, State.countAll_cons, State.countAll_nil]

/-- A pause frame that the port obeys, whatever its time: up to then the counters have moved, the counter of pause frames not. -/
theorem State.pauseHeard_spec {s : State} {p q : Nat} (hp : p < 4) (hq : s.quiet = true) (hen : s.is (R.MAC_PAUSE_CFG_RX_EN.pg p) = true)
    (hl : p < s.macs.length) :
    (s.pauseHeard p q).quiet = true ∧ (s.pauseHeard p q).is (R.MAC_PAUSE_CFG_RX_EN.pg p) = true ∧ p < (s.pauseHeard p q).macs.length ∧
      (s.pauseHeard p q).absCyc = s.absCyc ∧ (s.pauseHeard p q).w (cntKey p 49) = s.w (cntKey p 49) ∧
      s.pauseHeard p q = s.regsOf (s.pauseHeard p q) := by
  have hc := State.counts_countAll (controlCounts (pauseFrame q)) hq hp fun e he => (controlCounts_index e he).trans (by decide)
  refine ⟨State.quiet_countAll _ hq hp, (State.counts_is_cfg hc (by decide) (by decide)).trans hen, ?_, ?_, ?_, hc.2⟩
  · rw [State.pauseHeard, hc.2]; exact hl
  · rw [State.pauseHeard, hc.2]; rfl
  · exact State.countAll_w_other _ hq hp (by decide) fun e he => by have := controlCounts_index e he; omega

theorem gives_pauseFrameReceive {s : State} {p : Fin 4} {q : BitVec 16} (h : s.listens p) (hq : s.quiet = true)
    (hen : s.is (R.MAC_PAUSE_CFG_RX_EN.pg p) = true) (hroom : s.rxFull p 64 = false) (h0 : q ≠ 0) (hl : p.val < s.macs.length) :
    Gives (.pauseFrameReceive p q) s fun t =>
      t.is (R.MAC_S_PAUSED.pg p) = true ∧ (t.mac p).pauseQ = q.toNat ∧ (t.mac p).pauseAt = s.absCyc ∧ t.hasEvent (eMAC p) 16 = true ∧
        t.w (cntKey p 49) = s.w (cntKey p 49) + 1 ∧ t.mem = s.mem ∧ t.rx = s.rx := by
  have hp := p.isLt
  have hne : q.toNat ≠ 0 := fun h => h0 (BitVec.eq_of_toNat_eq h)
  obtain ⟨hqu, henu, hlu, habs, hw49, hframe⟩ := State.pauseHeard_spec (q := q.toNat) hp hq hen hl
  have hx : exec (.pauseFrameReceive p q) s = done (((s.pauseHeard p q.toNat).pauseTimed p q.toNat).cnt p 49 1) := by
    refine congrArg done ((State.frameIn_pauseFrame h hroom).trans ?_)
    rw [Nat.mod_eq_of_lt q.isLt, State.pauseOp_eq _ henu, if_neg hne]
  generalize s.pauseHeard p q.toNat = u at hqu henu hlu habs hw49 hframe hx
  obtain ⟨hpaused, hquanta, hat, hev, hw⟩ := State.pauseTimed_spec q.toNat hqu hlu
  generalize u.pauseTimed p q.toNat = y at hpaused hquanta hat hev hw hx
  have hqy : y.quiet = true := by
    refine State.quiet_of_keeps hw.1 ?_ hqu
    simp only [pauseWords, evKey_eMAC hp, List.mem_cons, List.not_mem_nil, or_false]; omega
  have hcnt := State.writes_cnt (p := p) 49 1 hqy hp
  refine gives_done hx ⟨?_, ?_, ?_, ?_, ?_, ?_, ?_⟩
  · rw [State.settle_is, State.is_cnt 1 hqy hp (by decide) (not_counterWord_status p), hpaused]
    exact bne_iff_ne.mpr hne
  · rw [State.mac_of_writes (State.writes_settle _ []), State.mac_of_writes hcnt]; exact hquanta
  · rw [State.mac_of_writes (State.writes_settle _ []), State.mac_of_writes hcnt, hat, habs]
  · rw [State.settle_hasEvent]; exact State.hasEvent_cnt_mono 49 1 hqy (by decide) hev
  · rw [State.settle_w, State.cnt_w_same 1 hqy hp (by decide), hw.1 _ ?_, hw49]
    · rfl
    · simp only [pauseWords, cntKey, evKey_eMAC hp, List.mem_cons, List.not_mem_nil, or_false]; omega
  · rw [State.settle_mem, hcnt.2, hw.2, hframe]; rfl
  · rw [State.settle_rx, hcnt.2, hw.2, hframe]; rfl

/-- A pause frame with time 0 ends the pause. -/
theorem gives_pauseFrameReceive_zero {s : State} {p : Fin 4} (h : s.listens p) (hq : s.quiet = true)
    (hen : s.is (R.MAC_PAUSE_CFG_RX_EN.pg p) = true) (hroom : s.rxFull p 64 = false) (hl : p.val < s.macs.length) :
    Gives (.pauseFrameReceive p 0) s fun t =>
      t.is (R.MAC_S_PAUSED.pg p) = false ∧ (t.mac p).pauseQ = 0 ∧ t.mem = s.mem ∧ t.rx = s.rx := by
  obtain ⟨hqu, henu, hlu, -, -, hframe⟩ := State.pauseHeard_spec (q := 0) p.isLt hq hen hl
  have hx : exec (.pauseFrameReceive p 0) s = done ((s.pauseHeard p 0).pauseTimed p 0) := by
    refine congrArg done ((State.frameIn_pauseFrame (q := 0) h hroom).trans ?_)
    rw [Nat.zero_mod, State.pauseOp_eq _ henu, if_pos rfl]
  obtain ⟨hpaused, hquanta, -, -, hw⟩ := State.pauseTimed_spec 0 hqu hlu
  refine gives_done hx ⟨?_, ?_, ?_, ?_⟩
  · rw [State.settle_is]; exact hpaused
  · rw [State.mac_of_writes (State.writes_settle _ [])]; exact hquanta
  · rw [State.settle_mem, hw.2, hframe]; rfl
  · rw [State.settle_rx, hw.2, hframe]; rfl

/-- While paused, with nothing in the PTP and media queues, nothing is sent. -/
theorem State.frameOut_paused {s : State} {p : Nat} (h : s.is (R.MAC_S_PAUSED.pg p) = true) (hptp : s.nextRing p 0 = none)
    (hmedia : (s.mac p).media = []) : s.frameOut p = s := by
  rw [State.frameOut]
  split
  · rfl
  · simp only [hptp, hmedia, h, if_true]

/-- The quanta have elapsed: PAUSED falls and the timer is empty. -/
theorem gives_pauseExpire {s : State} {p : Fin 4} (hon : s.portOn p = true) (ht : s.pauseLeft p = 0) :
    Gives (.pauseExpire p) s fun t =>
      t.is (R.MAC_S_PAUSED.pg p) = false ∧ (t.mac p).pauseQ = 0 ∧ s.keeps t [(R.MAC_S_LINK.pg p).addr] ∧
        t = { s.regsOf t with macs := t.macs } := by
  have hx : exec (.pauseExpire p) s = done ((s.putB (R.MAC_S_PAUSED.pg p) false).setMac p fun m => { m with pauseQ := 0 }) :=
    congrArg done (if_pos (by simp [hon, ht]))
  have hput : s.writes (s.putB (R.MAC_S_PAUSED.pg p) false) [(R.MAC_S_LINK.pg p).addr] := s.writes_put _ (List.mem_singleton_self _)
  have hw := State.writesMacs_settle (State.writesMacs_trans (State.writesMacs_of_writes hput)
    (State.writesMacs_setMac _ p (fun m => { m with pauseQ := 0 }) _))
  refine gives_done hx ⟨?_, ?_, hw.1, hw.2⟩
  · rw [State.settle_is]
    exact s.is_putB (R.MAC_S_PAUSED.pg p) false (by decide : (2 : Nat) < 32) rfl
  · rw [State.mac_of_writes (State.writes_settle _ [])]
    rcases State.mac_setMac_cases (s.putB (R.MAC_S_PAUSED.pg p) false) p (fun m => { m with pauseQ := 0 }) with h | h <;> rw [h]
    rfl

end Sys2Proof.Machine
end

section
/-! Low-power idle (04_network R125). -/

namespace Sys2Proof.Machine

/-- A command that sets a STATUS bit of a port and counts it. -/
theorem gives_statusCounted {c : Instr} {s : State} {p i : Nat} {f : Fld} (hx : exec c s = done ((s.putB f true).cnt p i 1))
    (ha : f.addr = 0x1000C + 0x1000 * p) (hh : f.hi < 32) (hb : f.lo = f.hi) (hq : s.quiet = true) (hp : p < 4) (hi : i < 64) :
    Gives c s fun t =>
      t.is f = true ∧ t.w (cntKey p i) = s.w (cntKey p i) + 1 ∧
        s.keeps t ((R.MAC_S_LINK.pg p).addr :: cntWords p i) ∧ t = s.regsOf t := by
  have hput : s.writes (s.putB f true) [0x1000C + 0x1000 * p] := s.writes_put _ (by simp [ha])
  have hqy : (s.putB f true).quiet = true := State.quiet_putB true hq (by omega)
  have hw : s.writes ((s.putB f true).cnt p i 1).settle ((R.MAC_S_LINK.pg p).addr :: cntWords p i) :=
    State.writes_trans (State.writes_mono hput (by simp))
      (State.writes_trans (State.writes_mono (State.writes_cnt i 1 hqy hp) fun k hk => List.mem_cons_of_mem _ hk) (State.writes_settle _ _))
  refine gives_done hx ⟨?_, ?_, hw.1, hw.2⟩
  · rw [State.settle_is, State.is_cnt 1 hqy hp hi (by rw [ha]; exact not_counterWord_status p)]
    exact s.is_putB f true hh hb
  · rw [State.settle_w, State.cnt_w_same 1 hqy hp hi, hput.1 _ (by simp only [cntKey, List.mem_singleton]; omega)]
    rfl

/-- The conditions of R125 for transmit low-power idle. -/
def State.idles (s : State) (p : Nat) : Prop :=
  s.portOn p = true ∧ s.is (R.MAC_EEE_CFG_EN.pg p) = true ∧ s.is (R.MAC_S_TX_LPI.pg p) = false ∧ s.eeeBlocked p = false ∧
    s.queuesEmpty p = true ∧ (s.mac p).sentAt + usCyc (s.get (R.MAC_EEE_CFG_LPI_IDLE.pg p)) ≤ s.absCyc

theorem State.lpiEntryOp_idle {s : State} {p : Nat} (h : s.idles p) : s.lpiEntryOp p = (s.putB (R.MAC_S_TX_LPI.pg p) true).cnt p 50 1 := by
  obtain ⟨hon, hen, hlpi, hmedia, hempty, ht⟩ := h
  exact if_pos (by simp [hon, hen, hlpi, hmedia, hempty, ht])

theorem State.lpiEntryOp_busy {s : State} {p : Nat} (h : ¬ s.idles p) : s.lpiEntryOp p = s := by
  refine if_neg fun hb => h ?_
  simp only [Bool.and_eq_true, Bool.not_eq_true', decide_eq_true_eq] at hb
  obtain ⟨⟨⟨⟨⟨hon, hen⟩, hlpi⟩, hmedia⟩, hempty⟩, ht⟩ := hb
  exact ⟨hon, hen, hlpi, hmedia, hempty, ht⟩

/-- A wake leaves transmit low-power idle and holds the queues for TW_SYS. -/
theorem gives_lpiWake {s : State} {p : Fin 4} (h : s.is (R.MAC_S_TX_LPI.pg p) = true) (hl : p.val < s.macs.length) :
    Gives (.lpiWake p) s fun t =>
      t.is (R.MAC_S_TX_LPI.pg p) = false ∧ (t.mac p).hold = s.absCyc + usCyc (s.get (R.MAC_EEE_CFG_TW_SYS.pg p)) ∧
        s.keeps t [(R.MAC_S_LINK.pg p).addr] ∧ t = { s.regsOf t with macs := t.macs } := by
  have hput : s.writes (s.putB (R.MAC_S_TX_LPI.pg p) false) [(R.MAC_S_LINK.pg p).addr] := s.writes_put _ (List.mem_singleton_self _)
  have hx : exec (.lpiWake p) s = done ((s.putB (R.MAC_S_TX_LPI.pg p) false).setMac p fun m =>
      { m with hold := s.absCyc + usCyc (s.get (R.MAC_EEE_CFG_TW_SYS.pg p)) }) := congrArg done (if_pos h)
  generalize s.absCyc + usCyc (s.get (R.MAC_EEE_CFG_TW_SYS.pg p)) = c at hx ⊢
  have hw := State.writesMacs_settle (State.writesMacs_trans (State.writesMacs_of_writes hput)
    (State.writesMacs_setMac _ p (fun m => { m with hold := c }) _))
  refine gives_done hx ⟨?_, ?_, hw.1, hw.2⟩
  · rw [State.settle_is]
    exact s.is_putB (R.MAC_S_TX_LPI.pg p) false (by decide : (3 : Nat) < 32) rfl
  · rw [State.mac_of_writes (State.writes_settle _ []), State.mac_setMac _ (by rw [hput.2]; exact hl)]

/-! The partner's idle. -/

theorem State.rxLpiOp_still {s : State} {p : Nat} {b : Bool} (h : s.is (R.MAC_S_RX_LPI.pg p) = b) : s.rxLpiOp p b = s :=
  if_pos (by simp [h])

/-- RX_LPI changes; an entry counts while the receiver is on. -/
theorem State.rxLpiOp_changes {s : State} {p : Nat} {b : Bool} (hon : s.portOn p = true) (h : s.is (R.MAC_S_RX_LPI.pg p) = !b) :
    s.rxLpiOp p b =
      if b && s.is (R.MAC_C_RX_EN.pg p) then (s.putB (R.MAC_S_RX_LPI.pg p) b).cnt p 51 1 else s.putB (R.MAC_S_RX_LPI.pg p) b := by
  have hrx : (s.putB (R.MAC_S_RX_LPI.pg p) b).is (R.MAC_C_RX_EN.pg p) = s.is (R.MAC_C_RX_EN.pg p) := by
    refine State.is_putB_other b (by decide : (4 : Nat) < 32) (Or.inl ?_)
    show 0x10008 + 0x1000 * p ≠ 0x1000C + 0x1000 * p
    omega
  have hnot : (!s.portOn p || s.is (R.MAC_S_RX_LPI.pg p) == b) = false := by rw [hon, h]; cases b <;> rfl
  rw [State.rxLpiOp, hnot, ← hrx]
  rfl

/-- Where nothing is counted, STATUS shows the partner's idle, or its end. -/
theorem gives_rxLpi_uncounted {c : Instr} {s : State} {p : Nat} {b : Bool} (hx : exec c s = done (s.rxLpiOp p b)) (hon : s.portOn p = true)
    (hb : (b && s.is (R.MAC_C_RX_EN.pg p)) = false) :
    Gives c s fun t => t.is (R.MAC_S_RX_LPI.pg p) = b ∧ s.keeps t [(R.MAC_S_LINK.pg p).addr] ∧ t = s.regsOf t := by
  by_cases h : s.is (R.MAC_S_RX_LPI.pg p) = b
  · rw [State.rxLpiOp_still h] at hx
    have hw := s.writes_settle [(R.MAC_S_LINK.pg p).addr]
    exact gives_done hx ⟨(State.settle_is _ _).trans h, hw.1, hw.2⟩
  · rw [State.rxLpiOp_changes hon (Bool.eq_not.mpr h), hb, if_neg Bool.false_ne_true] at hx
    have hput : s.writes (s.putB (R.MAC_S_RX_LPI.pg p) b) [(R.MAC_S_LINK.pg p).addr] := s.writes_put _ (List.mem_singleton_self _)
    have hw := State.writes_trans hput (State.writes_settle _ _)
    refine gives_done hx ⟨?_, hw.1, hw.2⟩
    rw [State.settle_is]
    exact s.is_putB (R.MAC_S_RX_LPI.pg p) b (by decide : (4 : Nat) < 32) rfl

/-- Settles O15: each clause is the rule of its command. -/
theorem pauseAndIdle : Obligations.PauseAndIdle := by
  unfold Obligations.PauseAndIdle
  refine ⟨?_, ?_, ?_, ?_, ?_, ?_, ?_, ?_, ?_, ?_, ?_⟩
  · intro s p q hon hrx hlink hq hen hroom h0 hl
    exact gives_pauseFrameReceive ⟨hon, hrx, hlink⟩ hq hen (by simpa using hroom) h0 hl
  · intro s p hon hrx hlink hq hen hroom hl
    exact gives_pauseFrameReceive_zero ⟨hon, hrx, hlink⟩ hq hen (by simpa using hroom) hl
  · intro s p h hptp hmedia
    exact gives_unchanged (congrArg done (State.frameOut_paused h hptp hmedia))
  · intro s p hon ht
    exact gives_pauseExpire hon ht
  · intro s p h
    exact gives_unchanged (congrArg done (if_neg (by simpa [or_iff_not_imp_left] using h)))
  · intro s p hq hon hen hlpi hmedia hempty ht
    have hidle : s.idles p := ⟨hon, hen, by simpa using hlpi, by simpa using hmedia, hempty, ht⟩
    exact gives_statusCounted (congrArg done (State.lpiEntryOp_idle hidle)) rfl (by decide : (3 : Nat) < 32) rfl hq p.isLt (by decide)
  · intro s p h
    refine gives_unchanged (congrArg done (State.lpiEntryOp_busy fun ⟨hon, hen, hlpi, hmedia, hempty, ht⟩ => ?_))
    simp [hon, hen, hlpi, hmedia, hempty, Nat.not_lt.mpr ht] at h
  · intro s p h hl
    exact gives_lpiWake h hl
  · intro s p hq hon hlpi hrx
    have hx : exec (.rxLpiEntry p) s = done ((s.putB (R.MAC_S_RX_LPI.pg p) true).cnt p 51 1) :=
      congrArg done ((State.rxLpiOp_changes (b := true) hon (by simpa using hlpi)).trans (if_pos (by simp [hrx])))
    exact gives_statusCounted hx rfl (by decide : (4 : Nat) < 32) rfl hq p.isLt (by decide)
  · intro s p hon hrx
    exact gives_rxLpi_uncounted (c := .rxLpiEntry p) (b := true) rfl hon (by simp [hrx])
  · intro s p hon
    exact gives_rxLpi_uncounted (c := .rxLpiExit p) (b := false) rfl hon rfl

end Sys2Proof.Machine
end

section
/-! The last descriptor is taken back (04_network R125, R128). A TAIL write that leaves the transmit queues of a port empty starts LPI_IDLE
anew: the port counts the time from when its queues became empty. ControlRings lets a TAIL write change the answer and host memory
alone. -/

namespace Sys2Proof.Machine

/-- In RUN, in slot 1, every domain on: ring 4 of port 0 is enabled with 16 descriptors, and one of them waits. -/
def oneDescriptorWaits : State :=
  { State.reset with words := [(0x9C, 3), (0x1088, 0x3FFF), (0x10688, 0x104), (0x1068C, 1)], slot := 1 }

/-- The rules let the host write that ring's TAIL. -/
theorem oneDescriptorWaits_takes : oneDescriptorWaits.takes (0 : Master).toNat (macBase 0 + 0x60C + 32 * 4) = true := by decide +kernel

/-- TAIL 0 takes the descriptor back: the queues of port 0 are empty from the first cycle of slot 1 on. -/
theorem oneDescriptorWaits_emptied :
    (effRingTailWrite 0 0 4 0 [] oneDescriptorWaits).macs.map MacSt.sentAt = [76800, 0, 0, 0] ∧
      oneDescriptorWaits.macs.map MacSt.sentAt = [0, 0, 0, 0] := by decide +kernel

/-- Refutes O17, by its clause on TAIL: a write that empties the transmit queues changes the port too, which counts LPI_IDLE from then
(R125). -/
theorem not_controlRings : ¬ Obligations.ControlRings := by
  unfold Obligations.ControlRings
  rintro ⟨-, hTail, -⟩
  have hx : exec (.ringTailWrite 0 0 4 0 []) oneDescriptorWaits = done (effRingTailWrite 0 0 4 0 [] oneDescriptorWaits) := rfl
  obtain ⟨-, -, -, -, hframe⟩ := (gives_done_iff hx).mp (hTail oneDescriptorWaits 0 0 0 4 [] oneDescriptorWaits_takes)
  have hmacs : (effRingTailWrite 0 0 4 0 [] oneDescriptorWaits).macs = oneDescriptorWaits.macs := by
    rw [← State.settle_macs, hframe]; rfl
  obtain ⟨hafter, hbefore⟩ := oneDescriptorWaits_emptied
  rw [hmacs, hbefore] at hafter
  exact absurd hafter (by decide)

end Sys2Proof.Machine
end

section
/-! A fader command by master 0x03 into a full FIFO (08_buses_and_outputs R252). The refusal is answered TERR, and any response but OK to
master 0x03, under which the ring writes its bulk segments (13_apsal_systems R397), latches EVENT[12] of RING: AudioControls lets the
refused command change the EVENT register of MIX0 alone, whoever writes it. -/

namespace Sys2Proof.Machine

/-- In RUN, in slot 0, with every domain on and 256 fader commands waiting. -/
def fadersWait : State :=
  { State.reset with
    words := [(0x9C, 3), (0x1088, 0x3FFF), (0x1090, 1), (0x200C, 5)]
    mix := { MixSt.reset with fifo := List.replicate 256 (0, 0) } }

/-- The rules let master 0x03 write FADE_CMD. -/
theorem fadersWait_takes : fadersWait.takes (3 : Master).toNat 0x70090 = true := by decide +kernel

/-- Its GO latches FADE_OVF, and EVENT[12] of RING with it. -/
theorem fadeCmdByRing_events :
    fadersWait.w (evKey eRING) = 0 ∧ (effFadeCmd 3 0x80000000 fadersWait).w (evKey eMIX) = 4 ∧
      (effFadeCmd 3 0x80000000 fadersWait).w (evKey eRING) = 0x1000 := by decide +kernel

/-- Refutes O18, by its clause on a fader command with 256 waiting: made by master 0x03, it changes the EVENT register of RING too. -/
theorem not_audioControls : ¬ Obligations.AudioControls := by
  unfold Obligations.AudioControls
  rintro ⟨-, -, -, hFull, -⟩
  have hquiet : fadersWait.quiet = true := by decide +kernel
  have hgo : bitOf (0x80000000 : Word).toNat 31 = true := by decide
  have hlen : 256 ≤ fadersWait.mix.fifo.length := List.length_replicate.ge
  have hx : exec (.fadeCmd 3 0x80000000) fadersWait = done (effFadeCmd 3 0x80000000 fadersWait) := rfl
  obtain ⟨-, -, hkeeps, -⟩ := (gives_done_iff hx).mp (hFull fadersWait 3 0x80000000 fadersWait_takes hquiet hgo hlen)
  have hother : evKey eRING ∉ [evKey eMIX] := by decide +kernel
  obtain ⟨hbefore, -, hafter⟩ := fadeCmdByRing_events
  have hsame := hkeeps (evKey eRING) hother
  rw [State.settle_w, hbefore, hafter] at hsame
  exact absurd hsame (by decide)

end Sys2Proof.Machine
end

section
/-! A record that master 0x03 pushes and a rule rejects (06_objects_and_mould R188, R189). The push is answered TERR, and any response but
OK to master 0x03, under which the ring writes its bulk segments (13_apsal_systems R397), latches EVENT[12] of RING: MetadataAndBulk lets
the rejected push change the EVENT register of OBJ0 alone, whoever makes it. -/

namespace Sys2Proof.Machine

/-- In RUN, in slot 0, with every domain on. -/
def inboxReady : State := { State.reset with words := [(0x9C, 3), (0x1088, 0x3FFF), (0x1090, 1), (0x200C, 5)] }

/-- A record for object 5 that gives it the mode 4, which no object has. -/
def badModeRecord : List Byte := [5, 0, 4, 16] ++ List.replicate 28 0

/-- The SRAM serves a write of it by master 0x03 to inbox slot 3. -/
theorem inboxReady_servesSram : inboxReady.servesSram (3 : Master).toNat (0x11790000 + 32 * 3 + 0) badModeRecord.length true = true := by
  decide +kernel

/-- The slot's words hold no error and no poison. -/
theorem inboxReady_clean : inboxReady.clean (0x11790000 + 32 * 3 + 0) badModeRecord.length = true := by decide +kernel

/-- Its MODE field rejects the record with FIELD. -/
theorem badModeRecord_pushReason : inboxReady.pushReason (inboxReady.bytes (0x11790000 + 32 * 3) 0 ++ badModeRecord) = 3 := by
  decide +kernel

/-- Its push by master 0x03 latches META_REJECT, and EVENT[12] of RING with it. -/
theorem badModePushByRing_events :
    inboxReady.w (evKey eRING) = 0 ∧ (effMetadataPush 3 3 0 badModeRecord inboxReady).w (evKey eOBJ) = 2 ∧
      (effMetadataPush 3 3 0 badModeRecord inboxReady).w (evKey eRING) = 0x1000 := by decide +kernel

/-- A rejected record is counted in a word that is not the EVENT register of RING. -/
theorem evKey_eRING_not_mem_rejectWords (reason : Nat) :
    evKey eRING ∉ [0xA00AC, 0xA00B0, 0x60090,
      (if reason = 1 then R.OBJ0_REJ_FULL_CNT_COUNT else if reason = 2 then R.OBJ0_REJ_ORDER_CNT_COUNT
        else R.OBJ0_REJ_FIELD_CNT_COUNT).addr, evKey eOBJ] := by
  split_ifs <;> decide +kernel

/-- Refutes O19, by its clause on a rejected record: pushed by master 0x03, it changes the EVENT register of RING too. -/
theorem not_metadataAndBulk : ¬ Obligations.MetadataAndBulk := by
  unfold Obligations.MetadataAndBulk
  rintro ⟨-, hRejected, -⟩
  have hquiet : inboxReady.quiet = true := by decide +kernel
  have hreason : inboxReady.pushReason (inboxReady.bytes (0x11790000 + 32 * 3) 0 ++ badModeRecord) ≠ 0 := by
    rw [badModeRecord_pushReason]; decide
  have hx : exec (.metadataPush 3 3 0 badModeRecord) inboxReady = done (effMetadataPush 3 3 0 badModeRecord inboxReady) := rfl
  obtain ⟨-, -, -, -, -, hkeeps, -⟩ := (gives_done_iff hx).mp
    (hRejected inboxReady 3 3 0 badModeRecord inboxReady_servesSram inboxReady_clean rfl hreason hquiet)
  obtain ⟨hbefore, -, hafter⟩ := badModePushByRing_events
  have hsame := hkeeps (evKey eRING) (evKey_eRING_not_mem_rejectWords _)
  rw [State.settle_w, hbefore, hafter] at hsame
  exact absurd hsame (by decide)

end Sys2Proof.Machine
end

section
/-! Register writes to PRESS.REQ that the rules let through (02_register_pages R52; 08_buses_and_outputs R258): what PRESS makes of the
bits written, and the answer. -/

namespace Sys2Proof.Machine

/-- The register REQ of PRESS. -/
def reqSpec : RegSpec := ⟨0x90, 1, 4, 0, 0, 0, 0xff0f, 0, 0, 0, 0, 0, false, false⟩

theorem regOf_req : regOf 0x8090 = some (reqSpec, 0) := by decide +kernel

theorem srcOf_req : srcOf 0x8090 = some 8 := by decide +kernel

theorem State.locate_req (s : State) (m : Nat) : s.locate m 0x8090 = some ⟨0x8090, reqSpec⟩ := by
  simp only [State.locate, srcOf_req, regOf_req]
  rfl

/-- PRESS acts on the bits written once the write is stored. -/
theorem State.storeReg_req (s : State) (m : Nat) (v : Word) : s.storeReg m 0x8090 0 v = (s.stored 0x8090 reqSpec v).pressReq v.toNat := by
  have hv : v &&& ~~~ w32 0 = v := BitVec.and_allOnes
  have hadj : ∀ old new, s.adjust 0x8090 old new = new := fun old new => by
    rw [State.adjust, if_neg (by decide), if_neg (by decide), if_neg (by decide), if_neg (by decide)]
  have hhook : ∀ (u : State) (old : Word), u.writeHook m 0x8090 old v = u.pressReq v.toNat := fun u old => by
    have hoff : 0x8090 % 0x1000 = 8 ∨ 0x80 ≤ 0x8090 % 0x1000 := by decide
    simp only [State.writeHook, srcOf_req, Option.getD_some, u.headerHook_none hoff]
    rfl
  simp only [State.storeReg, s.locate_req m, hadj, hv, hhook]
  rfl

/-- The write is answered OK, whatever PRESS makes of it. -/
theorem State.regWrite_req {s u : State} {m : Nat} {v : Word} (hk : s.takes m 0x8090 = true)
    (hu : (s.stored 0x8090 reqSpec v).pressReq v.toNat = u) (hi : u.fabricIdle = s.fabricIdle) (hb : u.bus = s.bus) :
    s.regWrite m 0x8090 v = u.withBus (s.told m .ok []) := by
  have hst : s.storeReg m 0x8090 0 v = u := (s.storeReg_req m v).trans hu
  have hbl : s.blockRefuses 0x8090 0 v = none := by
    simp only [State.blockRefuses]
    rw [if_neg (by omega), if_neg (by omega), if_neg (by omega)]
  obtain ⟨-, hidle, -⟩ := (s.sees_iff m 0x8090 true).mp ((s.takes_iff m 0x8090).mp hk).1
  rw [s.regWrite_ok m 0x8090 v hk hbl (by rw [hst]; exact hi.trans hidle), hst, State.told, hb]
  rfl

end Sys2Proof.Machine
end

section
/-! What PRESS changes beside its registers: the press pending and what geometry computed ahead of it, which is given up where the press
is scheduled or no longer scheduled (08_buses_and_outputs R258; 06_objects_and_mould R194). -/

namespace Sys2Proof.Machine

/-- From s to t only words among ks have changed, and beside the words only the press, and the knots with their units. -/
def State.writesPress (s t : State) (ks : List Nat) : Prop :=
  s.keeps t ks ∧ t = { s.regsOf t with press := t.press, knots := t.knots, stages := t.stages }

theorem State.writesPress_of_writes {s t : State} {ks : List Nat} (h : s.writes t ks) : s.writesPress t ks := by
  refine ⟨h.1, ?_⟩
  rw [h.2]; rfl

theorem State.writesPress_trans {s t u : State} {ks : List Nat} (h : s.writesPress t ks) (h' : t.writesPress u ks) :
    s.writesPress u ks := by
  refine ⟨State.keeps_append h.1 h'.1, ?_⟩
  rw [h'.2]; rw [h.2]; rfl

theorem State.writesPress_mono {s t : State} {ks ls : List Nat} (h : s.writesPress t ks) (hl : ∀ k ∈ ks, k ∈ ls) :
    s.writesPress t ls := ⟨State.keeps_mono h.1 hl, h.2⟩

theorem State.writesPress_setPress (s : State) (p : Option PressSt) (ks : List Nat) : s.writesPress { s with press := p } ks :=
  ⟨fun _ _ => rfl, rfl⟩

theorem State.idle_of_writesPress {s t : State} {ks : List Nat} (h : s.writesPress t ks) : t.fabricIdle = s.fabricIdle := by
  rw [h.2]; rfl

theorem State.bus_of_writesPress {s t : State} {ks : List Nat} (h : s.writesPress t ks) : t.bus = s.bus := by
  rw [h.2]; rfl

theorem State.pressSlot_of_writesPress {s t : State} {ks : List Nat} (h : s.writesPress t ks) (p : PressSt) :
    t.pressSlot p = s.pressSlot p := by rw [h.2]; rfl

/-! The refusal that PRESS shows (R258, R259). -/

/-- The words that show a refusal. -/
def refuseWords : List Nat := [0x8094, 0x8098, R.PRESS_REFUSE_CNT_COUNT.addr, evKey ePRESS]

/-- RESULT and DETAIL of a refusal. -/
def State.refusalNamed (s : State) (reason node detail id : Nat) : State :=
  (s.setN 0x8094 (reason % 16 + id % 256 * 2 ^ 8 + node % 2 ^ 16 * 2 ^ 16)).setN 0x8098 (detail % 2 ^ 16)

theorem State.refuseShow_eq (s : State) (reason node detail id : Nat) :
    s.refuseShow reason node detail id = ((s.refusalNamed reason node detail id).addW R.PRESS_REFUSE_CNT_COUNT 1).latch ePRESS 1 := rfl

theorem State.writes_refusalNamed (s : State) (reason node detail id : Nat) :
    s.writes (s.refusalNamed reason node detail id) refuseWords :=
  State.writes_trans (s.writes_setW _ (by simp [refuseWords])) (State.writes_setW _ _ (by simp [refuseWords]))

/-- RESULT reads the reason and the tag that a word composed for it holds. -/
theorem State.result_setN (s : State) (reason node id : Nat) :
    (s.setN 0x8094 (reason % 16 + id % 256 * 2 ^ 8 + node % 2 ^ 16 * 2 ^ 16)).get R.PRESS_RESULT_REASON = reason % 16 ∧
      (s.setN 0x8094 (reason % 16 + id % 256 * 2 ^ 8 + node % 2 ^ 16 * 2 ^ 16)).get R.PRESS_RESULT_ID = id % 256 := by
  have hw : (w32 (reason % 16 + id % 256 * 2 ^ 8 + node % 2 ^ 16 * 2 ^ 16)).toNat =
      reason % 16 + id % 256 * 2 ^ 8 + node % 2 ^ 16 * 2 ^ 16 := w32_toNat _ (by omega)
  constructor
  · exact (s.setW_get_same _ R.PRESS_RESULT_REASON).trans (by rw [hw]; simp only [bits, R.PRESS_RESULT_REASON]; omega)
  · exact (s.setW_get_same _ R.PRESS_RESULT_ID).trans (by rw [hw]; simp only [bits, R.PRESS_RESULT_ID]; omega)

/-- From s to t PRESS has shown a refusal with a reason and a tag. -/
structure State.RefusalShown (s t : State) (reason id : Nat) : Prop where
  writes : s.writes t refuseWords
  reason : t.get R.PRESS_RESULT_REASON = reason % 16
  id : t.get R.PRESS_RESULT_ID = id % 256
  count : t.get R.PRESS_REFUSE_CNT_COUNT = (s.get R.PRESS_REFUSE_CNT_COUNT + 1) % 2 ^ 32
  event : t.hasEvent ePRESS 1 = true

theorem State.refusalShown {s : State} (reason node detail id : Nat) (hq : s.quiet = true) :
    s.RefusalShown (s.refuseShow reason node detail id) reason id := by
  obtain ⟨hr, hi⟩ := s.result_setN reason node id
  have hn : ∀ f : Fld, f.addr ≠ 0x8098 → (s.refusalNamed reason node detail id).get f =
      (s.setN 0x8094 (reason % 16 + id % 256 * 2 ^ 8 + node % 2 ^ 16 * 2 ^ 16)).get f := fun f hf => State.setW_get_other _ _ _ _ hf
  have hcnt : (s.refusalNamed reason node detail id).get R.PRESS_REFUSE_CNT_COUNT = s.get R.PRESS_REFUSE_CNT_COUNT :=
    (hn _ (by decide)).trans (s.setW_get_other _ _ _ (by decide))
  have hw := s.writes_refusalNamed reason node detail id
  rw [State.refuseShow_eq]
  rw [← hn _ (by decide)] at hr hi
  generalize s.refusalNamed reason node detail id = u at *
  have hput : u.writes (u.addW R.PRESS_REFUSE_CNT_COUNT 1) [R.PRESS_REFUSE_CNT_COUNT.addr] := u.writes_put _ (by simp)
  have hqu : (u.addW R.PRESS_REFUSE_CNT_COUNT 1).quiet = true :=
    State.quiet_of_keeps (State.keeps_trans hw.1 hput.1) (by decide +kernel) hq
  constructor
  case writes =>
    exact State.writes_trans hw (State.writes_trans (State.writes_mono hput (by simp [refuseWords]))
      (State.writes_latch 1 hqu (by simp [refuseWords])))
  case reason => rw [State.get_latch _ _ hqu (by decide), State.keeps_get hput.1 _ (by decide), hr]
  case id => rw [State.get_latch _ _ hqu (by decide), State.keeps_get hput.1 _ (by decide), hi]
  case count => rw [State.get_latch _ _ hqu (by decide), State.get_addW _ _ _ (by decide) (by decide), hcnt]; rfl
  case event => exact State.hasEvent_latch _ _ _ (by decide) hqu

/-! Knots that are computed again (06_objects_and_mould R194). -/

/-- A unit begins again at slot n if it had come past it. -/
def State.unitAgain (s : State) (n g : Nat) : State := if (s.stage g).next < n then s else s.setStage g ⟨n, false⟩

theorem State.knotsAgain_eq (s : State) (n : Nat) :
    s.knotsAgain n =
      State.each { s with knots := s.knots.filter fun e => decide (e.1 % 2 ^ 64 < n) } [1, 2, 3, 4] fun s g => s.unitAgain n g := rfl

theorem State.stage_setStage (s : State) (g x : Nat) (v : StageSt) : (s.setStage g v).stage x = if x = g then v else s.stage x :=
  tget_tset _ _ _ _ _

theorem State.stage_unitAgain (s : State) (n g x : Nat) :
    (s.unitAgain n g).stage x = if x = g ∧ n ≤ (s.stage x).next then ⟨n, false⟩ else s.stage x := by
  unfold State.unitAgain
  split
  · next h => rw [if_neg (by rintro ⟨rfl, h'⟩; omega)]
  · next h =>
    rw [State.stage_setStage]
    by_cases hx : x = g
    · subst hx; rw [if_pos rfl, if_pos ⟨rfl, by omega⟩]
    · rw [if_neg hx, if_neg fun hc => hx hc.1]

theorem State.unitAgain_frame (s : State) (n g : Nat) : s.unitAgain n g = { s with stages := (s.unitAgain n g).stages } := by
  unfold State.unitAgain
  split <;> rfl

theorem State.stage_unitsAgain (s : State) (n : Nat) (l : List Nat) (x : Nat) :
    (s.each l fun s g => s.unitAgain n g).stage x = if x ∈ l ∧ n ≤ (s.stage x).next then ⟨n, false⟩ else s.stage x := by
  induction l generalizing s with
  | nil => simp [State.each]
  | cons g l ih =>
    have h := ih (s.unitAgain n g)
    rw [State.stage_unitAgain] at h
    by_cases hc : x = g ∧ n ≤ (s.stage x).next
    · rw [if_pos hc, ite_self] at h
      rw [if_pos ⟨by simp [hc.1], hc.2⟩]
      exact h
    · rw [if_neg hc] at h
      have hiff : (x ∈ g :: l ∧ n ≤ (s.stage x).next) ↔ (x ∈ l ∧ n ≤ (s.stage x).next) := by rw [List.mem_cons]; tauto
      simp only [hiff]
      exact h

theorem State.unitsAgain_frame (s : State) (n : Nat) (l : List Nat) :
    (s.each l fun s g => s.unitAgain n g) = { s with stages := (s.each l fun s g => s.unitAgain n g).stages } :=
  s.each_induct (fun u => u = { s with stages := u.stages }) _ l rfl fun u g _ hu => by
    rw [u.unitAgain_frame]; rw [hu]

/-- Where b holds, the knots of slots from n on are given up and their units begin again at n; else they stay. -/
structure State.KnotsFrom (s t : State) (b : Bool) (n : Nat) : Prop where
  knots : t.knots = if b then s.knots.filter fun e => decide (e.1 % 2 ^ 64 < n) else s.knots
  units : ∀ g ∈ [1, 2, 3, 4], (t.stage g).next = if b then min (s.stage g).next n else (s.stage g).next
  others : ∀ g, g ∉ [1, 2, 3, 4] → t.stage g = s.stage g

theorem State.knotsFrom_of_eq {s t : State} (n : Nat) (hk : t.knots = s.knots) (hs : t.stages = s.stages) : s.KnotsFrom t false n where
  knots := hk
  units := fun g _ => by simp only [State.stage, hs]; rfl
  others := fun g _ => by simp only [State.stage, hs]

theorem State.knotsFrom_knotsAgain (s : State) (n : Nat) : s.KnotsFrom (s.knotsAgain n) true n where
  knots := by rw [State.knotsAgain_eq, State.unitsAgain_frame]; rfl
  units := fun g hg => by
    rw [State.knotsAgain_eq, State.stage_unitsAgain]
    by_cases h : n ≤ (s.stage g).next
    · exact (congrArg StageSt.next (if_pos ⟨hg, h⟩)).trans (min_eq_right h).symm
    · exact (congrArg StageSt.next (if_neg fun hc => h hc.2)).trans (min_eq_left (Nat.le_of_not_le h)).symm
  others := fun g hg => by
    rw [State.knotsAgain_eq, State.stage_unitsAgain]
    exact if_neg fun hc => hg hc.1

theorem State.knotsAgain_frame (s : State) (n : Nat) :
    s.knotsAgain n = { s with knots := (s.knotsAgain n).knots, stages := (s.knotsAgain n).stages } := by
  rw [State.knotsAgain_eq, State.unitsAgain_frame]

/-- What came before or after and left knots and units as they were does not matter. -/
theorem State.KnotsFrom.congr {s s' t t' : State} {b : Bool} {n : Nat} (h : s.KnotsFrom t b n) (hk : s.knots = s'.knots)
    (hs : s.stages = s'.stages) (hk' : t'.knots = t.knots) (hs' : t'.stages = t.stages) : s'.KnotsFrom t' b n where
  knots := by rw [hk', h.knots, hk]
  units := fun g hg => by
    have := h.units g hg
    simpa only [State.stage, hs, hs'] using this
  others := fun g hg => by
    have := h.others g hg
    simpa only [State.stage, hs, hs'] using this

/-- The clauses on the units as LocalPress states them. -/
theorem State.KnotsFrom.all {s t : State} {b : Bool} {n : Nat} (h : s.KnotsFrom t b n) :
    ([1, 2, 3, 4].all fun g => (t.stage g).next == (if b then min (s.stage g).next n else (s.stage g).next)) = true ∧
      ((List.range 64).all fun g => decide (1 ≤ g ∧ g ≤ 4) || t.stage g == s.stage g) = true := by
  constructor
  · exact List.all_eq_true.mpr fun g hg => beq_iff_eq.mpr (h.units g hg)
  · refine List.all_eq_true.mpr fun g _ => ?_
    by_cases hg : 1 ≤ g ∧ g ≤ 4
    · simp [hg]
    · rw [h.others g (by simp only [List.mem_cons, List.not_mem_nil, or_false]; omega)]
      simp

end Sys2Proof.Machine
end

section
/-! A press is asked for or aborted (08_buses_and_outputs R258, R259, R262). -/

namespace Sys2Proof.Machine

/-! The write as PRESS finds it. -/

/-- The press that a write of REQ asks the ring for: only a manager does (R262). -/
def State.asksRing (s : State) (v : Nat) : Bool := bitOf v 2 && s.isManager

/-- N of a write of REQ: REQ_SHEET, from the current sheet where REL is set. -/
def State.pressTarget (s : State) (v : Nat) : Nat := (if bitOf v 3 then s.sheet else 0) + s.get64 0x8088 % 2 ^ 48

/-- In w PRESS finds for a request what it finds in s. -/
structure State.PressSeen (s w : State) : Prop where
  mode : w.pressMode = s.pressMode
  forbidden : ∀ ring, w.pressForbidden ring = s.pressForbidden ring
  asks : ∀ v, w.asksRing v = s.asksRing v
  target : ∀ v, w.pressTarget v = s.pressTarget v
  press : w.press = s.press
  sheet : w.sheet = s.sheet

theorem State.ringDiffers_of_keeps {s w : State} (h : s.keeps w [0x8090]) : w.ringDiffers = s.ringDiffers := by
  have hn : ∀ k, k ≠ 0x8090 → w.n k = s.n k := fun k hk => State.keeps_n h (by simpa using hk)
  have hmap : (fun x => w.n (0xC2400 + 4 * x) != w.n (0xC2480 + 4 * x)) = fun x => s.n (0xC2400 + 4 * x) != s.n (0xC2480 + 4 * x) :=
    funext fun x => by rw [hn _ (by omega), hn _ (by omega)]
  rw [State.ringDiffers, hmap, hn _ (by decide), hn _ (by decide), hn _ (by decide), hn _ (by decide)]
  rfl

/-- A word stored in REQ changes nothing of it. -/
theorem State.pressSeen {s w : State} (h : s.writes w [0x8090]) : s.PressSeen w := by
  have hrole : w.role = s.role := State.keeps_get h.1 _ (by decide)
  have hmanager : w.isManager = s.isManager := by rw [State.isManager, hrole]; rfl
  have hmode : w.mode = s.mode := State.keeps_get h.1 _ (by decide)
  have hothers : w.otherMembers = s.otherMembers := by
    rw [State.otherMembers, State.devid, State.keeps_get h.1 _ (by decide), State.keeps_get h.1 _ (by decide)]
    rfl
  have hsheet : w.sheet = s.sheet := by rw [h.2]; rfl
  constructor
  case mode => rw [State.pressMode, hmode]; rfl
  case forbidden => intro ring; rw [State.pressForbidden, hrole, hothers, State.ringDiffers_of_keeps h.1]; rfl
  case asks => intro v; rw [State.asksRing, hmanager]; rfl
  case target => intro v; rw [State.pressTarget, hsheet, State.get64_congr h.1 (by decide) (by decide)]; rfl
  case press => rw [h.2]; rfl
  case sheet => exact hsheet

/-! GO. -/

/-- The press that GO makes pending. -/
def State.newPress (s : State) (v : Nat) : PressSt := ⟨s.pressTarget v, bits v 15 8, s.asksRing v, s.sheet, false, none, [], none, none⟩

/-- A press is pending, and announced to the ring where `ask` names it. -/
def State.pendingShown (s : State) (p : PressSt) (ask : Option (Nat × Nat)) : State :=
  { s with press := some p, askRing := ask }.putB R.PRESS_S_PENDING true

/-- Nothing refuses GO: rows 1 to 3 of R259, and the lead of R262. -/
structure State.TakesGo (s : State) (v : Nat) : Prop where
  mode : s.pressMode = true
  idle : s.press = none
  allowed : s.pressForbidden (s.asksRing v) = false
  lead : s.asksRing v = true → s.sheet + 16 ≤ s.pressTarget v

theorem State.TakesGo.congr {s w : State} {v : Nat} (h : s.TakesGo v) (hs : s.PressSeen w) : w.TakesGo v where
  mode := hs.mode.trans h.mode
  idle := hs.press.trans h.idle
  allowed := by rw [hs.asks, hs.forbidden]; exact h.allowed
  lead := by rw [hs.asks, hs.target, hs.sheet]; exact h.lead

theorem State.pressGo_eq (s : State) (v : Nat) :
    s.pressGo v =
      if !s.pressMode then s.refuseShow rMode 0xF000 0 (bits v 15 8)
      else if s.press.isSome then s.refuseShow rBusy 0xF000 0 (bits v 15 8)
      else if s.pressForbidden (s.asksRing v) then s.refuseShow rLocal 0xF000 0 (bits v 15 8)
      else if s.asksRing v = true ∧ s.pressTarget v < s.sheet + 16 then s.refuseShow rTooLate 0xF000 0 (bits v 15 8)
      else s.pendingShown (s.newPress v) (if s.asksRing v then some (s.pressTarget v, bits v 15 8) else s.askRing) := rfl

theorem State.pressGo_pending {s : State} {v : Nat} (h : s.TakesGo v) :
    s.pressGo v = s.pendingShown (s.newPress v) (if s.asksRing v then some (s.pressTarget v, bits v 15 8) else s.askRing) := by
  have hlead : ¬ (s.asksRing v = true ∧ s.pressTarget v < s.sheet + 16) := fun hc => by have := h.lead hc.1; omega
  rw [State.pressGo_eq, if_neg (by simp [h.mode]), if_neg (by simp [h.idle]), if_neg (by simp [h.allowed]), if_neg hlead]

/-- The reason that refuses GO: the first of R259's rows. -/
def State.goReason (s : State) (v : Nat) : Nat :=
  if !s.pressMode then rMode else if s.press.isSome then rBusy else if s.pressForbidden (s.asksRing v) then rLocal else rTooLate

theorem State.goReason_lt (s : State) (v : Nat) : s.goReason v < 16 := by
  unfold State.goReason
  split_ifs <;> decide

theorem State.goReason_congr {s w : State} (h : s.PressSeen w) (v : Nat) : w.goReason v = s.goReason v := by
  rw [State.goReason, h.mode, h.press, h.asks, h.forbidden]
  rfl

/-- Something refuses GO. -/
def State.refusesGo (s : State) (v : Nat) : Bool :=
  !s.pressMode || s.press.isSome || s.pressForbidden (s.asksRing v) ||
    (s.asksRing v && decide (s.pressTarget v < s.sheet + 16))

theorem State.refusesGo_congr {s w : State} (h : s.PressSeen w) (v : Nat) : w.refusesGo v = s.refusesGo v := by
  rw [State.refusesGo, h.mode, h.press, h.asks, h.forbidden, h.target, h.sheet]
  rfl

theorem State.pressGo_refused {s : State} {v : Nat} (h : s.refusesGo v = true) :
    s.pressGo v = s.refuseShow (s.goReason v) 0xF000 0 (bits v 15 8) := by
  rw [State.pressGo_eq, State.goReason]
  split
  · rfl
  · next hm =>
    split
    · rfl
    · next hp =>
      split
      · rfl
      · next hf =>
        refine if_pos ?_
        simpa [State.refusesGo, hm, hp, hf] using h

theorem State.frame_answered_press {s u : State} {ks : List Nat} (h : s.writesPress u ks) (b : BusOut) :
    (u.withBus b).settle =
      { s.regsOf (u.withBus b).settle with
        bus := (u.withBus b).settle.bus, press := (u.withBus b).settle.press, knots := (u.withBus b).settle.knots,
        stages := (u.withBus b).settle.stages } := by
  rw [State.regsOf_settle (u.withBus b), h.2]; rfl

/-! The write of REQ. -/

/-- A write of REQ, w being the state in which it is stored. -/
theorem gives_req {c : Instr} {s : State} {m : Nat} {v : Word} {P : State → Prop} (hx : exec c s = done (s.regWrite m 0x8090 v))
    (hk : s.takes m 0x8090 = true)
    (h : ∀ w, s.writes w [0x8090] → (w.pressReq v.toNat).fabricIdle = s.fabricIdle ∧ (w.pressReq v.toNat).bus = s.bus ∧
      P ((w.pressReq v.toNat).withBus (s.told m .ok [])).settle) : Gives c s P := by
  obtain ⟨hi, hb, hp⟩ := h _ (s.writes_stored (r := reqSpec) v rfl)
  rw [State.regWrite_req hk rfl hi hb] at hx
  exact gives_done hx hp

/-- What GO leaves where nothing refuses it. -/
theorem gives_go_pending {c : Instr} {s : State} {m : Nat} {v : Word} (hx : exec c s = done (s.regWrite m 0x8090 v))
    (hk : s.takes m 0x8090 = true) (hg : bitOf v.toNat 0 = true) (ha : bitOf v.toNat 1 = false) (h : s.TakesGo v.toNat) :
    Gives c s fun t =>
      t.press = some (s.newPress v.toNat) ∧
      t.askRing = (if s.asksRing v.toNat then some (s.pressTarget v.toNat, bits v.toNat 15 8) else s.askRing) ∧
      t.is R.PRESS_S_PENDING = true ∧ t.bus = s.told m .ok [] ∧ s.keeps t [0x8090, R.PRESS_S_PENDING.addr] ∧
      t = { s.regsOf t with bus := t.bus, press := t.press, askRing := t.askRing } := by
  refine gives_req hx hk fun w hw => ?_
  have hs := State.pressSeen hw
  have hask : w.askRing = s.askRing := by rw [hw.2]; rfl
  have hnew : w.newPress v.toNat = s.newPress v.toNat := by rw [State.newPress, hs.target, hs.asks, hs.sheet]; rfl
  have hreq : w.pressReq v.toNat = w.pressGo v.toNat := by simp [State.pressReq, hg, ha]
  rw [hreq, State.pressGo_pending (h.congr hs), hnew, hs.asks, hs.target, hask]
  generalize (if s.asksRing v.toNat then some (s.pressTarget v.toNat, bits v.toNat 15 8) else s.askRing) = ask
  generalize s.newPress v.toNat = p
  refine ⟨by rw [hw.2]; rfl, by rw [hw.2]; rfl, ?_, ?_, ?_, ?_, ?_, ?_⟩
  · rw [State.settle_press]; rfl
  · rw [State.settle_askRing]; rfl
  · rw [State.settle_is, State.withBus_is]; exact State.is_putB _ _ _ (by decide) rfl
  · rw [State.settle_bus]; rfl
  · exact State.keeps_answered (State.keeps_trans (ks := [0x8090]) (fun k hk => hw.1 k hk)
      (State.keeps_put { w with press := some p, askRing := ask } R.PRESS_S_PENDING 1)) _
  · rw [State.regsOf_settle, hw.2]; rfl

theorem State.RefusalShown.writes_from {s w u : State} {reason id : Nat} (h : w.RefusalShown u reason id) (hw : s.writes w [0x8090]) :
    s.writes u (0x8090 :: refuseWords) :=
  State.writes_trans (State.writes_mono hw (by simp)) (State.writes_mono h.writes (by simp +contextual))

/-- What is left of a refusal that PRESS shows in the state of a write to REQ, after the answer and the settling of EVT. -/
theorem State.RefusalShown.answered {s w u : State} {reason id : Nat} (h : w.RefusalShown u reason id) (hw : s.writes w [0x8090])
    (b : BusOut) :
    (u.withBus b).settle.get R.PRESS_RESULT_REASON = reason % 16 ∧ (u.withBus b).settle.get R.PRESS_RESULT_ID = id % 256 ∧
      (u.withBus b).settle.get R.PRESS_REFUSE_CNT_COUNT = (s.get R.PRESS_REFUSE_CNT_COUNT + 1) % 2 ^ 32 ∧
      (u.withBus b).settle.hasEvent ePRESS 1 = true ∧ (u.withBus b).settle.press = s.press ∧ (u.withBus b).settle.bus = b ∧
      s.keeps (u.withBus b).settle (0x8090 :: refuseWords) ∧
      (u.withBus b).settle = { s.regsOf (u.withBus b).settle with bus := (u.withBus b).settle.bus } := by
  have hwu := h.writes_from hw
  refine ⟨?_, ?_, ?_, ?_, ?_, ?_, ?_, ?_⟩
  · rw [State.settle_get, State.withBus_get, h.reason]
  · rw [State.settle_get, State.withBus_get, h.id]
  · rw [State.settle_get, State.withBus_get, h.count, State.keeps_get hw.1 _ (by decide)]
  · rw [State.settle_hasEvent]; exact h.event
  · rw [State.settle_press, hwu.2]; rfl
  · rw [State.settle_bus]; rfl
  · exact State.keeps_answered hwu.1 _
  · exact State.frame_bus_settle hwu.2 _

theorem gives_go_refused {s : State} {m : Master} {v : Word} (hk : s.takes m.toNat 0x8090 = true) (hq : s.quiet = true)
    (hg : bitOf v.toNat 0 = true) (ha : bitOf v.toNat 1 = false) (h : s.refusesGo v.toNat = true) :
    Gives (.pressGo m v) s fun t =>
      t.get R.PRESS_RESULT_REASON = s.goReason v.toNat ∧ t.get R.PRESS_RESULT_ID = bits v.toNat 15 8 ∧
      t.get R.PRESS_REFUSE_CNT_COUNT = (s.get R.PRESS_REFUSE_CNT_COUNT + 1) % 2 ^ 32 ∧ t.hasEvent ePRESS 1 = true ∧
      t.press = s.press ∧ t.bus = s.told m.toNat .ok [] ∧ s.keeps t (0x8090 :: refuseWords) ∧ t = { s.regsOf t with bus := t.bus } := by
  refine gives_req rfl hk fun w hw => ?_
  have hs := State.pressSeen hw
  have hreq : w.pressReq v.toNat = w.pressGo v.toNat := by simp [State.pressReq, hg, ha]
  have hr := State.refusalShown (s.goReason v.toNat) 0xF000 0 (bits v.toNat 15 8) (State.quiet_of_keeps hw.1 (by decide) hq)
  have hwu := State.writesPress_of_writes (hr.writes_from hw)
  have hid : bits v.toNat 15 8 % 256 = bits v.toNat 15 8 := Nat.mod_eq_of_lt (bits_lt _ 15 8)
  have hans := hr.answered hw (s.told m.toNat .ok [])
  rw [Nat.mod_eq_of_lt (s.goReason_lt _), hid] at hans
  rw [hreq, State.pressGo_refused ((State.refusesGo_congr hs _).trans h), State.goReason_congr hs]
  exact ⟨State.idle_of_writesPress hwu, State.bus_of_writesPress hwu, hans⟩

/-! The pending press is refused. -/

/-- The words that a refusal of the pending press writes. -/
def pressEndWords : List Nat := refuseWords ++ [R.PRESS_S_PENDING.addr]

/-- From s to t the pending press p has ended with a refusal. -/
structure State.PressRefused (s t : State) (p : PressSt) (reason : Nat) : Prop where
  press : t.press = none
  pending : t.is R.PRESS_S_PENDING = false
  reason : t.get R.PRESS_RESULT_REASON = reason % 16
  id : t.get R.PRESS_RESULT_ID = p.id % 256
  event : t.hasEvent ePRESS 1 = true
  knots : s.KnotsFrom t p.scheduled (s.pressSlot p)
  writes : s.writesPress t pressEndWords

theorem State.writesPress_knotsAgain (s : State) (n : Nat) : s.writesPress (s.knotsAgain n) [] := by
  constructor
  · exact State.keeps_of_words (by rw [State.knotsAgain_frame]) []
  · rw [State.knotsAgain_frame]; rfl

theorem State.knotsBack_spec (s : State) (p : PressSt) :
    s.KnotsFrom (s.knotsBack p) p.scheduled (s.pressSlot p) ∧ s.writesPress (s.knotsBack p) [] ∧ (s.knotsBack p).press = s.press := by
  unfold State.knotsBack
  cases p.scheduled
  · exact ⟨State.knotsFrom_of_eq _ rfl rfl, State.writesPress_of_writes (s.writes_refl []), rfl⟩
  · exact ⟨s.knotsFrom_knotsAgain _, s.writesPress_knotsAgain _, by rw [if_pos rfl, State.knotsAgain_frame]⟩

theorem State.pressRefused {s : State} {p : PressSt} (reason node detail : Nat) (hq : s.quiet = true) (hp : s.press = some p) :
    s.PressRefused (s.pressRefuse reason node detail) p reason := by
  have heq : s.pressRefuse reason node detail =
      ((({ s with press := none }.putB R.PRESS_S_PENDING false).knotsBack p).refuseShow reason node detail p.id) := by
    rw [State.pressRefuse, hp]
  have hput : s.writesPress ({ s with press := none }.putB R.PRESS_S_PENDING false) [R.PRESS_S_PENDING.addr] :=
    State.writesPress_trans (s.writesPress_setPress none _) (State.writesPress_of_writes (State.writes_put _ _ (by simp)))
  have hpend : ({ s with press := none }.putB R.PRESS_S_PENDING false).is R.PRESS_S_PENDING = false := State.is_putB _ _ _ (by decide) rfl
  have hpress : ({ s with press := none }.putB R.PRESS_S_PENDING false).press = none := rfl
  have hknots : ({ s with press := none }.putB R.PRESS_S_PENDING false).knots = s.knots := rfl
  have hstages : ({ s with press := none }.putB R.PRESS_S_PENDING false).stages = s.stages := rfl
  generalize { s with press := none }.putB R.PRESS_S_PENDING false = u at *
  obtain ⟨hkn, hnone, hbackPress⟩ := u.knotsBack_spec p
  have hback := State.writesPress_mono (ls := [R.PRESS_S_PENDING.addr]) hnone (by simp)
  rw [State.pressSlot_of_writesPress hput] at hkn
  have hx := State.writesPress_trans hput hback
  have hpend' : (u.knotsBack p).is R.PRESS_S_PENDING = false :=
    (State.keeps_is hnone.1 List.not_mem_nil).trans hpend
  rw [heq]
  have hr := State.refusalShown reason node detail p.id (State.quiet_of_keeps hx.1 (by decide) hq)
  generalize (u.knotsBack p) = x at *
  constructor
  case press => rw [hr.writes.2]; exact hbackPress.trans hpress
  case pending => rw [State.keeps_is hr.writes.1 (by decide +kernel)]; exact hpend'
  case reason => exact hr.reason
  case id => exact hr.id
  case event => exact hr.event
  case knots => exact hkn.congr hknots hstages (by rw [hr.writes.2]; rfl) (by rw [hr.writes.2]; rfl)
  case writes =>
    exact State.writesPress_trans (State.writesPress_mono hx (by simp [pressEndWords]))
      (State.writesPress_of_writes (State.writes_mono hr.writes (by simp +contextual [pressEndWords])))

/-! ABORT. -/

theorem State.pressAbort_local {s : State} {p : PressSt} (hp : s.press = some p) (hr : p.ring = false) (hn : s.sheet + 1 < p.sheet) :
    s.pressAbort = s.pressRefuse rAborted 0xF000 0 := by
  simp [State.pressAbort, hp, hn, hr]

theorem State.KnotsFrom.settle {s t : State} {b : Bool} {n : Nat} (h : s.KnotsFrom t b n) : s.KnotsFrom t.settle b n :=
  h.congr rfl rfl t.settle_knots t.settle_stages

theorem gives_abort {s : State} {m : Master} {v : Word} {p : PressSt} (hk : s.takes m.toNat 0x8090 = true) (hq : s.quiet = true)
    (ha : bitOf v.toNat 1 = true) (hg : bitOf v.toNat 0 = false) (hp : s.press = some p) (hr : p.ring = false)
    (hn : s.sheet + 1 < p.sheet) :
    Gives (.pressAbort m v) s fun t =>
      t.press = none ∧ t.is R.PRESS_S_PENDING = false ∧ t.get R.PRESS_RESULT_REASON = rAborted ∧ t.get R.PRESS_RESULT_ID = p.id % 256 ∧
      t.hasEvent ePRESS 1 = true ∧ s.KnotsFrom t p.scheduled (s.pressSlot p) ∧ t.bus = s.told m.toNat .ok [] ∧
      s.keeps t (0x8090 :: pressEndWords) ∧
      t = { s.regsOf t with bus := t.bus, press := t.press, knots := t.knots, stages := t.stages } := by
  refine gives_req rfl hk fun w hw => ?_
  have hs := State.pressSeen hw
  have hpw : w.press = some p := hs.press.trans hp
  have hreq : w.pressReq v.toNat = w.pressAbort := by simp [State.pressReq, hg, ha]
  rw [hreq, State.pressAbort_local hpw hr (by rw [hs.sheet]; exact hn)]
  have hend := State.pressRefused rAborted 0xF000 0 (State.quiet_of_keeps hw.1 (by decide) hq) hpw
  have hslot := State.pressSlot_of_writesPress (State.writesPress_of_writes hw) p
  generalize w.pressRefuse rAborted 0xF000 0 = u at *
  have hwu : s.writesPress u (0x8090 :: pressEndWords) :=
    State.writesPress_trans (State.writesPress_mono (State.writesPress_of_writes hw) (by simp))
      (State.writesPress_mono hend.writes (by simp +contextual))
  refine ⟨State.idle_of_writesPress hwu, State.bus_of_writesPress hwu, ?_, ?_, ?_, ?_, ?_, ?_, ?_, ?_, ?_⟩
  · rw [State.settle_press]; exact hend.press
  · rw [State.settle_is, State.withBus_is]; exact hend.pending
  · rw [State.settle_get, State.withBus_get]; exact hend.reason
  · rw [State.settle_get, State.withBus_get]; exact hend.id
  · rw [State.settle_hasEvent]; exact hend.event
  · have hkn := hend.knots
    rw [hslot] at hkn
    exact State.KnotsFrom.settle (hkn.congr (by rw [hw.2]; rfl) (by rw [hw.2]; rfl) rfl rfl)
  · rw [State.settle_bus]; rfl
  · exact State.keeps_answered hwu.1 _
  · exact State.frame_answered_press hwu _

end Sys2Proof.Machine
end

section
/-! The checks of a local press end (08_buses_and_outputs R258, R259). -/

namespace Sys2Proof.Machine

/-- The words in which MOULD shows a failed set. -/
def judgeWords : List Nat := [R.MOULD0_CHECK_FAULT.addr, evKey eMOULD]

/-- The judgement writes no word but those. -/
theorem State.writes_pressJudge {s : State} (p : PressSt) (hq : s.quiet = true) : s.writes (s.pressJudge p).2 judgeWords := by
  unfold State.pressJudge
  split
  · next r _ =>
    dsimp only
    cases r.mould with
    | none => exact s.writes_refl _
    | some x =>
      obtain ⟨fault, set, index⟩ := x
      have hput : s.writes (((s.put R.MOULD0_CHECK_FAULT fault).put R.MOULD0_CHECK_SET set).put R.MOULD0_CHECK_INDEX index) judgeWords :=
        State.writes_trans (State.writes_trans (s.writes_put _ (by simp [judgeWords])) (State.writes_put _ _ (by decide +kernel)))
          (State.writes_put _ _ (by decide +kernel))
      exact State.writes_trans hput (State.writes_latch 2 (State.quiet_of_keeps hput.1 (by decide +kernel) hq) (by simp [judgeWords]))
  · exact s.writes_refl _

theorem State.pressJudge_of_none {s : State} (p : PressSt) (h : s.pressChecks = none) :
    (s.pressJudge p).1 = if s.pressLate p then (rTooLate, 0xF000, 0) else (0, 0, 0) := by
  rw [State.pressJudge, h]

theorem State.pressJudge_of_some {s : State} (p : PressSt) {r : Refused} (h : s.pressChecks = some r) :
    (s.pressJudge p).1 = (r.reason, r.node, r.detail) := by
  rw [State.pressJudge, h]

/-- A press that has passed its checks, with the plan of the bank to come. -/
def PressSt.passed (p : PressSt) (r : Nat × Nat) (plan : Nat × Tab Nat) : PressSt := { p with own := some (0, r), ahead := some plan }

/-- From there on it waits for its slot, unless the ring decides. -/
theorem PressSt.scheduled_passed {p : PressSt} (r : Nat × Nat) (plan : Nat × Tab Nat) (hr : p.ring = false) :
    (p.passed r plan).scheduled = true := by simp [PressSt.scheduled, PressSt.passed, hr]

theorem State.pressChecked_local {s : State} {p : PressSt} (hp : s.press = some p) (hon : s.pageOn ePRESS = true) (ho : p.own = none)
    (hr : p.ring = false) :
    s.pressChecked =
      if (s.pressJudge p).1.1 = 0 then (s.pressJudge p).2.pressIs (p.passed (s.pressJudge p).1.2 (s.pressJudge p).2.objPlan)
      else (s.pressJudge p).2.pressRefuse (s.pressJudge p).1.1 (s.pressJudge p).1.2.1 (s.pressJudge p).1.2.2 := by
  simp only [State.pressChecked, hp, ho, hon, hr, Option.isSome_none, Bool.not_true, Bool.false_eq_true, or_self, if_false]
  split
  · next h =>
    have hown : (0, (s.pressJudge p).1.2) = (s.pressJudge p).1 := Prod.ext h.symm rfl
    simp only [PressSt.passed, hown, hr]
  · rfl

/-- A press that has passed its checks is pending so; what was computed ahead is given up unless the press was scheduled before. -/
theorem State.pressIs_passed {s : State} {p q : PressSt} (hp : s.press = some p) (hq : q.scheduled = true)
    (hslot : s.pressSlot q = s.pressSlot p) :
    (s.pressIs q).press = some q ∧ s.KnotsFrom (s.pressIs q) (!p.scheduled) (s.pressSlot p) ∧ s.writesPress (s.pressIs q) [] := by
  have heq : s.pressIs q =
      if !p.scheduled then State.knotsAgain { s with press := some q } (s.pressSlot p) else { s with press := some q } := by
    rw [← hslot]
    simp only [State.pressIs, hp, hq, Option.any_some, Bool.true_and]
    rfl
  rw [heq]
  cases p.scheduled
  · refine ⟨?_, (State.knotsFrom_knotsAgain { s with press := some q } _).congr rfl rfl rfl rfl, ?_⟩
    · exact congrArg State.press (State.knotsAgain_frame { s with press := some q } _)
    · exact State.writesPress_trans (s.writesPress_setPress _ _) (State.writesPress_knotsAgain _ _)
  · exact ⟨rfl, State.knotsFrom_of_eq _ rfl rfl, s.writesPress_setPress _ _⟩

/-- The words that the end of the checks may write. -/
def checkedWords : List Nat := pressEndWords ++ judgeWords

/-- From s to t the checks of the pending local press p have ended. -/
structure State.ChecksEnded (s t : State) (p : PressSt) : Prop where
  press : t.press = if (s.pressJudge p).1.1 = 0 then some (p.passed (s.pressJudge p).1.2 (s.pressJudge p).2.objPlan) else none
  refusal : (s.pressJudge p).1.1 ≠ 0 → t.get R.PRESS_RESULT_REASON = (s.pressJudge p).1.1 % 16 ∧ t.get R.PRESS_RESULT_ID = p.id % 256 ∧
    t.is R.PRESS_S_PENDING = false ∧ t.hasEvent ePRESS 1 = true
  knots : s.KnotsFrom t (decide ((s.pressJudge p).1.1 = 0) != p.scheduled) (s.pressSlot p)
  writes : s.writesPress t checkedWords

theorem State.checksEnded {s : State} {p : PressSt} (hq : s.quiet = true) (hp : s.press = some p) (hon : s.pageOn ePRESS = true)
    (ho : p.own = none) (hr : p.ring = false) : s.ChecksEnded s.pressChecked p := by
  have hj := s.writes_pressJudge p hq
  have hpj : (s.pressJudge p).2.press = some p := by rw [hj.2]; exact hp
  have hqj : (s.pressJudge p).2.quiet = true := State.quiet_of_keeps hj.1 (by decide +kernel) hq
  have hslot := State.pressSlot_of_writesPress (State.writesPress_of_writes hj) p
  have hknots : (s.pressJudge p).2.knots = s.knots := by rw [hj.2]; rfl
  have hstages : (s.pressJudge p).2.stages = s.stages := by rw [hj.2]; rfl
  have hwj : s.writesPress (s.pressJudge p).2 checkedWords :=
    State.writesPress_of_writes (State.writes_mono hj (by simp +contextual [checkedWords]))
  rw [State.pressChecked_local hp hon ho hr]
  by_cases h : (s.pressJudge p).1.1 = 0
  · rw [if_pos h]
    obtain ⟨hpress, hkn, hw⟩ := State.pressIs_passed hpj
      (PressSt.scheduled_passed (s.pressJudge p).1.2 (s.pressJudge p).2.objPlan hr) rfl
    constructor
    case press => rw [hpress, if_pos h]
    case refusal => exact fun hne => absurd h hne
    case knots =>
      rw [decide_eq_true h, Bool.true_bne, ← hslot]
      exact hkn.congr hknots hstages rfl rfl
    case writes => exact State.writesPress_trans hwj (State.writesPress_mono hw (by simp))
  · rw [if_neg h]
    have hend := State.pressRefused (s.pressJudge p).1.1 (s.pressJudge p).1.2.1 (s.pressJudge p).1.2.2 hqj hpj
    constructor
    case press => rw [hend.press, if_neg h]
    case refusal => exact fun _ => ⟨hend.reason, hend.id, hend.pending, hend.event⟩
    case knots =>
      rw [decide_eq_false h, Bool.false_bne, ← hslot]
      exact hend.knots.congr hknots hstages rfl rfl
    case writes => exact State.writesPress_trans hwj (State.writesPress_mono hend.writes (by simp +contextual [checkedWords]))

theorem gives_checksDone {s : State} {p : PressSt} (h : s.ChecksEnded s.pressChecked p) :
    Gives .pressChecksDone s fun t =>
      s.ChecksEnded t p ∧ t = { s.regsOf t with press := t.press, knots := t.knots, stages := t.stages } := by
  have hw : s.writesPress s.pressChecked.settle checkedWords :=
    State.writesPress_trans h.writes (State.writesPress_of_writes (State.writes_settle _ _))
  refine gives_done rfl ⟨⟨?_, ?_, h.knots.settle, hw⟩, hw.2⟩
  · rw [State.settle_press]; exact h.press
  · rw [State.settle_get, State.settle_get, State.settle_is, State.settle_hasEvent]; exact h.refusal

end Sys2Proof.Machine
end

section
/-! What a commit leaves as it is (08_buses_and_outputs R257): while the blocks take over their banks, neither the time nor the memory
moves, and once the bank is copied the presentation latency in force stays. -/

namespace Sys2Proof.Machine

/-- From s to t neither the presentation latency in force, nor the time, nor the memory has changed. -/
structure State.CommitKept (s t : State) : Prop where
  latency : t.w 0x8084 = s.w 0x8084
  hsi : t.hsi = s.hsi
  slot : t.slot = s.slot
  mem : t.mem = s.mem

theorem State.CommitKept.refl (s : State) : s.CommitKept s := ⟨rfl, rfl, rfl, rfl⟩

theorem State.CommitKept.trans {s t u : State} (h : s.CommitKept t) (h' : t.CommitKept u) : s.CommitKept u where
  latency := h'.latency.trans h.latency
  hsi := h'.hsi.trans h.hsi
  slot := h'.slot.trans h.slot
  mem := h'.mem.trans h.mem

theorem State.CommitKept.ite {s t u : State} {c : Prop} [Decidable c] (ht : s.CommitKept t) (hu : s.CommitKept u) :
    s.CommitKept (if c then t else u) := by split <;> assumption

theorem State.commitKept_each {α : Type} (s : State) (l : List α) {f : State → α → State}
    (hf : ∀ (u : State) (x : α), u.CommitKept (f u x)) : s.CommitKept (s.each l f) :=
  s.each_induct (fun u => s.CommitKept u) f l (.refl s) fun u x _ hu => hu.trans (hf u x)

theorem State.commitKept_upto (s : State) (n : Nat) {f : State → Nat → State} (hf : ∀ (u : State) (x : Nat), u.CommitKept (f u x)) :
    s.CommitKept (s.upto n f) := s.commitKept_each (List.range n) hf

/-! Words and events. -/

theorem State.commitKept_setW (s : State) {k : Nat} (v : Word) (h : k ≠ 0x8084) : s.CommitKept (s.setW k v) :=
  ⟨s.setW_w_other _ _ _ h.symm, rfl, rfl, rfl⟩

theorem State.commitKept_put (s : State) {f : Fld} (v : Nat) (h : f.addr ≠ 0x8084) : s.CommitKept (s.put f v) := s.commitKept_setW _ h

theorem State.commitKept_set64 (s : State) {lo : Nat} (v : Nat) (h : lo ≠ 0x8084) (h' : lo + 4 ≠ 0x8084) : s.CommitKept (s.set64 lo v) :=
  (s.commitKept_setW _ h).trans (State.commitKept_setW _ _ h')

theorem State.commitKept_setMap (s : State) {a : Nat} (o : Nat) (b : Bool) (h : 0x8084 < a) : s.CommitKept (s.setMap a o b) :=
  .ite (s.commitKept_setW _ (by omega)) (s.commitKept_setW _ (by omega))

theorem State.commitKept_latch (s : State) (src bit : Nat) : s.CommitKept (s.latch src bit) := by
  have he := (s.latch_spec src bit).2
  have hk : 0x8084 ∉ evKey src :: discardWords :=
    fun h => (List.mem_cons.mp h).elim (evKey_ne src 0x8084 (by decide)) (by decide +kernel)
  exact ⟨s.keeps_latch_any src bit _ hk, by rw [he]; rfl, by rw [he]; rfl, by rw [he]; rfl⟩

/-- No word of a window is the latency in force. -/
theorem winKey_ne_latency (src kind n : Nat) : winKey src kind n ≠ 0x8084 := by unfold winKey; omega

/-! The bank is copied (R256). -/

theorem State.commitKept_dumpMark (s : State) (d : DumpDesc) : s.CommitKept (s.dumpMark d) :=
  (s.commitKept_setW _ (by decide)).trans (State.commitKept_latch _ _ _)

theorem State.commitKept_wordDirty (s : State) (k : Nat) : s.CommitKept (s.wordDirty k) := by
  unfold State.wordDirty
  refine .ite (.refl s) ?_
  split
  · exact .ite (.refl s) (s.commitKept_each _ fun u _ => u.commitKept_each _ fun v d => v.commitKept_dumpMark d)
  · exact .refl s

theorem State.commitKept_copyWin (s : State) (src k0 k1 : Nat) : s.CommitKept (s.copyWin src k0 k1) :=
  s.commitKept_each _ fun u _ =>
    (State.CommitKept.ite (.refl u) (u.commitKept_wordDirty _)).trans (State.commitKept_setW _ _ (winKey_ne_latency _ _ _))

/-- The pressable registers behind the presentation latency. -/
def bankRegsAfter : List (Nat × Nat) := bankRegs.drop 2

theorem bankRegs_eq : bankRegs = (0x3114, 0x68088) :: (0x8080, 0x8084) :: bankRegsAfter := rfl

theorem bankRegsAfter_ne_latency : ∀ q ∈ bankRegsAfter, q.2 ≠ 0x8084 := by decide +kernel

theorem State.each_cons {α : Type} (s : State) (x : α) (l : List α) (f : State → α → State) : s.each (x :: l) f = (f s x).each l f := rfl

/-- The copied registers: the presentation latency of SHADOW is in force. -/
theorem State.copyRegs_spec (s : State) :
    (s.each bankRegs fun s q => s.copyW q.1 q.2).w 0x8084 = s.w 0x8080 ∧ (s.each bankRegs fun s q => s.copyW q.1 q.2).hsi = s.hsi ∧
      (s.each bankRegs fun s q => s.copyW q.1 q.2).slot = s.slot ∧ (s.each bankRegs fun s q => s.copyW q.1 q.2).mem = s.mem := by
  have hrest := ((s.copyW 0x3114 0x68088).copyW 0x8080 0x8084).each_induct
    (fun u => ((s.copyW 0x3114 0x68088).copyW 0x8080 0x8084).CommitKept u) (fun s q => s.copyW q.1 q.2) bankRegsAfter (.refl _)
    fun u q hq hu => hu.trans (u.commitKept_setW _ (bankRegsAfter_ne_latency q hq))
  rw [bankRegs_eq, State.each_cons, State.each_cons]
  refine ⟨hrest.latency.trans ?_, hrest.hsi, hrest.slot, hrest.mem⟩
  exact (State.setW_w_same _ _ _).trans (s.setW_w_other _ _ _ (by decide))

/-- From s to t the bank has been copied, and neither the time nor the memory has changed. -/
structure State.BankTaken (s t : State) : Prop where
  latency : t.w 0x8084 = s.w 0x8080
  hsi : t.hsi = s.hsi
  slot : t.slot = s.slot
  mem : t.mem = s.mem

theorem State.BankTaken.trans {s t u : State} (h : s.BankTaken t) (h' : t.CommitKept u) : s.BankTaken u where
  latency := h'.latency.trans h.latency
  hsi := h'.hsi.trans h.hsi
  slot := h'.slot.trans h.slot
  mem := h'.mem.trans h.mem

theorem State.bankTaken_copyBank (s : State) : s.BankTaken s.copyBank := by
  obtain ⟨hl, hh, hs, hm⟩ := s.copyRegs_spec
  have hregs : s.BankTaken (s.each bankRegs fun s q => s.copyW q.1 q.2) := ⟨hl, hh, hs, hm⟩
  have hsets : ∀ u : State, u.CommitKept ((u.setN 0x4000068080 (u.n 0x68080 % 2)).setN 0x4000080080 (u.n 0x80080 % 2)) := fun u =>
    (u.commitKept_setW _ (by decide)).trans (State.commitKept_setW _ _ (by decide))
  have hbank : ∀ u : State, u.CommitKept (u.put R.OBJ0_BANK_ACTIVE (u.get R.OBJ0_BANK_ACTIVE + 1)) := fun u =>
    u.commitKept_put _ (by decide)
  have hwins : ∀ u : State, u.CommitKept (u.each bankWins fun s q => s.copyWin q.1 q.2.1 q.2.2) := fun u =>
    u.commitKept_each _ fun v _ => v.commitKept_copyWin _ _ _
  have hfwd : ∀ u : State, u.CommitKept { u with fwdTermAct := u.fwdTerm } := fun _ => ⟨rfl, rfl, rfl, rfl⟩
  exact hregs.trans ((((hsets _).trans (hbank _)).trans (hwins _)).trans (hfwd _))

end Sys2Proof.Machine
end

section
/-! What the blocks do at a commit leaves the presentation latency, the time and the memory (08_buses_and_outputs R257). -/

namespace Sys2Proof.Machine

/-! MOULD, the pads, the objects (06_objects_and_mould R186, R195; 01_signal_path R26). -/

theorem State.commitKept_mouldCommit (s : State) : s.CommitKept s.mouldCommit := by
  have hswap : ∀ u : State, u.CommitKept { u with swapSlot := some s.slot } := fun _ => ⟨rfl, rfl, rfl, rfl⟩
  have hset : s.CommitKept (s.put R.MOULD0_SET_CTRL_ACTIVE (s.n 0x4000068080 % 2)) := s.commitKept_put _ (by decide)
  exact .ite (.refl s) ((hset.trans (State.commitKept_latch _ _ _)).trans (hswap _))

theorem State.commitKept_setPads (s : State) (pads : Tab Nat) (olds news : List Nat) : s.CommitKept (s.setPads pads olds news) :=
  ⟨rfl, rfl, rfl, rfl⟩

theorem State.commitKept_objCommit (s o : State) : s.CommitKept (s.objCommit o) := by
  unfold State.objCommit
  extract_lets
  refine State.CommitKept.trans ?_ (State.commitKept_each _ _ fun u k => ⟨rfl, rfl, rfl, rfl⟩)
  exact ⟨rfl, rfl, rfl, rfl⟩

/-! The stream engines (04_network R143, R151). -/

theorem State.commitKept_setRx (s : State) (c : Nat) (f : RxCtx → RxCtx) : s.CommitKept (s.setRx c f) := ⟨rfl, rfl, rfl, rfl⟩

theorem State.commitKept_setLeg (s : State) (c l : Nat) (up : Bool) : s.CommitKept (s.setLeg c l up) := by
  have hmap : s.CommitKept (s.setMap (legMap l) c up) := s.commitKept_setMap _ _ (by unfold legMap; omega)
  exact .ite (.refl s) ((hmap.trans (State.commitKept_setW _ _ (winKey_ne_latency _ _ _))).trans (State.commitKept_latch _ _ _))

theorem State.commitKept_enterLoop (s : State) (c st : Nat) : s.CommitKept (s.enterLoop c st) :=
  ((s.commitKept_setW _ (winKey_ne_latency _ _ _)).trans (State.commitKept_setMap _ _ _ (by decide))).trans
    (State.commitKept_put _ _ (by decide))

theorem State.commitKept_rxEmpty (s : State) (c : Nat) (r : List Nat) : s.CommitKept (s.rxEmpty c r) :=
  (((s.commitKept_setRx c _).trans (State.commitKept_each _ _ fun u l => u.commitKept_setLeg c l false)).trans
    (State.commitKept_enterLoop _ _ _)).trans (State.commitKept_upto _ _ fun _ _ => ⟨rfl, rfl, rfl, rfl⟩)

theorem State.commitKept_rxCommit (s : State) (c : Nat) (o n : List Nat) : s.CommitKept (s.rxCommit c o n) := by
  have hmap : s.CommitKept (s.setMap 0x21080 c (rEn n)) := s.commitKept_setMap _ _ (by decide)
  unfold State.rxCommit
  refine .ite (.refl s) (hmap.trans ?_)
  generalize s.setMap 0x21080 c (rEn n) = u
  refine .ite (.ite ((u.commitKept_enterLoop _ _).trans (State.commitKept_setRx _ _ _)) (.refl u)) (.ite ?_ (.ite ?_ (.ite ?_ (.refl u))))
  · exact ((u.commitKept_rxEmpty c n).trans (State.commitKept_setRx _ _ _)).trans (State.commitKept_setW _ _ (winKey_ne_latency _ _ _))
  · exact u.commitKept_rxEmpty c n
  · have hrho : u.CommitKept (u.setN (loopKey c 1) (rhoWord (rhoNom (rNom n)))) := u.commitKept_setW _ (winKey_ne_latency _ _ _)
    exact (hrho.trans (.ite (.refl _) (State.commitKept_enterLoop _ _ _))).trans (State.commitKept_setRx _ _ _)

theorem State.commitKept_lpiWakeOp (s : State) (p : Nat) : s.CommitKept (s.lpiWakeOp p) := by
  have hmac : ∀ (u : State) (f : MacSt → MacSt), u.CommitKept (u.setMac p f) := fun _ _ => ⟨rfl, rfl, rfl, rfl⟩
  have hst : (R.MAC_S_TX_LPI.pg p).addr ≠ 0x8084 := by simp only [Fld.pg, R.MAC_S_TX_LPI]; omega
  exact .ite ((s.commitKept_put _ hst).trans (hmac _ _)) (.refl s)

theorem State.commitKept_txWake (s : State) (r : List Nat) : s.CommitKept (s.txWake r) :=
  s.commitKept_each _ fun u l => by
    split
    · exact u.commitKept_lpiWakeOp _
    · exact .refl u

theorem State.commitKept_setTx (s : State) (t : Nat) (f : TxCtx → TxCtx) : s.CommitKept (s.setTx t f) := ⟨rfl, rfl, rfl, rfl⟩

theorem State.commitKept_showLine (s : State) (t : Nat) (l : TxLine) : s.CommitKept (s.showLine t l) :=
  ((s.commitKept_setW _ (winKey_ne_latency _ _ _)).trans (State.commitKept_setW _ _ (winKey_ne_latency _ _ _))).trans
    (State.commitKept_set64 _ _ (winKey_ne_latency _ _ _) (by have := txKey_ge t 2; omega))

theorem State.commitKept_txCommit (s : State) (t : Nat) (o n : List Nat) : s.CommitKept (s.txCommit t o n) := by
  have hmap : s.CommitKept (s.setMap 0x25080 t (tEn n)) := s.commitKept_setMap _ _ (by decide)
  have hwake : ∀ u : State, u.CommitKept (if tEn n then u.txWake n else u) := fun u => .ite (u.commitKept_txWake n) (.refl u)
  have hstart : ∀ (u : State) (l : TxLine) (f : TxCtx → TxCtx), u.CommitKept ((u.showLine t l).setTx t f) := fun u l f =>
    (u.commitKept_showLine t l).trans (State.commitKept_setTx _ _ _)
  unfold State.txCommit
  refine .ite (.refl s) ?_
  extract_lets mapped u fresh start olds
  have hu : s.CommitKept u := hmap.trans (hwake _)
  refine hu.trans ?_
  clear_value u
  split
  · exact .ite (hstart _ _ _) (.refl u)
  · exact .ite (u.commitKept_setTx _ _) (.ite (hstart _ _ _) (u.commitKept_setTx _ _))

/-! ICB, MIX and OUT (05_input_conditioning R176; 08_buses_and_outputs R251, R264). -/

theorem State.commitKept_firCommit (s o : State) (c : Nat) : s.CommitKept (s.firCommit o c) := by
  unfold State.firCommit
  dsimp only
  split
  · exact ⟨rfl, rfl, rfl, rfl⟩
  · exact ⟨rfl, rfl, rfl, rfl⟩
  · exact .ite ⟨rfl, rfl, rfl, rfl⟩ (.ite (.refl s) ⟨rfl, rfl, rfl, rfl⟩)

theorem State.commitKept_icbCommit (s o : State) : s.CommitKept (s.icbCommit o) := s.commitKept_each _ fun u c => u.commitKept_firCommit o c

theorem State.commitKept_setReadings (s : State) (k : Nat) (l : List XpReading) : s.CommitKept (s.setReadings k l) := ⟨rfl, rfl, rfl, rfl⟩

theorem State.commitKept_mixCommit (s o : State) : s.CommitKept (s.mixCommit o) :=
  (s.commitKept_each _ fun u _ => .ite (.refl u) (u.commitKept_setReadings _ _)).trans
    (State.commitKept_upto _ _ fun u _ => .ite (.refl u) (u.commitKept_setReadings _ _))

theorem State.commitKept_outCommit (s o : State) : s.CommitKept (s.outCommit o) := by
  have houts : ∀ (u : State) (x : OutSt), u.CommitKept { u with outs := x } := fun _ _ => ⟨rfl, rfl, rfl, rfl⟩
  exact s.commitKept_each _ fun u i => (houts u _).trans (.ite (houts _ _) (.refl _))

/-! CONV and the engines (09_room_correction R298; 10_insert_engines R335). -/

theorem State.commitKept_setBypass (s : State) (b : Bool) : s.CommitKept (s.setBypass b) :=
  .ite (.refl s) ((s.commitKept_put _ (by decide)).trans (State.commitKept_latch _ _ _))

theorem State.commitKept_bypassOff (s : State) : s.CommitKept s.bypassOff := by
  have hconv : ∀ (u : State) (x : ConvSt), u.CommitKept { u with conv := x } := fun _ _ => ⟨rfl, rfl, rfl, rfl⟩
  exact ((hconv s _).trans (State.commitKept_setBypass _ _)).trans (State.commitKept_put _ (f := R.CONV_S_BUILDING) _ (by decide))

theorem State.commitKept_lostUpdate (s : State) : s.CommitKept s.lostUpdate :=
  State.CommitKept.trans (s.commitKept_put (f := R.CONV_BYPASS_WHY_SET_LOST) _ (by decide))
    (.ite (State.commitKept_setBypass _ _) (.ite (State.commitKept_bypassOff _) (.refl _)))

theorem State.commitKept_convCommit (s o : State) : s.CommitKept (s.convCommit o) := by
  have hset : s.CommitKept (((s.put R.CONV_SET_CTRL_ACTIVE (s.n 0x4000080080 % 2)).latch eCONV 6).lostUpdate) :=
    ((s.commitKept_put _ (by decide)).trans (State.commitKept_latch _ _ _)).trans (State.commitKept_lostUpdate _)
  have hconv : ∀ (u : State) (x : ConvSt), u.CommitKept { u with conv := x } := fun _ _ => ⟨rfl, rfl, rfl, rfl⟩
  have hfading : (if o.convActive = 0 then R.CONV_SET_STATE_FADING_A else R.CONV_SET_STATE_FADING_B).addr ≠ 0x8084 := by
    split <;> decide
  unfold State.convCommit
  refine .ite (.refl s) (hset.trans ?_)
  generalize ((s.put R.CONV_SET_CTRL_ACTIVE (s.n 0x4000080080 % 2)).latch eCONV 6).lostUpdate = u
  refine .ite (.refl u) ?_
  exact ((u.commitKept_put (f := R.CONV_S_XFADE) _ (by decide)).trans (State.commitKept_put _ _ hfading)).trans (hconv _ _)

theorem State.commitKept_ieCommit (s o : State) : s.CommitKept (s.ieCommit o) :=
  s.commitKept_upto _ fun u _ => .ite ⟨rfl, rfl, rfl, rfl⟩ (.refl u)

/-! The freeze at the start of the slot (06_objects_and_mould R190). -/

theorem State.commitKept_setObj (s : State) (o : Nat) (f : ObjSt → ObjSt) : s.CommitKept (s.setObj o f) := ⟨rfl, rfl, rfl, rfl⟩

theorem State.commitKept_counted (s : State) {f : Fld} (n src bit : Nat) (h : f.addr ≠ 0x8084) :
    s.CommitKept ((s.addW f n).latch src bit) := (s.commitKept_put _ h).trans (State.commitKept_latch _ _ _)

theorem State.commitKept_applyRecord (s : State) (o : Nat) (b : List Byte) (a : Int) : s.CommitKept (s.applyRecord o b a) :=
  (s.commitKept_setObj o _).trans (.ite (State.commitKept_counted _ _ _ _ (by decide)) (.refl _))

theorem State.commitKept_freezeObj (s : State) (o : Nat) (n : Int) (k : Nat) : s.CommitKept (s.freezeObj o n k) := by
  induction k generalizing s with
  | zero => exact .refl s
  | succ k ih =>
    rw [State.freezeObj]
    split
    · exact .refl s
    · next a b t _ =>
      have hlate : ∀ u : State, u.CommitKept (((u.addW R.OBJ0_LATE_META_CNT_COUNT 1).setMap 0x61080 o true).latch eOBJ 0) := fun u =>
        ((u.commitKept_put _ (by decide)).trans (State.commitKept_setMap _ _ _ (by decide))).trans (State.commitKept_latch _ _ _)
      refine .ite (.refl s) ?_
      exact (((s.commitKept_setObj o _).trans (State.commitKept_applyRecord _ _ _ _)).trans (.ite (hlate _) (.refl _))).trans (ih _)

theorem State.commitKept_freeze (s : State) : s.CommitKept s.freeze := by
  have hto : ∀ (u : State) (n : Int), u.CommitKept { u with frozenTo := n } := fun _ _ => ⟨rfl, rfl, rfl, rfl⟩
  have hqueued : ∀ u : State, u.CommitKept u.queuedStatus := fun u =>
    (u.commitKept_put (f := R.OBJ0_QUEUED_COUNT) _ (by decide)).trans (State.commitKept_put _ (f := R.OBJ0_S_QUEUED) _ (by decide))
  exact .ite (.refl s) (((hto s _).trans (State.commitKept_each _ _ fun u o => u.commitKept_freezeObj o _ 17)).trans (hqueued _))

/-! Everything that changes at the commit. -/

theorem State.bankTaken_commitAll (s : State) : s.BankTaken s.commitAll := by
  have hmix : ∀ (u : State) (x : MixSt), u.CommitKept { u with mix := x } := fun _ _ => ⟨rfl, rfl, rfl, rfl⟩
  have hshown : ∀ (u : State) (a b : Nat), u.CommitKept ((u.put R.PRESS_TAU_R_TAU a).put R.PRESS_POOL_USE_USE b) := fun u a b =>
    (u.commitKept_put _ (by decide)).trans (State.commitKept_put _ _ (by decide))
  have hbank : s.BankTaken s.copyBank.mouldCommit := s.bankTaken_copyBank.trans (State.commitKept_mouldCommit _)
  unfold State.commitAll
  extract_lets plan t1 t2 m t3 t4 t5 t6 t7
  have h2 : s.BankTaken t2 := hbank.trans (State.commitKept_setPads _ _ _ _)
  have h3 : s.BankTaken t3 := h2.trans (hmix _ _)
  have h4 : s.BankTaken t4 := h3.trans (hshown _ _ _)
  have h5 : s.BankTaken t5 := h4.trans (State.commitKept_objCommit _ _)
  have h6 : s.BankTaken t6 := h5.trans (State.commitKept_each _ _ fun u c => u.commitKept_rxCommit c _ _)
  have h7 : s.BankTaken t7 := h6.trans (State.commitKept_each _ _ fun u c => u.commitKept_txCommit c _ _)
  exact (((((h7.trans (State.commitKept_icbCommit _ _)).trans (State.commitKept_mixCommit _ _)).trans
    (State.commitKept_outCommit _ _)).trans (State.commitKept_convCommit _ _)).trans (State.commitKept_ieCommit _ _)).trans
    (State.commitKept_freeze _)

end Sys2Proof.Machine
end

section
/-! A local press commits (08_buses_and_outputs R257, R258), and the settling of LocalPress. -/

namespace Sys2Proof.Machine

theorem State.commitKept_knotsAgain (s : State) (n : Nat) : s.CommitKept (s.knotsAgain n) := by
  rw [State.knotsAgain_frame]; exact ⟨rfl, rfl, rfl, rfl⟩

/-- No press is pending any more; the knots of a press that was not scheduled are given up (06_objects_and_mould R194). -/
def State.unpressed (s : State) (p : PressSt) : State :=
  if p.scheduled then { s with press := none } else State.knotsAgain { s with press := none } (State.slot { s with press := none })

theorem State.commitKept_unpressed (s : State) (p : PressSt) : s.CommitKept (s.unpressed p) := by
  have h : s.CommitKept { s with press := none } := ⟨rfl, rfl, rfl, rfl⟩
  exact .ite h (h.trans (State.commitKept_knotsAgain _ _))

theorem State.press_unpressed (s : State) (p : PressSt) : (s.unpressed p).press = none := by
  unfold State.unpressed
  split
  · rfl
  · rw [State.knotsAgain_frame]

/-- RESULT, DETAIL, COMMIT_CNT and the watermark after a commit. -/
def State.resultShown (s : State) (id : Nat) : State :=
  (((s.setN 0x8094 (id % 256 * 2 ^ 8)).setN 0x8098 0).addW R.PRESS_COMMIT_CNT_COUNT 1).putB R.WMK_S_SETTLED false

/-- The sheet at which a commit took place, in LAST_SHEET and in the watermark. -/
def State.sheetShown (s : State) : State := (s.set64 0x80A0 (s.sheet % 2 ^ 48)).setN 0x709C (s.sheet % 2 ^ 32)

/-- A commit as PRESS shows it. -/
def State.commitShown (s : State) (id : Nat) : State := ((s.putB R.PRESS_S_PENDING false).sheetShown.resultShown id).latch ePRESS 0

theorem State.pressCommits_eq (s : State) (p : PressSt) : s.pressCommits p = (s.commitAll.unpressed p).commitShown p.id := rfl

/-- The words that show the sheet. -/
def sheetWords : List Nat := [0x80A0, 0x80A4, 0x709C]

/-- The words that show the result. -/
def resultWords : List Nat := [0x8094, 0x8098, R.PRESS_COMMIT_CNT_COUNT.addr, R.WMK_S_SETTLED.addr]

theorem State.sheetShown_spec (s : State) : s.writes s.sheetShown sheetWords ∧ s.sheetShown.get64 0x80A0 = s.sheet % 2 ^ 48 := by
  have hset : s.writes (s.set64 0x80A0 (s.sheet % 2 ^ 48)) sheetWords := s.writes_set64 _ (by simp [sheetWords]) (by simp [sheetWords])
  refine ⟨State.writes_trans hset (State.writes_setW _ _ (by simp [sheetWords])), ?_⟩
  have hlast : (s.set64 0x80A0 (s.sheet % 2 ^ 48)).keeps s.sheetShown [0x709C] := State.keeps_setW _ _ _
  rw [State.get64_congr hlast (by decide) (by decide), State.get64_set64]
  omega

theorem State.resultShown_spec (s : State) (id : Nat) :
    s.writes (s.resultShown id) resultWords ∧ (s.resultShown id).get R.PRESS_RESULT_REASON = 0 ∧
      (s.resultShown id).get R.PRESS_RESULT_ID = id % 256 ∧ (s.resultShown id).is R.WMK_S_SETTLED = false := by
  have hres : s.writes (s.setN 0x8094 (id % 256 * 2 ^ 8)) resultWords := s.writes_setW _ (by simp [resultWords])
  have hword : id % 256 * 2 ^ 8 = 0 % 16 + id % 256 * 2 ^ 8 + 0 % 2 ^ 16 * 2 ^ 16 := by omega
  obtain ⟨hr, hi⟩ := s.result_setN 0 0 id
  rw [← hword] at hr hi
  unfold State.resultShown
  generalize s.setN 0x8094 (id % 256 * 2 ^ 8) = u at *
  have hrest : u.writes (((u.setN 0x8098 0).addW R.PRESS_COMMIT_CNT_COUNT 1).putB R.WMK_S_SETTLED false)
      [0x8098, R.PRESS_COMMIT_CNT_COUNT.addr, R.WMK_S_SETTLED.addr] :=
    State.writes_trans (State.writes_trans (u.writes_setW _ (by simp)) (State.writes_put _ _ (by simp))) (State.writes_put _ _ (by simp))
  refine ⟨State.writes_trans hres (State.writes_mono hrest (by simp +contextual [resultWords])), ?_, ?_, ?_⟩
  · rw [State.keeps_get hrest.1 _ (by decide), hr]
  · rw [State.keeps_get hrest.1 _ (by decide), hi]
  · exact State.is_putB _ _ _ (by decide) rfl

/-- From s to t the local press p has committed. -/
structure State.Committed (s t : State) (p : PressSt) : Prop where
  press : t.press = none
  pending : t.is R.PRESS_S_PENDING = false
  latency : t.w 0x8084 = s.w 0x8080
  reason : t.get R.PRESS_RESULT_REASON = 0
  id : t.get R.PRESS_RESULT_ID = p.id % 256
  sheet : t.get64 0x80A0 = s.sheet % 2 ^ 48
  watermark : t.is R.WMK_S_SETTLED = false
  event : t.hasEvent ePRESS 0 = true
  slot : t.slot = s.slot
  mem : t.mem = s.mem

/-- Events leave the press, the time and the memory. -/
theorem State.kept_of_events {s t : State} (h : s.events t) : t.press = s.press ∧ t.slot = s.slot ∧ t.mem = s.mem := by
  refine ⟨?_, ?_, ?_⟩ <;> (rw [h]; rfl)

theorem State.committed_of_ended {s v : State} {p : PressSt} (h : s.BankTaken v) (hp : v.press = none)
    (hpend : v.is R.PRESS_S_PENDING = false) :
    s.Committed ((v.sheetShown.resultShown p.id).latch ePRESS 0) p := by
  obtain ⟨hx, hsheet⟩ := v.sheetShown_spec
  obtain ⟨hy, hreason, hid, hset⟩ := v.sheetShown.resultShown_spec p.id
  obtain ⟨hbits, hevents⟩ := (v.sheetShown.resultShown p.id).latch_spec ePRESS 0
  have hz := (v.sheetShown.resultShown p.id).keeps_latch_any ePRESS 0
  have hbit : ((v.sheetShown.resultShown p.id).latch ePRESS 0).hasEvent ePRESS 0 = true := by
    rw [State.hasEvent_congr (hbits _ (by decide +kernel))]
    exact State.hasEvent_orW _ _ _ (by decide)
  obtain ⟨hpress, hslot, hmem⟩ := State.kept_of_events
    (State.events_trans (State.events_of_regs (State.regsOf_trans hx.2 hy.2)) hevents)
  constructor
  case press => exact hpress.trans hp
  case pending => rw [State.keeps_is hz (by decide +kernel), State.keeps_is hy.1 (by decide), State.keeps_is hx.1 (by decide), hpend]
  case latency => rw [hz _ (by decide +kernel), hy.1 _ (by decide), hx.1 _ (by decide), h.latency]
  case reason => rw [State.keeps_get hz _ (by decide +kernel), hreason]
  case id => rw [State.keeps_get hz _ (by decide +kernel), hid]
  case sheet =>
    have hnow : v.sheet = s.sheet := by rw [State.sheet, h.hsi]; rfl
    rw [State.get64_congr hz (by decide +kernel) (by decide +kernel), State.get64_congr hy.1 (by decide) (by decide), hsheet, hnow]
  case watermark => rw [State.keeps_is hz (by decide +kernel), hset]
  case event => exact hbit
  case slot => exact hslot.trans h.slot
  case mem => exact hmem.trans h.mem

/-- The bank is in force, no press is pending, and PRESS shows the commit. -/
theorem State.committed_pressCommits (s : State) (p : PressSt) : s.Committed (s.pressCommits p) p := by
  have hu := s.bankTaken_commitAll.trans (State.commitKept_unpressed _ p)
  rw [State.pressCommits_eq]
  exact State.committed_of_ended (hu.trans (State.commitKept_put _ _ (by decide))) (State.press_unpressed _ p)
    (State.is_putB _ _ _ (by decide) rfl)

theorem State.pressCommit_local {s : State} {p : PressSt} {r : Nat × Nat} (hp : s.press = some p) (hon : s.pageOn ePRESS = true)
    (ho : p.own = some (0, r)) (hr : p.ring = false) (hc : s.cyc = 0) (hn : p.sheet ≤ s.sheet) : s.pressCommit = s.pressCommits p := by
  have hnow : ¬ (s.sheet < p.sheet ∧ (!p.skip) = true) := fun h => by omega
  simp only [State.pressCommit, hp]
  rw [if_neg (by simp [hc, hon, hn]), if_neg (by simp [hr]), ho]
  rfl

theorem gives_commit {s : State} {p : PressSt} (h : s.Committed s.pressCommit p) : Gives .pressCommit s fun t => s.Committed t p := by
  refine gives_done rfl ⟨?_, ?_, ?_, ?_, ?_, ?_, ?_, ?_, ?_, ?_⟩
  · rw [State.settle_press]; exact h.press
  · rw [State.settle_is]; exact h.pending
  · rw [State.settle_w]; exact h.latency
  · rw [State.settle_get]; exact h.reason
  · rw [State.settle_get]; exact h.id
  · rw [State.settle_get64]; exact h.sheet
  · rw [State.settle_is]; exact h.watermark
  · rw [State.settle_hasEvent]; exact h.event
  · rw [State.settle_slot]; exact h.slot
  · rw [State.settle_mem]; exact h.mem

theorem Gives.mono {c : Instr} {s : State} {P Q : State → Prop} (h : Gives c s P) (hPQ : ∀ t, P t → Q t) : Gives c s Q := by
  obtain ⟨t, ht, hp⟩ := h
  exact ⟨t, ht, hPQ t hp⟩

/-- Settles O20: each clause is the rule of its command. -/
theorem localPress : Obligations.LocalPress := by
  unfold Obligations.LocalPress
  refine ⟨?_, ?_, ?_, ?_, ?_, ?_⟩
  · intro s m v hk hg ha hr hm hp hf
    have hring : bitOf v.toNat 2 = false := by simpa using hr
    have hasks : s.asksRing v.toNat = false := by rw [State.asksRing, hring]; rfl
    have hgo : s.TakesGo v.toNat := ⟨hm, hp, by simpa [hasks] using hf, by simp [hasks]⟩
    refine (gives_go_pending rfl hk hg (by simpa using ha) hgo).mono fun t ⟨hpress, hask, hpend, hbus, hkeeps, hframe⟩ =>
      ⟨?_, hpend, hbus, hkeeps, ?_⟩
    · rw [hpress, State.newPress, hasks]; rfl
    · rw [hasks] at hask
      exact hframe.trans (by rw [hask]; rfl)
  · intro s m v hk hg ha hr hman hm hp hf hn
    have hasks : s.asksRing v.toNat = true := by simp [State.asksRing, hr, hman]
    have hgo : s.TakesGo v.toNat := ⟨hm, hp, by simpa [hasks] using hf, fun _ => hn⟩
    refine (gives_go_pending rfl hk hg (by simpa using ha) hgo).mono fun t ⟨hpress, hask, hpend, hbus, hkeeps, hframe⟩ =>
      ⟨?_, ?_, hpend, hbus, hkeeps, hframe⟩
    · rw [hpress, State.newPress, hasks]; rfl
    · rw [hask, hasks]; rfl
  · intro s m v hk hq hg ha h
    exact gives_go_refused hk hq hg (by simpa using ha) h
  · intro s m v p hk hq ha hg hp hr hn
    refine (gives_abort hk hq ha (by simpa using hg) hp (by simpa using hr) hn).mono
      fun t ⟨hpress, hpend, hreason, hid, hev, hknots, hbus, hkeeps, hframe⟩ =>
        ⟨hpress, hpend, hreason, hid, hev, hknots.knots, hknots.all.1, hknots.all.2, hbus, hkeeps, hframe⟩
  · intro s p hq hp hon ho hr
    refine (gives_checksDone (State.checksEnded hq hp hon ho (by simpa using hr))).mono fun t ⟨h, hframe⟩ =>
      ⟨h.press, State.pressJudge_of_none p, fun r => State.pressJudge_of_some p, h.refusal, h.knots.knots, h.knots.all.1, h.knots.all.2,
        h.writes.1, hframe⟩
  · intro s p _ hp hon ho hr hc hn
    have h := s.committed_pressCommits p
    rw [← State.pressCommit_local hp hon ho (by simpa using hr) hc hn] at h
    exact (gives_commit h).mono fun t h =>
      ⟨h.press, h.pending, h.latency, h.reason, h.id, h.sheet, h.watermark, h.event, h.slot, h.mem⟩

end Sys2Proof.Machine
end

section
/-! A new DRAM_BASE while the set in force is LOST (09_room_correction R292, R299, R304). With both sets EMPTY the cause SET_LOST ends too,
and BYPASS_WHY shows that: ConvControlAndTail lets DRAM_BASE and SET_STATE change alone. -/

namespace Sys2Proof.Machine

/-- In RUN, with every domain on: set A, in force, is LOST, so that CONV is in bypass. -/
def lostSetInForce : State :=
  { State.reset with
    words := [(0x9C, 3), (0x1088, 0x3FFF), (0x1090, 1), (0x200C, 5), (0x8000C, 1), (0x80090, 5), (0x80094, 4)] }

/-- The rules let the host write DRAM_BASE. -/
theorem lostSetInForce_takes : lostSetInForce.takes (0 : Master).toNat 0x80084 = true := by decide +kernel

/-- CONV is off, and the write changes the base, so that CONV acts on it. -/
theorem lostSetInForce_newBase :
    (!lostSetInForce.is R.CONV_C_EN) = true ∧ (lostSetInForce.majW 0x80084).toNat % 8192 ≠ (3 : Word).toNat % 8192 := by decide +kernel

/-- The new base ends SET_LOST, the only cause of the bypass. -/
theorem lostSetInForce_bypassWhy :
    lostSetInForce.w 0x80094 = 4 ∧ (effConvDramBaseWrite 0 3 lostSetInForce).w 0x80094 = 0 := by decide +kernel

/-- Refutes O21, by its clause on a new DRAM_BASE: where the set in force is LOST, the write changes BYPASS_WHY too (R299). -/
theorem not_convControlAndTail : ¬ Obligations.ConvControlAndTail := by
  unfold Obligations.ConvControlAndTail
  rintro ⟨-, -, hBase, -⟩
  obtain ⟨hoff, hnew⟩ := lostSetInForce_newBase
  have hx : exec (.convDramBaseWrite 0 3) lostSetInForce = done (effConvDramBaseWrite 0 3 lostSetInForce) := rfl
  obtain ⟨-, -, -, -, -, hkeeps, -⟩ := (gives_done_iff hx).mp (hBase lostSetInForce 0 3 lostSetInForce_takes hoff hnew)
  have hother : 0x80094 ∉ [0x80084, R.CONV_SET_STATE_STATE_A.addr] := by decide
  obtain ⟨hbefore, hafter⟩ := lostSetInForce_bypassWhy
  have hsame := hkeeps 0x80094 hother
  rw [State.settle_w, hbefore, hafter] at hsame
  exact absurd hsame (by decide)

end Sys2Proof.Machine
end

section
/-! A load of the set that a pending press would bring into force (08_buses_and_outputs R260; 09_room_correction R294). PRESS refuses it
with TERR before CONV looks at its own reasons: ConvLoads asks only that none of those applies. -/

namespace Sys2Proof.Machine

/-- In RUN, with every domain on and the one DRAM channel ONLINE: set A is in force, and the press that waits for sheet 2 brings set B. -/
def pressBringsSetB : State :=
  { State.reset with
    words := [(0x9C, 3), (0x1088, 0x3FFF), (0x1090, 1), (0x200C, 5), (0x800C, 1), (0x80080, 1), (0xB000C, 2), (0xB8080, 0)]
    press := some ⟨2, 5, false, 0, false, none, [], none, none⟩ }

/-- The rules let the host write LOAD. -/
theorem pressBringsSetB_takes : pressBringsSetB.takes (0 : Master).toNat 0x80088 = true := by decide +kernel

/-- No row of R294 refuses a load of set B. -/
theorem pressBringsSetB_loadRefusal : pressBringsSetB.loadRefusal ((0x11 : Word).toNat % 2) false = 0 := by decide +kernel

/-- PRESS refuses it: SHADOW_BUSY latches, and no load starts. -/
theorem pressBringsSetB_refused :
    (effConvLoad 0 0x11 pressBringsSetB).bus = ⟨.terr, []⟩ ∧ (effConvLoad 0 0x11 pressBringsSetB).hasEvent ePRESS 2 = true ∧
      (effConvLoad 0 0x11 pressBringsSetB).is R.CONV_S_LOADING = false := by decide +kernel

/-- Refutes O22, by its clause on GO: where a pending press brings the named set into force, GO starts no load, though CONV itself has no
reason to refuse it (R260). -/
theorem not_convLoads : ¬ Obligations.ConvLoads := by
  unfold Obligations.ConvLoads
  rintro ⟨hGo, -⟩
  have hgo : bitOf (0x11 : Word).toNat 4 = true := by decide
  have habort : (!bitOf (0x11 : Word).toNat 6) = true := by decide
  have hx : exec (.convLoad 0 0x11) pressBringsSetB = done (effConvLoad 0 0x11 pressBringsSetB) := rfl
  obtain ⟨hloading, -⟩ := (gives_done_iff hx).mp
    (hGo pressBringsSetB 0 0x11 pressBringsSetB_takes hgo habort pressBringsSetB_loadRefusal)
  obtain ⟨-, -, hidle⟩ := pressBringsSetB_refused
  rw [State.settle_is, hidle] at hloading
  exact absurd hloading (by decide)

end Sys2Proof.Machine
end

section
/-! A load behind a write that came before its reads (09_room_correction R294; 12_dram R373, R374). The load waits until the write is done:
ConvLoadCompletes asks only that no channel holds its requests back, and the write may wait at its regulator port. -/

namespace Sys2Proof.Machine

/-- A write that waits in the set's taps or spectra holds the load back. -/
theorem State.loadDone_of_writesIn {s : State} {l : LoadSt} (hl : s.conv.load = some l)
    (hw : s.writesIn (s.imageAt l.set) (44 * 2 ^ 20) = true) : s.loadDone = s := by
  have hwaits : s.loadWaits l.set = true := by rw [State.loadWaits, hw, Bool.or_true]
  simp only [State.loadDone, hl, hwaits, if_true]

/-- Where nothing has changed, no error has been counted. -/
theorem State.ueCause_self (s : State) (m : Nat) : s.ueCause s m = s := by
  simp [State.ueCause]

/-- Then CONV_LOAD_DONE does nothing. -/
theorem exec_convLoadDone_of_writesIn {s : State} {l : LoadSt} (hl : s.conv.load = some l)
    (hw : s.writesIn (s.imageAt l.set) (44 * 2 ^ 20) = true) : exec .convLoadDone s = done s := by
  show done (s.loadDone.ueCause s 0x30) = _
  rw [State.loadDone_of_writesIn hl hw, State.ueCause_self]

/-- A load of set B that has completed 500 outputs. -/
def loadOfSetB : LoadSt := ⟨1, false, 500, 5, true, false⟩

/-- A posted write of the host to the first line of output 511 in the tap image of set B, which has not passed its port. -/
def tapWrite : MemReq :=
  ⟨0, 0x1000000000 + 44 * 2 ^ 20 + 32768 * 511, true, 64, List.replicate 64 0, none, false, true, 0, none, false⟩

/-- In RUN, with every domain on and the one DRAM channel ONLINE: the load runs, and the write waits at port 6, whose bucket is empty. -/
def loadBehindWrite : State :=
  { State.reset with
    words := [(0x9C, 3), (0x1088, 0x3FFF), (0x1090, 1), (0x200C, 5), (0x8000C, 4), (0x8008C, 0x1F40010), (0x80090, 0x10), (0xB000C, 2),
      (0xB8080, 0), ((R.DPHY_REG_RATE_RATE.ix 6).addr, 1)]
    waiting := [tapWrite]
    buckets := [(6, 0)]
    conv := { ConvSt.reset with load := some loadOfSetB } }

/-- No channel holds its requests back: the write waits at its port. -/
theorem loadBehindWrite_port :
    (!loadBehindWrite.chanWaits) = true ∧ loadBehindWrite.portOpen (regPort tapWrite.master) = false := by decide +kernel

/-- It lies in the image of the set that is loaded. -/
theorem loadBehindWrite_writesIn :
    loadBehindWrite.writesIn (loadBehindWrite.imageAt loadOfSetB.set) (44 * 2 ^ 20) = true := by decide +kernel

/-- Refutes O23, by its clause on a load without an error: while a write waits in the set's image, the load does not end, though the
channels serve (R373). -/
theorem not_convLoadCompletes : ¬ Obligations.ConvLoadCompletes := by
  unfold Obligations.ConvLoadCompletes
  rintro ⟨hDone, -⟩
  have hquiet : loadBehindWrite.quiet = true := by decide +kernel
  obtain ⟨hserves, -⟩ := loadBehindWrite_port
  have hpopulated : loadBehindWrite.convPopulated = true := by decide +kernel
  have hx : exec .convLoadDone loadBehindWrite = done loadBehindWrite := exec_convLoadDone_of_writesIn rfl loadBehindWrite_writesIn
  obtain ⟨-, -, -, -, hnone, -⟩ := (gives_done_iff hx).mp
    (hDone loadBehindWrite loadOfSetB hquiet rfl hserves (by decide) rfl rfl (by decide) hpopulated rfl)
  rw [State.settle_conv] at hnone
  exact Option.some_ne_none _ hnone

end Sys2Proof.Machine
end

section
/-! The words of the insert engines (10_insert_engines R327, R328). A field of a word is read as a number; the encoder puts the fields side
by side, so that each is read back where the decoder looks for it. -/

namespace Sys2Proof

/-! Fields as numbers. -/

theorem ieV_eq_iff {n lo : Nat} {w : Word} {f : BitVec n} : ieV n w lo = f ↔ w.toNat / 2 ^ lo % 2 ^ n = f.toNat := by
  rw [ieV, ← BitVec.toNat_inj, BitVec.extractLsb'_toNat, Nat.shiftRight_eq_div_pow]

theorem ieF2_eq_iff {lo : Nat} {w : Word} {f : Fin 4} : ieF2 w lo = f ↔ w.toNat / 2 ^ lo % 2 ^ 2 = (bv2 f).toNat := by
  rw [ieF2, Fin.ext_iff, BitVec.val_toFin, BitVec.extractLsb'_toNat, Nat.shiftRight_eq_div_pow]; rfl

theorem ieF3_eq_iff {lo : Nat} {w : Word} {f : Fin 8} : ieF3 w lo = f ↔ w.toNat / 2 ^ lo % 2 ^ 3 = (bv3 f).toNat := by
  rw [ieF3, Fin.ext_iff, BitVec.val_toFin, BitVec.extractLsb'_toNat, Nat.shiftRight_eq_div_pow]; rfl

theorem ieF4_eq_iff {lo : Nat} {w : Word} {f : Fin 16} : ieF4 w lo = f ↔ w.toNat / 2 ^ lo % 2 ^ 4 = (bv4 f).toNat := by
  rw [ieF4, Fin.ext_iff, BitVec.val_toFin, BitVec.extractLsb'_toNat, Nat.shiftRight_eq_div_pow]; rfl

theorem ieF6_eq_iff {lo : Nat} {w : Word} {f : Fin 64} : ieF6 w lo = f ↔ w.toNat / 2 ^ lo % 2 ^ 6 = (bv6 f).toNat := by
  rw [ieF6, Fin.ext_iff, BitVec.val_toFin, BitVec.extractLsb'_toNat, Nat.shiftRight_eq_div_pow]; rfl

theorem ieBit_eq_iff {i : Nat} {w : Word} {b : Bool} : ieBit w i = b ↔ w.toNat / 2 ^ i % 2 ^ 1 = (bvB b).toNat := by
  rw [ieBit, BitVec.getLsbD, Nat.testBit_eq_decide_div_mod_eq, pow_one]
  cases b <;> simp [bvB]

theorem toNat_append_add {v w : Nat} (x : BitVec v) (y : BitVec w) : (x ++ y).toNat = x.toNat * 2 ^ w + y.toNat := by
  rw [BitVec.toNat_append, ← Nat.shiftLeft_add_eq_or_of_lt y.isLt, Nat.shiftLeft_eq]

/-- A field above the lowest part of a number. -/
theorem field_above {v lo n a : Nat} (y : BitVec v) (h : v ≤ lo) : (a * 2 ^ v + y.toNat) / 2 ^ lo % 2 ^ n = a / 2 ^ (lo - v) % 2 ^ n := by
  rw [← Nat.add_sub_of_le h, pow_add, ← Nat.div_div_eq_div_mul, Nat.add_sub_cancel_left, Nat.add_comm, Nat.add_mul_div_right _ _ (by positivity),
    Nat.div_eq_of_lt y.isLt, Nat.zero_add]

/-- The lowest part itself. -/
theorem field_lowest {n a : Nat} (y : BitVec n) : (a * 2 ^ n + y.toNat) / 2 ^ 0 % 2 ^ n = y.toNat := by
  rw [pow_zero, Nat.div_one, Nat.mul_add_mod_self_right, Nat.mod_eq_of_lt y.isLt]

/-! Words. -/

/-- The engine that an instruction names. -/
def ieEngine : Instr → Fin 8
  | .ieNop e | .ieDone e | .ieBr e _ _ | .ieCall e _ _ | .ieRet e _ | .ieReti e | .ieRep e _ | .ieRepr e _ | .ieLoop e _ _
  | .ieLoopr e _ _ | .ieFlag e _ _ _ | .ieAdd e _ _ _ _ | .ieSub e _ _ _ _ | .ieAddi e _ _ _ _ | .ieNeg e _ _ _
  | .ieAbs e _ _ _ | .ieMulq e _ _ _ _ | .ieShli e _ _ _ _ | .ieSrai e _ _ _ _ | .ieMin e _ _ _ | .ieMax e _ _ _
  | .ieCmp e _ _ | .ieCmpi e _ _ | .ieAnd e _ _ _ | .ieOr e _ _ _ | .ieXor e _ _ _ | .ieOri e _ _ _ | .ieShr e _ _ _
  | .ieMov e _ _ | .ieLdi e _ _ | .ieLui e _ _ | .ieLd e _ _ _ _ | .ieSt e _ _ _ _ | .ieMvta e _ _ | .ieMvfa e _ _
  | .ieModa e _ _ | .ieMac e _ _ _ _ _ _ | .ieDmac e _ _ _ _ _ _ _ _ | .ieMxy e _ _ _ _ _ _ _ _ | .ieDmxy e _ _ _ _ _ _ _ _
  | .ieSac e _ _ _ _ _ | .ieLac e _ _ _ | .ieAdda e _ _ _ | .ieSuba e _ _ _ | .ieSha e _ _ _ | .ieClra e _ => e
  | _ => 0

/-- An instruction is read back from its word: its opcode from the top six bits, then each operand from its place. -/
theorem decodeIe_encodeIe {i : Instr} {w : Word} (h : encodeIe i = some w) : decodeIe (ieEngine i) w = some i := by
  fun_cases encodeIe i
  all_goals simp only [encodeIe, Option.some.injEq, reduceCtorEq] at h
  all_goals
    have hop := congrArg (fun z : Word => (z.extractLsb' 26 6).toNat) h
    repeat rw [BitVec.extractLsb'_append_eq_of_le (by decide)] at hop
    rw [BitVec.extractLsb'_eq_self] at hop
    have hnum := congrArg BitVec.toNat h
    repeat rw [toNat_append_add] at hnum
    simp only [decodeIe, ← hop, BitVec.ofNat_eq_ofNat, BitVec.reduceToNat, ieEngine, Option.some.injEq]
  all_goals congr 1
  -- Each operand is the number at its place; the parts' widths stay as they are written, so that the two lemmas on fields apply.
  all_goals
    simp only [ieV_eq_iff, ieF2_eq_iff, ieF3_eq_iff, ieF4_eq_iff, ieF6_eq_iff, ieBit_eq_iff, ← hnum, field_above, field_lowest,
      Nat.reduceLeDiff, Nat.reduceSub, Nat.le_refl, Nat.sub_self, -BitVec.reduceToNat, -Nat.reducePow, -Nat.reduceMul, -Nat.reduceMod,
      -Nat.reduceDiv, -Nat.reduceAdd]

/-- Settles O59: the engine is the one that the instruction names. -/
theorem ieWordsRoundTrip : Obligations.IeWordsRoundTrip :=
  fun i _ h => ⟨ieEngine i, decodeIe_encodeIe h⟩

/-- Settles O60: the four words, bit by bit. -/
theorem ieWordsDecode : Obligations.IeWordsDecode := by
  unfold Obligations.IeWordsDecode
  decide

end Sys2Proof
end

section
/-! An insert engine's state: what each update leaves (10_insert_engines R315, R316, R329), and engines within the state of the device. -/

namespace Sys2Proof.Machine

/-! Registers, special registers and flags of one engine. -/

@[simp] theorem IeSt.reg_setReg_same (i : IeSt) (r : Nat) (v : Word) : (i.setReg r v).reg r = v := tget_tset_same _ _ _ _

theorem IeSt.reg_setReg_other (i : IeSt) {r q : Nat} (v : Word) (h : q ≠ r) : (i.setReg r v).reg q = i.reg q :=
  tget_tset_other _ _ _ _ _ h

@[simp] theorem IeSt.spec_setReg (i : IeSt) (r : Nat) (v : Word) (k : Nat) : (i.setReg r v).spec k = i.spec k := rfl

@[simp] theorem IeSt.spec_setSpec_same (i : IeSt) (k v : Nat) : (i.setSpec k v).spec k = v := tget_tset_same _ _ _ _

theorem IeSt.spec_setSpec_other (i : IeSt) {k q : Nat} (v : Nat) (h : q ≠ k) : (i.setSpec k v).spec q = i.spec q :=
  tget_tset_other _ _ _ _ _ h

@[simp] theorem IeSt.reg_setSpec (i : IeSt) (k v r : Nat) : (i.setSpec k v).reg r = i.reg r := rfl
@[simp] theorem IeSt.reg_setFl (i : IeSt) (b : Nat) (v : Bool) (r : Nat) : (i.setFl b v).reg r = i.reg r := rfl
@[simp] theorem IeSt.fl_setReg (i : IeSt) (r : Nat) (v : Word) (b : Nat) : (i.setReg r v).fl b = i.fl b := rfl

theorem IeSt.spec_setFl_other (i : IeSt) (b : Nat) (v : Bool) {k : Nat} (h : k ≠ spFL) : (i.setFl b v).spec k = i.spec k :=
  i.spec_setSpec_other _ h

theorem testBit_b2n_zero (v : Bool) : (b2n v).testBit 0 = v := by cases v <;> rfl

@[simp] theorem IeSt.fl_setFl_same (i : IeSt) (b : Nat) (v : Bool) : (i.setFl b v).fl b = v := by
  rw [IeSt.fl, IeSt.setFl, IeSt.spec_setSpec_same, bitOf, testBit_putBits, if_pos ⟨le_refl b, Nat.lt_succ_self b⟩, Nat.sub_self,
    testBit_b2n_zero]

theorem IeSt.fl_setFl_other (i : IeSt) {b c : Nat} (v : Bool) (h : c ≠ b) : (i.setFl b v).fl c = i.fl c := by
  rw [IeSt.fl, IeSt.setFl, IeSt.spec_setSpec_same, bitOf, testBit_putBits, if_neg (by omega)]; rfl

/-- A flag below bit m leaves FL from bit m on. -/
theorem IeSt.spec_setFl_div (i : IeSt) {b m : Nat} (v : Bool) (h : b < m) : (i.setFl b v).spec spFL / 2 ^ m = i.spec spFL / 2 ^ m := by
  apply Nat.eq_of_testBit_eq; intro j
  rw [IeSt.setFl, IeSt.spec_setSpec_same, Nat.testBit_div_two_pow, Nat.testBit_div_two_pow, testBit_putBits, if_neg (by omega)]

/-! Results that land (R316). -/

/-- Landing touches the data registers, the flag AV, what was on its way and what readers of accumulators see. -/
theorem IeSt.land_eq (i : IeSt) : i.land = { i with d := i.land.d, sp := i.land.sp, ld := none, av := false, accVis := i.acc } := by
  unfold IeSt.land
  cases i.ld <;> cases i.av <;> rfl

theorem IeSt.spec_land (i : IeSt) {k : Nat} (h : k ≠ spFL) : i.land.spec k = i.spec k := by
  have hj : ∀ j : IeSt, (if i.av then j.setFl flAV true else j).spec k = j.spec k := fun j => by
    cases i.av
    · rfl
    · exact j.spec_setFl_other _ _ h
  exact (hj _).trans (by cases i.ld <;> rfl)

@[simp] theorem IeSt.land_pc (i : IeSt) : i.land.pc = i.pc := by rw [i.land_eq]
@[simp] theorem IeSt.land_slots (i : IeSt) : i.land.slots = i.slots := by rw [i.land_eq]
@[simp] theorem IeSt.land_rep (i : IeSt) : i.land.rep = i.rep := by rw [i.land_eq]
@[simp] theorem IeSt.land_loops (i : IeSt) : i.land.loops = i.loops := by rw [i.land_eq]
@[simp] theorem IeSt.land_act (i : IeSt) : i.land.act = i.act := by rw [i.land_eq]
@[simp] theorem IeSt.land_dm (i : IeSt) : i.land.dm = i.dm := by rw [i.land_eq]
@[simp] theorem IeSt.land_acc (i : IeSt) : i.land.acc = i.acc := by rw [i.land_eq]
@[simp] theorem IeSt.land_av (i : IeSt) : i.land.av = false := by rw [i.land_eq]

/-! Engines of the device. -/

@[simp] theorem State.ie_setIe_same (s : State) (e : Nat) (f : IeSt → IeSt) : (s.setIe e f).ie e = f (s.ie e) := tget_tset_same _ _ _ _

theorem State.ie_setIe_other (s : State) {e f : Nat} (g : IeSt → IeSt) (h : f ≠ e) : (s.setIe e g).ie f = s.ie f :=
  tget_tset_other _ _ _ _ _ h

theorem State.ie_congr {s t : State} (h : t.ies = s.ies) (e : Nat) : t.ie e = s.ie e := by rw [State.ie, h, State.ie]

@[simp] theorem State.ie_put (s : State) (f : Fld) (v e : Nat) : (s.put f v).ie e = s.ie e := rfl
@[simp] theorem State.ie_setW (s : State) (k : Nat) (v : Word) (e : Nat) : (s.setW k v).ie e = s.ie e := rfl
@[simp] theorem State.ie_settle (s : State) (e : Nat) : s.settle.ie e = s.ie e := State.ie_congr s.settle_ies e
theorem State.ie_latch (s : State) (src bit e : Nat) : (s.latch src bit).ie e = s.ie e :=
  State.ie_congr (congrArg State.ies (s.latch_spec src bit).2 :) e

@[simp] theorem State.w_setIe (s : State) (e : Nat) (f : IeSt → IeSt) (k : Nat) : (s.setIe e f).w k = s.w k := rfl
@[simp] theorem State.get_setIe (s : State) (e : Nat) (f : IeSt → IeSt) (g : Fld) : (s.setIe e f).get g = s.get g := rfl
@[simp] theorem State.ieState_settle (s : State) (e : Nat) : s.settle.ieState e = s.ieState e := s.settle_get _

/-- From s to t no more has changed than words among ks and engine e. -/
def State.writesIe (s t : State) (e : Nat) (ks : List Nat) : Prop :=
  s.keeps t ks ∧ t = { s.regsOf t with ies := t.ies } ∧ ∀ f, f ≠ e → t.ie f = s.ie f

theorem State.writesIe_of_writes {s t : State} {ks : List Nat} (e : Nat) (h : s.writes t ks) : s.writesIe t e ks := by
  obtain ⟨hk, hr⟩ := h
  refine ⟨hk, ?_, fun f _ => State.ie_congr ?_ f⟩
  · rw [hr]; rfl
  · rw [hr]; rfl

theorem State.writesIe_trans {s t u : State} {e : Nat} {ks : List Nat} (h : s.writesIe t e ks) (h' : t.writesIe u e ks) :
    s.writesIe u e ks := by
  obtain ⟨hk, hr, hf⟩ := h
  obtain ⟨hk', hr', hf'⟩ := h'
  refine ⟨State.keeps_append hk hk', ?_, fun f he => (hf' f he).trans (hf f he)⟩
  rw [hr']; rw [hr]; rfl

theorem State.writesIe_refl (s : State) (e : Nat) (ks : List Nat) : s.writesIe s e ks := State.writesIe_of_writes e (s.writes_refl ks)

theorem State.writesIe_setIe (s : State) (e : Nat) (f : IeSt → IeSt) (ks : List Nat) : s.writesIe (s.setIe e f) e ks :=
  ⟨fun _ _ => rfl, rfl, fun _ h => s.ie_setIe_other f h⟩

theorem State.writesIe_put (s : State) (e : Nat) {f : Fld} (v : Nat) {ks : List Nat} (h : f.addr ∈ ks) : s.writesIe (s.put f v) e ks :=
  State.writesIe_of_writes e (s.writes_put v h)

theorem State.writesIe_settle {s t : State} {e : Nat} {ks : List Nat} (h : s.writesIe t e ks) : s.writesIe t.settle e ks :=
  State.writesIe_trans h (State.writesIe_of_writes e (t.writes_settle ks))

theorem State.writesIe_latch {s : State} {src : Nat} (e bit : Nat) {ks : List Nat} (hq : s.quiet = true) (h : evKey src ∈ ks) :
    s.writesIe (s.latch src bit) e ks := State.writesIe_of_writes e (State.writes_latch bit hq h)

/-- The words of an engine's page that its instructions may change: STATUS and PC. -/
def ieWords (e : Nat) : List Nat := [(R.IE_PC_PC.pg e).addr, (R.IE_S_STATE.pg e).addr]

theorem State.ieOnly_of_writesIe {s t : State} {e : Nat} (h : s.writesIe t e (ieWords e)) (hs : t.ieState e = s.ieState e) :
    s.ieOnly t e := by
  obtain ⟨hk, hr, hf⟩ := h
  exact ⟨hr, hf, hk, hs⟩

end Sys2Proof.Machine
end

section
/-! One instruction of an insert engine as it is issued (10_insert_engines R316–R319). -/

namespace Sys2Proof.Machine

/-! The engine's page. -/

theorem State.get_put_pg_same (s : State) (f : Fld) (e v : Nat) (h : f.hi < 32) (hl : f.lo ≤ f.hi + 1) :
    (s.put (f.pg e) v).get (f.pg e) = v % 2 ^ (f.hi + 1 - f.lo) :=
  s.get_put_same (f.pg e) v h hl

theorem State.get_put_pg_other (s : State) (f g : Fld) (e v : Nat) (h : f.hi < 32) (hd : g.addr ≠ f.addr ∨ g.hi < f.lo ∨ f.hi < g.lo) :
    (s.put (f.pg e) v).get (g.pg e) = s.get (g.pg e) :=
  s.get_put_other (f.pg e) (g.pg e) v h (hd.imp_left fun hne => by simpa [Fld.pg] using hne)

theorem State.writesIe_pcShow (s : State) (e : Nat) : s.writesIe (s.pcShow e) e (ieWords e) :=
  s.writesIe_put e _ (by simp [ieWords])

theorem State.ieState_pcShow (s : State) (e : Nat) : (s.pcShow e).ieState e = s.ieState e :=
  s.get_put_pg_other R.IE_PC_PC R.IE_S_STATE e _ (by decide) (by decide)

@[simp] theorem State.ie_pcShow (s : State) (e f : Nat) : (s.pcShow e).ie f = s.ie f := rfl

/-! One execution. -/

/-- An engine after one execution of an instruction that is not of the branch class: its results, the hazard mark, the clock count. -/
def IeSt.executed (i : IeSt) (op : IeOp) : IeSt :=
  { op.run i i.land with hazard := op.hazard }.setSpec spCYC (((op.run i i.land).spec spCYC + 1) % 2 ^ 18)

/-- What an instruction with a bad address records (R330). -/
def State.noteBad (s : State) (e : Nat) : Option Nat → State
  | some a => ((s.put (R.IE_BAD_ADDR_PC.pg e) (s.ie e).pc).put (R.IE_BAD_ADDR_ADDR.pg e) a).latch (eIE e) 5
  | none => s

theorem State.ie_noteBad (s : State) (e : Nat) (a : Option Nat) (f : Nat) : (s.noteBad e a).ie f = s.ie f := by
  cases a with
  | none => rfl
  | some a => exact State.ie_latch _ _ _ _

theorem State.ieOnce_eq (s : State) (e : Nat) (op : IeOp) :
    s.ieOnce e op =
      (((s.noteBad e (op.bad (s.ie e))).setIe e fun i => i.executed op).onlyIf op.sig (·.latch (eIE e) 4)).putB (R.IE_S_BULK_BUSY.pg e)
        ((((s.noteBad e (op.bad (s.ie e))).setIe e fun i => i.executed op).onlyIf op.sig (·.latch (eIE e) 4)).ie e).busy := by
  simp only [State.ieOnce]
  cases op.bad (s.ie e) <;> rfl

theorem State.ie_onlyIf_latch (s : State) (b : Bool) (src bit e : Nat) : (s.onlyIf b (·.latch src bit)).ie e = s.ie e := by
  cases b with
  | false => rfl
  | true => exact s.ie_latch _ _ _

theorem State.ie_ieOnce (s : State) (e : Nat) (op : IeOp) : (s.ieOnce e op).ie e = (s.ie e).executed op := by
  rw [State.ieOnce_eq, State.putB_eq, State.ie_put, State.ie_onlyIf_latch, State.ie_setIe_same, State.ie_noteBad]

/-- An instruction without a bad address and without a signal. -/
theorem State.ieOnce_plain {s : State} {e : Nat} {op : IeOp} (hb : op.bad (s.ie e) = none) (hs : op.sig = false) :
    s.ieOnce e op = (s.setIe e fun i => i.executed op).put (R.IE_S_BULK_BUSY.pg e) (b2n ((s.ie e).executed op).busy) := by
  have hoff : ∀ u : State, u.onlyIf false (·.latch (eIE e) 4) = u := fun _ => rfl
  rw [State.ieOnce_eq, hb, hs, State.noteBad, hoff, State.ie_setIe_same, State.putB_eq]

theorem State.writesIe_ieOnce {s : State} {e : Nat} {op : IeOp} (hb : op.bad (s.ie e) = none) (hs : op.sig = false) :
    s.writesIe (s.ieOnce e op) e (ieWords e) := by
  rw [State.ieOnce_plain hb hs]
  exact State.writesIe_trans (s.writesIe_setIe e _ _) (State.writesIe_put _ e _ (by simp [ieWords, Fld.pg, R.IE_S_BULK_BUSY, R.IE_S_STATE]))

theorem State.ieState_ieOnce {s : State} {e : Nat} {op : IeOp} (hb : op.bad (s.ie e) = none) (hs : op.sig = false) :
    (s.ieOnce e op).ieState e = s.ieState e := by
  rw [State.ieOnce_plain hb hs]
  exact State.get_put_pg_other _ R.IE_S_BULK_BUSY R.IE_S_STATE e _ (by decide) (by decide)

/-! What follows an instruction. -/

/-- In sequence, the loops decide where the engine goes on. -/
theorem State.ieNext_of_slots {s : State} {e : Nat} (h : (s.ie e).slots = 0) :
    s.ieNext e = s.setIe e fun i =>
      { i with pc := (loopTest (s.ie e).pc (s.ie e).loops).1.getD ((i.pc + 1) % 2 ^ 14), loops := (loopTest (s.ie e).pc (s.ie e).loops).2 } := by
  simp only [State.ieNext, h, if_true]

/-- After the second delay slot of a branch that is taken, the engine goes to its target; without loops nothing else follows. -/
theorem State.ieNext_of_jump {s : State} {e a : Nat} {br : Bool} (h : (s.ie e).slots = 1) (hl : (s.ie e).loops = [])
    (ha : (s.ie e).act = .jump a br) :
    (s.ieNext e).ie e = { s.ie e with slots := 0, act := .seq, pc := a } ∧ s.writesIe (s.ieNext e) e [] := by
  have hne : (1 : Nat) ≠ 0 := by decide
  simp only [State.ieNext, h, hne, if_true, if_false, State.ieAct, State.ie_setIe_same, ha, hl]
  refine ⟨trivial, ?_⟩
  exact State.writesIe_trans (State.writesIe_trans (s.writesIe_setIe _ _ _) (State.writesIe_setIe _ _ _ _)) (State.writesIe_setIe _ _ _ _)

/-- An instruction that the engine issues outside the delay slots of a branch: one execution, then its next repetition or what follows. -/
theorem State.ieIssue_of_slots {s : State} {e : Nat} {op : IeOp} (hi : s.ieIssues e = true) (h : (s.ie e).slots = 0 ∨ (s.ie e).loops = []) :
    s.ieIssue e op =
      let u := ((s.pcShow e).ieOnce e op).setIe e fun j => { j with rep := (s.ie e).rep - 1 }
      if 1 < (s.ie e).rep then u else u.ieNext e := by
  have hend : ¬((s.ie e).slots ≠ 0 ∧ (s.ie e).atEnd = true) := by
    rintro ⟨hne, he⟩
    rcases h with h | h
    · exact hne h
    · simp [IeSt.atEnd, h] at he
  simp only [State.ieIssue, hi, Bool.not_true, Bool.false_eq_true, if_false, hend]

end Sys2Proof.Machine
end

section
/-! An instruction in sequence (10_insert_engines R316): what the engine is afterwards, and that nothing else has changed. -/

namespace Sys2Proof.Machine

theorem State.plainIssue_iff (s : State) (e : Nat) :
    s.plainIssue e = true ↔ s.ieIssues e = true ∧ (s.ie e).slots = 0 ∧ (s.ie e).rep = 0 ∧ (s.ie e).loops = [] := by
  simp [State.plainIssue, and_assoc]

/-- From i to l the engine stays where it stands, with its clock count: so results leave it. -/
structure IeSt.InPlace (i l : IeSt) : Prop where
  pc : l.pc = i.pc
  slots : l.slots = i.slots
  loops : l.loops = i.loops
  cyc : l.spec spCYC = i.spec spCYC

theorem IeSt.InPlace.refl (i : IeSt) : i.InPlace i := ⟨rfl, rfl, rfl, rfl⟩

theorem IeSt.InPlace.trans {i j l : IeSt} (h : i.InPlace j) (h' : j.InPlace l) : i.InPlace l :=
  ⟨h'.pc.trans h.pc, h'.slots.trans h.slots, h'.loops.trans h.loops, h'.cyc.trans h.cyc⟩

theorem IeSt.inPlace_land (i : IeSt) : i.InPlace i.land := ⟨i.land_pc, i.land_slots, i.land_loops, i.spec_land (by decide)⟩

theorem IeSt.inPlace_setReg (i : IeSt) (r : Nat) (v : Word) : i.InPlace (i.setReg r v) := ⟨rfl, rfl, rfl, rfl⟩

theorem IeSt.inPlace_setSpec (i : IeSt) {k : Nat} (v : Nat) (h : k ≠ spCYC) : i.InPlace (i.setSpec k v) :=
  ⟨rfl, rfl, rfl, i.spec_setSpec_other v h.symm⟩

/-- An instruction's results, put into the engine as landing leaves it, are in place. -/
def IeOp.staysAt (op : IeOp) (i : IeSt) : Prop := i.land.InPlace (op.run i i.land)

/-- The engine after an instruction in sequence; beside its execution nothing changes. -/
theorem State.ie_ieIssue_plain {s : State} {e : Nat} {op : IeOp} (hp : s.plainIssue e = true) (hst : op.staysAt (s.ie e)) :
    (s.ieIssue e op).ie e = { (s.ie e).executed op with rep := 0, pc := ((s.ie e).pc + 1) % 2 ^ 14, loops := [] } ∧
      ((s.pcShow e).ieOnce e op).writesIe (s.ieIssue e op) e [] := by
  obtain ⟨hi, hsl, hrep, hlo⟩ := (s.plainIssue_iff e).mp hp
  have hplace : (s.ie e).InPlace (op.run (s.ie e) (s.ie e).land) := (s.ie e).inPlace_land.trans hst
  have hpc : ((s.ie e).executed op).pc = (s.ie e).pc := hplace.pc
  have hsl' : ((s.ie e).executed op).slots = (s.ie e).slots := hplace.slots
  have hlo' : ((s.ie e).executed op).loops = (s.ie e).loops := hplace.loops
  have hie : ((s.pcShow e).ieOnce e op).ie e = (s.ie e).executed op := State.ie_ieOnce _ _ _
  rw [State.ieIssue_of_slots hi (.inl hsl)]
  simp only [hrep, Nat.not_lt_zero, if_false]
  rw [State.ieNext_of_slots (by rw [State.ie_setIe_same, hie]; exact hsl'.trans hsl)]
  simp only [State.ie_setIe_same, hie, hpc, hlo', hlo, loopTest]
  exact ⟨rfl, State.writesIe_trans (State.writesIe_setIe _ _ _ _) (State.writesIe_setIe _ _ _ _)⟩

theorem State.follows_ieIssue {s : State} {e : Nat} {op : IeOp} (hp : s.plainIssue e = true) (hst : op.staysAt (s.ie e)) :
    (s.ie e).follows ((s.ieIssue e op).ie e) (op.run (s.ie e) (s.ie e).land) op.hazard := by
  obtain ⟨-, -, -, hlo⟩ := (s.plainIssue_iff e).mp hp
  rw [(State.ie_ieIssue_plain hp hst).1]
  refine ⟨?_, fun k hk => IeSt.spec_setSpec_other _ _ hk, ?_⟩
  · rw [show ([] : List (Nat × Nat × Nat)) = (op.run (s.ie e) (s.ie e).land).loops by rw [hst.loops, IeSt.land_loops, hlo]]
    rfl
  · rw [← hst.cyc]; exact IeSt.spec_setSpec_same _ _ _

/-- An instruction in sequence: what follows in the engine; in the device, what its execution writes beside the PC shown. -/
theorem gives_ieIssue {c : Instr} {s : State} {e : Nat} {op : IeOp} {ks : List Nat} (hx : exec c s = done (s.ieIssue e op))
    (hp : s.plainIssue e = true) (hst : op.staysAt (s.ie e)) (hpc : (R.IE_PC_PC.pg e).addr ∈ ks)
    (hw : (s.pcShow e).writesIe ((s.pcShow e).ieOnce e op) e ks) :
    Gives c s fun t => (s.ie e).follows (t.ie e) (op.run (s.ie e) (s.ie e).land) op.hazard ∧ s.writesIe t e ks ∧
      ((s.pcShow e).ieOnce e op).keeps t [] := by
  obtain ⟨-, hn⟩ := State.ie_ieIssue_plain hp hst
  have hn' : ((s.pcShow e).ieOnce e op).writesIe (s.ieIssue e op) e ks := ⟨State.keeps_mono hn.1 (by simp), hn.2⟩
  refine gives_done hx ⟨?_, ?_, State.keeps_settle hn.1⟩
  · rw [State.ie_settle]; exact State.follows_ieIssue hp hst
  · exact State.writesIe_settle (State.writesIe_trans (s.writesIe_put e _ hpc) (State.writesIe_trans hw hn'))

theorem State.ieState_issued {s t : State} {e : Nat} {op : IeOp} (hb : op.bad (s.ie e) = none) (hs : op.sig = false)
    (hk : ((s.pcShow e).ieOnce e op).keeps t []) : t.ieState e = s.ieState e :=
  calc t.ieState e = ((s.pcShow e).ieOnce e op).ieState e := State.keeps_get hk _ (by simp)
    _ = (s.pcShow e).ieState e := State.ieState_ieOnce hb hs
    _ = s.ieState e := s.ieState_pcShow e

/-- The same for an instruction that has no bad address and does not signal. -/
theorem gives_follows {c : Instr} {s : State} {e : Nat} {op : IeOp} (hx : exec c s = done (s.ieIssue e op)) (hp : s.plainIssue e = true)
    (hst : op.staysAt (s.ie e)) (hb : op.bad (s.ie e) = none) (hs : op.sig = false) :
    Gives c s fun t => (s.ie e).follows (t.ie e) (op.run (s.ie e) (s.ie e).land) op.hazard ∧ s.ieOnly t e := by
  refine (gives_ieIssue hx hp hst (by simp [ieWords]) (State.writesIe_ieOnce hb hs)).mono fun t ⟨hf, hw, hk⟩ => ?_
  exact ⟨hf, State.ieOnly_of_writesIe hw (State.ieState_issued hb hs hk)⟩

end Sys2Proof.Machine
end

section
/-! Results with the flags Z, N and V (10_insert_engines R315, R324). -/

namespace Sys2Proof.Machine

/-! Values of 32 bits. -/

theorem satI_mem (n : Nat) (x : Int) : -(2 ^ (n - 1)) ≤ satI n x ∧ satI n x ≤ 2 ^ (n - 1) - 1 := by
  have h : (0 : Int) < 2 ^ (n - 1) := by positivity
  unfold satI clampI
  omega

theorem sx_mem (x : Nat) : -(2 ^ 31) ≤ sx 32 x ∧ sx 32 x ≤ 2 ^ 31 - 1 := by
  unfold sx
  split <;> omega

theorem toInt_w32i {v : Int} (h : -(2 ^ 31) ≤ v ∧ v ≤ 2 ^ 31 - 1) : (w32i v).toInt = v := by
  rw [w32i, BitVec.toInt_ofInt]
  exact Int.bmod_eq_of_le (by omega) (by omega)

/-- The low 32 bits, sign-extended, stand for the integer they come from. -/
theorem w32i_sx_tz (x : Int) : w32i (sx 32 (tz 32 x)) = BitVec.ofInt 32 x := by
  have hx : (2 ^ 32 : Int) ∣ sx 32 (tz 32 x) - x := by
    unfold sx tz
    split <;> omega
  rw [w32i, ← BitVec.toInt_inj, BitVec.toInt_ofInt, BitVec.toInt_ofInt]
  exact Int.bmod_eq_bmod_iff_bmod_sub_eq_zero.mpr (Int.bmod_eq_zero_of_dvd (by simpa using hx))

/-! What a result leaves. -/

/-- A value under the S rule. -/
def sValue (n : Nat) (sat : Bool) (x : Int) : Int := if sat then satI n x else sx n (tz n x)

theorem sValue_mem (sat : Bool) (x : Int) : -(2 ^ 31) ≤ sValue 32 sat x ∧ sValue 32 sat x ≤ 2 ^ 31 - 1 := by
  cases sat
  · exact sx_mem _
  · exact satI_mem 32 x

theorem IeSt.zn_eq (j : IeSt) (v : Int) : j.zn v = { j with sp := (j.zn v).sp } := rfl

theorem IeSt.fl_zn (j : IeSt) (v : Int) :
    (j.zn v).fl flZ = decide (v = 0) ∧ (j.zn v).fl flN = decide (v < 0) ∧ ∀ b, b ≠ flZ → b ≠ flN → (j.zn v).fl b = j.fl b := by
  refine ⟨?_, IeSt.fl_setFl_same _ _ _, fun b hz hn => ?_⟩
  · exact (IeSt.fl_setFl_other _ _ (by decide)).trans (IeSt.fl_setFl_same _ _ _)
  · exact (IeSt.fl_setFl_other _ _ hn).trans (IeSt.fl_setFl_other _ _ hz)

theorem IeSt.spec_zn (j : IeSt) (v : Int) {k : Nat} (h : k ≠ spFL) : (j.zn v).spec k = j.spec k :=
  (IeSt.spec_setFl_other _ _ _ h).trans (IeSt.spec_setFl_other _ _ _ h)

theorem IeSt.spec_zn_div (j : IeSt) (v : Int) : (j.zn v).spec spFL / 8 = j.spec spFL / 8 :=
  (IeSt.spec_setFl_div (m := 3) _ _ (by decide)).trans (IeSt.spec_setFl_div (m := 3) _ _ (by decide))

/-- The flag V is set, or kept. -/
def IeSt.withV (j : IeSt) (v : Bool) : IeSt := if v then j.setFl flV true else j

theorem IeSt.result_eq (j : IeSt) (sat : Bool) (rd : Nat) (x : Int) :
    j.result sat rd x = ((j.setReg rd (w32i (sValue 32 sat x))).zn (sValue 32 sat x)).withV (sat && ovfI 32 x) := rfl

theorem IeSt.withV_eq (j : IeSt) (v : Bool) : j.withV v = { j with sp := (j.withV v).sp } := by cases v <;> rfl

theorem IeSt.fl_withV (j : IeSt) (v : Bool) :
    (j.withV v).fl flV = (j.fl flV || v) ∧ ∀ b, b ≠ flV → (j.withV v).fl b = j.fl b := by
  cases v
  · exact ⟨by simp [IeSt.withV], fun _ _ => rfl⟩
  · exact ⟨(IeSt.fl_setFl_same _ _ _).trans (by simp), fun b hb => IeSt.fl_setFl_other _ _ hb⟩

theorem IeSt.spec_withV (j : IeSt) (v : Bool) {k : Nat} (h : k ≠ spFL) : (j.withV v).spec k = j.spec k := by
  cases v
  · rfl
  · exact IeSt.spec_setFl_other _ _ _ h

theorem IeSt.spec_withV_div (j : IeSt) (v : Bool) : (j.withV v).spec spFL / 8 = j.spec spFL / 8 := by
  cases v
  · rfl
  · exact IeSt.spec_setFl_div (m := 3) _ _ (by decide)

end Sys2Proof.Machine
end

section
/-! Arithmetic and logic of the insert engines (10_insert_engines R315, R324, R328). -/

namespace Sys2Proof.Machine

/-- Engine state j follows i after a result x under the S rule in rd. -/
def IeSt.resultNext (i j : IeSt) (sat : Bool) (rd : Nat) (x : Int) : Prop :=
  j.val rd = sValue 32 sat x ∧ j.fl flZ = decide (j.val rd = 0) ∧ j.fl flN = decide (j.val rd < 0) ∧
  j.fl flV = (i.land.fl flV || (sat && ovfI 32 x)) ∧ i.dataNext j rd ∧ j.reg rd = w32i (sValue 32 sat x)

/-! The parts of a result. -/

theorem IeSt.result_sp (j : IeSt) (sat : Bool) (rd : Nat) (x : Int) :
    j.result sat rd x = { j with d := tset zeroAt j.d rd (w32i (sValue 32 sat x)), sp := (j.result sat rd x).sp } := by
  rw [IeSt.result_eq, IeSt.withV_eq, IeSt.zn_eq]; rfl

theorem IeSt.reg_result (j : IeSt) (sat : Bool) (rd : Nat) (x : Int) (r : Nat) :
    (j.result sat rd x).reg r = (j.setReg rd (w32i (sValue 32 sat x))).reg r := by
  rw [IeSt.result_sp]; rfl

theorem IeSt.spec_result (j : IeSt) (sat : Bool) (rd : Nat) (x : Int) {k : Nat} (h : k ≠ spFL) :
    (j.result sat rd x).spec k = j.spec k := by
  rw [IeSt.result_eq, IeSt.spec_withV _ _ h, IeSt.spec_zn _ _ h, IeSt.spec_setReg]

theorem IeSt.spec_result_div (j : IeSt) (sat : Bool) (rd : Nat) (x : Int) :
    (j.result sat rd x).spec spFL / 8 = j.spec spFL / 8 := by
  rw [IeSt.result_eq, IeSt.spec_withV_div, IeSt.spec_zn_div, IeSt.spec_setReg]

theorem IeSt.fl_result (j : IeSt) (sat : Bool) (rd : Nat) (x : Int) :
    (j.result sat rd x).fl flZ = decide (sValue 32 sat x = 0) ∧ (j.result sat rd x).fl flN = decide (sValue 32 sat x < 0) ∧
      (j.result sat rd x).fl flV = (j.fl flV || (sat && ovfI 32 x)) := by
  obtain ⟨hz, hn, hother⟩ := (j.setReg rd (w32i (sValue 32 sat x))).fl_zn (sValue 32 sat x)
  obtain ⟨hv, hkept⟩ := ((j.setReg rd (w32i (sValue 32 sat x))).zn (sValue 32 sat x)).fl_withV (sat && ovfI 32 x)
  rw [IeSt.result_eq]
  refine ⟨(hkept _ (by decide)).trans hz, (hkept _ (by decide)).trans hn, hv.trans ?_⟩
  rw [hother _ (by decide) (by decide), IeSt.fl_setReg]

theorem IeSt.inPlace_result (j : IeSt) (sat : Bool) (rd : Nat) (x : Int) : j.InPlace (j.result sat rd x) := by
  refine ⟨?_, ?_, ?_, j.spec_result sat rd x (by decide)⟩
  all_goals rw [IeSt.result_sp]

theorem IeSt.resultNext_of_follows {i j : IeSt} {sat : Bool} {rd : Nat} {x : Int} (h : i.follows j (i.land.result sat rd x) false) :
    i.resultNext j sat rd x := by
  obtain ⟨hj, hspec, hcyc⟩ := h
  have hd : j.d = (i.land.result sat rd x).d := by rw [hj]
  have hreg : ∀ r, j.reg r = (i.land.setReg rd (w32i (sValue 32 sat x))).reg r := fun r =>
    (by rw [IeSt.reg, hd, IeSt.reg] : j.reg r = (i.land.result sat rd x).reg r).trans (i.land.reg_result sat rd x r)
  have hfl : ∀ b, j.fl b = (i.land.result sat rd x).fl b := fun b => by rw [IeSt.fl, hspec spFL (by decide), IeSt.fl]
  have hr : j.reg rd = w32i (sValue 32 sat x) := (hreg rd).trans (IeSt.reg_setReg_same _ _ _)
  have hv : j.val rd = sValue 32 sat x := by rw [IeSt.val, hr, toInt_w32i (sValue_mem sat x)]
  obtain ⟨hz, hn, hV⟩ := i.land.fl_result sat rd x
  refine ⟨hv, ?_, ?_, (hfl _).trans hV, ⟨?_, ?_, ?_, ?_, hcyc⟩, hr⟩
  · rw [hfl, hz, hv]
  · rw [hfl, hn, hv]
  · rw [IeSt.result_sp] at hj hd
    rw [hd]; exact hj
  · exact fun r hne => (hreg r).trans (IeSt.reg_setReg_other _ _ hne)
  · exact fun k hF hC => (hspec k hC).trans (IeSt.spec_result _ _ _ _ hF)
  · rw [hspec spFL (by decide), IeSt.spec_result_div]

/-- An instruction in sequence whose result goes to rd under the S rule. -/
theorem gives_result {c : Instr} {s : State} {e rd : Nat} {sat : Bool} {x : IeSt → Int}
    (hx : exec c s = done (s.ieIssue e (ieS fun i j => j.result sat rd (x i)))) (hp : s.plainIssue e = true) :
    Gives c s fun t => (s.ie e).resultNext (t.ie e) sat rd (x (s.ie e)) ∧ s.ieOnly t e :=
  (gives_follows hx hp (IeSt.inPlace_result _ _ _ _) rfl rfl).mono fun _ h => ⟨IeSt.resultNext_of_follows h.1, h.2⟩

/-! The low 32 bits of the exact results. -/

theorem ofInt_val_add (i : IeSt) (r q : Nat) : BitVec.ofInt 32 (i.val r + i.val q) = i.reg r + i.reg q := by
  rw [BitVec.ofInt_add, IeSt.val, IeSt.val, BitVec.ofInt_toInt, BitVec.ofInt_toInt]

theorem ofInt_val_sub (i : IeSt) (r q : Nat) : BitVec.ofInt 32 (i.val r - i.val q) = i.reg r - i.reg q := by
  rw [Int.sub_eq_add_neg, BitVec.ofInt_add, BitVec.ofInt_neg, IeSt.val, IeSt.val, BitVec.ofInt_toInt, BitVec.ofInt_toInt,
    BitVec.sub_eq_add_neg]

theorem ofInt_val_add_imm (i : IeSt) (r : Nat) (imm : BitVec 17) : BitVec.ofInt 32 (i.val r + imm.toInt) = i.reg r + imm.signExtend 32 := by
  rw [BitVec.ofInt_add, IeSt.val, BitVec.ofInt_toInt]; rfl

theorem ofInt_val_neg (i : IeSt) (r : Nat) : BitVec.ofInt 32 (-i.val r) = -i.reg r := by
  rw [BitVec.ofInt_neg, IeSt.val, BitVec.ofInt_toInt]

theorem ofInt_val_shift (i : IeSt) (r n : Nat) : BitVec.ofInt 32 (i.val r * 2 ^ n) = i.reg r <<< n := by
  have hpow : BitVec.ofInt 32 (2 ^ n) = BitVec.twoPow 32 n := by
    rw [show (2 : Int) ^ n = ((2 ^ n : Nat) : Int) by push_cast; rfl, BitVec.ofInt_natCast]
    exact BitVec.eq_of_toNat_eq (by rw [BitVec.toNat_ofNat, BitVec.toNat_twoPow])
  rw [BitVec.ofInt_mul, hpow, IeSt.val, BitVec.ofInt_toInt, BitVec.shiftLeft_eq_mul_twoPow]

theorem IeSt.resultNext.reg_wrap {i j : IeSt} {rd : Nat} {x : Int} (h : i.resultNext j false rd x) : j.reg rd = BitVec.ofInt 32 x := by
  obtain ⟨-, -, -, -, -, hr⟩ := h
  exact hr.trans (w32i_sx_tz x)

/-! The forms of an instruction with a result. -/

section
variable {c : Instr} {s : State} {e rd : Nat} {i : IeSt} {sat : Bool} {x : IeSt → Int}

/-- Under the S rule. -/
theorem gives_sRule (hi : s.ie e = i) (hp : s.plainIssue e = true)
    (hx : exec c s = done (s.ieIssue e (ieS fun i j => j.result sat rd (x i)))) :
    Gives c s fun t => (t.ie e).val rd = (if sat then satI 32 (x i) else sx 32 (tz 32 (x i))) ∧
      (t.ie e).fl flZ = decide ((t.ie e).val rd = 0) ∧ (t.ie e).fl flN = decide ((t.ie e).val rd < 0) ∧
      (t.ie e).fl flV = (i.land.fl flV || (sat && ovfI 32 (x i))) ∧ i.dataNext (t.ie e) rd ∧ s.ieOnly t e := by
  subst hi
  exact (gives_result hx hp).mono fun _ ⟨⟨hv, hz, hn, hV, hd, _⟩, ho⟩ => ⟨hv, hz, hn, hV, hd, ho⟩

/-- Under the S rule, where the low 32 bits of the exact result are the word w. -/
theorem gives_sRule_wrap {w : Word} (hi : s.ie e = i) (hp : s.plainIssue e = true) (hw : BitVec.ofInt 32 (x i) = w)
    (hx : exec c s = done (s.ieIssue e (ieS fun i j => j.result sat rd (x i)))) :
    Gives c s fun t => (t.ie e).val rd = (if sat then satI 32 (x i) else sx 32 (tz 32 (x i))) ∧
      (t.ie e).fl flZ = decide ((t.ie e).val rd = 0) ∧ (t.ie e).fl flN = decide ((t.ie e).val rd < 0) ∧
      (t.ie e).fl flV = (i.land.fl flV || (sat && ovfI 32 (x i))) ∧ i.dataNext (t.ie e) rd ∧
      (sat = false → (t.ie e).reg rd = w) ∧ s.ieOnly t e := by
  subst hi
  refine (gives_result hx hp).mono fun t ⟨h, ho⟩ => ?_
  obtain ⟨hv, hz, hn, hV, hd, -⟩ := id h
  refine ⟨hv, hz, hn, hV, hd, fun hsat => ?_, ho⟩
  subst hsat
  exact h.reg_wrap.trans hw

/-- A result that does not saturate leaves V. -/
theorem gives_wrap (hi : s.ie e = i) (hp : s.plainIssue e = true)
    (hx : exec c s = done (s.ieIssue e (ieS fun i j => j.result false rd (x i)))) :
    Gives c s fun t => (t.ie e).val rd = sx 32 (tz 32 (x i)) ∧ (t.ie e).fl flZ = decide ((t.ie e).val rd = 0) ∧
      (t.ie e).fl flN = decide ((t.ie e).val rd < 0) ∧ (t.ie e).fl flV = i.land.fl flV ∧ i.dataNext (t.ie e) rd ∧ s.ieOnly t e :=
  (gives_sRule hi hp hx).mono fun _ ⟨hv, hz, hn, hV, hd, ho⟩ => ⟨hv, hz, hn, hV.trans (Bool.or_false _), hd, ho⟩

/-- A word as the result. -/
theorem gives_word {w : IeSt → Word} (hi : s.ie e = i) (hp : s.plainIssue e = true)
    (hx : exec c s = done (s.ieIssue e (ieS fun i j => j.result false rd (w i).toInt))) :
    Gives c s fun t => (t.ie e).val rd = sx 32 (tz 32 (w i).toInt) ∧ (t.ie e).fl flZ = decide ((t.ie e).val rd = 0) ∧
      (t.ie e).fl flN = decide ((t.ie e).val rd < 0) ∧ (t.ie e).fl flV = i.land.fl flV ∧ i.dataNext (t.ie e) rd ∧
      (t.ie e).reg rd = w i ∧ s.ieOnly t e :=
  (gives_sRule_wrap hi hp BitVec.ofInt_toInt hx).mono fun _ ⟨hv, hz, hn, hV, hd, hw, ho⟩ =>
    ⟨hv, hz, hn, hV.trans (Bool.or_false _), hd, hw rfl, ho⟩

end

/-- Settles O24: every instruction is a result, in the S rule or out of it. -/
theorem ieArithmeticAndLogic : Obligations.IeArithmeticAndLogic := by
  unfold Obligations.IeArithmeticAndLogic
  refine ⟨?add, ?sub, ?addi, ?neg, ?abs, ?mulq, ?shli, ?srai, ?min, ?max, ?and, ?or, ?xor, ?ori, ?shr, ?mov⟩
  case add => exact fun s e i st rd rs rt hi hp => gives_sRule_wrap (x := fun i => i.val rs + i.val rt) hi hp (ofInt_val_add i rs rt) rfl
  case sub => exact fun s e i st rd rs rt hi hp => gives_sRule_wrap (x := fun i => i.val rs - i.val rt) hi hp (ofInt_val_sub i rs rt) rfl
  case addi =>
    exact fun s e i st rd rs imm hi hp => gives_sRule_wrap (x := fun i => i.val rs + imm.toInt) hi hp (ofInt_val_add_imm i rs imm) rfl
  case neg => exact fun s e i st rd rs hi hp => gives_sRule_wrap (x := fun i => -i.val rs) hi hp (ofInt_val_neg i rs) rfl
  case abs => exact fun s e i st rd rs hi hp => gives_sRule (x := fun i => |i.val rs|) hi hp rfl
  case mulq => exact fun s e i st rd rs rt hi hp => gives_sRule (x := fun i => rndShr (i.val rs * i.val rt) 30) hi hp rfl
  case shli =>
    exact fun s e i st rd rs sh hi hp => gives_sRule_wrap (x := fun i => i.val rs * 2 ^ sh.toNat) hi hp (ofInt_val_shift i rs sh.toNat) rfl
  case srai =>
    exact fun s e i rd rs sh rnd hi hp =>
      gives_wrap (x := fun i => if rnd then rndShr (i.val rs) sh.toNat else i.val rs / 2 ^ sh.toNat) hi hp rfl
  case min => exact fun s e i rd rs rt hi hp => gives_wrap (x := fun i => min (i.val rs) (i.val rt)) hi hp rfl
  case max => exact fun s e i rd rs rt hi hp => gives_wrap (x := fun i => max (i.val rs) (i.val rt)) hi hp rfl
  case and => exact fun s e i rd rs rt hi hp => gives_word (w := fun i => i.reg rs &&& i.reg rt) hi hp rfl
  case or => exact fun s e i rd rs rt hi hp => gives_word (w := fun i => i.reg rs ||| i.reg rt) hi hp rfl
  case xor => exact fun s e i rd rs rt hi hp => gives_word (w := fun i => i.reg rs ^^^ i.reg rt) hi hp rfl
  case ori => exact fun s e i rd rs imm hi hp => gives_word (w := fun i => i.reg rs ||| imm.setWidth 32) hi hp rfl
  case shr => exact fun s e i rd rs sh hi hp => gives_word (w := fun i => i.reg rs >>> sh.toNat) hi hp rfl
  case mov => exact fun s e i rd rs hi hp => gives_word (w := fun i => i.reg rs) hi hp rfl

end Sys2Proof.Machine
end

section
/-! Compares, constants, pointers and special registers of the insert engines (10_insert_engines R315, R322, R329). -/

namespace Sys2Proof.Machine

/-! What these results leave in place. -/

theorem IeSt.inPlace_zn (j : IeSt) (v : Int) : j.InPlace (j.zn v) := by
  rw [IeSt.zn_eq]
  exact ⟨rfl, rfl, rfl, j.spec_zn v (by decide)⟩

theorem IeSt.inPlace_wrapPtr (j : IeSt) {p : Nat} (h : p < 8) : j.InPlace (j.wrapPtr p) := by
  unfold IeSt.wrapPtr
  split
  · exact IeSt.InPlace.refl j
  · exact j.inPlace_setSpec _ (by unfold spA spCYC; omega)

theorem IeSt.inPlace_writeSpec (j : IeSt) (k v : Nat) : j.InPlace (j.writeSpec k v) := by
  have hset : ∀ v', k ≠ spCYC → j.InPlace (j.setSpec k v') := fun _ h => j.inPlace_setSpec _ h
  have hwrap : ∀ v', k ≠ spCYC → j.InPlace ((j.setSpec k v').wrapPtr (k % 8)) := fun v' h =>
    (hset v' h).trans (IeSt.inPlace_wrapPtr _ (Nat.mod_lt _ (by decide)))
  unfold IeSt.writeSpec
  split_ifs
  case pos => exact hwrap _ (by unfold spCYC; omega)
  case pos => exact hwrap _ (by unfold spCYC; omega)
  case neg => exact IeSt.InPlace.refl j
  all_goals exact hset _ (by simp only [spCYC, spRA, spIPC, spFL, spIFL, spXL, spIPEND, spIMASK] at *; omega)

/-- A pointer step, or none. -/
theorem IeSt.inPlace_step (j : IeSt) (p : Fin 8) (md v : Nat) : j.InPlace (if md = 0 then j else j.setSpec (spA p) v) := by
  split
  · exact IeSt.InPlace.refl j
  · exact j.inPlace_setSpec _ (by unfold spA spCYC; omega)

/-- An instruction with results alone. -/
theorem gives_ieS {c : Instr} {s : State} {e : Nat} {i : IeSt} (op : IeSt → IeSt → IeSt) (hi : s.ie e = i) (hp : s.plainIssue e = true)
    (hst : i.land.InPlace (op i i.land)) (hx : exec c s = done (s.ieIssue e (ieS op))) :
    Gives c s fun t => i.follows (t.ie e) (op i i.land) false ∧ s.ieOnly t e := by
  subst hi
  exact gives_follows hx hp hst rfl rfl

/-- FLAG (R328). -/
def ieFlagOp (sig : Bool) (set clr : BitVec 5) : IeOp where
  run _ j := j.setSpec spFL (j.spec spFL / 32 * 32 + ((j.spec spFL % 32 &&& (31 - clr.toNat)) ||| set.toNat))
  sig := sig

/-! A compare. -/

theorem gives_compare {c : Instr} {s : State} {e : Nat} {i : IeSt} {x : IeSt → Int} (hi : s.ie e = i) (hp : s.plainIssue e = true)
    (hx : exec c s = done (s.ieIssue e (ieS fun i j => j.zn (x i)))) :
    Gives c s fun t => (t.ie e).fl flZ = decide (x i = 0) ∧ (t.ie e).fl flN = decide (x i < 0) ∧ (t.ie e).fl flV = i.land.fl flV ∧
      i.dataNext (t.ie e) 16 ∧ s.ieOnly t e := by
  subst hi
  refine (gives_follows hx hp (IeSt.inPlace_zn _ _) rfl rfl).mono fun t ⟨⟨hj, hspec, hcyc⟩, ho⟩ => ?_
  simp only [ieS] at hj hspec hcyc
  rw [IeSt.zn_eq] at hj
  obtain ⟨hz, hn, hother⟩ := (s.ie e).land.fl_zn (x (s.ie e))
  have hfl : ∀ b, (t.ie e).fl b = ((s.ie e).land.zn (x (s.ie e))).fl b := fun b => by rw [IeSt.fl, hspec spFL (by decide), IeSt.fl]
  have hd : (t.ie e).d = (s.ie e).land.d := by rw [hj]
  refine ⟨(hfl _).trans hz, (hfl _).trans hn, (hfl _).trans (hother _ (by decide) (by decide)), ⟨?_, ?_, ?_, ?_, hcyc⟩, ho⟩
  · rw [hd]; exact hj
  · intro r _
    rw [IeSt.reg, hd, IeSt.reg]
  · exact fun k hF hC => (hspec k hC).trans (IeSt.spec_zn _ _ hF)
  · rw [hspec spFL (by decide), IeSt.spec_zn_div]

/-! A signal. -/

/-- An execution that signals, without a bad address. -/
theorem State.ieOnce_sig {s : State} {e : Nat} {op : IeOp} (hb : op.bad (s.ie e) = none) (hs : op.sig = true) :
    s.ieOnce e op =
      ((s.setIe e fun i => i.executed op).latch (eIE e) 4).put (R.IE_S_BULK_BUSY.pg e)
        (b2n (((s.setIe e fun i => i.executed op).latch (eIE e) 4).ie e).busy) := by
  have hon : ∀ u : State, u.onlyIf true (·.latch (eIE e) 4) = u.latch (eIE e) 4 := fun _ => rfl
  rw [State.ieOnce_eq, hb, hs, State.noteBad, hon, State.putB_eq]

/-- The words of an engine that an instruction with an event may change. -/
def ieSignalWords (e : Nat) : List Nat := [(R.IE_S_STATE.pg e).addr, (R.IE_PC_PC.pg e).addr, evKey (eIE e)]

theorem State.quiet_setIe {s : State} (e : Nat) (f : IeSt → IeSt) (hq : s.quiet = true) : (s.setIe e f).quiet = true := hq

theorem State.quiet_pcShow {s : State} (e : Fin 8) (hq : s.quiet = true) : (s.pcShow e).quiet = true :=
  State.quiet_of_keeps (s.keeps_put _ _) (by simp [Fld.pg, R.IE_PC_PC]; omega) hq

theorem busy_addr_ne_evKey (e : Nat) : evKey (eIE e) ≠ (R.IE_S_BULK_BUSY.pg e).addr :=
  (evKey_ne (eIE e) _ (by simp [Fld.pg, R.IE_S_BULK_BUSY])).symm

theorem State.hasEvent_ieOnce_sig {s : State} {e : Nat} {op : IeOp} (hq : s.quiet = true) (hb : op.bad (s.ie e) = none)
    (hs : op.sig = true) : (s.ieOnce e op).hasEvent (eIE e) 4 = true := by
  rw [State.ieOnce_sig hb hs, State.hasEvent_congr (State.put_w_other _ _ _ _ (busy_addr_ne_evKey e))]
  exact State.hasEvent_latch _ _ _ (by decide) (State.quiet_setIe e _ hq)

theorem State.writesIe_ieOnce_sig {s : State} {e : Nat} {op : IeOp} (hq : s.quiet = true) (hb : op.bad (s.ie e) = none)
    (hs : op.sig = true) : s.writesIe (s.ieOnce e op) e (ieSignalWords e) := by
  rw [State.ieOnce_sig hb hs]
  exact State.writesIe_trans (State.writesIe_trans (s.writesIe_setIe e _ _)
    (State.writesIe_latch e 4 (State.quiet_setIe e _ hq) (by simp [ieSignalWords])))
    (State.writesIe_put _ e _ (by simp [ieSignalWords, Fld.pg, R.IE_S_BULK_BUSY, R.IE_S_STATE]))

/-- Settles O25: each instruction in sequence, and what it leaves in place. -/
theorem ieComparesAndMoves : Obligations.IeComparesAndMoves := by
  unfold Obligations.IeComparesAndMoves
  refine ⟨?cmp, ?cmpi, ?ldi, ?lui, ?moda, ?mvta, ?mvfa, ?flag, ?signal, ?nop⟩
  case cmp => exact fun s e i rs rt hi hp => gives_compare (x := fun i => i.val rs - i.val rt) hi hp rfl
  case cmpi => exact fun s e i rs imm hi hp => gives_compare (x := fun i => i.val rs - imm.toInt) hi hp rfl
  case ldi => exact fun s e i rd imm hi hp => gives_ieS (fun _ j => j.setReg rd (imm.signExtend 32)) hi hp (IeSt.inPlace_setReg _ _ _) rfl
  case lui =>
    intro s e i rd imm hi hp
    have himm : w32 (imm.toNat * 2 ^ 16) = imm.zeroExtend 32 <<< 16 := by
      apply BitVec.eq_of_toNat_eq
      simp [w32, BitVec.toNat_shiftLeft, Nat.shiftLeft_eq]
    rw [← himm]
    exact gives_ieS (fun _ j => j.setReg rd (w32 (imm.toNat * 2 ^ 16))) hi hp (IeSt.inPlace_setReg _ _ _) rfl
  case moda =>
    intro s e i ai md hi hp
    have hpost : (if md.val = 0 then i.land else i.land.setSpec (spA ai) (i.addr ai (i.modStep ai md))) =
        if md.val = 0 then i.land else i.land.setSpec (spA ai) (i.postMod ai md) :=
      ite_congr rfl (fun _ => rfl) fun h => by rw [IeSt.postMod, if_neg h]
    rw [hpost]
    exact gives_ieS (fun i j => if md.val = 0 then j else j.setSpec (spA ai) (i.postMod ai md)) hi hp (IeSt.inPlace_step _ _ _ _) rfl
  case mvta => exact fun s e i k rs hi hp => gives_ieS (fun i j => j.writeSpec k (i.reg rs).toNat) hi hp (IeSt.inPlace_writeSpec _ _ _) rfl
  case mvfa => exact fun s e i rd k hi hp => gives_ieS (fun i j => j.setReg rd (i.readSpec e k)) hi hp (IeSt.inPlace_setReg _ _ _) rfl
  case flag =>
    rintro s e i st cl rfl hp
    refine gives_follows (op := ieFlagOp false st cl) rfl hp ?_ rfl rfl
    exact IeSt.inPlace_setSpec _ _ (by decide)
  case signal =>
    rintro s e i st cl hq rfl hp
    have hq' := State.quiet_pcShow e hq
    refine (gives_ieIssue (op := ieFlagOp true st cl) rfl hp ?place (by simp [ieSignalWords]) (State.writesIe_ieOnce_sig hq' rfl rfl)).mono
      fun t ⟨hf, ⟨hk, hr, _⟩, hon⟩ => ⟨?_, hf, hk, hr⟩
    case place => exact IeSt.inPlace_setSpec _ _ (by decide)
    rw [State.hasEvent_congr (hon _ (by simp))]
    exact State.hasEvent_ieOnce_sig hq' rfl rfl
  case nop => exact fun s e i hi hp => gives_ieS (fun _ j => j) hi hp (IeSt.InPlace.refl _) rfl

end Sys2Proof.Machine
end

section
/-! Loads and stores of the insert engines (10_insert_engines R306, R322, R330). -/

namespace Sys2Proof.Machine

/-- LD (R322). -/
def ieLdOp (rd : Fin 16) (ai : Fin 8) (md : Fin 4) (disp : BitVec 16) : IeOp where
  run i j :=
    let l := { j with ld := some (rd.val, i.load (i.addr ai disp.toInt)) }
    if md.val = 0 then l else l.setSpec (spA ai) (i.postMod ai md)
  bad i := if badLoad (i.addr ai disp.toInt) then some (i.addr ai disp.toInt) else none
  hazard := true

/-- ST (R322). -/
def ieStOp (rs : Fin 16) (ai : Fin 8) (md : Fin 4) (disp : BitVec 16) : IeOp where
  run i j :=
    let l := j.store (i.addr ai disp.toInt) (i.reg rs)
    if md.val = 0 then l else l.setSpec (spA ai) (i.postMod ai md)
  bad i := if badStore (i.addr ai disp.toInt) then some (i.addr ai disp.toInt) else none

/-! Loads and stores of one engine. -/

theorem IeSt.load_of_bad (i : IeSt) {a : Nat} (h : badLoad a = true) : i.load a = 0 := by
  simp only [badLoad, Bool.not_eq_true', Bool.or_eq_false_iff, Bool.and_eq_false_iff, decide_eq_false_iff_not] at h
  unfold IeSt.load
  split_ifs
  case neg => rfl
  all_goals omega

theorem IeSt.store_of_bad (i : IeSt) {a : Nat} (v : Word) (h : badStore a = true) : i.store a v = i := by
  simp only [badStore, Bool.not_eq_true', Bool.or_eq_false_iff, Bool.and_eq_false_iff, decide_eq_false_iff_not] at h
  rw [IeSt.store, if_neg (by omega), if_neg (by omega), if_neg (by omega), if_neg (by omega)]

theorem IeSt.load_data (i : IeSt) {a : Nat} (h : a < 0x10000) : i.load a = tget zeroAt i.dm a := if_pos h

theorem IeSt.store_data (i : IeSt) {a : Nat} (v : Word) (h : a < 0x10000) : i.store a v = { i with dm := tset zeroAt i.dm a v } := if_pos h

theorem IeSt.bulkGo_io (i : IeSt) : ∃ b r, i.bulkGo = { i with bulk := b, run := r } := by
  simp only [IeSt.bulkGo]
  split_ifs
  all_goals exact ⟨_, _, rfl⟩

/-- Outside data memory a store reaches the outbox and the bulk words alone. -/
theorem IeSt.store_io (i : IeSt) {a : Nat} (v : Word) (h : ¬a < 0x10000) :
    ∃ o b r, i.store a v = { i with outBox := o, bulk := b, run := r } := by
  by_cases hgo : a = 0x10803 ∧ bitOf v.toNat 31 = true
  · obtain ⟨rfl, hv⟩ := hgo
    obtain ⟨b, r, hb⟩ := (i.setBulk 3 (v.toNat % 2 ^ 31)).bulkGo_io
    exact ⟨i.outBox, b, r, by simp only [IeSt.store, hv]; exact hb⟩
  · rw [IeSt.store, if_neg h]
    split
    · exact ⟨_, _, _, rfl⟩
    split
    · split <;> exact ⟨_, _, _, rfl⟩
    split
    · next ha =>
      rw [if_neg fun hv => hgo ⟨ha, hv⟩]
      exact ⟨_, _, _, rfl⟩
    · exact ⟨_, _, _, rfl⟩

theorem IeSt.store_dm (i : IeSt) {a : Nat} (v : Word) (h : ¬a < 0x10000) : (i.store a v).dm = i.dm := by
  obtain ⟨o, b, r, hs⟩ := i.store_io v h
  rw [hs]

theorem IeSt.inPlace_store (i : IeSt) (a : Nat) (v : Word) : i.InPlace (i.store a v) := by
  by_cases h : a < 0x10000
  · rw [i.store_data v h]; exact ⟨rfl, rfl, rfl, rfl⟩
  · obtain ⟨o, b, r, hs⟩ := i.store_io v h
    rw [hs]; exact ⟨rfl, rfl, rfl, rfl⟩

/-! A bad address. -/

/-- The words of an engine that an instruction with a bad address may change. -/
def ieBadWords (e : Nat) : List Nat :=
  [(R.IE_S_STATE.pg e).addr, (R.IE_PC_PC.pg e).addr, evKey (eIE e), (R.IE_BAD_ADDR_ADDR.pg e).addr]

theorem State.ieOnce_bad {s : State} {e a : Nat} {op : IeOp} (hb : op.bad (s.ie e) = some a) (hs : op.sig = false) :
    s.ieOnce e op =
      ((s.noteBad e (some a)).setIe e fun i => i.executed op).put (R.IE_S_BULK_BUSY.pg e) (b2n ((s.ie e).executed op).busy) := by
  have hoff : ∀ u : State, u.onlyIf false (·.latch (eIE e) 4) = u := fun _ => rfl
  rw [State.ieOnce_eq, hb, hs, hoff, State.ie_setIe_same, State.putB_eq, State.ie_noteBad]

/-- The address and the PC of the instruction, before the event. -/
def State.badAt (s : State) (e a : Nat) : State := (s.put (R.IE_BAD_ADDR_PC.pg e) (s.ie e).pc).put (R.IE_BAD_ADDR_ADDR.pg e) a

theorem State.noteBad_some (s : State) (e a : Nat) : s.noteBad e (some a) = (s.badAt e a).latch (eIE e) 5 := rfl

theorem State.writesIe_badAt (s : State) (e a : Nat) : s.writesIe (s.badAt e a) e (ieBadWords e) :=
  State.writesIe_trans (s.writesIe_put e _ (by simp [ieBadWords, Fld.pg, R.IE_BAD_ADDR_PC, R.IE_BAD_ADDR_ADDR]))
    (State.writesIe_put _ e _ (by simp [ieBadWords]))

theorem State.quiet_badAt {s : State} (e : Fin 8) (a : Nat) (hq : s.quiet = true) : (s.badAt e a).quiet = true := by
  have h0 : ∀ u : State, u.quiet = true → ∀ f v, (f = R.IE_BAD_ADDR_PC ∨ f = R.IE_BAD_ADDR_ADDR) → (u.put (f.pg e) v).quiet = true := by
    rintro u hu f v (rfl | rfl)
    all_goals exact State.quiet_of_keeps (u.keeps_put _ v) (by simp [Fld.pg, R.IE_BAD_ADDR_PC, R.IE_BAD_ADDR_ADDR]; omega) hu
  exact h0 _ (h0 _ hq _ _ (.inl rfl)) _ _ (.inr rfl)

theorem State.get_badAt (s : State) (e a : Nat) :
    (s.badAt e a).get (R.IE_BAD_ADDR_ADDR.pg e) = a % 2 ^ 17 ∧ (s.badAt e a).get (R.IE_BAD_ADDR_PC.pg e) = (s.ie e).pc % 2 ^ 14 := by
  constructor
  · exact State.get_put_pg_same _ R.IE_BAD_ADDR_ADDR e _ (by decide) (by decide)
  · exact (State.get_put_pg_other _ R.IE_BAD_ADDR_ADDR R.IE_BAD_ADDR_PC e a (by decide) (by decide)).trans
      (State.get_put_pg_same _ R.IE_BAD_ADDR_PC e _ (by decide) (by decide))

theorem State.writesIe_ieOnce_bad {s : State} {e : Fin 8} {a : Nat} {op : IeOp} (hq : s.quiet = true) (hb : op.bad (s.ie e) = some a)
    (hs : op.sig = false) : s.writesIe (s.ieOnce e op) e (ieBadWords e) := by
  rw [State.ieOnce_bad hb hs, State.noteBad_some]
  exact State.writesIe_trans (s.writesIe_badAt e a) (State.writesIe_trans
    (State.writesIe_latch e 5 (State.quiet_badAt e a hq) (by simp [ieBadWords]))
    (State.writesIe_trans (State.writesIe_setIe _ e _ _)
      (State.writesIe_put _ e _ (by simp [ieBadWords, Fld.pg, R.IE_S_BULK_BUSY, R.IE_S_STATE]))))

/-- What an execution with a bad address leaves on record. -/
theorem State.record_ieOnce_bad {s : State} {e : Fin 8} {a : Nat} {op : IeOp} (hq : s.quiet = true) (hb : op.bad (s.ie e) = some a)
    (hs : op.sig = false) :
    (s.ieOnce e op).hasEvent (eIE e) 5 = true ∧ (s.ieOnce e op).get (R.IE_BAD_ADDR_ADDR.pg e) = a % 2 ^ 17 ∧
      (s.ieOnce e op).get (R.IE_BAD_ADDR_PC.pg e) = (s.ie e).pc % 2 ^ 14 := by
  have hq' := State.quiet_badAt e a hq
  obtain ⟨haddr, hpc⟩ := s.get_badAt e a
  rw [State.ieOnce_bad hb hs, State.noteBad_some]
  refine ⟨?_, ?_, ?_⟩
  · rw [State.hasEvent_congr (State.put_w_other _ _ _ _ (busy_addr_ne_evKey e))]
    exact State.hasEvent_latch _ _ _ (by decide) hq'
  · rw [State.get_put_pg_other _ _ _ _ _ (by decide) (by decide), State.get_setIe,
      State.get_latch _ _ hq' (by simp [Fld.pg, R.IE_BAD_ADDR_ADDR]), haddr]
  · rw [State.get_put_pg_other _ _ _ _ _ (by decide) (by decide), State.get_setIe,
      State.get_latch _ _ hq' (by simp [Fld.pg, R.IE_BAD_ADDR_PC]), hpc]

/-- An instruction in sequence with a bad address. -/
theorem gives_bad {c : Instr} {s : State} {e : Fin 8} {a : Nat} {i : IeSt} {op : IeOp} (hq : s.quiet = true) (hi : s.ie e = i)
    (hp : s.plainIssue e = true) (hst : op.staysAt i) (hb : op.bad i = some a) (hs : op.sig = false)
    (hx : exec c s = done (s.ieIssue e op)) :
    Gives c s fun t => t.hasEvent (eIE e) 5 = true ∧ t.get (R.IE_BAD_ADDR_ADDR.pg e) = a % 2 ^ 17 ∧
      t.get (R.IE_BAD_ADDR_PC.pg e) = i.pc % 2 ^ 14 ∧ i.follows (t.ie e) (op.run i i.land) op.hazard ∧
      s.keeps t (ieBadWords e) ∧ t = { s.regsOf t with ies := t.ies } := by
  subst hi
  have hq' := State.quiet_pcShow e hq
  obtain ⟨hev, haddr, hpc⟩ := State.record_ieOnce_bad (s := s.pcShow e) hq' hb hs
  refine (gives_ieIssue hx hp hst (by simp [ieBadWords]) (State.writesIe_ieOnce_bad hq' hb hs)).mono
    fun t ⟨hf, ⟨hk, hr, _⟩, hon⟩ => ⟨?_, ?_, ?_, hf, hk, hr⟩
  · rw [State.hasEvent_congr (hon _ (by simp)), hev]
  · rw [State.keeps_get hon _ (by simp), haddr]
  · rw [State.keeps_get hon _ (by simp), hpc]; rfl

/-! The two instructions. -/

theorem staysAt_ieLdOp (rd : Fin 16) (ai : Fin 8) (md : Fin 4) (disp : BitVec 16) (i : IeSt) : (ieLdOp rd ai md disp).staysAt i :=
  IeSt.InPlace.trans (j := { i.land with ld := some (rd.val, i.load (i.addr ai disp.toInt)) }) ⟨rfl, rfl, rfl, rfl⟩ (IeSt.inPlace_step _ _ _ _)

theorem staysAt_ieStOp (rs : Fin 16) (ai : Fin 8) (md : Fin 4) (disp : BitVec 16) (i : IeSt) : (ieStOp rs ai md disp).staysAt i :=
  (IeSt.inPlace_store _ _ _).trans (IeSt.inPlace_step _ _ _ _)

/-- A store's data memory, as the next instruction finds it. -/
theorem IeSt.follows.dm_store {i j : IeSt} {a : Nat} {v : Word} {b : Bool} {p : Prop} [Decidable p] {k n : Nat}
    (h : i.follows j (if p then i.land.store a v else (i.land.store a v).setSpec k n) b) : j.dm = (i.land.store a v).dm := by
  rw [h.1]
  split <;> rfl

/-- Settles O26: an address in the data space, and one outside it. -/
theorem ieLoadsAndStores : Obligations.IeLoadsAndStores := by
  unfold Obligations.IeLoadsAndStores
  refine ⟨?load, ?store, ?badLoad, ?badStore⟩
  case load =>
    rintro s e i rd ai md disp rfl hp hb
    exact gives_follows (op := ieLdOp rd ai md disp) rfl hp (staysAt_ieLdOp _ _ _ _ _) (if_neg (by simpa using hb)) rfl
  case store =>
    rintro s e i rs ai md disp rfl hp hb
    refine (gives_follows (op := ieStOp rs ai md disp) rfl hp (staysAt_ieStOp _ _ _ _ _) (if_neg (by simpa using hb)) rfl).mono
      fun t ⟨hf, ho⟩ => ⟨fun ha => ?_, fun a hne ha => ?_, hf, ho⟩
    · rw [IeSt.load_data _ ha, IeSt.follows.dm_store hf, IeSt.store_data _ _ ha]
      exact tget_tset_same _ _ _ _
    · rw [IeSt.load_data _ ha, IeSt.load_data _ ha, IeSt.follows.dm_store hf]
      by_cases hd : (s.ie e).addr ai disp.toInt < 0x10000
      · rw [IeSt.store_data _ _ hd]
        exact (tget_tset_other _ _ _ _ _ hne).trans (by rw [IeSt.land_dm])
      · rw [IeSt.store_dm _ _ hd, IeSt.land_dm]
  case badLoad =>
    intro s e i rd ai disp hq hi hp hb
    refine (gives_bad (op := ieLdOp rd ai 0 disp) hq hi hp (staysAt_ieLdOp _ _ _ _ _) (if_pos hb) rfl rfl).mono
      fun t ⟨hev, haddr, hpc, hf, hk, hr⟩ => ⟨hev, haddr, hpc, ?_, hk, hr⟩
    have hzero : i.load (i.addr ai disp.toInt) = 0 := i.load_of_bad hb
    rw [← hzero]
    exact hf
  case badStore =>
    intro s e i rs ai disp hq hi hp hb
    refine (gives_bad (op := ieStOp rs ai 0 disp) hq hi hp (staysAt_ieStOp _ _ _ _ _) (if_pos hb) rfl rfl).mono
      fun t ⟨hev, haddr, hpc, hf, hk, hr⟩ => ⟨hev, haddr, hpc, ?_, hk, hr⟩
    have hsame : i.land.store (i.addr ai disp.toInt) (i.reg rs) = i.land := i.land.store_of_bad _ hb
    rw [← hsame]
    exact hf

end Sys2Proof.Machine
end

section
/-! Branches, repetitions and loops of the insert engines (10_insert_engines R317–R319). -/

namespace Sys2Proof.Machine

/-! The branch class. -/

/-- The engine after an instruction of the branch class that gives q. -/
def IeSt.taken (i : IeSt) (q : IeSt × Nat × IeAct) : IeSt :=
  (IeSt.setSpec
    { i.land with rep := q.1.rep, loops := q.1.loops, hazard := false, slots := q.2.1, act := q.2.2, pc := (i.pc + 1) % 2 ^ 14 }
    spRA (q.1.spec spRA)).setSpec spCYC ((i.spec spCYC + 1) % 2 ^ 18)

theorem State.ieBranch_plain {s : State} {e : Nat} {f : IeSt → Nat ⊕ (IeSt × Nat × IeAct)} {q : IeSt × Nat × IeAct}
    (hp : s.plainIssue e = true) (hf : f (s.ie e) = .inr q) :
    s.ieBranch e f = (s.pcShow e).setIe e fun i => i.taken q := by
  obtain ⟨hi, hsl, hrep, hlo⟩ := (s.plainIssue_iff e).mp hp
  have hend : (s.ie e).atEnd = false := by rw [IeSt.atEnd, hlo]; rfl
  simp only [State.ieBranch, hi, hsl, hrep, hend, hf, Bool.not_true, Bool.false_eq_true, if_false, ne_eq, not_true, or_self]
  rfl

theorem IeSt.branched_taken (i : IeSt) (q : IeSt × Nat × IeAct) :
    i.branched (i.taken q) q.2.1 q.2.2 q.1.rep q.1.loops (q.1.spec spRA) := by
  refine ⟨rfl, fun k hr hc => ?_, ?_, IeSt.spec_setSpec_same _ _ _⟩
  · exact (IeSt.spec_setSpec_other _ _ hc).trans (IeSt.spec_setSpec_other _ _ hr)
  · exact (IeSt.spec_setSpec_other _ _ (by decide)).trans (IeSt.spec_setSpec_same _ _ _)

/-- An instruction of the branch class in sequence. -/
theorem gives_branched {c : Instr} {s : State} {e slots rep ra : Nat} {act : IeAct} {loops : List (Nat × Nat × Nat)} {i j : IeSt}
    {f : IeSt → Nat ⊕ (IeSt × Nat × IeAct)} (hi : s.ie e = i) (hp : s.plainIssue e = true) (hf : f i = .inr (j, slots, act))
    (hrep : j.rep = rep) (hloops : j.loops = loops) (hra : j.spec spRA = ra) (hx : exec c s = done (s.ieBranch e f)) :
    Gives c s fun t => i.branched (t.ie e) slots act rep loops ra ∧ s.ieOnly t e := by
  subst hi hrep hloops hra
  rw [State.ieBranch_plain hp hf] at hx
  refine gives_done hx ⟨?_, State.ieOnly_of_writesIe ?_ ?_⟩
  · rw [State.ie_settle, State.ie_setIe_same]
    exact IeSt.branched_taken _ (j, slots, act)
  · exact State.writesIe_settle (State.writesIe_trans (s.writesIe_pcShow e) (State.writesIe_setIe _ _ _ _))
  · rw [State.ieState_settle]
    exact s.ieState_pcShow e

theorem State.plain_rep {s : State} {e : Nat} {i : IeSt} (hi : s.ie e = i) (hp : s.plainIssue e = true) : i.rep = 0 ∧ i.loops = [] := by
  obtain ⟨-, -, hrep, hlo⟩ := (s.plainIssue_iff e).mp hp
  subst hi
  exact ⟨hrep, hlo⟩

/-- A branch with two delay slots that keeps the return address. -/
theorem gives_jump {c : Instr} {s : State} {e : Nat} {act : IeSt → IeAct} {i : IeSt} (hi : s.ie e = i) (hp : s.plainIssue e = true)
    (hx : exec c s = done (s.ieBranch e fun i => .inr (i, 2, act i))) :
    Gives c s fun t => i.branched (t.ie e) 2 (act i) 0 [] (i.land.spec spRA) ∧ s.ieOnly t e := by
  obtain ⟨hrep, hlo⟩ := State.plain_rep hi hp
  exact gives_branched hi hp rfl hrep hlo (i.spec_land (by decide)).symm hx

theorem count12_toNat (n : BitVec 12) : count12 n.toNat = if n = 0 then 4096 else n.toNat := by
  have hn : n.toNat % 4096 = n.toNat := Nat.mod_eq_of_lt n.isLt
  have h0 : n.toNat = 0 ↔ n = 0 := by rw [← BitVec.toNat_inj]; rfl
  simp only [count12, hn, h0]

/-- A loop whose last instruction is not before its first opens, where no other is open. -/
theorem IeSt.loop_of_nil {i : IeSt} {n last : Nat} (hlo : i.loops = []) (h : (i.pc + 1) % 2 ^ 14 ≤ last) :
    i.loop n last = .inr ({ i with loops := [((i.pc + 1) % 2 ^ 14, last, count12 n)] }, 0, .seq) := by
  simp only [IeSt.loop, hlo, List.length_nil, if_neg (Nat.not_lt.mpr h)]
  rfl

/-- Opening a loop. -/
theorem gives_loop {c : Instr} {s : State} {e last : Nat} {n : IeSt → Nat} {i : IeSt} (hi : s.ie e = i) (hp : s.plainIssue e = true)
    (h : (i.pc + 1) % 2 ^ 14 ≤ last) (hx : exec c s = done (s.ieBranch e fun i => i.loop (n i) last)) :
    Gives c s fun t => i.branched (t.ie e) 0 .seq 0 [((i.pc + 1) % 2 ^ 14, last, count12 (n i))] (i.land.spec spRA) ∧ s.ieOnly t e := by
  obtain ⟨hrep, hlo⟩ := State.plain_rep hi hp
  exact gives_branched (j := { i with loops := [((i.pc + 1) % 2 ^ 14, last, count12 (n i))] }) hi hp (IeSt.loop_of_nil hlo h) hrep rfl
    (i.spec_land (by decide)).symm hx

/-! A NOP that is repeated, ends a loop or stands in a delay slot. -/

/-- NOP. -/
def ieNopOp : IeOp := ieS fun _ j => j

@[simp] theorem IeSt.executed_nop (i : IeSt) :
    i.executed ieNopOp = ({ i.land with hazard := false } : IeSt).setSpec spCYC ((i.land.spec spCYC + 1) % 2 ^ 18) := rfl

/-- The state after the execution of a NOP, with the repetitions left. -/
def State.nopped (s : State) (e : Nat) : State := ((s.pcShow e).ieOnce e ieNopOp).setIe e fun j => { j with rep := (s.ie e).rep - 1 }

theorem State.ie_nopped (s : State) (e : Nat) :
    ((s.nopped e).ie e).pc = (s.ie e).pc ∧ ((s.nopped e).ie e).slots = (s.ie e).slots ∧ ((s.nopped e).ie e).loops = (s.ie e).loops ∧
      ((s.nopped e).ie e).act = (s.ie e).act ∧ ((s.nopped e).ie e).rep = (s.ie e).rep - 1 := by
  have h : (s.nopped e).ie e = { (s.ie e).executed ieNopOp with rep := (s.ie e).rep - 1 } := by
    rw [State.nopped, State.ie_setIe_same, State.ie_ieOnce, State.ie_pcShow]
  rw [h]
  exact ⟨(s.ie e).land_pc, (s.ie e).land_slots, (s.ie e).land_loops, (s.ie e).land_act, rfl⟩

/-- A NOP outside the delay slots of a branch, or in those of one outside a loop: what the engine is then, and that nothing else changes. -/
theorem gives_nop {s t : State} {e : Fin 8} {P : IeSt → Prop} (hi : s.ieIssues e = true) (h : (s.ie e).slots = 0 ∨ (s.ie e).loops = [])
    (ht : (if 1 < (s.ie e).rep then s.nopped e else (s.nopped e).ieNext e) = t) (hw : (s.nopped e).writesIe t e []) (hP : P (t.ie e)) :
    Gives (.ieNop e) s fun t => P (t.ie e) ∧ s.ieOnly t e := by
  have hx : exec (.ieNop e) s = done t := by
    rw [← ht]
    exact congrArg done (State.ieIssue_of_slots hi h)
  have hw' : ((s.pcShow e).ieOnce e ieNopOp).writesIe t e [] := State.writesIe_trans (State.writesIe_setIe _ _ _ _) hw
  refine gives_done hx ⟨by rwa [State.ie_settle], State.ieOnly_of_writesIe ?_ ?_⟩
  · exact State.writesIe_settle (State.writesIe_trans (s.writesIe_pcShow e)
      (State.writesIe_trans (State.writesIe_ieOnce rfl rfl) ⟨State.keeps_mono hw'.1 (by simp), hw'.2⟩))
  · exact State.ieState_issued (op := ieNopOp) rfl rfl (State.keeps_settle hw'.1)

/-- At the end of a loop: the loops decide. -/
theorem gives_nop_end {s : State} {e : Fin 8} {i : IeSt} {a : Option Nat} {l : List (Nat × Nat × Nat)} (hi : s.ie e = i)
    (hiss : s.ieIssues e = true) (hsl : i.slots = 0) (hrep : i.rep = 0) (hl : loopTest i.pc i.loops = (a, l)) :
    Gives (.ieNop e) s fun t => (t.ie e).pc = a.getD ((i.pc + 1) % 2 ^ 14) ∧ (t.ie e).loops = l ∧ s.ieOnly t e := by
  subst hi
  obtain ⟨hpc, hslots, hloops, -, -⟩ := s.ie_nopped e
  have hnext := State.ieNext_of_slots (hslots.trans hsl)
  rw [hpc, hloops, hl] at hnext
  refine (gives_nop (P := fun j => j.pc = a.getD (((s.ie e).pc + 1) % 2 ^ 14) ∧ j.loops = l) hiss (.inl hsl)
    (by rw [hrep]; exact hnext) (State.writesIe_setIe _ _ _ _) ?_).mono fun t ⟨⟨hp, hlo⟩, ho⟩ => ⟨hp, hlo, ho⟩
  rw [State.ie_setIe_same, hpc]
  exact ⟨rfl, rfl⟩

/-! A fault. -/

/-- The engine and its page as a fault leaves them, before the event (R336). -/
def State.faulted (s : State) (e cause : Nat) : State :=
  State.putIeState (((((s.setIe e fun i => { i.drain with handlers := [] }).handlerShow e).put (R.IE_FAULT_INFO_PC.pg e) (s.ie e).pc).put
    (R.IE_FAULT_INFO_CAUSE.pg e) cause)) e ieFault

theorem State.ieFaults_eq (s : State) (e cause : Nat) : s.ieFaults e cause = (s.faulted e cause).latch (eIE e) 1 := rfl

/-- The words of an engine that a fault may change. -/
def ieFaultWords (e : Nat) : List Nat := [(R.IE_S_STATE.pg e).addr, (R.IE_FAULT_INFO_PC.pg e).addr, evKey (eIE e), (R.IE_PC_PC.pg e).addr]

theorem State.writesIe_faulted (s : State) (e cause : Nat) :
    s.writesIe (s.faulted e cause) e [(R.IE_S_STATE.pg e).addr, (R.IE_FAULT_INFO_PC.pg e).addr] := by
  have hput := fun (u : State) (f : Fld) (v : Nat) (h : (f.pg e).addr ∈ [(R.IE_S_STATE.pg e).addr, (R.IE_FAULT_INFO_PC.pg e).addr]) =>
    u.writesIe_put e v h
  exact State.writesIe_trans (State.writesIe_trans (State.writesIe_trans (State.writesIe_trans (s.writesIe_setIe e _ _)
    (hput _ R.IE_S_HANDLER _ (by simp [Fld.pg, R.IE_S_HANDLER, R.IE_S_STATE])))
    (hput _ R.IE_FAULT_INFO_PC _ (by simp))) (hput _ R.IE_FAULT_INFO_CAUSE _ (by simp [Fld.pg, R.IE_FAULT_INFO_CAUSE, R.IE_FAULT_INFO_PC])))
    (hput _ R.IE_S_STATE _ (by simp))

theorem State.quiet_faulted {s : State} {e : Fin 8} (cause : Nat) (hq : s.quiet = true) : (s.faulted e cause).quiet = true :=
  State.quiet_of_keeps (s.writesIe_faulted e cause).1 (by simp [Fld.pg, R.IE_S_STATE, R.IE_FAULT_INFO_PC]; omega) hq

theorem State.get_faulted (s : State) (e cause : Nat) :
    (s.faulted e cause).ieState e = ieFault ∧ (s.faulted e cause).get (R.IE_FAULT_INFO_CAUSE.pg e) = cause % 2 ^ 3 ∧
      (s.faulted e cause).get (R.IE_FAULT_INFO_PC.pg e) = (s.ie e).pc % 2 ^ 14 := by
  refine ⟨State.get_put_pg_same _ R.IE_S_STATE e _ (by decide) (by decide), ?_, ?_⟩
  · exact (State.get_put_pg_other _ R.IE_S_STATE R.IE_FAULT_INFO_CAUSE e _ (by decide) (by decide)).trans
      (State.get_put_pg_same _ R.IE_FAULT_INFO_CAUSE e _ (by decide) (by decide))
  · exact (State.get_put_pg_other _ R.IE_S_STATE R.IE_FAULT_INFO_PC e _ (by decide) (by decide)).trans
      ((State.get_put_pg_other _ R.IE_FAULT_INFO_CAUSE R.IE_FAULT_INFO_PC e _ (by decide) (by decide)).trans
      (State.get_put_pg_same _ R.IE_FAULT_INFO_PC e _ (by decide) (by decide)))

/-- A fault: the state of the engine, its cause and PC on record, the event. -/
theorem State.ieFaults_spec {s : State} {e : Fin 8} (cause : Nat) (hq : s.quiet = true) :
    (s.ieFaults e cause).ieState e = ieFault ∧ (s.ieFaults e cause).get (R.IE_FAULT_INFO_CAUSE.pg e) = cause % 2 ^ 3 ∧
      (s.ieFaults e cause).get (R.IE_FAULT_INFO_PC.pg e) = (s.ie e).pc % 2 ^ 14 ∧ (s.ieFaults e cause).hasEvent (eIE e) 1 = true := by
  obtain ⟨hst, hc, hpc⟩ := s.get_faulted e cause
  have hq' := State.quiet_faulted (e := e) cause hq
  rw [State.ieFaults_eq]
  refine ⟨?_, ?_, ?_, State.hasEvent_latch _ _ _ (by decide) hq'⟩
  · exact (State.get_latch _ _ hq' (by simp [Fld.pg, R.IE_S_STATE])).trans hst
  · exact (State.get_latch _ _ hq' (by simp [Fld.pg, R.IE_FAULT_INFO_CAUSE])).trans hc
  · exact (State.get_latch _ _ hq' (by simp [Fld.pg, R.IE_FAULT_INFO_PC])).trans hpc

/-- Settles O28: the branch class in sequence, NOP where something else stands, and a branch in a delay slot. -/
theorem ieBranches : Obligations.IeBranches := by
  unfold Obligations.IeBranches
  refine ⟨?br, ?call, ?ret, ?reti, ?done, ?rep, ?repr, ?loop, ?loopr, ?repeated, ?goBack, ?goOn, ?slot, ?fault⟩
  case br => exact fun s e i cc tg hi hp => gives_jump (act := fun i => if i.cond cc then .jump tg.toNat true else .seq) hi hp rfl
  case call =>
    intro s e i cc tg hi hp
    obtain ⟨hrep, hlo⟩ := State.plain_rep hi hp
    cases hc : i.cond cc
    · exact gives_branched hi hp (by rw [hc]; rfl) hrep hlo rfl rfl
    · exact gives_branched (j := i.setSpec spRA ((i.pc + 3) % 2 ^ 14)) hi hp (by rw [hc]; rfl) hrep hlo (IeSt.spec_setSpec_same _ _ _) rfl
  case ret => exact fun s e i cc hi hp => gives_jump (act := fun i => if i.cond cc then .jump (i.spec spRA) false else .seq) hi hp rfl
  case reti => exact fun s e i hi hp => gives_jump (act := fun _ => .reti) hi hp rfl
  case done => exact fun s e i hi hp => gives_jump (act := fun _ => .done) hi hp rfl
  case rep =>
    intro s e i n hi hp
    rw [← count12_toNat]
    exact gives_branched (j := { i with rep := count12 n.toNat }) hi hp rfl rfl (State.plain_rep hi hp).2 (i.spec_land (by decide)).symm rfl
  case repr =>
    intro s e i rs hi hp
    exact gives_branched (j := { i with rep := count12 (i.reg rs).toNat }) hi hp rfl rfl (State.plain_rep hi hp).2
      (i.spec_land (by decide)).symm rfl
  case loop => exact fun s e i n last hi hp h => gives_loop (n := fun _ => n.toNat) hi hp h rfl
  case loopr => exact fun s e i rs last hi hp h => gives_loop (n := fun i => (i.reg rs).toNat) hi hp h rfl
  case repeated =>
    rintro s e i rfl hi hsl hrep
    obtain ⟨hpc, -, -, -, hr⟩ := s.ie_nopped e
    exact (gives_nop (P := fun j => j.rep = (s.ie e).rep - 1 ∧ j.pc = (s.ie e).pc) hi (.inl hsl) (if_pos hrep)
      (State.writesIe_refl _ _ _) ⟨hr, hpc⟩).mono fun t ⟨⟨hr, hp⟩, ho⟩ => ⟨hr, hp, ho⟩
  case goBack =>
    rintro s e i a b n hi hiss hsl hrep hl hpc hn
    exact gives_nop_end (a := some a) (l := [(a, b, n - 1)]) hi hiss hsl hrep (by rw [hl, hpc]; simp [loopTest, hn])
  case goOn =>
    rintro s e i a b hi hiss hsl hrep hl hpc
    exact gives_nop_end (a := none) hi hiss hsl hrep (by rw [hl, hpc]; simp [loopTest])
  case slot =>
    rintro s e i p r rfl hi hsl hrep hl hact
    obtain ⟨-, hs, hlo, ha, -⟩ := s.ie_nopped e
    obtain ⟨hie, hw⟩ := State.ieNext_of_jump (hs.trans hsl) (hlo.trans hl) (ha.trans hact)
    refine (gives_nop (P := fun j => j.pc = p ∧ j.slots = 0) hi (.inr hl) (by rw [hrep]; rfl) hw ?_).mono
      fun t ⟨⟨hp, hz⟩, ho⟩ => ⟨hp, hz, ho⟩
    rw [hie]
    exact ⟨rfl, rfl⟩
  case fault =>
    intro s e cc tg hq hi hsl
    obtain ⟨hst, hc, -, hev⟩ := State.ieFaults_spec (s := s.pcShow e) (e := e) 2 (State.quiet_pcShow e hq)
    have hx : exec (.ieBr e cc tg) s = done ((s.pcShow e).ieFaults e 2) := by
      refine congrArg done (?_ : s.ieBranch e _ = _)
      simp only [State.ieBranch, hi, Bool.not_true, Bool.false_eq_true, if_false, if_pos (Or.inl hsl)]
    refine gives_done hx ⟨?_, ?_, ?_⟩
    · rw [State.ieState_settle, hst]
    · rw [State.settle_get, hc]; rfl
    · rw [State.settle_hasEvent, hev]

end Sys2Proof.Machine
end

section
/-! Multiply and accumulate of the insert engines (10_insert_engines R322, R325, R326). -/

namespace Sys2Proof.Machine

/-! One accumulator. -/

theorem IeSt.accPut_eq (j : IeSt) (sat : Bool) (k : Nat) (x : Int) :
    j.accPut sat k x = { j with acc := tset zeroAt j.acc (k % 8) (sValue 72 sat x), av := j.av || ovfI 72 x } := rfl

theorem IeSt.accD_accPut_same (j : IeSt) (sat : Bool) (k : Nat) (x : Int) : (j.accPut sat k x).accD k = sValue 72 sat x :=
  tget_tset_same _ _ _ _

theorem IeSt.accD_accPut_other (j : IeSt) (sat : Bool) {k q : Nat} (x : Int) (h : q % 8 ≠ k % 8) : (j.accPut sat k x).accD q = j.accD q :=
  tget_tset_other _ _ _ _ _ h

theorem IeSt.inPlace_accPut (j : IeSt) (sat : Bool) (k : Nat) (x : Int) : j.InPlace (j.accPut sat k x) := ⟨rfl, rfl, rfl, rfl⟩

@[simp] theorem IeSt.accD_land (i : IeSt) (k : Nat) : i.land.accD k = i.accD k := by rw [IeSt.accD, IeSt.land_acc, IeSt.accD]

/-- An accumulator writer. -/
theorem gives_ieA {c : Instr} {s : State} {e : Nat} {i : IeSt} (op : IeSt → IeSt → IeSt) (hi : s.ie e = i) (hp : s.plainIssue e = true)
    (hst : i.land.InPlace (op i i.land)) (hx : exec c s = done (s.ieIssue e (ieA op))) :
    Gives c s fun t => i.follows (t.ie e) (op i i.land) true ∧ s.ieOnly t e := by
  subst hi
  exact gives_follows hx hp hst rfl rfl

theorem IeSt.follows.acc {i j l : IeSt} {b : Bool} (h : i.follows j l b) : (∀ q, j.accD q = l.accD q) ∧ j.av = l.av := by
  obtain ⟨hj, -, -⟩ := h
  rw [hj]
  exact ⟨fun _ => rfl, rfl⟩

/-- An instruction in sequence that writes one accumulator under the S rule. -/
theorem gives_acc {c : Instr} {s : State} {e : Nat} {i : IeSt} {sat : Bool} {k : Nat} {x : IeSt → Int} (hi : s.ie e = i)
    (hp : s.plainIssue e = true) (hx : exec c s = done (s.ieIssue e (ieA fun i j => j.accPut sat k (x i)))) :
    Gives c s fun t => (t.ie e).accD k = (if sat then satI 72 (x i) else sx 72 (tz 72 (x i))) ∧ (t.ie e).av = ovfI 72 (x i) ∧
      i.follows (t.ie e) { i.land with acc := tset zeroAt i.acc (k % 8) ((t.ie e).accD k), av := (t.ie e).av } true ∧ s.ieOnly t e := by
  refine (gives_ieA _ hi hp (IeSt.inPlace_accPut _ _ _ _) hx).mono fun t ⟨hf, ho⟩ => ?_
  obtain ⟨hacc, hav⟩ := hf.acc
  have hk : (t.ie e).accD k = sValue 72 sat (x i) := (hacc k).trans (IeSt.accD_accPut_same _ _ _ _)
  have hav' : (t.ie e).av = ovfI 72 (x i) := by
    rw [hav, IeSt.accPut_eq, IeSt.land_av, Bool.false_or]
  refine ⟨hk, hav', ?_, ho⟩
  rw [hk, hav, ← i.land_acc]
  exact hf

/-! Two accumulators. -/

/-- An even accumulator and the next. -/
def IeSt.accPut2 (j : IeSt) (sat : Bool) (k : Nat) (x y : Int) : IeSt := (j.accPut sat k x).accPut sat (k + 1) y

theorem IeSt.inPlace_accPut2 (j : IeSt) (sat : Bool) (k : Nat) (x y : Int) : j.InPlace (j.accPut2 sat k x y) := ⟨rfl, rfl, rfl, rfl⟩

/-- What two results leave of the accumulators that i has before they land. -/
theorem IeSt.acc_accPut2 (i : IeSt) (sat : Bool) {k : Nat} (x y : Int) (hk : k < 7) :
    (i.land.accPut2 sat k x y).accD k = sValue 72 sat x ∧ (i.land.accPut2 sat k x y).accD (k + 1) = sValue 72 sat y ∧
      (i.land.accPut2 sat k x y).av = (ovfI 72 x || ovfI 72 y) ∧
      ∀ q, q < 8 → q ≠ k → q ≠ k + 1 → (i.land.accPut2 sat k x y).accD q = i.accD q := by
  refine ⟨?_, IeSt.accD_accPut_same _ _ _ _, ?_, fun q hq h0 h1 => ?_⟩
  · exact (IeSt.accD_accPut_other _ _ _ (by omega)).trans (IeSt.accD_accPut_same _ _ _ _)
  · rw [IeSt.accPut2, IeSt.accPut_eq, IeSt.accPut_eq, IeSt.land_av, Bool.false_or]
  · exact (IeSt.accD_accPut_other _ _ _ (by omega)).trans ((IeSt.accD_accPut_other _ _ _ (by omega)).trans (i.accD_land q))

/-- Beside its special registers, j and l differ in accumulators and the flag on its way alone. -/
def IeSt.accOnly (j l : IeSt) : Prop := l = { j with sp := l.sp, acc := l.acc, av := l.av }

theorem IeSt.accOnly_accPut2 (j : IeSt) (sat : Bool) (k : Nat) (x y : Int) : j.accOnly (j.accPut2 sat k x y) := rfl

theorem IeSt.accOnly_accPut (j : IeSt) (sat : Bool) (k : Nat) (x : Int) : j.accOnly (j.accPut sat k x) := rfl

theorem IeSt.accOnly_sp {j l : IeSt} (h : j.accOnly l) {m : IeSt} (hm : m = { l with sp := m.sp }) : j.accOnly m := by
  unfold IeSt.accOnly at *
  rw [hm]
  rw [h]

theorem IeSt.accOnly_acc {j l : IeSt} (h : l = { j with acc := l.acc }) : j.accOnly l := by
  unfold IeSt.accOnly
  rw [h]

/-! Pointers of two operands. -/

theorem IeSt.spec_wrapPtr (j : IeSt) {p q : Nat} (h : q ≠ spA p) : (j.wrapPtr p).spec q = j.spec q := by
  unfold IeSt.wrapPtr
  split
  · rfl
  · exact IeSt.spec_setSpec_other _ _ h

/-- The pointer step of one operand, or none. -/
def IeSt.step (post pre : IeSt) (p md : Nat) : IeSt := if md = 0 then post else post.setSpec (spA p) (pre.postMod p md)

theorem IeSt.spec_step_same (post pre : IeSt) (p md : Nat) :
    (post.step pre p md).spec (spA p) = if md = 0 then post.spec (spA p) else pre.postMod p md := by
  unfold IeSt.step
  split
  · rfl
  · exact IeSt.spec_setSpec_same _ _ _

theorem IeSt.spec_step_other (post pre : IeSt) {p q : Nat} (md : Nat) (h : q ≠ spA p) : (post.step pre p md).spec q = post.spec q := by
  unfold IeSt.step
  split
  · rfl
  · exact IeSt.spec_setSpec_other _ _ h

theorem IeSt.post2_steps (pre post : IeSt) {ai mi aj mj : Nat} (h : ¬(ai = aj ∧ mi ≠ 0 ∧ mj ≠ 0)) :
    pre.post2 post ai mi aj mj = (post.step pre ai mi).step pre aj mj := if_neg h

theorem IeSt.spec_post2_other (pre post : IeSt) {ai mi aj mj q : Nat} (hi : q ≠ spA ai) (hj : q ≠ spA aj) :
    (pre.post2 post ai mi aj mj).spec q = post.spec q := by
  by_cases h : ai = aj ∧ mi ≠ 0 ∧ mj ≠ 0
  · rw [IeSt.post2, if_pos h, IeSt.spec_wrapPtr _ hi, IeSt.spec_setSpec_other _ _ hi]
  · rw [IeSt.post2_steps _ _ h, IeSt.spec_step_other _ _ _ hj, IeSt.spec_step_other _ _ _ hi]

/-- Special registers alone change. -/
theorem IeSt.post2_eq (pre post : IeSt) (ai mi aj mj : Nat) :
    pre.post2 post ai mi aj mj = { post with sp := (pre.post2 post ai mi aj mj).sp } := by
  simp only [IeSt.post2, IeSt.wrapPtr]
  split_ifs <;> rfl

/-- One pointer that is stepped at most once. -/
theorem IeSt.spec_post2_one (pre post : IeSt) {ai mi aj mj : Nat} (h : ai = aj) (hm : mi = 0 ∨ mj = 0) :
    (pre.post2 post ai mi aj mj).spec (spA ai) =
      if mi ≠ 0 then pre.postMod ai mi else if mj ≠ 0 then pre.postMod aj mj else post.spec (spA ai) := by
  subst h
  rw [IeSt.post2_steps _ _ (by tauto), IeSt.spec_step_same, IeSt.spec_step_same]
  by_cases hi : mi = 0 <;> by_cases hj : mj = 0 <;> simp [hi, hj]
  omega

/-- Two pointers. -/
theorem IeSt.spec_post2_two (pre post : IeSt) {ai mi aj mj : Nat} (h : ai ≠ aj) :
    (pre.post2 post ai mi aj mj).spec (spA ai) = (if mi = 0 then post.spec (spA ai) else pre.postMod ai mi) ∧
      (pre.post2 post ai mi aj mj).spec (spA aj) = if mj = 0 then post.spec (spA aj) else pre.postMod aj mj := by
  have hA : spA ai ≠ spA aj := h
  rw [IeSt.post2_steps _ _ (by tauto)]
  constructor
  · rw [IeSt.spec_step_other _ _ _ hA, IeSt.spec_step_same]
  · rw [IeSt.spec_step_same, IeSt.spec_step_other _ _ _ hA.symm]

/-- The pointers and XL after MXY and DMXY. -/
def IeSt.xyNext (i j : IeSt) (ai : Fin 8) (mi : Fin 4) (aj : Fin 8) (mj : Fin 4) : Prop :=
  (∀ q, q ≠ spXL → q ≠ spCYC → q ≠ spA ai → q ≠ spA aj → j.spec q = i.land.spec q) ∧
  j.spec spCYC = (i.land.spec spCYC + 1) % 2 ^ 18 ∧
  (ai = aj → mi.val = 0 ∨ mj.val = 0 → j.spec (spA ai) =
    if mi.val ≠ 0 then i.postMod ai mi else if mj.val ≠ 0 then i.postMod aj mj else i.land.spec (spA ai)) ∧
  j.spec spXL = (tget zeroAt i.dm (xAddr (i.spec (spA ai)))).toNat ∧
  (ai ≠ aj → j.spec (spA ai) = (if mi = 0 then i.land.spec (spA ai) else i.postMod ai mi) ∧
    j.spec (spA aj) = if mj = 0 then i.land.spec (spA aj) else i.postMod aj mj)

theorem spA_lt (p : Fin 8) : spA p < 8 := p.isLt

theorem IeSt.xyNext_of_follows {i j p : IeSt} {ai aj : Fin 8} {mi mj : Fin 4} (hsp : p.sp = i.land.sp)
    (h : i.follows j ((i.post2 p ai mi aj mj).setSpec spXL (tget zeroAt i.dm (xAddr (i.spec (spA ai)))).toNat) true) :
    i.xyNext j ai mi aj mj := by
  obtain ⟨-, hspec, hcyc⟩ := h
  have hp : ∀ q, p.spec q = i.land.spec q := fun q => by rw [IeSt.spec, hsp, IeSt.spec]
  have hlow : ∀ q, q ≠ spXL → q ≠ spCYC → j.spec q = (i.post2 p ai mi aj mj).spec q := fun q hx hc =>
    (hspec q hc).trans (IeSt.spec_setSpec_other _ _ hx)
  have hptr : ∀ a : Fin 8, j.spec (spA a) = (i.post2 p ai mi aj mj).spec (spA a) := fun a => by
    have := spA_lt a
    exact hlow _ (by unfold spXL; omega) (by unfold spCYC; omega)
  have hmi : (mi.val = 0) = (mi = 0) := by rw [Fin.ext_iff]; rfl
  have hmj : (mj.val = 0) = (mj = 0) := by rw [Fin.ext_iff]; rfl
  refine ⟨fun q hx hc hi hj => ?_, hcyc, fun he hm => ?_, ?_, fun hne => ?_⟩
  · rw [hlow q hx hc, IeSt.spec_post2_other _ _ hi hj, hp]
  · rw [hptr, IeSt.spec_post2_one _ _ (congrArg Fin.val he) hm, hp]
  · exact (hspec _ (by decide)).trans (IeSt.spec_setSpec_same _ _ _)
  · obtain ⟨h1, h2⟩ := IeSt.spec_post2_two i p (mi := mi.val) (mj := mj.val) (Fin.val_ne_of_ne hne)
    rw [hptr, hptr, h1, h2, hp, hp]
    simp only [hmi, hmj, and_self]

theorem IeSt.inPlace_post2 (pre post : IeSt) (ai aj : Fin 8) (mi mj v : Nat) :
    post.InPlace ((pre.post2 post ai mi aj mj).setSpec spXL v) := by
  have hi := spA_lt ai
  have hj := spA_lt aj
  refine IeSt.InPlace.trans (j := pre.post2 post ai mi aj mj) ⟨?_, ?_, ?_, ?_⟩ (IeSt.inPlace_setSpec _ _ (by decide))
  case refine_4 => exact IeSt.spec_post2_other _ _ (by unfold spCYC; omega) (by unfold spCYC; omega)
  all_goals rw [IeSt.post2_eq]

/-! What accumulating instructions say of the other accumulators. -/

theorem all_accD_one {i j : IeSt} {k : Fin 8} (h : ∀ q, q % 8 ≠ k.val % 8 → j.accD q = i.accD q) :
    ((List.range 8).all fun q => q == k.val || j.accD q == i.accD q) = true := by
  simp only [List.all_eq_true, List.mem_range, Bool.or_eq_true, beq_iff_eq]
  intro q hq
  by_cases hk : q = k.val
  · exact .inl hk
  · exact .inr (h q (by omega))

theorem all_accD_two {i j : IeSt} {k : Nat} (h : ∀ q, q < 8 → q ≠ k → q ≠ k + 1 → j.accD q = i.accD q) :
    ((List.range 8).all fun q => q == k || q == k + 1 || j.accD q == i.accD q) = true := by
  simp only [List.all_eq_true, List.mem_range, Bool.or_eq_true, beq_iff_eq]
  intro q hq
  by_cases hk : q = k ∨ q = k + 1
  · exact .inl hk
  · exact .inr (h q hq (fun h => hk (.inl h)) fun h => hk (.inr h))

theorem IeSt.follows.rest {i j l : IeSt} {b : Bool} (h : i.follows j l b) (hl : i.land.accOnly l) :
    j = { i.land with sp := j.sp, acc := j.acc, av := j.av, hazard := b, rep := 0, pc := (i.pc + 1) % 2 ^ 14 } := by
  obtain ⟨hj, -, -⟩ := h
  unfold IeSt.accOnly at hl
  rw [hl] at hj
  rw [hj]

/-- The accumulators after MXY and DMXY are those that their products have made of p. -/
theorem IeSt.follows.xy {i j p : IeSt} {ai aj : Fin 8} {mi mj : Fin 4} (hsp : p.sp = i.land.sp) (hp : i.land.accOnly p)
    (h : i.follows j ((i.post2 p ai mi aj mj).setSpec spXL (tget zeroAt i.dm (xAddr (i.spec (spA ai)))).toNat) true) :
    (∀ q, j.accD q = p.accD q) ∧ j.av = p.av ∧ i.xyNext j ai mi aj mj ∧
      j = { i.land with sp := j.sp, acc := j.acc, av := j.av, hazard := true, rep := 0, pc := (i.pc + 1) % 2 ^ 14 } := by
  obtain ⟨hacc, hav⟩ := h.acc
  refine ⟨fun q => (hacc q).trans ?_, hav.trans ?_, IeSt.xyNext_of_follows hsp h, h.rest (IeSt.accOnly_sp hp ?_)⟩
  all_goals rw [IeSt.post2_eq]; rfl

/-! CLRA. -/

/-- The accumulators that a mask names, among ks, are cleared. -/
def IeSt.clear (j : IeSt) (mask : Nat) (ks : List Nat) : IeSt := ks.foldl (fun j k => if bitOf mask k then j.accPut false k 0 else j) j

theorem IeSt.clear_cons (j : IeSt) (mask k : Nat) (ks : List Nat) :
    j.clear mask (k :: ks) = (if bitOf mask k then j.accPut false k 0 else j).clear mask ks := rfl

theorem IeSt.clear_eq (mask : Nat) (ks : List Nat) (j : IeSt) : j.clear mask ks = { j with acc := (j.clear mask ks).acc } := by
  induction ks generalizing j with
  | nil => rfl
  | cons k ks ih =>
    have hstep : (if bitOf mask k then j.accPut false k 0 else j) =
        { j with acc := (if bitOf mask k then j.accPut false k 0 else j).acc } := by
      split
      · rw [IeSt.accPut_eq, show ovfI 72 0 = false by decide, Bool.or_false]
      · rfl
    rw [IeSt.clear_cons, ih, hstep]

theorem IeSt.accD_clear (mask : Nat) {q : Nat} (hq : q < 8) (ks : List Nat) (h : ∀ k ∈ ks, k < 8) (j : IeSt) :
    (j.clear mask ks).accD q = if q ∈ ks ∧ bitOf mask q = true then 0 else j.accD q := by
  induction ks generalizing j with
  | nil => simp [IeSt.clear]
  | cons k ks ih =>
    have hk : k < 8 := h k (by simp)
    have hstep : (if bitOf mask k then j.accPut false k 0 else j).accD q = if q = k ∧ bitOf mask q = true then 0 else j.accD q := by
      by_cases he : q = k
      · subst he
        cases hb : bitOf mask q
        · simp
        · simpa [show sValue 72 false 0 = 0 by decide] using j.accD_accPut_same false q 0
      · have hoth := j.accD_accPut_other false (k := k) (q := q) 0 (by omega)
        cases bitOf mask k <;> simp [he, hoth]
    rw [IeSt.clear_cons, ih (fun k hk => h k (by simp [hk])), hstep]
    grind

/-! The forms with one product and with two. -/

section
variable {c : Instr} {s : State} {e : Nat} {i : IeSt} {sat : Bool} {k : Fin 8} {x y : IeSt → Int} {ai aj : Fin 8} {mi mj : Fin 4}

/-- Two registers' products. -/
theorem gives_dmac (hi : s.ie e = i) (hp : s.plainIssue e = true)
    (hx : exec c s = done (s.ieIssue e (ieA fun i j => j.accPut2 sat (k.val / 2 * 2) (x i) (y i)))) :
    Gives c s fun t => (t.ie e).accD (k.val / 2 * 2) = (if sat then satI 72 (x i) else sx 72 (tz 72 (x i))) ∧
      (t.ie e).accD (k.val / 2 * 2 + 1) = (if sat then satI 72 (y i) else sx 72 (tz 72 (y i))) ∧
      (t.ie e).av = (ovfI 72 (x i) || ovfI 72 (y i)) ∧
      ((List.range 8).all fun q => q == k.val / 2 * 2 || q == k.val / 2 * 2 + 1 || (t.ie e).accD q == i.accD q) = true ∧
      t.ie e = { i.land with sp := (t.ie e).sp, acc := (t.ie e).acc, av := (t.ie e).av, hazard := true, rep := 0, pc := (i.pc + 1) % 2 ^ 14 } ∧
      (t.ie e).spec spCYC = (i.land.spec spCYC + 1) % 2 ^ 18 ∧ (∀ q, q ≠ spCYC → (t.ie e).spec q = i.land.spec q) ∧ s.ieOnly t e := by
  refine (gives_ieA _ hi hp (IeSt.inPlace_accPut2 _ _ _ _ _) hx).mono fun t ⟨hf, ho⟩ => ?_
  obtain ⟨hacc, hav⟩ := hf.acc
  obtain ⟨h0, h1, hov, hoth⟩ := i.acc_accPut2 sat (k := k.val / 2 * 2) (x i) (y i) (by omega)
  have hrest := hf.rest (IeSt.accOnly_accPut2 _ _ _ _ _)
  obtain ⟨-, hspec, hcyc⟩ := hf
  exact ⟨(hacc _).trans h0, (hacc _).trans h1, hav.trans hov, all_accD_two fun q hq hk hk' => (hacc q).trans (hoth q hq hk hk'),
    hrest, hcyc, hspec, ho⟩

/-- The product of two words of memory. -/
theorem gives_mxy (hi : s.ie e = i) (hp : s.plainIssue e = true)
    (hx : exec c s = done (s.ieIssue e (ieA fun i j =>
      (i.post2 (j.accPut sat k (x i)) ai mi aj mj).setSpec spXL (tget zeroAt i.dm (xAddr (i.spec (spA ai)))).toNat))) :
    Gives c s fun t => (t.ie e).accD k = (if sat then satI 72 (x i) else sx 72 (tz 72 (x i))) ∧ (t.ie e).av = ovfI 72 (x i) ∧
      i.xyNext (t.ie e) ai mi aj mj ∧
      t.ie e = { i.land with sp := (t.ie e).sp, acc := (t.ie e).acc, av := (t.ie e).av, hazard := true, rep := 0, pc := (i.pc + 1) % 2 ^ 14 } ∧
      ((List.range 8).all fun q => q == k.val || (t.ie e).accD q == i.accD q) = true ∧ s.ieOnly t e := by
  refine (gives_ieA _ hi hp ((IeSt.inPlace_accPut _ _ _ _).trans (IeSt.inPlace_post2 _ _ _ _ _ _ _)) hx).mono fun t ⟨hf, ho⟩ => ?_
  obtain ⟨hacc, hav, hxy, hrest⟩ := IeSt.follows.xy (p := i.land.accPut sat k (x i)) rfl (IeSt.accOnly_accPut _ _ _ _) hf
  refine ⟨(hacc _).trans (IeSt.accD_accPut_same _ _ _ _), hav.trans ?_, hxy, hrest, all_accD_one fun q hq => ?_, ho⟩
  · rw [IeSt.accPut_eq, IeSt.land_av, Bool.false_or]
  · exact (hacc q).trans ((IeSt.accD_accPut_other _ _ _ hq).trans (i.accD_land q))

/-- Two products of words of memory and XL. -/
theorem gives_dmxy (hi : s.ie e = i) (hp : s.plainIssue e = true)
    (hx : exec c s = done (s.ieIssue e (ieA fun i j =>
      (i.post2 (j.accPut2 sat (k.val / 2 * 2) (x i) (y i)) ai mi aj mj).setSpec spXL (tget zeroAt i.dm (xAddr (i.spec (spA ai)))).toNat))) :
    Gives c s fun t => (t.ie e).accD (k.val / 2 * 2) = (if sat then satI 72 (x i) else sx 72 (tz 72 (x i))) ∧
      (t.ie e).accD (k.val / 2 * 2 + 1) = (if sat then satI 72 (y i) else sx 72 (tz 72 (y i))) ∧
      (t.ie e).av = (ovfI 72 (x i) || ovfI 72 (y i)) ∧ i.xyNext (t.ie e) ai mi aj mj ∧
      ((List.range 8).all fun q => q == k.val / 2 * 2 || q == k.val / 2 * 2 + 1 || (t.ie e).accD q == i.accD q) = true ∧
      t.ie e = { i.land with sp := (t.ie e).sp, acc := (t.ie e).acc, av := (t.ie e).av, hazard := true, rep := 0, pc := (i.pc + 1) % 2 ^ 14 } ∧
      s.ieOnly t e := by
  refine (gives_ieA _ hi hp ((IeSt.inPlace_accPut2 _ _ _ _ _).trans (IeSt.inPlace_post2 _ _ _ _ _ _ _)) hx).mono fun t ⟨hf, ho⟩ => ?_
  obtain ⟨hacc, hav, hxy, hrest⟩ :=
    IeSt.follows.xy (p := i.land.accPut2 sat (k.val / 2 * 2) (x i) (y i)) rfl (IeSt.accOnly_accPut2 _ _ _ _ _) hf
  obtain ⟨h0, h1, hov, hoth⟩ := i.acc_accPut2 sat (k := k.val / 2 * 2) (x i) (y i) (by omega)
  exact ⟨(hacc _).trans h0, (hacc _).trans h1, hav.trans hov, hxy, all_accD_two fun q hq hk hk' => (hacc q).trans (hoth q hq hk hk'),
    hrest, ho⟩

end

/-- The exact product of the X and Y words that two pointers name. -/
def IeSt.xyProduct (i : IeSt) (ai aj : Fin 8) : Int :=
  (tget zeroAt i.dm (xAddr (i.spec (spA ai)))).toInt * (tget zeroAt i.dm (yAddr (i.spec (spA aj)))).toInt

/-- Settles O27: each form in sequence, from what its results leave. -/
theorem ieAccumulation : Obligations.IeAccumulation := by
  unfold Obligations.IeAccumulation
  refine ⟨?mac, ?dmac, ?mxy, ?dmxy, ?sac, ?lac, ?adda, ?suba, ?sha, ?clra⟩
  case mac =>
    exact fun s e i st k rs rt neg clr hi hp => gives_acc (x := fun i => i.addend clr k + signed neg (i.val rs * i.val rt)) hi hp rfl
  case dmac =>
    exact fun s e i st k rs rt ru rv neg clr hi hp =>
      gives_dmac (k := k) (x := fun i => i.addend clr (k.val / 2 * 2) + signed neg (i.val rs * i.val rt))
        (y := fun i => i.addend clr (k.val / 2 * 2 + 1) + signed neg (i.val ru * i.val rv)) hi hp rfl
  case mxy =>
    intro s e i st k ai mi aj mj neg clr hi hp
    refine (gives_mxy (x := fun i => i.addend clr k + signed neg (i.xyProduct ai aj)) (k := k) (mi := mi) (mj := mj) hi hp rfl).mono ?_
    rintro t ⟨hacc, hav, ⟨hspec, hcyc, hone, hxl, htwo⟩, hrest, hoth, ho⟩
    exact ⟨hacc, hav, hspec, hcyc, hone, hxl, htwo, hrest, hoth, ho⟩
  case dmxy =>
    intro s e i st k ai mi aj mj neg clr hi hp
    refine (gives_dmxy (x := fun i => i.addend clr (k.val / 2 * 2) + signed neg (i.xyProduct ai aj))
      (y := fun i => i.addend clr (k.val / 2 * 2 + 1) + signed neg (sx 32 (i.spec spXL) * (tget zeroAt i.dm (yAddr (i.spec (spA aj)))).toInt))
      (k := k) (mi := mi) (mj := mj) hi hp rfl).mono ?_
    rintro t ⟨hacc, hacc', hav, ⟨hspec, hcyc, hone, hxl, htwo⟩, hoth, hrest, ho⟩
    exact ⟨hacc, hacc', hav, hspec, hcyc, hone, hxl, htwo, hoth, hrest, ho⟩
  case sac => exact fun s e i st rd k sh rnd hi hp => gives_sRule (x := fun i => sacValue (i.accS k) sh.toNat rnd) hi hp rfl
  case lac =>
    exact fun s e i k rs sh hi hp => gives_acc (sat := false)
      (x := fun i => if 39 < sh.toNat then Config.shiftOut 0x35 sh.toNat (i.val rs) else i.val rs * 2 ^ sh.toNat) hi hp rfl
  case adda => exact fun s e i st k j hi hp => gives_acc (x := fun i => i.accD k + i.accS j) hi hp rfl
  case suba => exact fun s e i st k j hi hp => gives_acc (x := fun i => i.accD k - i.accS j) hi hp rfl
  case sha => exact fun s e i st k sh hi hp => gives_acc (x := fun i => shaValue (i.accD k) sh.toInt) hi hp rfl
  case clra =>
    intro s e i mask hi hp
    refine (gives_ieA (fun _ j => j.clear mask.toNat (List.range 8)) hi hp ?place rfl).mono fun t ⟨hf, ho⟩ => ?_
    case place =>
      rw [IeSt.clear_eq]
      exact ⟨rfl, rfl, rfl, rfl⟩
    obtain ⟨hacc, hav⟩ := hf.acc
    have hclear := i.land.clear_eq mask.toNat (List.range 8)
    refine ⟨?_, ?_, ?_, fun q hc => ?_, ho⟩
    · simp only [List.all_eq_true, List.mem_range, beq_iff_eq]
      intro q hq
      rw [hacc, IeSt.accD_clear _ hq _ (by simp), i.accD_land]
      simp [hq]
    · rw [hav, hclear, IeSt.land_av]
    · exact hf.rest (IeSt.accOnly_acc hclear)
    · rw [hf.2.1 q hc, hclear]; rfl

end Sys2Proof.Machine
end

section
/-! The exchange while a takeover waits for boundary R (14_redundancy R436). Until then no block of the render domains works, and no engine
starts; IeEventsAndHost asks only that the domains are on. -/

namespace Sys2Proof.Machine

/-- In SPARE, with every domain on and a takeover that waits for boundary R: engine 0 is in WAIT with its program in place, which is to run. -/
def exchangeBeforeTakeover : State :=
  { State.reset with
    words := [(0x9C, 4), (0x1088, 0x3FFF), (0x1090, 1), (0x200C, 5), (0x9000C, 2), (0x900A0, 0x80000007)]
    ies := [(0, IeSt.reset)]
    pwr := { PwrSt.reset with trans := some (mSpare, mRun, false) } }

/-- The exchange is due, the domains are on, and nothing of the engine's own keeps it from starting. -/
theorem exchangeBeforeTakeover_due :
    exchangeBeforeTakeover.exchCut ≤ exchangeBeforeTakeover.slot ∧ exchangeBeforeTakeover.pageOn eMIX = true ∧
      exchangeBeforeTakeover.pageOn (eIE 0) = true ∧ exchangeBeforeTakeover.ieState 0 = ieWait ∧
      bitOf (exchangeBeforeTakeover.n 0x900A0) 31 = true ∧ (!exchangeBeforeTakeover.is (R.IE_S_HALTED.pg 0)) = true ∧
      exchangeBeforeTakeover.loadedCrc 0 = exchangeBeforeTakeover.activeCrc 0 := by decide +kernel

/-- MIX waits, so that the exchange does nothing. -/
theorem exchangeBeforeTakeover_waits : effInsertExchange exchangeBeforeTakeover = exchangeBeforeTakeover := by
  have hwaits : exchangeBeforeTakeover.blockRuns eMIX = false := by decide +kernel
  simp [effInsertExchange, State.exchange, hwaits]

/-- Refutes O29, by its clause on the exchange: before boundary R of a takeover an engine that is ready does not start (R436). -/
theorem not_ieEventsAndHost : ¬ Obligations.IeEventsAndHost := by
  unfold Obligations.IeEventsAndHost
  rintro ⟨-, -, -, hExchange, -⟩
  obtain ⟨hdue, hmix, hie, hwait, hrun, hhalted, hcrc⟩ := exchangeBeforeTakeover_due
  have hx : exec .insertExchange exchangeBeforeTakeover = done exchangeBeforeTakeover := congrArg done exchangeBeforeTakeover_waits
  obtain ⟨hcut, -⟩ := (gives_done_iff hx).mp
    (hExchange exchangeBeforeTakeover 0 hdue hmix hie hwait rfl rfl rfl hrun hhalted hcrc)
  rw [State.settle_exchCut] at hcut
  exact absurd hcut (by decide)

end Sys2Proof.Machine
end

section
/-! One word of a bulk transfer from the on-chip SRAM (10_insert_engines R331; 11_memory_fabric R353–R358). -/

namespace Sys2Proof.Machine

/-! A read that the SRAM serves at once. -/

theorem State.foldl_readWord_clean {s : State} (m : Nat) (ws : List Nat) (b : Bool)
    (h : ∀ w ∈ ws, s.poisoned w = false ∧ tget zeroAt s.sramErr w = 0) :
    ws.foldl (fun r w => (r.1 && (r.2.readWord m w).1, (r.2.readWord m w).2)) (b, s) = (b, s) := by
  induction ws with
  | nil => rfl
  | cons w ws ih =>
    obtain ⟨hp, he⟩ := h w (by simp)
    have hw : s.readWord m w = (true, s) := by simp [State.readWord, hp, he]
    rw [List.foldl_cons, hw, Bool.and_true]
    exact ih fun v hv => h v (by simp [hv])

theorem State.sramLoad_clean {s : State} {a n : Nat} (m : Nat) (h : s.clean a n = true) : s.sramLoad m a n = (some (s.bytes a n), s) := by
  have hall : ∀ w ∈ wordsOf a n, s.poisoned w = false ∧ tget zeroAt s.sramErr w = 0 := by
    simpa [State.clean, List.all_eq_true] using h
  simp [State.sramLoad, State.foldl_readWord_clean m _ _ hall]

/-- The bytes that a read of n bytes at a shows. -/
def State.shownBytes (s : State) (a n : Nat) : List Byte := (List.range n).map fun i => s.shown (s.freeCtr + i) (a + i)

/-- A request has drawn its free values. -/
def State.drawn (s : State) : State := { s with freeCtr := s.freeCtr + 64 }

theorem State.drawLine_eq (s : State) : s.drawLine = (s.freeCtr, s.drawn) := rfl

theorem State.objByte_drawn (s : State) (a : Nat) : s.drawn.objByte a = s.objByte a := by
  unfold State.objByte; rfl

theorem State.convGet_drawn (s : State) (i : ConvItem) : s.drawn.convGet i = s.convGet i := by
  cases i <;> rfl

theorem State.convByte_drawn (s : State) (a : Nat) : s.drawn.convByte a = s.convByte a := by
  unfold State.convByte
  rw [State.convGet_drawn]

theorem State.shown_drawn (s : State) (i a : Nat) : s.drawn.shown i a = s.shown i a := by
  unfold State.shown
  rw [State.objByte_drawn, State.convByte_drawn]; rfl

theorem State.sramServe_read {s : State} {r : MemReq} (hw : r.write = false) (h : s.clean r.addr r.width = true) :
    s.sramServe r = ((.ok, s.shownBytes r.addr r.width), s.drawn) := by
  have hue : s.ueCause s r.master = s := s.ueCause_self r.master
  simp only [State.sramServe, hw, Bool.false_eq_true, if_false, State.sramLoad_clean _ h, hue, State.drawLine_eq, State.shown_drawn,
    State.shownBytes]

/-- What servesSram says, taken apart. -/
structure State.Serves (s : State) (m a n : Nat) (write : Bool) : Prop where
  waiting : s.waiting = []
  lock : s.lock = none
  dump : s.dump = none
  width : widthOk n = true
  aligned : a % n = 0
  target : targetOf a = 1 ∨ targetOf a = 2 ∨ targetOf a = 3
  allowed : s.allowed m (targetOf a) a n write = true
  powered : s.domOn (if targetOf a = 3 then 7 + (a - 0x20000000) / 0x100000 / 8 else 5) = true

theorem State.serves_of_servesSram {s : State} {m a n : Nat} {write : Bool} (h : s.servesSram m a n write = true) : s.Serves m a n write := by
  simp only [State.servesSram, State.fabricIdle, Bool.and_eq_true, List.isEmpty_iff, Option.isNone_iff_eq_none, beq_iff_eq,
    List.contains_eq_mem, List.mem_cons, List.not_mem_nil, or_false, decide_eq_true_eq] at h
  obtain ⟨⟨⟨⟨⟨⟨⟨⟨-, ⟨hw, -⟩, -⟩, hl⟩, hd⟩, hwide⟩, hal⟩, ht⟩, hall⟩, hp⟩ := h
  exact ⟨hw, hl, hd, hwide, hal, ht, hall, hp⟩

theorem State.request_sramRead {s : State} {r : MemReq} (hw : r.write = false) (ha : r.atomic = none)
    (h : s.Serves r.master r.addr r.width false) (hc : s.clean r.addr r.width = true) :
    s.request r = (some (.ok, s.shownBytes r.addr r.width), s.drawn) := by
  have h0 : targetOf r.addr ≠ 0 := by rcases h.target with h | h | h <;> simp [h]
  have h4 : targetOf r.addr ≠ 4 := by rcases h.target with h | h | h <;> simp [h]
  have h7 : targetOf r.addr ≠ 7 := by rcases h.target with h | h | h <;> simp [h]
  have hlock : s.lockedOut r.master = false := by rw [State.lockedOut, h.lock]; rfl
  have hdump : s.dumpMeets r = (false, s) := by simp only [State.dumpMeets, h.dump, Option.isNone_none, Bool.true_or, if_true]
  have hpow := h.powered
  simp only [State.request, h0, h4, h7, hw, ha, h.width, h.aligned, State.permit, h.allowed, hlock, hdump, hpow,
    State.sramServe_read hw hc, if_true, if_false, false_and, and_false, or_false, Bool.not_true, Bool.false_eq_true, Option.isSome_none,
    decide_false, Bool.false_or, Bool.or_false, Bool.and_false, bne_self_eq_false]

theorem State.direct_sramRead {s : State} {m a n : Nat} (p : Bool) (h : s.Serves m a n false)
    (hc : s.clean a n = true) :
    s.direct { MemReq.read m a n with passed := p } =
      (some (.ok, s.shownBytes a n), { MemReq.read m a n with passed := p },
        s.drawn.arbVisit m a n) := by
  have h4 : targetOf a ≠ 4 := by rcases h.target with h | h | h <;> simp [h]
  have harr : s.arrive s.waiting { MemReq.read m a n with passed := p } = ({ MemReq.read m a n with passed := p }, s) := by
    simp [State.arrive, State.portBound, MemReq.read, h4]
  have hbl : s.blocked { MemReq.read m a n with passed := p } = false := by
    simp [State.blocked, h.waiting, MemReq.read, h4]
  have hreq := State.request_sramRead (r := { MemReq.read m a n with passed := p }) rfl rfl h hc
  simp only [State.direct, harr, hbl, hreq, Bool.false_eq_true, if_false]
  rfl

theorem State.arbVisit_writes (s : State) (m a n : Nat) : s.arbVisit m a n = s.regsOf (s.arbVisit m a n) := by
  unfold State.arbVisit State.arbSample
  split
  · split <;> rfl
  · rfl

theorem State.attempt_of_direct {s t : State} {r q : MemReq} {x : Ans}
    (h : s.direct { r with passed := s.passed.contains r.master } = (some x, q, t)) :
    s.attempt r = (some x, { t with passed := t.passed.filter (· != r.master) }) := by
  rw [State.attempt, h]

/-- An engine's read of clean words: the answer, and that memory and the engines stay. -/
theorem State.attempt_sramRead {s : State} {m a n : Nat} (h : s.servesSram m a n false = true)
    (hc : s.clean a n = true) :
    ∃ u, s.attempt (MemReq.read m a n) = (some (.ok, s.shownBytes a n), u) ∧ u.mem = s.mem ∧ u.ies = s.ies := by
  have hd := State.direct_sramRead (s.passed.contains m) (State.serves_of_servesSram h) hc
  have hr := s.drawn.arbVisit_writes m a n
  exact ⟨_, State.attempt_of_direct hd, (congrArg State.mem hr :), (congrArg State.ies hr :)⟩

/-! The transfer. -/

/-- Outside the areas of the blocks a read shows the bytes of memory. -/
theorem State.shown_plain (s : State) {i a : Nat} (h : ownArea a = false) : s.shown i a = s.byte a := by
  simp only [ownArea, Bool.or_eq_false_iff, Bool.and_eq_false_iff, decide_eq_false_iff_not] at h
  have hobj : s.objByte a = none := by rw [State.objByte, if_neg (by omega), if_neg (by omega)]
  have hconv : s.convByte a = none := by
    rw [State.convByte, if_neg (by unfold cvEnd; omega)]
  have hown : ownArea a = false := by
    simp only [ownArea, Bool.or_eq_false_iff, Bool.and_eq_false_iff, decide_eq_false_iff_not]; omega
  rw [State.shown, hobj, hconv, hown]; rfl

/-- No area of a block ends within an aligned word. -/
theorem ownArea_word {a j : Nat} (ha : a % 4 = 0) (hj : j < 4) (h : ownArea a = false) : ownArea (a + j) = false := by
  simp only [ownArea, Bool.or_eq_false_iff, Bool.and_eq_false_iff, decide_eq_false_iff_not] at h ⊢
  omega

theorem State.shownBytes_word (s : State) {a : Nat} (ha : a % 4 = 0) (h : ownArea a = false) : s.shownBytes a 4 = s.bytes a 4 :=
  List.map_congr_left fun _ hj => s.shown_plain (ownArea_word ha (List.mem_range.mp hj) h)

theorem pieceLen_word {a : Nat} (ha : a % 4 = 0) : pieceLen a 4 = 4 := by
  unfold pieceLen
  cases targetOf a != 0 <;> simp [ha]

/-- The engine after a transfer of one word to data memory. -/
def IeSt.wordMoved (i : IeSt) (b : BulkRun) (d : List Byte) : IeSt := (i.putDm b.local0 d).bulkMoved b 4

theorem IeSt.dm_wordMoved (i : IeSt) (b : BulkRun) {d : List Byte} (hd : d.length = 4) :
    tget zeroAt (i.wordMoved b d).dm b.local0 = w32 (leAt d 0 4) := by
  have hdm : (i.wordMoved b d).dm = tset zeroAt i.dm b.local0 (w32 (leAt d 0 4)) := by
    simp [IeSt.wordMoved, IeSt.bulkMoved, IeSt.putDm, hd]
  rw [hdm, tget_tset_same]

/-- One word comes. -/
theorem State.bulkPiece_word {s : State} {e : Nat} {b : BulkRun} {d : List Byte} {u : State} (hb : b.toFabric = false)
    (h : s.attempt (MemReq.read (0x38 + e) b.addr 4) = (some (.ok, d), u)) :
    s.bulkPiece e b 4 = (some true, u.setIe e fun i => i.wordMoved b d) := by
  simp only [State.bulkPiece, hb, Bool.false_eq_true, if_false, h, if_true]
  rfl

/-- A transfer of one word that comes has ended. -/
theorem State.bulkMove_word {s : State} {e : Nat} {b : BulkRun} {d : List Byte} {u : State} (hrun : (s.ie e).run = some b) (hlen : b.len = 1)
    (ha : b.addr % 4 = 0) (hb : b.toFabric = false) (h : s.attempt (MemReq.read (0x38 + e) b.addr 4) = (some (.ok, d), u)) :
    State.bulkMove 2 e s = (u.setIe e fun i => i.wordMoved b d).bulkEnd e true := by
  have hmoved : ((u.setIe e fun i => i.wordMoved b d).ie e).run = some ⟨b.addr + 4, b.local0 + 1, 0, b.toFabric⟩ := by
    rw [State.ie_setIe_same]
    simp [IeSt.wordMoved, IeSt.bulkMoved, hlen]
  have hone : (1 : Nat) ≠ 0 := by decide
  rw [State.bulkMove, hrun]
  simp only [hlen, hone, if_false, Nat.mul_one, pieceLen_word ha, State.bulkPiece_word hb h]
  rw [State.bulkMove, hmoved]
  rfl

/-- The engine when a transfer has ended without an error. -/
def IeSt.bulkEnded (i : IeSt) : IeSt :=
  { (i.setBulk 4 (tget zeroAt i.bulk 4 / 8 * 8 + 2)).setSpec spIPEND (i.spec spIPEND ||| 2) with run := none }

theorem State.bulkEnd_ok (s : State) (e : Nat) : s.bulkEnd e true = (s.setIe e IeSt.bulkEnded).putB (R.IE_S_BULK_BUSY.pg e) false := rfl

theorem IeSt.done_bulkEnded (i : IeSt) : bitOf (tget zeroAt i.bulkEnded.bulk 4) 1 = true := by
  have hw : i.bulkEnded.bulk = tset zeroAt i.bulk 4 (tget zeroAt i.bulk 4 / 8 * 8 + 2) := rfl
  rw [hw, tget_tset_same, bitOf, Nat.testBit_eq_decide_div_mod_eq, decide_eq_true_eq]
  omega

theorem IeSt.pending_bulkEnded (i : IeSt) : bitOf (i.bulkEnded.spec spIPEND) 1 = true := by
  have hw : i.bulkEnded.spec spIPEND = i.spec spIPEND ||| 2 := IeSt.spec_setSpec_same _ _ _
  rw [hw, bitOf, Nat.testBit_or, show Nat.testBit 2 1 = true by decide, Bool.or_true]

/-- The clause on a bulk transfer of one word. -/
theorem gives_bulkWord {s : State} {e : Fin 8} {b : BulkRun} (hon : s.pageOn (eIE e) = true) (hrun : (s.ie e).run = some b)
    (hlen : b.len = 1) (hb : b.toFabric = false) (hserves : s.servesSram (0x38 + e) b.addr 4 false = true)
    (hclean : s.clean b.addr 4 = true) (hown : ownArea b.addr = false) :
    Gives (.bulkTransferDone e) s fun t => (t.ie e).run = none ∧ tget zeroAt (t.ie e).dm b.local0 = w32 (leAt (s.bytes b.addr 4) 0 4) ∧
      bitOf (tget zeroAt (t.ie e).bulk 4) 1 = true ∧ bitOf ((t.ie e).spec spIPEND) 1 = true ∧
      t.is (R.IE_S_BULK_BUSY.pg e) = false ∧ t.mem = s.mem := by
  have ha : b.addr % 4 = 0 := (State.serves_of_servesSram hserves).aligned
  obtain ⟨u, hu, hmem, hies⟩ := State.attempt_sramRead hserves hclean
  rw [s.shownBytes_word ha hown] at hu
  have hx : exec (.bulkTransferDone e) s = done ((u.setIe e fun i => i.wordMoved b (s.bytes b.addr 4)).bulkEnd e true) := by
    rw [← State.bulkMove_word hrun hlen ha hb hu]
    refine congrArg done (?_ : effBulkTransferDone e s = _)
    simp only [effBulkTransferDone, hrun, hon, if_true, hlen]
  refine gives_done hx ?_
  rw [State.bulkEnd_ok, State.putB_eq, State.ie_settle, State.settle_is, State.settle_mem, State.ie_put, State.ie_setIe_same]
  refine ⟨rfl, ?_, IeSt.done_bulkEnded _, IeSt.pending_bulkEnded _, ?_, hmem⟩
  · rw [State.ie_setIe_same]
    exact IeSt.dm_wordMoved _ b (by simp [State.bytes])
  · exact State.is_putB _ (R.IE_S_BULK_BUSY.pg e) _ (show R.IE_S_BULK_BUSY.hi < 32 by decide) rfl

end Sys2Proof.Machine
end

section
/-! What a read leaves of the check values that ACTIVE names (10_insert_engines R334; 11_memory_fabric R353–R370): whatever it corrects,
counts or logs, it writes no PROG_CRC. -/

namespace Sys2Proof.Machine

/-- A half of PROG_CRC in ACTIVE of some engine. -/
def crcWord (k : Nat) : Prop := 0x90000 ≤ k ∧ k < 0x98000 ∧ (k % 0x1000 = 0xB0 ∨ k % 0x1000 = 0xB4)

/-- From s to t these words stay. -/
def State.crcKept (s t : State) : Prop := ∀ k, crcWord k → t.w k = s.w k

theorem State.crcKept_refl (s : State) : s.crcKept s := fun _ _ => rfl

theorem State.crcKept_trans {s t u : State} (h : s.crcKept t) (h' : t.crcKept u) : s.crcKept u := fun k hk => (h' k hk).trans (h k hk)

theorem State.crcKept_of_words {s t : State} (h : t.words = s.words) : s.crcKept t := fun k _ => State.w_congr s t h k

theorem State.crcKept_of_keeps {s t : State} {ks : List Nat} (h : s.keeps t ks) (hks : ∀ k ∈ ks, ¬crcWord k) : s.crcKept t :=
  fun k hk => h k fun hm => hks k hm hk

theorem State.activeCrc_of_crcKept {s t : State} (h : s.crcKept t) (e : Fin 8) : t.activeCrc e = s.activeCrc e := by
  have hlo : crcWord (0x900B0 + 0x1000 * e.val) := by unfold crcWord; omega
  have hhi : crcWord (0x900B0 + 0x1000 * e.val + 4) := by unfold crcWord; omega
  simp only [State.activeCrc, State.get64, State.n, h _ hlo, h _ hhi]

/-! Writes of other words. -/

theorem not_crcWord_of_le {k : Nat} (h : 0x98000 ≤ k) : ¬crcWord k := by unfold crcWord; omega
theorem not_crcWord_of_lt {k : Nat} (h : k < 0x90000) : ¬crcWord k := by unfold crcWord; omega

theorem State.crcKept_setW (s : State) {k : Nat} (v : Word) (hk : ¬crcWord k) : s.crcKept (s.setW k v) :=
  State.crcKept_of_keeps (s.keeps_setW k v) (by simpa using hk)

/-- After another step a write of a word of a later page. -/
theorem State.crcKept_setW_le {s t : State} (h : s.crcKept t) {k : Nat} (v : Word) (hk : 0x98000 ≤ k) : s.crcKept (t.setW k v) :=
  State.crcKept_trans h (t.crcKept_setW v (not_crcWord_of_le hk))

theorem State.crcKept_latches (s : State) (src bit n : Nat) : s.crcKept (s.latches src bit n) := by
  have hor : s.crcKept (s.orW (evKey src) (2 ^ bit)) :=
    s.crcKept_setW _ fun ⟨_, _, hm⟩ => evKey_ne src (evKey src) (by omega) rfl
  simp only [State.latches]
  split
  · refine State.crcKept_trans hor (State.crcKept_of_keeps (State.recogniseN_spec _ 3 n 0).1 fun k hk => ?_)
    have := discardWords_lt hk
    exact not_crcWord_of_lt (by omega)
  · exact hor

theorem State.crcKept_latch {s t : State} (h : s.crcKept t) (src bit : Nat) : s.crcKept (t.latch src bit) :=
  State.crcKept_trans h (t.crcKept_latches src bit 1)

/-! What the fabric logs. -/

theorem State.crcKept_errLog (s : State) (m a : Nat) (write : Bool) (cause target : Nat) : s.crcKept (s.errLog m a write cause target) := by
  unfold State.errLog
  split
  · exact s.crcKept_refl
  · exact State.crcKept_latch (State.crcKept_setW_le (State.crcKept_setW_le (State.crcKept_setW_le (State.crcKept_setW_le s.crcKept_refl
      _ (by decide)) _ (by decide)) _ (by decide)) _ (by decide)) _ _

theorem State.crcKept_guardHit (s : State) (m a : Nat) (write : Bool) : s.crcKept (s.guardHit m a write) := by
  unfold State.guardHit
  split
  · exact s.crcKept_refl
  · exact State.crcKept_latch (State.crcKept_setW_le (State.crcKept_setW_le (State.crcKept_setW_le s.crcKept_refl
      _ (by decide)) _ (by decide)) _ (by decide)) _ _

theorem State.crcKept_arbVisit (s : State) (m a n : Nat) : s.crcKept (s.arbVisit m a n) := by
  unfold State.arbVisit State.arbSample
  split
  · split
    · exact s.crcKept_refl
    · exact s.crcKept_setW _ (not_crcWord_of_le (by omega))
  · exact s.crcKept_refl

/-! Reads of registers. -/

/-- A word of a window has a key of its own, or the address of its register. -/
def WinWord.keyOf (a : Nat) (q : WinWord) : Prop := q.key = a ∨ 0x8000000000 ≤ q.key

theorem WinWord.keyOf_ite {a : Nat} {c : Prop} [Decidable c] {p q : WinWord} (hp : p.keyOf a) (hq : q.keyOf a) :
    (if c then p else q).keyOf a := by
  split
  · exact hp
  · exact hq

theorem WinWord.keyOf_noWord (a : Nat) : (noWord a).keyOf a := .inl rfl

theorem WinWord.keyOf_winKey (a p k n rw : Nat) (sh frz : Bool) : WinWord.keyOf a ⟨winKey p k n, rw, sh, frz⟩ :=
  .inr (by simp only [winKey]; omega)

theorem WinWord.keyOf_mouldKey (a p k n rw : Nat) (sh frz : Bool) : WinWord.keyOf a ⟨mouldKey p k n, rw, sh, frz⟩ :=
  .inr (by simp only [mouldKey, winKey]; omega)

theorem State.keyOf_window (s : State) (src w a : Nat) : (s.window src w a).keyOf a := by
  simp only [State.window, loopKey]
  repeat' apply WinWord.keyOf_ite
  all_goals simp only [WinWord.keyOf_noWord, WinWord.keyOf_winKey, WinWord.keyOf_mouldKey]

/-- The address of a location: that of its register, or a key of a window. -/
theorem State.key_of_locate {s : State} {m a : Nat} {l : Loc} (h : s.locate m a = some l) : l.key = a ∨ 0x8000000000 ≤ l.key := by
  have hwin : ∀ p k n, 0x8000000000 ≤ winKey p k n := fun p k n => by unfold winKey; omega
  have hwindow : ∀ src w, (s.window src w a).key = a ∨ 0x8000000000 ≤ (s.window src w a).key := fun src w => s.keyOf_window src w a
  unfold State.locate at h
  split at h
  · exact absurd h (by simp)
  · simp only at h
    repeat' split at h
    case h_1 => exact absurd h (by simp)
    all_goals obtain rfl := Option.some.inj h
    all_goals simp only [hwin, atKey, hwindow, true_or, or_true]

/-- A triplicated location is no half of PROG_CRC. -/
theorem State.not_crcWord_of_tmr {s : State} {m a : Nat} {l : Loc} (hl : s.locate m a = some l) (ht : l.spec.tmr ≠ 0) : ¬crcWord l.key := by
  intro hk
  have ha : l.key = a := (State.key_of_locate hl).resolve_right fun h => not_crcWord_of_le (by omega) hk
  rw [ha] at hk
  obtain ⟨hlo, hhi, hoff⟩ := hk
  obtain ⟨r, i, hr, hrt⟩ := State.tmr_of_locate hl ht
  have hslot : ∀ e : Fin 8, srcOfSlot (0x90 + e.val) = some (42 + e.val) := by decide +kernel
  have hsrc : srcOf a = some (42 + (a / 0x1000 - 0x90)) := by
    rw [srcOf, if_pos (by omega), show a / 0x1000 = 0x90 + (a / 0x1000 - 0x90) by omega]
    exact (hslot ⟨a / 0x1000 - 0x90, by omega⟩).trans (by simp)
  have hin := src_of_tmr hsrc (by omega) hr hrt
  simp only [List.mem_cons, List.not_mem_nil, or_false] at hin
  omega

theorem State.crcKept_tmrFix (s : State) (src off : Nat) {k mask : Nat} (h : mask ≠ 0 → ¬crcWord k) : s.crcKept (s.tmrFix src off k mask) := by
  by_cases hn : s.fieldsOff k mask = 0
  · have : s.tmrFix src off k mask = s := if_pos hn
    rw [this]; exact s.crcKept_refl
  · have hmask : mask ≠ 0 := by
      rintro rfl
      exact hn (fieldsHit_zero _)
    rw [State.tmrFix_disagree src off hn]
    have hfixed : s.crcKept (s.copiesFixed k) := State.crcKept_of_keeps (ks := [k]) (State.keeps_setW _ _ _) (by simpa using h hmask)
    have hcount : s.crcKept ((s.copiesFixed k).fixCounted src off (s.fieldsOff k mask)) :=
      State.crcKept_trans hfixed (State.crcKept_of_keeps (State.keeps_fixCounted _ _ _ _) fun k hk => not_crcWord_of_lt (by
        simp only [List.mem_cons, List.not_mem_nil, or_false, R.SYS_TMR_FIX_CNT_COUNT, R.SYS_TMR_FIX_LAST_SOURCE] at hk
        omega))
    rw [State.latchN, if_neg hn]
    exact State.crcKept_trans hcount (State.crcKept_latches _ _ _ _)

theorem State.crcKept_viewReg (s : State) (src m a : Nat) (frozen : Bool) : s.crcKept (s.viewReg src m a frozen).2 := by
  simp only [State.viewReg]
  split
  · exact s.crcKept_refl
  split
  · exact s.crcKept_refl
  split
  · exact s.crcKept_refl
  split
  · exact s.crcKept_tmrFix _ _ fun _ ⟨_, _, hm⟩ => by omega
  split
  · exact s.crcKept_refl
  split
  · exact s.crcKept_refl
  · next l hl => exact s.crcKept_tmrFix _ _ fun ht => State.not_crcWord_of_tmr hl ht

theorem State.crcKept_readRaw (s : State) (src m a : Nat) : s.crcKept (s.readRaw src m a).2 := s.crcKept_viewReg _ _ _ _

theorem State.crcKept_setTag {s t : State} (h : s.crcKept t) (q : PairTag) : s.crcKept (t.setTag q) :=
  State.crcKept_trans h (State.crcKept_of_words rfl)

theorem State.crcKept_clearTag {s t : State} (h : s.crcKept t) (src : Nat) : s.crcKept (t.clearTag src) :=
  State.crcKept_trans h (State.crcKept_of_words rfl)

theorem State.crcKept_readHook {s t : State} (h : s.crcKept t) (m a : Nat) : s.crcKept (t.readHook m a) := by
  refine State.crcKept_trans h ?_
  simp only [State.readHook]
  split
  · split
    · exact t.crcKept_setW _ fun ⟨_, _, hm⟩ => by simp [Fld.pg, R.IE_DM_ADDR_ADDR] at hm
    · split
      · exact t.crcKept_setW _ fun ⟨_, _, hm⟩ => by simp [Fld.pg, R.IE_PM_ADDR_ADDR] at hm
      · exact t.crcKept_refl
  · exact t.crcKept_refl

theorem State.crcKept_guarded {s t : State} (h : s.crcKept t) {p : Prop} [Decidable p] (m a : Nat) (write : Bool) :
    s.crcKept (if p then t else t.guardHit m a write) := by
  split
  · exact h
  · exact State.crcKept_trans h (t.crcKept_guardHit _ _ _)

theorem State.crcKept_readReg (s : State) (src m a : Nat) : s.crcKept (s.readReg src m a).2 := by
  have hraw := s.crcKept_readRaw src m a
  simp only [State.readReg]
  refine State.crcKept_readHook (State.crcKept_guarded ?_ _ _ _) _ _
  split
  · exact hraw
  · split
    · exact State.crcKept_setTag (State.crcKept_trans hraw (State.crcKept_readRaw _ _ _ _)) _
    · split
      · split
        · exact State.crcKept_clearTag hraw _
        · exact hraw
      · exact hraw

theorem State.crcKept_regCheck (s : State) (m a width : Nat) (write : Bool) : s.crcKept (s.regCheck m a width write).2 := by
  simp only [State.regCheck]
  split
  · exact s.crcKept_refl
  split
  · exact s.crcKept_errLog _ _ _ _ _
  split
  · exact s.crcKept_errLog _ _ _ _ _
  split
  · exact s.crcKept_errLog _ _ _ _ _
  split <;> exact s.crcKept_refl

theorem State.crcKept_reg32 (s : State) (m a width : Nat) (v : Word) : s.crcKept (s.reg32 m a width false v).2.2 := by
  have hc := s.crcKept_regCheck m a width false
  simp only [State.reg32, Bool.false_eq_true, if_false]
  split
  · next heq => rw [heq] at hc; exact hc
  · next heq => rw [heq] at hc; exact State.crcKept_trans hc (State.crcKept_readReg _ _ _ _)

theorem State.crcKept_reg64 (s : State) (m a v : Nat) : s.crcKept (s.reg64 m a false v).2.2 := by
  have hc := s.crcKept_regCheck m a 8 false
  simp only [State.reg64, Bool.false_eq_true, if_false]
  split
  · next heq => rw [heq] at hc; exact hc
  · next t heq =>
    rw [heq] at hc
    split
    · exact State.crcKept_readHook (m := m) (State.crcKept_readHook (m := m) (State.crcKept_guarded
        (State.crcKept_trans (State.crcKept_trans hc (State.crcKept_readRaw _ _ _ _)) (State.crcKept_readRaw _ _ _ _)) m a false) a) (a + 4)
    · have hlo := State.crcKept_trans hc (t.crcKept_reg32 m a 4 (lo32 v))
      split
      · next heq => rw [heq] at hlo; exact State.crcKept_trans hlo (State.crcKept_reg32 _ _ _ _ _)
      · next heq => rw [heq] at hlo; exact hlo

end Sys2Proof.Machine
end

section
/-! What a read of the memories leaves of the check values (11_memory_fabric R347, R348; 12_dram R370, R376, R386, R387). -/

namespace Sys2Proof.Machine

/-! What a poisoned word takes with it is no register. -/

theorem State.loseSheet_words (s : State) (a : Nat) : (s.loseSheet a).words = s.words := by
  simp only [State.loseSheet]; split
  · rfl
  · simp only [State.draw]; split <;> rfl

theorem State.loseKept_words (s : State) (x : Kept) : (s.loseKept x).words = s.words := by cases x <;> rfl

theorem State.loseState_words (s : State) (a : Nat) : (s.loseState a).words = s.words := by
  simp only [State.loseState]; split
  · rfl
  · simp only [State.draw]
    exact State.each_induct (fun u => u.words = s.words) _ _ _ rfl fun u x _ hu => (u.loseKept_words x).trans hu

theorem State.loseBuf_words (s : State) (b : BufWord) : (s.loseBuf b).words = s.words := by cases b <;> rfl

theorem State.losePacket_words (s : State) (a : Nat) : (s.losePacket a).words = s.words := by
  simp only [State.losePacket]; split
  · rfl
  · simp only [State.draw]; split
    · rw [State.loseBuf_words]
    · rfl

theorem State.loseRecords_words (s : State) (a : Nat) : (s.loseRecords a).words = s.words := by
  simp only [State.loseRecords]; split <;> rfl

theorem State.convSet_words (s : State) (v : Nat) (r : Int) (x : ConvItem) : (s.convSet v r x).words = s.words := by
  cases x with
  | ring o i => simp only [State.convSet]; split <;> rfl
  | head o set k => simp only [State.convSet]; split <;> rfl
  | coef o set p k => simp only [State.convSet]; split <;> rfl
  | spec o e i => rfl
  | ret1 o h i => rfl
  | ret2 o h i => rfl
  | table => rfl

theorem State.loseConv_words (s : State) (a : Nat) : (s.loseConv a).words = s.words := by
  simp only [State.loseConv]; split
  · refine State.upto_induct (fun u => u.words = s.words) _ _ s rfl fun u i _ hu => ?_
    split
    · exact (u.convSet_words _ _ _).trans hu
    · exact hu
  · rfl

/-! A word of the SRAM. -/

theorem State.crcKept_poisonWord (s : State) (m w : Nat) : s.crcKept (s.poisonWord m w) := by
  have hcount : s.crcKept ((s.setPoison w true).poisonCount.addW R.SRAM_UE_CNT_COUNT 1) :=
    State.crcKept_setW_le (State.crcKept_setW_le (State.crcKept_setW_le (State.crcKept_of_words rfl) _ (by decide)) _ (by decide))
      _ (by decide)
  have hlog := State.crcKept_latch (State.crcKept_setW_le (State.crcKept_setW_le (State.crcKept_setW_le hcount
    (w32 (sramBase w)) (k := 0xA8090) (by decide)) (w32 (sramBase w / 2 ^ 32)) (k := 0xA8094) (by decide))
    (w32 (m % 128 + (wordVat w).getD 0 * 2 ^ 8 + b2n (wordVat w).isSome * 2 ^ 13 + wordBank w * 2 ^ 16)) (k := 0xA8098) (by decide))
    eSRAM 1
  refine State.crcKept_trans hlog (State.crcKept_of_words ?_)
  simp only [State.poisonWord, State.loseConv_words, State.loseRecords_words, State.losePacket_words, State.loseState_words,
    State.loseSheet_words]
  rfl

theorem State.crcKept_countCorrected (s : State) (w : Nat) : s.crcKept (s.countCorrected w) := by
  simp only [State.countCorrected]
  refine State.crcKept_latch ?_ _ _
  split
  · exact s.crcKept_setW _ (not_crcWord_of_le (by omega))
  · exact s.crcKept_setW _ (not_crcWord_of_le (by unfold winKey; omega))

theorem State.xorBytes_words (s : State) (a n e : Nat) : (s.xorBytes a n e).words = s.words :=
  State.upto_induct (fun u => u.words = s.words) _ _ s rfl fun _ _ _ hu => hu

theorem State.crcKept_correctWord (s : State) (w e d : Nat) : s.crcKept (s.correctWord w e d) := by
  have h : ∀ x : State, x.words = s.words →
      s.crcKept (if d = 0 then x.setSramErr w 0 else (x.setSramErr w 0).countCorrected w) := by
    intro x hx
    have hfix : s.crcKept (x.setSramErr w 0) := State.crcKept_of_words hx
    split
    · exact hfix
    · exact State.crcKept_trans hfix (State.crcKept_countCorrected _ _)
  exact h _ (s.xorBytes_words _ _ _)

theorem State.crcKept_readWord (s : State) (m w : Nat) : s.crcKept (s.readWord m w).2 := by
  simp only [State.readWord]
  split
  · exact s.crcKept_refl
  split
  · exact s.crcKept_refl
  split
  · exact s.crcKept_poisonWord _ _
  · exact s.crcKept_correctWord _ _ _

theorem State.crcKept_sramLoad (s : State) (m a n : Nat) : s.crcKept (s.sramLoad m a n).2 := by
  have hfold : ∀ (l : List Nat) (r : Bool × State), s.crcKept r.2 →
      s.crcKept (l.foldl (fun r w => let q := r.2.readWord m w; (r.1 && q.1, q.2)) r).2 := by
    intro l
    induction l with
    | nil => exact fun _ h => h
    | cons w l ih => exact fun r h => ih _ (State.crcKept_trans h (r.2.crcKept_readWord m w))
  exact hfold _ _ s.crcKept_refl

/-- A read by a master outside the render path. -/
theorem State.crcKept_sramServe {s : State} {r : MemReq} (hw : r.write = false) (hm : renderMaster r.master = false) :
    s.crcKept (s.sramServe r).2 := by
  have hload := s.crcKept_sramLoad r.master r.addr r.width
  have hue : ∀ t : State, t.ueCause s r.master = t := fun t => by simp [State.ueCause, hm]
  simp only [State.sramServe, hw, Bool.false_eq_true, if_false, hue]
  split
  · exact State.crcKept_trans hload (State.crcKept_of_words rfl)
  · exact hload

/-! A line of the DRAM. -/

/-- A word of a channel's page is no check value. -/
theorem le_pg_addr {f : Fld} {c : Nat} (hf : 0x98000 ≤ f.addr) : 0x98000 ≤ (f.pg c).addr := by unfold Fld.pg; simp only; omega

theorem State.crcKept_bankAccess {s t : State} (h : s.crcKept t) (c l : Nat) : s.crcKept (t.bankAccess c l) := by
  refine State.crcKept_setW_le (State.crcKept_setW_le (State.crcKept_trans h (State.crcKept_of_words rfl)) _ (le_pg_addr (by decide))) _
    (le_pg_addr ?_)
  split <;> decide

theorem State.crcKept_checkAccess {s t : State} (h : s.crcKept t) (c off : Nat) (write : Bool) : s.crcKept (t.checkAccess c off write) := by
  have hbank : s.crcKept (if (write || !(t.chan c).cache.contains (eccGroup off)) = true then t.bankAccess c (checkLine off) else t) := by
    split
    · exact State.crcKept_bankAccess h _ _
    · exact h
  simp only [State.checkAccess]
  split
  · exact hbank
  · exact State.crcKept_trans hbank (State.crcKept_of_words rfl)

theorem State.crcKept_lineAccess {s t : State} (h : s.crcKept t) (c off : Nat) (write : Bool) : s.crcKept (t.lineAccess c off write) := by
  refine State.crcKept_setW_le (State.crcKept_checkAccess (State.crcKept_bankAccess h _ _) _ _ _) _ (le_pg_addr ?_)
  split <;> decide

theorem State.crcKept_dramUe (s : State) (c m a : Nat) (write : Bool) : s.crcKept (s.dramUe c m a write) :=
  State.crcKept_latch (State.crcKept_setW_le (State.crcKept_setW_le (State.crcKept_setW_le (State.crcKept_setW_le s.crcKept_refl _
    (le_pg_addr (by decide))) _ (by omega)) _ (by omega)) _ (by omega)) _ _

theorem State.crcKept_correctLine (s : State) (c l e d : Nat) : s.crcKept (s.correctLine c l e d) := by
  have h : ∀ x : State, x.words = s.words →
      s.crcKept (if d = 0 then x.setDramErr l 0 else ((x.setDramErr l 0).addW (R.DRC_CE_CNT_COUNT.pg c) 1).latch (eDRC c) 0) := by
    intro x hx
    have hfix : s.crcKept (x.setDramErr l 0) := State.crcKept_of_words hx
    split
    · exact hfix
    · exact State.crcKept_latch (State.crcKept_setW_le hfix _ (le_pg_addr (by decide))) _ _
  exact h _ (s.xorBytes_words _ _ _)

theorem State.crcKept_readLine {s t : State} (h : s.crcKept t) (c off m a : Nat) (forWrite : Bool) :
    s.crcKept (t.readLine c off m a forWrite).2 := by
  refine State.crcKept_trans h ?_
  simp only [State.readLine]
  split
  · exact t.crcKept_refl
  split
  · exact t.crcKept_dramUe _ _ _ _
  · have hfix := fun d => t.crcKept_correctLine c (a / 64) (tget zeroAt t.dramErr (a / 64)) d
    split
    · exact hfix _
    · exact State.crcKept_lineAccess (hfix _) _ _ _

theorem State.crcKept_dramLoad (s : State) (c off m a n : Nat) : s.crcKept (s.dramLoad c off m a n).2 :=
  State.crcKept_readLine (State.crcKept_lineAccess s.crcKept_refl _ _ _) _ _ _ _ _

theorem State.crcKept_dramServe {s : State} {r : MemReq} (hw : r.write = false) (c off : Nat) : s.crcKept (s.dramServe r c off).2 := by
  have hload := s.crcKept_dramLoad c off r.master r.addr r.width
  simp only [State.dramServe, hw, Bool.false_eq_true, if_false]
  split <;> exact hload

theorem State.crcKept_dramRequest {s : State} {r : MemReq} (hw : r.write = false) : s.crcKept (s.dramRequest r).2 := by
  simp only [State.dramRequest, hw, Bool.false_eq_true, if_false]
  split
  · exact s.crcKept_errLog _ _ _ _ _
  split
  · exact s.crcKept_refl
  split
  · exact s.crcKept_refl
  · exact s.crcKept_refl
  · split
    · exact State.crcKept_dramServe hw _ _
    · exact s.crcKept_refl

/-! A request. -/

theorem State.crcKept_permit (s : State) (m target a n : Nat) (write : Bool) : s.crcKept (s.permit m target a n write).2 := by
  simp only [State.permit]
  split
  · exact s.crcKept_refl
  · exact s.crcKept_errLog _ _ _ _ _

/-- Whichever branch a request takes. -/
theorem State.crcKept_ite {α : Type} {c : Prop} [Decidable c] {s : State} {p q : α × State} (hp : s.crcKept p.2) (hq : s.crcKept q.2) :
    s.crcKept (if c then p else q).2 := by
  split
  · exact hp
  · exact hq

theorem State.crcKept_request {s : State} {r : MemReq} (hw : r.write = false) (ha : r.atomic = none)
    (hm : renderMaster r.master = false) : s.crcKept (s.request r).2 := by
  have hperm := s.crcKept_permit r.master (targetOf r.addr) r.addr r.width false
  have hdump : ∀ t : State, t.dumpMeets r = (false, t) := fun t => by simp [State.dumpMeets, hw]
  have hsram := State.crcKept_trans hperm (State.crcKept_sramServe hw hm)
  have hdram := State.crcKept_trans hperm (State.crcKept_dramRequest hw)
  simp only [State.request, hw, ha, Option.isSome_none, Bool.false_eq_true, if_false, false_and, hdump]
  exact State.crcKept_ite (s.crcKept_errLog _ _ _ _ _) (State.crcKept_ite
    (State.crcKept_ite (s.crcKept_reg64 _ _ _) (State.crcKept_ite (s.crcKept_reg32 _ _ _ _) s.crcKept_refl))
    (State.crcKept_ite (s.crcKept_errLog _ _ _ _ _) (State.crcKept_ite s.crcKept_refl (State.crcKept_ite hperm
      (State.crcKept_ite hdram (State.crcKept_ite hperm (State.crcKept_ite hperm hsram)))))))

theorem State.arrive_words (s : State) (l : List MemReq) (r : MemReq) : (s.arrive l r).2.words = s.words := by
  simp only [State.arrive, State.portTake]
  split
  · rfl
  · split <;> rfl

/-- The request that has arrived differs only in its time at its port. -/
theorem State.arrive_request (s : State) (l : List MemReq) (r : MemReq) :
    (s.arrive l r).1.write = r.write ∧ (s.arrive l r).1.atomic = r.atomic ∧ (s.arrive l r).1.master = r.master := by
  simp only [State.arrive]
  split <;> exact ⟨rfl, rfl, rfl⟩

theorem State.crcKept_direct {s : State} {r : MemReq} (hw : r.write = false) (ha : r.atomic = none) (hm : renderMaster r.master = false) :
    s.crcKept (s.direct r).2.2 := by
  obtain ⟨hw', ha', hm'⟩ := s.arrive_request s.waiting r
  have harr : s.crcKept (s.arrive s.waiting r).2 := State.crcKept_of_words (s.arrive_words _ _)
  have hreq := State.crcKept_trans harr (State.crcKept_request (hw'.trans hw) (ha'.trans ha) ((congrArg renderMaster hm').trans hm))
  simp only [State.direct]
  split
  · exact harr
  split
  · next heq => rw [heq] at hreq; exact hreq
  · next heq => rw [heq] at hreq; exact State.crcKept_trans hreq (State.crcKept_arbVisit _ _ _ _)

theorem State.crcKept_attempt {s : State} {r : MemReq} (hw : r.write = false) (ha : r.atomic = none) (hm : renderMaster r.master = false) :
    s.crcKept (s.attempt r).2 := by
  have hd : s.crcKept (s.direct { r with passed := s.passed.contains r.master }).2.2 := State.crcKept_direct hw ha hm
  unfold State.attempt
  generalize s.direct { r with passed := s.passed.contains r.master } = x at hd ⊢
  obtain ⟨_ | _, q, t⟩ := x <;> exact State.crcKept_trans hd (State.crcKept_of_words rfl)

theorem State.passTime_words (s : State) (p : Nat) : (s.passTime p).words = s.words := by
  unfold State.passTime
  split <;> rfl

/-- A read in pieces keeps the check values. -/
theorem State.crcKept_readSome (s : State) (timed : Bool) {m : Nat} (a n : Nat) (hm : renderMaster m = false) :
    s.crcKept (s.readSome timed m a n).2 := by
  unfold State.readSome
  refine List.foldlRecOn _ _ (motive := fun r : Option (List Byte × Option Nat) × State => s.crcKept r.2) s.crcKept_refl fun r hr p _ => ?_
  have htime : s.crcKept (if timed = true then r.2.passTime (regPort m) else r.2) := by
    split
    · exact State.crcKept_trans hr (State.crcKept_of_words (r.2.passTime_words _))
    · exact hr
  have hatt := State.crcKept_trans htime (State.crcKept_attempt (r := MemReq.read m p.1 p.2.length) rfl rfl hm)
  split
  · split <;> next heq => rw [heq] at hatt; exact hatt
  · exact hr

end Sys2Proof.Machine
end

section
/-! A load whose image is read whole (10_insert_engines R334). -/

namespace Sys2Proof.Machine

/-! The check value has 64 bits. -/

theorem crc64Bit_lt {c : Nat} (h : c < 2 ^ 64) : crc64Bit c < 2 ^ 64 := by
  unfold crc64Bit
  split
  · exact Nat.xor_lt_two_pow (by omega) (by decide)
  · omega

theorem crc64Byte_lt {c : Nat} (h : c < 2 ^ 64) (b : Byte) : crc64Byte c b < 2 ^ 64 := by
  have hx : c ^^^ b.toNat < 2 ^ 64 := Nat.xor_lt_two_pow h (b.isLt.trans (by decide))
  iterate 8 refine crc64Bit_lt ?_
  exact hx

theorem crc64_lt (l : List Byte) : crc64 l < 2 ^ 64 := by
  have hrun : crc64Run (2 ^ 64 - 1) l < 2 ^ 64 :=
    List.foldlRecOn l crc64Byte (motive := fun c => c < 2 ^ 64) (by decide) fun _ hc b _ => crc64Byte_lt hc b
  exact Nat.xor_lt_two_pow hrun (by decide)

/-! The engine that an image makes. -/

theorem tget_foldl_tset_range (f : Nat → Word) {n k : Nat} (hk : k < n) :
    tget zeroAt ((List.range n).foldl (fun t i => tset zeroAt t i (f i)) []) k = f k := by
  induction n with
  | zero => omega
  | succ n ih =>
    rw [List.range_succ, List.foldl_append, List.foldl_cons, List.foldl_nil]
    by_cases hn : k = n
    · rw [hn, tget_tset_same]
    · rw [tget_tset_other _ _ _ _ _ hn, ih (by omega)]

theorem IeSt.pm_loaded (i : IeSt) (b : List Byte) {p : Nat} (x y : Nat) {k : Nat} (hk : k < p) :
    tget zeroAt (i.loaded b p x y).pm k = w32 (leAt b (16 + 4 * k) 4) := tget_foldl_tset_range _ hk

/-! What the device shows of a load that has passed. -/

/-- The load has passed with this check value. -/
def State.loadPassed (s : State) (e crc : Nat) : State :=
  ((s.set64 (0x900B8 + 0x1000 * e) crc).putIeState e ieStopped).latch (eIE e) 2

theorem State.ie_loadPassed (s : State) (e crc : Nat) : (s.loadPassed e crc).ie e = s.ie e := State.ie_latch _ _ _ _

theorem evKey_eIE_ge (e : Fin 8) : 0x90000 ≤ evKey (eIE e) := by
  have h : ∀ e : Fin 8, 0x90000 ≤ evKey (eIE e) := by decide +kernel
  exact h e

/-- A word of an engine's page other than EVENT stays when LOAD_DONE is latched. -/
theorem State.keeps_latch_ieWord (s : State) (src bit : Nat) {k : Nat} (hk : 0x90000 ≤ k) (ho : k % 0x1000 ≠ 0x10) :
    (s.latch src bit).w k = s.w k := by
  refine s.keeps_latch_any src bit k fun hm => ?_
  rcases List.mem_cons.mp hm with h | h
  · exact evKey_ne src k ho h
  · have := discardWords_lt h; omega

theorem State.ieState_loadPassed (s : State) (e : Fin 8) (crc : Nat) : (s.loadPassed e crc).ieState e = ieStopped := by
  have hlatch := ((s.set64 (0x900B8 + 0x1000 * e.val) crc).putIeState e ieStopped).keeps_latch_ieWord (eIE e) 2
    (k := (R.IE_S_STATE.pg e).addr) (by simp only [Fld.pg, R.IE_S_STATE]; omega) (by simp only [Fld.pg, R.IE_S_STATE]; omega)
  calc (s.loadPassed e crc).ieState e
      = ((s.set64 (0x900B8 + 0x1000 * e.val) crc).putIeState e ieStopped).get (R.IE_S_STATE.pg e) := by
        simp only [State.ieState, State.get, State.n, State.loadPassed, hlatch]
    _ = ieStopped := State.get_put_pg_same _ R.IE_S_STATE e _ (by decide) (by decide)

theorem State.loadedCrc_loadPassed (s : State) (e crc : Nat) (h : crc < 2 ^ 64) : (s.loadPassed e crc).loadedCrc e = crc := by
  have hword : ∀ k, 0x90000 ≤ k → k % 0x1000 ≠ 0x10 → k ≠ (R.IE_S_STATE.pg e).addr →
      (s.loadPassed e crc).w k = (s.set64 (0x900B8 + 0x1000 * e) crc).w k := fun k hk ho hs =>
    (State.keeps_latch_ieWord _ (eIE e) 2 hk ho).trans (State.put_w_other _ _ _ _ hs)
  have hlo := hword (0x900B8 + 0x1000 * e) (by omega) (by omega) (by simp only [Fld.pg, R.IE_S_STATE]; omega)
  have hhi := hword (0x900B8 + 0x1000 * e + 4) (by omega) (by omega) (by simp only [Fld.pg, R.IE_S_STATE]; omega)
  calc (s.loadPassed e crc).loadedCrc e
      = (s.set64 (0x900B8 + 0x1000 * e) crc).get64 (0x900B8 + 0x1000 * e) := by
        simp only [State.loadedCrc, State.get64, State.n, hlo, hhi]
    _ = crc := (State.get64_set64 _ _ _).trans (Nat.mod_eq_of_lt h)

theorem State.hasEvent_loadPassed (s : State) (e : Fin 8) (crc : Nat) : (s.loadPassed e crc).hasEvent (eIE e) 2 = true :=
  State.hasEvent_latch_any (by decide) (le_trans (by decide) (evKey_eIE_ge e))

/-! The load. -/

/-- A pair from its first part, for any pair: of two reads the kernel would evaluate both. -/
theorem eq_mk_of_fst_eq {α β : Type} {q : α × β} {x : α} (h : q.1 = x) : q = (x, q.2) := Prod.ext h rfl

theorem renderMaster_ie (e : Fin 8) : renderMaster (0x38 + e) = false := by
  have h : ∀ e : Fin 8, renderMaster (0x38 + e) = false := by decide
  exact h e

/-- A load that is read whole comes to its check value. (The definition is opened as a function: the kernel would otherwise compare
matches by evaluating the reads.) -/
theorem State.ieLoad_read {s v u : State} {e : Nat} {h b : List Byte} {p x y : Nat}
    (hh : s.readSome true (0x38 + e) (s.get64 (0x900A8 + 0x1000 * e) % 2 ^ 40) 16 = (some (h, none), v))
    (hc : imageCounts h = some (p, x, y))
    (hb : v.readSome true (0x38 + e) (s.get64 (0x900A8 + 0x1000 * e) % 2 ^ 40 + 16) (4 * (p + x + y)) = (some (b, none), u)) :
    s.ieLoad e = u.ieLoadEnd e (h ++ b) p x y 0 := by
  conv => lhs; fun; fun; delta State.ieLoad
  extract_lets m a
  split
  · next heq => nomatch hh.symm.trans heq
  · next heq => nomatch hh.symm.trans heq
  · next heq =>
    cases hh.symm.trans heq
    split
    · next heq' => nomatch hc.symm.trans heq'
    · next heq' =>
      cases hc.symm.trans heq'
      split
      · next hr => nomatch hb.symm.trans hr
      · next hr => cases hb.symm.trans hr; rfl

theorem State.ieLoadEnd_passed {u : State} {e : Nat} {b : List Byte} (p x y : Nat) (h : crc64 b = u.activeCrc e) :
    u.ieLoadEnd e b p x y 0 = (u.setIe e fun i => i.loaded b p x y).loadPassed e (crc64 b) := by
  have hact : crc64 b = (u.setIe e fun i => i.loaded b p x y).activeCrc e := h
  simp only [State.ieLoadEnd, ne_eq, not_true_eq_false, if_false, if_pos hact, State.loadPassed]

/-- The reads of a load leave the check value that ACTIVE names. -/
theorem State.activeCrc_readSome (s : State) (e : Fin 8) (a n : Nat) :
    (s.readSome true (0x38 + e) a n).2.activeCrc e = s.activeCrc e :=
  State.activeCrc_of_crcKept (s.crcKept_readSome true a n (renderMaster_ie e)) e

/-- Settles O30: a transfer of one word, and a load whose image is read whole. -/
theorem ieTransfers : Obligations.IeTransfers := by
  unfold Obligations.IeTransfers
  refine ⟨?bulk, ?load⟩
  case bulk =>
    intro s e b hon hrun hlen hb hserves hclean hown _
    exact gives_bulkWord hon hrun hlen (by simpa using hb) hserves hclean (by simpa using hown)
  case load =>
    intro s e h b p x y _ hon hst hh hc hb hcrc
    have hact := (State.activeCrc_readSome (s.readSome true (0x38 + e.val) (s.get64 (0x900A8 + 0x1000 * e.val) % 2 ^ 40) 16).2 e
      (s.get64 (0x900A8 + 0x1000 * e.val) % 2 ^ 40 + 16) (4 * (p + x + y))).trans (State.activeCrc_readSome s e _ _)
    have hload := (State.ieLoad_read (eq_mk_of_fst_eq hh) hc (eq_mk_of_fst_eq hb)).trans (State.ieLoadEnd_passed p x y (hcrc.trans hact.symm))
    refine gives_done (congrArg done ((if_pos ⟨hon, hst⟩ : effIeLoadDone e s = s.ieLoad e).trans hload)) ?_
    rw [State.ieState_settle, State.ieState_loadPassed, State.settle_hasEvent, State.hasEvent_loadPassed, State.ie_settle,
      State.ie_loadPassed, State.ie_setIe_same]
    refine ⟨rfl, ?_, rfl, IeSt.fl_setFl_same _ _ _, fun k hk => IeSt.pm_loaded _ _ _ _ hk⟩
    exact (State.get64_congr (ks := []) (fun k _ => State.settle_w _ k) (by simp) (by simp)).trans
      (State.loadedCrc_loadPassed _ e _ (crc64_lt _))

end Sys2Proof.Machine
end

section
/-! A write into CONV's area of the shared SRAM (09_room_correction R291; 11_memory_fabric R343, R346). The area holds what CONV works on,
and a fabric write there changes it: SramAccesses sets OBJ's banks and inbox apart from plain memory but not CONV's area, and lets a
write change nothing beside the answer, the bytes and the marks of their words. -/

namespace Sys2Proof.Machine

/-- In RUN, in slot 0, with every domain on, where CONV has heard nothing yet. -/
def convSilent : State := { State.reset with words := [(0x9C, 3), (0x1088, 0x3FFF), (0x1090, 1), (0x200C, 5)] }

/-- Four bytes for the first word of CONV's send spectra, the real part of bin 0 of output 0. -/
def specWord : List Byte := [1, 0, 0, 0]

/-- The SRAM serves the write. -/
theorem convSilent_servesSram : convSilent.servesSram (0 : Master).toNat (0x10220000 : Addr).toNat specWord.length true = true := by
  decide +kernel

/-- It meets no error, no poison and nothing of OBJ's. -/
theorem specWord_plain :
    convSilent.clean (0x10220000 : Addr).toNat specWord.length = true ∧ plainArea (0x10220000 : Addr).toNat specWord.length = true ∧
      inboxSlot (0x10220000 : Addr).toNat specWord.length = none := by decide +kernel

/-- CONV then holds a spectrum that is not silent. -/
theorem specWord_heard : convSilent.conv.x1 = [] ∧ (effSramWrite 0 0x10220000 specWord convSilent).conv.x1 ≠ [] := by decide +kernel

/-- Refutes O31, by its clause on a plain write: in CONV's area a write changes what CONV holds beside the bytes of memory (R291). -/
theorem not_sramAccesses : ¬ Obligations.SramAccesses := by
  unfold Obligations.SramAccesses
  rintro ⟨-, hWrite, -⟩
  have hx : exec (.sramWrite 0 0x10220000 specWord) convSilent = done (effSramWrite 0 0x10220000 specWord convSilent) := rfl
  obtain ⟨hclean, hplain, hinbox⟩ := specWord_plain
  obtain ⟨-, -, -, -, hframe⟩ :=
    (gives_done_iff hx).mp (hWrite convSilent 0 0x10220000 specWord convSilent_servesSram hclean hplain hinbox)
  have hconv : (effSramWrite 0 0x10220000 specWord convSilent).settle.conv = convSilent.conv := (congrArg State.conv hframe :)
  rw [State.settle_conv] at hconv
  obtain ⟨hbefore, hafter⟩ := specWord_heard
  exact hafter (hconv ▸ hbefore)

end Sys2Proof.Machine
end

section
/-! A visit of the scrubber while a locked sequence is under way (11_memory_fabric R350, R358). The visit of a word of target 2 waits for
the lock to end: ScrubberAndInjection moves the scrubber on, whether a lock is held or not. -/

namespace Sys2Proof.Machine

/-- While a lock is held, a visit of a word that lies in target 2 does nothing. -/
theorem State.scrub_locked {s : State} (hl : s.lock.isSome = true)
    (hw : wordShared (s.nextScrub (s.get R.SRAM_SCRUB_POS_WORD)) = true) : s.scrub = s := by
  simp only [State.scrub, hl, hw, Bool.and_self, Bool.or_true, if_true]

/-- Every domain is on and the scrubber, enabled, comes to a word of target 2 while PCIe function 1 holds the lock. -/
def scrubMeetsLock : State :=
  { State.reset with
    words := [(0x1088, 0x3FFF), (0xA000C, 1), (0xA8008, 1), (0xA8084, 1040000)]
    lock := some ⟨1, 0x117C0000, [9, 0, 0, 0], [4, 0, 0, 0]⟩ }

/-- The word and the one after it, both powered. -/
theorem scrubMeetsLock_words :
    scrubMeetsLock.get R.SRAM_SCRUB_POS_WORD = 1040000 ∧ scrubMeetsLock.nextScrub 1040000 = 1040000 ∧
      scrubMeetsLock.nextScrub (1040000 + 1) = 1040001 ∧ wordShared 1040000 = true := by decide +kernel

/-- Refutes O32, by its clause on a good word: while a lock is held, the visit of a word of target 2 waits, and the scrubber stays there. -/
theorem not_scrubberAndInjection : ¬ Obligations.ScrubberAndInjection := by
  unfold Obligations.ScrubberAndInjection
  rintro ⟨hGood, -⟩
  obtain ⟨hpos, hword, hnext, hshared⟩ := scrubMeetsLock_words
  have hvisit : scrubMeetsLock.nextScrub (scrubMeetsLock.get R.SRAM_SCRUB_POS_WORD) = 1040000 := by rw [hpos, hword]
  have hx : exec .scrubVisit scrubMeetsLock = done scrubMeetsLock :=
    congrArg done (State.scrub_locked rfl (by rw [hvisit, hshared]))
  have hpowered : scrubMeetsLock.is R.SRAM_C_SCRUB_EN = true ∧ scrubMeetsLock.pageOn eSRAM = true := by decide +kernel
  have hgives := hGood scrubMeetsLock hpowered.1 hpowered.2
  rw [hvisit, hnext] at hgives
  obtain ⟨hmoved, -⟩ := (gives_done_iff hx).mp (hgives (by decide) rfl rfl (by decide))
  rw [State.settle_get, hpos] at hmoved
  exact absurd hmoved (by decide)

end Sys2Proof.Machine
end

section
/-! A write to the shared SRAM beyond the areas of the blocks that keep its words elsewhere (11_memory_fabric R342, R346). The fabric writes
each word of the request separately; where no word holds an error or poison, the bytes of memory take the data in a row. -/

namespace Sys2Proof.Machine

/-! The words of a request. -/

theorem sramWord_shared {a : Nat} (h : 0x10000000 ≤ a) (h' : a < 0x11800000) : sramWord a = some ((a - 0x10000000) / 24) :=
  if_pos ⟨h, by omega⟩

theorem eraseDups_concat (l : List Nat) (x : Nat) : (l ++ [x]).eraseDups = if x ∈ l then l.eraseDups else l.eraseDups ++ [x] := by
  rw [List.eraseDups_append]
  by_cases h : x ∈ l <;> simp [List.removeAll, h, List.eraseDups_cons]

/-- One more byte lies in a word that the request touches already, or in another one. -/
theorem wordsOf_succ {a n w : Nat} (h : sramWord (a + n) = some w) :
    wordsOf a (n + 1) = if w ∈ wordsOf a n then wordsOf a n else wordsOf a n ++ [w] := by
  simp only [wordsOf, List.range_succ, List.filterMap_append, List.filterMap_cons, List.filterMap_nil, h, eraseDups_concat,
    List.mem_eraseDups]

theorem range'_snoc {v w : Nat} (h : v ≤ w) : List.range' v (w - v + 1) ++ [w + 1] = List.range' v (w + 1 - v + 1) := by
  rw [Nat.sub_add_comm h, List.range'_concat (n := w - v + 1), show v + 1 * (w - v + 1) = w + 1 by omega]

/-- Bytes in a row lie in words in a row. -/
theorem wordsOf_shared {a : Nat} (h : 0x10000000 ≤ a) (n : Nat) (h' : a + n < 0x11800000) :
    wordsOf a (n + 1) = List.range' ((a - 0x10000000) / 24) ((a + n - 0x10000000) / 24 - (a - 0x10000000) / 24 + 1) := by
  induction n with
  | zero =>
    rw [wordsOf_succ (sramWord_shared h h'), Nat.add_zero, Nat.sub_self]
    rfl
  | succ n ih =>
    have hfirst : (a - 0x10000000) / 24 ≤ (a + n - 0x10000000) / 24 := by omega
    have hnext : (a + (n + 1) - 0x10000000) / 24 = (a + n - 0x10000000) / 24 ∨
        (a + (n + 1) - 0x10000000) / 24 = (a + n - 0x10000000) / 24 + 1 := by omega
    simp only [wordsOf_succ (sramWord_shared (show 0x10000000 ≤ a + (n + 1) by omega) h'), ih (by omega), List.mem_range'_1]
    rcases hnext with hnext | hnext <;> rw [hnext]
    · exact if_pos (by omega)
    · rw [if_neg (by omega), range'_snoc hfirst]

/-! Bytes in a row. -/

theorem State.putBytes_append (l l' : List Byte) (s : State) (a : Nat) :
    s.putBytes a (l ++ l') = (s.putBytes a l).putBytes (a + l.length) l' := by
  induction l generalizing s a with
  | nil => rfl
  | cons b l ih =>
    rw [List.cons_append, State.putBytes, ih, State.putBytes, List.length_cons, Nat.add_assoc, Nat.add_comm 1]

/-- The state with other error patterns and poison marks of the SRAM's words. -/
def State.withMarks (s : State) (e p : Tab Nat) : State := { s with sramErr := e, poison := p }

theorem State.putBytes_withMarks (l : List Byte) (s : State) (a : Nat) (e p : Tab Nat) :
    (s.withMarks e p).putBytes a l = (s.putBytes a l).withMarks e p := by
  induction l generalizing s a with
  | nil => rfl
  | cons b l ih => exact ih (s.setByte a b) (a + 1)

/-- No block keeps what lies beyond OBJ's banks. -/
theorem State.ownBytes_beyond (s : State) {a : Nat} (d : List Byte) (h : 0x11710000 ≤ a) : s.ownBytes a d = s := by
  have hbank : s.bankBytes a d = s := List.foldl_fixed' (fun x => if_neg (by omega)) _
  rw [State.ownBytes, hbank]
  exact List.foldl_fixed' (fun x => if_neg (by unfold cvEnd; omega)) _

/-! A word, and words in a row. -/

/-- Word w holds no error and no poison. -/
def State.goodWord (s : State) (w : Nat) : Prop := s.poisoned w = false ∧ tget zeroAt s.sramErr w = 0

theorem State.goodWord_of_clean {s : State} {a n w : Nat} (h : s.clean a n = true) (hw : w ∈ wordsOf a n) : s.goodWord w := by
  simpa [State.goodWord] using List.all_eq_true.mp h w hw

/-- The data of a write of d at a that go to the addresses from b up to e. -/
def dataIn (a : Nat) (d : List Byte) (b e : Nat) : List Byte := (d.drop (max a b - a)).take (min (a + d.length) e - max a b)

theorem dataIn_all {a b e : Nat} {d : List Byte} (hb : b ≤ a) (he : a + d.length ≤ e) : dataIn a d b e = d := by
  simp [dataIn, max_eq_left hb, min_eq_left he]

/-- They are stored up to any address between, and then from there on. -/
theorem State.putBytes_dataIn (s : State) {a b c e : Nat} (d : List Byte) (ha : a ≤ c) (hb : b ≤ c) (he : c ≤ e) :
    s.putBytes (max a b) (dataIn a d b e) = (s.putBytes (max a b) (dataIn a d b c)).putBytes (max a c) (dataIn a d c e) := by
  have hmc : max a c = c := max_eq_right ha
  by_cases hc : c ≤ a + d.length
  · have hsplit : dataIn a d b e = dataIn a d b c ++ dataIn a d c e := by
      simp only [dataIn, hmc, min_eq_right hc]
      rw [show min (a + d.length) e - max a b = (c - max a b) + (min (a + d.length) e - c) by omega, List.take_add, List.drop_drop,
        show max a b - a + (c - max a b) = c - a by omega]
    have hlen : max a b + (dataIn a d b c).length = max a c := by
      simp only [dataIn, List.length_take, List.length_drop]; omega
    rw [hsplit, State.putBytes_append, hlen]
  · have hrest : dataIn a d c e = [] := by
      simp only [dataIn, List.take_eq_nil_iff]; omega
    have hsame : dataIn a d b e = dataIn a d b c := by
      simp only [dataIn]; congr 1; omega
    rw [hrest, hsame]; rfl

/-- The part of a write that falls into a good word is stored, whether it covers the word or not. -/
theorem State.writeWord_good {s : State} (m : Nat) {a w : Nat} (d : List Byte) (ha : 0x11710000 ≤ a) (h : s.goodWord w) :
    ∃ e p, s.writeWord m a d w =
        (true, (s.putBytes (max a (sramBase w)) (dataIn a d (sramBase w) (sramBase w + 24))).withMarks e p) ∧
      ∀ x, x ≠ w → tget zeroAt e x = tget zeroAt s.sramErr x ∧ tget zeroAt p x = tget zeroAt s.poison x := by
  obtain ⟨hp, he⟩ := h
  have hown : ∀ u : State, u.ownBytes (max a (sramBase w)) (dataIn a d (sramBase w) (sramBase w + 24)) = u := fun u =>
    u.ownBytes_beyond _ (le_trans ha (le_max_left _ _))
  by_cases hwhole : max a (sramBase w) = sramBase w ∧ min (a + d.length) (sramBase w + 24) = sramBase w + 24
  · refine ⟨tset zeroAt s.sramErr w 0, tset zeroAt s.poison w 0, ?_, fun x hx =>
      ⟨tget_tset_other _ _ _ _ _ hx, tget_tset_other _ _ _ _ _ hx⟩⟩
    have hheal : s.healWord w = s.withMarks (tset zeroAt s.sramErr w 0) (tset zeroAt s.poison w 0) := by
      simp only [State.healWord, hp, Bool.false_eq_true, if_false]; rfl
    simp only [State.writeWord, if_pos hwhole, hheal]
    exact congrArg (true, ·) ((hown _).trans (State.putBytes_withMarks _ _ _ _ _))
  · refine ⟨s.sramErr, s.poison, ?_, fun _ _ => ⟨rfl, rfl⟩⟩
    have hread : s.readWord m w = (true, s) := by simp [State.readWord, hp, he]
    simp only [State.writeWord, if_neg hwhole, hp, hread, Bool.false_eq_true, if_false, if_true]
    exact congrArg (true, ·) ((hown _).trans (State.putBytes_withMarks _ s _ s.sramErr s.poison))

/-- Good words in a row, the first of which ends beyond a, take the data that go there. -/
theorem State.foldl_writeWord_good (m : Nat) {a : Nat} (d : List Byte) (ha : 0x11710000 ≤ a) (k : Nat) {w : Nat} {s : State}
    (hk : w + k ≤ sharedWords) (hw : a < 0x10000000 + 24 * (w + 1)) (h : ∀ x ∈ List.range' w k, s.goodWord x) :
    ∃ e p, (List.range' w k).foldl (fun r w => (r.1 && (r.2.writeWord m a d w).1, (r.2.writeWord m a d w).2)) (true, s) =
      (true, (s.putBytes (max a (0x10000000 + 24 * w)) (dataIn a d (0x10000000 + 24 * w) (0x10000000 + 24 * (w + k)))).withMarks e p) := by
  induction k generalizing w s with
  | zero =>
    have hnone : dataIn a d (0x10000000 + 24 * w) (0x10000000 + 24 * (w + 0)) = [] := by
      simp only [dataIn, List.take_eq_nil_iff]; omega
    exact ⟨s.sramErr, s.poison, by rw [hnone]; rfl⟩
  | succ k ih =>
    have hbase : sramBase w = 0x10000000 + 24 * w := if_pos (by omega)
    obtain ⟨e, p, hfirst, hother⟩ := State.writeWord_good m d ha (h w (by simp))
    obtain ⟨e', p', hrest⟩ := ih (w := w + 1)
      (s := (s.putBytes (max a (sramBase w)) (dataIn a d (sramBase w) (sramBase w + 24))).withMarks e p) (by omega) (by omega) (by
        intro x hx
        have hmem := List.mem_range'_1.mp hx
        obtain ⟨herr, hpoison⟩ := hother x (by omega)
        obtain ⟨hp, he⟩ := h x (by rw [List.mem_range'_1]; omega)
        exact ⟨(congrArg majBit hpoison).trans hp, herr.trans he⟩)
    refine ⟨e', p', ?_⟩
    rw [List.range'_succ, List.foldl_cons, hfirst, Bool.and_self, hrest, State.putBytes_withMarks, hbase,
      show 0x10000000 + 24 * w + 24 = 0x10000000 + 24 * (w + 1) by omega, show w + 1 + k = w + (k + 1) by omega,
      State.putBytes_dataIn s (b := 0x10000000 + 24 * w) (e := 0x10000000 + 24 * (w + (k + 1))) d hw.le (by omega)
        (show 0x10000000 + 24 * (w + 1) ≤ _ by omega)]
    rfl

/-- A write into clean words beyond the areas of the blocks. -/
theorem State.sramStore_clean {s : State} (m : Nat) {a : Nat} {d : List Byte} (ha : 0x11710000 ≤ a) (he : a + d.length ≤ 0x11800000)
    (hd : d ≠ []) (h : s.clean a d.length = true) : ∃ e p, s.sramStore m a d = (true, (s.putBytes a d).withMarks e p) := by
  obtain ⟨n, hn⟩ : ∃ n, d.length = n + 1 := ⟨d.length - 1, by have := List.length_pos_iff.mpr hd; omega⟩
  have hwords := wordsOf_shared (a := a) (by omega) n (by omega)
  have hgood : ∀ x ∈ wordsOf a d.length, s.goodWord x := fun x hx => State.goodWord_of_clean h hx
  rw [hn, hwords] at hgood
  obtain ⟨e, p, hstore⟩ := State.foldl_writeWord_good m d ha _ (by unfold sharedWords; omega) (by omega) hgood
  rw [max_eq_left (by omega), dataIn_all (by omega) (by omega), ← hwords, ← hn] at hstore
  exact ⟨e, p, hstore⟩

end Sys2Proof.Machine
end

section
/-! Requests to the on-chip SRAM that come alone (11_memory_fabric R353–R360): the answer follows at once, and the arbitration of bank 0
shows the visit. -/

namespace Sys2Proof.Machine

/-- The words in which the arbitration of bank 0 shows (R360, R362). -/
def arbWords : List Nat := [0xA00AC, 0xA00B0]

theorem arbInput_lt {m i : Nat} (h : arbInput m = some i) : i < 16 := by
  unfold arbInput at h
  repeat' split at h
  all_goals simp only [Option.some.injEq, reduceCtorEq] at h
  all_goals omega

theorem State.writes_arbVisit (s : State) (m a n : Nat) : s.writes (s.arbVisit m a n) arbWords := by
  unfold State.arbVisit
  split
  · unfold State.arbSample
    split
    · exact s.writes_refl _
    · next i hi =>
      have hlt := arbInput_lt hi
      have hword : i / 8 = 0 ∨ i / 8 = 1 := by omega
      exact s.writes_setW _ (by rcases hword with hw | hw <;> simp [arbWords, hw])
  · exact s.writes_refl _

/-- Where no more than registers has changed, nothing follows that did not before. -/
theorem State.idle_of_regs {s t : State} (h : t = s.regsOf t) : t.fabricIdle = s.fabricIdle :=
  State.registersOnly_idle (State.registersOnly_of_regs h)

/-- A request that finds no other at the fabric and lets none go: its requester is told the answer. -/
theorem State.ask_alone {s t : State} {r : MemReq} {x : Ans} {b : BusOut} (hm : s.noRequest r.master = false) (hi : s.fabricIdle = true)
    (h4 : targetOf r.addr ≠ 4) (hr : s.request r = (some x, t)) (ht : t.fabricIdle = true)
    (hd : ∀ u : State, u.bus = t.bus → u.deliver r x = u.withBus b) :
    s.ask r = (t.arbVisit r.master r.addr r.width).withBus b := by
  have harr : s.arrive s.waiting r = (r, s) := by simp [State.arrive, State.portBound, h4]
  have hb : s.blocked r = false := by simp [State.blocked, State.waiting_of_idle hi, h4]
  have harb := (t.writes_arbVisit r.master r.addr r.width).2
  simp only [State.ask, hm, State.issue, State.direct, harr, hb, hr, Bool.false_eq_true, if_false]
  rw [hd _ (congrArg State.bus harb :)]
  exact State.afterAccess_idle _ ((State.idle_of_regs harb).trans ht :)

end Sys2Proof.Machine
end

section
/-! The locked read of an AtomicOp (11_memory_fabric R357). -/

namespace Sys2Proof.Machine

theorem width_le {n : Nat} (h : widthOk n = true) : n ≤ 64 := by
  simp only [widthOk, Bool.or_eq_true, decide_eq_true_eq] at h
  omega

/-- Target 2 lies beyond the areas of the blocks. -/
theorem target2_bounds {a : Nat} (h : targetOf a = 2) : 0x117C0000 ≤ a ∧ a ≤ 0x117DFFFF := by
  unfold targetOf at h
  split_ifs at h <;> omega

theorem State.shownBytes_target2 (s : State) {a n : Nat} (h : targetOf a = 2) (hn : n ≤ 64) : s.shownBytes a n = s.bytes a n := by
  obtain ⟨hlo, hhi⟩ := target2_bounds h
  refine List.map_congr_left fun i hi => s.shown_plain ?_
  have := List.mem_range.mp hi
  simp only [ownArea, Bool.or_eq_false_iff, Bool.and_eq_false_iff, decide_eq_false_iff_not]
  omega

/-- A request that the SRAM serves can be made, and finds no other. -/
theorem State.alone_of_servesSram {s : State} {m a n : Nat} {write : Bool} (h : s.servesSram m a n write = true) :
    s.noRequest m = false ∧ s.fabricIdle = true := by
  simp only [State.servesSram, Bool.and_eq_true, Bool.not_eq_true'] at h
  obtain ⟨⟨⟨⟨⟨⟨⟨⟨hno, hidle⟩, -⟩, -⟩, -⟩, -⟩, -⟩, -⟩, -⟩ := h
  exact ⟨hno, hidle⟩

/-- The lock that a locked read of n bytes at a takes: the value to write, and the value read. -/
def State.lockFor (s : State) (m a n : Nat) (q : AtomReq) : LockSt :=
  ⟨m, a, leBytes n (q.result (leAt (s.bytes a n) 0 n) % 2 ^ (8 * n)), s.bytes a n⟩

/-- The read has drawn its free values and the lock is taken. -/
def State.lockTaken (s : State) (l : LockSt) : State := ({ s.drawn with lock := some l }).putB R.FAB_S_LOCK_HELD true

theorem State.request_lockRead {s : State} {r : MemReq} {q : AtomReq} (hw : r.write = false) (hq : r.atomic = some q)
    (ht : targetOf r.addr = 2) (h : s.Serves r.master r.addr r.width false) (hc : s.clean r.addr r.width = true) :
    s.request r = (some (.wait, s.bytes r.addr r.width), s.lockTaken (s.lockFor r.master r.addr r.width q)) := by
  have hlock : s.lockedOut r.master = false := by rw [State.lockedOut, h.lock]; rfl
  have hall := ht ▸ h.allowed
  have hpow : s.domOn 5 = true := by simpa [ht] using h.powered
  have hread : s.lockRead r q =
      (some (.wait, s.bytes r.addr r.width), s.lockTaken (s.lockFor r.master r.addr r.width q)) := by
    simp only [State.lockRead, State.sramServe_read hw hc, State.shownBytes_target2 s ht (width_le h.width), if_true]
    rfl
  simp [State.request, ht, hw, hq, h.width, h.aligned, h.lock, State.permit, hall, hlock, hpow, hread]

/-- The request that an AtomicOp makes. -/
def MemReq.locked (m a n : Nat) (q : AtomReq) : MemReq := ⟨m, a, false, n, [], some q, false, false, 0, none, false⟩

/-- The answer that is still to come is not told to the ring. -/
theorem State.deliver_locked_wait (s : State) (m a n : Nat) (q : AtomReq) (d : List Byte) :
    s.deliver (MemReq.locked m a n q) (.wait, d) = s.withBus (s.told m .wait []) := by
  by_cases hm : m = 3 <;> simp [State.deliver, MemReq.locked, hm, State.told, State.answer, State.withBus]

theorem State.writes_lockTaken (s : State) (l : LockSt) :
    State.writes { s.drawn with lock := some l } (s.lockTaken l) [R.FAB_S_LOCK_HELD.addr] := State.writes_put _ _ (by simp)

/-- The clause on the locked read. -/
theorem gives_atomicOp {s : State} {m : Master} {op : AtomicOp} {a : Addr} {wide : Bool} {x y : BitVec 64} {n : Nat}
    (hn : n = if wide then 8 else 4) (hm : m.toNat = 0 ∨ m.toNat = 1 ∨ m.toNat = 3) (ht : targetOf a.toNat = 2)
    (hserves : s.servesSram m.toNat a.toNat n false = true) (hc : s.clean a.toNat n = true) :
    Gives (.atomicOp m op a wide x y) s fun t =>
      t.lock = some (s.lockFor m.toNat a.toNat n ⟨op, wide, x.toNat % 2 ^ (8 * n), y.toNat % 2 ^ (8 * n)⟩) ∧
        t.is R.FAB_S_LOCK_HELD = true ∧ t.bus = s.told m.toNat .wait [] ∧
        s.keeps t [0xA00AC, 0xA00B0, R.FAB_S_LOCK_HELD.addr] ∧
        t = { s.regsOf t with lock := t.lock, bus := t.bus, freeCtr := t.freeCtr } := by
  obtain ⟨hno, hidle⟩ := State.alone_of_servesSram hserves
  have h4 : targetOf a.toNat ≠ 4 := by rw [ht]; decide
  generalize hq : (⟨op, wide, x.toNat % 2 ^ (8 * n), y.toNat % 2 ^ (8 * n)⟩ : AtomReq) = q
  have hreq := State.request_lockRead (r := MemReq.locked m.toNat a.toNat n q) rfl rfl ht (State.serves_of_servesSram hserves) hc
  have hask := State.ask_alone (r := MemReq.locked m.toNat a.toNat n q) (b := s.told m.toNat .wait []) hno hidle h4 hreq hidle
    fun u hu => by rw [State.deliver_locked_wait, State.told, hu]; rfl
  have hx : exec (.atomicOp m op a wide x y) s =
      done (((s.lockTaken (s.lockFor m.toNat a.toNat n q)).arbVisit m.toNat a.toNat n).withBus (s.told m.toNat .wait [])) := by
    refine congrArg done (Eq.trans ?_ hask)
    rw [effAtomicOp, if_pos hm, ← hn, hq]; rfl
  have harb := (s.lockTaken (s.lockFor m.toNat a.toNat n q)).writes_arbVisit m.toNat a.toNat n
  have hwrites := State.writes_trans (ks := [0xA00AC, 0xA00B0, R.FAB_S_LOCK_HELD.addr])
    (State.writes_mono (s.writes_lockTaken _) (by simp)) (State.writes_mono harb (by simp [arbWords]))
  have hframe := State.frame_bus_settle hwrites.2 (s.told m.toNat .wait [])
  refine gives_done hx ⟨(congrArg State.lock hframe :), ?_, State.settle_bus _, State.keeps_settle hwrites.1, ?_⟩
  · rw [State.settle_is]
    exact (State.keeps_is harb.1 (by decide)).trans (State.is_putB _ _ _ (by decide) rfl)
  · rw [hframe]; rfl

end Sys2Proof.Machine
end

section
/-! The closing write of a locked sequence (11_memory_fabric R357, R358). -/

namespace Sys2Proof.Machine

/-- A write beyond OBJ's inbox completes no slot there. -/
theorem State.inboxWrite_beyond (s : State) (m n : Nat) {a : Nat} (h : 0x11791000 ≤ a) : s.inboxWrite m a n = (.ok, s) := by
  have hslot : ∀ j n', inboxSlot (a + 32 * j) n' = none := fun j n' =>
    List.findSome?_eq_none_iff.mpr fun i _ => if_neg (by omega)
  exact List.foldl_fixed' (fun j => by simp only [hslot]) _

theorem ne_nil_of_widthOk {d : List Byte} (h : widthOk d.length = true) : d ≠ [] := by
  rintro rfl
  exact absurd h (by decide)

/-- The bytes of a write are stored, and the marks of its words follow. -/
def State.written (s : State) (a : Nat) (d : List Byte) (e p : Tab Nat) : State :=
  { s with mem := (s.putBytes a d).mem, sramErr := e, poison := p }

/-- A write of clean words of target 2. -/
theorem State.sramServe_put {s : State} (m : Nat) {a : Nat} {d : List Byte} (ht : targetOf a = 2) (hw : widthOk d.length = true)
    (hc : s.clean a d.length = true) :
    ∃ e p, s.sramServe (MemReq.put m a d) = ((.ok, []), s.written a d e p) := by
  obtain ⟨hlo, hhi⟩ := target2_bounds ht
  have hwide := width_le hw
  obtain ⟨e, p, hstore⟩ := State.sramStore_clean m (by omega) (by omega) (ne_nil_of_widthOk hw) hc
  have hopen : s.bankShut a = false := by
    simp only [State.bankShut, Bool.and_eq_false_iff, decide_eq_false_iff_not]; omega
  have hwritten : (s.putBytes a d).withMarks e p = s.written a d e p := by rw [State.putBytes_frame]; rfl
  refine ⟨e, p, ?_⟩
  simp only [State.sramServe, MemReq.put, hopen, hstore, State.inboxWrite_beyond _ m d.length (show 0x11791000 ≤ a by omega),
    hwritten, Bool.false_and, Bool.false_eq_true, if_true, if_false]

/-- The lock's own master is served. -/
theorem State.request_closing {s : State} {l : LockSt} (hl : s.lock = some l) (ht : targetOf l.addr = 2)
    (h : State.Serves { s with lock := none } l.master l.addr l.closing.length true) (hc : s.clean l.addr l.closing.length = true) :
    ∃ e p, s.request (MemReq.put l.master l.addr l.closing) = (some (.ok, []), s.written l.addr l.closing e p) := by
  obtain ⟨e, p, hserve⟩ := State.sramServe_put l.master ht h.width hc
  have hown : s.lockedOut l.master = false := by simp [State.lockedOut, hl]
  have hall : s.allowed l.master 2 l.addr l.closing.length true = true := ht ▸ h.allowed
  have hpowered := h.powered
  rw [ht] at hpowered
  have hpow : s.domOn 5 = true := hpowered
  have hno : s.dump = none := h.dump
  have hdump : s.dumpMeets (MemReq.put l.master l.addr l.closing) = (false, s) := by simp [State.dumpMeets, hno]
  refine ⟨e, p, ?_⟩
  simp only [MemReq.put] at hdump hserve ⊢
  simp [State.request, ht, h.width, h.aligned, State.permit, hall, hown, hpow, hdump, hserve]

/-- The lock ends. -/
theorem State.writes_unlock {s t : State} {ks : List Nat} (h : s.writes t ks) (hk : R.FAB_S_LOCK_HELD.addr ∈ ks) :
    State.writes { s with lock := none } t.unlock ks := by
  have hlock : State.writes { s with lock := none } { t with lock := none } ks := by
    obtain ⟨hkeeps, hregs⟩ := h
    exact ⟨hkeeps, by rw [hregs]; rfl⟩
  exact State.writes_trans hlock (State.writes_put _ _ hk)

theorem State.held_unlock (s : State) : s.unlock.is R.FAB_S_LOCK_HELD = false := State.is_putB _ _ _ (by decide) rfl

/-- The state as a closing write leaves it, but for the answer. -/
def State.lockClosed (s : State) (l : LockSt) (e p : Tab Nat) : State :=
  ((s.written l.addr l.closing e p).arbVisit l.master l.addr l.closing.length).unlock

theorem State.writes_lockClosed (s : State) (l : LockSt) (e p : Tab Nat) :
    State.writes { s.written l.addr l.closing e p with lock := none } (s.lockClosed l e p) [0xA00AC, 0xA00B0, R.FAB_S_LOCK_HELD.addr] :=
  State.writes_unlock (State.writes_mono (State.writes_arbVisit _ _ _ _) (by simp [arbWords])) (by simp)

/-- What a write stored is told with the value read, unless the sequence was the ring's own. -/
theorem State.closeLock_ok {s : State} {l : LockSt} {e p : Tab Nat} (hi : s.fabricIdle = true)
    (h : s.request (MemReq.put l.master l.addr l.closing) = (some (.ok, []), s.written l.addr l.closing e p)) :
    s.closeLock l = (s.lockClosed l e p).withBus (s.told l.master .ok l.old) := by
  have hregs := (s.writes_lockClosed l e p).2
  have hbus : (s.lockClosed l e p).bus = s.bus := (congrArg State.bus hregs :)
  have hidle : (s.lockClosed l e p).fabricIdle = true := (State.idle_of_regs hregs).trans hi
  have hhere : (s.lockClosed l e p).ring.rraHere = none := by
    obtain ⟨⟨-, hr⟩, -⟩ : (_ ∧ _) ∧ _ := by simpa only [State.fabricIdle, Bool.and_eq_true, Option.isNone_iff_eq_none] using hidle
    exact hr
  have htold : (if l.master = 3 then (s.lockClosed l e p).rraEnd .ok l.old else (s.lockClosed l e p).answer .ok l.old) =
      (s.lockClosed l e p).withBus (s.told l.master .ok l.old) := by
    by_cases hm : l.master = 3
    · simp only [hm, if_true, State.rraEnd, hhere, State.told, ← hbus]; rfl
    · simp only [hm, if_false, State.told]; rfl
  have hafter : ((s.lockClosed l e p).withBus (s.told l.master .ok l.old)).afterAccess = _ := State.afterAccess_idle _ hidle
  rw [← htold] at hafter ⊢
  rw [← hafter]
  simp only [State.closeLock, h, if_true]
  rfl

/-- The clause on the closing write. -/
theorem gives_closingWrite {s : State} {m : Master} {a : Addr} {d o : List Byte} (hl : s.lock = some ⟨m.toNat, a.toNat, d, o⟩)
    (ht : targetOf a.toNat = 2) (hserves : State.servesSram { s with lock := none } m.toNat a.toNat d.length true = true)
    (hc : s.clean a.toNat d.length = true) :
    Gives (.closingWrite m a d) s fun t =>
      t.lock = none ∧ t.mem = (s.putBytes a.toNat d).mem ∧ t.bus = s.told m.toNat .ok o ∧ t.is R.FAB_S_LOCK_HELD = false ∧
        s.keeps t [0xA00AC, 0xA00B0, R.FAB_S_LOCK_HELD.addr] ∧
        t = { s.regsOf t with lock := t.lock, bus := t.bus, mem := t.mem, sramErr := t.sramErr, poison := t.poison } := by
  obtain ⟨hno, hidle⟩ := State.alone_of_servesSram hserves
  have hserves' := State.serves_of_servesSram hserves
  obtain ⟨e, p, hreq⟩ := State.request_closing hl ht hserves' hc
  have hheld : (s.dumpPending (a.toNat / 64 * 64)).isEmpty = true := by
    have hdump : s.dump = none := hserves'.dump
    rw [State.dumpPending, hdump]; rfl
  have hx : exec (.closingWrite m a d) s =
      done ((s.lockClosed ⟨m.toNat, a.toNat, d, o⟩ e p).withBus (s.told m.toNat .ok o)) := by
    refine congrArg done (Eq.trans ?_ (State.closeLock_ok hidle hreq))
    have hno' : s.noRequest m.toNat = false := hno
    simp only [effClosingWrite, hno', hl, hheld, Bool.false_eq_true, and_self, if_true, if_false]
  have hwrites := s.writes_lockClosed ⟨m.toNat, a.toNat, d, o⟩ e p
  have hframe := State.frame_bus_settle hwrites.2 (s.told m.toNat .ok o)
  refine gives_done hx ⟨(congrArg State.lock hframe :), (congrArg State.mem hframe :), State.settle_bus _, ?_,
    State.keeps_settle hwrites.1, ?_⟩
  · rw [State.settle_is]
    exact State.held_unlock _
  · rw [hframe]; rfl

/-- Without the lock. -/
theorem gives_closingWrite_unlocked {s : State} {m : Master} {a : Addr} {d : List Byte} (hno : s.noRequest m.toNat = false)
    (hl : s.lock = none) :
    Gives (.closingWrite m a d) s fun t => t.bus = ⟨.lerr, []⟩ ∧ s.keeps t [] ∧ t = { s.regsOf t with bus := t.bus } := by
  have hx : exec (.closingWrite m a d) s = done (s.withBus ⟨.lerr, []⟩) := by
    refine congrArg done ?_
    simp only [effClosingWrite, hno, hl, Bool.false_eq_true, if_false]
    rfl
  exact gives_done hx ⟨State.settle_bus _, State.keeps_settle (s.keeps_refl []), State.frame_bus_settle s.regsOf_self.symm _⟩

end Sys2Proof.Machine
end

section
/-! A lock that breaks, and an AtomicOp that finds none (11_memory_fabric R357, R358). -/

namespace Sys2Proof.Machine

/-- The lock has ended, and the break is counted and its master recorded. -/
def State.breakRecorded (s : State) (l : LockSt) : State :=
  (s.unlock.addS R.FAB_LOCK_BREAK_CNT_COUNT 1).setN 0xA00A0 (l.master % 128)

theorem State.writes_breakRecorded (s : State) (l : LockSt) :
    State.writes { s with lock := none } (s.breakRecorded l) [R.FAB_S_LOCK_HELD.addr, R.FAB_LOCK_BREAK_CNT_COUNT.addr, 0xA00A0] :=
  State.writes_trans (State.writes_trans (State.writes_unlock (s.writes_refl _) (by simp)) (State.writes_put _ _ (by simp)))
    (State.writes_setW _ _ (by simp))

theorem State.held_breakRecorded (s : State) (l : LockSt) : (s.breakRecorded l).is R.FAB_S_LOCK_HELD = false := by
  have hcount : s.unlock.writes (s.breakRecorded l) [R.FAB_LOCK_BREAK_CNT_COUNT.addr, 0xA00A0] :=
    State.writes_trans (State.writes_put _ _ (by simp)) (State.writes_setW _ _ (by simp))
  rw [State.keeps_is hcount.1 (by decide), State.held_unlock]

theorem State.count_breakRecorded (s : State) (l : LockSt) :
    (s.breakRecorded l).get R.FAB_LOCK_BREAK_CNT_COUNT = min (s.get R.FAB_LOCK_BREAK_CNT_COUNT + 1) (2 ^ 32 - 1) := by
  have hunlock : s.unlock.get R.FAB_LOCK_BREAK_CNT_COUNT = s.get R.FAB_LOCK_BREAK_CNT_COUNT :=
    State.get_put_other _ _ _ _ (by decide) (by decide)
  rw [State.breakRecorded, State.setN, State.setW_get_other _ _ _ _ (by decide), State.get_addS _ _ _ (by decide) (by decide), hunlock]
  rfl

/-- A master in LOCK_INFO, where the bits above it spell x. -/
theorem State.get_lockInfo (s : State) {m x : Nat} (hm : m < 128) (hx : x < 4) :
    (s.setN R.FAB_LOCK_INFO_MASTER.addr (m + 128 * x)).get R.FAB_LOCK_INFO_MASTER = m := by
  rw [State.setN, State.setW_get_same, w32_toNat _ (by omega)]
  show (m + 128 * x) / 2 ^ 0 % 2 ^ 7 = m
  omega

/-- The clause on a break. -/
theorem gives_lockBreak {s : State} {l : LockSt} (hq : s.quiet = true) (hl : s.lock = some l) (hm : l.master ≠ 3)
    (hi : s.fabricIdle = true) :
    Gives .lockBreak s fun t => t.lock = none ∧ t.bus = ⟨.abort, []⟩ ∧
      t.get R.FAB_LOCK_BREAK_CNT_COUNT = min (s.get R.FAB_LOCK_BREAK_CNT_COUNT + 1) (2 ^ 32 - 1) ∧
      t.get R.FAB_LOCK_INFO_MASTER = l.master % 128 ∧ t.is R.FAB_S_LOCK_HELD = false ∧ t.hasEvent eFAB 4 = true ∧
      s.keeps t [R.FAB_S_LOCK_HELD.addr, R.FAB_LOCK_BREAK_CNT_COUNT.addr, 0xA00A0, evKey eFAB] ∧
      t = { s.regsOf t with lock := t.lock, bus := t.bus } := by
  have hrecorded := s.writes_breakRecorded l
  have hquiet : (s.breakRecorded l).quiet = true := State.quiet_of_keeps hrecorded.1 (by decide) hq
  have hwrites := State.writes_trans (ks := [R.FAB_S_LOCK_HELD.addr, R.FAB_LOCK_BREAK_CNT_COUNT.addr, 0xA00A0, evKey eFAB])
    (State.writes_mono hrecorded (by simp)) (State.writes_latch (src := eFAB) 4 hquiet (by simp))
  have hidle : ((s.breakRecorded l).latch eFAB 4).fabricIdle = true := (State.idle_of_regs hwrites.2).trans hi
  have hx : exec .lockBreak s = done (((s.breakRecorded l).latch eFAB 4).withBus ⟨.abort, []⟩) := by
    refine congrArg done (Eq.trans ?_ (State.afterAccess_idle (State.withBus _ ⟨.abort, []⟩) hidle))
    simp only [effLockBreak, hl, hm, if_false]
    rfl
  have hframe := State.frame_bus_settle hwrites.2 ⟨.abort, []⟩
  refine gives_done hx ⟨(congrArg State.lock hframe :), State.settle_bus _, ?_, ?_, ?_, ?_, State.keeps_settle hwrites.1, ?_⟩
  · rw [State.settle_get]
    exact (State.get_latch eFAB 4 hquiet (by decide)).trans (s.count_breakRecorded l)
  · rw [State.settle_get]
    exact (State.get_latch eFAB 4 hquiet (by decide)).trans (State.get_lockInfo _ (x := 0) (Nat.mod_lt _ (by decide)) (by decide))
  · rw [State.settle_is]
    exact (State.is_latch eFAB 4 hquiet (by decide)).trans (s.held_breakRecorded l)
  · rw [State.hasEvent_congr (State.settle_w _ _)]
    exact State.hasEvent_latch _ eFAB 4 (by decide) hquiet
  · rw [hframe]; rfl

/-- Without a lock nothing breaks. -/
theorem gives_lockBreak_none {s : State} (hl : s.lock = none) : Gives .lockBreak s fun t => s.keeps t [] ∧ t = s.regsOf t := by
  have hx : exec .lockBreak s = done s := congrArg done (by rw [effLockBreak, hl])
  exact gives_done hx (s.writes_settle [])

/-- A refused AtomicOp is recorded with its master. -/
def State.refusalRecorded (s : State) (m : Nat) : State := s.setN 0xA00A0 (m % 128 + 256)

theorem State.lockRefused_eq (s : State) (m : Nat) : s.lockRefused m = (s.refusalRecorded m).latch eFAB 5 := rfl

theorem State.refused_refusalRecorded (s : State) (m : Nat) : (s.refusalRecorded m).is R.FAB_LOCK_INFO_REFUSED = true := by
  have hbit : (s.refusalRecorded m).get R.FAB_LOCK_INFO_REFUSED = 1 := by
    rw [State.refusalRecorded, State.setN, show 0xA00A0 = R.FAB_LOCK_INFO_REFUSED.addr from rfl, State.setW_get_same, w32_toNat _ (by omega)]
    show (m % 128 + 256) / 2 ^ 8 % 2 ^ 1 = 1
    omega
  rw [State.is, hbit]; rfl

/-- The SRAM refuses an AtomicOp outside target 2, powered or not. -/
theorem State.request_lockRefused {s : State} {m a : Nat} (q : AtomReq) (ht : targetOf a = 1) (ha : a % 4 = 0)
    (hall : s.allowed m 1 a 4 false = true) (hb : renderBlock m = false) :
    s.request (MemReq.locked m a 4 q) = (some (.terr, List.replicate 4 0), s.lockRefused m) := by
  have hw : widthOk 4 = true := by decide
  simp [State.request, MemReq.locked, ht, hw, ha, State.permit, hall, hb]

/-- It is completed with Completer Abort. -/
theorem State.deliver_locked_terr (s : State) {m : Nat} (a n : Nat) (q : AtomReq) (d : List Byte) (hm : m ≠ 3) :
    s.deliver (MemReq.locked m a n q) (.terr, d) = s.withBus ⟨.abort, []⟩ := by
  simp [State.deliver, MemReq.locked, hm, State.answer, State.withBus]

/-- The clause on an AtomicOp outside target 2. -/
theorem gives_atomicOp_refused {s : State} {m : Master} (op : AtomicOp) (x y : BitVec 64) {a : Addr} (hq : s.quiet = true)
    (hm : m.toNat = 0 ∨ m.toNat = 1) (ht : targetOf a.toNat = 1) (ha : a.toNat % 4 = 0) (hno : s.noRequest m.toNat = false)
    (hi : s.fabricIdle = true) (hall : s.allowed m.toNat 1 a.toNat 4 false = true) :
    Gives (.atomicOp m op a false x y) s fun t => t.bus = ⟨.abort, []⟩ ∧ t.get R.FAB_LOCK_INFO_MASTER = m.toNat % 128 ∧
      t.is R.FAB_LOCK_INFO_REFUSED = true ∧ t.hasEvent eFAB 5 = true ∧ s.keeps t [0xA00AC, 0xA00B0, 0xA00A0, evKey eFAB] ∧
      t = { s.regsOf t with bus := t.bus } := by
  have hm3 : m.toNat ≠ 3 := by omega
  have hblock : renderBlock m.toNat = false := by rcases hm with h | h <;> rw [h] <;> decide
  have h4 : targetOf a.toNat ≠ 4 := by rw [ht]; decide
  have hquiet : (s.refusalRecorded m.toNat).quiet = true := State.quiet_of_keeps (s.keeps_setW _ _) (by decide) hq
  have hrefused : s.writes (s.lockRefused m.toNat) [0xA00AC, 0xA00B0, 0xA00A0, evKey eFAB] :=
    State.writes_trans (s.writes_setW _ (by simp)) (State.writes_latch (src := eFAB) 5 hquiet (by simp))
  have harb := (s.lockRefused m.toNat).writes_arbVisit m.toNat a.toNat 4
  have hwrites := State.writes_trans hrefused (State.writes_mono harb (by simp [arbWords]))
  have hask := State.ask_alone (r := MemReq.locked m.toNat a.toNat 4 ⟨op, false, x.toNat % 2 ^ (8 * 4), y.toNat % 2 ^ (8 * 4)⟩)
    (b := ⟨.abort, []⟩) hno hi h4 (State.request_lockRefused _ ht ha hall hblock) ((State.idle_of_regs hrefused.2).trans hi)
    fun u _ => u.deliver_locked_terr _ _ _ _ hm3
  have hx : exec (.atomicOp m op a false x y) s =
      done (((s.lockRefused m.toNat).arbVisit m.toNat a.toNat 4).withBus ⟨.abort, []⟩) := by
    refine congrArg done (Eq.trans ?_ hask)
    rw [effAtomicOp, if_pos (by omega)]
    rfl
  have hget : ∀ f : Fld, f.addr = 0xA00A0 →
      ((s.lockRefused m.toNat).arbVisit m.toNat a.toNat 4).get f = (s.refusalRecorded m.toNat).get f :=
    fun f hf => (State.keeps_get harb.1 f (by rw [hf]; decide)).trans (State.get_latch eFAB 5 hquiet (by rw [hf]; decide))
  refine gives_done hx ⟨State.settle_bus _, ?_, ?_, ?_, State.keeps_settle hwrites.1, State.frame_bus_settle hwrites.2 _⟩
  · rw [State.settle_get]
    exact (hget R.FAB_LOCK_INFO_MASTER rfl).trans (State.get_lockInfo s (x := 2) (Nat.mod_lt _ (by decide)) (by decide))
  · rw [State.settle_is]
    exact (State.is_congr (hget R.FAB_LOCK_INFO_REFUSED rfl)).trans (s.refused_refusalRecorded _)
  · have hsame := (State.settle_w (State.withBus _ ⟨.abort, []⟩) (evKey eFAB)).trans (harb.1 (evKey eFAB) (by decide +kernel))
    exact (State.hasEvent_congr hsame 5).trans (State.hasEvent_latch _ eFAB 5 (by decide) hquiet)

/-- Settles O33: each clause is the rule of its command. -/
theorem lockedSequences : Obligations.LockedSequences := by
  unfold Obligations.LockedSequences
  refine ⟨?_, ?_, ?_, ?_, ?_, ?_⟩
  · intro s m op a wide x y n hn hm ht hserves hc
    exact gives_atomicOp hn hm ht hserves hc
  · intro s m a d o hl ht hserves hc
    exact gives_closingWrite hl ht hserves hc
  · intro s m a d hno hl
    exact gives_closingWrite_unlocked (by simpa using hno) hl
  · intro s l hq hl hm hi
    exact gives_lockBreak hq hl hm hi
  · intro s hl
    exact gives_lockBreak_none hl
  · intro s m op x y a hq hm ht ha hno hi hall
    exact gives_atomicOp_refused op x y hq hm ht ha (by simpa using hno) hi hall

end Sys2Proof.Machine
end

section
/-! A write into a checkpoint slot (14_redundancy R434). Where another master than the checkpoint engine writes, the slot is judged again and
RED follows: DramAccesses lets the write of a line change nothing of RED. -/

namespace Sys2Proof.Machine

/-- In RUN, with every domain on and the one DRAM channel ONLINE: the slots lie at 0x1001000000, and slot 0 holds a checkpoint whose image is
its header alone. -/
def checkpointHeld : State :=
  { State.reset with
    words := [(0x9C, 3), (0x1088, 0x3FFF), (0x1090, 1), (0x200C, 5), (0xB000C, 2), (0xB8080, 0), (0xD0098, 0x1000000), (0xD009C, 0x10)]
    mem := (0x1001000014, 64) :: ([217, 255, 110, 28, 45, 184, 189, 102].zipIdx 0x1001400008).map Prod.swap
    red := { RedSt.reset with slots := [some ⟨0, 0, 64⟩, none] } }

/-- RED knows of slot 0 what it holds; zeros written to its first line leave both slots without a checkpoint. -/
theorem checkpointHeld_write :
    checkpointHeld.red.slots.getD 0 none = checkpointHeld.slotNow 0 ∧
      (effDramWrite 0 0x1001000000 (List.replicate 64 0) checkpointHeld).red.slots = [none, none] := by decide +kernel

/-- Refutes O34, by its clause on the write of a line: in a slot of the checkpoint engine it ends the
checkpoint that RED knows there. -/
theorem not_dramAccesses : ¬ Obligations.DramAccesses := by
  unfold Obligations.DramAccesses
  rintro ⟨-, hLine, -⟩
  have hserves : checkpointHeld.servesDram (0 : Master).toNat (0x1001000000 : Addr).toNat (List.replicate 64 (0 : Byte)).length true =
      true := by decide +kernel
  have hmap : checkpointHeld.dramMap (0x1001000000 : Addr).toNat = some (0, 0x1000000) := by decide +kernel
  have himage : checkpointHeld.imageOf (0x1001000000 : Addr).toNat = none := by decide +kernel
  have hx : exec (.dramWrite 0 0x1001000000 (List.replicate 64 0)) checkpointHeld =
      done (effDramWrite 0 0x1001000000 (List.replicate 64 0) checkpointHeld) := rfl
  obtain ⟨-, -, -, -, -, hframe⟩ := (gives_done_iff hx).mp (hLine checkpointHeld 0 0x1001000000 _ _ hserves rfl hmap himage)
  have hslots := congrArg (fun t : State => t.red.slots) hframe
  rw [State.settle_red, checkpointHeld_write.2] at hslots
  exact absurd hslots (by decide)

end Sys2Proof.Machine
end

section
/-! A microsecond in which a window of CONV still has lines to read (09_room_correction R289; 12_dram R374). The tokens that its port gains
let its reads pass at once: DramUpkeep lets every bucket keep what it has gained. -/

namespace Sys2Proof.Machine

/-- With every domain on and the one DRAM channel ONLINE: port 0 gains 64 bytes in a microsecond, its bucket is empty, and an open window
has one line to read. -/
def windowAtEmptyBucket : State :=
  { State.reset with
    words := [(0x1088, 0x3FFF), (0x1090, 1), (0x200C, 5), (0xB000C, 2), (0xB8080, 0), (0xB8100, 4)]
    buckets := [(0, 0)]
    conv := { ConvSt.reset with wins := [⟨2, 0, false, [0], [], false, [], 1, 0, 0⟩] } }

/-- The line that passes takes what the bucket has gained. -/
theorem windowAtEmptyBucket_refill :
    (effRegulatorRefill windowAtEmptyBucket).bucket 0 = 0 ∧
      min (windowAtEmptyBucket.bucketMax 0) (windowAtEmptyBucket.bucket 0 + 16 * windowAtEmptyBucket.get (R.DPHY_REG_RATE_RATE.ix 0)) = 64 := by
  decide +kernel

/-- Refutes O35, by its clause on the microsecond: lines of an open window pass port 0 in it. -/
theorem not_dramUpkeep : ¬ Obligations.DramUpkeep := by
  unfold Obligations.DramUpkeep
  rintro ⟨hRefill, -⟩
  have hpage : windowAtEmptyBucket.pageOn eDPHY = true := by decide +kernel
  have hx : exec .regulatorRefill windowAtEmptyBucket = done (effRegulatorRefill windowAtEmptyBucket) := rfl
  obtain ⟨hbuckets, -⟩ := (gives_done_iff hx).mp (hRefill windowAtEmptyBucket hpage rfl)
  have hzero := beq_iff_eq.mp (List.all_eq_true.mp hbuckets 0 (by decide))
  rw [State.bucket, State.settle_buckets, ← State.bucket, windowAtEmptyBucket_refill.1, windowAtEmptyBucket_refill.2] at hzero
  exact absurd hzero (by decide)

end Sys2Proof.Machine
end

section
/-! Refreshes that become owed (12_dram R377, R378): below the limit they are counted, at the limit one is forced. -/

namespace Sys2Proof.Machine

/-! A channel's state beyond its registers. -/

theorem State.chan_setChan {s : State} {c : Nat} (x : ChanSt) (h : c < s.chans.length) : (s.setChan c x).chan c = x := by
  simp [State.chan, State.setChan, nth, h]

theorem State.chan_congr {s t : State} (h : t.chans = s.chans) (c : Nat) : t.chan c = s.chan c := by
  simp only [State.chan, h]

/-! The refresh of a bank. -/

/-- A channel once its next bank is refreshed: the row there is closed, and the bank after it comes next. -/
def ChanSt.refreshed (ch : ChanSt) : ChanSt :=
  { ch with
    banks := ch.banks.set ch.nextBank { nth ch.banks ch.nextBank BankSt.reset with row := none }
    nextBank := (ch.nextBank + 1) % 16 }

theorem ChanSt.row_refreshed {ch : ChanSt} (h : ch.nextBank < ch.banks.length) :
    (nth ch.refreshed.banks ch.nextBank BankSt.reset).row = none := by
  simp [ChanSt.refreshed, nth, h]

theorem State.refreshBank_eq (s : State) (c : Nat) : s.refreshBank c = (s.setChan c (s.chan c).refreshed).rowOpen c := rfl

theorem State.writesChans_refreshBank (s : State) (c : Nat) :
    s.writesChans (s.refreshBank c) [(R.DRC_S_ROW_OPEN.pg c).addr] := by
  rw [State.refreshBank_eq]
  exact State.writesChans_trans (s.writesChans_setChan c _ _) (State.writesChans_of_writes (State.writes_put _ _ (by simp)))

theorem State.chan_refreshBank {s : State} {c : Nat} (h : c < s.chans.length) : (s.refreshBank c).chan c = (s.chan c).refreshed :=
  (State.chan_congr (s := s.setChan c (s.chan c).refreshed) rfl c).trans (State.chan_setChan _ h)

/-! A refresh becomes owed. -/

theorem State.owe_below {s : State} {c : Nat} (hr : s.refreshes c = true) (h : s.owed c < s.refLimit) :
    s.owe c = s.put (R.DRC_REF_STATE_OWED.pg c) (s.owed c + 1) := by
  rw [State.owe, hr, Bool.not_true, if_neg (by decide), if_neg (by omega)]

theorem State.owe_limit {s : State} {c : Nat} (hr : s.refreshes c = true) (h : s.refLimit ≤ s.owed c) :
    s.owe c = s.forcedRefresh c := by
  rw [State.owe, hr, Bool.not_true, if_neg (by decide), if_pos h]

theorem State.refLimit_le (s : State) : s.refLimit ≤ 8 := by
  unfold State.refLimit; split <;> decide

theorem exec_refreshOwed {s : State} {c : Fin 4} (hp : s.pageOn (eDRC c.val) = true) :
    exec (.refreshOwed c) s = done (s.owe c.val) := congrArg done (if_pos hp)

/-- The clause below the limit. -/
theorem gives_refreshOwed_below {s : State} {c : Fin 4} (hp : s.pageOn (eDRC c.val) = true) (hr : s.refreshes c.val = true)
    (h : s.owed c.val < s.refLimit) :
    Gives (.refreshOwed c) s fun t =>
      t.owed c.val = s.owed c.val + 1 ∧ s.keeps t [(R.DRC_REF_STATE_OWED.pg c.val).addr] ∧ t = s.regsOf t := by
  have hx := exec_refreshOwed hp
  rw [State.owe_below hr h] at hx
  have hw := State.writes_trans (s.writes_put (f := R.DRC_REF_STATE_OWED.pg c.val) (s.owed c.val + 1) (List.mem_singleton_self _))
    (State.writes_settle _ _)
  have hlim := s.refLimit_le
  refine gives_done hx ⟨?_, hw.1, hw.2⟩
  rw [State.owed, State.settle_get]
  exact State.get_put_fits _ (by decide : (3 : Nat) < 32) (by decide : 0 ≤ 3 + 1) (by omega : s.owed c.val + 1 < 2 ^ 4)

/-- The words that a forced refresh writes: STATUS, FORCED_CNT and EVENT of its channel. -/
def forcedWords (c : Nat) : List Nat :=
  [(R.DRC_S_ROW_OPEN.pg c).addr, (R.DRC_FORCED_CNT_COUNT.pg c).addr, evKey (eDRC c)]

theorem quietWord_forcedWords (c : Nat) : 0x6080 ∉ forcedWords c := fun h => quietWord_chanWords c (by
  simp only [forcedWords, List.mem_cons, List.not_mem_nil, or_false] at h
  simp only [chanWords, List.mem_cons, List.not_mem_nil, or_false]
  exact h.elim Or.inl fun h => Or.inr (Or.inr h))

/-- The next bank is refreshed and the refresh counted, before FORCED_REF is latched. -/
def State.forcedCounted (s : State) (c : Nat) : State := (s.refreshBank c).addW (R.DRC_FORCED_CNT_COUNT.pg c) 1

theorem State.forcedRefresh_eq (s : State) (c : Nat) : s.forcedRefresh c = (s.forcedCounted c).latch (eDRC c) 6 := rfl

theorem State.writesChans_forcedCounted (s : State) (c : Nat) : s.writesChans (s.forcedCounted c) (forcedWords c) :=
  State.writesChans_trans (State.writesChans_mono (s.writesChans_refreshBank c) (by simp [forcedWords]))
    (State.writesChans_of_writes (State.writes_put _ _ (by simp [forcedWords])))

theorem State.get_forcedCounted (s : State) (c : Nat) :
    (s.forcedCounted c).get (R.DRC_FORCED_CNT_COUNT.pg c) = (s.get (R.DRC_FORCED_CNT_COUNT.pg c) + 1) % 2 ^ 32 := by
  have hsame : (s.refreshBank c).get (R.DRC_FORCED_CNT_COUNT.pg c) = s.get (R.DRC_FORCED_CNT_COUNT.pg c) :=
    State.keeps_get (s.writesChans_refreshBank c).1 _ (by simp [Fld.pg, R.DRC_FORCED_CNT_COUNT, R.DRC_S_ROW_OPEN])
  rw [State.forcedCounted, State.get_addW _ _ _ (by decide : (31 : Nat) < 32) (by decide : 0 ≤ 31 + 1), hsame]
  rfl

/-- The clause at the limit. -/
theorem gives_refreshOwed_limit {s : State} {c : Fin 4} (hq : s.quiet = true) (hc : c.val < s.chans.length)
    (hb : (s.chan c.val).nextBank < (s.chan c.val).banks.length) (hp : s.pageOn (eDRC c.val) = true)
    (hr : s.refreshes c.val = true) (h : s.refLimit ≤ s.owed c.val) :
    Gives (.refreshOwed c) s fun t =>
      t.get (R.DRC_FORCED_CNT_COUNT.pg c.val) = (s.get (R.DRC_FORCED_CNT_COUNT.pg c.val) + 1) % 2 ^ 32 ∧
        (t.chan c.val).nextBank = ((s.chan c.val).nextBank + 1) % 16 ∧
        (nth (t.chan c.val).banks (s.chan c.val).nextBank BankSt.reset).row = none ∧ t.hasEvent (eDRC c.val) 6 = true ∧
        s.keeps t (forcedWords c.val) ∧ t = { s.regsOf t with chans := t.chans } := by
  have hx := exec_refreshOwed hp
  rw [State.owe_limit hr h, State.forcedRefresh_eq] at hx
  have hcounted := s.writesChans_forcedCounted c.val
  have hquiet := State.quiet_of_keeps hcounted.1 (quietWord_forcedWords c.val) hq
  have hlatch : (s.forcedCounted c.val).writes ((s.forcedCounted c.val).latch (eDRC c.val) 6).settle (forcedWords c.val) :=
    State.writes_trans (State.writes_latch 6 hquiet (by simp [forcedWords])) (State.writes_settle _ _)
  have hall := State.writesChans_trans hcounted (State.writesChans_of_writes hlatch)
  have hchan : ((s.forcedCounted c.val).latch (eDRC c.val) 6).settle.chan c.val = (s.chan c.val).refreshed :=
    (State.chan_congr (congrArg State.chans hlatch.2 :) _).trans (State.chan_refreshBank hc)
  refine gives_done hx ⟨?_, by rw [hchan]; rfl, by rw [hchan]; exact ChanSt.row_refreshed hb, ?_, hall⟩
  · rw [State.settle_get, State.get_latch _ 6 hquiet (by simp only [Fld.pg, R.DRC_FORCED_CNT_COUNT]; omega), State.get_forcedCounted]
  · rw [State.settle_hasEvent]
    exact State.hasEvent_latch _ _ _ (by decide) hquiet

/-- Settles O36: each clause is the rule of its side of the limit. -/
theorem refreshLimit : Obligations.RefreshLimit := by
  unfold Obligations.RefreshLimit
  refine ⟨?_, ?_⟩
  · intro s c hp hr h
    exact gives_refreshOwed_below hp hr h
  · intro s c hq hc hb hp hr h
    exact gives_refreshOwed_limit hq hc hb hp hr h

end Sys2Proof.Machine
end

section
/-! The channels, CONV and RED follow one another (12_dram R382, R388; 09_room_correction R299; 14_redundancy R434): what that writes,
where an event may also be selected as snapshot trigger 3. -/

namespace Sys2Proof.Machine

/-- From s to t only words among ks have changed, and beside the words nothing but CONV, RED and the snapshots on their way. -/
def State.writesAfter (s t : State) (ks : List Nat) : Prop :=
  s.keeps t ks ∧ t = { s.regsOf t with snapQ := t.snapQ, conv := t.conv, red := t.red }

theorem State.writesAfter_of_writes {s t : State} {ks : List Nat} (h : s.writes t ks) : s.writesAfter t ks := by
  refine ⟨h.1, ?_⟩
  rw [h.2]; rfl

theorem State.writesAfter_of_conv {s t : State} {ks : List Nat} (h : s.writesConv t ks) : s.writesAfter t ks := by
  refine ⟨h.1, ?_⟩
  rw [h.2]; rfl

theorem State.writesAfter_of_events {s t : State} {ks : List Nat} (hk : s.keeps t ks) (h : s.events t) : s.writesAfter t ks := by
  refine ⟨hk, ?_⟩
  rw [h]; rfl

theorem State.writesAfter_trans {s t u : State} {ks : List Nat} (h : s.writesAfter t ks) (h' : t.writesAfter u ks) :
    s.writesAfter u ks := by
  refine ⟨State.keeps_append h.1 h'.1, ?_⟩
  rw [h'.2]; rw [h.2]; rfl

theorem State.writesAfter_mono {s t : State} {ks ls : List Nat} (h : s.writesAfter t ks) (hl : ∀ k ∈ ks, k ∈ ls) :
    s.writesAfter t ls :=
  ⟨State.keeps_mono h.1 hl, h.2⟩

theorem State.writesAfter_refl (s : State) (ks : List Nat) : s.writesAfter s ks := State.writesAfter_of_writes (s.writes_refl ks)

section
variable {s t : State} {ks : List Nat} (h : s.writesAfter t ks)
include h

theorem State.mem_of_writesAfter : t.mem = s.mem := by rw [h.2]; rfl
theorem State.bus_of_writesAfter : t.bus = s.bus := by rw [h.2]; rfl
theorem State.chans_of_writesAfter : t.chans = s.chans := by rw [h.2]; rfl
theorem State.clk_of_writesAfter : t.clk = s.clk := by rw [h.2]; rfl
theorem State.idle_of_writesAfter : t.fabricIdle = s.fabricIdle := by rw [h.2]; rfl

end

/-! Events. -/

theorem notMem_discardWords {k : Nat} (h : 0x10000 ≤ k) : k ∉ discardWords := fun hm => by
  have := discardWords_lt hm
  omega

/-- An event, whether or not it is selected as trigger 3. -/
theorem State.writesAfter_latch (s : State) {src : Nat} (bit : Nat) {ks : List Nat} (h : evKey src ∈ ks)
    (hd : ∀ k ∈ discardWords, k ∈ ks) :
    s.writesAfter (s.latch src bit) ks :=
  State.writesAfter_of_events (State.keeps_mono (s.keeps_latch_any src bit) (List.forall_mem_cons.mpr ⟨h, hd⟩)) (s.latch_spec src bit).2

/-- An event that has latched stays, whatever latches then. -/
theorem State.hasEvent_latch_mono {s : State} {src bit : Nat} (src' bit' : Nat) (hs : 0x10000 ≤ evKey src)
    (h : s.hasEvent src bit = true) : (s.latch src' bit').hasEvent src bit = true := by
  rw [State.hasEvent_congr ((s.latch_spec src' bit').1 _ (notMem_discardWords hs))]
  exact State.hasEvent_orW_mono _ _ h

/-! USABLE follows. -/

/-- The words that show whether DRAM is usable, and those of an event that is discarded. -/
def usableEventWords : List Nat := usableWords ++ discardWords

theorem usable_usableEventWords : ∀ k ∈ usableWords, k ∈ usableEventWords := fun _ hk => List.mem_append_left _ hk
theorem discard_usableEventWords : ∀ k ∈ discardWords, k ∈ usableEventWords := fun _ hk => List.mem_append_right _ hk

/-- USABLE is put, and an event of DPHY may follow. -/
theorem State.usableUpdate_cases (s : State) :
    s.usableUpdate = s.putB R.DPHY_S_USABLE s.dramUsable ∨
      ∃ bit, s.usableUpdate = (s.putB R.DPHY_S_USABLE s.dramUsable).latch eDPHY bit := by
  unfold State.usableUpdate
  dsimp only
  split
  · exact Or.inr ⟨2, rfl⟩
  · split
    · exact Or.inr ⟨1, rfl⟩
    · exact Or.inl rfl

theorem State.writesAfter_usableUpdate (s : State) : s.writesAfter s.usableUpdate usableEventWords := by
  have hput := State.writesAfter_of_writes (s.writes_put (f := R.DPHY_S_USABLE) (b2n s.dramUsable)
    (usable_usableEventWords _ (by simp [usableWords])))
  rcases s.usableUpdate_cases with h | ⟨bit, h⟩ <;> rw [h]
  · exact hput
  · exact State.writesAfter_trans hput
      (State.writesAfter_latch _ bit (usable_usableEventWords _ (by simp [usableWords])) discard_usableEventWords)

theorem State.usable_usableUpdate (s : State) : s.usableUpdate.is R.DPHY_S_USABLE = s.dramUsable := by
  have hput : (s.putB R.DPHY_S_USABLE s.dramUsable).is R.DPHY_S_USABLE = s.dramUsable := s.is_putB _ _ (by decide) rfl
  rcases s.usableUpdate_cases with h | ⟨bit, h⟩ <;> rw [h]
  · exact hput
  · exact (State.keeps_is (State.keeps_latch_any _ eDPHY bit) (by decide +kernel)).trans hput

theorem State.hasEvent_usableUpdate {s : State} {bit : Nat} (h : s.hasEvent eDPHY bit = true) :
    s.usableUpdate.hasEvent eDPHY bit = true := by
  have hput : (s.putB R.DPHY_S_USABLE s.dramUsable).hasEvent eDPHY bit = true :=
    (State.hasEvent_congr (s.put_w_other R.DPHY_S_USABLE _ _ (by decide +kernel)) bit).trans h
  rcases s.usableUpdate_cases with hu | ⟨bit', hu⟩ <;> rw [hu]
  · exact hput
  · exact State.hasEvent_latch_mono _ _ (by decide +kernel) hput

/-! CONV follows. -/

/-- The words of CONV that follow the DRAM, and those of an event that is discarded. -/
def convEventWords : List Nat := convWords ++ discardWords

theorem shown_convEventWords : ∀ k ∈ convShown, k ∈ convEventWords := by decide +kernel
theorem discard_convEventWords : ∀ k ∈ discardWords, k ∈ convEventWords := fun _ hk => List.mem_append_right _ hk

theorem State.writesAfter_shown {s t : State} (h : s.writes t convShown) : s.writesAfter t convEventWords :=
  State.writesAfter_mono (State.writesAfter_of_writes h) shown_convEventWords

theorem State.writesAfter_convLatch (s : State) (bit : Nat) : s.writesAfter (s.latch eCONV bit) convEventWords :=
  s.writesAfter_latch bit (shown_convEventWords _ event_convShown) discard_convEventWords

theorem State.writesAfter_loadFail (s : State) (r : Nat) : s.writesAfter (s.loadFail r) convEventWords := by
  have hreason : ∀ u : State, u.writesAfter (u.loadReason r) convEventWords := fun u =>
    State.writesAfter_trans (State.writesAfter_shown (u.writes_put (f := R.CONV_LOAD_STATUS_REASON) r (by simp [convShown])))
      (State.writesAfter_convLatch _ 4)
  have hstop : s.writesAfter ((s.putB R.CONV_S_LOADING false).setLoad none) convEventWords :=
    State.writesAfter_trans (State.writesAfter_shown (s.writes_put _ (by simp [convShown, R.CONV_S_BYPASS, R.CONV_S_LOADING])))
      (State.writesAfter_of_conv (State.writesConv_setLoad _ none _))
  unfold State.loadFail
  split
  · exact s.writesAfter_refl _
  · refine State.writesAfter_trans ?_ (hreason _)
    split
    · exact hstop
    · exact State.writesAfter_trans hstop (State.writesAfter_shown (State.writes_putSetState _ _ _))

theorem State.writesAfter_setBypass (s : State) (b : Bool) : s.writesAfter (s.setBypass b) convEventWords := by
  unfold State.setBypass
  split
  · exact s.writesAfter_refl _
  · exact State.writesAfter_trans (State.writesAfter_shown (s.writes_put _ (by simp [convShown]))) (State.writesAfter_convLatch _ _)

theorem State.writesAfter_dramFollowed (s : State) (was : Bool) : s.writesAfter (s.dramFollowed was) convEventWords := by
  have hverify : ∀ (u : State) (b : Bool), u.writesAfter (u.putB R.CONV_S_VERIFYING b) convEventWords := fun u b =>
    State.writesAfter_shown (u.writes_verifying b)
  unfold State.dramFollowed
  split
  · exact State.writesAfter_trans (State.writesAfter_trans (s.writesAfter_loadFail 4) (hverify _ _)) (State.writesAfter_setBypass _ _)
  · split
    · exact hverify _ _
    · exact s.writesAfter_refl _

theorem State.writesAfter_convDram (s : State) : s.writesAfter s.convDram convEventWords := by
  cases hp : s.pageOn eCONV
  · rw [State.convDram_off hp]
    exact s.writesAfter_refl _
  · rw [State.convDram_on hp]
    exact State.writesAfter_trans (State.writesAfter_mono (State.writesAfter_of_writes s.writes_dramCauses) (by decide +kernel))
      (State.writesAfter_dramFollowed _ _)

/-! The channels have changed. -/

/-- The words that follow the channels. -/
def followWords : List Nat := usableEventWords ++ convEventWords

/-- Of the pages from DRC0 on only STATUS and EVENT of DPHY are among them. -/
theorem notMem_followWords {k : Nat} (h : 0x81000 ≤ k) (h1 : k ≠ 0xB800C) (h2 : k ≠ 0xB8010) : k ∉ followWords := by
  have hall : ∀ x ∈ followWords, x < 0x81000 ∨ x = 0xB800C ∨ x = 0xB8010 := by decide +kernel
  intro hk
  rcases hall k hk with hx | hx | hx <;> omega

/-- With no change of PLL-B that waits, USABLE and CONV follow. -/
theorem State.chansChanged_eq {s : State} (h : s.clk.waiting = false) : s.chansChanged = s.usableUpdate.convDram := by
  have hclk : s.usableUpdate.convDram.clk = s.clk :=
    (State.clk_of_writesAfter (State.writesAfter_convDram _)).trans (State.clk_of_writesAfter s.writesAfter_usableUpdate)
  rw [State.chansChanged, State.pllbResume, hclk, h]
  rfl

theorem State.writesAfter_chansChanged {s : State} (h : s.clk.waiting = false) : s.writesAfter s.chansChanged followWords := by
  rw [State.chansChanged_eq h]
  exact State.writesAfter_trans
    (State.writesAfter_mono s.writesAfter_usableUpdate fun _ hk => List.mem_append_left _ hk)
    (State.writesAfter_mono (State.writesAfter_convDram _) fun _ hk => List.mem_append_right _ hk)

theorem State.usable_chansChanged {s : State} (h : s.clk.waiting = false) : s.chansChanged.is R.DPHY_S_USABLE = s.dramUsable := by
  rw [State.chansChanged_eq h, State.keeps_is (State.writesAfter_convDram _).1 (by decide +kernel), State.usable_usableUpdate]

theorem State.hasEvent_chansChanged {s : State} {bit : Nat} (h : s.clk.waiting = false) (he : s.hasEvent eDPHY bit = true) :
    s.chansChanged.hasEvent eDPHY bit = true := by
  rw [State.chansChanged_eq h, State.hasEvent_congr ((State.writesAfter_convDram _).1 _ (by decide +kernel))]
  exact State.hasEvent_usableUpdate he

/-! RED follows. -/

/-- The words in which RED shows its slots. -/
def slotWords : List Nat := [R.RED_S_SLOT_OK.addr, 0xD00C4, 0xD00C8]

theorem State.writesAfter_modRed (s : State) (f : RedSt → RedSt) (ks : List Nat) : s.writesAfter (s.modRed f) ks :=
  ⟨fun _ _ => rfl, rfl⟩

theorem State.writesAfter_putSlot (s : State) (k : Nat) (x : Option CkptSlot) : s.writesAfter (s.putSlot k x) slotWords := by
  have hput : ∀ u : State, s.writesAfter u slotWords → ∀ b, s.writesAfter (u.putB R.RED_S_SLOT_OK b) slotWords := fun u hu b =>
    State.writesAfter_trans hu (State.writesAfter_of_writes (u.writes_put _ (by simp [slotWords])))
  have hshown := hput _ (s.writesAfter_modRed (fun r => { r with slots := r.slots.set k x }) _)
  unfold State.putSlot
  dsimp only
  split
  · exact State.writesAfter_trans (hshown _) (State.writesAfter_of_writes
      (State.writes_trans (State.writes_setW _ _ (by simp [slotWords])) (State.writes_setW _ _ (by simp [slotWords]))))
  · exact hshown _

theorem State.writesAfter_slotsUpdate (s : State) : s.writesAfter s.slotsUpdate slotWords := by
  refine s.upto_induct (fun u => s.writesAfter u slotWords) _ _ (s.writesAfter_refl _) fun u k _ hu => ?_
  split
  · exact hu
  · exact State.writesAfter_trans hu (u.writesAfter_putSlot _ _)

end Sys2Proof.Machine
end

section
/-! A training ends on a channel (12_dram R383, R384, R386). -/

namespace Sys2Proof.Machine

/-! The words of a channel that its training writes. -/

theorem evKey_eDRC {c : Nat} (hc : c < 4) : evKey (eDRC c) = 0xB0010 + 0x1000 * c := by
  have hall : ∀ q : Fin 4, evKey (eDRC q.val) = 0xB0010 + 0x1000 * q.val := by decide +kernel
  exact hall ⟨c, hc⟩

/-- STATUS, TRAIN_RESULT, TRAIN_FAIL_CNT and EVENT of a channel, and the words of an event that is discarded. -/
def trainWords (c : Nat) : List Nat :=
  [(R.DRC_S_STATE.pg c).addr, (R.DRC_TRAIN_RESULT_GOOD_FULL.pg c).addr, (R.DRC_TRAIN_FAIL_CNT_COUNT.pg c).addr, evKey (eDRC c)] ++
    discardWords

/-- They lie in the channel's page and in SNAP's. -/
theorem page_trainWords {c k : Nat} (hc : c < 4) (hk : k ∈ trainWords c) : k / 0x1000 = 0xB0 + c ∨ k / 0x1000 = 6 := by
  have hdiscard : ∀ x ∈ discardWords, x / 0x1000 = 6 := by decide +kernel
  rcases List.mem_append.mp hk with hk | hk
  · simp only [List.mem_cons, List.not_mem_nil, or_false, Fld.pg, R.DRC_S_STATE, R.DRC_TRAIN_RESULT_GOOD_FULL,
      R.DRC_TRAIN_FAIL_CNT_COUNT, evKey_eDRC hc] at hk
    omega
  · exact Or.inr (hdiscard k hk)

/-- From s to t a training has ended on channel c: only its words have changed, and beside words only a snapshot can follow. -/
def State.trains (s t : State) (c : Nat) : Prop := s.keeps t (trainWords c) ∧ s.events t

theorem State.trains_trans {s t u : State} {c : Nat} (h : s.trains t c) (h' : t.trains u c) : s.trains u c :=
  ⟨State.keeps_append h.1 h'.1, State.events_trans h.2 h'.2⟩

theorem State.trains_put (s : State) {f : Fld} (v : Nat) {c : Nat} (h : f.addr ∈ trainWords c) : s.trains (s.put f v) c :=
  ⟨State.keeps_mono (s.keeps_put f v) (by simpa using h), State.events_of_regs rfl⟩

theorem State.trains_latch (s : State) (bit c : Nat) : s.trains (s.latch (eDRC c) bit) c :=
  ⟨State.keeps_mono (s.keeps_latch_any _ _)
    (List.forall_mem_cons.mpr ⟨by simp [trainWords], fun _ hk => List.mem_append_right _ hk⟩), (s.latch_spec _ _).2⟩

/-! A channel enters a state. -/

/-- Channel c enters state st, and latches the event of the entry. -/
def State.enters (s : State) (c st bit : Nat) : State := (s.setChanState c st).latch (eDRC c) bit

theorem State.trains_enters (s : State) (c st bit : Nat) : s.trains (s.enters c st bit) c :=
  State.trains_trans (s.trains_put _ (by simp [trainWords])) (State.trains_latch _ _ _)

/-- An event of its page leaves the fields of its other registers. -/
theorem State.get_drcEvent (s : State) {c : Nat} (bit : Nat) (hc : c < 4) {f : Fld} (h : 0x10000 ≤ f.addr)
    (hf : f.addr ≠ 0xB0010 + 0x1000 * c) : (s.latch (eDRC c) bit).get f = s.get f := by
  refine State.keeps_get (s.keeps_latch_any (eDRC c) bit) f ?_
  rw [evKey_eDRC hc, List.mem_cons, not_or]
  exact ⟨hf, notMem_discardWords h⟩

theorem State.chanState_setChanState (s : State) (c : Nat) {st : Nat} (h : st < 8) : (s.setChanState c st).chanState c = st :=
  State.get_put_fits _ (by decide : (2 : Nat) < 32) (by decide : 0 ≤ 2 + 1) (h : st < 2 ^ 3)

theorem State.chanState_enters (s : State) {c st : Nat} (bit : Nat) (hc : c < 4) (h : st < 8) : (s.enters c st bit).chanState c = st :=
  ((s.setChanState c st).get_drcEvent bit hc (f := R.DRC_S_STATE.pg c) (by simp only [Fld.pg, R.DRC_S_STATE]; omega)
    (by simp only [Fld.pg, R.DRC_S_STATE]; omega)).trans (s.chanState_setChanState c h)

theorem State.get_enters (s : State) {c : Nat} (st bit : Nat) (hc : c < 4) {f : Fld} (h : f.addr = 0xB00C0 + 0x1000 * c) :
    (s.enters c st bit).get f = s.get f := by
  have hput : (s.setChanState c st).get f = s.get f :=
    State.keeps_get (s.keeps_put _ _) f (by rw [h]; simp only [Fld.pg, R.DRC_S_STATE, List.mem_singleton]; omega)
  exact ((s.setChanState c st).get_drcEvent bit hc (by omega) (by omega)).trans hput

/-! The setting for the current rate. -/

/-- It is noted in TRAIN_RESULT, beside the windows. -/
theorem State.goodFld_spec (s : State) (c : Nat) :
    (s.goodFld c).addr = 0xB00C0 + 0x1000 * c ∧ (s.goodFld c).hi < 32 ∧
      (s.goodFld c).lo = (s.goodFld c).hi ∧ 15 < (s.goodFld c).lo := by
  unfold State.goodFld
  split
  · exact ⟨rfl, (by decide : (17 : Nat) < 32), rfl, (by decide : (15 : Nat) < 17)⟩
  · exact ⟨rfl, (by decide : (16 : Nat) < 32), rfl, (by decide : (15 : Nat) < 16)⟩

/-- The rate is that of PLL-B. -/
theorem State.goodFld_of_keeps {s t : State} {ks : List Nat} (h : s.keeps t ks) (hk : 0x2088 ∉ ks) (c : Nat) :
    t.goodFld c = s.goodFld c := by
  rw [State.goodFld, State.halfRate, State.keeps_n h hk]
  rfl

theorem rate_notMem_trainWords {c : Nat} (hc : c < 4) : 0x2088 ∉ trainWords c := fun hm => by
  have := page_trainWords hc hm
  omega

theorem goodFld_trainWords (s : State) (c : Nat) : (s.goodFld c).addr ∈ trainWords c := by
  rw [(s.goodFld_spec c).1]
  simp [trainWords, Fld.pg, R.DRC_TRAIN_RESULT_GOOD_FULL]

/-! The end of a training. -/

/-- TRAIN_RESULT shows the windows of a setting, before the setting is noted as good. -/
def State.windowsShown (s : State) (c : Nat) (rd wr : BitVec 8) : State :=
  (s.put (R.DRC_TRAIN_RESULT_WIN_RD.pg c) rd.toNat).put (R.DRC_TRAIN_RESULT_WIN_WR.pg c) wr.toNat

/-- A setting is found. -/
def State.settingFound (s : State) (c : Nat) (rd wr : BitVec 8) : State := (s.windowsShown c rd wr).putB (s.goodFld c) true

theorem State.trains_windowsShown (s : State) (c : Nat) (rd wr : BitVec 8) : s.trains (s.windowsShown c rd wr) c :=
  State.trains_trans (s.trains_put _ (by simp [trainWords, Fld.pg, R.DRC_TRAIN_RESULT_GOOD_FULL, R.DRC_TRAIN_RESULT_WIN_RD]))
    (State.trains_put _ _ (by simp [trainWords, Fld.pg, R.DRC_TRAIN_RESULT_GOOD_FULL, R.DRC_TRAIN_RESULT_WIN_WR]))

theorem State.trains_settingFound (s : State) (c : Nat) (rd wr : BitVec 8) : s.trains (s.settingFound c rd wr) c :=
  State.trains_trans (s.trains_windowsShown c rd wr) (State.trains_put _ _ (goodFld_trainWords s c))

theorem State.trained_pass {s : State} {c : Nat} (hc : c < 4) (rd wr : BitVec 8) :
    s.trained c (.pass rd wr) =
      if (s.settingFound c rd wr).chanState c = chOnline then s.settingFound c rd wr else (s.settingFound c rd wr).enters c chOnline 4 := by
  have hgood := State.goodFld_of_keeps (s.trains_windowsShown c rd wr).1 (rate_notMem_trainWords hc) c
  rw [State.settingFound, ← hgood]
  rfl

/-- What a passing training leaves: s is the state before. -/
structure State.TrainedPass (s t : State) (c : Nat) (rd wr : BitVec 8) : Prop where
  trains : s.trains t c
  chanState : t.chanState c = chOnline
  winRd : t.get (R.DRC_TRAIN_RESULT_WIN_RD.pg c) = rd.toNat
  winWr : t.get (R.DRC_TRAIN_RESULT_WIN_WR.pg c) = wr.toNat
  good : t.is (s.goodFld c) = true

theorem State.get_settingFound (s : State) (c : Nat) (rd wr : BitVec 8) :
    (s.settingFound c rd wr).get (R.DRC_TRAIN_RESULT_WIN_RD.pg c) = rd.toNat ∧
      (s.settingFound c rd wr).get (R.DRC_TRAIN_RESULT_WIN_WR.pg c) = wr.toNat ∧ (s.settingFound c rd wr).is (s.goodFld c) = true := by
  obtain ⟨-, hhi, hlo, hbeside⟩ := s.goodFld_spec c
  have hother : ∀ f : Fld, f.hi ≤ 15 → (s.settingFound c rd wr).get f = (s.windowsShown c rd wr).get f := fun f hf =>
    State.get_put_other _ _ _ _ hhi (Or.inr (Or.inl (by omega)))
  refine ⟨?_, ?_, State.is_putB _ _ _ hhi hlo⟩
  · rw [hother _ (by decide : (7 : Nat) ≤ 15), State.windowsShown,
      State.get_put_other _ _ _ _ (by decide : (15 : Nat) < 32) (Or.inr (Or.inl (by decide : (7 : Nat) < 8)))]
    exact State.get_put_fits _ (by decide : (7 : Nat) < 32) (by decide : 0 ≤ 7 + 1) rd.isLt
  · rw [hother _ (by decide : (15 : Nat) ≤ 15)]
    exact State.get_put_fits _ (by decide : (15 : Nat) < 32) (by decide : 8 ≤ 15 + 1) wr.isLt

theorem State.trainedPass {s : State} {c : Nat} (hc : c < 4) (rd wr : BitVec 8) :
    s.TrainedPass (s.trained c (.pass rd wr)) c rd wr := by
  obtain ⟨hrd, hwr, hgood⟩ := s.get_settingFound c rd wr
  have hfound := s.trains_settingFound c rd wr
  rw [State.trained_pass hc]
  split
  next hst => exact ⟨hfound, hst, hrd, hwr, hgood⟩
  next =>
    exact ⟨State.trains_trans hfound (State.trains_enters _ _ _ _), State.chanState_enters _ 4 hc (by decide),
      (State.get_enters _ _ _ hc rfl).trans hrd, (State.get_enters _ _ _ hc rfl).trans hwr,
      (State.is_congr (State.get_enters _ _ _ hc (s.goodFld_spec c).1)).trans hgood⟩

/-- The failure is counted and latched. -/
def State.failCounted (s : State) (c : Nat) : State := (s.addW (R.DRC_TRAIN_FAIL_CNT_COUNT.pg c) 1).latch (eDRC c) 5

theorem State.trains_failCounted (s : State) (c : Nat) : s.trains (s.failCounted c) c :=
  State.trains_trans (s.trains_put _ (by simp [trainWords])) (State.trains_latch _ _ _)

theorem State.get_failCounted (s : State) {c : Nat} (hc : c < 4) {f : Fld}
    (h : f.addr = 0xB00C0 + 0x1000 * c ∨ f.addr = 0xB000C + 0x1000 * c) :
    (s.failCounted c).get f = s.get f := by
  have hput : (s.addW (R.DRC_TRAIN_FAIL_CNT_COUNT.pg c) 1).get f = s.get f :=
    State.keeps_get (s.keeps_put _ _) f (by simp only [Fld.pg, R.DRC_TRAIN_FAIL_CNT_COUNT, List.mem_singleton]; omega)
  exact ((s.addW (R.DRC_TRAIN_FAIL_CNT_COUNT.pg c) 1).get_drcEvent 5 hc (by omega) (by omega)).trans hput

/-- A retrain that fails leaves the channel with its last good setting, or without one. -/
theorem State.trained_fail {s : State} {c : Nat} (hc : c < 4) (h : s.chanState c = chRetrain) :
    s.trained c .fail =
      (s.failCounted c).enters c (if s.is (s.goodFld c) then chDegraded else chOffline) (if s.is (s.goodFld c) then 2 else 3) := by
  have hfld : (s.failCounted c).goodFld c = s.goodFld c :=
    State.goodFld_of_keeps (s.trains_failCounted c).1 (rate_notMem_trainWords hc) c
  have hgood : (s.failCounted c).is (s.goodFld c) = s.is (s.goodFld c) :=
    State.is_congr (s.get_failCounted hc (Or.inl (s.goodFld_spec c).1))
  have hst : (s.failCounted c).chanState c = chRetrain := (s.get_failCounted hc (Or.inr rfl)).trans h
  have heq : s.trained c .fail =
      if (s.failCounted c).is ((s.failCounted c).goodFld c) then
        if (s.failCounted c).chanState c = chDegraded then s.failCounted c else (s.failCounted c).enters c chDegraded 2
      else if (s.failCounted c).chanState c = chOffline then s.failCounted c else (s.failCounted c).enters c chOffline 3 := rfl
  rw [heq, hfld, hgood, hst, if_neg (show chRetrain ≠ chDegraded by decide), if_neg (show chRetrain ≠ chOffline by decide)]
  split <;> rfl

theorem State.trains_trained_fail {s : State} {c : Nat} (hc : c < 4) (h : s.chanState c = chRetrain) :
    s.trains (s.trained c .fail) c ∧ (s.trained c .fail).chanState c = (if s.is (s.goodFld c) then chDegraded else chOffline) := by
  rw [State.trained_fail hc h]
  exact ⟨State.trains_trans (s.trains_failCounted c) (State.trains_enters _ _ _ _),
    State.chanState_enters _ _ hc (by split <;> decide)⟩

end Sys2Proof.Machine
end

section
/-! Bring-up (12_dram R371, R383): INIT zeroes every populated channel, and its end leaves them ONLINE. -/

namespace Sys2Proof.Machine

/-! Channels beyond their registers. -/

theorem State.chan_setChan_other (s : State) {c j : Nat} (x : ChanSt) (h : j ≠ c) : (s.setChan c x).chan j = s.chan j := by
  simp [State.chan, State.setChan, nth, List.getD_eq_getElem?_getD, List.getElem?_set_ne h.symm]

theorem State.length_setChan (s : State) (c : Nat) (x : ChanSt) : (s.setChan c x).chans.length = s.chans.length := by
  simp [State.setChan]

theorem State.bringing_setBring {s : State} {c : Nat} (b : Bool) (h : c < s.chans.length) : (s.setBring c b).bringing c = b :=
  congrArg ChanSt.bring (State.chan_setChan _ h)

theorem State.bringing_setBring_other (s : State) {c j : Nat} (b : Bool) (h : j ≠ c) : (s.setBring c b).bringing j = s.bringing j :=
  congrArg ChanSt.bring (s.chan_setChan_other _ h)

theorem State.bringing_congr {s t : State} (h : t.chans = s.chans) (c : Nat) : t.bringing c = s.bringing c :=
  congrArg ChanSt.bring (State.chan_congr h c)

/-! The address map (R366). -/

/-- It is a matter of GEOM alone. -/
theorem State.dramN_of_geom {s t : State} (h : t.majW 0xB8080 = s.majW 0xB8080) : t.dramN = s.dramN := by
  simp only [State.dramN, h]

theorem State.dramMap_of_geom {s t : State} (h : t.majW 0xB8080 = s.majW 0xB8080) : t.dramMap = s.dramMap := by
  have hU : t.dramU = s.dramU := by simp only [State.dramU, h]
  funext a
  rw [State.dramMap, State.dramMap, State.dramN_of_geom h, hU]

theorem State.majW_of_copies {s t : State} {k : Nat} (h : t.w k = s.w k) (hA : t.tmrA = s.tmrA) (hB : t.tmrB = s.tmrB) :
    t.majW k = s.majW k := by simp only [State.majW, h, hA, hB]

theorem State.lt_dramN_of_dramMap {s : State} {a : Nat} {p : Nat × Nat} (h : s.dramMap a = some p) : p.1 < s.dramN := by
  have hpos : 0 < s.dramN := Nat.pos_of_ne_zero fun h0 => by simp [State.dramMap, h0] at h
  simp only [State.dramMap] at h
  split at h
  · exact absurd h (by simp)
  · obtain rfl := Option.some.inj h
    exact Nat.mod_lt _ hpos

/-- Address a lies in channel c. -/
def State.inChan (s : State) (c a : Nat) : Bool := (s.dramMap a).any fun p => p.1 == c

theorem State.inChan_of_map {s : State} {a : Nat} {p : Nat × Nat} (h : s.dramMap a = some p) : s.inChan p.1 a = true := by
  simp [State.inChan, h]

theorem State.inChan_of_none {s : State} {a : Nat} (h : s.dramMap a = none) (c : Nat) : s.inChan c a = false := by
  simp [State.inChan, h]

theorem State.inChan_other {s : State} {a c j : Nat} (h : s.inChan j a = true) (hj : j ≠ c) : s.inChan c a = false := by
  cases hm : s.dramMap a with
  | none => exact State.inChan_of_none hm c
  | some p =>
    have hp : p.1 = j := by simpa [State.inChan, hm] using h
    simpa [State.inChan, hm, hp] using hj

/-! INIT. -/

/-- Every byte of the channel reads zero, every other as before. -/
theorem State.byte_dramZero (s : State) (c a : Nat) : (s.dramZero c).byte a = if s.inChan c a then 0 else s.byte a := by
  have hmem : (s.dramZero c).mem = tdrop (fun k => s.inChan c k) s.mem := rfl
  rw [State.byte, hmem]
  split
  next h => exact tget_tdrop_of _ _ _ _ h
  next h => exact tget_tdrop _ _ _ _ (by simpa using h)

theorem State.chans_dramZero (s : State) (c : Nat) : (s.dramZero c).chans = (s.setChan c { s.chan c with cache := [] }).chans := rfl

theorem State.length_dramZero (s : State) (c : Nat) : (s.dramZero c).chans.length = s.chans.length := by
  rw [State.chans_dramZero, State.length_setChan]

theorem State.bringing_dramZero_other (s : State) {c j : Nat} (h : j ≠ c) : (s.dramZero c).bringing j = s.bringing j := by
  rw [State.bringing_congr (s.chans_dramZero c)]
  exact congrArg ChanSt.bring (s.chan_setChan_other _ h)

theorem State.chanState_dramZero (s : State) (c j : Nat) : (s.dramZero c).chanState j = s.chanState j :=
  State.get_congr s (s.dramZero c) rfl _

theorem State.chanState_setBring (s : State) (c j : Nat) (b : Bool) : (s.setBring c b).chanState j = s.chanState j := rfl

theorem State.chanState_setChanState_other (s : State) {c j : Nat} (st : Nat) (h : j ≠ c) :
    (s.setChanState c st).chanState j = s.chanState j :=
  State.get_put_other _ _ _ _ (by decide : (2 : Nat) < 32) (Or.inl (by simp only [Fld.pg, R.DRC_S_STATE]; omega))

/-- A channel is zeroed, is in INIT, and a bring-up runs on it. -/
def State.startsInit (s : State) (c : Nat) : State := ((s.dramZero c).setChanState c chInit).setBring c true

/-- From s to t only words among ks have changed, and beside the words nothing but the channels and what the memory behind them holds. -/
def State.writesInit (s t : State) (ks : List Nat) : Prop :=
  s.keeps t ks ∧ t = { s.regsOf t with chans := t.chans, mem := t.mem, dramErr := t.dramErr }

theorem State.writesInit_trans {s t u : State} {ks : List Nat} (h : s.writesInit t ks) (h' : t.writesInit u ks) : s.writesInit u ks := by
  refine ⟨State.keeps_append h.1 h'.1, ?_⟩
  rw [h'.2]; rw [h.2]; rfl

theorem State.geom_of_writesInit {s t : State} {ks : List Nat} (h : s.writesInit t ks) (hk : 0xB8080 ∉ ks) :
    t.majW 0xB8080 = s.majW 0xB8080 :=
  State.majW_of_copies (h.1 _ hk) (by rw [h.2]; rfl) (by rw [h.2]; rfl)

/-- STATUS of every channel. -/
def stateWords : List Nat := [0xB000C, 0xB100C, 0xB200C, 0xB300C]

theorem status_stateWords {c : Nat} (hc : c < 4) : (R.DRC_S_STATE.pg c).addr ∈ stateWords := by
  interval_cases c <;> decide

theorem State.writesInit_startsInit (s : State) {c : Nat} (hc : c < 4) : s.writesInit (s.startsInit c) stateWords := by
  refine ⟨fun k hk => ?_, rfl⟩
  exact (s.dramZero c).put_w_other (R.DRC_S_STATE.pg c) chInit k fun h => hk (h ▸ status_stateWords hc)

/-- What INIT looks at of a channel: its state, whether a bring-up runs, and its bytes. -/
def State.initView (s : State) (c : Nat) : Nat × Bool × (Nat → Byte) :=
  (s.chanState c, s.bringing c, fun a => if s.inChan c a then s.byte a else 0)

theorem State.byte_startsInit (s : State) (c a : Nat) : (s.startsInit c).byte a = if s.inChan c a then 0 else s.byte a :=
  s.byte_dramZero c a

theorem State.inChan_startsInit (s : State) {c : Nat} (hc : c < 4) : (s.startsInit c).inChan = s.inChan := by
  have hmap := State.dramMap_of_geom (State.geom_of_writesInit (s.writesInit_startsInit hc) (by decide))
  funext j a
  simp only [State.inChan, hmap]

theorem State.initView_startsInit {s : State} {c : Nat} (hc : c < 4) (h : c < s.chans.length) :
    (s.startsInit c).initView c = (chInit, true, fun _ => 0) := by
  have hst : (s.startsInit c).chanState c = chInit := by
    rw [State.startsInit, State.chanState_setBring, State.chanState_setChanState _ _ (by decide)]
  have hbring : (s.startsInit c).bringing c = true :=
    State.bringing_setBring true (by rw [State.setChanState, State.put_chans, State.length_dramZero]; exact h)
  rw [State.initView, hst, hbring, s.inChan_startsInit hc]
  refine congrArg (fun f => (chInit, true, f)) (funext fun a => ?_)
  rw [State.byte_startsInit]
  split <;> rfl

theorem State.initView_startsInit_other (s : State) {c j : Nat} (hc : c < 4) (h : j ≠ c) :
    (s.startsInit c).initView j = s.initView j := by
  have hst : (s.startsInit c).chanState j = s.chanState j := by
    rw [State.startsInit, State.chanState_setBring, State.chanState_setChanState_other _ _ h, State.chanState_dramZero]
  have hbring : (s.startsInit c).bringing j = s.bringing j := by
    rw [State.startsInit, State.bringing_setBring_other _ true h, State.setChanState, State.bringing_congr (State.put_chans _ _ _),
      State.bringing_dramZero_other _ h]
  rw [State.initView, hst, hbring, s.inChan_startsInit hc]
  refine congrArg (fun f => (s.chanState j, s.bringing j, f)) (funext fun a => ?_)
  rw [State.byte_startsInit]
  cases hin : s.inChan j a
  · rfl
  · rw [State.inChan_other hin h]; rfl

theorem State.length_startsInit (s : State) (c : Nat) : (s.startsInit c).chans.length = s.chans.length :=
  (State.length_setChan _ c _).trans (s.length_dramZero c)

/-- Every populated channel starts. -/
def State.allStart (s : State) : State := s.upto s.dramN State.startsInit

/-- What is kept while channels start: s is the state before. -/
structure State.Starting (s u : State) : Prop where
  writes : s.writesInit u stateWords
  length : u.chans.length = s.chans.length
  outside : ∀ a, s.dramMap a = none → u.byte a = s.byte a

theorem State.Starting.step {s u : State} (h : s.Starting u) {c : Nat} (hc : c < 4) : s.Starting (u.startsInit c) where
  writes := State.writesInit_trans h.writes (u.writesInit_startsInit hc)
  length := (u.length_startsInit c).trans h.length
  outside a ha := by
    have hmap := State.dramMap_of_geom (State.geom_of_writesInit h.writes (by decide))
    rw [State.byte_startsInit, State.inChan_of_none (by rw [hmap, ha])]
    exact h.outside a ha

theorem State.allStart_spec {s : State} (hl : s.chans.length = 4) :
    s.Starting s.allStart ∧ ∀ c < s.dramN, s.allStart.initView c = (chInit, true, fun _ => 0) := by
  have hn := s.dramN_le
  have h := State.upto_pointwise (s := s) (n := s.dramN) (f := State.startsInit) s.Starting State.initView
    (fun _ => (chInit, true, fun _ => 0)) ⟨⟨s.keeps_refl _, rfl⟩, rfl, fun _ _ => rfl⟩ (fun u i hi hu =>
      ⟨hu.step (by omega), State.initView_startsInit (by omega) (by rw [hu.length, hl]; omega),
        fun j _ hne => u.initView_startsInit_other (by omega) hne⟩) s.dramN le_rfl
  exact ⟨h.1, fun c hc => (h.2 c hc).trans (if_pos hc)⟩

/-- What INIT makes of the channels and of their contents: s is the state before. -/
structure State.Inits (s t : State) : Prop where
  chans : ∀ c < s.dramN, t.chanState c = chInit ∧ t.bringing c = true
  zero : ∀ a, (s.dramMap a).isSome = true → t.byte a = 0
  outside : ∀ a, s.dramMap a = none → t.byte a = s.byte a
  bus : t.bus = s.bus
  idle : t.fabricIdle = s.fabricIdle
  clk : t.clk = s.clk

theorem State.inits_allStart {s : State} (hl : s.chans.length = 4) : s.Inits s.allStart := by
  obtain ⟨hs, hview⟩ := State.allStart_spec hl
  have hframe := hs.writes.2
  refine ⟨fun c hc => ?_, fun a ha => ?_, hs.outside, by rw [hframe]; rfl, by rw [hframe]; rfl, by rw [hframe]; rfl⟩
  · have hv := hview c hc
    exact ⟨congrArg Prod.fst hv, congrArg (fun v => v.2.1) hv⟩
  · obtain ⟨p, hp⟩ := Option.isSome_iff_exists.mp ha
    have hmap := State.dramMap_of_geom (State.geom_of_writesInit hs.writes (by decide))
    have hin : s.allStart.inChan p.1 a = true := State.inChan_of_map (by rw [hmap, hp])
    have hv := congrFun (congrArg (fun v => v.2.2) (hview p.1 (State.lt_dramN_of_dramMap hp))) a
    simpa only [State.initView, hin, if_true] using hv

/-- What follows leaves the channels and their contents. -/
theorem State.Inits.after {s t u : State} (h : s.Inits t) {ks : List Nat} (hu : t.writesAfter u ks)
    (hk : ∀ c < 4, 0xB000C + 0x1000 * c ∉ ks) : s.Inits u where
  chans c hc := by
    have h4 := s.dramN_le
    rw [State.chanState_of_keeps hu.1 (hk c (by omega)), State.bringing_congr (State.chans_of_writesAfter hu)]
    exact h.chans c hc
  zero a ha := (State.byte_congr t u (State.mem_of_writesAfter hu) a).trans (h.zero a ha)
  outside a ha := (State.byte_congr t u (State.mem_of_writesAfter hu) a).trans (h.outside a ha)
  bus := (State.bus_of_writesAfter hu).trans h.bus
  idle := (State.idle_of_writesAfter hu).trans h.idle
  clk := (State.clk_of_writesAfter hu).trans h.clk

theorem State.dramInitOp_eq {s : State} (hn : s.dramN ≠ 0) (hoff : ∀ c < s.dramN, s.chanState c = chOff) :
    s.dramInitOp = s.allStart.chansChanged := by
  refine if_neg ?_
  simp only [not_or, List.any_eq_true, List.mem_range, bne_iff_ne, not_exists, not_and, not_not]
  exact ⟨hn, hoff⟩

theorem status_followWords {c : Nat} (hc : c < 4) : 0xB000C + 0x1000 * c ∉ followWords :=
  notMem_followWords (by omega) (by omega) (by omega)

theorem status_slotWords {c : Nat} (hc : c < 4) : 0xB000C + 0x1000 * c ∉ slotWords := by
  simp only [slotWords, R.RED_S_SLOT_OK, List.mem_cons, List.not_mem_nil, or_false, not_or]
  omega

theorem State.inits_dramInitOp {s : State} (hn : s.dramN ≠ 0) (hl : s.chans.length = 4) (hw : s.clk.waiting = false)
    (hoff : ∀ c < s.dramN, s.chanState c = chOff) : s.Inits s.dramInitOp.slotsUpdate := by
  have hstart := State.inits_allStart hl
  rw [State.dramInitOp_eq hn hoff]
  exact (hstart.after (State.writesAfter_chansChanged (by rw [hstart.clk, hw])) fun c hc => status_followWords hc).after
    (State.writesAfter_slotsUpdate _) fun c hc => status_slotWords hc

end Sys2Proof.Machine
end

section
/-! The end of a bring-up, and retrains (12_dram R383, R384). -/

namespace Sys2Proof.Machine

/-! A passing training ends the bring-up of a channel. -/

/-- The words that the trainings of the channels write. -/
def allTrainWords : List Nat := trainWords 0 ++ trainWords 1 ++ trainWords 2 ++ trainWords 3

theorem mem_allTrainWords {c : Nat} (hc : c < 4) : ∀ k ∈ trainWords c, k ∈ allTrainWords := by
  intro k hk
  interval_cases c <;> simp only [allTrainWords, List.mem_append] at hk ⊢ <;> tauto

theorem quietPages_allTrainWords : ∀ k ∈ [R.PWR_DOM_ON_ON.addr, 0xB8080], k ∉ allTrainWords := by decide +kernel

/-- The end of a training ends the bring-up of its channel. -/
def State.endsInit (s : State) (c : Nat) (r : TrainResult) : State := (s.trained c r).setBring c false

/-- What the end of a bring-up looks at of a channel: its state, and whether a bring-up runs. -/
def State.bringView (s : State) (c : Nat) : Nat × Bool := (s.chanState c, s.bringing c)

theorem State.chans_of_trains {s t : State} {c : Nat} (h : s.trains t c) : t.chans = s.chans := by
  rw [h.2]; rfl

theorem State.chanState_of_trains {s t : State} {c j : Nat} (h : s.trains t c) (hc : c < 4) (hj : j < 4) (hne : j ≠ c) :
    t.chanState j = s.chanState j :=
  State.chanState_of_keeps h.1 fun hm => by
    have := page_trainWords hc hm
    omega

theorem State.bringView_endsInit {s : State} {c : Nat} (hc : c < 4) (h : c < s.chans.length) (rd wr : BitVec 8) :
    (s.endsInit c (.pass rd wr)).bringView c = (chOnline, false) := by
  have ht := State.trainedPass (s := s) hc rd wr
  rw [State.bringView, State.endsInit, State.chanState_setBring, ht.chanState,
    State.bringing_setBring _ (by rw [State.chans_of_trains ht.trains]; exact h)]

theorem State.bringView_endsInit_other {s : State} {c j : Nat} (hc : c < 4) (hj : j < 4) (hne : j ≠ c) (rd wr : BitVec 8) :
    (s.endsInit c (.pass rd wr)).bringView j = s.bringView j := by
  have ht := (State.trainedPass (s := s) hc rd wr).trains
  rw [State.bringView, State.endsInit, State.chanState_setBring, State.chanState_of_trains ht hc hj hne,
    State.bringing_setBring_other _ _ hne, State.bringing_congr (State.chans_of_trains ht), State.bringView]

/-- What is kept while bring-ups end: s is the state before. -/
structure State.Ending (s u : State) : Prop where
  keeps : s.keeps u allTrainWords
  frame : u = { s.regsOf u with snapQ := u.snapQ, chans := u.chans }
  length : u.chans.length = s.chans.length

theorem State.Ending.step {s u : State} (h : s.Ending u) {c : Nat} (hc : c < 4) (rd wr : BitVec 8) :
    s.Ending (u.endsInit c (.pass rd wr)) := by
  have ht := (State.trainedPass (s := u) hc rd wr).trains
  refine ⟨State.keeps_append h.keeps (State.keeps_mono (t := u.trained c (.pass rd wr)) ht.1 (mem_allTrainWords hc)), ?_, ?_⟩
  · have hframe : u.endsInit c (.pass rd wr) =
        State.setBring { u.regsOf (u.trained c (.pass rd wr)) with snapQ := (u.trained c (.pass rd wr)).snapQ } c false :=
      congrArg (State.setBring · c false) ht.2
    rw [hframe, h.frame]
    rfl
  · rw [State.endsInit, State.setBring, State.length_setChan, State.chans_of_trains ht, h.length]

/-- The bring-up of every populated channel ends. -/
def State.allEnd (s : State) (rs : List TrainResult) : State := s.upto s.dramN fun u c => u.endsInit c (rs.getD c .fail)

theorem TrainResult.pass_of_ne {r : TrainResult} (h : r ≠ .fail) : ∃ rd wr, r = .pass rd wr := by
  cases r with
  | pass rd wr => exact ⟨rd, wr, rfl⟩
  | fail => exact absurd rfl h

theorem State.allEnd_spec {s : State} {rs : List TrainResult} (hl : s.chans.length = 4) (hp : ∀ c < s.dramN, rs.getD c .fail ≠ .fail) :
    s.Ending (s.allEnd rs) ∧ ∀ c < s.dramN, (s.allEnd rs).bringView c = (chOnline, false) := by
  have hn := s.dramN_le
  have h := State.upto_pointwise (s := s) (n := s.dramN) (f := fun u c => u.endsInit c (rs.getD c .fail)) s.Ending State.bringView
    (fun _ => (chOnline, false)) ⟨s.keeps_refl _, rfl, rfl⟩ (fun u i hi hu => by
      obtain ⟨rd, wr, hr⟩ := TrainResult.pass_of_ne (hp i hi)
      rw [hr]
      exact ⟨hu.step (by omega) rd wr, State.bringView_endsInit (by omega) (by rw [hu.length, hl]; omega) rd wr,
        fun j hj hne => State.bringView_endsInit_other (by omega) (by omega) hne rd wr⟩) s.dramN le_rfl
  exact ⟨h.1, fun c hc => (h.2 c hc).trans (if_pos hc)⟩

/-- Where every populated channel is in its bring-up, it ends on each of them. -/
theorem State.dramInitEnd_eq {s : State} (rs : List TrainResult) (hn : s.dramN ≠ 0)
    (h : ∀ c < s.dramN, s.chanState c = chInit ∧ s.bringing c = true) :
    s.dramInitEnd rs = ((s.allEnd rs).latch eDPHY 0).chansChanged := by
  have hall : ((List.range s.dramN).filter fun c => s.chanState c = chInit && s.bringing c) = List.range s.dramN :=
    List.filter_eq_self.mpr fun c hc => by simp [h c (List.mem_range.mp hc)]
  rw [State.dramInitEnd, hall]
  exact if_neg (by simp [hn])

/-- Every populated channel is usable where it is ONLINE. -/
theorem State.dramUsable_of_online {s : State} (hd : s.domOn 13 = true) (hn : s.dramN ≠ 0)
    (h : ∀ c < s.dramN, s.chanState c = chOnline) : s.dramUsable = true := by
  have hall : ((List.range s.dramN).all fun c => s.chanUsable c) = true :=
    List.all_eq_true.mpr fun c hc => by simp [State.chanUsable, h c (List.mem_range.mp hc)]
  simp [State.dramUsable, hd, hn, hall]

theorem State.domOn_congr {s t : State} (h : t.w R.PWR_DOM_ON_ON.addr = s.w R.PWR_DOM_ON_ON.addr) (hh : t.held = s.held) (d : Nat) :
    t.domOn d = s.domOn d := by simp only [State.domOn, State.get, State.n, h, hh]

/-- The bring-ups have ended, and INIT_DONE is latched. -/
def State.initEnded (s : State) (rs : List TrainResult) : State := (s.allEnd rs).latch eDPHY 0

theorem State.keeps_initEnded (s : State) (rs : List TrainResult) : (s.allEnd rs).keeps (s.initEnded rs) (evKey eDPHY :: discardWords) :=
  State.keeps_latch_any _ _ _

/-- What the end of the bring-ups leaves: s is the state before. -/
structure State.InitEnded (s t : State) : Prop where
  chans : ∀ c < s.dramN, t.chanState c = chOnline ∧ t.bringing c = false
  event : t.hasEvent eDPHY 0 = true
  usable : t.dramUsable = true
  mem : t.mem = s.mem
  idle : t.fabricIdle = s.fabricIdle
  clk : t.clk = s.clk

theorem State.initEnded_spec {s : State} {rs : List TrainResult} (hd : s.domOn 13 = true) (hn : s.dramN ≠ 0) (hl : s.chans.length = 4)
    (hp : ∀ c < s.dramN, rs.getD c .fail ≠ .fail) : s.InitEnded (s.initEnded rs) := by
  obtain ⟨he, hview⟩ := State.allEnd_spec hl hp
  have hk := s.keeps_initEnded rs
  have hframe : s.initEnded rs = { (s.allEnd rs).regsOf (s.initEnded rs) with snapQ := (s.initEnded rs).snapQ } :=
    (State.latch_spec _ _ _).2
  have hev : (s.initEnded rs).hasEvent eDPHY 0 = true := State.hasEvent_latch_any (by decide) (by decide +kernel)
  have hother : ∀ k, k ∉ evKey eDPHY :: discardWords → k ∉ allTrainWords → (s.initEnded rs).w k = s.w k := fun k h1 h2 =>
    (hk k h1).trans (he.keeps k h2)
  have hA : (s.initEnded rs).tmrA = s.tmrA := by rw [hframe, he.frame]; rfl
  have hB : (s.initEnded rs).tmrB = s.tmrB := by rw [hframe, he.frame]; rfl
  have hheld : (s.initEnded rs).held = s.held := by rw [hframe, he.frame]; rfl
  have hgeom := State.majW_of_copies (hother 0xB8080 (by decide +kernel) (quietPages_allTrainWords _ (by simp))) hA hB
  have hchans : ∀ c < s.dramN, (s.initEnded rs).chanState c = chOnline ∧ (s.initEnded rs).bringing c = false := fun c hc => by
    have h4 := s.dramN_le
    have hst : (s.initEnded rs).chanState c = (s.allEnd rs).chanState c := State.chanState_of_keeps hk (by
      rw [evKey_eDPHY, List.mem_cons, not_or]
      exact ⟨by omega, notMem_discardWords (by omega)⟩)
    rw [hst, State.bringing_congr (congrArg State.chans hframe :)]
    exact ⟨congrArg Prod.fst (hview c hc), congrArg Prod.snd (hview c hc)⟩
  refine ⟨hchans, hev, ?_, by rw [hframe, he.frame]; rfl, by rw [hframe, he.frame]; rfl, by rw [hframe, he.frame]; rfl⟩
  refine State.dramUsable_of_online ?_ (by rw [State.dramN_of_geom hgeom]; exact hn) fun c hc =>
    (hchans c (by rwa [State.dramN_of_geom hgeom] at hc)).1
  rw [State.domOn_congr (hother _ (by decide +kernel) (quietPages_allTrainWords _ (by simp))) hheld, hd]

/-- The clause on the end of a bring-up. -/
theorem gives_dramInitDone {s : State} {rs : List TrainResult} (hpage : s.pageOn eDPHY = true) (hi : s.fabricIdle = true)
    (hn : s.dramN ≠ 0) (hl : s.chans.length = 4) (hw : s.clk.waiting = false)
    (h : ∀ c < s.dramN, s.chanState c = chInit ∧ s.bringing c = true) (hp : ∀ c < s.dramN, rs.getD c .fail ≠ .fail) :
    Gives (.dramInitDone rs) s fun t =>
      (∀ c < s.dramN, t.chanState c = chOnline ∧ t.bringing c = false) ∧ t.is R.DPHY_S_USABLE = true ∧ t.hasEvent eDPHY 0 = true ∧
        t.mem = s.mem := by
  have he := State.initEnded_spec hpage hn hl hp
  have hclk : (s.initEnded rs).clk.waiting = false := by rw [he.clk, hw]
  have hafter := State.writesAfter_chansChanged hclk
  have hidle : (s.initEnded rs).chansChanged.fabricIdle = true := by rw [State.idle_of_writesAfter hafter, he.idle, hi]
  have hx : exec (.dramInitDone rs) s = done (s.initEnded rs).chansChanged := by
    refine congrArg done ((if_pos hpage).trans ?_)
    rw [State.dramInitEnd_eq rs hn h]
    exact State.afterAccess_idle _ hidle
  refine gives_done hx ⟨fun c hc => ?_, ?_, ?_, ?_⟩
  · have h4 := s.dramN_le
    have hchan : (s.initEnded rs).chansChanged.settle.chans = (s.initEnded rs).chans :=
      (State.settle_chans _).trans (State.chans_of_writesAfter hafter)
    rw [State.chanState_settled hafter.1 (status_followWords (by omega)), State.bringing_congr hchan]
    exact he.chans c hc
  · rw [State.settle_is, State.usable_chansChanged hclk, he.usable]
  · rw [State.settle_hasEvent]
    exact State.hasEvent_chansChanged hclk he.event
  · rw [State.settle_mem, State.mem_of_writesAfter hafter, he.mem]

/-! The turn of a channel. -/

theorem exec_trainTurn {s u : State} {c : Fin 4} {p : Bool} (hpage : s.pageOn (eDRC c.val) = true) (h : s.trainTurnOp c.val p = u)
    (hi : u.fabricIdle = true) : exec (.trainTurn c p) s = done u := by
  refine congrArg done ((if_pos hpage).trans ?_)
  rw [h]
  exact State.afterAccess_idle _ hi

/-- The clause on a turn that passes. -/
theorem gives_trainTurn_pass {s : State} {c : Fin 4} (hpage : s.pageOn (eDRC c.val) = true) (hi : s.fabricIdle = true)
    (hper : s.is (R.DRC_TRAIN_PERIOD_MS.pg c.val) = true) (hst : s.chanState c.val = chOnline) :
    Gives (.trainTurn c true) s fun t =>
      t.is (s.goodFld c.val) = true ∧ t.chanState c.val = chOnline ∧ s.keeps t [(R.DRC_TRAIN_RESULT_GOOD_FULL.pg c.val).addr] ∧
        t = s.regsOf t := by
  obtain ⟨haddr, hhi, hlo, -⟩ := s.goodFld_spec c.val
  have hop : s.trainTurnOp c.val true = s.putB (s.goodFld c.val) true := by
    simp only [State.trainTurnOp, hper, hst]
    rfl
  have hw : s.writes (s.putB (s.goodFld c.val) true) [(R.DRC_TRAIN_RESULT_GOOD_FULL.pg c.val).addr] :=
    s.writes_put _ (by rw [haddr]; simp [Fld.pg, R.DRC_TRAIN_RESULT_GOOD_FULL])
  have hall := State.writes_trans hw (State.writes_settle _ _)
  refine gives_done (exec_trainTurn hpage hop hi) ⟨?_, ?_, hall.1, hall.2⟩
  · rw [State.settle_is]
    exact State.is_putB _ _ _ hhi hlo
  · refine (State.chanState_of_keeps hall.1 ?_).trans hst
    simp only [Fld.pg, R.DRC_TRAIN_RESULT_GOOD_FULL, List.mem_singleton]
    omega

/-- Channel c retrains, and USABLE and CONV follow. -/
def State.startsRetrain (s : State) (c : Nat) : State := (s.setChanState c chRetrain).chansChanged

theorem State.startsRetrain_spec {s : State} {c : Nat} (hc : c < 4) (hw : s.clk.waiting = false) :
    (s.setChanState c chRetrain).writesAfter (s.startsRetrain c) followWords ∧ (s.startsRetrain c).chanState c = chRetrain := by
  have hafter := State.writesAfter_chansChanged (s := s.setChanState c chRetrain) hw
  exact ⟨hafter, (State.chanState_of_keeps hafter.1 (status_followWords hc)).trans (State.chanState_setChanState _ _ (by decide))⟩

/-- The clause on a turn that does not pass. -/
theorem gives_trainTurn_fail {s : State} {c : Fin 4} (hpage : s.pageOn (eDRC c.val) = true) (hi : s.fabricIdle = true)
    (hw : s.clk.waiting = false) (hper : s.is (R.DRC_TRAIN_PERIOD_MS.pg c.val) = true)
    (hst : s.chanState c.val = chOnline ∨ s.chanState c.val = chDegraded) :
    Gives (.trainTurn c false) s fun t => t.chanState c.val = chRetrain ∧ t.mem = s.mem := by
  obtain ⟨hafter, hret⟩ := State.startsRetrain_spec c.isLt hw
  have hop : s.trainTurnOp c.val false = s.startsRetrain c.val := by
    rcases hst with h | h <;> simp only [State.trainTurnOp, hper, h] <;> rfl
  refine gives_done (exec_trainTurn hpage hop ((State.idle_of_writesAfter hafter).trans hi)) ⟨?_, ?_⟩
  · exact (State.settle_get _ _).trans hret
  · rw [State.settle_mem]
    exact (State.mem_of_writesAfter hafter).trans (s.put_mem _ _)

/-! A retrain ends. -/

theorem result_followWords {c : Nat} (hc : c < 4) : 0xB00C0 + 0x1000 * c ∉ followWords :=
  notMem_followWords (by omega) (by omega) (by omega)

/-- What a training leaves stands once USABLE and CONV have followed. -/
theorem gives_trainingDone_of_trains {s u : State} {c : Fin 4} {r : TrainResult} {P : State → Prop}
    (hpage : s.pageOn (eDRC c.val) = true) (hi : s.fabricIdle = true) (hw : s.clk.waiting = false) (hst : s.chanState c.val = chRetrain)
    (hu : s.trained c.val r = u) (ht : s.trains u c.val)
    (hP : ∀ t : State, t.chanState c.val = u.chanState c.val →
      (∀ f : Fld, f.addr = 0xB00C0 + 0x1000 * c.val → t.get f = u.get f) → P t) :
    Gives (.trainingDone c r) s fun t => P t ∧ t.mem = s.mem := by
  have hclk : u.clk.waiting = false := by rw [ht.2]; exact hw
  have hidle : u.fabricIdle = s.fabricIdle := by rw [ht.2]; rfl
  have hmem : u.mem = s.mem := by rw [ht.2]; rfl
  have hafter := State.writesAfter_chansChanged hclk
  have hx : exec (.trainingDone c r) s = done u.chansChanged := by
    refine congrArg done ((if_pos hpage).trans ?_)
    rw [State.trainingEnd, if_pos (Or.inl hst), hu]
    exact State.afterAccess_idle _ (by rw [State.idle_of_writesAfter hafter, hidle, hi])
  refine gives_done hx ⟨hP _ ?_ fun f hf => ?_, ?_⟩
  · exact State.chanState_settled hafter.1 (status_followWords c.isLt)
  · rw [State.settle_get]
    exact State.keeps_get hafter.1 f (by rw [hf]; exact result_followWords c.isLt)
  · rw [State.settle_mem, State.mem_of_writesAfter hafter, hmem]

/-- The clause on the end of a retrain. -/
theorem gives_trainingDone {s : State} {c : Fin 4} (r : TrainResult) (hpage : s.pageOn (eDRC c.val) = true) (hi : s.fabricIdle = true)
    (hw : s.clk.waiting = false) (hst : s.chanState c.val = chRetrain) :
    Gives (.trainingDone c r) s fun t =>
      (match r with
        | .pass rd wr =>
          t.chanState c.val = chOnline ∧ t.get (R.DRC_TRAIN_RESULT_WIN_RD.pg c.val) = rd.toNat ∧
            t.get (R.DRC_TRAIN_RESULT_WIN_WR.pg c.val) = wr.toNat ∧ t.is (s.goodFld c.val) = true
        | .fail => t.chanState c.val = (if s.is (s.goodFld c.val) then chDegraded else chOffline)) ∧ t.mem = s.mem := by
  cases r with
  | pass rd wr =>
    have ht := State.trainedPass (s := s) c.isLt rd wr
    exact gives_trainingDone_of_trains hpage hi hw hst rfl ht.trains fun t hstate hget =>
      ⟨hstate.trans ht.chanState, (hget _ rfl).trans ht.winRd, (hget _ rfl).trans ht.winWr,
        (State.is_congr (hget _ (s.goodFld_spec c.val).1)).trans ht.good⟩
  | fail =>
    obtain ⟨ht, hstate⟩ := State.trains_trained_fail c.isLt hst
    exact gives_trainingDone_of_trains hpage hi hw hst rfl ht fun t h _ => h.trans hstate

end Sys2Proof.Machine
end


section
/-! Writes to CTRL of the DRAM pages that the rules let through (02_register_pages R52; 12_dram R383, R384), and the settling of
Training. -/

namespace Sys2Proof.Machine

/-- CTRL of DRC and of DPHY: one bit, which is a command. -/
def dramCtrlSpec : RegSpec := ⟨8, 1, 4, 0, 0, 0, 1, 0, 0, 0, 0, 0, false, false⟩

/-- a is CTRL of the page that source src names: one of the DRC pages, or DPHY. -/
structure DramCtrl (a src : Nat) : Prop where
  slot : srcOf a = some src
  page : 52 ≤ src ∧ src ≤ 56
  reg : regOf a = some (dramCtrlSpec, 0)
  above : 0xB0008 ≤ a
  off : a % 0x1000 = 8

theorem dramCtrl_drc (c : Fin 4) : DramCtrl (0xB0008 + 0x1000 * c.val) (52 + c.val) := by
  have hall : ∀ q : Fin 4, srcOf (0xB0008 + 0x1000 * q.val) = some (52 + q.val) ∧
      regOf (0xB0008 + 0x1000 * q.val) = some (dramCtrlSpec, 0) := by decide +kernel
  exact ⟨(hall c).1, by omega, (hall c).2, by omega, by omega⟩

theorem dramCtrl_dphy : DramCtrl 0xB8008 56 :=
  ⟨by decide +kernel, by decide, by decide +kernel, by decide, by decide⟩

/-- What the page makes of the word written. -/
def State.hookDram (s : State) (src v : Nat) : State := if src = 56 then s.hookDphy 8 v else s.hookDrc (src - 52) 8 v

theorem State.locate_dramCtrl (s : State) (m : Nat) {a src : Nat} (h : DramCtrl a src) : s.locate m a = some ⟨a, dramCtrlSpec⟩ := by
  obtain ⟨hs, hpage, hr, -, ho⟩ := h
  have hwin : windowPage src = false := by
    simp only [windowPage, Bool.or_eq_false_iff, decide_eq_false_iff_not]; omega
  simp only [State.locate, hs, hr]
  rw [if_neg (by omega), if_neg (by omega), if_neg (by simp [hwin]), if_neg (by omega), if_neg (by omega), if_neg (by omega)]

theorem State.writeHook_dramCtrl (s : State) (m : Nat) {a src : Nat} (old v : Word) (h : DramCtrl a src) :
    s.writeHook m a old v = s.hookDram src v.toNat := by
  obtain ⟨hs, hpage, -, -, ho⟩ := h
  simp only [State.writeHook, hs, Option.getD_some, ho, State.headerHook_none s (Or.inl rfl)]
  -- no page before DRC0 is meant
  iterate 18 rw [if_neg (by omega)]
  by_cases h56 : src = 56
  · rw [if_neg (by omega), if_pos h56, State.hookDram, if_pos h56]
  · rw [if_pos (by omega), State.hookDram, if_neg h56]

theorem State.storeReg_dramCtrl (s : State) (m : Nat) {a src : Nat} (v : Word) (h : DramCtrl a src) :
    s.storeReg m a 0 v = (s.stored a dramCtrlSpec v).hookDram src v.toNat := by
  have hadj : ∀ old new, s.adjust a old new = new := fun old new => by
    have ha := h.above
    have ho := h.off
    rw [State.adjust, if_neg (by omega), if_neg (by omega), if_neg (by omega), if_neg (by omega)]
  have hv : v &&& ~~~ w32 0 = v := BitVec.and_allOnes
  refine Eq.trans ?_ (State.writeHook_dramCtrl _ m (s.majW a) v h)
  simp only [State.storeReg, s.locate_dramCtrl m h, hadj, hv]
  rfl

/-- The write is answered OK: u is what the page makes of the stored word. -/
theorem State.regWrite_dramCtrl {s u : State} {m a src : Nat} {v : Word} (hk : s.takes m a = true) (h : DramCtrl a src)
    (hu : (s.stored a dramCtrlSpec v).hookDram src v.toNat = u) (hi : u.fabricIdle = s.fabricIdle) (hb : u.bus = s.bus) :
    s.regWrite m a v = u.withBus (s.told m .ok []) := by
  have hst : s.storeReg m a 0 v = u := (s.storeReg_dramCtrl m v h).trans hu
  have hbl : s.blockRefuses a 0 v = none := by
    have hlow := h.off
    simp only [State.blockRefuses]
    rw [if_neg (by omega), if_neg (by omega), if_neg (by omega)]
  obtain ⟨-, hidle, -⟩ := (s.sees_iff m a true).mp ((s.takes_iff m a).mp hk).1
  rw [s.regWrite_ok m a v hk hbl (by rw [hst]; exact hi.trans hidle), hst, State.told, hb]
  rfl

/-! INIT. -/

theorem State.writes_dramCtrl (s : State) (a : Nat) (v : Word) : s.writes (s.stored a dramCtrlSpec v) [a] := State.writes_stored v rfl

/-- CTRL is not GEOM: the address map stands. -/
theorem State.geom_dramCtrl (s : State) {a : Nat} (v : Word) (ha : 0xB8080 ≠ a) :
    (s.stored a dramCtrlSpec v).majW 0xB8080 = s.majW 0xB8080 := by
  have hw := s.writes_dramCtrl a v
  exact State.majW_of_copies (hw.1 _ (by simpa using ha)) (by rw [hw.2]; rfl) (by rw [hw.2]; rfl)

theorem State.Inits.of_stored {s t : State} {a : Nat} {v : Word} (h : (s.stored a dramCtrlSpec v).Inits t) (ha : 0xB8080 ≠ a) :
    s.Inits t := by
  have hframe := (s.writes_dramCtrl a v).2
  have hgeom := s.geom_dramCtrl v ha
  obtain ⟨hchans, hzero, hout, hbus, hidle, hclk⟩ := h
  rw [State.dramN_of_geom hgeom] at hchans
  rw [State.dramMap_of_geom hgeom] at hzero hout
  exact ⟨hchans, hzero, fun x hx => (hout x hx).trans (State.byte_congr _ _ (by rw [hframe]; rfl) x),
    hbus.trans (by rw [hframe]; rfl), hidle.trans (by rw [hframe]; rfl), hclk.trans (by rw [hframe]; rfl)⟩

theorem State.inits_hookDram {s : State} {v : Word} (hv : bitOf v.toNat 0 = true) (hn : s.dramN ≠ 0) (hl : s.chans.length = 4)
    (hw : s.clk.waiting = false) (hoff : ∀ c < s.dramN, s.chanState c = chOff) :
    s.Inits ((s.stored 0xB8008 dramCtrlSpec v).hookDram 56 v.toNat) := by
  obtain ⟨hkeeps, hframe⟩ := s.writes_dramCtrl 0xB8008 v
  have hN := State.dramN_of_geom (s.geom_dramCtrl v (by decide : 0xB8080 ≠ 0xB8008))
  have hhook : (s.stored 0xB8008 dramCtrlSpec v).hookDram 56 v.toNat = (s.stored 0xB8008 dramCtrlSpec v).dramInitOp.slotsUpdate := if_pos hv
  rw [hhook]
  refine (State.inits_dramInitOp (by rwa [hN]) (by rw [hframe]; exact hl) (by rw [hframe]; exact hw) fun c hc => ?_).of_stored (by decide)
  rw [hN] at hc
  have h4 := s.dramN_le
  rw [State.chanState_of_keeps hkeeps (by rw [List.mem_singleton]; omega)]
  exact hoff c hc

/-- The clause on INIT. -/
theorem gives_dramInit {s : State} {m : Master} {v : Word} (hk : s.takes m.toNat 0xB8008 = true) (hv : bitOf v.toNat 0 = true)
    (hn : s.dramN ≠ 0) (hl : s.chans.length = 4) (hw : s.clk.waiting = false) (hoff : ∀ c < s.dramN, s.chanState c = chOff) :
    Gives (.dramInit m v) s fun t =>
      (∀ c < s.dramN, t.chanState c = chInit ∧ t.bringing c = true) ∧ (∀ a, (s.dramMap a).isSome = true → t.byte a = 0) ∧
        (∀ a, s.dramMap a = none → t.byte a = s.byte a) ∧ t.bus = s.told m.toNat .ok [] := by
  obtain ⟨hchans, hzero, hout, hbus, hidle, -⟩ := State.inits_hookDram hv hn hl hw hoff
  have hbyte : ∀ (u : State) (b : BusOut) (a : Nat), (u.withBus b).settle.byte a = u.byte a := fun u b a =>
    State.byte_congr u (u.withBus b).settle (State.settle_mem (u.withBus b)) a
  refine gives_done (congrArg done (State.regWrite_dramCtrl hk dramCtrl_dphy rfl hidle hbus)) ⟨fun c hc => ?_, fun a ha => ?_,
    fun a ha => ?_, State.settle_bus _⟩
  · obtain ⟨hstate, hbring⟩ := hchans c hc
    exact ⟨(State.settle_get _ _).trans hstate, (State.bringing_congr (State.settle_chans _) c).trans hbring⟩
  · rw [hbyte]; exact hzero a ha
  · rw [hbyte]; exact hout a ha

/-! RETRAIN. -/

theorem State.retrain_working {s : State} {c : Nat} (h : s.chanState c = chOnline ∨ s.chanState c = chDegraded) :
    s.retrain c = s.startsRetrain c := if_pos h

theorem State.writesAfter_retrain {s : State} {c : Nat} (hc : c < 4) (hw : s.clk.waiting = false)
    (hst : s.chanState c = chOnline ∨ s.chanState c = chDegraded) :
    (s.setChanState c chRetrain).writesAfter (s.retrain c).slotsUpdate (followWords ++ slotWords) ∧
      (s.retrain c).slotsUpdate.chanState c = chRetrain := by
  obtain ⟨hafter, hret⟩ := State.startsRetrain_spec hc hw
  have hslots := State.writesAfter_slotsUpdate (s.startsRetrain c)
  rw [State.retrain_working hst]
  exact ⟨State.writesAfter_trans (State.writesAfter_mono hafter fun _ hk => List.mem_append_left _ hk)
    (State.writesAfter_mono hslots fun _ hk => List.mem_append_right _ hk),
    (State.chanState_of_keeps hslots.1 (status_slotWords hc)).trans hret⟩

/-- The clause on RETRAIN. -/
theorem gives_drcRetrain {s : State} {m : Master} {v : Word} {c : Fin 4} (hk : s.takes m.toNat (0xB0008 + 0x1000 * c.val) = true)
    (hv : bitOf v.toNat 0 = true) (hw : s.clk.waiting = false) (hst : s.chanState c.val = chOnline ∨ s.chanState c.val = chDegraded) :
    Gives (.drcRetrain m c v) s fun t => t.chanState c.val = chRetrain ∧ t.mem = s.mem ∧ t.bus = s.told m.toNat .ok [] := by
  obtain ⟨hkeeps, hframe⟩ := s.writes_dramCtrl (0xB0008 + 0x1000 * c.val) v
  have hclk : (s.stored (0xB0008 + 0x1000 * c.val) dramCtrlSpec v).clk.waiting = false := by rw [hframe]; exact hw
  have hsame : (s.stored (0xB0008 + 0x1000 * c.val) dramCtrlSpec v).chanState c.val = s.chanState c.val :=
    State.chanState_of_keeps hkeeps (by rw [List.mem_singleton]; omega)
  obtain ⟨hafter, hret⟩ := State.writesAfter_retrain c.isLt hclk (by rwa [hsame])
  have hhook : (s.stored (0xB0008 + 0x1000 * c.val) dramCtrlSpec v).hookDram (52 + c.val) v.toNat =
      ((s.stored (0xB0008 + 0x1000 * c.val) dramCtrlSpec v).retrain c.val).slotsUpdate := by
    rw [State.hookDram, if_neg (by omega), Nat.add_sub_cancel_left]
    exact if_pos hv
  refine gives_done (congrArg done (State.regWrite_dramCtrl hk (dramCtrl_drc c) hhook ((State.idle_of_writesAfter hafter).trans ?_)
    ((State.bus_of_writesAfter hafter).trans ?_))) ⟨(State.settle_get _ _).trans hret, ?_, State.settle_bus _⟩
  · rw [hframe]; rfl
  · rw [hframe]; rfl
  · refine (State.settle_mem _).trans ((State.mem_of_writesAfter hafter).trans ?_)
    rw [hframe]; rfl

/-- Settles O37: each clause is the rule of its command. -/
theorem training : Obligations.Training := by
  unfold Obligations.Training
  refine ⟨?_, ?_, ?_, ?_, ?_, ?_⟩
  · intro s m v hk hv hn hl hw hoff
    exact gives_dramInit hk hv hn hl (by simpa using hw) (by simpa using hoff)
  · intro s rs hpage hi hn hl hw hinit hpass
    exact gives_dramInitDone hpage hi hn hl (by simpa using hw) (by simpa using hinit) (by simpa using hpass)
  · intro s c hpage hi hper hst
    exact gives_trainTurn_pass hpage hi hper hst
  · intro s c hpage hi hw hper hst
    exact gives_trainTurn_fail hpage hi (by simpa using hw) hper hst
  · intro s m v c hk hv hw hst
    exact gives_drcRetrain hk hv (by simpa using hw) hst
  · intro s c r hpage hi hw hst
    exact gives_trainingDone r hpage hi (by simpa using hw) hst

end Sys2Proof.Machine
end
